-- ==== Sys2Proof/Word.lean ====
section
/-! DEFINITION. The words of the block: bytes, 64-byte sectors, 256-byte media lines, and the sparse
table that registers, folios and lines are kept in. -/

namespace Sys2Proof

/-- One byte. -/
abbrev Byte := BitVec 8

/-- A host access unit of 64 bytes; byte n is bits [8n+7:8n] (R5). -/
abbrev Sector := BitVec 512

/-- A media line's 256 data bytes, four sectors; sector n is bits [512n+511:512n] (R5). -/
abbrev Line := BitVec 2048

/-- A sparse table: keys strictly rising, no entry equal to what an unlisted key reads as. -/
abbrev Tab (α : Type) := List (Nat × α)

end Sys2Proof
end

