-- ==== Sys2Proof/Syntax.lean ====
section
/-! DEFINITION. The commands of the block: one constructor of `Instr` per row of spec/opcode_table.json,
with the operands the row's rule gives it. The environment's part in an event (what a sense of the media
decodes to, what a link partner sends) is an operand of the event's command. -/

namespace Sys2Proof

/-- R334: Port A or Port B. -/
inductive Head where
  | a | b
deriving DecidableEq, Repr, Inhabited

/-- R19: the direction of a register access. -/
inductive Dir where
  | read | write
deriving DecidableEq, Repr, Inhabited

/-- R365: the host mailbox of either head, or the board mailbox. -/
inductive MbxPort where
  | a | b | board
deriving DecidableEq, Repr, Inhabited

/-- R373: the two inbound FIFOs. -/
inductive FifoPort where
  | boardFifo | vaultFifo
deriving DecidableEq, Repr, Inhabited

/-- R130: the criterion a failed die met. -/
inductive DieFailure where
  | mrrSilent | internalReports | uncorrectableLines
deriving DecidableEq, Repr, Inhabited

/-- R318, R329: the host-memory access that failed. -/
inductive HostSide where
  | fetch | source | dest | completion
deriving DecidableEq, Repr, Inhabited

/-- R336: what the link partner offers. -/
inductive Partner where
  | pcie | cxl11 | cxl20 | cxl31
deriving DecidableEq, Repr, Inhabited

/-- R359: a CXL.io or the CXL.mem IDE stream. -/
inductive IdeStream where
  | io | mem
deriving DecidableEq, Repr, Inhabited

/-- R358: the SPDM 1.2 requests the responder takes. -/
inductive SpdmReq where
  | version | capabilities | algorithms | digests | certificate | challenge | measurements | keyExchange | finish | endSession | heartbeat | keyUpdate
deriving DecidableEq, Repr, Inhabited

/-- R489 SUP_CAUSE.SOURCE. -/
inductive ResetSource where
  | perst | cxlReset | resetDevice | mrN | escalation
deriving DecidableEq, Repr, Inhabited

/-- R110: a channel, the broadcast aperture or a group aperture. -/
inductive ChTarget where
  /-- channel c -/
  | channel (c : Nat)
  /-- broadcast aperture -/
  | broadcast
  /-- group aperture g -/
  | group (g : Nat)
deriving DecidableEq, Repr, Inhabited

/-- R122: what the codec makes of a transfer; the noise of the cells is the environment's. -/
inductive Sense where
  /-- decoded with this many bits corrected -/
  | decoded (bits : Nat)
  /-- uncorrectable detected -/
  | uncorrectable
  /-- decoded, with FLAGS that read as given -/
  | foreign (flags : BitVec 8)
deriving DecidableEq, Repr, Inhabited

/-- R484: a function that is reinitialised at level 2. -/
inductive Function where
  /-- host link of a head -/
  | head (h : Head)
  /-- home slice -/
  | slice (s : Nat)
  /-- purse controller -/
  | purse
  /-- media channel -/
  | channel (c : Nat)
  /-- mover engine -/
  | engine (e : Nat)
  /-- package engine -/
  | package (e : Nat)
  /-- mailbox port -/
  | mailbox (p : MbxPort)
  /-- vault key page -/
  | keyPage (p : Nat)
  /-- control processors -/
  | cpu
deriving DecidableEq, Repr, Inhabited

/-- R360: the DOE data objects served. -/
inductive DoeReq where
  /-- DOE Discovery -/
  | discovery (index : Nat)
  /-- CDAT Table Access -/
  | cdat (entry : Nat)
  /-- CMA/SPDM -/
  | spdm (r : SpdmReq)
deriving DecidableEq, Repr, Inhabited

/-- R356: a configuration request. -/
inductive ConfigReq where
  /-- read of a dword -/
  | read (dword : Nat)
  /-- write of a dword -/
  | write (dword : Nat) (value : BitVec 32)
deriving DecidableEq, Repr, Inhabited

/-- R25: one register access. -/
structure BarAccess where
  /-- the head it arrives on -/
  head : Head
  /-- BAR2, else BAR0 -/
  bar2 : Bool
  /-- byte offset -/
  off : Nat
  /-- size in bytes -/
  size : Nat
  /-- direction -/
  dir : Dir
  /-- value of a write -/
  value : BitVec 64
deriving DecidableEq, Repr, Inhabited

/-- R176: what recovery reads of one checkpoint copy. -/
structure CopyRead where
  /-- the body reads back as it was written -/
  readable : Bool
deriving DecidableEq, Repr, Inhabited

/-- R275: one recoinage page checked at start-up. -/
structure RecoinCheck where
  /-- the page -/
  page : Nat
  /-- lines that pass under neither block -/
  failed : List Nat
deriving DecidableEq, Repr, Inhabited

/-- R151: one listed line sensed at start-up. -/
structure TornCheck where
  /-- channel -/
  ch : Nat
  /-- die position -/
  pos : Nat
  /-- chunk -/
  m : Nat
  /-- row -/
  row : Nat
  /-- class -/
  bullion : Bool
  /-- a parity line -/
  parity : Bool
  /-- it decodes and passes R122 -/
  clean : Bool
  /-- every other line of the stripe decodes and none is torn -/
  stripeOk : Bool
  /-- the data position found uncorrectable, where a parity line is torn -/
  bad : Nat
deriving DecidableEq, Repr, Inhabited

/-- R179: one claim that the rebuild scan reads. -/
structure ScanClaim where
  /-- media folio -/
  m : Nat
  /-- host folio claimed -/
  owner : Nat
  /-- 8-bit generation of the reverse record -/
  gen8 : BitVec 8
  /-- GEN of data line 0 -/
  gen : BitVec 24
  /-- SEALED of the parity line -/
  sealed_ : Bool
  /-- STAMP of the parity line -/
  stamp : BitVec 24
deriving DecidableEq, Repr, Inhabited

/-- R345: the decoder fields of a commit. -/
structure DecoderReq where
  /-- HPA base -/
  base : Nat
  /-- Size -/
  size : Nat
  /-- interleave ways -/
  iw : Nat
  /-- granularity in bytes -/
  gran : Nat
  /-- this controller's way -/
  target : Nat
  /-- DPA skip -/
  skip : Nat
  /-- BI -/
  bi : Bool
deriving DecidableEq, Repr, Inhabited

/-- R395, R396: what the correspondent sends in HELLO. -/
structure PeerHello where
  /-- highest Abalet version, 1 or 2 -/
  version : Nat
  /-- device serial number -/
  serial : BitVec 64
  /-- lifecycle state -/
  life : BitVec 8
  /-- TBS_CTL.SOURCE -/
  source : BitVec 2
deriving DecidableEq, Repr, Inhabited

/-- R395, R411: the correspondent's side of the debt-map exchange. -/
structure PeerDebt where
  /-- folios in its exact map -/
  exact : List Nat
  /-- folios it holds as coarse entries -/
  coarse : List Nat
  /-- it stayed memory-active through the split -/
  active : Bool
  /-- its authority setting -/
  authority : BitVec 2
  /-- its AUTO_SETTLE -/
  auto : Bool
deriving DecidableEq, Repr, Inhabited

/-- R399: a mirror entry or settlement line received. -/
structure MirrorMsg where
  /-- its number -/
  seq : Nat
  /-- key ID -/
  key : Nat
  /-- DPA[44:6] -/
  sector : Nat
  /-- plaintext -/
  data : Sector
  /-- a settlement line -/
  settle : Bool
  /-- the last of its folio in settlement -/
  last : Bool
deriving DecidableEq, Repr, Inhabited

/-- R413: a forwarded access received. -/
structure ForwardMsg where
  /-- its number -/
  id : Nat
  /-- a write -/
  write : Bool
  /-- key ID -/
  key : Nat
  /-- DPA[44:6] -/
  sector : Nat
  /-- write data -/
  data : Sector
  /-- byte enables -/
  enables : BitVec 64
deriving DecidableEq, Repr, Inhabited

/-- R452, R453: one word that recall corrected or found uncorrectable. -/
structure RecallFault where
  /-- byte address -/
  addr : Nat
  /-- uncorrectable -/
  fatal : Bool
deriving DecidableEq, Repr, Inhabited

/-- The commands: a register access, a transaction, an event on a pin or link, or the completion of
something the controller started. -/
inductive Instr where
  /-- REGISTER_WRITE (R6): A host write to a BAR0 or BAR2 register field that has no row of its own sets the field as its access code gives. -/
  | registerWrite (a : BarAccess)
  /-- MISALIGNED_ACCESS (R25): A BAR0 or BAR2 access of an unsupported size or alignment reads all ones or is discarded, and sets ACCESS_ERROR. -/
  | misalignedAccess (a : BarAccess)
  /-- LATCHING_LOW_WORD_READ (R242): A 32-bit read of TBS_NOW_LO or of the low word of a live audit counter latches the high word for the next read of it. -/
  | latchingLowWordRead (a : BarAccess)
  /-- APERTURE_READ (R110): A read through a broadcast or group aperture returns the lowest member's value and records the differing members in MCL_BCAST_DIFF. -/
  | apertureRead (a : BarAccess)
  /-- ISLAND_TIMEOUT (R19): An access that has waited 100 µs for a stopped island is held as a write or answered as all ones, and is recorded in GC_TIMEOUT_INFO. -/
  | islandTimeout (a : BarAccess)
  /-- ISLAND_CLOCK_RETURN (R19): When a stopped island's clock returns, its held writes are applied in arrival order. -/
  | islandClockReturn (d : Nat)
  /-- COMMIT (R28): A write of 1 to a block's COMMIT bit copies the staged values into the commit buffer and sets COMMIT_PENDING. -/
  | commitStaged (t : ChTarget)
  /-- COMMIT_APPLY (R28): At the first frame boundary at least 32 ns after a COMMIT, the buffered staged values take effect together and COMMIT_PENDING clears. -/
  | commitApply (c : Nat)
  /-- FRAME_TOKEN (R23): The timebase issues the frame-start token, with any order action tokens, to every populated cluster one frame ahead. -/
  | frameToken
  /-- FRAME_START (R87): A cluster starts a mint frame at its first clock edge at or after the token's mint time, and applies the map in force, including thermal steps and quiet windows. -/
  | frameStart (k : Nat)
  /-- FRAME_LATE (R88): A cluster whose frame token has not arrived starts the frame on its own cycle count and raises FRAME_LATE. -/
  | frameLate (k : Nat)
  /-- SLOT_START (R94): At the start of each slot, the channel gives the slot to the first ready operation in the order its kind sets. -/
  | slotStart (c : Nat)
  /-- MEMRD (R43): A CXL.mem read is decoded, checked against key ownership and folio state, and served from the eviction buffer, the purse or a media read. -/
  | memRd (h : Head) (tag : Nat) (hpa : BitVec 64) (own : Bool)
  /-- MEMRDDATA (R340): A CXL.mem MemRdData request is served as a read. -/
  | memRdData (h : Head) (tag : Nat) (hpa : BitVec 64) (own : Bool)
  /-- MEMWR (R44): A CXL.mem full write is merged into the till, subject to credits, ownership and folio state, and completed under its acknowledge policy. -/
  | memWr (h : Head) (tag : Nat) (hpa : BitVec 64) (data : Sector) (poison : Bool)
  /-- MEMWRPTL (R340): A CXL.mem partial write merges its enabled bytes as a partial-line write, filling the line from media when it is absent. -/
  | memWrPtl (h : Head) (tag : Nat) (hpa : BitVec 64) (data : Sector) (enables : BitVec 64) (poison : Bool)
  /-- MEMSPECRD (R340): A speculative-read hint queues the line in the home slice's prefetch queue, or is dropped when the queue is full. -/
  | memSpecRd (h : Head) (hpa : BitVec 64)
  /-- RECOINED (R274): A recoinage completes when its lines are re-encrypted and the new block is stored, releasing the held writes. -/
  | recoined (b : Nat)
  /-- MEDIA_READ_DONE (R122): A sensed line is decoded and checked, passing through the drift rule, reconstruction or poison, and is delivered and filled. -/
  | mediaReadDone (op : Nat) (r : Sense)
  /-- MEDIA_WRITE_DONE (R41): A media program completes, sending any late completions, freeing till space and admitting waiting writes. -/
  | mediaWriteDone (op : Nat)
  /-- DRAIN_ISSUE (R207): The drain takes the next due dirty line or counter block, in drain order, and queues its media write to a write slot. -/
  | drainIssue
  /-- DRAIN_AGE_CHECK (R208): Once per second, the age of the oldest write-back entry is evaluated against AGE_S. -/
  | drainAgeCheck
  /-- GPF_PHASE1 (R47): Global Persistent Flush phase 1 withholds new write credits. -/
  | gpfPhase1 (h : Head)
  /-- GPF_PHASE2 (R47): Global Persistent Flush phase 2 waits for earlier writes and, without hold-up, for the till to drain. -/
  | gpfPhase2 (h : Head)
  /-- GPF_PHASE2_COMPLETE (R47): Phase 2 completes once its conditions are met. -/
  | gpfPhase2Complete
  /-- BI_SNOOP_RESPONSE (R59): A head's response to a back-invalidate snoop, with any write-back, lets the waiting access proceed. -/
  | biSnoopResponse (h : Head) (sector : Nat) (wb : Option Sector)
  /-- BI_TIMEOUT (R62): A back-invalidate snoop unanswered for 2 ms clears the head's holder bits and completes the waiting access. -/
  | biTimeout (h : Head) (sector : Nat)
  /-- LOST_SLOT_SCAN_DONE (R199): The drain-ring scan for a purse slot with uncorrectable metadata completes, and accesses waiting for the slot proceed. -/
  | lostSlotScanDone (slot : Nat)
  /-- ALERT (R102): A die asserts ALERT_N, and the controller reads the cause and acts, reissuing dropped packets or repairing write-verify failures. -/
  | alert (c pos : Nat) (cause : BitVec 5) (op : Nat)
  /-- SUSP_FAULT (R115): An M2 die that has not suspended within tSUSP leaves the read waiting for the bank and is reported. -/
  | suspFault (c pos bank : Nat)
  /-- BANK_RESUME (R96): A suspended bank that has had no read queued for 64 ns is sent RESUME. -/
  | bankResume (c pos bank : Nat)
  /-- DIE_TIME_UPDATE (R84): When the mint time crosses a multiple of 2^32 ns, DIE_TIME is written to every M2 die by broadcast MRW. -/
  | dieTimeUpdate
  /-- CHANNEL_BRINGUP (R85): After power-up, device reset or channel reinit, a populated channel is reset, trained, identified, configured and joined to the mint frame. -/
  | channelBringup (c : Nat) (present m2 : BitVec 18)
  /-- BRINGUP_STEP_TIMEOUT (R86): A bring-up step that fails or exceeds its limit repeats the sequence once, then fails the channel with BRINGUP_FAIL. -/
  | bringupStepTimeout (c step : Nat)
  /-- CHANNEL_REINIT (R115): A level 2 reinit of a media channel holds its reads, keeps its writes in the till and brings the channel up again. -/
  | channelReinit (c : Nat)
  /-- DIE_FAILED (R130): A die meeting a failure criterion is declared failed and recorded, and degraded service or a rebuild begins. -/
  | dieFailed (c pos : Nat) (why : DieFailure)
  /-- REBUILD_DONE (R133): A rebuild completes, and position 17 takes the failed position's place. -/
  | rebuildDone (c : Nat)
  /-- RESTRIKE (R145): A queued restrike writes a decoded line back with a new stamp in a maintenance slot. -/
  | restrike (c : Nat)
  /-- PATROL_START (R143): When the patrol period elapses, a patrol pass over every live, read-only and escrow folio begins. -/
  | patrolStart
  /-- PATROL_DONE (R143): A patrol pass completes and PATROL_DONE is raised. -/
  | patrolDone
  /-- SCRUB_DONE (R142): The scrub list empties, SCRUB_ACTIVE clears and stamp-search mode ends. -/
  | scrubDone
  /-- MINT_TIME_RECORD (R140): Every 2^36 ns, the mint time and the daybook summary are recorded in the passbook. -/
  | mintTimeRecord
  /-- JOURNAL_APPEND_COMPLETE (R169): A journal record completes in the passbook, and the change it records takes effect. -/
  | journalAppendComplete
  /-- CHECKPOINT_TIMER (R172): 600 s after the previous checkpoint began, a checkpoint is written. -/
  | checkpointTimer
  /-- CHECKPOINT_RING_THRESHOLD (R172): When the journal ring reaches 49,152 records in use, a checkpoint is written. -/
  | checkpointRingThreshold
  /-- CKPT_REQ (R172): A write of 1 to WLV_CTL.CKPT_REQ requests a checkpoint. -/
  | ckptReq (h : Head)
  /-- CHECKPOINT_DONE (R174): A checkpoint finishes with CKPT-END, freeing journal ring slots. -/
  | checkpointDone
  /-- RECOVERY (R177): At power-up or after device reset, the controller chooses a checkpoint, replays the journal, settles incomplete operations and runs the start-up checks. -/
  | recovery (a b : CopyRead) (recoin : List RecoinCheck) (torn : List TornCheck)
  /-- MEMORY_ACTIVE (R351): When every start-up step has completed, the controller reports memory active. -/
  | memoryActive
  /-- SCAN_DONE (R179): A rebuild scan completes, and the controller waits for the host to commit the result. -/
  | scanDone (bad : List Nat)
  /-- SCAN_COMMIT_DONE (R179): After a committed scan, the losing folios are blanked, a checkpoint is written and ledger-lost mode ends. -/
  | scanCommitDone
  /-- MIGRATION_START (R181): A queued migration starts when fewer than 16 run, allocating a destination and beginning the copy pass. -/
  | migrationStart
  /-- MIGRATION_PASS_DONE (R181): A copy or recopy pass of a migration ends, and the next pass, the drain hold or the REMAP follows. -/
  | migrationPassDone (folio : Nat)
  /-- MIGRATION_SOURCE_QUIESCED (R181): Once operations issued to the source under the old generation have completed, the source is blanked or retired. -/
  | migrationSourceQuiesced (folio : Nat)
  /-- FOLIO_BLANK_DONE (R181): Blanking of a media folio completes, BLANKED is appended, and the folio returns to the reserve. -/
  | folioBlankDone (m : Nat)
  /-- HOLDUP_OK_FALL (R206): HOLDUP_OK falling forces late acknowledgement and an express drain of the whole till. -/
  | holdupOkFall
  /-- HOLDUP_OK_RISE (R206): HOLDUP_OK rising starts the 10 ms wait before early acknowledgement may resume. -/
  | holdupOkRise
  /-- HOLDUP_READY (R206): After HOLDUP_OK has been high for 10 ms, the folios' own acknowledge policies return. -/
  | holdupReady
  /-- TIL_BUDGET_WRITE (R205): A write of TIL_BUDGET stages a new dirty budget, clamped to B_max and the purse size. -/
  | tilBudgetWrite (h : Head) (value : BitVec 32)
  /-- BUDGET_APPLY (R205): At the next frame boundary, the new budget takes effect and H and L are recomputed. -/
  | budgetApply
  /-- PF_TRIP (R210): The power-fail comparator trips, withholding credits, stopping engines and orders, and starting the power-fail drain. -/
  | pfTrip
  /-- POWER_FAIL_DRAIN_DONE (R210): The power-fail drain ends, its passbook records are written, and power-down is requested. -/
  | powerFailDrainDone
  /-- SBOX_CLEAR_DONE (R214): The strongbox zero-fill under the new XTS key completes. -/
  | sboxClearDone
  /-- TBS_SET_HI (R220): A write of the second field of the TBS_SET pair checks the pair and, when consistent under SOURCE 0x0, schedules the set. -/
  | tbsSetHi (h : Head) (value : BitVec 32)
  /-- MINT_TIME_SET (R220): At the chosen frame boundary, the mint time becomes the written value, or the set is refused. -/
  | mintTimeSet
  /-- SOURCE_HOST (R219): A write of SOURCE 0x0 keeps the mint time on the crystal and allows TBS_SET. -/
  | sourceHost (h : Head)
  /-- SOURCE_PTM (R219): A write of SOURCE 0x1 makes the mint time follow PTM dialogues, or is refused. -/
  | sourcePtm (h : Head)
  /-- SOURCE_PAIR_LINK (R219): A write of SOURCE 0x2 makes the mint time follow the correspondent, or is refused. -/
  | sourcePairLink (h : Head)
  /-- TBS_PTM_CFG_WRITE (R219): A write of TBS_PTM_CFG sets the PTM period and port, refusing PORT = 1 when Port B is not a second head. -/
  | tbsPtmCfgWrite (h : Head) (value : BitVec 32)
  /-- PTM_DIALOGUE (R222): Every PERIOD_MS, the controller starts a PTM dialogue, and three unanswered periods raise PTM_LOST. -/
  | ptmDialogue
  /-- PTM_RESPONSE (R222): A PTM response gives the error E, which sets, slews or unlocks the mint time. -/
  | ptmResponse (master : BitVec 64)
  /-- SO_ARM (R225): A write of an entry index to SO_ARM checks the entry and arms it, or rejects it. -/
  | soArm (h : Head) (value : BitVec 32)
  /-- SO_DISARM (R229): A write to SO_DISARM disarms an entry for firings not yet issued, except for a committed release. -/
  | soDisarm (h : Head) (value : BitVec 32)
  /-- NOP (R224): A NOP order fires and is counted. -/
  | nopOrder (entry : Nat)
  /-- PREFETCH_ORDER (R232): A PREFETCH order applies the owner check and queues the named lines for read into the purse. -/
  | prefetchOrder (entry : Nat)
  /-- RELEASE (R238): A RELEASE order takes effect in its frame, flipping the escrow index so that members translate to their staged folios. -/
  | releaseOrder (entry : Nat)
  /-- QUEUE_START (R307): A QUEUE_START order opens a mover queue's start gate in the firing frame. -/
  | queueStart (entry : Nat)
  /-- QUIET_BEGIN (R231): A QUIET_BEGIN order starts a quiet window on the channels in its mask. -/
  | quietBegin (entry : Nat)
  /-- QUIET_END (R231): A QUIET_END order ends the quiet window on the channels in its mask. -/
  | quietEnd (entry : Nat)
  /-- AUDIT (R224): An AUDIT order requests a frame-aligned audit snapshot with its TAG. -/
  | auditOrder (entry : Nat)
  /-- MARKER (R224): A MARKER order raises MARKER with its TAG and firing time. -/
  | markerOrder (entry : Nat)
  /-- QUIET_FORCED_END (R231): A quiet window that reaches QUIET_MAX ends by itself. -/
  | quietForcedEnd (c : Nat)
  /-- RELEASE_PREPARATION_START (R238): At the preparation lead before FIRE_TIME, or at arm, a closed set's release is journaled and its members held. -/
  | releasePreparationStart (entry : Nat)
  /-- RELEASE_DONE (R239): Settling of a released set finishes, and the set becomes free. -/
  | releaseDone (set : Nat)
  /-- SET_CLOSED (R237): A close of an escrow set finishes its waits, copies and returns, and the set becomes closed. -/
  | setClosed (set : Nat)
  /-- SET_ABANDONED (R240): An abandon of an escrow set finishes blanking the staged folios and returning the members. -/
  | setAbandoned (set : Nat)
  /-- CHUNK_VERIFIED (R293): A package engine's tag compare ends, and a verified chunk's plaintext is passed to the coin presses while a failed one is zeroed. -/
  | chunkVerified (e : Nat)
  /-- SQ_TAIL_DOORBELL (R309): A write of QP_SQ_TAIL records the new absolute submission tail, or is ignored as a bad doorbell. -/
  | sqTailDoorbell (h : Head) (q : Nat) (value : BitVec 32)
  /-- CQ_HEAD_DOORBELL (R309): A write of QP_CQ_HEAD frees completion entries and may resume a queue blocked on CQ_FULL. -/
  | cqHeadDoorbell (h : Head) (q : Nat) (value : BitVec 32)
  /-- GATE_OPEN (R307): A write of QP_CTL.GATE_OPEN opens the queue's start gate. -/
  | gateOpen (h : Head) (q : Nat)
  /-- GATE_CLOSE (R307): A write of QP_CTL.GATE_CLOSE closes the queue's start gate. -/
  | gateClose (h : Head) (q : Nat)
  /-- DESCRIPTOR_FETCH (R306): An engine fetches up to four descriptors of a queue whose gate is open, whose ring has room and whose limits allow. -/
  | descriptorFetch (q : Nat) (entries : List (BitVec 512))
  /-- COPY (R314): A COPY descriptor moves lines between device and host memory, re-encrypting them under the named key IDs. -/
  | copy (q idx units : Nat) (hostData : List Sector)
  /-- FILL (R314): A FILL descriptor writes a 64-bit pattern over a device range. -/
  | fill (q idx units : Nat)
  /-- ZERO (R314): A ZERO descriptor claims whole lines and merges zeros into partial lines. -/
  | zero (q idx units : Nat)
  /-- IMPORT (R291): An IMPORT descriptor hands a sealed chunk to a package engine, which checks its header and decrypts it into a hold buffer. -/
  | importChunk (q idx : Nat) (chunk : List Byte) (hostPoison : Bool)
  /-- EXPORT (R295): An EXPORT descriptor seals a device range into a chunk written to host memory. -/
  | exportChunk (q idx : Nat)
  /-- PREFETCH (R314): A PREFETCH descriptor queues a range's lines for read into the purse. -/
  | prefetch (q idx units : Nat)
  /-- CLEAN (R314): A CLEAN descriptor completes when every line of the range that was dirty at its start has reached media. -/
  | clean (q idx : Nat)
  /-- RESERVE_LOAD (R323): A RESERVE_LOAD descriptor reads 8 bytes and places the queue's reservation on the line. -/
  | reserveLoad (q idx : Nat)
  /-- COND_STORE (R324): A COND_STORE descriptor writes 8 bytes only if the queue's reservation still holds, and clears the reservation. -/
  | condStore (q idx : Nat)
  /-- FENCE (R314): A FENCE descriptor carries both ordering marks and moves no data. -/
  | fence (q idx : Nat)
  /-- TIMESTAMP (R314): A TIMESTAMP descriptor returns the mint time at its start. -/
  | timestamp (q idx : Nat)
  /-- COMPLETION_ENTRY_WRITE (R317): When a descriptor's work and its ordering conditions are met, its completion entry is written and the vector may be signalled. -/
  | completionEntryWrite (q idx : Nat)
  /-- HOST_ERROR (R318): A failed host-memory access ends the descriptor, or stops the queue when it was a fetch or a completion write. -/
  | hostError (q idx : Nat) (side : HostSide) (detail : BitVec 8)
  /-- REQ_TIMEOUT (R355): A controller request to host memory that gets no completion within the timeout ends as HOST_ERROR with DETAIL 0x04. -/
  | reqTimeout (q idx : Nat) (side : HostSide)
  /-- ENGINE_REINIT (R326): A mover engine with no progress for 10 ms or an internal fault is reinitialised, and its queues are rebound. -/
  | engineReinit (e : Nat) (fault : Bool)
  /-- ENGINE_REINIT_DONE (R327): The reset engine rejoins with no queues, or goes out of service after two failures. -/
  | engineReinitDone (e : Nat) (ok : Bool)
  /-- LINK_UP (R336): A host link trains, and its width and CXL level are fixed and reported. -/
  | linkUp (h : Head) (rate width : Nat) (partner : Partner)
  /-- LINK_DOWN (R353): A link down performs a level 2 reset of the head. -/
  | linkDown (h : Head)
  /-- HOT_RESET (R354): A hot reset, secondary bus reset or link disable performs a level 2 reset of the head. -/
  | hotReset (h : Head)
  /-- FUNCTION_LEVEL_RESET (R354): A Function Level Reset resets the head's CXL.io state, leaving CXL.mem and committed decoders in force. -/
  | functionLevelReset (h : Head)
  /-- PERST_A_N (R353): An assertion of PERST_A_N causes a level 3 reset, or a level 2 reset of Port A with two heads. -/
  | perstAN
  /-- PERST_B_N (R353): An assertion of PERST_B_N resets the Port B head, or has no effect with a single head. -/
  | perstBN
  /-- CXL_RESET (R353): A CXL Reset from either head causes a level 3 device reset. -/
  | cxlReset (h : Head)
  /-- DECODER_COMMIT (R347): A commit of an HDM decoder checks it and commits it, or refuses it with a cause in GC_HDM_ERR. -/
  | decoderCommit (h : Head) (n : Nat) (req : DecoderReq)
  /-- IDE_SECURE (R360): An IDE stream becomes secure. -/
  | ideSecure (h : Head) (s : IdeStream)
  /-- SPDM_REQUEST (R358): An SPDM request over DOE is answered by the responder. -/
  | spdmRequest (h : Head) (r : SpdmReq)
  /-- DOE_REQUEST (R360): A DOE data object, for discovery, CMA/SPDM or CDAT table access, is answered within 1 s. -/
  | doeRequest (h : Head) (r : DoeReq)
  /-- DEVICE_RESET (R483): A level 3 device reset withholds credits, takes links to Detect, spills eviction buffers and resets every island but AON, MGT and TBS. -/
  | deviceReset (src : ResetSource)
  /-- POWER_CYCLE (R477): A level 4 power cycle drains the till, writes a checkpoint, takes the rails down and powers on again. -/
  | powerCycle
  /-- REINIT_COMPLETE (R483): A level 2 reinit of a function ends, its held work is reissued, and two failures escalate it. -/
  | reinitComplete (f : Function) (ok : Bool)
  /-- HOME_SLICE_REINIT (R484): A home slice with an uncorrectable array error or no progress for 1 ms is reinitialised at level 2. -/
  | homeSliceReinit (s : Nat)
  /-- PURSE_REINIT (R484): The purse controller, on lost training or 16 uncorrectable slots within 1 ms, holds DRAM in self-refresh and retrains. -/
  | purseReinit
  /-- PACKAGE_ENGINE_REINIT (R484): A package engine with a hold-buffer error or no progress for 10 ms is reinitialised, and its chunk is reissued. -/
  | packageEngineReinit (e : Nat)
  /-- MAILBOX_REINIT (R484): A mailbox port with a command stalled 1 s or a FIFO fault is reinitialised, and its command answers INTERNAL_ERROR. -/
  | mailboxReinit (p : MbxPort)
  /-- KEY_PAGE_REINIT (R484): A vault key page whose state check fails has its key words zeroed, and its loaded slots are kept. -/
  | keyPageReinit (page : Nat)
  /-- CPU_REINIT (R484): The control processors, with no firmware heartbeat for 100 ms or a processor fault, restart from the running image. -/
  | cpuReinit
  /-- MCH_CNT_CLEAR (R111): A write of 1 to MCH_COMMIT.CNT_CLEAR clears MCH_CNT_A and MCH_CNT_B. -/
  | mchCntClear (t : ChTarget)
  /-- INT_CNT_CLEAR (R152): A write of 1 to INT_CTL.CNT_CLEAR clears all INT_CNT registers. -/
  | intCntClear (h : Head)
  /-- PUR_CNT_CLEAR (R216): A write of 1 to PUR_CTL.CNT_CLEAR clears PUR_CNT_CORR and PUR_CNT_UNCORR. -/
  | purCntClear (h : Head)
  /-- ICE_CNT_CLEAR (R284): A write of 1 to ICE_CTL.CNT_CLEAR clears the ICE and package counts. -/
  | iceCntClear (h : Head)
  /-- MOV_CNT_CLEAR (R332): A write of 1 to MOV_CTL.CNT_CLEAR clears the MOV_CNT registers. -/
  | movCntClear (h : Head)
  /-- BG_DONE (R369): A background command finishes, setting BG_DONE and MBX_BG_RESULT. -/
  | bgDone (p : MbxPort) (cxl : Bool)
  /-- MCTP_PACKET (R373): A packet arrives in a management port's inbound FIFO, and is kept or flushed at its boundary. -/
  | mctpPacket (port : FifoPort) (bytes : List Byte) (last ok : Bool)
  /-- SET_ENDPOINT_ID (R374): The MCTP Set Endpoint ID control command sets the board mailbox's endpoint ID. -/
  | setEndpointId (payload : List Byte)
  /-- GET_ENDPOINT_ID (R374): The MCTP Get Endpoint ID control command returns the endpoint ID. -/
  | getEndpointId (payload : List Byte)
  /-- GET_MCTP_VERSION_SUPPORT (R374): The MCTP Get MCTP Version Support control command returns the versions supported. -/
  | getMctpVersionSupport (payload : List Byte)
  /-- GET_MESSAGE_TYPE_SUPPORT (R374): The MCTP Get Message Type Support control command returns the message types supported. -/
  | getMessageTypeSupport (payload : List Byte)
  /-- GET_VENDOR_DEFINED_MSG_SUPPORT (R374): The MCTP Get Vendor Defined Message Support control command returns the vendor message support. -/
  | getVendorDefinedMsgSupport (payload : List Byte)
  /-- IDENTIFY (R377): The CXL Identify command returns the device identity. -/
  | identify (p : MbxPort) (payload : List Byte)
  /-- BACKGROUND_OPERATION_STATUS (R377): The CXL Background Operation Status command returns the background operation's state. -/
  | backgroundOperationStatus (p : MbxPort) (payload : List Byte)
  /-- REQUEST_ABORT_BACKGROUND_OP (R377): The CXL Request Abort Background Operation command aborts a running Scan Media. -/
  | requestAbortBackgroundOp (p : MbxPort) (payload : List Byte)
  /-- GET_EVENT_RECORDS (R424): The CXL Get Event Records command returns records from the head's event logs. -/
  | getEventRecords (p : MbxPort) (payload : List Byte)
  /-- CLEAR_EVENT_RECORDS (R424): The CXL Clear Event Records command removes records from an event log. -/
  | clearEventRecords (p : MbxPort) (payload : List Byte)
  /-- GET_EVENT_INTERRUPT_POLICY (R377): The CXL Get Event Interrupt Policy command returns the event interrupt policy. -/
  | getEventInterruptPolicy (p : MbxPort) (payload : List Byte)
  /-- SET_EVENT_INTERRUPT_POLICY (R377): The CXL Set Event Interrupt Policy command sets the event interrupt policy. -/
  | setEventInterruptPolicy (p : MbxPort) (payload : List Byte)
  /-- GET_FW_INFO (R377): The CXL Get FW Info command returns the state of the two firmware slots. -/
  | getFwInfo (p : MbxPort) (payload : List Byte)
  /-- TRANSFER_FW (R383): The CXL Transfer FW command writes image data to the staged slot. -/
  | transferFw (p : MbxPort) (payload : List Byte)
  /-- ACTIVATE_FW (R384): The CXL Activate FW command checks and activates the staged image. -/
  | activateFw (p : MbxPort) (payload : List Byte)
  /-- GET_TIMESTAMP (R377): The CXL Get Timestamp command returns the event-record time base. -/
  | getTimestamp (p : MbxPort) (payload : List Byte)
  /-- SET_TIMESTAMP (R377): The CXL Set Timestamp command sets the event-record time base, leaving the mint time untouched. -/
  | setTimestamp (p : MbxPort) (payload : List Byte)
  /-- GET_SUPPORTED_LOGS (R377): The CXL Get Supported Logs command lists the Command Effects Log. -/
  | getSupportedLogs (p : MbxPort) (payload : List Byte)
  /-- GET_LOG (R377): The CXL Get Log command returns the Command Effects Log. -/
  | getLog (p : MbxPort) (payload : List Byte)
  /-- IDENTIFY_MEMORY_DEVICE (R377): The CXL Identify Memory Device command reports the persistent capacity and the poison list size. -/
  | identifyMemoryDevice (p : MbxPort) (payload : List Byte)
  /-- GET_PARTITION_INFO (R377): The CXL Get Partition Info command reports all capacity as persistent. -/
  | getPartitionInfo (p : MbxPort) (payload : List Byte)
  /-- GET_HEALTH_INFO (R188): The CXL Get Health Info command returns the health values. -/
  | getHealthInfo (p : MbxPort) (payload : List Byte)
  /-- GET_ALERT_CONFIGURATION (R377): The CXL Get Alert Configuration command returns the life-used and temperature thresholds. -/
  | getAlertConfiguration (p : MbxPort) (payload : List Byte)
  /-- SET_ALERT_CONFIGURATION (R377): The CXL Set Alert Configuration command sets the life-used and temperature thresholds. -/
  | setAlertConfiguration (p : MbxPort) (payload : List Byte)
  /-- GET_SHUTDOWN_STATE (R377): The CXL Get Shutdown State command returns the shutdown state. -/
  | getShutdownState (p : MbxPort) (payload : List Byte)
  /-- SET_SHUTDOWN_STATE (R377): The CXL Set Shutdown State command sets the shutdown state. -/
  | setShutdownState (p : MbxPort) (payload : List Byte)
  /-- GET_POISON_LIST (R377): The CXL Get Poison List command returns lines with stored poison or poison syndromes. -/
  | getPoisonList (p : MbxPort) (payload : List Byte)
  /-- INJECT_POISON (R377): The CXL Inject Poison command sets POISON on the purse line. -/
  | injectPoison (p : MbxPort) (payload : List Byte)
  /-- CLEAR_POISON (R377): The CXL Clear Poison command writes the given 64 bytes and clears the line's poison. -/
  | clearPoison (p : MbxPort) (payload : List Byte)
  /-- SCAN_MEDIA (R377): The CXL Scan Media commands run the full assay without retirement. -/
  | scanMedia (p : MbxPort) (payload : List Byte)
  /-- SANITIZE (R377): The CXL Sanitize command formats the device in the background. -/
  | sanitize (p : MbxPort) (payload : List Byte)
  /-- GET_CAPACITY_INFO (R379): The Get Capacity Info command returns the folio counts and the provisionable capacity. -/
  | getCapacityInfo (p : MbxPort) (payload : List Byte)
  /-- PROVISION_FOLIOS (R380): The Provision Folios command makes an extent blank-mapped under a key ID and policies. -/
  | provisionFolios (p : MbxPort) (payload : List Byte)
  /-- DEPROVISION_FOLIOS (R380): The Deprovision Folios command unprovisions an extent and blanks its media folios. -/
  | deprovisionFolios (p : MbxPort) (payload : List Byte)
  /-- ZERO_FOLIOS (R380): The Zero Folios command instantly zeroes an extent. -/
  | zeroFolios (p : MbxPort) (payload : List Byte)
  /-- SET_FOLIO_ATTRIBUTES (R42): The Set Folio Attributes command changes the write, allocate and acknowledge policies of an extent. -/
  | setFolioAttributes (p : MbxPort) (payload : List Byte)
  /-- CHANGE_FOLIO_CLASS (R380): The Change Folio Class command queues a class-change migration for each folio of an extent. -/
  | changeFolioClass (p : MbxPort) (payload : List Byte)
  /-- GET_FOLIO_ENTRY (R379): The Get Folio Entry command returns a host folio's ledger entry. -/
  | getFolioEntry (p : MbxPort) (payload : List Byte)
  /-- REQUEST_CHECKPOINT (R378): The Request Checkpoint command requests a checkpoint, as WLV_CTL.CKPT_REQ does. -/
  | requestCheckpoint (p : MbxPort) (payload : List Byte)
  /-- START_REBUILD_SCAN (R179): Ledger Recovery Decision 0x01 starts the rebuild scan in ledger-lost mode. -/
  | startRebuildScan (p : MbxPort) (payload : List Byte)
  /-- COMMIT_SCAN_RESULT (R179): Ledger Recovery Decision 0x02 commits the scan result. -/
  | commitScanResult (p : MbxPort) (payload : List Byte)
  /-- FORMAT (R529): Ledger Recovery Decision 0x03 formats the ledger structures, discarding all media contents. -/
  | format (p : MbxPort) (payload : List Byte)
  /-- GET_SCAN_REPORT (R379): The Get Scan Report command returns the recovered and lost folio counts. -/
  | getScanReport (p : MbxPort) (payload : List Byte)
  /-- GET_WEAR_AND_RESERVE_HEALTH (R189): The Get Wear and Reserve Health command returns 64 bytes of wear and reserve health. -/
  | getWearAndReserveHealth (p : MbxPort) (payload : List Byte)
  /-- SET_TILL_LOSS_ACCEPTANCE (R381): The Set Till Loss Acceptance command accepts or withdraws till loss on a board without hold-up. -/
  | setTillLossAcceptance (p : MbxPort) (payload : List Byte)
  /-- START_FULL_ASSAY (R379): The Start Full Assay command runs a full assay, optionally retiring folios at the end. -/
  | startFullAssay (p : MbxPort) (payload : List Byte)
  /-- READ_DIE_REGISTER (R379): The Read Die Register command returns a die register and DIE_STATUS by MRR. -/
  | readDieRegister (p : MbxPort) (payload : List Byte)
  /-- GET_CHANNEL_STATUS (R379): The Get Channel Status command returns a channel's state, bring-up result and die population. -/
  | getChannelStatus (p : MbxPort) (payload : List Byte)
  /-- GET_DOMAIN_INFO (R379): The Get Domain Info command returns a key domain's policy, key state and ownership counts. -/
  | getDomainInfo (p : MbxPort) (payload : List Byte)
  /-- GET_SEALED_WINDOW (R378): The Get Sealed Window command returns ICE_SEALED_CFG. -/
  | getSealedWindow (p : MbxPort) (payload : List Byte)
  /-- WRITE_STANDING_ORDER (R379): The Write Standing Order command writes a standing-order entry. -/
  | writeStandingOrder (p : MbxPort) (payload : List Byte)
  /-- ARM_STANDING_ORDER (R225): The Arm Standing Order command arms an entry and returns its state. -/
  | armStandingOrder (p : MbxPort) (payload : List Byte)
  /-- DISARM_STANDING_ORDER (R229): The Disarm Standing Order command disarms an entry. -/
  | disarmStandingOrder (p : MbxPort) (payload : List Byte)
  /-- READ_STANDING_ORDER (R379): The Read Standing Order command returns an entry and its state. -/
  | readStandingOrder (p : MbxPort) (payload : List Byte)
  /-- CREATE_ESCROW_SET (R234): The Create Escrow Set command reserves folios, provisions members and moves them into escrow. -/
  | createEscrowSet (p : MbxPort) (payload : List Byte)
  /-- CLOSE_ESCROW_SET (R237): The Close Escrow Set command moves an open set to closing. -/
  | closeEscrowSet (p : MbxPort) (payload : List Byte)
  /-- ABANDON_ESCROW_SET (R240): The Abandon Escrow Set command discards an open, closing or closed set's staged contents. -/
  | abandonEscrowSet (p : MbxPort) (payload : List Byte)
  /-- GET_ESCROW_SET (R379): The Get Escrow Set command returns an escrow set's state, members and reserved folios. -/
  | getEscrowSet (p : MbxPort) (payload : List Byte)
  /-- CREATE_QUEUE_PAIR (R330): The Create Queue Pair command creates a queue pair bound to an engine. -/
  | createQueuePair (p : MbxPort) (payload : List Byte)
  /-- DELETE_QUEUE_PAIR_DRAIN (R331): Delete Queue Pair in drain mode stops fetching, completes descriptors in flight and deletes the queue. -/
  | deleteQueuePairDrain (p : MbxPort) (payload : List Byte)
  /-- DELETE_QUEUE_PAIR_ABORT (R331): Delete Queue Pair in abort mode stops descriptors in flight with ABORTED and deletes the queue. -/
  | deleteQueuePairAbort (p : MbxPort) (payload : List Byte)
  /-- SET_QUEUE_GRANTS (R320): The Set Queue Grants command replaces a queue's grant mask. -/
  | setQueueGrants (p : MbxPort) (payload : List Byte)
  /-- REINIT_MOVER_ENGINE (R326): The Reinit Mover Engine command reinitialises a mover engine at level 2. -/
  | reinitMoverEngine (p : MbxPort) (payload : List Byte)
  /-- GET_QUEUE_INFO (R379): The Get Queue Info command returns a queue's shape, state, indices and grants. -/
  | getQueueInfo (p : MbxPort) (payload : List Byte)
  /-- GET_PAIR_STATUS (R415): The Get Pair Status command returns the pair state and debt counts. -/
  | getPairStatus (p : MbxPort) (payload : List Byte)
  /-- SET_PAIR_POLICY (R415): The Set Pair Policy command stores the pair policy in the passbook. -/
  | setPairPolicy (p : MbxPort) (payload : List Byte)
  /-- START_SETTLEMENT (R410): The Start Settlement command starts settlement when the link is ready. -/
  | startSettlement (p : MbxPort) (payload : List Byte)
  /-- SPLIT_PAIR_PLANNED (R415): A planned Split Pair drains the mirror buffer and then declares loss. -/
  | splitPairPlanned (p : MbxPort) (payload : List Byte)
  /-- SPLIT_PAIR_IMMEDIATE (R407): An immediate Split Pair declares the correspondent lost at once. -/
  | splitPairImmediate (p : MbxPort) (payload : List Byte)
  /-- READ_PASSBOOK_PARAMETER (R454): The Read Passbook Parameter command returns an 8-byte parameter. -/
  | readPassbookParameter (p : MbxPort) (payload : List Byte)
  /-- WRITE_PASSBOOK_PARAMETER (R454): The Write Passbook Parameter command writes a parameter and its register. -/
  | writePassbookParameter (p : MbxPort) (payload : List Byte)
  /-- GET_TALLY_COUNTER (R457): The Get Tally Counter command returns a tally counter's value and frozen state. -/
  | getTallyCounter (p : MbxPort) (payload : List Byte)
  /-- GET_SUPERVISION_STATUS (R488): The Get Supervision Status command returns the supervisor, rail and thermal state. -/
  | getSupervisionStatus (p : MbxPort) (payload : List Byte)
  /-- GET_RAIL_COUNTERS (R488): The Get Rail Counters command returns a slot's event counts and codes. -/
  | getRailCounters (p : MbxPort) (payload : List Byte)
  /-- SET_SUPERVISION_PARAMETER (R472): The Set Supervision Parameter command checks and writes a rail or sequencer parameter. -/
  | setSupervisionParameter (p : MbxPort) (payload : List Byte)
  /-- RESET_DEVICE (R382): The Reset Device command answers and then begins a level 3 reset 1 ms later. -/
  | resetDevice (p : MbxPort) (payload : List Byte)
  /-- REQUEST_POWER_CYCLE (R382): The Request Power Cycle command answers and then begins a level 4 power cycle 1 ms later. -/
  | requestPowerCycle (p : MbxPort) (payload : List Byte)
  /-- READ_DAYBOOK (R427): The Read Daybook command returns consecutive held daybook records. -/
  | readDaybook (p : MbxPort) (payload : List Byte)
  /-- THAW (R428): Freeze Daybook action 0x00 thaws the daybook. -/
  | thaw (p : MbxPort) (payload : List Byte)
  /-- FREEZE (R428): Freeze Daybook action 0x01 freezes the daybook. -/
  | freeze (p : MbxPort) (payload : List Byte)
  /-- ARM_TRIGGER (R428): Freeze Daybook action 0x02 arms the trigger with a code. -/
  | armTrigger (p : MbxPort) (payload : List Byte)
  /-- DISARM_TRIGGER (R428): Freeze Daybook action 0x03 disarms the trigger. -/
  | disarmTrigger (p : MbxPort) (payload : List Byte)
  /-- GET_DAYBOOK_SUMMARY (R431): The Get Daybook Summary command returns the persistent summary. -/
  | getDaybookSummary (p : MbxPort) (payload : List Byte)
  /-- TAKE_AUDIT_SNAPSHOT (R434): The Take Audit Snapshot command requests a snapshot with a TAG. -/
  | takeAuditSnapshot (p : MbxPort) (payload : List Byte)
  /-- READ_AUDIT_SNAPSHOT (R435): The Read Audit Snapshot command returns a snapshot buffer's header and counters. -/
  | readAuditSnapshot (p : MbxPort) (payload : List Byte)
  /-- SET_DAYBOOK_RATE_LIMIT (R430): The Set Daybook Rate Limit command writes a rate-limit table entry. -/
  | setDaybookRateLimit (p : MbxPort) (payload : List Byte)
  /-- GET_FIRMWARE_INFO (R379): The Get Firmware Info command returns the firmware versions, SVNs and slot state. -/
  | getFirmwareInfo (p : MbxPort) (payload : List Byte)
  /-- TRANSFER_FIRMWARE (R383): The Transfer Firmware command writes image data into the staged slot at consecutive offsets. -/
  | transferFirmware (p : MbxPort) (payload : List Byte)
  /-- ACTIVATE_FIRMWARE_ONLINE (R385): Activate Firmware in online mode checks the staged image and restarts the control processors into it. -/
  | activateFirmwareOnline (p : MbxPort) (payload : List Byte)
  /-- ACTIVATE_FIRMWARE_AT_RESET (R385): Activate Firmware at the next reset checks the staged image and marks it to run at that reset. -/
  | activateFirmwareAtReset (p : MbxPort) (payload : List Byte)
  /-- FW_ACTIVATED (R385): The new image reports ready, and the activation completes. -/
  | fwActivated (versions : BitVec 3)
  /-- FW_REVERTED (R385): A new image that has not reported ready within 2 s is replaced by the previous one. -/
  | fwReverted
  /-- FW_SLOT_IDLE_TIMEOUT (R383): A staged slot left idle for 60 s is released from its port. -/
  | fwSlotIdleTimeout
  /-- GET_LIFECYCLE_STATE (R379): The Get Lifecycle State command returns the lifecycle state and DEBUG_LOCKOUT. -/
  | getLifecycleState (p : MbxPort) (payload : List Byte)
  /-- COMMIT_ROLLBACK_FLOOR (R386): The Commit Rollback Floor command raises the rollback floor to the running SVN. -/
  | commitRollbackFloor (p : MbxPort) (payload : List Byte)
  /-- GET_INTERFACE_VERSIONS (R379): The Get Interface Versions command returns the versions served and declared. -/
  | getInterfaceVersions (p : MbxPort) (payload : List Byte)
  /-- DECLARE_INTERFACE_VERSION (R375): The Declare Interface Version command sets the YCI version a mailbox serves. -/
  | declareInterfaceVersion (p : MbxPort) (payload : List Byte)
  /-- REG_WRITE (R389): A vault REG_WRITE frame checks and writes up to 16 words of the vault space. -/
  | regWrite (principal : Nat) (tag : Nat) (payload : List Byte)
  /-- LOAD (R300): A write of LOAD to VLT_KEY_CMD loads the staged key into the selected slot under R247. -/
  | loadKey (principal : Nat) (tag : Nat)
  /-- UNLOAD (R300): A write of UNLOAD to VLT_KEY_CMD empties the selected slot. -/
  | unloadKey (principal : Nat) (tag : Nat)
  /-- LOCK (R299): A write of 1 to VLT_PAGE_CTL.LOCK freezes the key page until power-down. -/
  | lockPage (principal : Nat) (tag : Nat)
  /-- REG_READ (R389): A vault REG_READ frame returns words of the vault space. -/
  | regRead (principal : Nat) (tag : Nat) (payload : List Byte)
  /-- SET_POLICY (R247): A vault SET_POLICY frame writes a domain policy record, or is refused. -/
  | setPolicy (principal : Nat) (tag : Nat) (payload : List Byte)
  /-- GET_POLICY (R389): A vault GET_POLICY frame returns a domain policy record. -/
  | getPolicy (principal : Nat) (tag : Nat) (payload : List Byte)
  /-- SEALED_WINDOW (R276): A vault SEALED_WINDOW frame sets and enables the sealed window, or is refused. -/
  | sealedWindow (principal : Nat) (tag : Nat) (payload : List Byte)
  /-- RESEAL (R283): A vault TREE_ACTION with action 0x01 reseals a faulted node in the background. -/
  | resealNode (principal : Nat) (tag : Nat) (payload : List Byte)
  /-- DISCARD (R283): A vault TREE_ACTION with action 0x02 discards everything beneath a faulted node in the background. -/
  | discardNode (principal : Nat) (tag : Nat) (payload : List Byte)
  /-- TREE_RESEALED (R283): A reseal completes, and the fault mark clears. -/
  | treeResealed
  /-- TREE_DISCARDED (R283): A discard completes. -/
  | treeDiscarded
  /-- PB_PROTECTED_WRITE (R455): A vault PB_PROTECTED_WRITE frame writes one page within the principal's range, unless it touches a protected word. -/
  | pbProtectedWrite (principal : Nat) (tag : Nat) (payload : List Byte)
  /-- PB_PROTECTED_READ (R455): A vault PB_PROTECTED_READ frame returns bytes of the principal's range. -/
  | pbProtectedRead (principal : Nat) (tag : Nat) (payload : List Byte)
  /-- PB_BLOCK_PROTECT (R456): A vault PB_BLOCK_PROTECT frame changes a range's BP setting under the lifecycle rules. -/
  | pbBlockProtect (principal : Nat) (tag : Nat) (payload : List Byte)
  /-- GET_LIFECYCLE (R389): A vault GET_LIFECYCLE frame returns the lifecycle state. -/
  | getLifecycle (principal : Nat) (tag : Nat) (payload : List Byte)
  /-- DEBUG_CHALLENGE (R391): A vault DEBUG_CHALLENGE frame returns a fresh nonce and the serial number. -/
  | debugChallenge (principal : Nat) (tag : Nat) (payload : List Byte)
  /-- DEBUG_RESPONSE (R391): A vault DEBUG_RESPONSE frame verifies the signature and enters DEBUG_UNLOCKED, counting failures towards lockout. -/
  | debugResponse (principal : Nat) (tag : Nat) (payload : List Byte)
  /-- DEBUG_LOCK (R391): A vault DEBUG_LOCK frame returns the state to PROVISIONED. -/
  | debugLock (principal : Nat) (tag : Nat) (payload : List Byte)
  /-- ENTER_RMA (R390): A vault ENTER_RMA frame with a valid signature permanently enters the RMA state. -/
  | enterRma (principal : Nat) (tag : Nat) (payload : List Byte)
  /-- AUTHORISE_IMAGE (R389): A vault AUTHORISE_IMAGE frame authorises a staged image digest in DEBUG_UNLOCKED. -/
  | authoriseImage (principal : Nat) (tag : Nat) (payload : List Byte)
  /-- GET_STATUS (R389): A vault GET_STATUS frame returns the key-loaded maps and the lifecycle state. -/
  | getStatus (principal : Nat) (tag : Nat) (payload : List Byte)
  /-- FRAME_ERROR (R387): A vault request with a bad first byte is discarded, or one with a bad CRC is answered FRAME_ERROR. -/
  | frameError (bytes : List Byte)
  /-- REQUEST_FLUSHED (R388): A vault request arriving while a response waits is flushed at its boundary. -/
  | requestFlushed (bytes : List Byte)
  /-- VAULT_RESPONSE_READ (R388): A chip-select assertion beginning with 0x00 reads the waiting response, and VLT_IRQ_N rises after a whole read. -/
  | vaultResponseRead (whole : Bool)
  /-- DEBUG_MODE_SELECT (R253): The debugger selects the debug access mode through JTAG. -/
  | debugModeSelect (mode : BitVec 2)
  /-- DEBUG_ACCESS (R253): A JTAG debug access to device memory acts as the mode in force gives. -/
  | debugAccess (hpa : BitVec 64) (wdata : Option Sector)
  /-- PAIR_LINK_RETRY (R395): 10 ms after a failed pair bring-up step, the pair link returns to PHY training. -/
  | pairLinkRetry
  /-- HELLO (R396): The HELLO exchange fixes the Abalet version and the peer identity. -/
  | hello (peer : PeerHello)
  /-- PAIR_AUTHENTICATION (R397): The correspondents agree a session key and authenticate, or the link is refused for 1 s. -/
  | pairAuthentication (chainOk : Bool)
  /-- DEBT_MAP_EXCHANGE (R395): The debt maps are exchanged, and the pair joins or starts settlement. -/
  | debtMapExchange (peer : PeerDebt)
  /-- SESSION_KEY_RENEWAL (R397): After 2^32 packets, the pair session key is renewed by a new exchange. -/
  | sessionKeyRenewal
  /-- MIRROR_ENTRY (R400): A received mirror entry or settlement line is applied as a write at its home slice and acknowledged once persistent. -/
  | mirrorEntry (e : MirrorMsg)
  /-- MIRROR_ACK (R399): A correspondent's acknowledgement frees mirror buffer entries and may resolve the barrier or end settlement. -/
  | mirrorAck (seq : Nat)
  /-- MIRROR_REFUSED (R400): A REFUSED answer enters the folio in the debt map. -/
  | mirrorRefused (seq : Nat)
  /-- PAIR_BARRIER (R404): A write of PAIR_BARRIER opens a barrier over the mirror entries merged before it. -/
  | pairBarrier (h : Head) (value : BitVec 32)
  /-- HEARTBEAT (R407): A controller that has sent nothing for 10 µs sends a heartbeat packet. -/
  | heartbeat
  /-- PAIR_LOST (R407): With no packet for 64 µs or a failed retrain, the correspondent is declared lost and the controller goes solo. -/
  | pairLost
  /-- PAIR_TIME_SEND (R406): Every 1 ms, the time lead sends its mint time. -/
  | pairTimeSend
  /-- PAIR_TIME_EXCHANGE (R406): The follower measures E from the lead's time and sets, slews or flags its mint time. -/
  | pairTimeExchange (lead : BitVec 64) (roundTrip : Nat)
  /-- FORWARDED_ACCESS (R413): An access forwarded over the pair link is served from the local copy, writes being mirrored back. -/
  | forwardedAccess (f : ForwardMsg)
  /-- FORWARD_RESPONSE (R413): The correspondent's answer to a forwarded access completes the host or mover access. -/
  | forwardResponse (id : Nat) (data : Option Sector)
  /-- SETTLEMENT_INSTANT_ZERO (R412): A blank-mapped folio sent in settlement is applied by the receiver as one instant zero. -/
  | settlementInstantZero (folio : Nat)
  /-- EVT_PENDING_CLEAR (R421): A write of 1 to pending bits clears them, so that a later reason notifies again. -/
  | evtPendingClear (h : Head) (n : Nat) (value : BitVec 32)
  /-- COALESCE_HOLD_EXPIRY (R423): HOLD_US after the first accumulated notification, the vector is signalled. -/
  | coalesceHoldExpiry (h : Head) (vector : Nat)
  /-- DAYBOOK_RECORD_TAKE (R425): Every 20 ns, the ring takes one offered record from the input queue, firing an armed trigger on a match. -/
  | daybookRecordTake
  /-- DAYBOOK_FREEZE (R428): A write of DBK_CTL.FREEZE freezes the daybook. -/
  | daybookFreeze (h : Head)
  /-- DAYBOOK_THAW (R428): A write of DBK_CTL.THAW thaws the daybook. -/
  | daybookThaw (h : Head)
  /-- RATE_LIMIT_WINDOW (R429): At each 2^30 ns window boundary, the daybook rate-limit counts restart. -/
  | rateLimitWindow
  /-- SNAP (R434): A write of AUD_CTL.SNAP requests a snapshot. -/
  | snap (h : Head) (tag : BitVec 16)
  /-- CLEAR (R432): A write of AUD_CTL.CLEAR requests that all audit counters be cleared at the next frame boundary. -/
  | clearCounters (h : Head)
  /-- COUNTERS_CLEARED (R432): At the frame boundary, all audit counters are cleared. -/
  | countersCleared
  /-- SNAPSHOT_CAPTURE (R434): At the requested frame boundary, every island latches its counters for a snapshot. -/
  | snapshotCapture
  /-- SNAP_DONE (R434): The latched counters have been copied into a snapshot buffer. -/
  | snapDone
  /-- SAMPLE (R436): A watched counter passes the next multiple of PERIOD, raising SAMPLE and perhaps requesting a snapshot. -/
  | sample (slot : Nat)
  /-- SAMPLE_CFG_WRITE (R436): Enabling a sampling slot, or writing its index or period, resets its base to the counter's current value. -/
  | sampleCfgWrite (h : Head) (slot : Nat) (period : Bool) (value : BitVec 32)
  /-- HIST_CFG_WRITE (R438): A write of AUD_HIST_CFGh requests a new selection for the histogram. -/
  | histCfgWrite (h : Head) (hist : Nat) (value : BitVec 32)
  /-- HISTOGRAM_RESTART (R438): At the next frame boundary, the histogram's bins clear and the new selection applies. -/
  | histogramRestart (hist : Nat)
  /-- RECALL (R452): When VDD_AON becomes good, the passbook is recalled and single-bit errors are corrected. -/
  | recallRun (faults : List RecallFault)
  /-- RECALL_COMPLETE (R462): Recall completes, RWP fields take their values, and the supervisor goes to UP or OFF. -/
  | recallComplete
  /-- PAGE_WRITE_DONE (R449): A passbook page write completes, and the next pending page write in priority order starts. -/
  | pageWriteDone
  /-- SCAN_END (R464): At the end of each 100 µs converter scan, rails are judged good, fallen or lost. -/
  | scanEnd (codes : List (BitVec 12))
  /-- RAIL_DELAY_EXPIRY (R465): When ON_DELAY or OFF_DELAY expires, the slot's enable is asserted or released. -/
  | railDelayExpiry (slot : Nat)
  /-- RISE_TIMEOUT (R465): A slot not judged good within RISE_TO of its enable is a sequence fault. -/
  | riseTimeout (slot : Nat)
  /-- RAIL_ABANDONED (R467): A slot not fallen within FALL_TO of its disable is abandoned and treated as fallen. -/
  | railAbandoned (slot : Nat)
  /-- SEQ_RETRY (R466): After 100 ms in COOL, the supervisor retries the power-on sequence. -/
  | seqRetry
  /-- SUPPLY_GOOD (R473): PF_SENSE above VPF + 50 mV for 100 ms marks the supply as good. -/
  | supplyGood
  /-- PB_N_PRESS (R475): A debounced press of PB_N begins a power-on in OFF or FAULT. -/
  | pbNPress
  /-- PB_PRESS (R475): PB_N released in ON before LONG_S raises PB_PRESS. -/
  | pbPress
  /-- PB_FORCE_OFF (R475): PB_N held for LONG_S forces power off, or cancels a pending restart. -/
  | pbForceOff
  /-- DRAIN_CUT (R477): The long-press cut-off expires, and the drain stops and is recorded as incomplete. -/
  | drainCut
  /-- MR_RESET (R476): MR_N held low for 20 ms in ON starts a level 3 reset. -/
  | mrReset
  /-- MR_N_RELEASE (R476): The release of MR_N begins the restart from the reset. -/
  | mrNRelease
  /-- SENSOR_CONVERSION (R480): A temperature conversion updates the zones, broken-sensor state and the thermal step in force. -/
  | sensorConversion (sensor : Nat) (raw : Int)
  /-- CRITICAL_STOP_TIMEOUT (R481): 10 ms into a critical stop, the drain is cut off, THERM_TRIP_N asserts and the rails go down. -/
  | criticalStopTimeout
  /-- PLL_LOCK_TIMEOUT (R508): Core PLLs not locked within 10 ms of ON take the rails down into FAULT. -/
  | pllLockTimeout
  /-- RTC_START_TIMEOUT (R508): A 32.768 kHz oscillator not started 1 s after VDD_AON is good leaves the island timed from its RC oscillator. -/
  | rtcStartTimeout
  /-- PERST_RELEASE (R351): The rising edge of PERST_A_N or PERST_B_N ends the reset that its assertion began, starting the restart and the milestone clocks of R351. -/
  | perstRelease (h : Head)
  /-- VDD_AON_LOSS (R462): Removal of VDD_AON powers the whole controller down, leaving FAULT or any other state and losing all volatile state, with passbook page writes torn as R450 gives. -/
  | vddAonLoss
  /-- SENSOR_NO_CONVERSION (R479): A temperature sensor that delivers no conversion for 4 ms becomes broken and reads as 111 °C. -/
  | sensorNoConversion (sensor : Nat)
  /-- RTC_CRYSTAL_START (R508): A 32.768 kHz crystal that starts oscillating after the always-on island fell back to its RC oscillator takes over the island's timing. -/
  | rtcCrystalStart
  /-- CONFIG_REQUEST (R356): A PCIe configuration read or write to a head's function is completed within 1 ms, setting configuration-space state such as PTM enable, MSI-X enable and completion timeout values. -/
  | configRequest (h : Head) (r : ConfigReq)
  /-- IDE_KEY_EXPIRY (R362): An IDE stream ends by key expiry, so that CXL.mem requests arriving afterwards are poisoned or discarded under R360. -/
  | ideKeyExpiry (h : Head) (s : IdeStream)
  /-- PAIR_TAG_FAIL (R397): A pair-link packet whose AES-GCM tag fails is dropped and replayed, and a third consecutive failure retrains the pair link. -/
  | pairTagFail
  /-- LINK_RECOVERY (R353): A host link replays or retrains without passing through Detect, a level 1 recovery that may change the rate of a 32 or 16 GT/s link and is counted as a link recovery. -/
  | linkRecovery (h : Head) (rate : Nat)
  /-- TEMPERATURE_HISTORY_RECORD (R482): Each hour, the highest recorded temperature and the hours above 95 °C and 105 °C are stored in the passbook. -/
  | temperatureHistoryRecord
deriving DecidableEq, Repr

end Sys2Proof
end

