-- ==== Sys2Proof/Config.lean ====
section
/-! DEFINITION. What the spec leaves open or takes from a cited standard: opaque constants, so that a
claim about them holds whatever they are. -/

namespace Sys2Proof.Config

/-- The AES-256 block cipher (FIPS 197), cited by R254 and R256; uninterpreted (log entry 6). -/
opaque aes256 : BitVec 256 → BitVec 128 → BitVec 128

/-- SHA-384 of the byte string of a length and its bytes by place, zero past its end (FIPS 180-4), cited by R173, R384 and R389;
uninterpreted (log entry 6). -/
opaque sha384Of : Nat → (Nat → Byte) → BitVec 384

/-- SHA-384 of a list of bytes. -/
def sha384 (bs : List Byte) : BitVec 384 := sha384Of bs.length fun i => bs.getD i 0

/-- ECDSA P-384 verification under a fused key of a 96-byte signature over a message, cited by R384 and
R391; the first argument names the key: 0 image key, 1 debug authority key (log entry 6). -/
opaque ecdsaOk : Nat → List Byte → List Byte → Bool

/-- The version of an image's bytes: the spec does not give the image's layout (R384; log entry 36). -/
opaque imageVersion : List Byte → BitVec 32

/-- The SVN of an image (R384; log entry 36). -/
opaque imageSvn : List Byte → BitVec 16

/-- An image is for stepping B1 (R384; log entry 36). -/
opaque imageForB1 : List Byte → Bool

/-- The signature that an image carries (R384; log entry 36). -/
opaque imageSignature : List Byte → List Byte

/-- The house key, derived from the fused secret (R245); RMA changes the derivation (R390). -/
opaque houseKey : Bool → BitVec 256

/-- The MAC key KH, derived from the house secret (R261). -/
opaque macKey : Bool → BitVec 256

/-- The DRAM cells' AES-XTS of R214: key, tweak, plaintext; uninterpreted (log entry 6). -/
opaque xtsEncrypt : BitVec 256 → Nat → Sector → Sector

/-- The inverse of `xtsEncrypt` (R214). -/
opaque xtsDecrypt : BitVec 256 → Nat → Sector → Sector

/-- The reference offsets that Brynmund characterised for bin e of M2 (true) or M1 dies (R136). -/
opaque driftOffsets : Bool → Nat → BitVec 24

/-- The offsets of a bin that a firmware image carries, where it replaces the drift tables (R136; log entry 36). -/
opaque imageDrift : List Byte → Bool → Nat → Option (BitVec 24)

/-- DIE_ID.REV, and the ODT_EN and DRIVE bits that bring-up writes to DIE_CFG, of a die (R80). -/
opaque dieBits : Nat → BitVec 12

/-- The dwords of a function's configuration space that the spec names but does not place (R339, R355-R357): 0 PTM
control, 1 MSI-X control, 2 and 3 the high and low base of Range 1, 4 and 5 of Range 2, 6 the PCIe DVSEC for CXL Devices,
7 the GPF DVSEC, 8 the Register Locator DVSEC, 9 Device Capabilities 2, 10 the Flex Bus Port DVSEC, and 11, of that
DVSEC's 16 capability bits, the one for 256-byte flits. -/
opaque cfgPlace : Nat → Nat

/-- What a configuration dword of a head (0 Port A, 1 Port B) reads as after reset, where R341 gives no value. -/
opaque cfgReset : Nat → Nat → BitVec 32

/-- What a write leaves in a configuration dword: the dword, what it held, and the value written (R356). -/
opaque cfgWrite : Nat → BitVec 32 → BitVec 32 → BitVec 32

/-- What a dword of a head's CXL memory-device registers or CXL component registers reads as: the CXL specification, not the
spec, lays them out (R342; log entry 38). -/
opaque cxlReg : Nat → Nat → BitVec 32

/-- The purse slot and the bits of its cells that change in nanosecond n (R198): nothing constrains it (log entry 80). -/
opaque dramNoise : Nat → Nat × BitVec 2304

/-- A free value of w bits for the n-th use (log entry 7): nothing constrains it. -/
opaque freeValue (w : Nat) : Nat → BitVec w

/-- The n-th draw of the on-die random source (R391, R214). -/
opaque random : Nat → BitVec 256

end Sys2Proof.Config
end

