-- ==== Sys2Proof/Machine/State.lean ====
section
/-! DEFINITION. The state of the BPY-3200 as plain data: one structure per chapter of the spec, the
register words, and the queue of waiting commands. Every field names the rule that gives it. A `Tab` is a
sparse table in one canonical form (Machine/Ops.lean). `State.reset` is the machine at the end of
power-on. -/

namespace Sys2Proof.Machine


/-- R110 MCH_STATUS.STATE of a channel. -/
inductive ChState where
  | off | bringup | active | reinit | failed
deriving DecidableEq, Repr, Inhabited

/-- R94: the three kinds of ready operation that a slot serves. -/
inductive OpKind where
  | read | write | maint
deriving DecidableEq, Repr, Inhabited

/-- R154 STATE of a ledger entry, codes 0x0 to 0x4. -/
inductive FolioState where
  | unprovisioned | live | blankMapped | escrow | readOnly
deriving DecidableEq, Repr, Inhabited

/-- R243 SO_ESC_SETn.STATE. -/
inductive EscState where
  | free | open_ | closing | closed | preparing | committed | settling
deriving DecidableEq, Repr, Inhabited

/-- R243 SO_STATEi.STATE. -/
inductive SoEntryState where
  | free | armed | dormant | done | rejected | disarmed
deriving DecidableEq, Repr, Inhabited

/-- R462 supervisor states. -/
inductive SupState where
  | off | up | on | down | cool | fault | recalling
deriving DecidableEq, Repr, Inhabited

/-- R489 PSQ_RAILs.STATE. -/
inductive RailState where
  | off | rising | good | falling | fallen | abandoned | unused
deriving DecidableEq, Repr, Inhabited

/-- R417 PAIR_STATUS.STATE. -/
inductive PairState where
  | off | linking | joined | solo | settling
deriving DecidableEq, Repr, Inhabited

/-- R395: the step of pair bring-up the link is in. -/
inductive PairStep where
  | phy | hello | auth | exchange | up
deriving DecidableEq, Repr, Inhabited

/-- R390 lifecycle states. -/
inductive Life where
  | manufacture | provisioned | debugUnlocked | rma
deriving DecidableEq, Repr, Inhabited

/-- R477: the drain that a power-down runs. -/
inductive DrainMode where
  | none | powerFail | level4 | longPress | critical
deriving DecidableEq, Repr, Inhabited

/-- R363 GC_LINK.LEVEL. -/
inductive LinkLevel where
  | pcie | cxl11 | cxl20 | cxl31
deriving DecidableEq, Repr, Inhabited

/-- R331: a queue serving, or being deleted in drain mode. -/
inductive QState where
  | running | deletingDrain
deriving DecidableEq, Repr, Inhabited

/-- R306: where a descriptor in flight stands. -/
inductive DescStage where
  | fetched | started | done
deriving DecidableEq, Repr, Inhabited

/-- R174: the step a running checkpoint is in. -/
inductive CkptPhase where
  | begin_ | body | end_
deriving DecidableEq, Repr, Inhabited

/-- R181: the step a migration is in. -/
inductive MigPhase where
  | queued | copying | recopy | holding | remap | quiesce | blanking
deriving DecidableEq, Repr, Inhabited

/-- R379: staged state of a firmware slot. -/
inductive FwState where
  | empty_ | partial_ | complete | verified
deriving DecidableEq, Repr, Inhabited

/-- R293: the stage of a chunk in a package engine. -/
inductive ChunkStage where
  | waiting | verifying | writing
deriving DecidableEq, Repr, Inhabited

/-- R19: a write held pending in an island's crossing. -/
structure HeldWrite where
  /-- domain bit of R16 -/
  dom : Nat
  /-- the access -/
  acc : BarAccess
  /-- the channel that a write through an aperture reaches (R113) -/
  member : Option Nat
  /-- its place in the order of arrival (R19) -/
  seq : Nat := 0
deriving DecidableEq, Repr, Inhabited

/-- R19: an access waiting for a stopped island's clock. -/
structure WaitAcc where
  /-- domain bit -/
  dom : Nat
  /-- time the wait began, ns -/
  since : Nat
  /-- the access -/
  acc : BarAccess
  /-- the channel that a write through an aperture reaches (R113) -/
  member : Option Nat
  /-- its place in the order of arrival (R19) -/
  seq : Nat := 0
deriving DecidableEq, Repr, Inhabited

/-- R116: one media line, less its BCH parity, which is a function of the rest (R120). -/
structure MLine where
  /-- HALLMARK -/
  hallmark : BitVec 64
  /-- STAMP -/
  stamp : BitVec 24
  /-- FLAGS (R117) -/
  flags : BitVec 8
  /-- GEN or reverse record -/
  gen : BitVec 32
  /-- 256 data bytes -/
  data : Line
deriving DecidableEq, Repr, Inhabited

/-- What the checks of R122 make of a sensed line. -/
inductive LineRes where
  /-- blank or stale: reads as zeros -/
  | zero
  /-- poisoned with a syndrome -/
  | poison (syndrome : Nat)
  /-- delivered to the coin presses -/
  | good (l : MLine)
deriving DecidableEq, Repr, Inhabited

/-- Who inside the controller reads a line of media for itself (R15, R89). -/
inductive Taker where
  /-- a mover descriptor, a debug access or a write of the correspondent -/
  | mover
  /-- a recoinage (R274) -/
  | recoin
  /-- settlement (R412) -/
  | settle
  /-- the close of an escrow set (R237) -/
  | inherit
deriving DecidableEq, Repr, Inhabited

/-- A line that a read of the controller's own brought from media, until its reader takes it. -/
structure Taken where
  /-- the reader -/
  by_ : Taker
  /-- the line -/
  line : Nat
  /-- ledger generation of the read (R156) -/
  gen : BitVec 24
  /-- the line as the checks left it -/
  res : LineRes
  /-- classes of R438 that its read adds -/
  classes : List Nat
deriving DecidableEq, Repr, Inhabited

/-- What the lines of a stripe are read for. -/
inductive StripeUse where
  /-- the recomputation of its parity line (R126) -/
  | parity
  /-- the write of a bullion line of a dead die (R131): the operation -/
  | write (op : Nat)
  /-- the rebuild of its line of a failed position (R132) -/
  | rebuild (pos : Nat)
deriving DecidableEq, Repr, Inhabited

/-- R126, R131, R132: a stripe whose lines are read before one of them is written. -/
structure StripeWork where
  /-- channel -/
  ch : Nat
  /-- media folio -/
  m : Nat
  /-- row -/
  row : Nat
  /-- what for -/
  use : StripeUse
  /-- positions whose read has not delivered yet -/
  left : List Nat
  /-- positions whose line could not be read -/
  bad : List Nat := []
  /-- its write has been queued -/
  writing : Bool := false
deriving DecidableEq, Repr, Inhabited

/-- R143, R144, R149: the assay of one media folio in progress. -/
structure AssayRun where
  /-- media folio -/
  m : Nat
  /-- a patrol's -/
  patrol : Bool
  /-- lines begun, by channel -/
  done : Tab Nat
deriving DecidableEq, Repr, Inhabited

/-- R95-R97: the state of one bank of one die. -/
structure Bank where
  /-- a program, UPDATE, MERGE or BLANK runs -/
  busy : Bool
  /-- SUSPEND has been sent (R96) -/
  suspended : Bool
  /-- the operation that programs it -/
  op : Nat
  /-- its die missed tSUSP: reads wait for the program (R115) -/
  stuck : Bool := false
  /-- time a read was last queued for it -/
  lastRead : Nat
  /-- time from which its page buffer can take another sense (R73, R115) -/
  senseFree : Nat := 0
deriving DecidableEq, Repr, Inhabited

/-- R125: one delta buffer of a die. -/
structure Dbuf where
  /-- not marked invalid (R126) -/
  valid : Bool
  /-- old XOR new data -/
  delta : Line
  /-- old XOR new hallmark -/
  hallmark : BitVec 64
  /-- the new line's STAMP -/
  stamp : BitVec 24
deriving DecidableEq, Repr, Inhabited

/-- R80: one media die as its registers show it, and what R130 counts of it. -/
structure Die where
  /-- DIE_ID.GEN, 1 = M1, 2 = M2 -/
  gen : Nat
  /-- die registers by REG (R80) -/
  regs : Tab (BitVec 32)
  /-- drift table in force, by REG of its shadow (R82) -/
  driftAct : Tab (BitVec 32)
  /-- delta buffers 0 to 7 (R73) -/
  dbufs : Tab Dbuf
  /-- consecutive unanswered MRR reads (R130) -/
  mrrSilent : Nat
  /-- SUSP_FAULTs reported of it (R115) -/
  suspFaults : Nat := 0
  /-- times of INTERNAL reports (R130) -/
  internals : List Nat
  /-- bank, line and time of lines found uncorrectable (R130) -/
  uncorr : List (Nat × Nat × Nat)
deriving DecidableEq, Repr, Inhabited

/-- R99: a reconstruction run of a channel. -/
structure ReconRun where
  /-- the read it serves -/
  op : Nat
  /-- a bypass reconstruction (R96) -/
  bypass : Bool
  /-- transfers still to come -/
  left : Nat
  /-- time at which its first sense is ready (R99) -/
  ready : Nat := 0
  /-- lines re-read at their own bins (R99) -/
  rereads : Nat := 0
  /-- their positions -/
  again : List Nat := []
deriving DecidableEq, Repr, Inhabited

/-- R87-R115: one media channel. -/
structure Chan where
  /-- MCH_STATUS.STATE -/
  state : ChState
  /-- 0 unpopulated, 1 M1, 2 M2 (MCH_INFO.GEN) -/
  gen : Nat
  /-- D in force at the channel -/
  dies : Nat
  /-- MCH_DIES.PRESENT -/
  present : BitVec 18
  /-- programmed slot map in force, two bits a position (R89) -/
  map : BitVec 64
  /-- MCH_SCHED in force -/
  sched : BitVec 3
  /-- commit buffer of R28 -/
  commitBuf : Option (BitVec 64 × BitVec 3)
  /-- mint time of the boundary the commit waits for -/
  commitAt : Nat
  /-- thermal step in force, 0 to 3 (MCH_STATUS.THERMAL) -/
  thermal : Nat
  /-- a quiet window acts in this frame (MCH_STATUS.QUIET) -/
  quiet : Bool
  /-- mint time of the frame in progress -/
  frame : Nat
  /-- next slot position of the frame -/
  slot : Nat
  /-- time the frame in progress began, for R88 -/
  cycles : Nat
  /-- mint times of the tokens received (R23) -/
  token : List Nat
  /-- 128 operations have been in flight since the frame began (R114) -/
  fullFrame : Bool
  /-- bring-up step that failed, 0 none (R379) -/
  failStep : Nat
  /-- bring-up attempts (R86) -/
  attempts : Nat
  /-- level 2 reinits failed in a row (R115) -/
  reinitFails : Nat
  /-- bin last accepted in stamp-search mode (R141) -/
  lastBin : Nat
  /-- the reconstruction run in progress (R96) -/
  recon : Option ReconRun
  /-- the reconstruction runs queued behind it (R96) -/
  reconQ : List ReconRun := []
  /-- chunk and row of the open stripes (R98) -/
  openStripes : List (Nat × Nat)
  /-- banks, keyed die position times 64 plus bank -/
  banks : Tab Bank
  /-- rows of a media folio that is being blanked whose BLANK has been queued, keyed media folio times 18 plus die position
  (R79, R181) -/
  blankAt : Tab Nat := []
  /-- it waits for the first frame token after its bring-up (R85 step 7) -/
  joining : Bool := false
  /-- the open stripes of a reinit have their parity recomputed before its reads are served (R115) -/
  mending : Bool := false
  /-- the last packet sent to each die position that belongs to no operation: SUSPEND, RESUME, MRW or REMAP (R102) -/
  lastCtl : Tab (BitVec 64) := []
deriving DecidableEq, Repr, Inhabited

/-- What a media operation is for. -/
inductive Purpose where
  /-- a read miss of host line L (R15) -/
  | hostRead (line : Nat)
  /-- a prefetch read of host line L (R232) -/
  | prefetch (line : Nat)
  /-- the drain of dirty line L (R207) -/
  | drain (line : Nat)
  /-- the write of counter block b (R207, R269) -/
  | drainCtr (block : Nat)
  /-- a parity recomputation (R126) -/
  | parity (m row : Nat)
  /-- the restrike of a line (R145) -/
  | restrikeLine (m o : Nat)
  /-- a staging write (R235) -/
  | staging (set folio o : Nat) (q idx : Nat)
  /-- the read of a line of media folio m by the patrol or a folio assay; a parity line by its place in the keys (R143, R144) -/
  | assay (m off : Nat) (patrol : Bool)
  /-- the blanking of its line (R181 step 7) -/
  | blank
  /-- a read of line L by the controller itself (R15) -/
  | take (by_ : Taker) (line : Nat)
  /-- the read of a line that is to be restruck; a parity line by its place in the keys (R145) -/
  | strikeRead (m off : Nat)
  /-- the read of a stripe's line at position p, 16 the parity die (R126, R131, R132) -/
  | stripeRead (m row p : Nat)
  /-- the program of the rebuilt line of a failed position (R132) -/
  | rebuild (m row p : Nat)
  /-- the read of a line by a migration (R181) -/
  | migRead (folio o : Nat)
  /-- the program of its copy (R181) -/
  | migWrite (folio o : Nat)
  /-- the write of a poison line (R128) -/
  | poisonWrite (line : Nat)
  /-- the read of a die register at a position (R79, R89) -/
  | mrr (p reg : Nat)
deriving DecidableEq, Repr, Inhabited

/-- R101: one media operation, queued or in flight. -/
structure MOp where
  /-- the operation's number -/
  id : Nat
  /-- channel -/
  ch : Nat
  /-- read, write or maintenance -/
  kind : OpKind
  /-- what it is for -/
  purpose : Purpose
  /-- die position -/
  pos : Nat
  /-- media folio, which is the chunk index -/
  m : Nat
  /-- row within the chunk -/
  row : Nat
  /-- ledger generation it was issued under (R156) -/
  gen : BitVec 24
  /-- its line or its bank is ready for a slot (R94) -/
  ready : Bool
  /-- it has been given its slot -/
  sent : Bool
  /-- drift bin named by its SENSE -/
  bin : Nat
  /-- drift re-reads made -/
  rereads : Nat
  /-- time it was queued -/
  queuedAt : Nat
  /-- the line a write carries -/
  line : MLine
  /-- counted late (R106) -/
  late : Bool
  /-- CA packets reissued for it (R484) -/
  tries : Nat
  /-- spare entries tried for it (R147) -/
  spares : Nat
  /-- class under which it was issued (R15) -/
  bullion : Bool := false
  /-- SEALED under which it was issued (R15) -/
  sealed_ : Bool := false
  /-- no-allocate under which it was issued (R42) -/
  noAlloc : Bool := false
  /-- its first packet has been sent (R101) -/
  issued : Bool := false
  /-- time at which its line is in the page buffer, or its delta frame in DBUF (R73, R94) -/
  readyAt : Nat := 0
  /-- its UPDATE has been sent, and its MERGE follows (R125) -/
  updated : Bool := false
  /-- delta buffer of its UPDATE (R125) -/
  dbuf : Nat := 0
  /-- it is reissued to a blank line, set-only (R147) -/
  setOnly : Bool := false
  /-- time it reached the home slice -/
  since : Nat := 0
  /-- work ahead of it in ns when it was queued (R105) -/
  ahead : Nat := 0
  /-- its parity line is recomputed instead of merged (R126) -/
  noMerge : Bool := false
  /-- its MERGE has been sent (R125) -/
  merged : Bool := false
  /-- senses made in stamp-search mode (R141) -/
  searchAt : Nat := 0
  /-- the bin and corrected bits of the best decode of the search (R141) -/
  best : Option (Nat × Nat) := none
  /-- readers inside the controller that joined it (R15) -/
  takers : List Taker := []
  /-- the line that its program packet carried (R126, R131, R135) -/
  wire : MLine := default
deriving DecidableEq, Repr, Inhabited

/-- R154: one ledger entry. -/
structure LEntry where
  /-- MEDIA_FOLIO, 0x1FF_FFFF = none -/
  media : Nat
  /-- KEY_ID -/
  key : Nat
  /-- CLASS -/
  bullion : Bool
  /-- WRITE_POLICY -/
  through : Bool
  /-- ALLOC_POLICY -/
  noAlloc : Bool
  /-- ACK_POLICY -/
  late : Bool
  /-- SEALED -/
  sealed_ : Bool
  /-- STATE -/
  state : FolioState
  /-- GENERATION -/
  gen : BitVec 24
  /-- DATE_STAMP -/
  stamp : BitVec 24
  /-- READ_COUNT, units of 256, saturating at 0xFFFF -/
  reads : Nat
  /-- reads towards the next unit (R157) -/
  readSub : Nat
deriving DecidableEq, Repr, Inhabited

/-- R158: one wear-table entry. -/
structure Wear where
  /-- WEAR, 19 bits -/
  wear : Nat
  /-- PROGRAMS, 13 bits -/
  programs : Nat
deriving DecidableEq, Repr, Inhabited

/-- R160: one reverse-map entry. -/
structure Rev where
  /-- KIND, 0x0 to 0x8 -/
  kind : Nat
  /-- OWNER -/
  owner : Nat
deriving DecidableEq, Repr, Inhabited

/-- R167, R168: one journal record. -/
structure JRec where
  /-- SEQ -/
  seq : BitVec 32
  /-- TYPE -/
  type : Nat
  /-- PART -/
  part : Nat
  /-- first payload value: host folio, media folio, set or checkpoint sequence -/
  a : Nat
  /-- second payload value: old media folio, KIND, item count or WEAR -/
  b : Nat
  /-- third payload value: new media folio, OWNER or WEAR -/
  c : Nat
  /-- fourth payload value: generation -/
  d : Nat
  /-- fifth payload value: STATE, target, flags, release mint time or digest -/
  e : Nat
  /-- mailbox whose background command it belongs to, plus 1; 0 = none (R380, the model's own) -/
  own : Nat
  /-- digest of a CKPT-END (R168) -/
  digest : BitVec 384 := 0
  /-- the record's CRC fails (R169) -/
  torn : Bool := false
deriving DecidableEq, Repr, Inhabited

/-- R173: a checkpoint body: ledger, wear table, reverse map. -/
structure CkptBody where
  /-- the ledger -/
  ledger : Tab LEntry
  /-- the wear table -/
  wear : Tab Wear
  /-- the reverse map -/
  rev : Tab Rev
  /-- WEAR of a folio that the wear table does not list -/
  wearBase : Nat
  /-- runs of folios for which it is one lower -/
  wearLow : List (Nat × Nat) := []
deriving DecidableEq, Repr, Inhabited

/-- R173: one checkpoint copy on media. -/
structure CkptCopy where
  /-- checkpoint sequence of the header -/
  seq : BitVec 32
  /-- SEQ of the CKPT-BEGIN record -/
  begin_ : BitVec 32
  /-- the body -/
  body : CkptBody
deriving DecidableEq, Repr, Inhabited

/-- R180, R181: one migration. -/
structure Mig where
  /-- host folio -/
  folio : Nat
  /-- priority 1 to 4 -/
  prio : Nat
  /-- RETIRE reason, 0 = ends with BLANKED -/
  retire : Nat
  /-- the destination's class -/
  bullion : Bool
  /-- source media folio -/
  src : Nat
  /-- destination media folio -/
  dst : Nat
  /-- the step it is in -/
  phase : MigPhase
  /-- passes run -/
  pass : Nat
  /-- lines drained to the source since they were copied -/
  marked : List Nat
  /-- marked lines that the running recopy pass copies -/
  todo : List Nat
  /-- mailbox whose background command it belongs to, plus 1; 0 = none -/
  own : Nat
  /-- lines that no spare could take: they stay in the till until the REMAP (R186) -/
  stay : List Nat := []
deriving DecidableEq, Repr, Inhabited

/-- R195: a line as the purse, an eviction buffer, the overdraft or a spill folio holds it. -/
structure PLine where
  /-- ciphertext -/
  data : Line
  /-- hallmark -/
  hallmark : BitVec 64
  /-- POISON -/
  poison : Bool
  /-- REWRITTEN, one bit a sector (R49) -/
  rewritten : BitVec 4
deriving DecidableEq, Repr, Inhabited

/-- R195: one purse slot with its tag word. -/
structure PSlot where
  /-- QUOT -/
  quot : Nat
  /-- GEN6 -/
  gen6 : BitVec 6
  /-- VALID -/
  valid : Bool
  /-- DIRTY -/
  dirty : Bool
  /-- QUEUED -/
  queued : Bool
  /-- DRAINING -/
  draining : Bool
  /-- the line, POISON and REWRITTEN -/
  line : PLine
  /-- the media operation that drains it, while DRAINING -/
  op : Nat := 0
deriving DecidableEq, Repr, Inhabited

/-- R200: one eviction-buffer line. -/
structure EvLine where
  /-- home slice -/
  slice : Nat
  /-- L -/
  lineNo : Nat
  /-- low bits of the folio generation -/
  gen6 : BitVec 6
  /-- its media write has been issued -/
  draining : Bool
  /-- the line -/
  line : PLine
  /-- the media operation that drains it, while issued -/
  op : Nat := 0
deriving DecidableEq, Repr, Inhabited

/-- R208: one drain-ring entry. -/
structure RingEntry where
  /-- L -/
  lineNo : Nat
  /-- GEN6 -/
  gen6 : BitVec 6
  /-- mint time[46:26] at entry -/
  time : Nat
deriving DecidableEq, Repr, Inhabited

/-- R65: a write merged into a waiting line. -/
structure WWrite where
  /-- sector 0 to 3 -/
  sector : Nat
  /-- the data -/
  data : Sector
  /-- byte enables -/
  enables : BitVec 64
  /-- the data carries poison -/
  poison : Bool
deriving DecidableEq, Repr, Inhabited

/-- R65: one line of the metered waiting queue. -/
structure WaitLine where
  /-- L -/
  lineNo : Nat
  /-- key ID of the writes -/
  key : Nat
  /-- its writes, oldest first -/
  writes : List WWrite
deriving DecidableEq, Repr, Inhabited

/-- Why a host or forwarded transaction waits. -/
inductive TxnWait where
  /-- a media read -/
  | miss (op : Nat)
  /-- back-invalidate snoops (R59) -/
  | snoop
  /-- till space (R65) -/
  | metered
  /-- the media write of its line (R41) -/
  | late
  /-- its line's media write, which has been issued (R41) -/
  | draining (op : Nat)
  /-- a lost-slot scan (R199) -/
  | slotScan (slot : Nat)
  /-- a recoinage (R274) -/
  | recoin (block : Nat)
  /-- the correspondent (R413) -/
  | forward (id : Nat)
  /-- a level 2 reinit (R48) -/
  | reinit
  /-- the slice's next eviction-buffer drain (R200) -/
  | evictFull
  /-- the folio's accesses translated under an older generation (R530) -/
  | oldGen
  /-- a way of its snoop-filter set, all of which have a request in flight (R69) -/
  | filterFull
deriving DecidableEq, Repr, Inhabited

/-- Whose transaction of a home slice it is. -/
inductive TxnBy where
  /-- a host's -/
  | host
  /-- the write-back that answers a snoop (R59) -/
  | writeBack
  /-- the control processor's, which sets a line's poison (R377) -/
  | inject
  /-- the control processor's, which writes a sector and clears the line's poison (R377) -/
  | clear
deriving DecidableEq, Repr, Inhabited

/-- R63: one transaction of a home slice in flight. -/
structure Txn where
  /-- arrival head -/
  head : Head
  /-- the request's tag -/
  tag : Nat
  /-- a write -/
  write : Bool
  /-- L -/
  lineNo : Nat
  /-- sector of the line -/
  sector : Nat
  /-- key ID -/
  key : Nat
  /-- arrival time -/
  since : Nat
  /-- what it waits for -/
  wait : TxnWait
  /-- write data -/
  data : Sector
  /-- byte enables -/
  enables : BitVec 64
  /-- the data carries poison -/
  poison : Bool
  /-- read for ownership -/
  own : Bool
  /-- ledger generation it was translated under (R56) -/
  gen : BitVec 24 := 0
  /-- late acknowledgement in force when it was translated (R42) -/
  late : Bool := false
  /-- write-through in force when it was translated (R42) -/
  through : Bool := false
  /-- no-allocate in force when it was translated (R42) -/
  noAlloc : Bool := false
  /-- whose it is -/
  by_ : TxnBy := .host
deriving DecidableEq, Repr, Inhabited

/-- R58: one snoop-filter entry. -/
structure SfEntry where
  /-- DPA[44:6] -/
  sector : Nat
  /-- key ID used -/
  key : Nat
  /-- holder bit of Port A -/
  holdA : Bool
  /-- holder bit of Port B -/
  holdB : Bool
  /-- held by one head with the right to modify -/
  modify : Bool
deriving DecidableEq, Repr, Inhabited

/-- R59: one back-invalidate snoop outstanding. -/
structure BiSnoop where
  /-- the head snooped -/
  head : Head
  /-- DPA[44:6] -/
  sector : Nat
  /-- time it was sent -/
  since : Nat
  /-- invalidating, else write-back and downgrade -/
  inval : Bool
deriving DecidableEq, Repr, Inhabited

/-- R344-R347: a committed HDM decoder. -/
structure Decoder where
  /-- HPA base -/
  base : Nat
  /-- HPA size -/
  size : Nat
  /-- interleave ways -/
  ways : Nat
  /-- interleave granularity -/
  gran : Nat
  /-- this controller's way of the interleave set -/
  target : Nat
  /-- K at commit (R346) -/
  kpos : Nat
  /-- DPA base -/
  dpaBase : Nat
  /-- DPA size -/
  dpaSize : Nat
  /-- HDM-DB -/
  bi : Bool
  /-- a strongbox decoder (R34) -/
  sbox : Bool
deriving DecidableEq, Repr, Inhabited

/-- R423: coalescing of one vector. -/
structure Coal where
  /-- COUNT -/
  count : Nat
  /-- HOLD_US -/
  holdUs : Nat
  /-- notifications accumulated -/
  acc : Nat
  /-- time of the first accumulated -/
  first : Nat
deriving DecidableEq, Repr, Inhabited

/-- R361: one MSI-X table entry. -/
structure MsixVec where
  /-- message address -/
  addr : BitVec 64
  /-- message data -/
  data : BitVec 32
  /-- masked -/
  masked : Bool
deriving DecidableEq, Repr, Inhabited

/-- R369: a background command. -/
structure BgCmd where
  /-- its opcode -/
  opcode : Nat
  /-- final return code so far -/
  result : Nat
  /-- what it still waits for, as its rule gives -/
  recs : Nat
  /-- set, queue or folio it concerns -/
  arg : Nat
deriving DecidableEq, Repr, Inhabited

/-- R367: one command mailbox. -/
structure Mailbox where
  /-- version declared: 0 = 1.0, 1 = 1.1, 2 = 2.0 -/
  declared : Nat
  /-- MBX_STATUS.RETURN -/
  ret : Nat
  /-- output payload of the last answer -/
  out : List Byte
  /-- payload words written since the last answer -/
  written : Tab (Option (BitVec 32))
  /-- free value that fills the bytes beyond OUT_LENGTH, plus 1; 0 = no answer yet (R368) -/
  answered : Nat
  /-- background command running -/
  bg : Option BgCmd
  /-- MBX_BG.OPCODE -/
  bgOpcode : Nat
  /-- MBX_BG.PERCENT -/
  bgPercent : Nat
  /-- MBX_BG_RESULT -/
  bgResult : Nat
  /-- command in progress that has not answered (R331, R369) -/
  busy : Option BgCmd
  /-- time it was submitted -/
  busySince : Nat
deriving DecidableEq, Repr, Inhabited

/-- R424: one CXL event record. -/
structure CxlRec where
  /-- event code, 0x1000000 + DPA of a media record, or 2^50 + DPA of a DRAM record -/
  code : Nat
  /-- vendor-specific area -/
  detail : BitVec 128
  /-- record handle -/
  handle : Nat
deriving DecidableEq, Repr, Inhabited

/-- R334-R364: one host port and its head. -/
structure Port where
  /-- GC_LINK.RATE -/
  rate : Nat
  /-- GC_LINK.WIDTH -/
  width : Nat
  /-- GC_LINK.LEVEL -/
  level : LinkLevel
  /-- a CXL.io IDE stream is secure -/
  ideIo : Bool
  /-- the CXL.mem IDE stream is secure -/
  ideMem : Bool
  /-- CXL.mem IDE has been enabled since the last level 2 reset (R360) -/
  ideMemOnce : Bool
  /-- PTM enabled -/
  ptmEn : Bool
  /-- PERST_N asserted -/
  perstLow : Bool
  /-- configuration-space dwords written (R356) -/
  cfg : Tab (Option (BitVec 32))
  /-- MSI-X enabled -/
  msixEn : Bool
  /-- MSI-X Function Mask -/
  msixMask : Bool
  /-- MSI-X table (R361) -/
  msix : Tab MsixVec
  /-- vectors pending in the Pending Bit Array -/
  pba : List Nat
  /-- coalescing per vector (R423) -/
  coal : Tab Coal
  /-- Yargen mailbox (R367) -/
  mbx : Mailbox
  /-- CXL mailbox (R377) -/
  cxl : Mailbox
  /-- CXL mailbox response payload -/
  cxlOut : List Byte
  /-- event interrupt policy (R377) -/
  evtPolicy : BitVec 32
  /-- CXL timestamp set, ns -/
  cxlTime : Nat
  /-- clock when it was set -/
  cxlTimeAt : Nat
  /-- alert thresholds (R377) -/
  alertCfg : BitVec 64
  /-- shutdown state (R377) -/
  shutdown : BitVec 8
  /-- CXL event logs by severity (R424) -/
  logs : Tab (List CxlRec)
  /-- overflow count by log -/
  logLost : Tab Nat
  /-- secure SPDM sessions (R358) -/
  sessions : Nat
  /-- GPF phase: 0 none, 1 phase 1, 2 phase 2 (R47) -/
  gpf : Nat
  /-- HDM decoders 0 to 3 -/
  decoders : Tab (Option Decoder)
  /-- Error Not Committed of each decoder (R347) -/
  decoderErr : BitVec 4
  /-- time of the last reset of the head -/
  resetAt : Nat
deriving DecidableEq, Repr, Inhabited

/-- R223, R243: one standing-order entry and its state word. -/
structure SoEntry where
  /-- the 32 bytes -/
  bytes : BitVec 256
  /-- STATE -/
  state : SoEntryState
  /-- ERROR -/
  error : BitVec 8
  /-- LATE_MAX -/
  lateMax : Nat
  /-- the release of its next firing has been prepared (R238) -/
  prepared : Bool
  /-- it is disarmed for the firings after its committed release (R229) -/
  ends : Bool := false
deriving DecidableEq, Repr, Inhabited

/-- R227: a firing whose token has been issued. -/
structure Firing where
  /-- entry index -/
  entry : Nat
  /-- mint time of the frame it takes effect in -/
  frame : Nat
  /-- FIRE_TIME of the firing -/
  fireTime : Nat
  /-- the entry as it stood when its token was issued -/
  bytes : BitVec 256
deriving DecidableEq, Repr, Inhabited

/-- R233: one escrow set. -/
structure Escrow where
  /-- STATE -/
  state : EscState
  /-- INIT -/
  inherit : Bool
  /-- key ID -/
  key : Nat
  /-- member host folios -/
  members : List Nat
  /-- state code of each member before the set -/
  prior : Tab Nat
  /-- staged media folio of each member plus 1, 0 = none -/
  staged : Tab Nat
  /-- lines staged, keyed folio times 8192 plus o -/
  stagedLines : Tab Bool
  /-- reserve folios still reserved for members -/
  reserved : Nat
  /-- staging counter folios taken, by group of 64 members (R271) -/
  ctrFolios : List (Nat × Nat)
  /-- standing-order entry preparing it, plus 1 -/
  entry : Nat
  /-- RELEASE-ITEM records still to append -/
  items : Nat
  /-- staging writes not completed -/
  pendingWrites : Nat
  /-- old media folios still to blank while settling -/
  oldFolios : List Nat
  /-- an abandon is in progress -/
  abandon : Bool
deriving DecidableEq, Repr, Inhabited

/-- R246: one domain policy record. -/
structure Policy where
  /-- FLAGS -/
  flags : BitVec 8
  /-- the record has been written -/
  written : Bool
  /-- KCV -/
  kcv : BitVec 32
  /-- a KCV is recorded -/
  kcvSet : Bool
deriving DecidableEq, Repr, Inhabited

/-- R297: one package key slot. -/
structure PkgSlot where
  /-- LOADED -/
  loaded : Bool
  /-- the key -/
  key : BitVec 256
  /-- bound PACKAGE_ID -/
  pkgId : BitVec 64
  /-- bound key ID -/
  keyId : Nat
  /-- direction -/
  export_ : Bool
  /-- FIXED -/
  fixed : BitVec 32
  /-- COMPLETE -/
  complete : Bool
deriving DecidableEq, Repr, Inhabited

/-- R298-R300: one vault key page. -/
structure KeyPage where
  /-- LOCK -/
  lock : Bool
  /-- RESULT -/
  result : Nat
  /-- KEY_WRITTEN -/
  keyWritten : BitVec 8
  /-- VLT_KEY0-7 -/
  key : BitVec 256
  /-- VLT_SLOT_SEL -/
  slotSel : BitVec 32
  /-- VLT_PKG_ID_LO -/
  idLo : BitVec 32
  /-- VLT_PKG_ID_HI -/
  idHi : BitVec 32
  /-- VLT_PKG_BIND -/
  bind : BitVec 32
  /-- VLT_PKG_FIXED -/
  fixed : BitVec 32
  /-- VLT_KCV -/
  kcv : BitVec 32
deriving DecidableEq, Repr, Inhabited

/-- R260: one counter block. -/
structure CtrBlock where
  /-- MAJOR -/
  major : BitVec 64
  /-- minor counters -/
  minors : Tab (BitVec 24)
  /-- block hallmark (R261) -/
  hallmark : BitVec 64
deriving DecidableEq, Repr, Inhabited

/-- R264: one counter-cache slot. -/
structure CcSlot where
  /-- b -/
  block : Nat
  /-- VALID -/
  valid : Bool
  /-- DIRTY -/
  dirty : Bool
  /-- SEALED -/
  sealed_ : Bool
  /-- the block -/
  ctr : CtrBlock
  /-- clock when it became dirty (R207) -/
  since : Nat := 0
deriving DecidableEq, Repr, Inhabited

/-- R274: one recoinage page of the passbook. -/
structure RecoinPage where
  /-- b -/
  block : Nat
  /-- key ID -/
  key : Nat
  /-- the old block -/
  old : CtrBlock
  /-- VALID written -/
  valid : Bool
deriving DecidableEq, Repr, Inhabited

/-- R278: one counter-tree node. -/
structure TNode where
  /-- 32 counters -/
  ctrs : Tab (BitVec 56)
  /-- node MAC -/
  mac : BitVec 64
  /-- newer than its media copy -/
  dirty : Bool
  /-- R279: in the tree cache -/
  cached : Bool
deriving DecidableEq, Repr, Inhabited

/-- R311: one descriptor in flight. -/
structure Desc where
  /-- ring index -/
  idx : Nat
  /-- the 64 bytes -/
  raw : BitVec 512
  /-- fetched, started or done -/
  stage : DescStage
  /-- 64-byte units issued -/
  done : Nat
  /-- lines copied poisoned -/
  poisoned : Nat
  /-- lines discarded -/
  discarded : Nat
  /-- STATUS once done -/
  status : Nat
  /-- DETAIL once done -/
  detail : Nat
  /-- RESULT once done -/
  result : BitVec 64
  /-- what its completion waits for (R54, R314): four times a line, an operation, a forwarded access or a prefetch line, plus the code 0 to 3 -/
  waits : List Nat
  /-- QGEN it was issued under -/
  startGen : Nat
deriving DecidableEq, Repr, Inhabited

/-- R328: the outcome record of a queue's last COND_STORE. -/
structure CondOutcome where
  /-- ring index -/
  idx : Nat
  /-- STATUS -/
  status : Nat
  /-- DETAIL -/
  detail : Nat
deriving DecidableEq, Repr, Inhabited

/-- R305-R331: one queue pair. -/
structure Queue where
  /-- its head -/
  head : Head
  /-- SQ_LOG2 -/
  sqLog2 : Nat
  /-- CQ_LOG2 -/
  cqLog2 : Nat
  /-- submission ring base -/
  sqBase : BitVec 64
  /-- completion ring base -/
  cqBase : BitVec 64
  /-- QP_SQ_HEAD -/
  sqHead : Nat
  /-- QP_SQ_TAIL -/
  sqTail : Nat
  /-- QP_CQ_HEAD -/
  cqHead : Nat
  /-- QP_CQ_TAIL -/
  cqTail : Nat
  /-- completion entries written and not freed (R310) -/
  cqUsed : Nat
  /-- PHASE of the next completion entry -/
  phase : Bool
  /-- GATE_CLOSED -/
  gateClosed : Bool
  /-- ERROR -/
  error : Bool
  /-- ERR_CAUSE -/
  errCause : Nat
  /-- CQ_FULL -/
  cqFull : Bool
  /-- BAD_DOORBELL -/
  badDoorbell : Bool
  /-- ENGINE -/
  engine : Nat
  /-- QGEN -/
  qgen : BitVec 8
  /-- PRIORITY -/
  prio : Nat
  /-- PASID -/
  pasid : BitVec 20
  /-- PASID_VALID -/
  pasidValid : Bool
  /-- MSI-X vector -/
  vector : Nat
  /-- IRQ_EN -/
  irqEn : Bool
  /-- grant mask -/
  grants : BitVec 128
  /-- descriptors in flight, oldest first -/
  descs : List Desc
  /-- serving or being deleted -/
  state : QState
  /-- QP_CNT_DESC (R439) -/
  cntDesc : BitVec 64
  /-- QP_CNT_LINES -/
  cntLines : BitVec 64
  /-- QP_CNT_HOST -/
  cntHost : BitVec 64
  /-- QP_CNT_ERR -/
  cntErr : BitVec 64
  /-- QP_CNT_STFAIL -/
  cntStFail : BitVec 64
  /-- QP_LAST_TIME -/
  lastTime : BitVec 64
  /-- outcome record (R328) -/
  outcome : Option CondOutcome
  /-- the last descriptor when it was a RESERVE_LOAD: index, DPA and key ID (R325) -/
  lastLoad : Option (Nat × Nat × Nat)
  /-- failed iterations of a simple loop in a row (R325) -/
  loopFails : Nat
  /-- the line of that loop -/
  loopLine : Nat
  /-- histogram permission (R440) -/
  perm : BitVec 8
deriving DecidableEq, Repr, Inhabited

/-- R306, R326: one mover engine. -/
structure Engine where
  /-- MOV_STATUS.IN_SERVICE -/
  inService : Bool
  /-- being reinitialised -/
  reinit : Bool
  /-- reinits failed in a row -/
  fails : Nat
  /-- time of the last progress -/
  progress : Nat
  /-- queue plus 1 whose turn it is, 0 = none yet (R306) -/
  turn : Nat := 0
  /-- descriptors it may still start in its turn (R306) -/
  turnLeft : Nat := 0
deriving DecidableEq, Repr, Inhabited

/-- R323: one reservation. -/
structure Resv where
  /-- queue -/
  q : Nat
  /-- L -/
  lineNo : Nat
  /-- home slice -/
  slice : Nat
  /-- time plus 1 of the RESERVE_LOAD's completion entry, 0 = not yet written -/
  since : Nat
  /-- senior (R325) -/
  senior : Bool
  /-- 0 held, else DETAIL plus 1 -/
  lost : Nat
deriving DecidableEq, Repr, Inhabited

/-- R287-R294: a chunk in a package engine. -/
structure Chunk where
  /-- engine -/
  engine : Nat
  /-- queue -/
  q : Nat
  /-- ring index -/
  idx : Nat
  /-- stage -/
  stage : ChunkStage
  /-- package slot -/
  slot : Nat
  /-- destination -/
  dpa : Nat
  /-- destination key ID -/
  key : Nat
  /-- escrow set plus 1, 0 = none -/
  escrow : Nat
  /-- LAST -/
  last : Bool
  /-- plaintext lines in the hold buffer -/
  plain : List Line
  /-- the computed tag equals the chunk's -/
  tagOk : Bool
  /-- package key captured at the header check -/
  captured : BitVec 256
deriving DecidableEq, Repr, Inhabited

/-- R425: one daybook record. -/
structure DbRec where
  /-- SEQ -/
  seq : BitVec 32
  /-- TIME -/
  time : BitVec 64
  /-- CODE -/
  code : BitVec 16
  /-- FLAGS -/
  flags : BitVec 8
  /-- SUPPRESSED -/
  suppressed : BitVec 8
  /-- DETAIL -/
  detail : BitVec 128
deriving DecidableEq, Repr, Inhabited

/-- R429, R430: one rate-limit entry. -/
structure RateEntry where
  /-- entry code -/
  code : BitVec 16
  /-- mask -/
  mask : BitVec 16
  /-- LIMIT -/
  limit : BitVec 16
deriving DecidableEq, Repr, Inhabited

/-- R429: one code tracked in the window. -/
structure RateTrack where
  /-- code -/
  code : BitVec 16
  /-- records kept -/
  kept : Nat
  /-- records suppressed since the last kept -/
  supp : Nat
  /-- DAYBOOK_SUPPRESS raised in the window -/
  raised : Bool
deriving DecidableEq, Repr, Inhabited

/-- R435: one snapshot buffer. -/
structure Snap where
  /-- SEQ -/
  seq : BitVec 32
  /-- mint time of the capture boundary -/
  time : BitVec 64
  /-- TAG -/
  tag : BitVec 16
  /-- requesters -/
  who : BitVec 8
  /-- MERGED -/
  merged : Nat
  /-- level 2 reinits -/
  reinits : Nat
  /-- LATENESS -/
  late : Nat
  /-- the counters -/
  ctrs : Tab (BitVec 48)
deriving DecidableEq, Repr, Inhabited

/-- R434: a snapshot requested. -/
structure SnapReq where
  /-- mint time of its boundary -/
  at_ : Nat
  /-- TAG -/
  tag : BitVec 16
  /-- requester bit: 0 order, 1 command, 2 register, 3 sampling -/
  who : Nat
deriving DecidableEq, Repr, Inhabited

/-- R449: one pending page write. -/
structure PageWrite where
  /-- class of R451 -/
  cls : Nat
  /-- byte address of its first word -/
  addr : Nat
  /-- the bytes -/
  data : List Byte
  /-- 0 = the controller, else the vault request it answers: 1 plus the principal, plus 8 times the tag, plus 256 times the opcode -/
  principal : Nat
deriving DecidableEq, Repr, Inhabited

/-- R470: one slot's counts and codes. -/
structure RailCnt where
  /-- sequence faults -/
  seqFaults : Nat
  /-- rise timeouts -/
  riseTo : Nat
  /-- chatter scans -/
  chatter : Nat
  /-- failures during power-down -/
  downFails : Nat
  /-- abandoned falls -/
  abandons : Nat
  /-- losses in service -/
  losses : Nat
  /-- latest code -/
  latest : Nat
  /-- lowest code while good since power-on -/
  lowest : Nat
deriving DecidableEq, Repr, Inhabited

/-- R465-R469: one rail slot. -/
structure Rail where
  /-- STATE -/
  state : RailState
  /-- judged good -/
  good : Bool
  /-- RAIL_EN asserted -/
  enabled : Bool
  /-- consecutive scans at or above GOOD -/
  goodScans : Nat
  /-- consecutive scans below FALL -/
  fallScans : Nat
  /-- consecutive scans below GOOD - HYST in ON -/
  badScans : Nat
  /-- time of its enable -/
  enAt : Nat
  /-- time of its disable -/
  disAt : Nat
  /-- time its ON_DELAY or OFF_DELAY ends plus 1, 0 = none runs -/
  dueAt : Nat
  /-- failed before its turn in DOWN (R468) -/
  preFailed : Bool
  /-- PSQ_FAULTS.FAULTED -/
  faulted : Bool
  /-- PSQ_FAULTS.ABANDONED -/
  abandoned : Bool
  /-- counts (R470) -/
  cnt : RailCnt
deriving DecidableEq, Repr, Inhabited

/-- R478, R479: one temperature sensor. -/
structure Sensor where
  /-- latest reading in units of 0.25 °C -/
  temp : Int
  /-- consecutive conversions with the same raw code -/
  same : Nat
  /-- latest raw code -/
  raw : Int
  /-- 0 working, 1 out of range, 2 stuck, 3 missing -/
  cause : Nat
  /-- time of the latest conversion -/
  last : Nat
deriving DecidableEq, Repr, Inhabited

/-- R399: one mirror-buffer entry. -/
structure MirrorEntry where
  /-- place in the order of merging -/
  seq : Nat
  /-- key ID -/
  key : Nat
  /-- DPA[44:6] -/
  sector : Nat
  /-- plaintext -/
  data : Sector
  /-- a settlement line -/
  settle : Bool
  /-- acknowledged -/
  acked : Bool
  /-- answered REFUSED -/
  refused : Bool
deriving DecidableEq, Repr, Inhabited

/-- R404: the open barrier. -/
structure Barrier where
  /-- TOKEN -/
  token : BitVec 16
  /-- IRQ -/
  irq : Bool
  /-- mirror entries with a lower number are covered -/
  upto : Nat
  /-- a covered entry was refused -/
  refused : Bool
  /-- folios of the covered entries mirrored while settling -/
  folios : List Nat
deriving DecidableEq, Repr, Inhabited

/-- R413: a forwarded access. -/
structure Fwd where
  /-- its number -/
  id : Nat
  /-- of a mover descriptor, else of a host transaction -/
  mover : Bool
  /-- head -/
  head : Head
  /-- tag -/
  tag : Nat
  /-- a write -/
  write : Bool
  /-- DPA[44:6] -/
  sector : Nat
  /-- key ID -/
  key : Nat
  /-- write data -/
  data : Sector
  /-- byte enables -/
  enables : BitVec 64
deriving DecidableEq, Repr, Inhabited

/-- R383: one firmware slot. -/
structure FwSlot where
  /-- bytes received -/
  bytes : Nat
  /-- total image length -/
  total : Nat
  /-- staged state -/
  state : FwState
  /-- image version -/
  version : BitVec 32
  /-- SVN -/
  svn : BitVec 16
  /-- for stepping B1 -/
  forB1 : Bool
  /-- the signature verifies -/
  sigOk : Bool
  /-- SHA-384 digest -/
  digest : BitVec 384
  /-- the image bytes received (R383) -/
  data : List Byte
deriving DecidableEq, Repr, Inhabited

/-- What the controller sends: one item on a link, a pin or a bus. -/
inductive Out where
  /-- read data -/
  | memData (h : Head) (tag : Nat) (data : Sector)
  /-- poisoned read data -/
  | memPoison (h : Head) (tag : Nat)
  /-- write completion -/
  | memCmp (h : Head) (tag : Nat)
  /-- register read data -/
  | barData (h : Head) (value : BitVec 64)
  /-- a back-invalidate snoop to the host address that the holder used (R59) -/
  | snoop (h : Head) (hpa : Nat) (inval : Bool)
  /-- the conflict handshake's message: a request crossed a snoop for its line (R61) -/
  | biConflict (h : Head) (hpa : Nat)
  /-- an MSI-X message -/
  | msi (h : Head) (vector : Nat)
  /-- a host-memory write, with the queue's PASID where it has one (R321) -/
  | hostWrite (h : Head) (pasid : Option (BitVec 20)) (addr : BitVec 64) (data : List Byte) (poison : Bool)
  /-- a host-memory read of a descriptor's source, with the queue's PASID where it has one (R321) -/
  | hostRead (h : Head) (pasid : Option (BitVec 20)) (addr : BitVec 64) (bytes : Nat)
  /-- a descriptor fetch, with the queue's PASID where it has one (R321) -/
  | fetch (q : Nat) (pasid : Option (BitVec 20)) (idx count : Nat)
  /-- a command packet on CA, with the CS_N lines asserted for it (R76) -/
  | dieCmd (c : Nat) (cs : BitVec 2) (packet : BitVec 64)
  /-- a line that the controller drives on DQ, byte 0 in the low bits (R75) -/
  | dieLine (c : Nat) (image : BitVec 2368)
  /-- a board-mailbox message -/
  | mctp (bytes : List Byte)
  /-- a DOE response -/
  | doe (h : Head) (bytes : List Byte)
  /-- a configuration completion -/
  | cfg (h : Head) (value : BitVec 32)
  /-- the GPF phase 2 response -/
  | gpfDone (h : Head)
  /-- a pair-link packet: kind, number and data -/
  | pairPkt (kind : Nat) (arg : Nat) (data : Sector)
  /-- MRST_N of a channel, driven low or released (R85) -/
  | mrst (c : Nat) (low : Bool)
  /-- JTAG read data -/
  | jtag (value : Line) (hallmark : BitVec 64)
deriving DecidableEq, Repr, Inhabited

/-- A command mailbox at reset (R367): version 1.0 declared, nothing running. -/
def Mailbox.init : Mailbox := default

/-- A host port at reset (R363): link down. -/
def Port.init : Port := default

/-- An empty firmware slot (R379). -/
def FwSlot.init : FwSlot := default

/-- The slot of the running image at manufacture: a verified image for stepping B1 (DESIGN CHOICE 5). -/
def FwSlot.running : FwSlot := { (default : FwSlot) with state := .verified, forB1 := true, sigOk := true, bytes := 1, total := 1 }

/-- R529 step 3 at the example population: every media folio outside the directories is in the reserve. -/
def formatRev : Tab Rev := []

/-- R529 step 3: the two checkpoint copies of 15 folios (R163). -/
def formatCkpt : List (Nat × Nat) := [(0, 15), (15, 15)]

/-- R529 step 3: the 32 spill folios. -/
def formatSpill : List (Nat × Nat) := [(30, 32)]

/-- R529 step 3: the counter shelf of V / 64 folios. -/
def formatShelf : List (Nat × Nat) := [(62, 8192)]

/-- R529, R189: the reserve count at the end of the format, N less the folios above. -/
def formatReserve : Nat := 2621440 - 30 - 32 - 8192

/-- R173, R529: byte i of the body of checkpoint 0 at the example population: unprovisioned entries, a wear table of zeros, and the
reverse map of the directories. -/
def formatByte (i : Nat) : Byte :=
  if i < 8388608 then (if i % 16 < 3 then 0xFF else if i % 16 == 3 then 1 else 0)
  else if i < 18874368 || 29360128 ≤ i then 0
  else
    let m := (i - 18874368) / 4
    let rev := if m < 15 then m + 6 * 2 ^ 24
      else if m < 30 then m - 15 + 2 ^ 23 + 6 * 2 ^ 24
      else if m < 62 then m - 30 + 7 * 2 ^ 24
      else if m < 8254 then m - 62 + 5 * 2 ^ 24 else 0
    BitVec.ofNat 8 (rev / 256 ^ (i % 4))

/-- R529 step 4: CKPT-BEGIN(0) and the three records of CKPT-END(0), with the digest of the body of checkpoint 0. -/
def formatRing : List JRec :=
  let e : JRec := { (default : JRec) with type := 0x0A, digest := Config.sha384Of 29360128 formatByte }
  [{ (default : JRec) with seq := 1, type := 0x09 }, { e with seq := 2 }, { e with seq := 3, part := 1 }, { e with seq := 4, part := 2 }]

/-- R529 step 4: checkpoint 0, with every host folio unprovisioned. -/
def formatCopy : CkptCopy := { (default : CkptCopy) with begin_ := 1 }


/-- Board population and straps as the pins show them (R10, R72, R192, R203, R335). -/
structure Board where
  /-- populated channels C: 4, 8, 16 or 32 (R10) -/
  channels : Nat
  /-- data dies per channel D: 4, 8 or 16 (R72) -/
  dieCount : Nat
  /-- channels whose dies are M2 (R74) -/
  m2 : BitVec 32
  /-- channels with a parity die (R72) -/
  parityDies : BitVec 32
  /-- channels with a standby die (R72) -/
  standbyDies : BitVec 32
  /-- populated LPDDR5X interfaces (R192) -/
  dramIfs : Nat
  /-- 16 GiB per interface, else 8 (R192) -/
  dram16 : Bool
  /-- trained rate code of PUR_CONFIG.RATE (R216) -/
  dramRate : Nat
  /-- V, configured host folios (R154) -/
  folios : Nat
  /-- device serial number in fuses (R341) -/
  serial : BitVec 64
  /-- HOLDUP_SEL pins (R203) -/
  holdupSel : BitVec 2
  /-- PORTB_SEL pins (R335) -/
  portbSel : BitVec 2
  /-- SRIS_A pin (R501) -/
  srisA : Bool
  /-- SRIS_B pin (R501) -/
  srisB : Bool
  /-- TEST_EN pin (R502) -/
  testEn : Bool
deriving DecidableEq, Repr, Inhabited

/-- Board at power-on: the values of R489, R529 and the register tables, or of the log entry INVENTORY.md names. -/
def Board.reset : Board where
  channels := 8
  dieCount := 8
  m2 := 0xFFFFFFFF
  parityDies := 0xFFFFFFFF
  standbyDies := 0
  dramIfs := 1
  dram16 := true
  dramRate := 3
  folios := 524288
  serial := 0
  holdupSel := 0
  portbSel := 0
  srisA := false
  srisB := false
  testEn := false

/-- Clock islands and crossings (R16-R21). -/
structure Islands where
  /-- GC_ISLAND_ON, one bit per domain (R24) -/
  on : BitVec 18
  /-- writes held pending in the crossings, oldest first (R20) -/
  held : List HeldWrite
  /-- accesses waiting for a stopped clock (R19) -/
  waiting : List WaitAcc
  /-- register accesses that have begun to wait (R19) -/
  arrivals : Nat
  /-- FAB, ECC and CIP run at half clock (R109) -/
  half : Bool
  /-- high words latched by low-word reads, by offset (R242) -/
  latchLo : Tab (Option (BitVec 32))
  /-- value the last register read returned (R25) -/
  lastRead : BitVec 64
deriving DecidableEq, Repr, Inhabited

/-- Islands at power-on: the values of R489, R529 and the register tables, or of the log entry INVENTORY.md names. -/
def Islands.reset : Islands where
  on := 0x3FFFF
  held := []
  waiting := []
  arrivals := 0
  half := false
  latchLo := []
  lastRead := 0

/-- Media channels, dies and lines (R70-R151). -/
structure Media where
  /-- the 32 channels (R110) -/
  chans : Tab Chan
  /-- MCL_GROUP_MASK0-3 (R112) -/
  groupMask : Tab (BitVec 32)
  /-- MCL_BCAST_DIFF (R112) -/
  bcastDiff : BitVec 32
  /-- the dies, keyed channel times 18 plus position (R80) -/
  dies : Tab Die
  /-- media lines, keyed by place (R37), unlisted = blank (R116) -/
  lines : Tab MLine
  /-- media operations queued or in flight, oldest first (R101) -/
  ops : List MOp
  /-- number of the next operation (R101) -/
  nextOp : Nat
  /-- DIE_TIME.VALID on the M2 dies (R84) -/
  diesTimeValid : Bool
  /-- DIE_TIME.TIME (R84) -/
  diesTime : BitVec 24
  /-- last multiple of 2^32 ns written to DIE_TIME (R84) -/
  timeUpdated : Nat
  /-- lines read by the controller for itself (R15) -/
  taken : List Taken
  /-- stripes whose lines are being read (R126, R131, R132) -/
  works : List StripeWork
  /-- folios being assayed (R143, R144, R149) -/
  assays : List AssayRun
deriving DecidableEq, Repr, Inhabited

/-- Media at power-on: the values of R489, R529 and the register tables, or of the log entry INVENTORY.md names. -/
def Media.reset : Media where
  chans := []
  groupMask := []
  bcastDiff := 0
  dies := []
  lines := []
  ops := []
  nextOp := 1
  diesTimeValid := false
  diesTime := 0
  timeUpdated := 0
  taken := []
  works := []
  assays := []

/-- Integrity state (R122-R152). -/
structure Integrity where
  /-- stamp-search mode in force (INT_STATUS.STAMP_SEARCH) (R140) -/
  search : Bool
  /-- host folios on the scrub list (R142) -/
  scrub : List Nat
  /-- the scrub runs (INT_STATUS.SCRUB_ACTIVE) (R142) -/
  scrubbing : Bool
  /-- restrikes queued: media folio and line; a parity line as R39 places it (R144) -/
  restrikes : List (Nat × Nat)
  /-- host folios restruck whole, whose date stamp is set when their restrikes are done (R139) -/
  wholeStrikes : List Nat
  /-- drift re-read counts by folio, most recently used first (R139) -/
  rereads : List (Nat × Nat)
  /-- time the last patrol pass began (R143) -/
  patrolAt : Nat
  /-- a patrol pass runs (R143) -/
  patrolling : Bool
  /-- INT_DIE_STATE.FAILED by channel (R152) -/
  failed : Tab (BitVec 18)
  /-- INT_DIE_STATE.SUBST by channel, plus 1, 0 = none (R152) -/
  subst : Tab Nat
  /-- channel being rebuilt (R152) -/
  rebuildCh : Option Nat
  /-- position being rebuilt (R152) -/
  rebuildPos : Nat
  /-- INT_REBUILD_PROG.CHUNK (R133) -/
  rebuildChunk : Nat
  /-- next row of the chunk to rebuild (R132) -/
  rebuildAt : Nat
  /-- passbook repair map, keyed die key times 256 plus entry (R148) -/
  repairs : Tab (BitVec 32)
  /-- intent pages: channel, place key and flags of the last batches (R150) -/
  torn : List (Nat × Nat × Nat)
  /-- a full assay runs (R149) -/
  assay : Bool
  /-- host folios that meet the retirement criteria (R149) -/
  retireList : List Nat
  /-- uncorrectable lines since the last checkpoint: host folio and line (R149) -/
  uncorrBy : List (Nat × Nat)
  /-- lines with stored poison, with syndrome (R377) -/
  poisonList : List (Nat × Nat)
deriving DecidableEq, Repr, Inhabited

/-- Integrity at power-on: the values of R489, R529 and the register tables, or of the log entry INVENTORY.md names. -/
def Integrity.reset : Integrity where
  search := true
  scrub := []
  scrubbing := false
  restrikes := []
  wholeStrikes := []
  rereads := []
  patrolAt := 0
  patrolling := false
  failed := []
  subst := []
  rebuildCh := none
  rebuildPos := 0
  rebuildChunk := 0
  rebuildAt := 0
  repairs := []
  torn := []
  assay := false
  retireList := []
  uncorrBy := []
  poisonList := []

/-- Ledger, journal, checkpoints, migration (R154-R191). -/
structure Ledger where
  /-- the ledger (R154) -/
  entries : Tab LEntry
  /-- the wear table (R158) -/
  wear : Tab Wear
  /-- WEAR of a media folio that the wear table does not list (R158) -/
  wearBase : Nat
  /-- runs of folios whose WEAR stands above one less than that: those that a rebuild scan's commit did not blank (R179) -/
  wearLow : List (Nat × Nat)
  /-- the reverse map, for folios other than those of the directories (R160) -/
  rev : Tab Rev
  /-- checkpoint directory, copy A first, as runs of folios (R173) -/
  ckptDir : List (Nat × Nat)
  /-- spill directory, as runs (R164) -/
  spillDir : List (Nat × Nat)
  /-- counter-shelf directory, as runs (R164) -/
  shelfDir : List (Nat × Nat)
  /-- tree folios (R276) -/
  treeDir : List Nat
  /-- reserve count at the end of the last format (R189) -/
  reserveAtFormat : Nat
  /-- journal ring, oldest first (R167) -/
  ring : List JRec
  /-- SEQ of the next record (R167) -/
  seqNext : BitVec 32
  /-- records waiting for their append, oldest first (R169) -/
  appends : List JRec
  /-- the first of them is being written (R171) -/
  appending : Bool
  /-- WLV_STATUS.JOURNAL_FULL (R170) -/
  journalFull : Bool
  /-- checkpoint copy A (R173) -/
  copyA : CkptCopy
  /-- checkpoint copy B (R173) -/
  copyB : CkptCopy
  /-- WLV_STATUS.CKPT_ACTIVE (R174) -/
  ckptActive : Bool
  /-- step of the running checkpoint (R174) -/
  ckptPhase : CkptPhase
  /-- a trigger waits for the next checkpoint (R172) -/
  ckptQueued : Bool
  /-- time the last checkpoint began (R172) -/
  ckptBegan : Nat
  /-- sequence of the newest valid checkpoint (R190) -/
  ckptSeq : BitVec 32
  /-- sequence of the next checkpoint (R174) -/
  ckptNext : BitVec 32
  /-- WLV_STATUS.CKPT_USED (R190) -/
  ckptUsed : Nat
    /-- WLV_STATUS.LEDGER_LOST (R178) -/
  lost : Bool
  /-- WLV_STATUS.SCAN_ACTIVE (R179) -/
  scanActive : Bool
  /-- the scan has completed (R179) -/
  scanDone : Bool
  /-- recovered, lost, unclaimed and losing folios (R379) -/
  scanReport : List Nat
  /-- folios to blank on commit (R179) -/
  scanLosers : List Nat
  /-- the ledger the scan built (R179) -/
  scanResult : Tab LEntry
  /-- provisioning extents of the passbook (R179) -/
  extents : Tab LEntry
  /-- migrations, queued and running (R180) -/
  migs : List Mig
  /-- media folios being blanked, with the escrow set plus 1 that waits (R181) -/
  blanking : List (Nat × Nat)
  /-- overdraft lines (R185) -/
  overdraft : List (Nat × PLine)
  /-- lines in the spill folios (R185) -/
  spill : List (Nat × PLine)
  /-- lines that wait for overdraft room (R186) -/
  overdraftWait : List Nat
  /-- WLV_STATUS.OVERDRAFT_FULL (R187) -/
  overdraftFull : Bool
  /-- discarded writes since the last record (R187) -/
  discards : Nat
  /-- highest wear of the passbook health summary (R179) -/
  highestWear : Nat
  /-- Memory_Active (R351) -/
  memActive : Bool
  /-- recovery has run since the last reset (R177) -/
  recovered : Bool
deriving DecidableEq, Repr, Inhabited

/-- Ledger at power-on: the values of R489, R529 and the register tables, or of the log entry INVENTORY.md names. -/
def Ledger.reset : Ledger where
  entries := []
  wear := []
  wearBase := 0
  wearLow := []
  rev := formatRev
  ckptDir := formatCkpt
  spillDir := formatSpill
  shelfDir := formatShelf
  treeDir := []
  reserveAtFormat := formatReserve
  ring := formatRing
  seqNext := 5
  appends := []
  appending := false
  journalFull := false
  copyA := formatCopy
  copyB := formatCopy
  ckptActive := false
  ckptPhase := CkptPhase.begin_
  ckptQueued := false
  ckptBegan := 0
  ckptSeq := 0
  ckptNext := 1
  ckptUsed := 0
  lost := false
  scanActive := false
  scanDone := false
  scanReport := [0, 0, 0, 0]
  scanLosers := []
  scanResult := []
  extents := []
  migs := []
  blanking := []
  overdraft := []
  spill := []
  overdraftWait := []
  overdraftFull := false
  discards := 0
  highestWear := 0
  memActive := false
  recovered := false

/-- Purse, till, drain, strongbox (R192-R216, R533). -/
structure Purse where
  /-- PUR_STATUS.READY (R216) -/
  ready : Bool
  /-- PUR_STATUS.SELF_REFRESH (R216) -/
  selfRefresh : Bool
  /-- PUR_STATUS.SBOX_CLEARING (R214) -/
  sboxClearing : Bool
  /-- purse slots, unlisted = not valid (R195) -/
  slots : Tab PSlot
  /-- eviction buffers, oldest first (R200) -/
  evb : List EvLine
  /-- write-back ring, oldest first (R208) -/
  wbRing : List RingEntry
  /-- express ring, oldest first (R208) -/
  exRing : List RingEntry
  /-- order 4 is due by age (R208) -/
  ageDue : Bool
  /-- time of the last age check (R208) -/
  ageChecked : Nat
  /-- TIL_STATUS.METERED (R65) -/
  metered : Bool
  /-- metered waiting queue, oldest first (R65) -/
  waitQ : List WaitLine
  /-- TIL_BUDGET_ACT: B in lines (R205) -/
  budget : Nat
  /-- a budget that waits for the frame boundary (R205) -/
  budgetStaged : Option Nat
  /-- mint time of that boundary (R205) -/
  budgetAt : Nat
  /-- HOLDUP_OK pin (R206) -/
  holdupOk : Bool
  /-- time HOLDUP_OK rose (R206) -/
  holdupSince : Nat
  /-- TIL_STATUS.HOLDUP_READY (R206) -/
  holdupReady : Bool
  /-- TIL_STATUS.LATE_FORCED (R206) -/
  lateForced : Bool
  /-- TIL_STATUS.LOSS_ACCEPTED (R381) -/
  lossAccepted : Bool
  /-- early completions may be lost with power (R46) -/
  tillLossPossible : Bool
  /-- a flush makes order 4 due (R47) -/
  flushing : Bool
  /-- lost slots: slot, the time its scan began, its home slice (R199) -/
  lostSlots : List (Nat × Nat × Nat)
  /-- the bits of a slot's 288 bytes whose DRAM cells no longer hold what was written, by slot (R198) -/
  flips : Tab (BitVec 2304)
  /-- PUR_SBOX_ACT (R213) -/
  sboxAct : Nat
  /-- strongbox XTS key in force (R214) -/
  sboxKey : BitVec 256
  /-- strongbox data units as stored, by tweak (R213) -/
  sbox : List (Nat × Sector)
  /-- the power-down drain that runs (R210) -/
  drain : DrainMode
  /-- time it began (R533) -/
  drainSince : Nat
  /-- passbook run mark (R533) -/
  runMark : Bool
  /-- passbook drain record: duration in 100 µs and completeness (R533) -/
  pfRecord : Option (Nat × Bool)
  /-- TIL_PF_LAST (R216) -/
  pfLast : Nat × Bool
  /-- prefetch queues: slice and line (R232) -/
  prefetchQ : List (Nat × Nat)
  /-- every write credit withheld by a trip, stop or reset (R210) -/
  creditsHeld : Bool
  /-- folios whose sweep is pending (R197) -/
  swept : List Nat
  /-- times of uncorrectable slots (R484) -/
  uncorrTimes : List Nat
deriving DecidableEq, Repr, Inhabited

/-- Purse at power-on: the values of R489, R529 and the register tables, or of the log entry INVENTORY.md names. -/
def Purse.reset : Purse where
  ready := false
  selfRefresh := false
  sboxClearing := false
  slots := []
  evb := []
  wbRing := []
  exRing := []
  ageDue := false
  ageChecked := 0
  metered := false
  waitQ := []
  budget := 8388608
  budgetStaged := none
  budgetAt := 0
  holdupOk := false
  holdupSince := 0
  holdupReady := false
  lateForced := false
  lossAccepted := false
  tillLossPossible := false
  flushing := false
  lostSlots := []
  flips := []
  sboxAct := 0
  sboxKey := 0
  sbox := []
  drain := DrainMode.none
  drainSince := 0
  runMark := true
  pfRecord := none
  pfLast := (0, false)
  prefetchQ := []
  creditsHeld := false
  swept := []
  uncorrTimes := []

/-- Mint time and its discipline (R217-R222). -/
structure Timebase where
  /-- mint time (R217) -/
  mint : BitVec 64
  /-- TBS_STATUS.SET (R218) -/
  set : Bool
  /-- TBS_STATUS.SLEWING (R242) -/
  slewing : Bool
  /-- error still to slew out, ns (R217) -/
  slew : Int
  /-- ticks since the last slewed count (R217) -/
  slewTick : Nat
  /-- TBS_STATUS.PTM_LOCKED (R222) -/
  locked : Bool
  /-- consecutive dialogues within 64 ns (R222) -/
  lockRun : Nat
  /-- consecutive unanswered periods (R222) -/
  unanswered : Nat
  /-- PTM_LOST raised for this silence (R222) -/
  lostRaised : Bool
  /-- time of the last dialogue (R222) -/
  dialogueAt : Nat
  /-- a dialogue awaits its response (R222) -/
  dialogueOpen : Bool
  /-- the next exchange sets the mint time (R219) -/
  resync : Bool
  /-- a set that waits: its boundary and V (R220) -/
  pendSet : Option (Nat × BitVec 64)
  /-- TBS_CTL.SOURCE (R219) -/
  source : BitVec 2
  /-- TBS_PTM_CFG (R242) -/
  ptmCfg : BitVec 32
  /-- TBS_PTM_OFFSET in force (R242) -/
  offset : BitVec 64
  /-- TBS_PTM_OFFSET_LO as last written (R29) -/
  offsetLo : BitVec 32
  /-- TBS_SET_LO as last written (R29) -/
  setLo : BitVec 32
  /-- TBS_SET_HI as last written (R29) -/
  setHi : BitVec 32
  /-- first value of the TBS_SET pair in force (R29) -/
  setLoForce : BitVec 32
  /-- first value of the TBS_SET pair held, or in force (R29) -/
  setLoHeld : BitVec 32
  /-- TBS_PTM_ERR (R242) -/
  ptmErr : BitVec 32
  /-- mint time recorded in the passbook (R140) -/
  recorded : Option (BitVec 64)
  /-- mint time of the last record (R140) -/
  recordedAt : Nat
  /-- mint time of the last frame whose token was issued (R23) -/
  tokenFrame : Nat
  /-- mint time at power-up (R142) -/
  unsetSince : Nat
deriving DecidableEq, Repr, Inhabited

/-- Timebase at power-on: the values of R489, R529 and the register tables, or of the log entry INVENTORY.md names. -/
def Timebase.reset : Timebase where
  mint := 0
  set := false
  slewing := false
  slew := 0
  slewTick := 0
  locked := false
  lockRun := 0
  unanswered := 0
  lostRaised := false
  dialogueAt := 0
  dialogueOpen := false
  resync := false
  pendSet := none
  source := 0
  ptmCfg := 0xA
  offset := 0
  offsetLo := 0
  setLo := 0
  setHi := 0
  setLoForce := 0
  setLoHeld := 0
  ptmErr := 0
  recorded := none
  recordedAt := 0
  tokenFrame := 0
  unsetSince := 0

/-- Standing orders and quiet windows (R223-R243). -/
structure Orders where
  /-- the 1,024 entries (R223) -/
  entries : Tab SoEntry
  /-- firings whose token has been issued (R227) -/
  firings : List Firing
  /-- SO_FIRED (R243) -/
  fired : Nat
  /-- SO_LATE (R243) -/
  late : Nat
  /-- SO_STATUS.HALTED (R230) -/
  halted : Bool
  /-- mint time plus 1 a channel's quiet window began, 0 = none (R231) -/
  quiet : Tab Nat
  /-- mint time plus 1 the last window ended (R231) -/
  quietEndAt : Tab Nat
deriving DecidableEq, Repr, Inhabited

/-- Orders at power-on: the values of R489, R529 and the register tables, or of the log entry INVENTORY.md names. -/
def Orders.reset : Orders where
  entries := []
  firings := []
  fired := 0
  late := 0
  halted := false
  quiet := []
  quietEndAt := []

/-- Escrow sets (R233-R241). -/
structure Escrows where
  /-- the 64 sets (R233) -/
  sets : Tab Escrow
  /-- sets whose bit of the escrow index is flipped (R238) -/
  index : List Nat
deriving DecidableEq, Repr, Inhabited

/-- Escrows at power-on: the values of R489, R529 and the register tables, or of the log entry INVENTORY.md names. -/
def Escrows.reset : Escrows where
  sets := []
  index := []

/-- Key domains, counters and the tree (R245-R285). -/
structure Crypto where
  /-- domain keys 1 to 127 (R245) -/
  dom : Tab (Option (BitVec 256))
  /-- policy records (R246) -/
  policy : Tab Policy
  /-- package key slots (R297) -/
  pkg : Tab PkgSlot
  /-- key pages 0 to 7 (R298) -/
  pages : Tab KeyPage
  /-- VLT_DOM_OWNER0-15 (R301) -/
  domOwner : Tab (BitVec 32)
  /-- VLT_PKG_OWNER0-7 (R301) -/
  pkgOwner : Tab (BitVec 32)
  /-- VLT_CM (R301) -/
  cm : BitVec 32
  /-- counter cache (R264) -/
  cache : Tab CcSlot
  /-- counter blocks on media, unlisted = blank (R262) -/
  media : Tab CtrBlock
  /-- staging counter blocks (R271) -/
  staging : Tab CtrBlock
  /-- lost counter blocks (R265) -/
  lostBlocks : List Nat
  /-- derived-key cache: key ID, b and major (R259) -/
  derived : List (Nat × Nat × Nat)
  /-- blocks being recoined (R274) -/
  recoins : List Nat
  /-- recoinage pages 0 to 7 (R274) -/
  pagesRc : Tab RecoinPage
  /-- ICE_SEALED_CFG WINDOW and ENABLE (R276) -/
  sealedCfg : BitVec 6
  /-- tree nodes as the tree cache sees them (R277) -/
  tree : Tab TNode
  /-- tree nodes on media (R277) -/
  treeMedia : Tab TNode
  /-- the two root counters (R277) -/
  root : Tab (BitVec 56)
  /-- pending root record: counter and old value (R280) -/
  rootPend : Option (Nat × BitVec 56)
  /-- faulted nodes: level and index (R282) -/
  faults : List (Nat × Nat)
  /-- ICE_TREE_STATUS.WIDENED (R282) -/
  widened : Bool
  /-- reseal or discard running: action, level, index (R283) -/
  treeJob : Option (Nat × Nat × Nat)
  /-- ICE_DBG_MODE.MODE (R253) -/
  dbgMode : BitVec 2
  /-- DEBUG_ACCESS raised since the mode changed (R253) -/
  dbgSeen : Bool
  /-- time plus 1 a once-per-millisecond code was last raised (R249) -/
  lastRaise : Tab Nat
  /-- draws made from the on-die random source (R391) -/
  random : Nat
  /-- free values used (the model) -/
  free : Nat
deriving DecidableEq, Repr, Inhabited

/-- Crypto at power-on: the values of R489, R529 and the register tables, or of the log entry INVENTORY.md names. -/
def Crypto.reset : Crypto where
  dom := []
  policy := []
  pkg := []
  pages := []
  domOwner := []
  pkgOwner := []
  cm := 0
  cache := []
  media := []
  staging := []
  lostBlocks := []
  derived := []
  recoins := []
  pagesRc := []
  sealedCfg := 0
  tree := []
  treeMedia := []
  root := []
  rootPend := none
  faults := []
  widened := false
  treeJob := none
  dbgMode := 0
  dbgSeen := false
  lastRaise := []
  random := 0
  free := 0

/-- Mover queues and package engines (R286-R333). -/
structure Mover where
  /-- queue pairs (R305) -/
  queues : Tab (Option Queue)
  /-- mover engines 0 to 7 (R332) -/
  engines : Tab Engine
  /-- reservations, oldest first (R323) -/
  resv : List Resv
  /-- chunks in the package engines (R288) -/
  chunks : List Chunk
  /-- package engines out of service (R484) -/
  pkgOut : List Nat
  /-- package engine reinits failed in a row (R484) -/
  pkgFails : Tab Nat
  /-- answers to forwarded mover reads by sector, none = poisoned (R413) -/
  fwdData : List (Nat × Option Sector)
  /-- engines stopped at line boundaries (R210) -/
  stopped : Bool
deriving DecidableEq, Repr, Inhabited

/-- Mover at power-on: the values of R489, R529 and the register tables, or of the log entry INVENTORY.md names. -/
def Mover.reset : Mover where
  queues := []
  engines := []
  resv := []
  chunks := []
  pkgOut := []
  pkgFails := []
  fwdData := []
  stopped := false

/-- Host ports and coherence (R31-R69, R334-R364). -/
structure Front where
  /-- Port A (R363) -/
  portA : Port
  /-- Port B (R363) -/
  portB : Port
  /-- CXL.mem transactions waiting, oldest first (R63) -/
  txns : List Txn
  /-- host snoop filter (R58) -/
  sf : List SfEntry
  /-- back-invalidate snoops outstanding (R61) -/
  bis : List BiSnoop
  /-- host folios held in the ledger cache (R157) -/
  ledgerCache : List Nat
  /-- presence bits of the home slices: line and ring agent, 0 to 7 the mover engines, 8 the control processor, 9 the pair
  mirror buffer (R12) -/
  present : List (Nat × Nat)
  /-- the line that a mover engine's staging cache (0 to 7) or the control processor's L2 (8) holds (R12) -/
  staged : Tab (Option Nat)
  /-- ring snoops broadcast, and those that found nothing (R13) -/
  ringSnoops : Nat × Nat
  /-- Memory_Info_Valid (R351) -/
  memInfoValid : Bool
  /-- time the restart began (R351) -/
  restartAt : Nat
deriving DecidableEq, Repr, Inhabited

/-- Front at power-on: the values of R489, R529 and the register tables, or of the log entry INVENTORY.md names. -/
def Front.reset : Front where
  portA := Port.init
  portB := Port.init
  txns := []
  sf := []
  bis := []
  ledgerCache := []
  present := []
  staged := []
  ringSnoops := (0, 0)
  memInfoValid := false
  restartAt := 0

/-- Mailboxes, firmware, vault, lifecycle (R365-R393). -/
structure Control where
  /-- board mailbox (R374) -/
  board : Mailbox
  /-- MCTP endpoint ID (R374) -/
  eid : BitVec 8
  /-- board inbound FIFO (R373) -/
  boardFifo : List Byte
  /-- vault inbound FIFO (R373) -/
  vaultFifo : List Byte
  /-- bytes of the packet arriving, by FIFO, and its overflow mark (R373) -/
  fifoPart : Tab Nat
  /-- complete packets, by FIFO (R373) -/
  fifoPkts : Tab Nat
  /-- firmware slot 0 (R383) -/
  fw0 : FwSlot
  /-- firmware slot 1 (R383) -/
  fw1 : FwSlot
  /-- running slot (R379) -/
  fwRunning : Nat
  /-- port that owns the staged slot (R383) -/
  fwOwner : Option MbxPort
  /-- time of the last transfer (R383) -/
  fwLast : Nat
  /-- the staged image runs at the next reset (R385) -/
  fwAtReset : Bool
  /-- time an activation began (R385) -/
  fwActivating : Option Nat
  /-- mailbox that asked for it (R385) -/
  fwBy : Option MbxPort
  /-- time of the last activation (R386) -/
  fwActAt : Option Nat
  /-- versions the running image serves (R376) -/
  versions : BitVec 3
  /-- the control processors run (R371) -/
  cpuUp : Bool
  /-- lifecycle state (R390) -/
  life : Life
  /-- nonce outstanding and the time it was given (R391) -/
  nonce : Option (Nat × BitVec 256)
  /-- AUTH_FAIL responses (R391) -/
  authFails : Nat
  /-- DEBUG_LOCKOUT (R391) -/
  lockout : Bool
  /-- image digest authorised (R389) -/
  authDigest : Option (BitVec 384)
  /-- vault response waiting (VLT_IRQ_N low) (R388) -/
  vaultResp : Option (List Byte)
  /-- responses that became ready while another waits (R388) -/
  vaultNext : List (List Byte)
  /-- requests flushed since the last kept record (R388) -/
  flushed : Nat
  /-- a reset or power cycle due: time and whether a power cycle (R382) -/
  rstPend : Option (Nat × Bool)
  /-- mailboxes answer BUSY without firmware (R371) -/
  mbxBusyUntilCpu : Bool
deriving DecidableEq, Repr, Inhabited

/-- Control at power-on: the values of R489, R529 and the register tables, or of the log entry INVENTORY.md names. -/
def Control.reset : Control where
  board := Mailbox.init
  eid := 0
  boardFifo := []
  vaultFifo := []
  fifoPart := []
  fifoPkts := []
  fw0 := FwSlot.running
  fw1 := FwSlot.init
  fwRunning := 0
  fwOwner := none
  fwLast := 0
  fwAtReset := false
  fwActivating := none
  fwBy := none
  fwActAt := none
  versions := 7
  cpuUp := true
  life := Life.provisioned
  nonce := none
  authFails := 0
  lockout := false
  authDigest := none
  vaultResp := none
  vaultNext := []
  flushed := 0
  rstPend := none
  mbxBusyUntilCpu := false

/-- Correspondent pair (R394-R418). -/
structure Pair where
  /-- PAIR_STATUS.STATE (R417) -/
  state : PairState
  /-- step of bring-up (R395) -/
  step : PairStep
  /-- time a step failed (R395) -/
  stepFailedAt : Option Nat
  /-- PAIR_STATUS.VERSION (R417) -/
  v2 : Bool
  /-- TIME_LOCKED (R406) -/
  timeLocked : Bool
  /-- consecutive exchanges within the residual (R406) -/
  lockRun : Nat
  /-- LINK_READY (R410) -/
  linkReady : Bool
  /-- PAIR_POLICY of the passbook (R417) -/
  policy : BitVec 32
  /-- V2_ALLOWED as of the last bring-up (R415) -/
  v2InForce : Bool
  /-- open barrier (R404) -/
  barrier : Option Barrier
  /-- TOKEN and RESULT of the last barrier (R417) -/
  barrierDone : BitVec 18
  /-- PAIR_TIME_ERR (R406) -/
  timeErr : BitVec 32
  /-- mirror buffer, oldest first (R399) -/
  mirror : List MirrorEntry
  /-- number of the next entry (R399) -/
  mirrorNext : Nat
  /-- exact debt map (R409) -/
  debtExact : List Nat
  /-- coarse entries (R409) -/
  debtCoarse : List Nat
  /-- region bits of the passbook (R409) -/
  regions : List Nat
  /-- folios in the map whose lines were refused (R412) -/
  refusedFolios : List Nat
  /-- correspondent's folios at the last exchange (R417) -/
  debtPeer : List Nat
  /-- correspondent's folios not yet settled (R413) -/
  peerLeft : List Nat
  /-- folios settled (R415) -/
  settled : Nat
  /-- folios overwritten (R415) -/
  overwritten : Nat
  /-- losses since power-up (R415) -/
  losses : Nat
  /-- correspondent serial number (R415) -/
  peerSerial : BitVec 64
  /-- correspondent's TBS_CTL.SOURCE (R396) -/
  peerSource : BitVec 2
  /-- correspondent's lifecycle state (R396) -/
  peerLife : BitVec 8
  /-- memory-active through the whole split (R411) -/
  activeThrough : Bool
  /-- folios part-copied on this receiver (R414) -/
  partCopied : List Nat
  /-- folios being received in settlement (R414) -/
  receiving : List Nat
  /-- accesses forwarded (R413) -/
  fwds : List Fwd
  /-- number of the next forwarded access (R413) -/
  fwdNext : Nat
  /-- packets under the session key (R397) -/
  packets : Nat
  /-- session keys agreed (R397) -/
  session : Nat
  /-- consecutive tag failures (R397) -/
  tagFails : Nat
  /-- time of the last packet received (R407) -/
  lastRx : Nat
  /-- time of the last packet sent (R407) -/
  lastTx : Nat
  /-- time the lead last sent its mint time (R406) -/
  lastTime : Nat
  /-- time a refused link is held in Detect until (R397) -/
  refusedUntil : Nat
  /-- a planned split waits for the buffer (R415) -/
  splitPlanned : Bool
  /-- split by command: rejoins only by Start Settlement (R415) -/
  splitCmd : Bool
  /-- mailbox that started settlement (R415) -/
  settleBy : Option MbxPort
  /-- folio being sent in settlement and its next line (R412) -/
  settleAt : Option (Nat × Nat)
  /-- folios mirrored since settlement started (R404) -/
  mirrored : List Nat
  /-- what the answers to received packets wait for: twice the number of a mirror entry, or that of a forwarded write plus 1, and a code of Desc.waits (R400) -/
  rxLate : List (Nat × Nat)
  /-- mirror entries with a lower number were merged before phase 1 (R405) -/
  gpfUpto : Nat
  /-- the correspondent's exact entries at the last exchange (R411) -/
  peerExact : List Nat
  /-- the correspondent stayed memory-active through the split (R411) -/
  peerActive : Bool
  /-- the correspondent's authority setting (R411) -/
  peerAuth : BitVec 2
  /-- folios settled since the last SETTLE record (R412) -/
  settleRecs : Nat
deriving DecidableEq, Repr, Inhabited

/-- Pair at power-on: the values of R489, R529 and the register tables, or of the log entry INVENTORY.md names. -/
def Pair.reset : Pair where
  state := PairState.off
  step := PairStep.phy
  stepFailedAt := none
  v2 := false
  timeLocked := false
  lockRun := 0
  linkReady := false
  policy := 0x12
  v2InForce := true
  barrier := none
  barrierDone := 0
  timeErr := 0
  mirror := []
  mirrorNext := 0
  debtExact := []
  debtCoarse := []
  regions := []
  refusedFolios := []
  debtPeer := []
  peerLeft := []
  settled := 0
  overwritten := 0
  losses := 0
  peerSerial := 0
  peerSource := 0
  peerLife := 1
  activeThrough := true
  partCopied := []
  receiving := []
  fwds := []
  fwdNext := 0
  packets := 0
  session := 0
  tagFails := 0
  lastRx := 0
  lastTx := 0
  lastTime := 0
  refusedUntil := 0
  splitPlanned := false
  splitCmd := false
  settleBy := none
  settleAt := none
  mirrored := []
  rxLate := []
  gpfUpto := 0
  peerExact := []
  peerActive := true
  peerAuth := 0
  settleRecs := 0

/-- Events, daybook, audit (R419-R445). -/
structure Events where
  /-- daybook input queue, oldest first (R425) -/
  inq : List DbRec
  /-- daybook records held, oldest first (R425) -/
  ring : List DbRec
  /-- DBK_NEXT (R442) -/
  next : BitVec 32
  /-- DBK_CURSOR (R442) -/
  cursor : BitVec 32
  /-- DBK_LOST (R442) -/
  lostCnt : BitVec 32
  /-- a loss episode runs (R425) -/
  episode : Bool
  /-- DAYBOOK_LOST raised in this freeze (R428) -/
  freezeLost : Bool
  /-- DBK_STATUS.FROZEN (R428) -/
  frozen : Bool
  /-- DBK_TRIGGER.CODE (R428) -/
  trigCode : BitVec 16
  /-- DBK_TRIGGER.ARMED (R428) -/
  trigArmed : Bool
  /-- time the ring last took a record (R425) -/
  takenAt : Nat
  /-- rate-limit table in force (R430) -/
  limits : Tab RateEntry
  /-- rate-limit table from the next window (R430) -/
  limitsNext : Tab RateEntry
  /-- codes tracked in the window (R429) -/
  tracks : List RateTrack
  /-- mint time the window began (R429) -/
  window : Nat
  /-- events by group since manufacture (R431) -/
  groupCnt : Tab Nat
  /-- power-ups (R431) -/
  powerUps : Nat
  /-- power-fail drains (R431) -/
  pfDrains : Nat
  /-- power-fail drains not marked complete (R431) -/
  pfBad : Nat
  /-- summary as last written to the passbook (R431) -/
  summary : List Nat
  /-- audit counters (R432) -/
  ctrs : Tab (BitVec 48)
  /-- counters that wrapped in this window (R432) -/
  wrapped : List Nat
  /-- boundary of a requested clear (R432) -/
  clearAt : Option Nat
  /-- snapshot buffers 0 to 3 (R435) -/
  snaps : Tab Snap
  /-- SEQ of the newest snapshot (R435) -/
  snapSeq : BitVec 32
  /-- snapshots requested, in arbiter order (R434) -/
  snapReqs : List SnapReq
  /-- latched counters being copied (R434) -/
  snapCopy : Option Snap
  /-- time the copy began (R434) -/
  snapCopyAt : Nat
  /-- base of each slot (R436) -/
  sampleBase : Tab Nat
  /-- multiples already raised (R436) -/
  sampleK : Tab Nat
  /-- selection in force (R438) -/
  histAct : Tab (BitVec 32)
  /-- boundary of a selection that waits, plus 1 (R438) -/
  histAt : Tab Nat
deriving DecidableEq, Repr, Inhabited

/-- Events at power-on: the values of R489, R529 and the register tables, or of the log entry INVENTORY.md names. -/
def Events.reset : Events where
  inq := []
  ring := []
  next := 1
  cursor := 1
  lostCnt := 0
  episode := false
  freezeLost := false
  frozen := false
  trigCode := 0
  trigArmed := false
  takenAt := 0
  limits := []
  limitsNext := []
  tracks := []
  window := 0
  groupCnt := []
  powerUps := 1
  pfDrains := 0
  pfBad := 0
  summary := []
  ctrs := []
  wrapped := []
  clearAt := none
  snaps := []
  snapSeq := 0
  snapReqs := []
  snapCopy := none
  snapCopyAt := 0
  sampleBase := []
  sampleK := []
  histAct := []
  histAt := []

/-- The passbook store (R446-R461). -/
structure Passbook where
  /-- drift offsets that a signed image has replaced, keyed 32 for M2 plus the bin (R136) -/
  drift : Tab (BitVec 24)
  /-- recall runs (R452) -/
  recalling : Bool
  /-- parameters by ID (R454) -/
  params : Tab (BitVec 64)
  /-- parameters 1 to 4 as of the last power-up (R454) -/
  paramsUp : Tab (BitVec 64)
  /-- pending page writes, in order of arrival (R449) -/
  writes : List PageWrite
  /-- page write in progress (R449) -/
  writing : Option PageWrite
  /-- time it began (R449) -/
  writeAt : Nat
  /-- principal ranges, keyed by passbook address (R455) -/
  ranges : Tab Byte
  /-- BP of each range (R456) -/
  bp : Tab Nat
  /-- tally words, keyed counter times 1,024 plus word (R458) -/
  tally : Tab (BitVec 32)
  /-- tally words recall skipped (R458) -/
  tallyBad : List Nat
  /-- counters whose refusal was raised since power-up (R459) -/
  tallySat : List Nat
  /-- parameters found uncorrectable (R453) -/
  faultIds : List Nat
  /-- population record: positions expected failed, by channel (R130) -/
  population : Tab (BitVec 18)
  /-- scrub list of the passbook, by region of 4,096 host folios (R447) -/
  scrubRegions : List Nat
  /-- rebuild progress: channel, position and chunk (R133) -/
  rebuildRec : Option (Nat × Nat × Nat)
deriving DecidableEq, Repr, Inhabited

/-- Passbook at power-on: the values of R489, R529 and the register tables, or of the log entry INVENTORY.md names. -/
def Passbook.reset : Passbook where
  drift := []
  recalling := false
  params := []
  paramsUp := []
  writes := []
  writing := none
  writeAt := 0
  ranges := []
  bp := []
  tally := []
  tallyBad := []
  tallySat := []
  faultIds := []
  population := []
  scrubRegions := []
  rebuildRec := none

/-- Supervision (R462-R490). -/
structure Super where
  /-- SUP_STATUS.STATE (R462) -/
  state : SupState
  /-- HOLDUP_SEL as sampled (R501) -/
  holdupDecl : BitVec 2
  /-- PORTB_SEL as sampled (R501) -/
  portbMode : BitVec 2
  /-- SRIS_A as sampled (R501) -/
  srisA : Bool
  /-- SRIS_B as sampled (R501) -/
  srisB : Bool
  /-- rail slots 0 to 15 (R463) -/
  rails : Tab Rail
  /-- supervision parameters by ID (R471) -/
  railCfg : Tab (BitVec 64)
  /-- rail parameters as of the last power-on (R472) -/
  railInForce : Tab (BitVec 64)
  /-- PSQ_INPUT codes (R489) -/
  inputs : Tab (BitVec 12)
  /-- time of the last scan end (R464) -/
  scanAt : Nat
  /-- faults in the series (R466) -/
  seriesFaults : Nat
  /-- a series of attempts runs (R466) -/
  seriesOpen : Bool
  /-- DOWN ends in COOL and a power-on (R462) -/
  restartDue : Bool
  /-- DOWN ends in FAULT (R466) -/
  faultDue : Bool
  /-- time COOL was entered (R462) -/
  coolAt : Nat
  /-- time ON was reached (R508) -/
  onAt : Nat
  /-- core PLLs locked (R508) -/
  pllLocked : Bool
  /-- trip latch (R473) -/
  tripped : Bool
  /-- the supply is good (R473) -/
  supplyGood : Bool
  /-- PB_N debounced low (R475) -/
  pbPressed : Bool
  /-- time of the press (R475) -/
  pbAt : Nat
  /-- MR_N debounced low (R476) -/
  mrLow : Bool
  /-- FAULT_N asserted (R489) -/
  faultN : Bool
  /-- THERM_TRIP_N asserted (R489) -/
  thermTripN : Bool
  /-- critical stop running, with its start (R481) -/
  critStop : Option Nat
  /-- SUP_CAUSE.DOWN (R489) -/
  down : Nat
  /-- SUP_CAUSE.LEVEL (R489) -/
  level : Nat
  /-- SUP_CAUSE.SOURCE (R489) -/
  source : Nat
  /-- SUP_COUNTS.REINITS (R489) -/
  reinits : Nat
  /-- SUP_COUNTS.RESETS (R489) -/
  resets : Nat
  /-- SUP_COUNTS.TRIPS (R489) -/
  trips : Nat
  /-- a level 3 reset holds the device (R483) -/
  inReset : Bool
  /-- time of the last escalated level 3 reset (R485) -/
  lastEscalated : Option Nat
  /-- failures in a row, by function (R484) -/
  fnFails : Tab Nat
  /-- functions being reinitialised (R483) -/
  fnBusy : List Function
  /-- sensors 0 to 11 (R478) -/
  sensors : Tab Sensor
  /-- thermal step: 0 none, 1 warn, 2 100, 3 105, 4 110, 5 critical (R480) -/
  step : Nat
  /-- consecutive conversions of a sensor below a step's leave temperature, at most 16, keyed step times 16 plus sensor (R480) -/
  belowRun : Tab Nat
  /-- the step waits for the frame boundary (R480) -/
  stepPend : Bool
  /-- THM_HOT.SINCE_ON (R489) -/
  sinceOn : Int
  /-- THM_HOT.EVER (R489) -/
  ever : Int
  /-- minutes above 95 °C (R482) -/
  min95 : Nat
  /-- minutes above 105 °C (R482) -/
  min105 : Nat
  /-- time the last minute was counted (R482) -/
  minAt : Nat
  /-- temperature history as stored in the passbook (R482) -/
  histStored : List Int
  /-- time of the last hourly record (R482) -/
  histAt : Nat
  /-- time VDD_AON became good (R508) -/
  aonAt : Nat
  /-- VDD_AON and VIO_AON are present (R462) -/
  aonOn : Bool
  /-- rail counts as last written to the passbook (R470) -/
  cntStored : Tab RailCnt
  /-- the island is timed from the crystal (R508) -/
  rtcCrystal : Bool
deriving DecidableEq, Repr, Inhabited

/-- Super at power-on: the values of R489, R529 and the register tables, or of the log entry INVENTORY.md names. -/
def Super.reset : Super where
  state := SupState.on
  holdupDecl := 0
  portbMode := 0
  srisA := false
  srisB := false
  rails := []
  railCfg := []
  railInForce := []
  inputs := []
  scanAt := 0
  seriesFaults := 0
  seriesOpen := false
  restartDue := false
  faultDue := false
  coolAt := 0
  onAt := 0
  pllLocked := true
  tripped := false
  supplyGood := true
  pbPressed := false
  pbAt := 0
  mrLow := false
  faultN := false
  thermTripN := false
  critStop := none
  down := 0
  level := 0
  source := 0
  reinits := 0
  resets := 0
  trips := 0
  inReset := false
  lastEscalated := none
  fnFails := []
  fnBusy := []
  sensors := []
  step := 0
  belowRun := []
  stepPend := false
  sinceOn := 0
  ever := 0
  min95 := 0
  min105 := 0
  minAt := 0
  histStored := []
  histAt := 0
  aonAt := 0
  aonOn := true
  cntStored := []
  rtcCrystal := true

/-- The whole machine. -/
structure State where
  /-- Board population and straps as the pins show them (R10, R72, R192, R203, R335). -/
  board : Board
  /-- Clock islands and crossings (R16-R21). -/
  isl : Islands
  /-- Media channels, dies and lines (R70-R151). -/
  med : Media
  /-- Integrity state (R122-R152). -/
  integ : Integrity
  /-- Ledger, journal, checkpoints, migration (R154-R191). -/
  led : Ledger
  /-- Purse, till, drain, strongbox (R192-R216, R533). -/
  pur : Purse
  /-- Mint time and its discipline (R217-R222). -/
  tbs : Timebase
  /-- Standing orders and quiet windows (R223-R243). -/
  so : Orders
  /-- Escrow sets (R233-R241). -/
  esc : Escrows
  /-- Key domains, counters and the tree (R245-R285). -/
  cry : Crypto
  /-- Mover queues and package engines (R286-R333). -/
  mov : Mover
  /-- Host ports and coherence (R31-R69, R334-R364). -/
  fe : Front
  /-- Mailboxes, firmware, vault, lifecycle (R365-R393). -/
  ctl : Control
  /-- Correspondent pair (R394-R418). -/
  pair : Pair
  /-- Events, daybook, audit (R419-R445). -/
  ev : Events
  /-- The passbook store (R446-R461). -/
  pb : Passbook
  /-- Supervision (R462-R490). -/
  sup : Super
  /-- time since power-on in ns, the model's own (DESIGN CHOICE 2) -/
  clock : Nat
  /-- register words that hold a written value or an event count, by BAR0 offset, plus 2^26 for those of Port B in a per-head block; an unlisted register holds its reset value (R6) -/
  regs : Tab (BitVec 32)
  /-- what the controller has sent, newest first: the model's own record (DESIGN CHOICE 2) -/
  outbox : List Out
  /-- the commands that wait, first in first out -/
  pending : List Instr
deriving DecidableEq, Repr, Inhabited

/-- Why a step stops with a fault: no reason exists, since the spec gives every command an effect, and an answer
to every access, in every state (R3, R5, R33). Nothing raises it; safe. -/
inductive Fault where
deriving DecidableEq, Repr

/-- Why a command has no meaning. -/
inductive Refusal where
  /-- Raised by an arm of `exec` whose command has no meaning yet; no arm is left so. Safe: the machine stops. -/
  | notModelled (mnemonic : String)
deriving DecidableEq, Repr

/-- The machine at the end of power-on (R462, R489, R529), with nothing waiting. -/
def State.reset : State where
  board := Board.reset
  isl := Islands.reset
  med := Media.reset
  integ := Integrity.reset
  led := Ledger.reset
  pur := Purse.reset
  tbs := Timebase.reset
  so := Orders.reset
  esc := Escrows.reset
  cry := Crypto.reset
  mov := Mover.reset
  fe := Front.reset
  ctl := Control.reset
  pair := Pair.reset
  ev := Events.reset
  pb := Passbook.reset
  sup := Super.reset
  clock := 0
  regs := []
  outbox := []
  pending := []

/-- Update of board. -/
def State.modBoard (s : State) (f : Board → Board) : State := { s with board := f s.board }
/-- Update of isl. -/
def State.modIsl (s : State) (f : Islands → Islands) : State := { s with isl := f s.isl }
/-- Update of med. -/
def State.modMed (s : State) (f : Media → Media) : State := { s with med := f s.med }
/-- Update of integ. -/
def State.modInteg (s : State) (f : Integrity → Integrity) : State := { s with integ := f s.integ }
/-- Update of led. -/
def State.modLed (s : State) (f : Ledger → Ledger) : State := { s with led := f s.led }
/-- Update of pur. -/
def State.modPur (s : State) (f : Purse → Purse) : State := { s with pur := f s.pur }
/-- Update of tbs. -/
def State.modTbs (s : State) (f : Timebase → Timebase) : State := { s with tbs := f s.tbs }
/-- Update of so. -/
def State.modSo (s : State) (f : Orders → Orders) : State := { s with so := f s.so }
/-- Update of esc. -/
def State.modEsc (s : State) (f : Escrows → Escrows) : State := { s with esc := f s.esc }
/-- Update of cry. -/
def State.modCry (s : State) (f : Crypto → Crypto) : State := { s with cry := f s.cry }
/-- Update of mov. -/
def State.modMov (s : State) (f : Mover → Mover) : State := { s with mov := f s.mov }
/-- Update of fe. -/
def State.modFe (s : State) (f : Front → Front) : State := { s with fe := f s.fe }
/-- Update of ctl. -/
def State.modCtl (s : State) (f : Control → Control) : State := { s with ctl := f s.ctl }
/-- Update of pair. -/
def State.modPair (s : State) (f : Pair → Pair) : State := { s with pair := f s.pair }
/-- Update of ev. -/
def State.modEv (s : State) (f : Events → Events) : State := { s with ev := f s.ev }
/-- Update of pb. -/
def State.modPb (s : State) (f : Passbook → Passbook) : State := { s with pb := f s.pb }
/-- Update of sup. -/
def State.modSup (s : State) (f : Super → Super) : State := { s with sup := f s.sup }
/-- Update of clock. -/
def State.setClock (s : State) (v : Nat) : State := { s with clock := v }
/-- Update of regs. -/
def State.setRegs (s : State) (v : Tab (BitVec 32)) : State := { s with regs := v }
/-- Update of outbox. -/
def State.setOutbox (s : State) (v : List Out) : State := { s with outbox := v }
/-- Update of pending. -/
def State.setPending (s : State) (v : List Instr) : State := { s with pending := v }

end Sys2Proof.Machine
end

