-- ==== Sys2Proof/Machine/Ops.lean ====
section
/-! DEFINITION. The named operations every chapter uses: sparse tables, little-endian payloads, stored
registers with their access masks and resets (R5, R6, R25), frame boundaries (R28), free values. -/

namespace Sys2Proof.Machine

/-- The outcome of a command. -/
abbrev Res := Host.Outcome State Fault Refusal

/-- Read of a sparse table: an unlisted key reads as `d`. -/
def tget {α : Type} (d : α) : Tab α → Nat → α
  | [], _ => d
  | (k', v) :: r, k => if k = k' then v else tget d r k

/-- An entry put before the first larger key. -/
def tins {α : Type} (k : Nat) (v : α) : Tab α → Tab α
  | [] => [(k, v)]
  | (k', v') :: r => if k < k' then (k, v) :: (k', v') :: r else (k', v') :: tins k v r

/-- Write of a sparse table, which keeps its canonical form: keys rising, and no entry equal to `d`. -/
def tput {α : Type} [DecidableEq α] (d : α) (t : Tab α) (k : Nat) (v : α) : Tab α :=
  if v = d then t.filter (fun e => e.1 != k) else tins k v (t.filter fun e => e.1 != k)

/-- The canonical form of a table (see `Tab`). -/
def twf {α : Type} [DecidableEq α] (d : α) : Tab α → Bool
  | [] => true
  | [(_, v)] => decide (v ≠ d)
  | (k, v) :: (k', v') :: r => decide (v ≠ d) && decide (k < k') && twf d ((k', v') :: r)

/-- Update of one entry of a table. -/
def tmod {α : Type} [DecidableEq α] (d : α) (t : Tab α) (k : Nat) (f : α → α) : Tab α :=
  tput d t k (f (tget d t k))

/-- The n bits of v from bit lo up (R5). -/
def bits (v lo n : Nat) : Nat := v / 2 ^ lo % 2 ^ n

/-- Bit i of v (R5). -/
def bit (v i : Nat) : Bool := v / 2 ^ i % 2 = 1

/-- 1 for true (the reading of a one-bit field). -/
def b2n (b : Bool) : Nat := if b then 1 else 0

/-- Little-endian value of n bytes from offset off of a payload; bytes past the end read as zero (R5). -/
def le (bs : List Byte) (off n : Nat) : Nat :=
  ((bs.drop off).take n).foldr (fun b acc => b.toNat + 256 * acc) 0

/-- The n little-endian bytes of v (R5). -/
def toLE : Nat → Nat → List Byte
  | 0, _ => []
  | n + 1, v => BitVec.ofNat 8 v :: toLE n (v / 256)

/-- n zero bytes. -/
def zeros (n : Nat) : List Byte := List.replicate n 0

/-- Saturating addition (the counts of R6 and their widths). -/
def satAdd (mx a b : Nat) : Nat := min mx (a + b)

/-- The i-th sector of a line (R5). -/
def lineSector (l : Line) (i : Nat) : Sector := l.extractLsb' (512 * i) 512

/-- A line with its i-th sector replaced. -/
def setSector (l : Line) (i : Nat) (d : Sector) : Line :=
  (l &&& ~~~((BitVec.allOnes 512).setWidth 2048 <<< (512 * i))) ||| (d.setWidth 2048 <<< (512 * i))

/-- The mask of the enabled bytes of a partial write (R340). -/
def byteMask (en : BitVec 64) : Nat → Sector
  | 0 => 0
  | n + 1 => byteMask en n ||| (if en.getLsbD n then (0xFF : Sector) <<< (8 * n) else 0)

/-- The enabled bytes of `d` over `old` (R340). -/
def mergeBytes (old d : Sector) (en : BitVec 64) : Sector :=
  (old &&& ~~~(byteMask en 64)) ||| (d &&& byteMask en 64)

/-- The sectors of a byte list, little-endian. -/
def sectorOf (bs : List Byte) : Sector := BitVec.ofNat 512 (le bs 0 64)

/-! Clock domains: the bits of GC_ISLAND_ON (R16). -/

/-- FAB, bit 2. -/
def domFAB : Nat := 2
/-- PUR, bit 3. -/
def domPUR : Nat := 3
/-- CIP, bit 4. -/
def domCIP : Nat := 4
/-- ECC, bit 5. -/
def domECC : Nat := 5
/-- MC0, bit 6; MCn is bit 6 + n. -/
def domMC0 : Nat := 6
/-- CPU, bit 14. -/
def domCPU : Nat := 14
/-- MGT, bit 15. -/
def domMGT : Nat := 15
/-- TBS, bit 16. -/
def domTBS : Nat := 16
/-- AON, bit 17. -/
def domAON : Nat := 17

/-! Registers. -/

/-- R342: the register block at a BAR0 offset lies in a per-head window. -/
def perHead (off : Nat) : Bool :=
  (0x10000 ≤ off && off < 0x30000) || (0x34000 ≤ off && off < 0x40000) || (0x70000 ≤ off && off < 0x80000)

/-- The key under which `State.regs` holds the register at an offset seen from a head. -/
def regKey (h : Head) (off : Nat) : Nat := if perHead off && h = .b then 2 ^ 26 + off else off

/-- R342: the domain bit of the block at a BAR0 offset; FAB where no block is defined (R21). -/
def domainOf (off : Nat) : Nat :=
  if off < 0x40000 then domFAB
  else if off < 0x50000 then domMGT
  else if off < 0x60000 then domFAB
  else if off < 0x70000 then domTBS
  else if off < 0x80000 then domFAB
  else if off < 0x90000 then domPUR
  else if 0x100000 ≤ off && off < 0x120000 then domMC0 + (off - 0x100000) / 0x1000 / 4
  else if 0x200000 ≤ off && off < 0x280000 then domECC
  else if 0x300000 ≤ off && off < 0x400000 then domCIP
  else if 0x600000 ≤ off && off < 0x700000 then domAON
  else domFAB

/-- One row of the table of registers that `State.regs` holds: `count` registers from `base`, `stride`
bytes apart; the bits a write sets, the bits a write of 1 clears, and the reset value (R6). -/
structure RegRow where
  /-- BAR0 offset of the first register -/
  base : Nat
  /-- how many -/
  count : Nat
  /-- bytes from one to the next -/
  stride : Nat
  /-- RW, RWS, RWP or STG bits -/
  rw : Nat
  /-- W1C bits -/
  w1c : Nat
  /-- reset value -/
  reset : Nat
deriving DecidableEq, Repr

/-- A row covers an offset. -/
def RegRow.covers (r : RegRow) (off : Nat) : Bool :=
  r.base ≤ off && (off - r.base) % r.stride == 0 && (off - r.base) / r.stride < r.count

/-- A row of one register. -/
def reg1 (base rw w1c reset : Nat) : RegRow := ⟨base, 1, 4, rw, w1c, reset⟩

/-- The global control, mailbox and event blocks (R24, R363, R367, R376, R441). -/
def rowsFab : List RegRow :=
  [ reg1 0x00040 0 0xF 0,                                   -- GC_STATUS
    reg1 0x00050 0 0 0,                                     -- GC_TIMEOUT_INFO
    ⟨0x00100, 8, 4, 0x03FFFF3F, 0, 0x2D⟩,                   -- GC_HDM_CFG0-7
    reg1 0x00120 0 0 0,                                     -- GC_HDM_ERR
    reg1 0x20008 0x1FFFFFFF 0 0,                            -- MBX_CMD
    reg1 0x2000C 0x6 0 0,                                   -- MBX_CTL
    reg1 0x2001C 0 0x7 0,                                   -- MBX_EVT
    reg1 0x20020 0x7FF 0 0,                                 -- MBX_VECTOR
    ⟨0x30010, 10, 4, 0, 0xFFFFFFFF, 0⟩,                     -- EVT_PENDING0-9
    ⟨0x30100, 320, 4, 0xFFFF, 0, 0⟩,                        -- EVT_ROUTE0-319
    reg1 0x30600 0xFFF 0 0 ]                                -- EVT_COAL_SEL

/-- The audit block (R443), with the reset selections of AUD_HIST_CFG. -/
def rowsAudit : List RegRow :=
  [ reg1 0x50008 0x3 0 0,                                   -- AUD_SNAP_SEL
    ⟨0x50040, 16, 8, 0xFFF, 0, 0⟩,                          -- AUD_SAMPLE_CFG0-15
    ⟨0x50044, 16, 8, 0xFFFFFFFF, 0, 0⟩,                     -- AUD_SAMPLE_PERIOD0-15
    reg1 0x500C0 0x1FFF 0 0x20, reg1 0x500C4 0x1FFF 0 0x21, reg1 0x500C8 0x1FFF 0 0x22,
    reg1 0x500CC 0x1FFF 0 0x23, reg1 0x500D0 0x1FFF 0 0x24, reg1 0x500D4 0x1FFF 0 0x25,
    reg1 0x500D8 0x1FFF 0 0x28, reg1 0x500DC 0x1FFF 0 0x38, -- AUD_HIST_CFG0-7
    reg1 0x500E0 0xFFF 0 0 ]                                -- AUD_QPERM_SEL

/-- The registers of the other blocks that software writes, or that hold counts and sticky bits (R111, R112, R152,
R190, R216, R242, R243, R284, R303, R332, R417). MCH_SLOTMAP_HI, WLV_FLOOR, WLV_WEAR_LIMIT and TIL_BUDGET reset
by the board of State.reset (log entry 9). -/
def rowsBlocks : List RegRow :=
  [ ⟨0x100004, 32, 0x1000, 0, 0x700, 0⟩,                    -- MCH_STATUS
    ⟨0x100010, 32, 0x1000, 0xFFFFFFFF, 0, 0x84448444⟩,      -- MCH_SLOTMAP_LO
    ⟨0x100014, 32, 0x1000, 0xFFFFFFFF, 0, 0x84448444⟩,      -- MCH_SLOTMAP_HI
    ⟨0x100020, 32, 0x1000, 0x7, 0, 0x7⟩,                    -- MCH_SCHED
    ⟨0x100038, 32, 0x1000, 0, 0, 0⟩,                        -- MCH_CNT_A
    ⟨0x10003C, 32, 0x1000, 0, 0, 0⟩,                        -- MCH_CNT_B
    reg1 0x200000 0 0xF00 0,                                -- INT_STATUS
    reg1 0x200008 0xFFFF0001 0 0x00180001,                  -- INT_PATROL
    reg1 0x20000C 0x00FF0F1F 0 0x0040050A,                  -- INT_RESTRIKE
    reg1 0x200010 0xFFFF 0 0x4000,                          -- INT_READ_LIMIT
    reg1 0x200014 0xFFFFFF 0 0x700000,                      -- INT_AGE_LIMIT
    reg1 0x200020 0x10000 0 0,                              -- INT_REBUILD
    ⟨0x200040, 7, 4, 0, 0, 0⟩,                              -- INT_CNT_CORR to INT_CNT_TORN
    ⟨0x200060, 2, 4, 0, 0, 0⟩,                              -- INT_LAST_LO, INT_LAST_HI
    reg1 0x280000 0 0x70000 0,                              -- WLV_STATUS
    reg1 0x280008 0x1FFFFFF 0 2560,                         -- WLV_FLOOR
    reg1 0x28000C 0x7FFFF 0 400000,                         -- WLV_WEAR_LIMIT
    reg1 0x280010 0x7FFFF 0 0x400,                          -- WLV_WEAR_SPREAD
    reg1 0x80004 0 0x700 0,                                 -- PUR_STATUS
    reg1 0x80010 0x3F 0 0,                                  -- PUR_SBOX_CFG
    ⟨0x80018, 2, 4, 0, 0, 0⟩,                               -- PUR_CNT_CORR, PUR_CNT_UNCORR
    reg1 0x80100 0 0x70000 0,                               -- TIL_STATUS
    reg1 0x80104 0x7F 0 32,                                 -- TIL_BUDGET
    reg1 0x80120 0xFFFF7F 0 0x1E19,                         -- TIL_DRAIN_CFG
    reg1 0x60000 0 0x700 0,                                 -- TBS_STATUS
    reg1 0x61000 0 0xF00 0,                                 -- SO_STATUS
    reg1 0x6100C 0xFFFF00FF 0 0x00400000,                   -- SO_CFG
    reg1 0x300000 0 0x3F00 0,                               -- ICE_STATUS
    ⟨0x300040, 6, 4, 0, 0, 0⟩,                              -- ICE_CNT_HALLMARK to ICE_CNT_TREE_FAULT
    ⟨0x300060, 2, 4, 0, 0, 0⟩,                              -- ICE_LAST_LO, ICE_LAST_HI
    reg1 0x300100 0 0x300 0,                                -- ICE_PKG_STATUS
    ⟨0x300110, 4, 4, 0, 0, 0⟩,                              -- ICE_CNT_PKG_IMPORT to ICE_CNT_PKG_REFUSED
    reg1 0x400000 0 0x300 0,                                -- MOV_STATUS
    ⟨0x400040, 4, 4, 0, 0, 0⟩,                              -- MOV_CNT_DESC to MOV_CNT_SPURIOUS
    reg1 0x500000 0 0xF00 0 ]                               -- PAIR_STATUS

/-- Every register that `State.regs` holds. -/
def regRows : List RegRow := rowsFab ++ rowsAudit ++ rowsBlocks

/-- The row of a BAR0 offset. -/
def rowOf (off : Nat) : Option RegRow := regRows.find? (fun r => r.covers off)

/-- Reset value of the stored register at an offset (R6). -/
def regReset (off : Nat) : BitVec 32 :=
  match rowOf off with
  | some r => BitVec.ofNat 32 r.reset
  | none => 0

/-- A stored register word. -/
def rget (s : State) (key : Nat) : BitVec 32 := tget (regReset (key % 2 ^ 26)) s.regs key

/-- The value of a stored register. -/
def rval (s : State) (key : Nat) : Nat := (rget s key).toNat

/-- Set a stored register word. -/
def rset (s : State) (key : Nat) (v : BitVec 32) : State :=
  s.setRegs (tput (regReset (key % 2 ^ 26)) s.regs key v)

/-- Set one bit of a stored register (a W1C condition of R6). -/
def rbit (s : State) (key i : Nat) : State := rset s key (rget s key ||| (1 <<< i))

/-- Add to an event count (CNT registers of R6), saturating at 0xFFFF_FFFF. -/
def rinc (s : State) (key n : Nat) : State :=
  rset s key (BitVec.ofNat 32 (satAdd 0xFFFFFFFF (rval s key) n))

/-- What a write of `v` leaves in a stored register (R6): RW bits set, W1C bits cleared where v is 1. -/
def writeMasked (rw w1c : Nat) (old v : BitVec 32) : BitVec 32 :=
  ((old &&& ~~~(BitVec.ofNat 32 rw)) ||| (v &&& BitVec.ofNat 32 rw)) &&& ~~~(v &&& BitVec.ofNat 32 w1c)

/-- R6: every register whose domain is reset returns to its reset value: its entry is dropped. -/
def resetRegs (dom : Nat → Bool) (t : Tab (BitVec 32)) : Tab (BitVec 32) :=
  t.filter (fun e => !dom (domainOf (e.1 % 2 ^ 26)))

/-! Time. -/

/-- The mint time as a number. -/
def mintNow (s : State) : Nat := s.tbs.mint.toNat

/-- R28: the first frame boundary at least `lead` ns after now. -/
def boundaryAfter (s : State) (lead : Nat) : Nat := (mintNow s + lead + 1023) / 1024 * 1024

/-- R28: the frame boundary a command that arrives now takes effect at. -/
def nextBoundary (s : State) : Nat := boundaryAfter s 32

/-- A once-per-millisecond condition (R249, R360): key k was not raised within the last ms. -/
def msDue (s : State) (k : Nat) : Bool :=
  let t := tget 0 s.cry.lastRaise k
  t == 0 || 1000000 + (t - 1) ≤ s.clock

/-- Record that condition k was raised now. -/
def msMark (s : State) (k : Nat) : State :=
  s.modCry fun c => { c with lastRaise := tput 0 c.lastRaise k (s.clock + 1) }

/-- A free value of w bits: nothing constrains it (log entry 7). -/
def takeFree (w : Nat) (s : State) : BitVec w × State :=
  (Config.freeValue w s.cry.free, s.modCry fun c => { c with free := c.free + 1 })

/-- A draw of the on-die random source. -/
def takeRandom (s : State) : BitVec 256 × State :=
  (Config.random s.cry.random, s.modCry fun c => { c with random := c.random + 1 })

/-- Record something sent. -/
def send (o : Out) (s : State) : State := s.setOutbox (o :: s.outbox)

/-- The port of a head. -/
def portOf (s : State) : Head → Port
  | .a => s.fe.portA
  | .b => s.fe.portB

/-- Update of a port. -/
def modPort (h : Head) (f : Port → Port) (s : State) : State :=
  match h with
  | .a => s.modFe fun x => { x with portA := f x.portA }
  | .b => s.modFe fun x => { x with portB := f x.portB }

/-- R335: Port B is a second CXL head. -/
def twoHeads (s : State) : Bool := s.sup.portbMode == 1

/-- R335: Port B is a correspondent link. -/
def pairMode (s : State) : Bool := s.sup.portbMode == 2

/-- The head is there (R335). -/
def headPresent (s : State) : Head → Bool
  | .a => true
  | .b => twoHeads s

/-- A key of a head: 0 for Port A, 1 for Port B. -/
def headNo : Head → Nat
  | .a => 0
  | .b => 1

/-- Fold a state update over a list. -/
def forEach {α : Type} (xs : List α) (f : α → State → State) (s : State) : State :=
  xs.foldl (fun s x => f x s) s

end Sys2Proof.Machine
end

