-- ==== Sys2Proof/Machine/Notify.lean ====
section
/-! DEFINITION. Events: pending bits, notification, rate limits, the daybook queue (R419-R430), and the
audit counters (R432). Every chapter raises its reasons through `raise`. -/

namespace Sys2Proof.Machine

/-- R419: an event code. -/
def evCode (group src reason : Nat) : Nat := group * 4096 + src * 128 + reason

/-- R419: first flat index of a group. -/
def groupBase (g : Nat) : Nat :=
  match g with
  | 0 => 0 | 1 => 32 | 2 => 64 | 3 => 96 | 4 => 128 | 5 => 160 | 6 => 176 | 7 => 208 | 8 => 224 | 9 => 256
  | _ => 288

/-- R419: flat source index of a code. -/
def flatOf (code : Nat) : Nat := groupBase (code / 4096) + bits code 7 5

/-- What a reason carries into its daybook record (R425, R426). -/
structure Det where
  /-- FORM -/
  form : Nat
  /-- DETAIL -/
  val : Nat
  /-- the event concerns Port B -/
  headB : Bool := false
deriving DecidableEq, Repr

/-- FORM 0x0. -/
def det0 : Det := ⟨0, 0, false⟩
/-- FORM 0x1: DPA, key ID, syndrome and a value of the block. -/
def det1 (dpa key syn v : Nat) : Det :=
  ⟨1, dpa % 2 ^ 45 + (key % 128) * 2 ^ 48 + (syn % 16) * 2 ^ 56 + (v % 2 ^ 64) * 2 ^ 64, false⟩
/-- FORM 0x2: channel, die position, bank, BROW, cause or step. -/
def det2 (ch pos bank brow cause : Nat) : Det :=
  ⟨2, ch % 256 + (pos % 256) * 2 ^ 8 + (bank % 256) * 2 ^ 16 + (brow % 2 ^ 24) * 2 ^ 24 + (cause % 256) * 2 ^ 48, false⟩
/-- FORM 0x3: two values. -/
def det3 (a b : Nat) : Det := ⟨3, a % 2 ^ 64 + (b % 2 ^ 64) * 2 ^ 64, false⟩
/-- FORM 0x4: a standing order. -/
def det4 (entry tag late fire : Nat) : Det :=
  ⟨4, entry % 2 ^ 16 + (tag % 2 ^ 16) * 2 ^ 16 + (late % 2 ^ 32) * 2 ^ 32 + (fire % 2 ^ 64) * 2 ^ 64, false⟩
/-- The same detail about a given head (R425 FLAGS.HEAD). -/
def Det.on (d : Det) (h : Head) : Det := { d with headB := h == .b }

/-! Notification. -/

/-- The reset coalescing setting (R423). -/
def coal0 : Coal := { count := 1, holdUs := 0, acc := 0, first := 0 }

/-- The reset MSI-X entry: masked, as PCIe gives. -/
def vec0 : MsixVec := { addr := 0, data := 0, masked := true }

/-- R432: add n to audit counter i modulo 2^48; true when the counter wraps for the first time in the window. -/
def incRaw (i n : Nat) (s : State) : State × Bool :=
  let v := (tget 0 s.ev.ctrs i).toNat + n
  let s := s.modEv fun e => { e with ctrs := tput 0 e.ctrs i (BitVec.ofNat 48 v) }
  if 2 ^ 48 ≤ v && !s.ev.wrapped.contains i then
    (s.modEv fun e => { e with wrapped := i :: e.wrapped }, true)
  else (s, false)

/-- R422, R423: signal a vector now: an MSI-X message, or its Pending Bit when it is masked. -/
def signalVec (h : Head) (v : Nat) (s : State) : State :=
  let p := portOf s h
  let s := modPort h (fun p => { p with coal := tmod coal0 p.coal v fun c => { c with acc := 0, first := 0 } }) s
  if s.sup.tripped then s
  else if p.msixMask || (tget vec0 p.msix v).masked then
    modPort h (fun p => { p with pba := if p.pba.contains v then p.pba else v :: p.pba }) s
  else send (.msi h v) (incRaw 711 1 s).1

/-- R422, R423: one notification to a vector: accumulated, and signalled when COUNT is reached or no hold
is set (HOLD_US = 0 is a hold of no length; log entry 20). -/
def notifyVec (h : Head) (v : Nat) (s : State) : State :=
  if !headPresent s h || !(portOf s h).msixEn || s.sup.tripped then s
  else
    let c := tget coal0 (portOf s h).coal v
    let c' := { c with acc := c.acc + 1, first := if c.acc == 0 then s.clock else c.first }
    let s := modPort h (fun p => { p with coal := tput coal0 p.coal v c' }) s
    if max c.count 1 ≤ c'.acc || c.holdUs == 0 then signalVec h v s else s

/-! The daybook queue. -/

/-- R429: the limit in force for a code, none when it is unlimited by tracking. -/
def limitOf (t : Tab RateEntry) (code : Nat) : Nat :=
  match t.find? (fun e => e.2.limit.toNat != 0xFFFF &&
      ((BitVec.ofNat 16 code ^^^ e.2.code) &&& e.2.mask) == 0) with
  | some e => e.2.limit.toNat
  | none => 1024

/-- R429: what the rate limit does with a record of a code: kept, with the count it carries, or suppressed,
with true when DAYBOOK_SUPPRESS is due. -/
def rateCheck (code : Nat) (s : State) : State × Option (Nat) × Bool :=
  let c := BitVec.ofNat 16 code
  let lim := limitOf s.ev.limits code
  match s.ev.tracks.find? (fun t => t.code == c) with
  | some t =>
    if t.kept < lim then
      (s.modEv fun e => { e with tracks := e.tracks.map fun u =>
          if u.code == c then { u with kept := u.kept + 1, supp := 0 } else u },
       some (min t.supp 0xFF), false)
    else
      (s.modEv fun e => { e with tracks := e.tracks.map fun u =>
          if u.code == c then { u with supp := u.supp + 1, raised := true } else u },
       none, !t.raised)
  | none =>
    if 1024 ≤ s.ev.tracks.length then (s, some 0, false)
    else if 0 < lim then
      (s.modEv fun e => { e with tracks := e.tracks ++ [{ code := c, kept := 1, supp := 0, raised := false }] },
       some 0, false)
    else
      (s.modEv fun e => { e with tracks := e.tracks ++ [{ code := c, kept := 0, supp := 1, raised := true }] },
       none, true)

/-- R425: the record of a reason, before it takes its sequence number. -/
def dbRecord (code supp : Nat) (d : Det) (s : State) : DbRec :=
  { seq := 0, time := s.tbs.mint, code := BitVec.ofNat 16 code,
    flags := BitVec.ofNat 8 (d.form + (if s.tbs.set then 0 else 8) + (if d.headB then 16 else 0)),
    suppressed := BitVec.ofNat 8 supp, detail := BitVec.ofNat 128 d.val }

/-- R425: a record offered to the input queue; true when DAYBOOK_LOST is due. -/
def offer (r : DbRec) (s : State) : State × Bool :=
  if s.ev.inq.length < 64 then (s.modEv fun e => { e with inq := e.inq ++ [r] }, false)
  else
    let first := !s.ev.episode
    ((incRaw 710 1 (s.modEv fun e =>
        { e with lostCnt := BitVec.ofNat 32 (satAdd 0xFFFFFFFF e.lostCnt.toNat 1), episode := true })).1, first)

/-- R424: append a CXL event record to a log of a head; a full log counts the overflow. -/
def cxlAppend (h : Head) (sev code detail : Nat) (s : State) : State :=
  modPort h (fun p =>
    let log := tget [] p.logs sev
    if log.length < 256 then
      { p with logs := tput [] p.logs sev (log ++ [{ code := code, detail := BitVec.ofNat 128 detail,
                                                     handle := (log.getLast?.elim 0 (·.handle)) + 1 }]) }
    else { p with logLost := tmod 0 p.logLost sev (· + 1) }) s

/-- R431: the events of the code's group are counted. -/
def groupNote (code : Nat) (s : State) : State :=
  s.modEv fun e => { e with groupCnt := tmod 0 e.groupCnt (code / 4096) fun n => satAdd 0xFFFFFFFF n 1 }

/-- Raise a reason (R420): the pending bit and LAST_REASON, the daybook record under the rate limit, the
notification and the CXL record of the route. The reasons that raising itself gives rise to are raised
in turn, at most `fuel` deep. -/
def raiseF : Nat → Nat → Det → State → State
  | 0, _, _, s => s
  | fuel + 1, code, d, s =>
    let i := flatOf code
    let pk := 0x30010 + 4 * (i / 32)
    let was := (rget s pk).getLsbD (i % 32)
    let route := rval s (0x30100 + 4 * i)
    let s := rset (rbit s pk (i % 32)) (0x30100 + 4 * i)
      (BitVec.ofNat 32 (route % 2 ^ 25 + code % 128 * 2 ^ 25))
    let s := groupNote code s
    let (s, w1) := incRaw 707 1 s
    let (s, kept, sup) := rateCheck code s
    let (s, lost, w2) :=
      match kept with
      | some n =>
        let (s, lost) := offer (dbRecord code n d s) s
        (s, lost, false)
      | none =>
        let (s, w) := incRaw 709 1 s
        (s, false, w)
    let hd := if bit route 11 then Head.b else Head.a
    let s := if bit route 12 && !was then notifyVec hd (bits route 0 11) s else s
    let s := if bit route 13 then cxlAppend hd (bits route 14 2) code d.val s else s
    let s := if sup then raiseF fuel (evCode 0xA 0 0x04) (det3 code 0) s else s
    let s := if lost then raiseF fuel (evCode 0xA 0 0x03) det0 s else s
    if w1 || w2 then raiseF fuel (evCode 0xA 1 0x03) (det3 707 0) s else s

/-- Raise a reason of a group and source (R420). -/
def raise (group src reason : Nat) (d : Det) (s : State) : State := raiseF 4 (evCode group src reason) d s

/-- Raise a reason at most once per millisecond (R249, R360, R187). -/
def raiseMs (group src reason : Nat) (d : Det) (s : State) : State :=
  let k := evCode group src reason
  if msDue s k then raise group src reason d (msMark s k) else s

/-- R432: count an occurrence; the first wrap in a window raises COUNTER_WRAP. -/
def bump (i n : Nat) (s : State) : State :=
  let (s, w) := incRaw i n s
  if w then raise 0xA 1 0x03 (det3 i 0) s else s

end Sys2Proof.Machine
end

