-- ==== Sys2Proof/Machine/Store.lean ====
section
/-! DEFINITION. The passbook store: page writes in the order of R451, the block-protect check of R456,
parameters (R454) and tally counters (R457-R459). -/

namespace Sys2Proof.Machine

/-- R449: the byte addresses of a page write: from its first byte, wrapping within the 256-byte page. -/
def pageAddrs (addr n : Nat) : List Nat :=
  (List.range n).map fun i => addr / 256 * 256 + (addr + i) % 256

/-- R455: base of principal p's range. -/
def rangeBase (p : Nat) : Nat := 0x130000 + 0x10000 * p

/-- R456: byte offset `off` of range p is protected. -/
def bpProtects (s : State) (p off : Nat) : Bool :=
  match tget 0 s.pb.bp p with
  | 0 => false
  | 1 => 0xC000 ≤ off
  | 2 => 0x8000 ≤ off
  | _ => true

/-- R456: a page write to range p touches a protected word. -/
def bpBlocks (s : State) (p : Nat) (w : PageWrite) : Bool :=
  (pageAddrs w.addr w.data.length).any fun a => bpProtects s p (a - rangeBase p)

/-- R451: the pending page write that is taken next: the lowest class, the first to arrive. -/
def pageNext (ws : List PageWrite) : Option PageWrite :=
  ws.foldl (fun best w =>
    match best with
    | none => some w
    | some b => if w.cls < b.cls then some w else some b) none

/-- R168, R170: a record of a checkpoint; these take the three slots that other operations leave. -/
def ckptRec (r : JRec) : Bool := r.type == 0x09 || r.type == 0x0A

/-- R170: the record at the head of the queue can be appended: its operation does not wait for ring space. -/
def headReady (l : Ledger) : Bool :=
  match l.appends with
  | [] => false
  | r :: _ => ckptRec r || !l.journalFull

/-- R449, R451-R453: start the next page write or journal append when the store is free and recall does not run. Journal
appends are of order 2, and none begins after a power-fail trip or once a power-down's drain has begun (R171, R477). -/
def pageStart (s : State) : State :=
  if s.pb.writing.isSome || s.led.appending || s.pb.recalling then s
  else
    let journal := headReady s.led && !s.sup.tripped && s.pur.drain == .none
    match pageNext s.pb.writes with
    | some w =>
      if journal && 2 ≤ w.cls then s.modLed fun l => { l with appending := true }
      else s.modPb fun p => { p with writing := some w, writes := p.writes.erase w, writeAt := s.clock }
    | none => if journal then s.modLed fun l => { l with appending := true } else s

/-- Queue a page write (R449). -/
def pageQueue (cls addr : Nat) (data : List Byte) (principal : Nat) (s : State) : State :=
  pageStart (s.modPb fun p =>
    { p with writes := p.writes ++ [{ cls := cls, addr := addr, data := data, principal := principal }] })

/-- Queue a record update of the records or directories area, whose contents State holds in structured
form; the address is the area's (R447, log entry 21). -/
def recordQueue (addr : Nat) (s : State) : State := pageQueue 4 addr (zeros 4) 0 s

/-- R454: the address of a parameter's passbook copy, 8 bytes per ID from the start of the area (log
entry 21). -/
def paramAddr (id : Nat) : Nat := 8 * id

/-- Queue the passbook copy of a parameter (R454). -/
def paramQueue (id v : Nat) (s : State) : State := pageQueue 6 (paramAddr id) (toLE 8 v) 0 s

/-- R458: the value of a tally counter: the largest value in any good word. -/
def tallyVal (s : State) (c : Nat) : Nat :=
  s.pb.tally.foldl (fun m e =>
    if e.1 / 1024 == c && !s.pb.tallyBad.contains e.1 then max m e.2.toNat else m) 0

/-- R458: write a tally word. -/
def tallyWord (c half u : Nat) (s : State) : State :=
  s.modPb fun p => { p with tally := tput 0 p.tally (c * 1024 + half * 512 + u % 512) (BitVec.ofNat 32 u),
                            tallyBad := p.tallyBad.filter (· != c * 1024 + half * 512 + u % 512) }

/-- R459: an advance of counter c to u (cut at 0xFFFF_FFFF) is refused. -/
def tallyRefused (s : State) (c u : Nat) : Bool :=
  min u 0xFFFFFFFF ≤ tallyVal s c

/-- R458, R459: advance counter c to u: step 1 is queued; PAGE_WRITE_DONE puts the advance in force and
queues step 2. A refusal at a frozen counter raises TALLY_SATURATED once per power-up. -/
def tallyAdvance (c u : Nat) (s : State) : State :=
  let u := min u 0xFFFFFFFF
  if tallyRefused s c u then
    if tallyVal s c == 0xFFFFFFFF && !s.pb.tallySat.contains c then
      raise 8 3 0x03 (det3 c 0) (s.modPb fun p => { p with tallySat := c :: p.tallySat })
    else s
  else pageQueue 3 (0x110000 + 4096 * c + 4 * (u % 512)) (toLE 4 u) 0 s

/-- R455: write the bytes of a page write into the principal ranges. -/
def rangeStore (w : PageWrite) (s : State) : State :=
  let cells := (pageAddrs w.addr w.data.length).zip w.data
  s.modPb fun p => { p with ranges := cells.foldl (fun t e => tput 0 t e.1 e.2) p.ranges }

/-! Places of the records area that the model gives (R447, log entry 21). -/

/-- Population record. -/
def recPopulation : Nat := 0x010000
/-- Escrow directory. -/
def recEscrow : Nat := 0x014000
/-- Provisioning extents. -/
def recExtents : Nat := 0x018000
/-- Health summary and temperature history. -/
def recHealth : Nat := 0x01C000
/-- Mint-time record. -/
def recTime : Nat := 0x01D000
/-- Scrub list. -/
def recScrub : Nat := 0x01E000
/-- Drain-complete mark and last drain. -/
def recDrain : Nat := 0x01F000
/-- Intent page i. -/
def recIntent (i : Nat) : Nat := 0x020000 + 0x100 * i
/-- Recoinage slot p: the page of VALID; the page of the old block follows it. -/
def recRecoin (p : Nat) : Nat := 0x024000 + 0x200 * p
/-- Rebuild progress. -/
def recRebuild : Nat := 0x026000
/-- Debt-map regions. -/
def recDebt : Nat := 0x027000
/-- Root counters and the pending root record. -/
def recRoot : Nat := 0x124000
/-- Domain policy record of key ID k. -/
def recPolicy (k : Nat) : Nat := 0x120000 + 16 * k
/-- Sealed window setting. -/
def recWindow : Nat := 0x125000

end Sys2Proof.Machine
end

