-- ==== Sys2Proof/Machine/Mailbox.lean ====
section
/-! DEFINITION. How the command ports take and answer a command (R365-R375, R387-R389): the order of the
refusals, the return-code mapping, the answer's registers and interrupts, background commands, and the
vault port's response frame. The bodies of the commands are in the chapter files. -/

namespace Sys2Proof.Machine

/-- What a command body answers: its return code, its output payload and the state it leaves. -/
structure Ans where
  /-- return code of R372 or of CXL -/
  ret : Nat
  /-- output payload -/
  out : List Byte
  /-- the state after the command's effect -/
  st : State

/-- The body of a command: the arrival port, the input payload, the state. -/
abbrev Body := MbxPort → List Byte → State → Ans

/-- SUCCESS with no output. -/
def ok (s : State) : Ans := ⟨0, [], s⟩
/-- SUCCESS with an output. -/
def okOut (out : List Byte) (s : State) : Ans := ⟨0, out, s⟩
/-- A refusal with no effect. -/
def errAns (code : Nat) (s : State) : Ans := ⟨code, [], s⟩

/-- BACKGROUND_STARTED. -/
def rcStarted : Nat := 0x1
/-- INVALID_INPUT. -/
def rcInvalid : Nat := 0x2
/-- UNSUPPORTED. -/
def rcUnsupported : Nat := 0x3
/-- INTERNAL_ERROR. -/
def rcInternal : Nat := 0x4
/-- BUSY. -/
def rcBusy : Nat := 0x6
/-- MEDIA_DISABLED. -/
def rcMedia : Nat := 0x7
/-- NOT_PERMITTED. -/
def rcNotPermitted : Nat := 0x10
/-- CAPACITY. -/
def rcCapacity : Nat := 0x11
/-- VERSION. -/
def rcVersion : Nat := 0x12
/-- SIGNATURE. -/
def rcSignature : Nat := 0x13
/-- ROLLBACK. -/
def rcRollback : Nat := 0x14
/-- LIFECYCLE. -/
def rcLifecycle : Nat := 0x15

/-- The head of a host mailbox; Port A stands for the board, which has none. -/
def headOf : MbxPort → Head
  | .b => .b
  | _ => .a

/-- The number of a mailbox that `JRec.own` names. -/
def mbxNo : MbxPort → Nat
  | .a => 1
  | .b => 2
  | .board => 3

/-- A Yargen mailbox. -/
def mbxOf (s : State) : MbxPort → Mailbox
  | .a => s.fe.portA.mbx
  | .b => s.fe.portB.mbx
  | .board => s.ctl.board

/-- Update of a Yargen mailbox. -/
def modMbx (p : MbxPort) (f : Mailbox → Mailbox) (s : State) : State :=
  match p with
  | .board => s.modCtl fun c => { c with board := f c.board }
  | .a => modPort .a (fun x => { x with mbx := f x.mbx }) s
  | .b => modPort .b (fun x => { x with mbx := f x.mbx }) s

/-- R378: a row of the YCI table: opcode, whether each kind of port has the right, whether it runs in the
background, the input length (a base, plus any multiple of a step), and the version that introduced it. -/
structure YciRow where
  /-- opcode -/
  op : Nat
  /-- host mailboxes -/
  host : Bool
  /-- board mailbox -/
  board : Bool
  /-- background -/
  bg : Bool
  /-- input length -/
  len : Nat
  /-- step of the length, 0 = fixed -/
  step : Nat
  /-- 0 = 1.0, 1 = 1.1, 2 = 2.0 -/
  since : Nat
deriving DecidableEq, Repr

/-- R378: classes 0xC1 to 0xC4. -/
def yciRows1 : List YciRow :=
  [⟨0xC100, true, true, false, 0, 0, 0⟩, ⟨0xC101, true, false, true, 16, 0, 0⟩, ⟨0xC102, true, false, true, 8, 0, 0⟩,
   ⟨0xC103, true, false, true, 8, 0, 0⟩, ⟨0xC104, true, false, true, 12, 0, 0⟩, ⟨0xC105, true, false, true, 8, 0, 0⟩,
   ⟨0xC106, true, false, false, 4, 0, 0⟩, ⟨0xC107, true, false, false, 0, 0, 0⟩, ⟨0xC108, true, false, true, 4, 0, 0⟩,
   ⟨0xC109, true, false, false, 0, 0, 0⟩, ⟨0xC10A, true, true, false, 0, 0, 2⟩, ⟨0xC10B, true, false, false, 4, 0, 2⟩,
   ⟨0xC200, true, false, true, 4, 0, 0⟩, ⟨0xC201, true, false, false, 4, 0, 0⟩, ⟨0xC202, true, true, false, 4, 0, 0⟩,
   ⟨0xC300, true, false, false, 4, 0, 0⟩, ⟨0xC301, true, false, false, 0, 0, 0⟩, ⟨0xC400, true, false, false, 36, 0, 1⟩,
   ⟨0xC401, true, false, false, 4, 0, 1⟩, ⟨0xC402, true, false, false, 4, 0, 1⟩, ⟨0xC403, true, false, false, 4, 0, 1⟩,
   ⟨0xC404, true, false, true, 8, 8, 1⟩, ⟨0xC405, true, false, true, 4, 0, 1⟩, ⟨0xC406, true, false, true, 4, 0, 1⟩,
   ⟨0xC407, true, false, false, 4, 0, 1⟩]

/-- R378: classes 0xC5 to 0xCB. -/
def yciRows2 : List YciRow :=
  [⟨0xC500, true, false, false, 48, 0, 0⟩, ⟨0xC501, true, false, false, 4, 0, 0⟩, ⟨0xC502, true, false, false, 20, 0, 0⟩,
   ⟨0xC503, true, false, false, 4, 0, 0⟩, ⟨0xC504, true, false, false, 4, 0, 0⟩, ⟨0xC600, true, true, false, 0, 0, 2⟩,
   ⟨0xC601, true, false, false, 4, 0, 2⟩, ⟨0xC602, true, false, true, 0, 0, 2⟩, ⟨0xC603, true, false, false, 4, 0, 2⟩,
   ⟨0xC700, true, true, false, 4, 0, 0⟩, ⟨0xC701, true, false, false, 12, 0, 0⟩, ⟨0xC702, true, true, false, 4, 0, 0⟩,
   ⟨0xC800, true, true, false, 0, 0, 0⟩, ⟨0xC801, true, true, false, 4, 0, 0⟩, ⟨0xC802, false, true, false, 8, 0, 0⟩,
   ⟨0xC803, true, false, false, 0, 0, 0⟩, ⟨0xC804, false, true, false, 0, 0, 0⟩, ⟨0xC900, true, true, false, 8, 0, 0⟩,
   ⟨0xC901, true, true, false, 4, 0, 0⟩, ⟨0xC902, true, true, false, 0, 0, 0⟩, ⟨0xC903, true, true, false, 4, 0, 0⟩,
   ⟨0xC904, true, true, false, 8, 0, 0⟩, ⟨0xC905, true, false, false, 8, 0, 0⟩, ⟨0xCA00, true, true, false, 0, 0, 0⟩,
   ⟨0xCA01, true, true, false, 8, 1, 0⟩, ⟨0xCA02, true, true, true, 4, 0, 0⟩, ⟨0xCA03, true, true, false, 0, 0, 0⟩,
   ⟨0xCA04, true, true, false, 0, 0, 2⟩, ⟨0xCB00, true, true, false, 0, 0, 0⟩, ⟨0xCB01, true, true, false, 4, 0, 0⟩]

/-- R378: the row of an opcode. -/
def yciRow (op : Nat) : Option YciRow := (yciRows1 ++ yciRows2).find? (fun r => r.op == op)

/-- R378: the input length is the one given. -/
def YciRow.lenOk (r : YciRow) (n : Nat) : Bool :=
  if r.step == 0 then n == r.len else r.len ≤ n && (n - r.len) % r.step == 0

/-- R372: the code that a mailbox of a declared version reports. -/
def mapRc (declared rc : Nat) : Nat :=
  if declared < 2 then
    match rc with
    | 0x11 => 0x2
    | 0x14 => 0x13
    | 0x15 => 0x10
    | _ => rc
  else rc

/-- R462, R453: a command port is powered: in ON, and the management ports in recall. -/
def portPowered (board : Bool) (s : State) : Bool := s.sup.state == .on || (board && s.pb.recalling)

/-- R371: the mailbox hardware answers BUSY without firmware. R453: so does the board mailbox in recall. -/
def firmwareAway (p : MbxPort) (s : State) : Bool :=
  !s.ctl.cpuUp || s.sup.tripped || s.sup.inReset || (p == .board && s.pb.recalling)

/-- R380: commands of class 0xC1 that answer in ledger-lost mode. -/
def answersLost (op : Nat) : Bool :=
  op == 0xC100 || op == 0xC106 || op == 0xC108 || op == 0xC109 || op == 0xC10A

/-- The answer of a host mailbox: MBX_STATUS, the payload, DONE and its interrupt (R367, R368); of the board
mailbox: the response message (R374). -/
def mbxAnswer (p : MbxPort) (op rc : Nat) (out : List Byte) (s : State) : State :=
  let rc := mapRc (mbxOf s p).declared rc
  match p with
  | .board => send (.mctp (toLE 2 op ++ toLE 2 rc ++ out)) (modMbx p (fun m => { m with ret := rc, busy := none }) s)
  | _ =>
    let h := headOf p
    let s := modMbx p (fun m => { m with ret := rc, out := out, written := [], answered := s.cry.free + 1, busy := none }) s
    let s := s.modCry fun c => { c with free := c.free + 1 }
    let s := rbit s (regKey h 0x2001C) 0
    if (rget s (regKey h 0x2000C)).getLsbD 1 then notifyVec h (rval s (regKey h 0x20020) % 2048) s else s

/-- R369: a background command is accepted: it runs on the mailbox. -/
def bgStart (p : MbxPort) (op arg recs : Nat) (s : State) : Ans :=
  ⟨rcStarted, [], modMbx p (fun m => { m with bg := some { opcode := op, result := 0, recs := recs, arg := arg },
                                              bgOpcode := op, bgPercent := 0 }) s⟩

/-- What a command that does not answer at once returns from its body (R369, R331). -/
def rcNone : Nat := 0x10000

/-- The order in which a command is refused (log entry 22), and its body. -/
def yciAnswer (op : Nat) (body : Body) (p : MbxPort) (payload : List Byte) (s : State) : Ans :=
  if firmwareAway p s then errAns rcBusy s
  else
    match yciRow op with
    | none => errAns rcUnsupported s
    | some r =>
      if (mbxOf s p).declared < r.since then errAns rcVersion s
      else if !(if p == .board then r.board else r.host) then
        errAns rcNotPermitted (raise 8 0 0x03 ((det3 op (mbxNo p)).on (headOf p)) s)
      else if s.led.lost && op / 256 == 0xC1 && !answersLost op then errAns rcMedia s
      else if !r.lenOk payload.length then errAns rcInvalid s
      else if r.bg && (mbxOf s p).bg.isSome then errAns rcBusy s
      else body p payload s

/-- A YCI command on a mailbox (R365-R375). A doorbell while a command is in progress is ignored on a host
mailbox (R368) and answered BUSY on the board mailbox (R374). -/
def yciRun (op : Nat) (body : Body) (p : MbxPort) (payload : List Byte) (s : State) : State :=
  if (p == .b && !twoHeads s) || !portPowered (p == .board) s then s
  else if (mbxOf s p).busy.isSome then
    (if p == .board then send (.mctp (toLE 2 op ++ toLE 2 rcBusy)) s else s)
  else
    let s := if p == .board then s
      else rset s (regKey (headOf p) 0x20008) (BitVec.ofNat 32 (op % 65536 + payload.length % 8192 * 65536))
    let a := yciAnswer op body p payload s
    if a.ret == rcNone then a.st else mbxAnswer p op a.ret a.out a.st

/-- R369: a background command finishes: MBX_BG_RESULT, BG_DONE, its event and interrupt. -/
def bgFinish (p : MbxPort) (rc : Nat) (s : State) : State :=
  match (mbxOf s p).bg with
  | none => s
  | some b =>
    let rc := mapRc (mbxOf s p).declared rc
    let s := modMbx p (fun m => { m with bg := none, bgResult := rc, bgPercent := 100 }) s
    let s := raise 8 0 0x01 ((det3 b.opcode rc).on (headOf p)) s
    match p with
    | .board => s
    | _ =>
      let h := headOf p
      let s := rbit s (regKey h 0x2001C) 1
      if (rget s (regKey h 0x2000C)).getLsbD 2 then notifyVec h (rval s (regKey h 0x20020) % 2048) s else s

/-! The CXL mailbox of each head, and the CXL subset over MCTP (R377). -/

/-- The CXL mailbox of a port. -/
def cxlOf (s : State) : MbxPort → Mailbox
  | .a => s.fe.portA.cxl
  | .b => s.fe.portB.cxl
  | .board => s.ctl.board

/-- Update of a CXL mailbox. -/
def modCxl (p : MbxPort) (f : Mailbox → Mailbox) (s : State) : State :=
  match p with
  | .board => s.modCtl fun c => { c with board := f c.board }
  | .a => modPort .a (fun x => { x with cxl := f x.cxl }) s
  | .b => modPort .b (fun x => { x with cxl := f x.cxl }) s

/-- A CXL command: answered BUSY without firmware (R371), NOT_PERMITTED where the port has no right (R366),
INVALID_INPUT where the length is wrong, else by its body; `len` is the length and `open_` lets it be longer. -/
def cxlRun (op : Nat) (board : Bool) (len : Nat) (open_ : Bool) (body : Body) (p : MbxPort) (payload : List Byte)
    (s : State) : State :=
  if (p == .b && !twoHeads s) || !portPowered (p == .board) s then s
  else
    let a :=
      if firmwareAway p s then errAns rcBusy s
      else if p == .board && !board then errAns rcNotPermitted (raise 8 0 0x03 (det3 op 3) s)
      else if !(if open_ then len ≤ payload.length else payload.length == len) then errAns rcInvalid s
      else body p payload s
    match p with
    | .board => send (.mctp (toLE 2 op ++ toLE 2 a.ret ++ a.out)) a.st
    | _ => modCxl p (fun m => { m with ret := a.ret, out := a.out }) a.st

/-- R369 for a CXL background command. -/
def cxlBgStart (p : MbxPort) (op arg : Nat) (s : State) : Ans :=
  if (cxlOf s p).bg.isSome then errAns rcBusy s
  else ⟨rcStarted, [], modCxl p (fun m => { m with bg := some { opcode := op, result := 0, recs := 0, arg := arg },
                                                   bgOpcode := op, bgPercent := 0 }) s⟩

/-! The vault port (R387-R389). -/

/-- One step of the CRC of R387 over a bit. -/
def crc16Bit (crc : BitVec 16) (b : Bool) : BitVec 16 :=
  let top := crc.getLsbD 15 ^^ b
  (crc <<< 1) ^^^ (if top then 0x1021 else 0)

/-- The CRC of R387 over bytes in the order they are sent, each most significant bit first. -/
def crc16 (bs : List Byte) : BitVec 16 :=
  bs.foldl (fun c b => [7, 6, 5, 4, 3, 2, 1, 0].foldl (fun c i => crc16Bit c (b.getLsbD i)) c) 0xFFFF

/-- R388: a response frame. -/
def vaultFrame (op principal tag status : Nat) (out : List Byte) : List Byte :=
  let body := [(0xA5 : Byte), BitVec.ofNat 8 op, BitVec.ofNat 8 (principal % 8 + tag % 32 * 8), BitVec.ofNat 8 status]
    ++ toLE 2 out.length ++ out
  body ++ toLE 2 (crc16 body).toNat

/-- What a vault opcode answers: none while its page write runs (R388). -/
structure VAns where
  /-- STATUS -/
  status : Option Nat
  /-- output payload -/
  out : List Byte
  /-- the state after the opcode's effect -/
  st : State

/-- OK. -/
def vOk (s : State) : VAns := ⟨some 0, [], s⟩
/-- OK with an output. -/
def vOut (out : List Byte) (s : State) : VAns := ⟨some 0, out, s⟩
/-- A refusal. -/
def vErr (st : Nat) (s : State) : VAns := ⟨some st, [], s⟩

/-- R388: a response becomes ready; VLT_IRQ_N goes low. -/
def vaultRespond (op principal tag status : Nat) (out : List Byte) (s : State) : State :=
  let f := vaultFrame op principal tag status out
  s.modCtl fun c => if c.vaultResp.isSome then { c with vaultNext := c.vaultNext ++ [f] } else { c with vaultResp := some f }

/-- R388: a request that arrives while a response waits is flushed and reported, with the number flushed
since the previous kept record. -/
def vaultFlush (s : State) : State :=
  let code := evCode 8 2 0x05
  let n := s.ctl.flushed + 1
  let kept := (rateCheck code s).2.1.isSome
  raise 8 2 0x05 (det3 n 0) (s.modCtl fun c => { c with flushed := if kept then 0 else n })

/-- A vault request (R387-R389): flushed while a response waits, BUSY without firmware or in recall, else
its body. -/
def vaultRun (op : Nat) (body : Nat → List Byte → State → VAns) (principal tag : Nat) (payload : List Byte)
    (s : State) : State :=
  if !portPowered true s then s
  else if s.ctl.vaultResp.isSome then vaultFlush s
  else if s.pb.recalling || !s.ctl.cpuUp || s.sup.tripped || s.sup.inReset then vaultRespond op principal tag 0x09 [] s
  else
    let a := body (principal % 8) payload s
    match a.status with
    | none => a.st
    | some st => vaultRespond op principal tag st a.out a.st

end Sys2Proof.Machine
end

