-- ==== Sys2Proof/Machine/Events.lean ====
section
/-! DEFINITION. Events, daybook and audit: the commands of R421-R445, and the event-log commands of R424. -/

namespace Sys2Proof.Machine

/-! Pending bits and coalescing. -/

/-- EVT_PENDING_CLEAR (R421): a write of 1 to a pending bit clears it. -/
def regEvtPendingClear (_h : Head) (n : Nat) (value : BitVec 32) (s : State) : Res :=
  .next (if n < 10 then rset s (0x30010 + 4 * n) (rget s (0x30010 + 4 * n) &&& ~~~value) else s)

/-- COALESCE_HOLD_EXPIRY (R423): HOLD_US after the first notification accumulated, the vector is signalled. -/
def execCoalesceHoldExpiry (h : Head) (vector : Nat) (s : State) : Res :=
  let c := tget coal0 (portOf s h).coal vector
  .next (if 0 < c.acc && 1000 * c.holdUs + c.first ≤ s.clock then signalVec h vector s else s)

/-! The daybook. -/

/-- R425: the sequence number after n; 0 is skipped. -/
def seqAfter (n : BitVec 32) : BitVec 32 := if n + 1 == 0 then 1 else n + 1

/-- R428: freeze the daybook. -/
def daybookFreezeOp (s : State) : State :=
  if s.ev.frozen then s
  else raise 0xA 0 0x01 det0 (s.modEv fun e => { e with frozen := true, freezeLost := false })

/-- R428: thaw the daybook. -/
def daybookThawOp (s : State) : State :=
  if s.ev.frozen then raise 0xA 0 0x02 det0 (s.modEv fun e => { e with frozen := false, freezeLost := false })
  else s

/-- R428: the trigger matches a code. -/
def trigMatches (s : State) (code : BitVec 16) : Bool :=
  s.ev.trigArmed && (if s.ev.trigCode.toNat % 128 == 0 then code.toNat / 128 == s.ev.trigCode.toNat / 128
    else code == s.ev.trigCode)

/-- R428: what a written record does to the trigger: it fires, is disarmed, and the daybook freezes. A
trigger that fires while the daybook is frozen raises DAYBOOK_FROZEN (R445). -/
def trigFire (code : BitVec 16) (s : State) : State :=
  if trigMatches s code then
    let s := s.modEv fun e => { e with trigArmed := false }
    if s.ev.frozen then raise 0xA 0 0x01 det0 s else daybookFreezeOp s
  else s

/-- R425, R428: the ring takes a record: a frozen full ring keeps none and counts it lost. -/
def ringTake (r : DbRec) (s : State) : State :=
  if s.ev.frozen && 16384 ≤ s.ev.ring.length then
    let first := !s.ev.freezeLost
    let s := bump 710 1 (s.modEv fun e =>
      { e with lostCnt := BitVec.ofNat 32 (satAdd 0xFFFFFFFF e.lostCnt.toNat 1), freezeLost := true })
    if first then raise 0xA 0 0x03 det0 s else s
  else
    let s := s.modEv fun e =>
      { e with ring := (if 16384 ≤ e.ring.length then e.ring.drop 1 else e.ring) ++ [{ r with seq := e.next }],
               next := seqAfter e.next }
    trigFire r.code (bump 708 1 s)

/-- DAYBOOK_RECORD_TAKE (R425): the ring takes the oldest queued record, one every 20 ns; when the queue
empties, a loss episode ends. -/
def execDaybookRecordTake (s : State) : Res :=
  match s.ev.inq with
  | [] => .next s
  | r :: rest =>
    if s.clock < s.ev.takenAt then .next s
    else .next (ringTake r (s.modEv fun e =>
      { e with inq := rest, takenAt := s.clock + 20, episode := if rest.isEmpty then false else e.episode }))

/-- DAYBOOK_FREEZE (R428, R442): a write of 1 to DBK_CTL.FREEZE. -/
def regDaybookFreeze (_h : Head) (s : State) : Res := .next (daybookFreezeOp s)

/-- DAYBOOK_THAW (R428, R442): a write of 1 to DBK_CTL.THAW. -/
def regDaybookThaw (_h : Head) (s : State) : Res := .next (daybookThawOp s)

/-- R425: the 32 bytes of a record. -/
def dbBytes (r : DbRec) : List Byte :=
  toLE 4 r.seq.toNat ++ toLE 8 r.time.toNat ++ toLE 2 r.code.toNat ++ [r.flags, r.suppressed] ++ toLE 16 r.detail.toNat

/-- R427: the held records from a sequence number on; from the oldest when it is not held. -/
def heldFrom (ring : List DbRec) (first : Nat) : List DbRec :=
  let r := ring.dropWhile (fun r => r.seq.toNat != first)
  if r.isEmpty then ring else r

/-- R427: the body of Read Daybook. -/
def yReadDaybook : Body := fun _ b s =>
  if 128 < le b 4 2 || le b 6 2 != 0 then errAns rcInvalid s
  else okOut (((heldFrom s.ev.ring (le b 0 4)).take (le b 4 2)).flatMap dbBytes) s

/-- READ_DAYBOOK (R427). -/
def execReadDaybook (p : MbxPort) (payload : List Byte) (s : State) : Res :=
  .next (yciRun 0xC900 yReadDaybook p payload s)

/-- R428: the body of Freeze Daybook. -/
def yFreezeDaybook : Body := fun _ b s =>
  if le b 1 1 != 0 then errAns rcInvalid s
  else
    match le b 0 1 with
    | 0 => ok (daybookThawOp s)
    | 1 => ok (daybookFreezeOp s)
    | 2 => ok (s.modEv fun e => { e with trigCode := BitVec.ofNat 16 (le b 2 2), trigArmed := true })
    | 3 => ok (s.modEv fun e => { e with trigArmed := false })
    | _ => errAns rcInvalid s

/-- The payload of a command whose first byte, the action, the row fixes. -/
def withAction (a : Nat) (payload : List Byte) : List Byte := BitVec.ofNat 8 a :: payload.drop 1

/-- THAW (R428): Freeze Daybook with ACTION 0x00. -/
def execThaw (p : MbxPort) (payload : List Byte) (s : State) : Res :=
  .next (yciRun 0xC901 yFreezeDaybook p (withAction 0 payload) s)

/-- FREEZE (R428): Freeze Daybook with ACTION 0x01. -/
def execFreeze (p : MbxPort) (payload : List Byte) (s : State) : Res :=
  .next (yciRun 0xC901 yFreezeDaybook p (withAction 1 payload) s)

/-- ARM_TRIGGER (R428): Freeze Daybook with ACTION 0x02. -/
def execArmTrigger (p : MbxPort) (payload : List Byte) (s : State) : Res :=
  .next (yciRun 0xC901 yFreezeDaybook p (withAction 2 payload) s)

/-- DISARM_TRIGGER (R428): Freeze Daybook with ACTION 0x03. -/
def execDisarmTrigger (p : MbxPort) (payload : List Byte) (s : State) : Res :=
  .next (yciRun 0xC901 yFreezeDaybook p (withAction 3 payload) s)

/-! Rate limits. -/

/-- RATE_LIMIT_WINDOW (R429): at a mint time that is a multiple of 2^30 ns a window begins: counts restart,
a count of suppressed records stays for the next kept one, and table changes apply (R430). -/
def execRateLimitWindow (s : State) : Res :=
  let w := mintNow s / 2 ^ 30 * 2 ^ 30
  if w == s.ev.window then .next s
  else .next (s.modEv fun e =>
    { e with window := w, limits := e.limitsNext, wrapped := [],
             tracks := (e.tracks.filter fun t => 0 < t.supp).map fun t => { t with kept := 0, raised := false } })

/-- The rate-limit entry that is off (R430). -/
def rateOff : RateEntry := { code := 0, mask := 0, limit := 0xFFFF }

/-- R430: the body of Set Daybook Rate Limit. -/
def ySetDaybookRateLimit : Body := fun _ b s =>
  if 32 ≤ le b 0 1 || le b 1 1 != 0 then errAns rcInvalid s
  else
    let entry : RateEntry :=
      { code := BitVec.ofNat 16 (le b 2 2), mask := BitVec.ofNat 16 (le b 4 2), limit := BitVec.ofNat 16 (le b 6 2) }
    ok (s.modEv fun e => { e with limitsNext := tput rateOff e.limitsNext (le b 0 1) entry })

/-- SET_DAYBOOK_RATE_LIMIT (R430). -/
def execSetDaybookRateLimit (p : MbxPort) (payload : List Byte) (s : State) : Res :=
  .next (yciRun 0xC905 ySetDaybookRateLimit p payload s)

/-! The persistent summary. -/

/-- R431: the summary's fields as they stand. -/
def summaryNow (s : State) : List Nat :=
  (List.range 11).map (fun g => tget 0 s.ev.groupCnt g) ++
    [s.ev.powerUps, s.ev.pfDrains, s.ev.pfBad, mintNow s]

/-- R431: the summary is written to the passbook, as a page write of a class of R451. -/
def summaryWrite (cls : Nat) (s : State) : State :=
  let s := s.modSup fun u =>
    { u with histStored := [u.ever, u.min95, u.min105], histAt := s.clock, cntStored := u.rails.map fun e => (e.1, e.2.cnt) }
  pageQueue cls 0x010000 (zeros 64) 0 (s.modEv fun e => { e with summary := summaryNow s })

/-- R431: the 64 bytes of a summary. -/
def summaryBytes (xs : List Nat) : List Byte :=
  (List.range 14).flatMap (fun i => toLE 4 (xs.getD i 0)) ++ toLE 8 (xs.getD 14 0)

/-- R431: the body of Get Daybook Summary. -/
def yGetDaybookSummary : Body := fun _ _ s => okOut (summaryBytes s.ev.summary) s

/-- GET_DAYBOOK_SUMMARY (R431). -/
def execGetDaybookSummary (p : MbxPort) (payload : List Byte) (s : State) : Res :=
  .next (yciRun 0xC902 yGetDaybookSummary p payload s)

/-! Snapshots. -/

/-- R434: request a snapshot at a boundary; `who` is the requester bit of R435. -/
def snapRequest (at_ : Nat) (tag : BitVec 16) (who : Nat) (s : State) : State :=
  s.modEv fun e => { e with snapReqs := e.snapReqs ++ [{ at_ := at_, tag := tag, who := who }] }

/-- SNAP (R434, R443): a write of AUD_CTL.SNAP. -/
def regSnap (_h : Head) (tag : BitVec 16) (s : State) : Res := .next (snapRequest (nextBoundary s) tag 2 s)

/-- R434: the body of Take Audit Snapshot. -/
def yTakeAuditSnapshot : Body := fun _ b s =>
  if le b 2 2 != 0 then errAns rcInvalid s
  else ok (snapRequest (nextBoundary s) (BitVec.ofNat 16 (le b 0 2)) 1 s)

/-- TAKE_AUDIT_SNAPSHOT (R434). -/
def execTakeAuditSnapshot (p : MbxPort) (payload : List Byte) (s : State) : Res :=
  .next (yciRun 0xC903 yTakeAuditSnapshot p payload s)

/-- R434, R435: the capture at a boundary: one snapshot for every request that falls on it. -/
def capture (now : Nat) (due rest : List SnapReq) (s : State) : State :=
  match due with
  | [] => s
  | r :: others =>
    let late := (now - due.foldl (fun m q => min m q.at_) r.at_) / 1024
    let who := due.foldl (fun m q => m ||| (1 <<< q.who)) 0 ||| (if s.tbs.set then 0 else 16)
    let snap : Snap := { seq := s.ev.snapSeq + 1, time := BitVec.ofNat 64 now, tag := r.tag, who := BitVec.ofNat 8 who,
                         merged := min others.length 0xFF, reinits := s.sup.reinits, late := late, ctrs := s.ev.ctrs }
    let s := s.modEv fun e => { e with snapReqs := rest, snapCopy := some snap, snapCopyAt := s.clock }
    if 0 < late then raise 0xA 1 0x02 (det3 snap.seq.toNat late) s else s

/-- SNAPSHOT_CAPTURE (R434): at a requested boundary, when no copy is running. -/
def execSnapshotCapture (s : State) : Res :=
  if s.ev.snapCopy.isSome then .next s
  else
    let now := mintNow s / 1024 * 1024
    .next (capture now (s.ev.snapReqs.filter fun r => r.at_ ≤ now) (s.ev.snapReqs.filter fun r => !(r.at_ ≤ now)) s)

/-- An empty snapshot buffer (R435). -/
def snap0 : Snap := default

/-- SNAP_DONE (R434, R435): the copy ends in buffer (SEQ − 1) mod 4. -/
def execSnapDone (s : State) : Res :=
  match s.ev.snapCopy with
  | none => .next s
  | some c =>
    let b := (c.seq.toNat + 3) % 4
    .next (raise 0xA 1 0x01 (det3 c.seq.toNat b) (s.modEv fun e =>
      { e with snapCopy := none, snapSeq := c.seq, snaps := tput snap0 e.snaps b c }))

/-- R435: the header of a buffer. -/
def snapHeader (c : Snap) : List Byte :=
  toLE 4 c.seq.toNat ++ toLE 8 c.time.toNat ++ toLE 2 c.tag.toNat ++ [c.who, BitVec.ofNat 8 c.merged] ++
    toLE 4 c.reinits ++ toLE 4 c.late ++ zeros 8

/-- R435: the body of Read Audit Snapshot. -/
def yReadAuditSnapshot : Body := fun _ b s =>
  let buf := le b 0 1
  let first := le b 2 2
  let n := le b 4 2
  if !(buf < 4 || buf == 0xFF) || le b 1 1 != 0 || 508 < n || le b 6 2 != 0 || 1024 < first + n then errAns rcInvalid s
  else
    let c := tget snap0 s.ev.snaps (if buf == 0xFF then (s.ev.snapSeq.toNat + 3) % 4 else buf)
    okOut (snapHeader c ++ (List.range n).flatMap fun i => toLE 8 (tget 0 c.ctrs (first + i)).toNat) s

/-- READ_AUDIT_SNAPSHOT (R435). -/
def execReadAuditSnapshot (p : MbxPort) (payload : List Byte) (s : State) : Res :=
  .next (yciRun 0xC904 yReadAuditSnapshot p payload s)

/-- CLEAR (R432, R443): a write of AUD_CTL.CLEAR clears every counter at the next frame boundary. -/
def regClearCounters (_h : Head) (s : State) : Res :=
  .next (s.modEv fun e => { e with clearAt := some (boundaryAfter s 1) })

/-- COUNTERS_CLEARED (R432, R444): the clear takes effect. -/
def execCountersCleared (s : State) : Res :=
  match s.ev.clearAt with
  | some t =>
    if t ≤ mintNow s then .next (raise 0xA 1 0x04 det0 (s.modEv fun e => { e with clearAt := none, ctrs := [] }))
    else .next s
  | none => .next s

/-! Sampling. -/

/-- R436: the value of counter i. -/
def ctrVal (s : State) (i : Nat) : Nat := (tget 0 s.ev.ctrs i).toNat

/-- SAMPLE (R436): the counter has passed the next multiple of the period above its base. -/
def execSample (slot : Nat) (s : State) : Res :=
  let cfg := rval s (0x50040 + 8 * slot)
  let period := max 1 (rval s (0x50044 + 8 * slot))
  let v := ctrVal s (bits cfg 0 10)
  let k := (2 ^ 48 + v - tget 0 s.ev.sampleBase slot) % 2 ^ 48 / period
  if slot < 16 && bit cfg 10 && tget 0 s.ev.sampleK slot < k then
    let s := raise 0xA 2 0x01 (det3 slot v) (s.modEv fun e => { e with sampleK := tput 0 e.sampleK slot k })
    if bit cfg 11 then
      let (tag, s) := takeFree 16 s
      .next (snapRequest (nextBoundary s) tag 3 s)
    else .next s
  else .next s

/-- SAMPLE_CFG_WRITE (R436): a write of a slot's configuration or period makes the counter's current value
the base. -/
def regSampleCfgWrite (_h : Head) (slot : Nat) (period : Bool) (value : BitVec 32) (s : State) : Res :=
  if slot < 16 then
    let off := (if period then 0x50044 else 0x50040) + 8 * slot
    let s := rset s off (writeMasked (if period then 0xFFFFFFFF else 0xFFF) 0 (rget s off) value)
    let v := ctrVal s (bits (rval s (0x50040 + 8 * slot)) 0 10)
    .next (s.modEv fun e => { e with sampleBase := tput 0 e.sampleBase slot v, sampleK := tput 0 e.sampleK slot 0 })
  else .next s

/-! Read-latency histograms. -/

/-- R437: the bin of a latency in ns. -/
def latencyBin (ns : Nat) : Nat :=
  if ns < 800 then ns / 40
  else if ns < 2400 then 20 + (ns - 800) / 200
  else if ns < 5000 then 28
  else if ns < 20000 then 29
  else if ns < 1000000 then 30
  else 31

/-- R438: the selection in force of histogram h. -/
def histSel (s : State) (h : Nat) : Nat := (tget (regReset (0x500C0 + 4 * h)) s.ev.histAct h).toNat

/-- R438: histogram h counts a read of these classes, of requester `req` (1 Port A, 2 Port B, 3 mover) and key. -/
def histCounts (sel : Nat) (classes : List Nat) (req key : Nat) : Bool :=
  classes.contains (bits sel 0 3) &&
  (match bits sel 3 2 with
   | 0 => req != 3
   | r => r == req) &&
  (bit sel 5 || bits sel 6 7 == key)

/-- R437, R438: count a read that completes after `ns`. -/
def histRead (ns : Nat) (classes : List Nat) (req key : Nat) (s : State) : State :=
  forEach (List.range 8) (fun h s =>
    if histCounts (histSel s h) classes req key then bump (768 + 32 * h + latencyBin ns) 1 s else s) s

/-- HIST_CFG_WRITE (R438): the new selection waits for the next frame boundary. -/
def regHistCfgWrite (_h : Head) (hist : Nat) (value : BitVec 32) (s : State) : Res :=
  if hist < 8 then
    let off := 0x500C0 + 4 * hist
    let s := rset s off (writeMasked 0x1FFF 0 (rget s off) value)
    .next (s.modEv fun e => { e with histAt := tput 0 e.histAt hist (boundaryAfter s 1 + 1) })
  else .next s

/-- HISTOGRAM_RESTART (R438): at that boundary the bins clear and the selection applies. -/
def execHistogramRestart (hist : Nat) (s : State) : Res :=
  let t := tget 0 s.ev.histAt hist
  if t != 0 && t - 1 ≤ mintNow s then
    .next (s.modEv fun e =>
      { e with histAt := tput 0 e.histAt hist 0,
               histAct := tput (regReset (0x500C0 + 4 * hist)) e.histAct hist (rget s (0x500C0 + 4 * hist)),
               ctrs := e.ctrs.filter fun c => !(768 + 32 * hist ≤ c.1 && c.1 < 800 + 32 * hist) })
  else .next s

/-! CXL event logs (R424). The record layout is CXL's; fields the spec does not give are free (log entry 24). -/

/-- One 128-byte record: the vendor-specific area at 48 holds the event code and the DETAIL; a media or DRAM record (R128, R199)
holds the DPA there, and the syndrome in its vendor-specific area. -/
def cxlRecBytes (fill : BitVec 1024) (r : CxlRec) : List Byte :=
  let b := toLE 128 fill.toNat
  let head := b.take 20 ++ toLE 2 r.handle ++ (b.drop 22).take 26
  if r.code < 2 ^ 24 then head ++ toLE 4 r.code ++ toLE 16 r.detail.toNat ++ b.drop 68
  else head ++ toLE 8 (if 2 ^ 50 ≤ r.code then r.code - 2 ^ 50 else r.code - 2 ^ 24) ++ toLE 16 r.detail.toNat ++ b.drop 72

/-- R424: the body of Get Event Records: [0] log; out: flags, overflow count, record count and records. -/
def yGetEventRecords : Body := fun p b s =>
  let h := headOf p
  let log := le b 0 1
  if 3 < log then errAns rcInvalid s
  else
    let recs := tget [] (portOf s h).logs log
    let lost := tget 0 (portOf s h).logLost log
    let (fill, s) := takeFree 1024 s
    okOut ([BitVec.ofNat 8 (b2n (0 < lost) + 2 * b2n (31 < recs.length)), 0] ++ toLE 2 (min lost 0xFFFF) ++ zeros 16 ++
      toLE 2 (min recs.length 31) ++ zeros 10 ++ (recs.take 31).flatMap (cxlRecBytes fill)) s

/-- GET_EVENT_RECORDS (R424, R377). -/
def execGetEventRecords (p : MbxPort) (payload : List Byte) (s : State) : Res :=
  .next (cxlRun 0x0100 true 1 false yGetEventRecords p payload s)

/-- R424: the handles that a Clear Event Records payload names. -/
def clearHandles (b : List Byte) : List Nat := (List.range (le b 2 1)).map fun i => le b (6 + 2 * i) 2

/-- R424, R26: the body of Clear Event Records: [0] log, [1] bit 0 clear all, [2] count, [5:3] reserved, handles from [6]. -/
def yClearEventRecords : Body := fun p b s =>
  let h := headOf p
  let log := le b 0 1
  if 3 < log || 2 ≤ le b 1 1 || le b 3 3 != 0 then errAns rcInvalid s
  else
    let keep (r : CxlRec) : Bool := !(bit (le b 1 1) 0 || (clearHandles b).contains r.handle)
    ok (modPort h (fun x => { x with logs := tmod [] x.logs log (fun l => l.filter keep),
                                     logLost := tput 0 x.logLost log 0 }) s)

/-- CLEAR_EVENT_RECORDS (R424, R377). -/
def execClearEventRecords (p : MbxPort) (payload : List Byte) (s : State) : Res :=
  .next (cxlRun 0x0101 true 6 true yClearEventRecords p payload s)

end Sys2Proof.Machine
end

