-- ==== Sys2Proof/Machine/Ledger.lean ====
section
/-! DEFINITION. Ledger entries, media folio accounting, the journal queue, and the operations of R154-R191
that other chapters use. -/

namespace Sys2Proof.Machine

/-- MEDIA_FOLIO of an entry that names none (R154). -/
def noFolio : Nat := 0x1FFFFFF

/-- An unprovisioned entry (R154, R155). -/
def entry0 : LEntry := { (default : LEntry) with media := noFolio }

/-- The ledger entry of a host folio. -/
def ent (s : State) (f : Nat) : LEntry := tget entry0 s.led.entries f

/-- Update of a ledger entry. -/
def modEnt (f : Nat) (g : LEntry → LEntry) (s : State) : State :=
  s.modLed fun l => { l with entries := tmod entry0 l.entries f g }

/-- R154 STATE code. -/
def stateCode : FolioState → Nat
  | .unprovisioned => 0 | .live => 1 | .blankMapped => 2 | .escrow => 3 | .readOnly => 4

/-- The state of a STATE code. -/
def stateOf : Nat → FolioState
  | 1 => .live | 2 => .blankMapped | 3 => .escrow | 4 => .readOnly | _ => .unprovisioned

/-- R154 bits [36:32] of an entry: CLASS, WRITE_POLICY, ALLOC_POLICY, ACK_POLICY, SEALED. -/
def attrBits (e : LEntry) : Nat :=
  b2n e.bullion + 2 * b2n e.through + 4 * b2n e.noAlloc + 8 * b2n e.late + 16 * b2n e.sealed_

/-- An entry with the attributes of bits [36:32]. -/
def withAttrBits (e : LEntry) (a : Nat) : LEntry :=
  { e with bullion := bit a 0, through := bit a 1, noAlloc := bit a 2, late := bit a 3, sealed_ := bit a 4 }

/-- R154: the 16 bytes of an entry. -/
def entryBytes (e : LEntry) : List Byte :=
  toLE 16 (e.media % 2 ^ 25 + e.key % 128 * 2 ^ 25 + attrBits e * 2 ^ 32 + stateCode e.state * 2 ^ 37 +
    e.gen.toNat * 2 ^ 40 + e.stamp.toNat * 2 ^ 64 + min e.reads 0xFFFF * 2 ^ 88)

/-- R154: a provisioned folio. -/
def provisioned (e : LEntry) : Bool := e.state != .unprovisioned

/-! Population (R10, R72, R162). -/

/-- R10: physical channel of logical channel k. -/
def physCh (s : State) (k : Nat) : Nat := k * (32 / s.board.channels)

/-- R10: the populated physical channels, lowest first. -/
def popChans (s : State) : List Nat := (List.range s.board.channels).map (physCh s)

/-- R162: every populated channel has M2 dies. -/
def allM2 (s : State) : Bool := (popChans s).all fun c => s.board.m2.getLsbD c

/-- R162: the number N of media folios. -/
def mediaN (s : State) : Nat := s.board.channels * s.board.dieCount * (if allM2 s then 80 else 40) * 512

/-- R161: the DRAM footprint. -/
def footprint (s : State) : Nat := s.board.folios * 16 + mediaN s * 8

/-! Directories and kinds (R160-R165). -/

/-- The number of folios in a directory. -/
def runLen (r : List (Nat × Nat)) : Nat := r.foldl (fun n x => n + x.2) 0

/-- A media folio is in a directory. -/
def runHas (r : List (Nat × Nat)) (m : Nat) : Bool := r.any fun x => x.1 ≤ m && m < x.1 + x.2

/-- The i-th media folio of a directory. -/
def runAt : List (Nat × Nat) → Nat → Nat
  | [], _ => noFolio
  | (b, n) :: r, i => if i < n then b + i else runAt r (i - n)

/-- The place of a media folio in a directory. -/
def runIndex : List (Nat × Nat) → Nat → Nat
  | [], _ => 0
  | (b, n) :: r, m => if b ≤ m && m < b + n then m - b else n + runIndex r m

/-- A directory with its i-th folio replaced. -/
def runSet : List (Nat × Nat) → Nat → Nat → List (Nat × Nat)
  | [], _, _ => []
  | (b, n) :: r, i, m =>
    if i < n then
      ([(b, i), (m, 1), (b + i + 1, n - i - 1)].filter fun x => 0 < x.2) ++ r
    else (b, n) :: runSet r (i - n) m

/-- A directory folio (R164, R276): the checkpoint, spill and shelf directories and the tree folios. -/
def inDirs (s : State) (m : Nat) : Bool :=
  runHas s.led.ckptDir m || runHas s.led.spillDir m || runHas s.led.shelfDir m || s.led.treeDir.contains m

/-- R160: the OWNER of the i-th checkpoint folio: its copy in bit 23, and its index within the copy. -/
def ckptOwner (s : State) (i : Nat) : Nat :=
  let half := runLen s.led.ckptDir / 2
  if i < half then i else 2 ^ 23 + (i - half)

/-- R160: the reverse-map entry of a media folio; a directory folio's names its place in the directory. -/
def revOf (s : State) (m : Nat) : Rev :=
  if runHas s.led.ckptDir m then { kind := 6, owner := ckptOwner s (runIndex s.led.ckptDir m) }
  else if runHas s.led.spillDir m then { kind := 7, owner := runIndex s.led.spillDir m }
  else if runHas s.led.shelfDir m then { kind := 5, owner := runIndex s.led.shelfDir m }
  else if s.led.treeDir.contains m then { kind := 5, owner := runLen s.led.shelfDir + s.led.treeDir.idxOf m }
  else tget default s.led.rev m

/-- R160, R162: the KIND of a media folio; exactly one at every moment. -/
def kindOf (s : State) (m : Nat) : Nat := (revOf s m).kind

/-- Set the KIND and OWNER of a media folio. -/
def setRev (m kind owner : Nat) (s : State) : State :=
  s.modLed fun l => { l with rev := tput default l.rev m { kind := kind, owner := owner } }

/-- The WEAR above which the wear table counts that of a media folio. -/
def wearFrom (base : Nat) (low : List (Nat × Nat)) (m : Nat) : Nat := if runHas low m then base - 1 else base

/-- The wear-table entry of a media folio (R158): the table holds WEAR above the base that every folio has. -/
def wearOf (s : State) (m : Nat) : Wear :=
  let w := tget default s.led.wear m
  { w with wear := satAdd 0x7FFFF (wearFrom s.led.wearBase s.led.wearLow m) w.wear }

/-- Set the wear-table entry of a media folio. -/
def setWear (m : Nat) (w : Wear) (s : State) : State :=
  s.modLed fun l => { l with wear := tput default l.wear m { w with wear := w.wear - wearFrom l.wearBase l.wearLow m } }

/-- Media folios that pending ALLOC records name: they stay in the reserve until their records complete (R169). -/
def pendingAllocs (s : State) : List Nat :=
  (s.led.appends.filter fun r => r.type == 0x01).map (·.a)

/-- R162: a media folio is in the reserve and no pending ALLOC names it. -/
def isFree (s : State) (m : Nat) : Bool :=
  m < mediaN s && !inDirs s m && (revOf s m).kind == 0 && !(pendingAllocs s).contains m

/-- R162: the reserve count: the folios of KIND 0x0. -/
def reserveCount (s : State) : Nat :=
  mediaN s - (runLen s.led.ckptDir + runLen s.led.spillDir + runLen s.led.shelfDir + s.led.treeDir.length +
    (s.led.rev.filter fun e => e.2.kind != 0 && !inDirs s e.1).length)

/-- R165: the reserve that is left to allocate: no folio is given out twice while its ALLOC record waits. -/
def reserveLeft (s : State) : Nat := reserveCount s - ((pendingAllocs s).filter fun m => !inDirs s m).length

/-- R160: written-off media folios. -/
def writtenOff (s : State) : Nat := (s.led.rev.filter fun e => e.2.kind == 8).length

/-- R166: the floor F; values below 64 act as 64. -/
def floorF (s : State) : Nat := max 64 (rval s 0x280008 % 2 ^ 25)

/-- R190: the lowest endurance rating of the populated generations. -/
def wearRating (s : State) : Nat := if allM2 s then 400000 else 300000

/-- R190: the wear limit; values above the rating act as it. -/
def wearLimit (s : State) : Nat := min (wearRating s) (rval s 0x28000C % 2 ^ 19)

/-- R180: the wear-levelling spread. -/
def wearSpread (s : State) : Nat := rval s 0x280010 % 2 ^ 19

/-- R531: folios still reserved for escrow sets. -/
def escReserved (s : State) : Nat := s.esc.sets.foldl (fun n e => n + e.2.reserved) 0

/-- The media folios where the lowest unlisted number can lie: 0, and after each listed folio. -/
def freeCandidates (s : State) : List Nat :=
  0 :: ((s.led.ckptDir ++ s.led.spillDir ++ s.led.shelfDir).map (fun r => r.1 + r.2) ++
    s.led.treeDir.map (· + 1) ++ s.led.rev.map (fun e => e.1 + 1) ++ s.led.wear.map (fun e => e.1 + 1) ++
    s.led.wear.map (·.1) ++ s.led.wearLow.flatMap (fun r => [r.1, r.1 + r.2]) ++ (pendingAllocs s).map (· + 1))

/-- The better of two folios by R165: the lower WEAR, then the lower number. -/
def lessWorn (s : State) (a b : Nat) : Bool :=
  (wearOf s a).wear < (wearOf s b).wear || ((wearOf s a).wear == (wearOf s b).wear && a < b)

/-- R165: the folio to allocate: the lowest WEAR in the reserve, the lowest number among equals. -/
def allocPick (s : State) : Option Nat :=
  ((freeCandidates s).filter (isFree s)).foldl (fun best m =>
    match best with
    | none => some m
    | some b => if lessWorn s m b then some m else some b) none

/-- R165, R531: the reserve a purpose may take it down to: 0, or F and the folios reserved for sets. -/
def allocLimit (s : State) (toFloor : Bool) : Nat := if toFloor then floorF s + escReserved s else 0

/-- R165: allocate for a purpose, or none at the limit. -/
def allocFor (toFloor : Bool) (s : State) : Option Nat :=
  if reserveLeft s ≤ allocLimit s toFloor then none else allocPick s

/-- R166, R191: the reserve reasons, given the count before. -/
def reserveEvents (before : Nat) (s : State) : State :=
  let now := reserveCount s
  let f := floorF s
  let s := if f < before && now ≤ f then raise 5 1 0x01 (det3 now f) s else s
  let s := if 0 < before && now == 0 then raise 5 1 0x02 (det3 0 f) s else s
  if before ≤ f && f < now then raise 5 1 0x03 (det3 now f) s else s

/-- R163: provisioned host folios. -/
def provisionedCount (s : State) : Nat := (s.led.entries.filter fun e => provisioned e.2).length

/-- R163: host folios whose provisioning has been accepted and whose ATTR record waits. -/
def provisionPending (s : State) : Nat :=
  ((s.led.appends.filter fun r => r.type == 0x04 && r.c / 32 != 0 && !provisioned (ent s r.a)).map (·.a)).dedup.length

/-- R163: folios still provisionable; those whose provisioning is under way are counted. -/
def provisionable (s : State) : Nat :=
  mediaN s - writtenOff s - (runLen s.led.shelfDir + runLen s.led.spillDir + runLen s.led.ckptDir + floorF s) -
    (provisionedCount s + provisionPending s) - s.led.treeDir.length

/-! The journal (R167-R171). -/

/-- R167: CRC-32C of a byte string. -/
def crc32c (bs : List Byte) : Nat :=
  (bs.foldl (fun c b => (List.range 8).foldl (fun c _ => if c % 2 == 1 then c / 2 ^^^ 0x82F63B78 else c / 2)
    (c ^^^ b.toNat)) 0xFFFFFFFF) ^^^ 0xFFFFFFFF

/-- R168: the 20 payload bytes of a record. -/
def recPayload (r : JRec) : List Byte :=
  let p : List Byte := match r.type with
    | 0x01 => toLE 4 r.a ++ toLE 1 r.b ++ toLE 3 r.c ++ toLE 4 r.d
    | 0x02 => toLE 3 r.a ++ toLE 1 r.e ++ toLE 4 r.b ++ toLE 4 r.c ++ toLE 3 r.d ++ toLE 1 (r.e / 256)
    | 0x03 => toLE 4 r.a ++ toLE 4 r.b
    | 0x04 => toLE 3 r.a ++ toLE 1 r.b ++ toLE 1 r.c ++ toLE 3 r.d
    | 0x05 => toLE 4 r.a ++ toLE 1 r.b ++ toLE 4 r.c
    | 0x06 => toLE 2 r.a ++ toLE 4 r.b ++ toLE 8 r.e
    | 0x07 => toLE 2 r.a ++ toLE 3 r.e ++ toLE 4 r.c ++ toLE 4 r.b ++ toLE 3 r.d
    | 0x08 => toLE 2 r.a ++ toLE 4 r.b
    | 0x09 => toLE 4 r.a
    | 0x0A => (match r.part with
      | 0 => toLE 4 r.a ++ toLE 16 r.digest.toNat
      | 1 => toLE 20 (r.digest.toNat / 2 ^ 128)
      | _ => toLE 12 (r.digest.toNat / 2 ^ 288))
    | 0x0B => toLE 4 r.a ++ toLE 4 r.b ++ toLE 1 r.c
    | _ => []
  (p ++ List.replicate 20 0).take 20

/-- R167: the 32 bytes of a record as the passbook holds it; the CRC of a torn record fails. -/
def recBytes (r : JRec) : List Byte :=
  let b := toLE 4 r.seq.toNat ++ toLE 1 r.type ++ toLE 1 r.part ++ [0, 0] ++ recPayload r
  b ++ toLE 4 (if r.torn then crc32c b ^^^ 1 else crc32c b)

/-- R169: the record's CRC holds. -/
def recCrcOk (r : JRec) : Bool := crc32c ((recBytes r).take 28) == le (recBytes r) 28 4

/-- R169: the records up to the first that is torn, or that breaks the sequence. -/
def journalGood : List JRec → List JRec
  | [] => []
  | [r] => if r.torn then [] else [r]
  | r :: x :: rest => if r.torn then [] else if x.seq == r.seq + 1 then r :: journalGood (x :: rest) else [r]

/-- R154-R156, R169, R238: a record as its append states it: the entry's generation, media folio and state at that moment, where the
record is of a change that leaves them, or that counts from them. An entry without a media folio is not made live or read-only. -/
def recNow (s : State) (r : JRec) : JRec :=
  let e := ent s r.a
  match r.type with
  | 0x02 =>
    if r.e % 256 == 1 then r
    else
      let st := if r.c != noFolio && e.state == .escrow then FolioState.escrow else stateOf (r.e / 256 % 256)
      { r with b := e.media, d := (e.gen + 1).toNat, e := r.e - r.e / 256 % 256 * 256 + 256 * stateCode st }
  | 0x04 =>
    let st := stateOf (r.c / 32)
    let st :=
      if e.media == noFolio then (if st == .live || st == .readOnly then .blankMapped else st)
      else if st == .blankMapped then .live else st
    { r with c := r.c % 32 + 32 * stateCode st, d := e.gen.toNat }
  | 0x07 => { r with b := (ent s r.e).media, d := ((ent s r.e).gen + 1).toNat }
  | _ => r

/-- A record to append; SEQ is given when its append completes. -/
def jrec (type a b c d e : Nat) : JRec := { seq := 0, type := type, part := 0, a := a, b := b, c := c, d := d, e := e, own := 0 }

/-- R168 ALLOC. -/
def jAlloc (m kind owner wear : Nat) : JRec := jrec 0x01 m kind owner wear 0
/-- R168 REMAP: e holds the target and the new STATE. -/
def jRemap (f target old new gen : Nat) (st : FolioState) : JRec :=
  jrec 0x02 f old new gen (target + 256 * stateCode st)
/-- R168 BLANKED. -/
def jBlanked (m wear : Nat) : JRec := jrec 0x03 m wear 0 0 0
/-- R168 ATTR: b the key ID, c the bits [36:32] and STATE, d the generation. -/
def jAttr (f key attr : Nat) (st : FolioState) (gen : Nat) : JRec := jrec 0x04 f key (attr % 32 + 32 * stateCode st) gen 0
/-- R168 RETIRE. -/
def jRetire (m reason wear : Nat) : JRec := jrec 0x05 m reason wear 0 0

/-- R170, R238: the records of the operation at the head of the queue: a release with its items and its commit, an ALLOC
with the REMAP that names its folio, or the record alone. -/
def recNeed : List JRec → Nat
  | [] => 0
  | r :: rest =>
    if r.type == 0x06 then r.b + 2
    else if r.type == 0x01 && rest.head?.any (fun x => x.type == 0x02 && x.c == r.a) then 2
    else 1

/-- R170: the ring has room for the next operation: it needs k + 3 free slots; the records of a checkpoint take the three. -/
def ringRoom (s : State) : Bool :=
  let q := s.led.appends.dropWhile ckptRec
  q.isEmpty || s.led.ring.length + recNeed q + 3 ≤ 65536

/-- R170: the queue of records: those of a checkpoint go ahead of an operation that waits for ring space. -/
def ringOrder (s : State) : List JRec :=
  if ringRoom s || s.led.appending then s.led.appends
  else s.led.appends.filter ckptRec ++ s.led.appends.filter fun r => !ckptRec r

/-- R170: record whether an operation waits for ring space; JOURNAL_FULL when it starts to. -/
def ringCheck (s : State) : State :=
  if ringRoom s then s.modLed fun l => { l with journalFull := false }
  else if s.led.journalFull then s
  else raise 5 0 0x04 (det3 s.led.ring.length 0) (s.modLed fun l => { l with journalFull := true })

/-- R169: queue records for their appends, in order. -/
def jAppend (rs : List JRec) (s : State) : State :=
  pageStart (ringCheck (s.modLed fun l => { l with appends := l.appends ++ rs }))

/-- R170: the queue put in order, and its next record started. -/
def ringNext (s : State) : State := pageStart (ringCheck (s.modLed fun l => { l with appends := ringOrder s }))

/-- R169, R170: queue records of a checkpoint. -/
def ckptAppend (rs : List JRec) (s : State) : State := ringNext (s.modLed fun l => { l with appends := l.appends ++ rs })

/-- R165: take a media folio: its ALLOC is queued. -/
def takeFolio (m kind owner : Nat) (s : State) : State := jAppend [jAlloc m kind owner (wearOf s m).wear] s

/-! Wear (R158, R180). -/

/-- R180: a folio already migrates or waits to. -/
def migrating (s : State) (f : Nat) : Bool := s.led.migs.any fun g => g.folio == f

/-- R180: the migrations that run: those of host folios, and those of counter-shelf folios. -/
def migRunning (s : State) : Nat :=
  (s.led.migs.filter fun g => g.phase != .queued).length + (s.led.appends.filter fun r => r.type == 0x02 && r.e % 256 == 1).length

/-- R180: queue a migration of a host folio; one that is queued takes the higher of the two priorities, with its end, and keeps a
class change that was asked for. -/
def queueMig (f prio retire : Nat) (bullion : Bool) (s : State) : State :=
  if migrating s f then
    s.modLed fun l =>
      { l with migs := l.migs.map fun g =>
          if g.folio == f && g.phase == .queued && prio < g.prio then { g with prio := prio, retire := retire } else g }
  else s.modLed fun l =>
    { l with migs := l.migs ++ [{ folio := f, prio := prio, retire := retire, bullion := bullion, src := noFolio,
                                  dst := noFolio, phase := .queued, pass := 0, marked := [], todo := [], own := 0 }] }

/-- R188: the highest WEAR of any folio not written off. -/
def wearMax (s : State) : Nat :=
  s.led.wear.foldl (fun m e => if kindOf s e.1 == 8 then m else max m (wearOf s e.1).wear) s.led.wearBase

/-- R190: the lowest WEAR in the reserve. -/
def wearMinRes (s : State) : Nat :=
  match allocPick s with
  | some m => (wearOf s m).wear
  | none => 0

/-- R189: mean WEAR, rounded down. -/
def wearMean (s : State) : Nat :=
  let n := mediaN s - writtenOff s
  (s.led.wearBase * n + s.led.wear.foldl (fun m e => if kindOf s e.1 == 8 then m else m + e.2.wear) 0 - runLen s.led.wearLow) / max 1 n

/-- R186: ATTR to read-only of a host folio. -/
def jReadOnly (s : State) (f : Nat) : JRec :=
  let e := ent s f
  jAttr f e.key (attrBits e) .readOnly e.gen.toNat

/-- R164, R180, R186: a counter-shelf folio moves to the folio that the reserve gives, as one of the migrations that run: its ALLOC
names KIND 0x3 and the shelf index, and its REMAP the shelf. The counter blocks go with it. At reserve 0 it stays. -/
def shelfMove (toFloor : Bool) (m : Nat) (s : State) : State :=
  let i := runIndex s.led.shelfDir m
  if !runHas s.led.shelfDir m || 16 ≤ migRunning s || s.led.appends.any (fun r => r.type == 0x02 && r.e % 256 == 1 && r.a == i) then s
  else
    match allocFor toFloor s with
    | none => if reserveLeft s == 0 then raise 5 1 0x02 (det3 0 (floorF s)) s else s
    | some n => jAppend [jRemap i 1 m n 0 .unprovisioned] (takeFolio n 3 i s)

/-- R191: the highest WEAR, which was `before`, reached 90 % of the limit. -/
def wearNear (before : Nat) (s : State) : State :=
  if before * 10 < wearLimit s * 9 && wearLimit s * 9 ≤ wearMax s * 10 then raise 5 2 0x01 (det3 (wearMax s) (wearLimit s)) s else s

/-- R158, R180, R186: what a new WEAR value of a mapped folio triggers. -/
def wearTriggers (m : Nat) (s : State) : State :=
  let w := (wearOf s m).wear
  let r := revOf s m
  if r.kind == 5 then
    if wearLimit s ≤ w then shelfMove false m s
    else if wearSpread s != 0 && wearMinRes s + wearSpread s ≤ w then shelfMove true m s else s
  else if r.kind != 1 then s
  else if wearLimit s ≤ w then
    if 0 < reserveLeft s then queueMig r.owner 2 1 (ent s r.owner).bullion s
    else if (ent s r.owner).state == .live then jAppend [jReadOnly s r.owner] s else s
  else if wearSpread s != 0 && wearMinRes s + wearSpread s ≤ w then queueMig r.owner 4 0 (ent s r.owner).bullion s
  else s

/-- R158: count one program of a line of media folio m. -/
def wearProgram (m : Nat) (s : State) : State :=
  let w := wearOf s m
  if m == noFolio then s
  else if w.programs + 1 < 8192 then
    setWear m { w with programs := w.programs + 1 } s
  else wearTriggers m (wearNear (wearMax s) (setWear m { wear := satAdd 0x7FFFF w.wear 1, programs := 0 } s))

/-- R158: count n programs of lines of media folio m, where n is at most a folio's 8,192 lines. -/
def wearPrograms (m n : Nat) (s : State) : State :=
  let w := wearOf s m
  if m == noFolio then s
  else if w.programs + n < 8192 then setWear m { w with programs := w.programs + n } s
  else wearTriggers m (wearNear (wearMax s) (setWear m { wear := satAdd 0x7FFFF w.wear 1, programs := w.programs + n - 8192 } s))

/-- R158: WEAR of a folio once it is blanked. -/
def wearBlanked (s : State) (m : Nat) : Nat := satAdd 0x7FFFF (wearOf s m).wear 1

/-- Blank a media folio (R181 step 7): queue it; FOLIO_BLANK_DONE ends it. `set1` is the escrow set that
waits for it plus 1, or 0. -/
def queueBlank (m set1 : Nat) (s : State) : State :=
  if m == noFolio || s.led.blanking.any (fun b => b.1 == m) then s
  else s.modLed fun l =>
    { l with blanking := l.blanking ++ [(m, set1)],
             rev := tput default l.rev m { kind := 4, owner := 0 } }

/-! Reads (R157). -/

/-- R157: count a read of a line of a folio; true when a unit of 256 was added. -/
def countRead (f : Nat) (s : State) : State × Bool :=
  let e := ent s f
  if e.readSub + 1 < 256 then (modEnt f (fun e => { e with readSub := e.readSub + 1 }) s, false)
  else (modEnt f (fun e => { e with readSub := 0, reads := satAdd 0xFFFF e.reads 1 }) s, true)

/-! Overdraft (R185-R187). -/

/-- The overdraft's size in lines. -/
def overdraftMax : Nat := 262144

/-- R187: WLV_STATUS.OVERDRAFT_FULL. -/
def overdraftUpdate (s : State) : State :=
  let n := s.led.overdraft.length
  if overdraftMax ≤ n && !s.led.overdraftFull then
    raise 5 4 0x03 (det3 n 0) (s.modLed fun l => { l with overdraftFull := true })
  else if n * 10 < overdraftMax * 9 then s.modLed fun l => { l with overdraftFull := false }
  else s

/-- A place in the overdraft that is unlisted. -/
def pline0 : PLine := default

/-- R185, R186: a line enters the overdraft, or waits for a place when it is full. -/
def overdraftPut (lineNo : Nat) (l : PLine) (s : State) : State :=
  let had := s.led.overdraft.any fun e => e.1 == lineNo
  if !had && overdraftMax ≤ s.led.overdraft.length then
    s.modLed fun d => { d with overdraftWait := if d.overdraftWait.contains lineNo then d.overdraftWait
                                                else d.overdraftWait ++ [lineNo] }
  else
    let empty := s.led.overdraft.isEmpty
    let s := s.modLed fun d => { d with overdraft := (d.overdraft.filter fun e => e.1 != lineNo) ++ [(lineNo, l)] }
    let s := bump 423 1 s
    let s := if empty then raise 5 4 0x02 (det1 (lineNo * 256) 0 0 0) s else s
    overdraftUpdate s

/-- R187, R191: a discarded write: the status bit, the count, and WRITE_DISCARDED once per millisecond. -/
def writeDiscarded (dpa key : Nat) (s : State) : State :=
  let s := rbit (s.modLed fun l => { l with discards := l.discards + 1 }) 0x280000 17
  if msDue s (evCode 5 4 0x04) then
    let n := s.led.discards
    let s := cxlAppend .a 1 (0x1000000 + dpa) n s
    raiseMs 5 4 0x04 (det1 dpa key 0 n) (s.modLed fun l => { l with discards := 0 })
  else s

/-- R379, R178: read-only host folios. -/
def readOnlyCount (s : State) : Nat := (s.led.entries.filter fun e => e.2.state == .readOnly).length

/-- R33: the host folio of a line number. -/
def folioOf (lineNo : Nat) : Nat := lineNo / 8192

/-- Drop the overdraft lines of a host folio (R186). -/
def overdraftDrop (f : Nat) (s : State) : State :=
  overdraftUpdate (s.modLed fun l =>
    { l with overdraft := l.overdraft.filter (fun e => folioOf e.1 != f),
             spill := l.spill.filter (fun e => folioOf e.1 != f),
             overdraftWait := l.overdraftWait.filter (fun n => folioOf n != f) })

end Sys2Proof.Machine
end

