-- ==== Sys2Proof/Machine/Crypto.lean ====
section
/-! DEFINITION. Inline encryption: keys and policies, the access check, the key stream and hallmarks, counter
blocks with their cache, shelf and epochs, and the counter tree (R245-R285). -/

namespace Sys2Proof.Machine

/-! Keys and policies. -/

/-- R245: the key in vault slot k. -/
def domKey (s : State) (k : Nat) : Option (BitVec 256) :=
  if k == 0 then some (Config.houseKey (s.ctl.life == .rma)) else tget none s.cry.dom k

/-- A policy record that has never been written (R246). -/
def policy0 : Policy := default

/-- R246: the FLAGS of a domain in force: the house's 0x7E, the record's, or 0x06. -/
def policyFlags (s : State) (k : Nat) : BitVec 8 :=
  if k == 0 then 0x7E
  else
    let p := tget policy0 s.cry.policy k
    if p.written then p.flags else 0x06

/-- R246 FLAGS[0]: the domain is sealed. -/
def domSealed (s : State) (k : Nat) : Bool := (policyFlags s k).getLsbD 0

/-- R246: the HEAD bit of a head. -/
def headAllowed (s : State) (k : Nat) (h : Head) : Bool := (policyFlags s k).getLsbD (1 + headNo h)

/-- R245: the key ID owns a host folio. -/
def ownsFolio (s : State) (k : Nat) : Bool := s.led.entries.any fun e => provisioned e.2 && e.2.key == k

/-- R247: the key ID owns an escrow set. -/
def ownsSet (s : State) (k : Nat) : Bool := s.esc.sets.any fun e => e.2.state != .free && e.2.key == k

/-- R246: the key check value of a key. -/
def kcvOf (key : BitVec 256) : BitVec 32 := (Config.aes256 key ((0x05 : BitVec 128) <<< 120)).extractLsb' 0 32

/-- The failures of R248, with the syndromes of R250. -/
inductive AccessFail where
  | mismatch | absent | head
deriving DecidableEq, Repr

/-- R250: the syndrome of an access failure. -/
def AccessFail.syndrome : AccessFail → Nat
  | .absent => 0xC
  | _ => 0xB

/-- R248: the check of an access to a provisioned folio; `h` is the arrival port of a host access. Where the key ID is not the owner
and the owner's slot is empty, two rows of R249 fit: the model takes the mismatch first (DESIGN CHOICE, log entry 102). -/
def accessCheck (s : State) (key : Nat) (h : Option Head) (e : LEntry) : Option AccessFail :=
  if key != e.key then some .mismatch
  else if (domKey s key).isNone then some .absent
  else
    match h with
    | some h => if headAllowed s key h then none else some .head
    | none => none

/-- R249, R284: record the most recent access poisoned or discarded under this chapter. -/
def iceLast (dpa syn key : Nat) (write : Bool) (h : Option Head) (s : State) : State :=
  rset (rset s 0x300060 (BitVec.ofNat 32 dpa)) 0x300064
    (BitVec.ofNat 32 (dpa / 2 ^ 32 % 2 ^ 13 + syn % 16 * 2 ^ 16 + key % 128 * 2 ^ 20 + b2n write * 2 ^ 27 +
      b2n (h == some .b) * 2 ^ 28))

/-- R249: an access that fails R248 is counted and recorded. -/
def accessCount (f : AccessFail) (dpa key : Nat) (write : Bool) (h : Option Head) (s : State) : State :=
  let s := iceLast dpa f.syndrome key write h s
  match f with
  | .absent => rbit (rinc s 0x300048 1) 0x300000 10
  | _ => rbit (rinc s 0x300044 1) 0x300000 9

/-- R249: the reason that an access failure raises. -/
def AccessFail.reason : AccessFail → Nat
  | .mismatch => 0x01
  | .absent => 0x02
  | .head => 0x03

/-- R249: an access that fails R248 is counted, recorded and raised once per millisecond a reason. -/
def accessFault (f : AccessFail) (dpa key : Nat) (write : Bool) (h : Option Head) (s : State) : State :=
  raiseMs 6 0 f.reason ((det1 dpa key f.syndrome 0).on (h.getD .a)) (accessCount f dpa key write h s)

/-! The key stream and the hallmark. All 128-bit values are little-endian byte strings (R255). -/

/-- R254: block Yi. -/
def yBlock (i k b : Nat) (major : BitVec 64) : BitVec 128 :=
  BitVec.ofNat 128 (i % 2 + k % 128 * 2 + b % 2 ^ 31 * 2 ^ 8 + major.toNat * 2 ^ 64)

/-- R254: the folio key, AES(DK, Y0) ‖ AES(DK, Y1). -/
def folioKey (dk : BitVec 256) (k b : Nat) (major : BitVec 64) : BitVec 256 :=
  Config.aes256 dk (yBlock 1 k b major) ++ Config.aes256 dk (yBlock 0 k b major)

/-- R255, R256: block X of kind c: 0x00 for block j of the key stream, 0x01 for the hallmark mask. -/
def xBlock (c j minor lineNo : Nat) : BitVec 128 :=
  BitVec.ofNat 128 (j % 16 + minor % 2 ^ 24 * 2 ^ 4 + lineNo % 2 ^ 37 * 2 ^ 28 + c % 256 * 2 ^ 120)

/-- R255: the first n blocks of a line's key stream. -/
def keyStream (fk : BitVec 256) (minor lineNo : Nat) : Nat → Line
  | 0 => 0
  | j + 1 => keyStream fk minor lineNo j |||
      ((Config.aes256 fk (xBlock 0 j minor lineNo)).setWidth 2048 <<< (128 * j))

/-- R255: encryption, and decryption, of a line. -/
def cryptLine (fk : BitVec 256) (minor lineNo : Nat) (d : Line) : Line := d ^^^ keyStream fk minor lineNo 16

/-- The bytes of a 128-bit value in the opposite order. -/
def byteRev (x : BitVec 128) : Nat → BitVec 128
  | 0 => 0
  | n + 1 => (byteRev x n <<< 8) ||| ((x >>> (8 * n)) &&& 0xFF)

/-- SP 800-38D: n steps of the product in GF(2^128), most significant bit first. -/
def gmulStep (x : BitVec 128) : Nat → BitVec 128 × BitVec 128 → BitVec 128 × BitVec 128
  | 0, zv => zv
  | n + 1, (z, v) =>
    let z' := if x.getLsbD n then z ^^^ v else z
    let v' := if v.getLsbD 0 then (v >>> 1) ^^^ ((0xE1 : BitVec 128) <<< 120) else v >>> 1
    gmulStep x n (z', v')

/-- SP 800-38D: the product of two blocks. -/
def gmul (x y : BitVec 128) : BitVec 128 := (gmulStep x 128 (0, y)).1

/-- SP 800-38D: GHASH of n blocks of little-endian data, then a length block of `bitLen` bits. -/
def ghash (h : BitVec 128) (data : BitVec 2048) (n bitLen : Nat) : BitVec 128 :=
  let hr := byteRev h 16
  let y := (List.range n).foldl
    (fun y j => gmul (y ^^^ byteRev ((data >>> (128 * j)).setWidth 128) 16) hr) 0
  byteRev (gmul (y ^^^ BitVec.ofNat 128 bitLen) hr) 16

/-- R256: the hallmark of a line's ciphertext. -/
def hallmarkOf (fk : BitVec 256) (minor lineNo : Nat) (c : Line) : BitVec 64 :=
  let h := Config.aes256 fk ((0x02 : BitVec 128) <<< 120)
  (ghash h c 16 2048 ^^^ Config.aes256 fk (xBlock 1 0 minor lineNo)).setWidth 64

/-! Counter blocks. -/

/-- R260: the counter block of a line. -/
def blockOf (lineNo : Nat) : Nat := lineNo / 64

/-- R263: a blank counter block: MAJOR 0 and every minor 0. -/
def ctr0 : CtrBlock := default

/-- The minor counter of a line in its block. -/
def minorOf (c : CtrBlock) (lineNo : Nat) : Nat := (tget 0 c.minors (lineNo % 64)).toNat

/-- R260: bytes [199:0] of a block. -/
def ctrBits (c : CtrBlock) : BitVec 2048 :=
  BitVec.ofNat 2048 (c.minors.foldl (fun n e => n + e.2.toNat * 2 ^ (64 + 24 * (e.1 % 64))) c.major.toNat)

/-- R261: the MAC of a counter block (kind 0x03) or of a tree node (0x04) under its parent counter. -/
def shelfMac (s : State) (kind idx level parent : Nat) (data : BitVec 2048) (bytes : Nat) : BitVec 64 :=
  let kh := Config.macKey (s.ctl.life == .rma)
  let z := BitVec.ofNat 128 (idx % 2 ^ (if kind == 3 then 31 else 24) + level * 2 ^ 24 + parent % 2 ^ 56 * 2 ^ 64 +
    kind * 2 ^ 120)
  let h := Config.aes256 kh ((0x02 : BitVec 128) <<< 120)
  (ghash h data ((bytes + 15) / 16) (8 * bytes) ^^^ Config.aes256 kh z).setWidth 64

/-! The counter tree (R276-R283). -/

/-- R276: the sealed window is enabled. -/
def sealedOn (s : State) : Bool := s.cry.sealedCfg.getLsbD 5

/-- R276: a line lies in the sealed window: DPA[44:40] is WINDOW. -/
def inWindow (s : State) (lineNo : Nat) : Bool := sealedOn s && lineNo / 2 ^ 32 == (s.cry.sealedCfg.toNat % 32)

/-- R277: the window-relative index of a counter block. -/
def wIndex (b : Nat) : Nat := b % 2 ^ 26

/-- The key of a tree node: its level and index. -/
def nodeKey (level n : Nat) : Nat := level * 2 ^ 32 + n

/-- An unwritten tree node: every counter zero. -/
def node0 : TNode := default

/-- The node as the tree cache holds it, or as it stands on media. -/
def nodeOf (s : State) (level n : Nat) : TNode :=
  match s.cry.tree.find? (fun e => e.1 == nodeKey level n) with
  | some e => e.2
  | none => tget node0 s.cry.treeMedia (nodeKey level n)

/-- R277: the parent counter of the child of index `idx` at a level (0 = a counter block, 5 under the root). -/
def parentCtr (s : State) (level idx : Nat) : BitVec 56 :=
  if level == 5 then tget 0 s.cry.root idx else tget 0 (nodeOf s (level + 1) (idx / 32)).ctrs (idx % 32)

/-- The parent counter of counter block b: zero outside the window (R261). -/
def blockParent (s : State) (b : Nat) : Nat := if inWindow s (b * 64) then (parentCtr s 0 (wIndex b)).toNat else 0

/-- R280: increment the parent counter of a child, in the tree cache or at the root. -/
def parentBump (level idx : Nat) (s : State) : State :=
  if level == 5 then
    s.modCry fun c => { c with root := tmod 0 c.root idx (· + 1), rootPend := some (idx, tget 0 c.root idx) }
  else
    let n := nodeOf s (level + 1) (idx / 32)
    let n' := { n with ctrs := tmod 0 n.ctrs (idx % 32) (· + 1), dirty := true, cached := true }
    s.modCry fun c => { c with tree := tput node0 c.tree (nodeKey (level + 1) (idx / 32)) n' }

/-- R278: the counters of a node as bytes [223:0]. -/
def nodeBits (n : TNode) : BitVec 2048 :=
  BitVec.ofNat 2048 (n.ctrs.foldl (fun a e => a + e.2.toNat * 2 ^ (56 * (e.1 % 32))) 0)

/-- R278: the MAC of a node under its parent counter. -/
def nodeMac (s : State) (level n : Nat) (parent : Nat) (t : TNode) : BitVec 64 :=
  shelfMac s 4 n level parent (nodeBits t) 224

/-- R277: the place of a node's tree folio in the tree directory. -/
def nodeHome (level n : Nat) : Nat :=
  if level == 1 then n / 8192 else if level == 2 then 256 + n / 8192 else 264

/-- R280: write one dirty node to media: its own parent counter is incremented and its MAC computed under it. -/
def nodeWrite (level n : Nat) (s : State) : State :=
  let s := wearProgram (s.led.treeDir.getD (nodeHome level n) noFolio) (parentBump level n s)
  let t := { nodeOf s level n with dirty := false }
  let t := { t with mac := nodeMac s level n (parentCtr s level n).toNat t }
  s.modCry fun c => { c with treeMedia := tput node0 c.treeMedia (nodeKey level n) { t with cached := false },
                             tree := tput node0 c.tree (nodeKey level n) t, rootPend := none }

/-- The dirty nodes of a level. -/
def dirtyNodes (s : State) (level : Nat) : List Nat :=
  (s.cry.tree.filter fun e => e.1 / 2 ^ 32 == level && e.2.dirty).map fun e => e.1 % 2 ^ 32

/-- R280: dirty nodes reach media, lowest level first. -/
def treeFlush (s : State) : State :=
  forEach [1, 2, 3, 4, 5] (fun level s => forEach (dirtyNodes s level) (fun n s => nodeWrite level n s) s) s

/-- An invalid counter-cache slot. -/
def cc0 : CcSlot := default

/-- R264: write a dirty victim of the counter cache to the shelf, and drop the slot. -/
def ccEvict (slot : Nat) (s : State) : State :=
  let v := tget cc0 s.cry.cache slot
  let s :=
    if v.valid && v.dirty then
      wearProgram (runAt s.led.shelfDir (v.block / 8192))
        (bump 419 1 (s.modCry fun c => { c with media := tput ctr0 c.media v.block v.ctr }))
    else s
  s.modCry fun c => { c with cache := tput cc0 c.cache slot cc0 }

/-- R279: the entries of the tree cache for levels 1 to 3; levels 4 and 5 are pinned. -/
def treeEntries : Nat := 32702

/-- R279: a node leaves the tree cache: the sealed blocks under a level 1 node leave the counter cache before it, and a
dirty node is written to media. -/
def nodeEvict (key : Nat) (s : State) : State :=
  let level := key / 2 ^ 32
  let n := key % 2 ^ 32
  let under (c : CcSlot) : Bool := level == 1 && c.valid && inWindow s (c.block * 64) && wIndex c.block / 32 == n
  let s := forEach ((s.cry.cache.filter fun e => under e.2).map (·.1)) ccEvict s
  let s := if (nodeOf s level n).dirty then nodeWrite level n s else s
  s.modCry fun c => { c with tree := tput node0 c.tree key node0 }

/-- R279: room in the tree cache for a node: where its entries are all taken, the lowest-numbered node of the lowest level
leaves it that is not above the new one (DESIGN CHOICE, log entry 87); a node of the lowest level has no child there. -/
def treeRoom (level n : Nat) (s : State) : State :=
  let small (key : Nat) : Bool := key / 2 ^ 32 ≤ 3
  let above (key : Nat) : Bool := level ≤ key / 2 ^ 32 && n / 32 ^ (key / 2 ^ 32 - level) == key % 2 ^ 32
  if 3 < level || (s.cry.tree.filter fun e => small e.1).length < treeEntries then s
  else
    match s.cry.tree.find? (fun e => small e.1 && !above e.1) with
    | some e => nodeEvict e.1 s
    | none => s

/-- R282: a node carries a fault mark. -/
def nodeFaulted (s : State) (level n : Nat) : Bool := s.cry.faults.contains (level, n)

/-- R282: a node above block index w is faulted, or the root is. -/
def treeFaulted (s : State) (w : Nat) : Bool :=
  nodeFaulted s 6 0 || [1, 2, 3, 4, 5].any fun l => nodeFaulted s l (w / 32 ^ l)

/-- R282: fault a node: marked, or its level 3 ancestor when 1,024 nodes are marked; counted and raised. -/
def nodeFault (level n : Nat) (s : State) : State :=
  if nodeFaulted s level n then s
  else
    let s := rbit (rinc s 0x300054 1) 0x300000 12
    if 1024 ≤ s.cry.faults.length then
      let anc := if level < 3 then (3, n / 32 ^ (3 - level)) else (level, n)
      raise 6 2 0x02 (det3 anc.2 anc.1)
        (s.modCry fun c => { c with widened := true, faults := if c.faults.contains anc then c.faults
                                                               else c.faults.drop 1 ++ [anc] })
    else
      let s := s.modCry fun c => { c with faults := c.faults ++ [(level, n)] }
      if level == 6 then raise 6 2 0x05 (det3 n level) s else raise 6 2 0x01 (det3 n level) s

/-- R281, R282: fetch and verify a node that the tree cache does not hold, against its media copy: a MAC that fails
faults it; a level 5 node verifies under either root value while one is pending. -/
def nodeVerify (level n : Nat) (s : State) : State :=
  if s.cry.tree.any (fun e => e.1 == nodeKey level n) || nodeFaulted s level n then s
  else
    let t := tget node0 s.cry.treeMedia (nodeKey level n)
    let par := (parentCtr s level n).toNat
    let good := (t == node0 && par == 0) || t.mac == nodeMac s level n par t
    let alt :=
      match s.cry.rootPend with
      | some (i, old) => level == 5 && i == n && t.mac == nodeMac s level n old.toNat t
      | none => false
    let s := if level ≤ 3 then bump 519 1 s else s
    if good || alt then
      (treeRoom level n s).modCry fun c => { c with tree := tput node0 c.tree (nodeKey level n) { t with cached := true } }
    else if level == 5 then nodeFault 6 n s
    else nodeFault level n s

/-- R281: the nodes above block index w are fetched and verified from the top down. -/
def treeFetch (w : Nat) (s : State) : State :=
  forEach [5, 4, 3, 2, 1] (fun l s => nodeVerify l (w / 32 ^ l) s) s

/-! The counter cache, the shelf and staging blocks. -/

/-- R193: bytes of the counter-cache region; R264: its slots Sc. -/
def ccSlots (regionBytes : Nat) : Nat := regionBytes / 288

/-- R238, R273: the escrow set whose flipped index covers a host folio. -/
def releasedSet (s : State) (f : Nat) : Option Nat :=
  s.esc.index.find? fun i => ((tget default s.esc.sets i).members).contains f

/-- R273: block b is taken from its staging block. -/
def fromStaging (s : State) (b : Nat) : Bool :=
  (releasedSet s (b / 128)).isSome && s.cry.staging.any fun e => e.1 == b

/-- R265: a counter block is lost: recorded, counted and raised. -/
def ctrLose (b : Nat) (s : State) : State :=
  if s.cry.lostBlocks.contains b then s
  else
    let s := s.modCry fun c => { c with lostBlocks := c.lostBlocks ++ [b],
                                        cache := c.cache.filter fun e => e.2.block != b }
    raise 6 1 0x01 (det1 (b * 2 ^ 14) 0 0x9 0) (rbit (rinc s 0x30004C 1) 0x300000 11)

/-- R261: a block's hallmark verifies. -/
def ctrGood (s : State) (b : Nat) (c : CtrBlock) : Bool :=
  (c == ctr0 && blockParent s b == 0) ||
    c.hallmark == shelfMac s 3 b 0 (blockParent s b) (ctrBits c) 200

/-- Fill the counter cache with a block. -/
def ccFill (sc b : Nat) (dirty : Bool) (ctr : CtrBlock) (s : State) : State :=
  let slot := b % max 1 sc
  let v := tget cc0 s.cry.cache slot
  let s := if v.valid && v.block != b then ccEvict slot s else s
  s.modCry fun c =>
    { c with cache := tput cc0 c.cache slot { block := b, valid := true, dirty := dirty, sealed_ := inWindow s (b * 64),
                                              ctr := ctr,
                                              since := if !dirty then 0
                                                else if v.valid && v.block == b && v.dirty then v.since else s.clock } }

/-- R263-R265, R281: the counter block in force for reads and writes of block b: from the staging block of
a released member, the counter cache, or the shelf; none when it is lost. -/
def ctrFetch (sc b : Nat) (s : State) : Option CtrBlock × State :=
  if fromStaging s b then (some (tget ctr0 s.cry.staging b), s)
  else if s.cry.lostBlocks.contains b then (none, s)
  else
    let v := tget cc0 s.cry.cache (b % max 1 sc)
    if v.valid && v.block == b && ctrGood s b v.ctr then (some v.ctr, bump 517 1 s)
    else if v.valid && v.block == b && v.dirty then (none, ctrLose b s)
    else
      let s := bump 518 1 s
      let s := if inWindow s (b * 64) then treeFetch (wIndex b) s else s
      let c := tget ctr0 s.cry.media b
      if ctrGood s b c then (some c, ccFill sc b false c s) else (none, ctrLose b s)

/-- R261, R280: store a changed block dirty in the counter cache, under an incremented parent counter when it is
sealed; a released member's block goes to its staging block. -/
def ctrStore (sc b : Nat) (c : CtrBlock) (s : State) : State :=
  if fromStaging s b then s.modCry fun y => { y with staging := tput ctr0 y.staging b c }
  else
    let s := if inWindow s (b * 64) then parentBump 0 (wIndex b) s else s
    let c := { c with hallmark := shelfMac s 3 b 0 (blockParent s b) (ctrBits c) 200 }
    ccFill sc b true c s

/-- R268: a block with a line's minor counter advanced by 1. -/
def minorBump (c : CtrBlock) (lineNo : Nat) : CtrBlock :=
  { c with minors := tput 0 c.minors (lineNo % 64) (BitVec.ofNat 24 (minorOf c lineNo + 1)) }

/-! Epochs (R266). -/

/-- R266: the last MAJOR of the epoch that holds v. -/
def epochEnd (v : Nat) : Nat :=
  if v < 2 ^ 63 then 2 ^ 63 - 1 else 2 ^ 63 + ((v - 2 ^ 63) / 2 ^ 31 + 1) * 2 ^ 31 - 1

/-- The value of the counter-reinit tally counter, an advance still being written counted. -/
def reinitTally (s : State) : Nat :=
  (s.pb.writes ++ s.pb.writing.toList).foldl
    (fun m w => if w.cls == 3 && w.addr / 4096 == 0x112 then max m (le w.data 0 4) else m) (tallyVal s 2)

/-- R265, R266: the base of the next epoch, with the tally counter advanced to it; none while it is frozen,
which raises TALLY_FROZEN. -/
def nextEpoch (s : State) : Option (BitVec 64) × State :=
  let t := reinitTally s + 1
  if 0xFFFFFFFF < t then (none, raise 6 1 0x05 (det3 2 0) (tallyAdvance 2 t s))
  else (some (BitVec.ofNat 64 (2 ^ 63 + t * 2 ^ 31)), tallyAdvance 2 t s)

/-- R266: MAJOR plus an increment within its epoch, or the base of the next epoch. -/
def nextMajor (cur : BitVec 64) (inc : Nat) (s : State) : Option (BitVec 64) × State :=
  if inc + cur.toNat ≤ epochEnd cur.toNat then (some (cur + BitVec.ofNat 64 inc), s) else nextEpoch s

/-- R265: reinitialise a lost block: none while the tally counter is frozen. -/
def ctrReinit (b : Nat) (s : State) : Option CtrBlock × State :=
  match nextEpoch s with
  | (none, s) => (none, s)
  | (some m, s) =>
    let s := s.modCry fun c => { c with lostBlocks := c.lostBlocks.filter (fun x => x != b) }
    (some { ctr0 with major := m }, raise 6 1 0x02 (det1 (b * 2 ^ 14) 0 0 m.toNat) s)

/-- R259: the derived-key cache is consulted and filled. -/
def derivedKey (k b : Nat) (major : BitVec 64) (s : State) : State :=
  let e := (k, b, major.toNat)
  if s.cry.derived.contains e then bump 515 1 s
  else bump 516 1 (s.modCry fun c => { c with derived := (e :: c.derived).take 4096 })

/-- R259: a change of a domain key or of a block removes the entries it affects. -/
def derivedDrop (p : Nat × Nat × Nat → Bool) (s : State) : State :=
  s.modCry fun c => { c with derived := c.derived.filter fun e => !p e }

/-! Encryption of a line (R255, R256). -/

/-- The ciphertext and hallmark of a plaintext line under a key, block and minor counter. -/
def sealLine (dk : BitVec 256) (k lineNo : Nat) (c : CtrBlock) (d : Line) : Line × BitVec 64 :=
  let fk := folioKey dk k (blockOf lineNo) c.major
  let ct := cryptLine fk (minorOf c lineNo) lineNo d
  (ct, hallmarkOf fk (minorOf c lineNo) lineNo ct)

/-- The plaintext of a ciphertext line, none when its hallmark does not verify (R256). -/
def openLine (dk : BitVec 256) (k lineNo : Nat) (c : CtrBlock) (ct : Line) (hm : BitVec 64) : Option Line :=
  let fk := folioKey dk k (blockOf lineNo) c.major
  if hallmarkOf fk (minorOf c lineNo) lineNo ct == hm then some (cryptLine fk (minorOf c lineNo) lineNo ct) else none

end Sys2Proof.Machine
end

