-- ==== Sys2Proof/Machine/Purse.lean ====
section
/-! DEFINITION. The purse, the till and the dirty budget: DRAM layout, slots, eviction buffers, rings, metering
(R192-R209), and the placement of lines (R36-R39, R530). -/

namespace Sys2Proof.Machine

/-! Placement (R36, R37). -/

/-- R37: logical channel of line o of media folio m. -/
def logCh (s : State) (m o : Nat) : Nat := (o ^^^ m) % s.board.channels

/-- R37: physical channel of a line. -/
def chOf (s : State) (m o : Nat) : Nat := physCh s (logCh s m o)

/-- R37: data die of a line. -/
def dieOf (s : State) (o : Nat) : Nat := o / s.board.channels % s.board.dieCount

/-- R37: row of a line within its chunk. -/
def rowOfLine (s : State) (o : Nat) : Nat := o / (s.board.channels * s.board.dieCount)

/-- R37: bank of a media folio on a channel's dies. -/
def bankOf (s : State) (c m : Nat) : Nat := m % (if s.board.m2.getLsbD c then 40 else 32)

/-- R9: home slice of a physical channel. -/
def sliceOfCh (c : Nat) : Nat := c / 4 % 8

/-- R530: the media folio that homes a line; 0 where the folio names none. -/
def homeFolio (e : LEntry) : Nat := if e.media == noFolio then 0 else e.media

/-- R9, R530: home slice of a line. -/
def sliceOf (s : State) (lineNo : Nat) : Nat :=
  sliceOfCh (chOf s (homeFolio (ent s (folioOf lineNo))) (lineNo % 8192))

/-! DRAM layout (R192-R194). -/

/-- R192: total DRAM in MiB. -/
def dramMiB (s : State) : Nat := s.board.dramIfs * (if s.board.dram16 then 16384 else 8192)

/-- R193: the ledger region in MiB, rounded up to 2 MiB. -/
def regLedger (s : State) : Nat := (footprint s + 2 ^ 21 - 1) / 2 ^ 21 * 2

/-- R193: the counter-cache region in MiB. -/
def regCtr (s : State) : Nat := if 32768 ≤ dramMiB s then 512 else 256

/-- R193: the regions below the strongbox, in MiB. -/
def regFixed (s : State) : Nat := regLedger s + regCtr s + 160 + 76 + 9 + 64

/-- R193: purse slots under a strongbox of g GiB. -/
def slotsWith (s : State) (g : Nat) : Nat := (dramMiB s - regFixed s - g * 1152) * 2 ^ 20 / 288

/-- R196: S. -/
def purseSlots (s : State) : Nat := max 1 (slotsWith s s.pur.sboxAct)

/-- R264: Sc. -/
def sc (s : State) : Nat := ccSlots (regCtr s * 2 ^ 20)

/-! The dirty budget (R203-R205). -/

/-- Populated M2 channels counted twice, M1 channels once: 64 times Q over 45 GB/s (R204). -/
def qWeight (s : State) : Nat := (popChans s).foldl (fun n c => n + (if s.board.m2.getLsbD c then 2 else 1)) 0

/-- R204: Q in bytes per millisecond. -/
def qRate (s : State) : Nat := 45000000 * qWeight s / 64

/-- R203: declared hold-up in ms. -/
def holdupMs (s : State) : Nat :=
  match s.sup.holdupDecl.toNat with
  | 0 => 0 | 1 => 30 | 2 => 60 | _ => 120

/-- R204: B_max of the declaration in units of 64 MiB, before the cap. -/
def bmaxRaw (s : State) : Nat := (holdupMs s - 6) * qRate s * 16 / 17 / 2 ^ 26

/-- R204: the declaration is too short for the smallest budget (TIL_STATUS.HOLDUP_SHORT). -/
def holdupShort (s : State) : Bool := s.sup.holdupDecl != 0 && bmaxRaw s == 0

/-- R204: the controller acts as on a board that declares hold-up. -/
def holdupActs (s : State) : Bool := s.sup.holdupDecl != 0 && !holdupShort s

/-- R204: B_max in units of 64 MiB. -/
def bmaxUnits (s : State) : Nat := if holdupActs s then min 64 (bmaxRaw s) else 64

/-- R194: the largest budget in units that keeps S at four times it. -/
def bSlots (s : State) : Nat := purseSlots s / 4 / 262144

/-- R204, R194: a written budget, clamped, in units; and whether it was clamped. -/
def clampBudget (s : State) (u : Nat) : Nat × Bool :=
  let u := max 1 u
  let m := min (bmaxUnits s) (max 1 (bSlots s))
  (min u m, m < u)

/-- R65: high water. -/
def highWater (s : State) : Nat := s.pur.budget * 95 / 100
/-- R65: low water. -/
def lowWater (s : State) : Nat := s.pur.budget * 85 / 100

/-- R194, R216: the strongbox size that a request acts as. -/
def sboxClamp (s : State) (g : Nat) : Nat :=
  ((List.range (min g 48 + 1)).filter fun k => 2 ^ 24 ≤ slotsWith s k && 4 * s.pur.budget ≤ slotsWith s k).foldl max 0

/-! Slots. -/

/-- An invalid slot. -/
def pslot0 : PSlot := default

/-- R196: the slot of a line. -/
def slotNo (s : State) (lineNo : Nat) : Nat := lineNo % purseSlots s

/-- The contents of a line's slot. -/
def slotOf (s : State) (lineNo : Nat) : PSlot := tget pslot0 s.pur.slots (slotNo s lineNo)

/-- Write a slot: its cells hold what was written (R198). -/
def setSlot (k : Nat) (p : PSlot) (s : State) : State :=
  s.modPur fun u => { u with slots := tput pslot0 u.slots k p, flips := u.flips.filter fun e => e.1 != k }

/-- R196: GEN6 of a generation. -/
def gen6 (g : BitVec 24) : BitVec 6 := g.setWidth 6

/-- R196: the slot holds the line under the generation of its entry. -/
def slotHit (s : State) (lineNo : Nat) (p : PSlot) : Bool :=
  p.valid && p.quot == lineNo / purseSlots s && p.gen6 == gen6 (ent s (folioOf lineNo)).gen

/-- The newest eviction-buffer line of a line number (R201). -/
def evbFind (s : State) (lineNo : Nat) : Option EvLine :=
  s.pur.evb.reverse.find? fun e => e.lineNo == lineNo && e.gen6 == gen6 (ent s (folioOf lineNo)).gen

/-- R201, R15: the line as the eviction buffer, the overdraft or the purse holds it. -/
def cachedLine (s : State) (lineNo : Nat) : Option PLine :=
  match evbFind s lineNo with
  | some e => some e.line
  | none =>
    match s.led.overdraft.find? (fun e => e.1 == lineNo) with
    | some e => some e.2
    | none => if slotHit s lineNo (slotOf s lineNo) then some (slotOf s lineNo).line else none

/-- R201: lines in a slice's eviction buffer. -/
def evbCount (s : State) (slice : Nat) : Nat := (s.pur.evb.filter fun e => e.slice == slice).length

/-- R200: a slice's eviction buffer is full. -/
def evbFull (s : State) (slice : Nat) : Bool := 4096 ≤ evbCount s slice

/-- R65, R45, R185: till occupancy: dirty slots, eviction-buffer lines and overdraft lines. -/
def occupancy (s : State) : Nat :=
  (s.pur.slots.filter fun e => e.2.valid && e.2.dirty).length + s.pur.evb.length + s.led.overdraft.length

/-- A line is in the till (R65). -/
def inTill (s : State) (lineNo : Nat) : Bool :=
  (evbFind s lineNo).isSome || (s.led.overdraft.any fun e => e.1 == lineNo) ||
    (slotHit s lineNo (slotOf s lineNo) && (slotOf s lineNo).dirty)

/-- R65: enter metered mode at H, leave it below L. -/
def meterUpdate (s : State) : State :=
  let n := occupancy s
  if !s.pur.metered && highWater s ≤ n then bump 420 1 (s.modPur fun u => { u with metered := true })
  else if s.pur.metered && n < lowWater s then s.modPur fun u => { u with metered := false }
  else s

/-- R46, R206: a folio's writes are acknowledged late. -/
def lateFor (s : State) (e : LEntry) : Bool :=
  e.late || s.pur.lateForced || (!holdupActs s && !s.pur.lossAccepted)

/-- R207: a folio's dirty lines go to the express ring. -/
def expressFor (s : State) (e : LEntry) : Bool := e.through || lateFor s e

/-- R208: the entry time, mint time[46:26]. -/
def ringTime (s : State) : Nat := bits (mintNow s) 26 21

/-- R208: append a line to its ring. -/
def ringAppend (express : Bool) (lineNo : Nat) (g : BitVec 6) (s : State) : State :=
  let r : RingEntry := { lineNo := lineNo, gen6 := g, time := ringTime s }
  s.modPur fun u =>
    if express then { u with exRing := u.exRing ++ [r] } else { u with wbRing := u.wbRing ++ [r] }

/-- Move a dirty victim to its slice's eviction buffer (R200). -/
def evictVictim (k : Nat) (v : PSlot) (s : State) : State :=
  let lineNo := v.quot * purseSlots s + k
  let s := s.modPur fun u =>
    { u with evb := u.evb ++ [{ slice := sliceOf s lineNo, lineNo := lineNo, gen6 := v.gen6, draining := false,
                                line := v.line }] }
  setSlot k pslot0 (bump (352 + 8 * sliceOf s lineNo + 4) 1 s)

/-- R200: a write or claim of a line can be placed now: its slice's buffer has room if it needs it. -/
def canPlace (s : State) (lineNo : Nat) : Bool :=
  let p := slotOf s lineNo
  match evbFind s lineNo with
  | some e => !e.draining || !evbFull s (sliceOf s lineNo)
  | none =>
    if p.valid && p.draining then !evbFull s (sliceOf s lineNo)
    else if p.valid && p.dirty && !slotHit s lineNo p then
      !evbFull s (sliceOf s (p.quot * purseSlots s + slotNo s lineNo))
    else true

/-- R200, R201, R208: place a dirty line: into the eviction buffer where the line or a draining victim is there,
else into its slot, with the ring entry it needs. A line that waits in the write-back ring moves to the express ring
where its folio drains as under write-through now (R41). -/
def placeDirty (lineNo : Nat) (l : PLine) (s : State) : State :=
  let e := ent s (folioOf lineNo)
  let g := gen6 e.gen
  let k := slotNo s lineNo
  let p := slotOf s lineNo
  let fresh : EvLine := { slice := sliceOf s lineNo, lineNo := lineNo, gen6 := g, draining := false, line := l }
  let s := s.modMed fun d => { d with taken := d.taken.filter fun x => x.line != lineNo }
  let s :=
    if s.led.overdraft.any (fun x => x.1 == lineNo) then overdraftPut lineNo l s
    else
      match evbFind s lineNo with
      | some x =>
        if x.draining then s.modPur fun u => { u with evb := u.evb ++ [fresh] }
        else s.modPur fun u => { u with evb := u.evb.map fun y => if y == x then { y with line := l } else y }
      | none =>
        if p.valid && p.draining then s.modPur fun u => { u with evb := u.evb ++ [fresh] }
        else
          let s := if p.valid && p.dirty && !slotHit s lineNo p then evictVictim k p s else s
          let queued := slotHit s lineNo p && p.dirty && p.queued
          let inBack := queued && expressFor s e && s.pur.wbRing.any fun r => r.lineNo == lineNo && r.gen6 == g
          let s := if inBack then s.modPur fun u => { u with wbRing := u.wbRing.filter fun r => r.lineNo != lineNo } else s
          let s := if queued && !inBack then s else ringAppend (expressFor s e) lineNo g s
          setSlot k { quot := lineNo / purseSlots s, gen6 := g, valid := true, dirty := true, queued := true,
                      draining := false, line := l } s
  meterUpdate s

/-- R200: fill a clean line into its slot; skipped where a victim is draining, or is dirty with its slice's
buffer full. -/
def fillClean (lineNo : Nat) (l : PLine) (s : State) : State :=
  let k := slotNo s lineNo
  let p := slotOf s lineNo
  if (cachedLine s lineNo).isSome || (p.valid && p.draining) then s
  else if p.valid && p.dirty && evbFull s (sliceOf s (p.quot * purseSlots s + k)) then s
  else
    let s := if p.valid && p.dirty then evictVictim k p s else s
    bump (352 + 8 * sliceOf s lineNo + 3) 1
      (setSlot k { quot := lineNo / purseSlots s, gen6 := gen6 (ent s (folioOf lineNo)).gen, valid := true,
                   dirty := false, queued := false, draining := false, line := l } s)

/-- A purse slot's line belongs to a host folio. -/
def slotInFolio (s : State) (k f : Nat) (p : PSlot) : Bool := p.valid && folioOf (p.quot * purseSlots s + k) == f

/-- R197, R530: the sweep of a REMAP: GEN6 of the folio's lines becomes that of the new generation, its lines in
eviction buffers move to their new home slices, and its prefetch entries are dropped. -/
def sweepRemap (f : Nat) (g : BitVec 24) (s : State) : State :=
  s.modPur fun u =>
    { u with slots := u.slots.map (fun e => if slotInFolio s e.1 f e.2 then (e.1, { e.2 with gen6 := gen6 g }) else e),
             evb := u.evb.map (fun x =>
               if folioOf x.lineNo == f then { x with gen6 := gen6 g, slice := sliceOf s x.lineNo } else x),
             prefetchQ := u.prefetchQ.filter (fun e => folioOf e.2 != f),
             exRing := u.exRing.map (fun r => if folioOf r.lineNo == f then { r with gen6 := gen6 g } else r),
             wbRing := u.wbRing.map (fun r => if folioOf r.lineNo == f then { r with gen6 := gen6 g } else r) }

/-- R197, R184, R239: the sweep of an instant zero or a release: the folio's lines are invalidated and its dirty
lines dropped. -/
def sweepDrop (f : Nat) (s : State) : State :=
  overdraftDrop f (s.modPur fun u =>
    { u with slots := u.slots.filter (fun e => !slotInFolio s e.1 f e.2),
             evb := u.evb.filter (fun x => folioOf x.lineNo != f),
             prefetchQ := u.prefetchQ.filter (fun e => folioOf e.2 != f),
             exRing := u.exRing.filter (fun r => folioOf r.lineNo != f),
             wbRing := u.wbRing.filter (fun r => folioOf r.lineNo != f) })

/-- R264, R209: dirty counter blocks in the counter cache. -/
def dirtyCtrs (s : State) : List CcSlot := (s.cry.cache.map (·.2)).filter fun c => c.valid && c.dirty

/-- R207: the dirty counter block that has been dirty longest, of those that a predicate picks. -/
def oldestCtr (s : State) (p : CcSlot → Bool) : Option CcSlot :=
  ((dirtyCtrs s).filter p).foldl (fun best c =>
    match best with
    | some b => if c.since < b.since then some c else some b
    | none => some c) none

/-- R269: write a block's dirty counters to the shelf. -/
def ctrClean (b : Nat) (s : State) : State :=
  let k := b % max 1 (sc s)
  let v := tget cc0 s.cry.cache k
  if v.valid && v.block == b && v.dirty then
    wearProgram (runAt s.led.shelfDir (b / 8192))
      (bump 419 1 (s.modCry fun c => { c with media := tput ctr0 c.media b v.ctr,
                                              cache := tput cc0 c.cache k { v with dirty := false } }))
  else s

/-- R274: neither a recoined line nor its block drains before the block's recoinage page is written. -/
def recoinHeld (s : State) (b : Nat) : Bool := s.cry.pagesRc.any fun e => e.2.block == b && !e.2.valid

/-! The strongbox (R213, R214). -/

/-- R214: the tweak of the data unit of a sector: DPA[44:6]. -/
def sboxTweak (sector : Nat) : Nat := sector % 2 ^ 39

/-- R214: read of the 64-byte data unit of a sector; a unit that was never written since the zero-fill reads as zeros. -/
def sboxRead (s : State) (sector : Nat) : Sector :=
  let tweak := sboxTweak sector
  match s.pur.sbox.find? (fun e => e.1 == tweak) with
  | some e => Config.xtsDecrypt s.pur.sboxKey tweak e.2
  | none => 0

/-- R214: write of a data unit, as the DRAM stores it. -/
def sboxWrite (sector : Nat) (d : Sector) (s : State) : State :=
  let tweak := sboxTweak sector
  s.modPur fun u =>
    { u with sbox := (u.sbox.filter fun e => e.1 != tweak) ++ [(tweak, Config.xtsEncrypt u.sboxKey tweak d)] }

end Sys2Proof.Machine
end

