-- ==== Sys2Proof/Machine/Packets.lean ====
section
/-! DEFINITION. What stands on a media channel's wires: the 296-byte image of a line with its BCH parity, and the command
packets (R75-R79, R116, R120). -/

namespace Sys2Proof.Machine

/-! The code of R120 over GF(2^12). -/

/-- R120: a product in GF(2^12) under x^12 + x^6 + x^4 + x + 1. -/
def gfMul (a b : Nat) : Nat :=
  (List.range 12).foldl (fun r i =>
    let d := 2 * r
    let d := if 4096 ≤ d then d ^^^ 0x1053 else d
    if b.testBit (11 - i) then d ^^^ a else d) 0

/-- R120: the powers of alpha, from alpha^0. -/
def gfPowers : Nat → Nat → List Nat
  | 0, _ => []
  | n + 1, x => x :: gfPowers n (gfMul x 2)

/-- R120: the exponents of the roots of the generator: of alpha^1, alpha^3 and so on to alpha^(2t-1), with their conjugates. -/
def bchRoots (t : Nat) : List Nat :=
  ((List.range t).flatMap fun i => (List.range 12).map fun k => (2 * i + 1) * 2 ^ k % 4095).dedup

/-- A polynomial over GF(2^12), lowest degree first, times x plus a root. -/
def polyTimes (r : Nat) (p : List Nat) : List Nat := List.zipWith (· ^^^ ·) (0 :: p) (p.map (gfMul r) ++ [0])

/-- R120: the generator polynomial, coefficient of degree i in bit i. -/
def bchGen (t : Nat) : Nat :=
  let pw := gfPowers 4095 1
  let g := (bchRoots t).foldl (fun p j => polyTimes (pw.getD j 0) p) [1]
  (g.zip (List.range g.length)).foldl (fun n e => n + e.1 % 2 * 2 ^ e.2) 0

/-- R120: the remainder of a message times x^deg by a generator of that degree; message bit 0 has the highest degree. -/
def bchRemainder (gen deg : Nat) (msg : Nat) (n : Nat) : Nat :=
  (List.range n).foldl (fun r i =>
    let d := 2 * (if msg.testBit i then r ^^^ 2 ^ (deg - 1) else r)
    if d.testBit deg then d ^^^ gen else d) 0

/-- R120: parity of a 2,176-bit message; its coefficient of highest degree is bit 0. -/
def bchParity (t : Nat) (msg : Nat) : Nat :=
  let deg := 12 * t
  let r := bchRemainder (bchGen t) deg msg 2176
  (List.range deg).foldl (fun n i => if r.testBit (deg - 1 - i) then n + 2 ^ i else n) 0

/-- R116, R120: metadata bytes 24 to 39 and the data bytes of a line, byte 24 in the low bits. -/
def lineMsg (l : MLine) : Nat :=
  l.hallmark.toNat + l.stamp.toNat * 2 ^ 64 + l.flags.toNat * 2 ^ 88 + l.gen.toNat * 2 ^ 96 + l.data.toNat * 2 ^ 128

/-- R75, R116: the 296 bytes of a line, byte 0 in the low bits: BCH with t = 16 for bullion and parity lines, with t = 8 and
bytes 12 to 23 zero for scrip, and a blank line all ones (R118). -/
def lineImage (l : MLine) : BitVec 2368 :=
  if l.flags.getLsbD 7 then BitVec.allOnes 2368
  else
    let m := lineMsg l
    BitVec.ofNat 2368 (bchParity (if l.flags.getLsbD 2 then 16 else 8) m + m * 2 ^ 192)

/-- R75: what beat i of a transfer carries on DQ[15:0]. -/
def dqBeat (image : BitVec 2368) (i : Nat) : BitVec 16 := image.extractLsb' (16 * i) 16

/-! Command packets. -/

/-- R76: one step of the CRC-8 of polynomial 0x07. -/
def crc8Bit (crc : Nat) (b : Bool) : Nat :=
  let d := 2 * crc
  (if (256 ≤ d) != b then d % 256 ^^^ 0x07 else d % 256)

/-- R76: the CRC-8 of a packet's bits [55:0], initial value 0xFF, over the bytes in the order they are sent, each byte most
significant bit first (DESIGN CHOICE, log entry 76). -/
def packetCrc (body : Nat) : Nat :=
  (List.range 7).foldl (fun c i => (List.range 8).foldl (fun c k => crc8Bit c (body.testBit (8 * i + 7 - k))) c) 0xFF

/-- R76: a packet with its CRC. -/
def packetOf (body : Nat) : BitVec 64 := BitVec.ofNat 64 (body % 2 ^ 56 + packetCrc (body % 2 ^ 56) * 2 ^ 56)

/-- R76: the fields of a packet that addresses a line. -/
structure LineCmd where
  /-- OP -/
  op : Nat
  /-- DIE -/
  die : Nat
  /-- BANK -/
  bank : Nat
  /-- BROW -/
  brow : Nat
  /-- BIN -/
  bin : Nat := 0
  /-- SRC_DIE -/
  src : Nat := 0
  /-- DBUF -/
  dbuf : Nat := 0
  /-- SET_ONLY -/
  setOnly : Bool := false
  /-- STAMPED -/
  stamped : Bool := false
deriving DecidableEq, Repr

/-- R76: the packet of a command to a line. -/
def LineCmd.packet (x : LineCmd) : BitVec 64 :=
  packetOf (x.op + x.die * 2 ^ 6 + x.bank * 2 ^ 11 + x.brow * 2 ^ 17 + x.bin * 2 ^ 40 + x.src * 2 ^ 45 + x.dbuf * 2 ^ 50 +
    b2n x.setOnly * 2 ^ 53 + b2n x.stamped * 2 ^ 54)

/-- R77: an MRW of a die register. -/
def mrwPacket (die reg value : Nat) : BitVec 64 := packetOf (0x09 + die * 2 ^ 6 + reg * 2 ^ 11 + value * 2 ^ 22)

/-- R77: an MRR of a die register. -/
def mrrPacket (die reg : Nat) : BitVec 64 := packetOf (0x0A + die * 2 ^ 6 + reg * 2 ^ 11)

/-- R79, R96: SUSPEND or RESUME of a bank. -/
def bankPacket (op die bank : Nat) : BitVec 64 := packetOf (op + die * 2 ^ 6 + bank * 2 ^ 11)

/-- R146: REMAP of a line to spare entry i. -/
def remapPacket (die bank brow i : Nat) : BitVec 64 :=
  packetOf (0x0B + die * 2 ^ 6 + bank * 2 ^ 11 + brow * 2 ^ 17 + i * 2 ^ 45)

/-- R70, R76: the CS_N lines asserted for a die: group 0 holds positions 0 to 7 and 16, group 1 positions 8 to 15 and 17; die
ID 31 addresses both. -/
def csOf (die : Nat) : BitVec 2 :=
  if die == 31 then 3 else if die < 8 || die == 16 then 1 else 2

/-- Send a packet to a die of a channel. -/
def sendDie (c die : Nat) (packet : BitVec 64) (s : State) : State := send (.dieCmd c (csOf die) packet) s

/-- R75: the controller drives a line on DQ. -/
def sendLine (c : Nat) (l : MLine) (s : State) : State := send (.dieLine c (lineImage l)) s

end Sys2Proof.Machine
end

