-- ==== Sys2Proof/Machine/Media.lean ====
section
/-! DEFINITION. Media lines, parity stripes, die failures, drift and the checks of a sensed line (R116-R151), as
operations that the channel and memory commands share. -/

namespace Sys2Proof.Machine

/-! Lines. -/

/-- R118: a blank line: every byte 0xFF. -/
def blankLine : MLine :=
  { hallmark := BitVec.allOnes 64, stamp := BitVec.allOnes 24, flags := 0xFF, gen := BitVec.allOnes 32,
    data := BitVec.allOnes 2048 }

/-- The key of data line o of media folio m. -/
def lineKey (m o : Nat) : Nat := m * 32768 + o

/-- The key of the parity-die line of a channel and row of media folio m (R39); also the substitute of R131. -/
def parityKey (m ch row : Nat) : Nat := 16384 + m * 32768 + ch * 512 + row

/-- A media line. -/
def mline (s : State) (key : Nat) : MLine := tget blankLine s.med.lines key

/-- Write a media line. -/
def setMline (key : Nat) (l : MLine) (s : State) : State :=
  s.modMed fun d => { d with lines := tput blankLine d.lines key l }

/-- R122: raw FLAGS.BLANK. -/
def isBlank (l : MLine) : Bool := l.flags.getLsbD 7

/-- R118: blank every line of a media folio. -/
def blankFolio (m : Nat) (s : State) : State :=
  s.modMed fun d => { d with lines := d.lines.filter fun e => e.1 / 32768 != m }

/-- R135: now in date-stamp units, mint time[55:32]. -/
def stampNow (s : State) : BitVec 24 := BitVec.ofNat 24 (bits (mintNow s) 32 24)

/-- R117: GEN_ECHO of a channel. -/
def genEcho (s : State) (c : Nat) : Nat := if s.board.m2.getLsbD c then 2 else 1

/-- R117: FLAGS of a line written on channel c. -/
def lineFlags (s : State) (c : Nat) (bullion sealed_ poison parity : Bool) : BitVec 8 :=
  BitVec.ofNat 8 (genEcho s c + 4 * b2n bullion + 8 * b2n sealed_ + 16 * b2n poison + 32 * b2n parity)

/-- R116, R156: the line of a host folio as the drain writes it. -/
def drainLine (s : State) (e : LEntry) (o : Nat) (l : PLine) : MLine :=
  let poison := l.poison && l.rewritten != 0xF
  { hallmark := l.hallmark, stamp := stampNow s,
    flags := lineFlags s (chOf s e.media o) e.bullion e.sealed_ poison false,
    gen := e.gen.setWidth 32, data := l.data }

/-- R128: the line that stands for a poisoned one on media. -/
def poisonLine (s : State) (e : LEntry) (o : Nat) : MLine :=
  { hallmark := 0, stamp := stampNow s, flags := lineFlags s (chOf s e.media o) e.bullion e.sealed_ true false,
    gen := e.gen.setWidth 32, data := 0 }

/-! Die failures (R130-R134). -/

/-- INT_DIE_STATEn.FAILED. -/
def failedDies (s : State) (c : Nat) : BitVec 18 := tget 0 s.integ.failed c

/-- R133: a position's place is taken by the standby die. -/
def substituted (s : State) (c pos : Nat) : Bool := tget 0 s.integ.subst c == pos + 1

/-- R131, R133: the die at a position cannot serve chunk m: it is failed, not replaced, and the rebuild has not
reached the chunk. -/
def dieDead (s : State) (c pos m : Nat) : Bool :=
  (failedDies s c).getLsbD pos && !substituted s c pos &&
    !(s.integ.rebuildCh == some c && s.integ.rebuildPos == pos && m < s.integ.rebuildChunk)

/-- The parity die of a channel serves chunk m (R72, R134). -/
def parityUsable (s : State) (c m : Nat) : Bool := s.board.parityDies.getLsbD c && !dieDead s c 16 m

/-- R131, R134: a line cannot be stored: its data die and its parity die are both dead. -/
def cannotStore (s : State) (m o : Nat) : Bool :=
  let c := chOf s m o
  dieDead s c (dieOf s o) m && !parityUsable s c m

/-! Stripes (R39, R124). -/

/-- R39: the line offsets of a stripe. -/
def stripeLines (s : State) (m c row : Nat) : List Nat :=
  let low := ((c / (32 / s.board.channels)) ^^^ m) % s.board.channels
  (List.range s.board.dieCount).map fun d => low + s.board.channels * d + s.board.channels * s.board.dieCount * row

/-- R124: a line's contribution to its stripe; a blank line counts as zero. -/
def stripeData (l : MLine) : Line := if isBlank l then 0 else l.data
/-- R124: a line's hallmark in its stripe. -/
def stripeHm (l : MLine) : BitVec 64 := if isBlank l then 0 else l.hallmark

/-- R124: the XOR of lines' data and hallmarks. -/
def xorLines (ls : List MLine) : Line × BitVec 64 :=
  ls.foldl (fun a l => (a.1 ^^^ stripeData l, a.2 ^^^ stripeHm l)) (0, 0)

/-- R116: the parity line of a stripe with given XORs: the reverse record names the host folio and generation. -/
def parityLine (s : State) (c f : Nat) (e : LEntry) (x : Line × BitVec 64) : MLine :=
  { hallmark := x.2, stamp := stampNow s, flags := lineFlags s c true e.sealed_ false true,
    gen := BitVec.ofNat 32 (f % 2 ^ 24 + e.gen.toNat % 256 * 2 ^ 24), data := x.1 }

/-- R126: the parity line recomputed from all D data lines. -/
def parityRecompute (m c row f : Nat) (e : LEntry) (s : State) : State :=
  let x := xorLines ((stripeLines s m c row).map fun o => mline s (lineKey m o))
  wearProgram m (setMline (parityKey m c row) (parityLine s c f e x) s)

/-- R127, R131: a line of the stripe reconstructed from the others and the parity line; none where another line
or the parity line cannot be used. A stripe that was never written gives zeros (R124). -/
def reconstruct (s : State) (m o : Nat) : Option (Line × BitVec 64) :=
  let c := chOf s m o
  let row := rowOfLine s o
  let others := (stripeLines s m c row).filter fun x => x != o
  let parity := mline s (parityKey m c row)
  if !parityUsable s c m || others.any (fun x => dieDead s c (dieOf s x) m) ||
      (isBlank parity && others.any fun x => !isBlank (mline s (lineKey m x))) then none
  else some (xorLines (parity :: others.map fun x => mline s (lineKey m x)))

/-- R118: a program of a line's cells: a set-only program moves cells only from 1 to 0. -/
def programCells (setOnly : Bool) (old new : MLine) : MLine :=
  if setOnly then
    { hallmark := old.hallmark &&& new.hallmark, stamp := old.stamp &&& new.stamp, flags := old.flags &&& new.flags,
      gen := old.gen &&& new.gen, data := old.data &&& new.data }
  else new

/-- R158: program one line, set-only where it is blank (R76). -/
def programOne (m key : Nat) (l : MLine) (s : State) : State :=
  let old := mline s key
  wearProgram m (setMline key (programCells (isBlank old) old l) s)

/-- R125: the delta frame of an UPDATE of an old line by a new one. -/
def deltaFrame (old new : MLine) : Dbuf :=
  { valid := true, delta := stripeData old ^^^ new.data, hallmark := stripeHm old ^^^ new.hallmark, stamp := new.stamp }

/-- R125: what a MERGE makes of the parity line: the frame goes into data and hallmark, STAMP comes from the frame, and FLAGS
and the reverse record stay. A blank parity line takes those of the stripe's folio (DESIGN CHOICE, log entry 77). -/
def mergeLineOf (s : State) (c f : Nat) (e : LEntry) (old : MLine) (x : Dbuf) : MLine :=
  if isBlank old then { parityLine s c f e (x.delta, x.hallmark) with stamp := x.stamp }
  else { old with data := old.data ^^^ x.delta, hallmark := old.hallmark ^^^ x.hallmark, stamp := x.stamp }

/-- Program a line of a host folio (R124, R125, R131, R158): the data line, or the substitute of a dead die,
and for bullion the parity line of its stripe. -/
def programLine (f : Nat) (e : LEntry) (m o : Nat) (l : MLine) (s : State) : State :=
  let c := chOf s m o
  let row := rowOfLine s o
  let dead := dieDead s c (dieOf s o) m
  let pk := parityKey m c row
  if e.bullion && dead then
    let x := xorLines (l :: ((stripeLines s m c row).filter fun x => x != o).map fun x => mline s (lineKey m x))
    if parityUsable s c m then programOne m pk (parityLine s c f e x) s else s
  else if e.bullion then
    let frame := deltaFrame (mline s (lineKey m o)) l
    let s := programOne m (lineKey m o) l s
    if parityUsable s c m then programOne m pk (mergeLineOf s c f e (mline s pk) frame) s else s
  else if dead then wearProgram m (setMline pk l s)
  else programOne m (lineKey m o) l s

/-! Drift (R135-R141). -/

/-- R136: AGE_MIN of bin e. -/
def ageMin : Nat → Nat
  | 0 => 0
  | e + 1 => 0xF * 2 ^ e

/-- R135: the bin of an age: the highest whose AGE_MIN is not greater. -/
def binOfAge (age : Nat) : Nat := ((List.range 20).filter fun e => ageMin e ≤ age).foldl max 0

/-- R135: the bin of a stamp now. -/
def binOf (s : State) (stamp : BitVec 24) : Nat := binOfAge (stampNow s - stamp).toNat

/-- R137, R138: the bin of a re-read of an uncorrectable line: one above, or 18 from 19. -/
def binUp (b : Nat) : Nat := if b == 19 then 18 else b + 1

/-- R140, R142: a folio is read in stamp-search mode. -/
def searchMode (s : State) (f : Nat) : Bool := s.integ.search || s.integ.scrub.contains f

/-- R140, R142: stamp-search mode is in force for some lines (INT_STATUS.STAMP_SEARCH). -/
def inSearch (s : State) : Bool := s.integ.search || !s.integ.scrub.isEmpty

/-- R139: count a drift re-read of a folio in the table of 4,096, least recently used; the new count. -/
def countReread (f : Nat) (s : State) : State × Nat :=
  let n := ((s.integ.rereads.find? fun e => e.1 == f).elim 0 (·.2)) + 1
  (s.modInteg fun i => { i with rereads := ((f, n) :: i.rereads.filter fun e => e.1 != f).take 4096 }, n)

/-! Restrikes (R144, R145). -/

/-- R144: queue the restrike of a line of a media folio; a parity line goes by its place in the folio's keys. -/
def queueRestrike (m o : Nat) (s : State) : State :=
  s.modInteg fun i => { i with restrikes := if i.restrikes.contains (m, o) then i.restrikes else i.restrikes ++ [(m, o)] }

/-- R144: the correction threshold of a class; 0 is off. -/
def bitsLimit (s : State) (bullion : Bool) : Nat :=
  let r := rval s 0x20000C
  if bullion then min 16 (bits r 0 5) else min 8 (bits r 8 4)

/-- R123, R144: a line decoded with n bits corrected. -/
def corrected (m o n : Nat) (bullion : Bool) (s : State) : State :=
  let s := if 0 < n then bump 448 1 (rinc s 0x200040 1) else s
  if bitsLimit s bullion != 0 && bitsLimit s bullion ≤ n then queueRestrike m o s else s

/-- The written lines of a media folio, by offset. -/
def writtenLines (s : State) (m : Nat) : List Nat :=
  (s.med.lines.filter fun e => e.1 / 32768 == m && e.1 % 32768 < 8192).map fun e => e.1 % 32768

/-- The written lines of a media folio with its parity-die lines, by their places in its keys. -/
def writtenKeys (s : State) (m : Nat) : List Nat := (s.med.lines.filter fun e => e.1 / 32768 == m).map fun e => e.1 % 32768

/-- R139, R142, R144: restrike a whole folio, its parity lines among its lines. -/
def queueFolioRestrike (f : Nat) (s : State) : State :=
  let m := (ent s f).media
  forEach (writtenKeys s m) (fun o s => queueRestrike m o s) s

/-- R143, R144: an assay of a media folio begins: its data and parity lines are read in maintenance slots. -/
def assayStart (m : Nat) (patrol : Bool) (s : State) : State :=
  if m == noFolio then s else s.modMed fun d => { d with assays := d.assays ++ [{ m := m, patrol := patrol, done := [] }] }

/-- R144: the read-count assay of a folio: its lines are read at once, those that meet the correction condition are restruck,
and the count restarts. -/
def readAssay (f : Nat) (s : State) : State :=
  let lim := rval s 0x200010 % 65536
  if lim != 0 && lim ≤ (ent s f).reads then
    assayStart (ent s f).media false (raise 4 3 0x02 (det3 f 0) (modEnt f (fun e => { e with reads := 0, readSub := 0 }) s))
  else s

/-- R157: one read of a folio's line, whatever its requester. -/
def countHostRead (f : Nat) (s : State) : State :=
  let (s, unit) := countRead f s
  if unit then readAssay f s else s

/-- R39: the channel of a line of a media folio by its place in the keys. -/
def keyCh (s : State) (m off : Nat) : Nat := if off < 16384 then chOf s m off else (off - 16384) / 512

/-- R39: a data line of the stripe of a line: itself, or the first of a parity line's stripe. -/
def keyLine (s : State) (m off : Nat) : Nat :=
  if off < 16384 then off else (stripeLines s m ((off - 16384) / 512) (off % 512)).headD 0

/-! The result of a sensed line (R122). -/

/-- R122: the checks of a decoded line of a folio of given attributes and generation on channel c; none where
it is foreign. -/
def checkLine (s : State) (c : Nat) (e : LEntry) (gen : BitVec 24) (l : MLine) : Option LineRes :=
  if isBlank l then some .zero
  else if l.flags.toNat % 4 != genEcho s c || l.flags.getLsbD 2 != e.bullion || l.flags.getLsbD 3 != e.sealed_ ||
      l.flags.getLsbD 5 then none
  else if l.gen.setWidth 24 != gen then some .zero
  else if l.flags.getLsbD 4 then some (.poison 0x6)
  else some (.good l)

/-- R127: the reconstructed line, with flags and generation from the ledger; zero data and hallmark read blank. -/
def reconLine (s : State) (c : Nat) (e : LEntry) (gen : BitVec 24) (x : Line × BitVec 64) : LineRes :=
  if x.1 == 0 && x.2 == 0 then .zero
  else .good { hallmark := x.2, stamp := stampNow s, flags := lineFlags s c e.bullion e.sealed_ false false,
               gen := gen.setWidth 32, data := x.1 }

/-! Channels and operations. -/

/-- A channel that is off. -/
def chan0 : Chan := { (default : Chan) with map := 0x84448444_84448444, sched := 7 }

/-- A channel. -/
def chan (s : State) (c : Nat) : Chan := tget chan0 s.med.chans c

/-- Update of a channel. -/
def modChan (c : Nat) (f : Chan → Chan) (s : State) : State :=
  s.modMed fun d => { d with chans := tmod chan0 d.chans c f }

/-- An idle bank. -/
def bank0 : Bank := default

/-- The key of a die. -/
def dieKey (c pos : Nat) : Nat := c * 18 + pos

/-- The key of a bank of a die. -/
def bankKey (pos bank : Nat) : Nat := pos * 64 + bank

/-- A bank. -/
def bankAt (s : State) (c pos bank : Nat) : Bank := tget bank0 (chan s c).banks (bankKey pos bank)

/-- Update of a bank. -/
def modBank (c pos bank : Nat) (f : Bank → Bank) (s : State) : State :=
  modChan c (fun x => { x with banks := tmod bank0 x.banks (bankKey pos bank) f }) s

/-- A packet that belongs to no operation is sent to a die, and kept until the next one (R102). -/
def sendCtl (c die : Nat) (packet : BitVec 64) (s : State) : State :=
  sendDie c die packet (modChan c (fun x => { x with lastCtl := tput 0 x.lastCtl die packet }) s)

/-- R101: operations in flight on a channel of a kind: those whose first packet has been sent. -/
def inFlight (s : State) (c : Nat) (k : OpKind) : Nat :=
  (s.med.ops.filter fun o => o.ch == c && o.kind == k && o.issued).length

/-- R101: operations in flight on a channel. -/
def opsHeld (s : State) (c : Nat) : Nat := inFlight s c .read + inFlight s c .write + inFlight s c .maint

/-- R106, R102: count a late read; LATE_READ when the count leaves zero. -/
def lateRead (c : Nat) (s : State) : State :=
  let k := 0x100038 + 0x1000 * c
  let v := rval s k
  let s := bump (96 + 8 * c + 4) 1 (rset s k (BitVec.ofNat 32 (v / 65536 * 65536 + satAdd 0xFFFF (v % 65536) 1)))
  if v % 65536 == 0 then raise 2 c 0x02 (det2 c 0 0 0 0) s else s

/-- R111: count into the high half (REREAD, RECON) or low half (SUSPEND) of a channel count, saturating. -/
def chanCount (off c : Nat) (high : Bool) (s : State) : State :=
  let k := off + 0x1000 * c
  let v := rval s k
  rset s k (BitVec.ofNat 32 (if high then v % 65536 + satAdd 0xFFFF (v / 65536) 1 * 65536
                             else v / 65536 * 65536 + satAdd 0xFFFF (v % 65536) 1))

/-- R73: tSENSE of a channel's dies. -/
def tSense (s : State) (c : Nat) : Nat := if s.board.m2.getLsbD c then 180 else 300

/-- R73: tDELTA of a channel's dies. -/
def tDelta (s : State) (c : Nat) : Nat := if s.board.m2.getLsbD c then 250 else 60

/-- R73: banks of one die that may program at once. -/
def bankLimit (s : State) (c : Nat) : Nat := if s.board.m2.getLsbD c then 8 else 4

/-- R78: BROW of a line. -/
def browOf (s : State) (c m row : Nat) : Nat :=
  m / (if s.board.m2.getLsbD c then 40 else 32) * (8192 / (s.board.channels * s.board.dieCount)) + row

/-- R131, R133: the die that serves a position's lines of chunk m: the standby die where it has taken the place, the parity
die's substitute where the die is dead. -/
def servePos (s : State) (c pos m : Nat) : Nat :=
  if (failedDies s c).getLsbD pos then (if dieDead s c pos m then 16 else 17) else pos

/-- The packet of a command to an operation's line, on a die. -/
def lineCmd (s : State) (o : MOp) (op die : Nat) : LineCmd :=
  { op := op, die := die, bank := bankOf s o.ch o.m, brow := browOf s o.ch o.m o.row }

/-- R89, R143: an operation reads its line. -/
def readsLine (o : MOp) : Bool :=
  match o.purpose with
  | .hostRead _ | .prefetch _ | .take .. | .assay .. | .strikeRead .. | .stripeRead .. | .migRead .. => true
  | _ => false

/-- R79, R89: an operation is an MRR, which takes a slot and no bank. -/
def readsReg (o : MOp) : Bool :=
  match o.purpose with
  | .mrr .. => true
  | _ => false

/-- R39, R143: a read is that of a parity line, or of a substitute by its place on the parity die. -/
def onParity (o : MOp) : Bool :=
  match o.purpose with
  | .assay _ off _ | .strikeRead _ off => 16384 ≤ off
  | .stripeRead _ _ p => p == 16
  | _ => false

/-- R95, R131: the position whose bank a read senses: the parity die for a parity line and for the substitute of a dead die. -/
def busPos (s : State) (o : MOp) : Nat := if onParity o || dieDead s o.ch o.pos o.m then 16 else o.pos

/-- The line offset of an operation. -/
def opLine (s : State) (o : MOp) : Nat :=
  let low := ((o.ch / (32 / s.board.channels)) ^^^ o.m) % s.board.channels
  low + s.board.channels * o.pos + s.board.channels * s.board.dieCount * o.row

/-- The key of the line that a read senses. -/
def readKey (s : State) (o : MOp) : Nat :=
  if busPos s o == 16 then parityKey o.m o.ch o.row else lineKey o.m (opLine s o)

/-- The host folio that an operation concerns: that of its line, or the owner of its media folio. -/
def opFolio (s : State) (o : MOp) : Nat :=
  match o.purpose with
  | .hostRead l | .prefetch l | .drain l | .take _ l | .poisonWrite l => folioOf l
  | .drainCtr b => b / 128
  | .staging _ f _ _ _ | .migRead f _ | .migWrite f _ => f
  | .parity m _ | .restrikeLine m _ | .assay m _ _ | .strikeRead m _ | .stripeRead m _ _ | .rebuild m _ _ => (revOf s m).owner
  | .blank | .mrr .. => (revOf s o.m).owner

/-- R84, R140, R142: a read is made in stamp-search mode: its folio is in the mode, or its die's DIE_TIME is not valid. -/
def opSearch (s : State) (o : MOp) : Bool :=
  searchMode s (opFolio s o) || (s.board.m2.getLsbD o.ch && !s.med.diesTimeValid)

/-- R79: an operation resets its line to the blank state: a BLANK, which needs no slot. -/
def blanks (o : MOp) : Bool := o.purpose == .blank

/-- R96: the bank of an operation's line is busy and not suspended. -/
def bankHeld (s : State) (c pos bank : Nat) : Bool :=
  let b := bankAt s c pos bank
  b.busy && !b.suspended

/-- R96: SUSPEND of a bank: its program stops, and the bank senses 100 ns later. -/
def suspendSend (c pos bank : Nat) (s : State) : State :=
  let s := sendCtl c pos (bankPacket 0x07 pos bank)
    (modBank c pos bank (fun b => { b with suspended := true, senseFree := max b.senseFree (s.clock + 100) }) s)
  bump (96 + 8 * c + 6) 1 (chanCount 0x10003C c false s)

/-- R99: the positions that a reconstruction run reads: the other data dies and the parity die. -/
def reconPos (s : State) (o : MOp) : List Nat := ((List.range s.board.dieCount).filter (· != o.pos)) ++ [16]

/-- R96, R99, R137, R141: the SENSE of one line of a run under a bin: STAMPED on M2 outside stamp search; a program that holds the
bank on M2 is suspended first. -/
def reconSense (o : MOp) (bin p : Nat) (again : Bool) (s : State) : State :=
  let c := o.ch
  let bank := bankOf s c o.m
  let m2 := s.board.m2.getLsbD c
  let s := if m2 && bankHeld s c p bank && !(bankAt s c p bank).stuck then suspendSend c p bank s else s
  let stamped := m2 && !again && !opSearch s o
  let die := servePos s c p o.m
  modBank c p bank (fun b => { b with lastRead := s.clock })
    (sendDie c die ({ lineCmd s o 0x01 die with bin := if stamped then 0 else bin, stamped := stamped }).packet s)

/-- R99, R141: SENSE packets of a reconstruction run. -/
def reconSenses (o : MOp) (s : State) : State :=
  let bin := if opSearch s o then (chan s o.ch).lastBin else o.bin
  forEach (reconPos s o) (fun p s => reconSense o bin p false s) s

/-- R99, R96: the next queued reconstruction run of a channel begins, where none is in progress; one whose stripe is open
waits (R98). -/
def reconNext (c : Nat) (s : State) : State :=
  let x := chan s c
  let closed (r : ReconRun) : Bool :=
    !s.med.ops.any fun o => o.id == r.op && x.openStripes.contains (o.m, o.row)
  if x.recon.isSome then s
  else
    match x.reconQ.find? closed, s.med.ops.find? (fun o => x.reconQ.any fun r => closed r && r.op == o.id) with
    | some r, some _ =>
      let s := modChan c (fun x => { x with reconQ := x.reconQ.erase r,
                                            recon := some { r with left := s.board.dieCount, ready := s.clock + tSense s c } }) s
      let s := match s.med.ops.find? (fun o => o.id == r.op) with
        | some o => forEach (reconPos s o) (fun _ s => countHostRead (opFolio s o) s) (reconSenses o s)
        | none => s
      bump (96 + 8 * c + 7) 1 (chanCount 0x10003C c true s)
    | _, _ => s

/-- R96, R99: a reconstruction run is queued for an operation, and begins where none is in progress. -/
def reconStart (c op : Nat) (bypass : Bool) (s : State) : State :=
  reconNext c (modChan c (fun x => { x with reconQ := x.reconQ ++ [{ op := op, bypass := bypass, left := s.board.dieCount }] }) s)

/-- R96: an operation's line is delivered by a reconstruction run, queued or in progress. -/
def inRecon (s : State) (o : MOp) : Bool :=
  (chan s o.ch).recon.any (fun r => r.op == o.id) || (chan s o.ch).reconQ.any fun r => r.op == o.id

/-- R137, R138, R141, R82: the bin of an operation's next sense: in stamp search the bin last accepted on the channel, then 19
down to 0; on M2 the bin that the die chooses by its time and table in force; else the bin it names. -/
def senseBin (s : State) (o : MOp) (search : Bool) (stamp : BitVec 24) : Nat :=
  let d := tget default s.med.dies (dieKey o.ch (busPos s o))
  if search then (if o.searchAt == 0 then (chan s o.ch).lastBin else 20 - o.searchAt)
  else if s.board.m2.getLsbD o.ch && o.rereads == 0 && s.med.diesTimeValid then
    ((List.range 20).filter fun e => (tget 0 d.driftAct (0x40 + 2 * e)).toNat % 2 ^ 24 ≤ (s.med.diesTime - stamp).toNat).foldl max 0
  else o.bin

/-- R94, R115: the SENSE of a read goes out: its line is in the page buffer tSENSE after the bank can sense. -/
def senseSend (search : Bool) (o : MOp) (s : State) : State :=
  let c := o.ch
  let bank := bankOf s c o.m
  let pos := busPos s o
  let die := servePos s c pos o.m
  let bin := senseBin s o search (mline s (readKey s o)).stamp
  let ready := max s.clock (bankAt s c pos bank).senseFree + tSense s c
  let stamped := s.board.m2.getLsbD c && !search && o.rereads == 0
  let s := modBank c pos bank (fun b => { b with senseFree := ready, lastRead := s.clock }) s
  let s := sendDie c die ({ lineCmd s o 0x01 die with bin := if stamped then 0 else bin, stamped := stamped }).packet s
  s.modMed fun d => { d with ops := d.ops.map fun x => if x.id == o.id then { x with issued := true, readyAt := ready, bin := bin } else x }

/-- R101: a channel has room for a program or another maintenance operation. -/
def progRoom (s : State) (c : Nat) : Bool := inFlight s c .write + inFlight s c .maint < 96 && opsHeld s c < 128

/-- R101: an operation that is not in flight may begin. -/
def opRoom (s : State) (o : MOp) : Bool := if o.kind == .read then opsHeld s o.ch < 128 else progRoom s o.ch

/-- R115: a channel that mends its open stripes after a reinit serves no other read first. -/
def readHeld (s : State) (o : MOp) : Bool :=
  (chan s o.ch).mending && match o.purpose with | .stripeRead .. => false | _ => true

/-- An operation counts as in flight without a packet of its own. -/
def opIssue (id : Nat) (sent : Bool) (s : State) : State :=
  s.modMed fun d => { d with ops := d.ops.map fun x => if x.id == id then { x with issued := true, sent := x.sent || sent } else x }

/-- R96, R101, R131: what a read not yet sensed does: it waits while its channel has no room for it, or before its channel has
joined the frame. A bullion line of a dead die is reconstructed. On M2 with SUSPEND_EN a read of a busy bank suspends its
program (counted), and the bank senses 100 ns later; on M1 a bullion read starts a bypass reconstruction where none is queued or
runs, its stripe has a parity line to use, and RECON_EN is 1; else it waits for the bank. The second SENSE of a bank follows the
first after tSENSE (R115). -/
def readArrives (search : Bool) (op : MOp) (s : State) : State :=
  let c := op.ch
  let bank := bankOf s c op.m
  let pos := busPos s op
  let x := chan s c
  if op.issued || inRecon s op || x.state != .active || x.joining || readHeld s op || !opRoom s op then s
  else if op.bullion && !onParity op && dieDead s c op.pos op.m then
    if parityUsable s c op.m then reconStart c op.id true (opIssue op.id false s) else opIssue op.id true s
  else if !bankHeld s c pos bank then
    if s.clock < (bankAt s c pos bank).senseFree && !(bankAt s c pos bank).suspended then s else senseSend search op s
  else if s.board.m2.getLsbD c then
    if x.sched.getLsbD 1 && !(bankAt s c pos bank).stuck then senseSend search op (suspendSend c pos bank s) else s
  else if op.bullion && !onParity op && x.recon.isNone && x.reconQ.isEmpty && x.sched.getLsbD 2 && parityUsable s c op.m then
    reconStart c op.id true (opIssue op.id false s)
  else s

/-- R101, R94: the reads of a channel that wait for their SENSE, in order. -/
def sensesDue (c : Nat) (s : State) : State :=
  forEach (s.med.ops.filter fun o => o.ch == c && readsLine o && !o.issued) (fun o s => readArrives (opSearch s o) o s) s

/-- R107, R262: the channel of the counter block of a line, where the counter cache does not hold the block. -/
def ctrChan (s : State) (lineNo : Nat) : Option Nat :=
  let b := blockOf lineNo
  let v := tget cc0 s.cry.cache (b % max 1 (sc s))
  if v.valid && v.block == b then none else some (chOf s (runAt s.led.shelfDir (b / 8192)) (b % 8192))

/-- R232: a prefetch read, which an ordinary read goes before. -/
def isPrefetch (o : MOp) : Bool :=
  match o.purpose with
  | .prefetch _ => true
  | _ => false

/-- R105: the work ahead of a read at a channel: earlier ordinary reads that have not transferred, 64 ns or 128 ns each, or tSENSE
for one to the same bank, be it one that a run senses. -/
def workAhead (s : State) (c pos m : Nat) : Nat :=
  (s.med.ops.filter fun o => o.kind == .read && !isPrefetch o && o.ch == c && !o.sent).foldl (fun n o =>
    n + (if busPos s o == pos && bankOf s c o.m == bankOf s c m then tSense s c else if s.board.m2.getLsbD c then 64 else 128)) 0

/-- R105: the work ahead of an operation at the channels that it needs: its line's, and that of its line's counter block. -/
def workAll (s : State) (purpose : Purpose) (c pos m : Nat) : Nat :=
  let here := workAhead s c pos m
  match purpose with
  | .hostRead l =>
    (match ctrChan s l with
     | some d => max here (workAhead s d 99 m)
     | none => here)
  | _ => here

/-- The operation that is queued on a line (R101). -/
def newOp (kind : OpKind) (purpose : Purpose) (m o : Nat) (e : LEntry) (l : MLine) (s : State) : MOp :=
  let c := chOf s m o
  { id := s.med.nextOp, ch := c, kind := kind, purpose := purpose, pos := dieOf s o, m := m,
    row := rowOfLine s o, gen := e.gen, ready := true, sent := false, bin := binOf s e.stamp,
    rereads := 0, queuedAt := s.clock, line := l, late := false, tries := 0, spares := 0,
    bullion := e.bullion, sealed_ := e.sealed_, noAlloc := e.noAlloc, since := s.clock,
    ahead := workAll s purpose c (dieOf s o) m }

/-- Queue an operation. -/
def pushOp (op : MOp) (s : State) : State :=
  let s := s.modMed fun d => { d with ops := d.ops ++ [op], nextOp := d.nextOp + 1 }
  if readsLine op then readArrives (opSearch s op) op s else s

/-- R131: a bullion program to the line of a dead die reads the other data lines of the stripe first. -/
def needsStripe (s : State) (op : MOp) : Bool :=
  (match op.purpose with | .drain _ | .staging .. | .migWrite .. | .poisonWrite _ => true | _ => false) &&
    op.bullion && dieDead s op.ch op.pos op.m && parityUsable s op.ch op.m

/-- The read of a stripe's line at a position. -/
def stripeOp (s : State) (w : StripeWork) (p : Nat) : MOp :=
  let f := (revOf s w.m).owner
  let e := ent s f
  { id := s.med.nextOp, ch := w.ch, kind := .maint, purpose := .stripeRead w.m w.row p, pos := p, m := w.m, row := w.row,
    gen := e.gen, ready := true, sent := false, bin := binOf s e.stamp, rereads := 0, queuedAt := s.clock, line := blankLine,
    late := false, tries := 0, spares := 0, bullion := e.bullion, sealed_ := e.sealed_, since := s.clock }

/-- R126, R131, R132: the reads of a stripe's lines are queued. -/
def stripeStart (w : StripeWork) (s : State) : State :=
  if s.med.works.any (fun x => x.ch == w.ch && x.m == w.m && x.row == w.row && x.use == w.use) then s
  else
    forEach w.left (fun p s => pushOp (stripeOp s w p) s) (s.modMed fun d => { d with works := d.works ++ [w] })

/-- Queue a media operation on its line (R101). -/
def queueOp (kind : OpKind) (purpose : Purpose) (m o : Nat) (e : LEntry) (l : MLine) (s : State) : State :=
  let op := newOp kind purpose m o e l s
  let s := pushOp op s
  if needsStripe s op then
    stripeStart { ch := op.ch, m := m, row := op.row, use := .write op.id, left := (List.range s.board.dieCount).filter (· != op.pos) } s
  else s

/-- R98, R99: a reconstruction run in progress on a channel reads a stripe. -/
def runReads (s : State) (c m row : Nat) : Bool :=
  (chan s c).recon.any fun r => 0 < r.left && s.med.ops.any fun o => o.id == r.op && o.m == m && o.row == row

/-- R95: a read is queued for a bank: its own, or a line of the run in progress. -/
def readQueued (s : State) (c pos bank : Nat) : Bool :=
  (s.med.ops.any fun o => readsLine o && !o.sent && o.ch == c && busPos s o == pos && bankOf s c o.m == bank) ||
    (chan s c).recon.any fun r => 0 < r.left &&
      s.med.ops.any fun o => o.id == r.op && bankOf s c o.m == bank && (reconPos s o).contains pos

/-- R125: the program of an operation's line is an UPDATE followed by a MERGE: a bullion line whose die and whose parity die
serve it. -/
def twoStep (s : State) (o : MOp) : Bool :=
  (match o.purpose with | .drain _ | .staging .. | .migWrite .. | .poisonWrite _ => true | _ => false) &&
    o.bullion && !dieDead s o.ch o.pos o.m && parityUsable s o.ch o.m

/-- The die that an operation's next program acts on: the parity die for its MERGE, for a parity recomputation and for the line
of a dead die (R125, R126, R131). -/
def progPos (s : State) (o : MOp) : Nat :=
  match o.purpose with
  | .parity .. => 16
  | .restrikeLine _ off => if 16384 ≤ off || dieDead s o.ch o.pos o.m then 16 else o.pos
  | .blank | .mrr .. => o.pos
  | .rebuild .. => 17
  | _ => if o.updated || dieDead s o.ch o.pos o.m then 16 else o.pos

/-- R97: on M1 no other die of the channel programs the bank index, and no UPDATE holds it until its MERGE. -/
def indexFree (s : State) (o : MOp) : Bool :=
  let bank := bankOf s o.ch o.m
  s.board.m2.getLsbD o.ch ||
    (!((chan s o.ch).banks.any fun b => b.1 % 64 == bank && b.2.busy && b.2.op != o.id) &&
     !(s.med.ops.any fun x => x.ch == o.ch && x.updated && x.id != o.id && bankOf s x.ch x.m == bank))

/-- R73, R95, R96, R97: a program may start on the bank of an operation now. -/
def bankReady (s : State) (o : MOp) : Bool :=
  let bank := bankOf s o.ch o.m
  let pos := progPos s o
  !(bankAt s o.ch pos bank).busy && !readQueued s o.ch pos bank && indexFree s o &&
    ((chan s o.ch).banks.filter fun b => b.1 / 64 == pos && b.2.busy).length < bankLimit s o.ch

/-- R73: a free delta buffer of an operation's die. -/
def dbufFree (s : State) (o : MOp) : Option Nat :=
  (List.range 8).find? fun i => !s.med.ops.any fun x => x.ch == o.ch && x.pos == o.pos && x.updated && x.dbuf == i

/-! Intent pages (R150). -/

/-- R150: the key of a listed line. -/
def tornKey (pos m row : Nat) : Nat := pos * 2 ^ 45 + m * 2 ^ 15 + row

/-- R150: the controller writes intent pages: in the drain of a power-down, on a board that acts on declared hold-up. -/
def intentActs (s : State) : Bool :=
  holdupActs s && (s.pur.drain == .powerFail || s.pur.drain == .level4 || s.pur.drain == .critical)

/-- R150: the entries of a program: die position with chunk and row, and class and parity bits; its parity line follows. The
substitute of a scrip line is no parity line (R131). -/
def intentKeys (s : State) (o : MOp) : List (Nat × Nat × Nat) :=
  let cls := b2n o.bullion
  let par := (o.ch, tornKey 16 o.m o.row, cls + 2)
  if progPos s { o with updated := false } == 16 then [(o.ch, tornKey 16 o.m o.row, cls + 2 * b2n o.bullion)]
  else (o.ch, tornKey o.pos o.m o.row, cls) :: (if twoStep s o then [par] else [])

/-- R150: an operation is in its channel's intent page. -/
def inIntent (s : State) (o : MOp) : Bool := (intentKeys s o).all s.integ.torn.contains

/-- R150: the channel's intent page is still being written to the passbook. -/
def intentWriting (s : State) (c : Nat) : Bool := (s.pb.writing.toList ++ s.pb.writes).any fun w => w.addr == recIntent c

/-- R150: a batch of the channel has not completed. -/
def intentOpen (s : State) (c : Nat) : Bool :=
  s.med.ops.any fun o => o.ch == c && !readsLine o && !readsReg o && !blanks o && inIntent s o

/-- R98, R131, R132: a program may touch its stripe now: no run reads it and no rebuild holds it, and the lines that it needs
have been read. -/
def stripeFree (s : State) (o : MOp) : Bool :=
  !runReads s o.ch o.m o.row && !s.med.works.any fun w =>
    w.use == .write o.id || (w.ch == o.ch && w.m == o.m && w.row == o.row &&
      match w.use, o.purpose with | .rebuild _, .rebuild .. => false | .rebuild _, _ => true | _, _ => false)

/-- R94: an operation is ready for a slot now: a read when its line is in the page buffer (one that a reconstruction run
delivers takes none of its own); an MRR at once; a program when its bank may start it, its stripe is free, the ALLOC of its folio
is complete (R169) and the channel has room for it (R101); a MERGE when the delta frame is in DBUF (R125). A BLANK takes none. -/
def opReady (s : State) (o : MOp) : Bool :=
  if blanks o then false
  else if readsReg o then !o.sent && progRoom s o.ch
  else if readsLine o then !o.sent && o.issued && o.readyAt ≤ s.clock && !inRecon s o
  else !o.sent && o.readyAt ≤ s.clock && bankReady s o && stripeFree s o && !(pendingAllocs s).contains o.m &&
      !(intentActs s && !inIntent s o && intentOpen s o.ch) && !(intentActs s && inIntent s o && intentWriting s o.ch) &&
      (o.issued || progRoom s o.ch) &&
      (o.updated || !twoStep s o || (dbufFree s o).isSome)

/-! Slot maps (R89-R104). -/

/-- Slots per frame of a channel (R87). -/
def slotCount (s : State) (c : Nat) : Nat := if s.board.m2.getLsbD c then 32 else 16

/-- Slot length in ns (R87). -/
def slotLen (s : State) (c : Nat) : Nat := 1024 / slotCount s c

/-- R89: the kind of position p of a map: 0 read, 1 write, 2 maintenance, 3 idle. -/
def kindAt (map : BitVec 64) (p : Nat) : Nat := bits map.toNat (2 * p) 2

/-- R104: the rank of position p among the positions of its kind. -/
def rankAt (map : BitVec 64) (p : Nat) : Nat := ((List.range p).filter fun q => kindAt map q == kindAt map p).length

/-- R91: a map is valid. -/
def mapValid (m2 : Bool) (map : BitVec 64) : Bool :=
  let n := if m2 then 32 else 16
  let ps := List.range n
  ps.all (fun p => kindAt map p == 0 || kindAt map ((p + 1) % n) == 0) &&
    (if m2 then 4 else 2) ≤ (ps.filter fun p => kindAt map p == 1).length &&
    1 ≤ (ps.filter fun p => kindAt map p == 2).length

/-- R103, R104: what position p carries in force: none for a slot that carries nothing. -/
def slotKind (s : State) (c p : Nat) : Option Nat :=
  let x := chan s c
  let k := kindAt x.map p
  let r := rankAt x.map p
  match k with
  | 0 => if x.thermal == 3 && r % 4 == 0 then none else some 0
  | 1 =>
    let idle := (x.quiet && !s.pur.metered) || (x.thermal == 1 && r % 4 == 0) || (2 ≤ x.thermal && r % 2 == 0)
    if idle then (if x.thermal == 3 then none else some 3) else some 1
  | 2 => if x.quiet then (if x.thermal == 3 then none else some 3) else some 2
  | _ => if x.thermal == 3 then none else some 3

/-- R210, R481: in the drain of a trip or of a critical stop every slot serves the drain, and no slot is taken for the thermal step or
quiet. -/
def slotServes (s : State) (c p : Nat) : Option Nat :=
  if s.pur.drain == .powerFail || s.pur.drain == .critical then some 1 else slotKind s c p

/-- R110: the map in force, with slots that carry nothing shown as idle. -/
def mapInForce (s : State) (c : Nat) : Nat :=
  (List.range (slotCount s c)).foldl (fun n p => n + (slotKind s c p).getD 3 * 4 ^ p) 0

/-- R133: a slot of kind k serves a rebuild: a maintenance slot, and with BOOST a write slot while the till is below low water. -/
def rebuildSlot (s : State) (k : Nat) : Bool := k == 2 || (k == 1 && bit (rval s 0x200020) 16 && occupancy s < lowWater s)

/-- R94: the order in which a slot of a kind serves operations. -/
def slotOrder (lend : Bool) (k : Nat) : List OpKind :=
  match k with
  | 0 => if lend then [.read, .write, .maint] else [.read, .maint]
  | 1 => [.write, .read, .maint]
  | 2 => [.maint, .read, .write]
  | _ => [.read]

/-- R133, R412: an operation waits for a slot that no other takes: settlement's reads, and a rebuild's where the slot does not
serve it. -/
def slotLast (s : State) (k : Nat) (o : MOp) : Bool :=
  match o.purpose with
  | .take .settle _ => true
  | .rebuild .. => !rebuildSlot s k
  | .stripeRead m row _ => (s.med.works.any fun w => w.ch == o.ch && w.m == m && w.row == row &&
      (match w.use with | .rebuild _ => true | _ => false)) && !rebuildSlot s k
  | _ => false

/-- R94, R95, R232: the operation that a slot of kind k goes to; a prefetch after every ordinary read. -/
def slotPick (s : State) (c k : Nat) : Option MOp :=
  (slotOrder ((chan s c).sched.getLsbD 0) k).findSome? fun kind =>
    let mine := (s.med.ops.filter fun o => o.ch == c && o.kind == kind && !o.sent && !slotLast s k o)
    let mine := if kind == .read then (mine.filter fun o => !isPrefetch o) ++ mine.filter isPrefetch else mine
    (mine.take (if kind == .write then 8 else 4096)).find? (opReady s)

/-- R412: the read of settlement's own that a slot left over transfers. -/
def slotSpare (s : State) (c : Nat) : Option MOp :=
  s.med.ops.find? fun o => o.ch == c && !o.sent && opReady s o && match o.purpose with | .take .settle _ => true | _ => false

/-- R96-R98: a program starts on the bank of a die. -/
def bankStart (o : MOp) (pos : Nat) (s : State) : State :=
  modBank o.ch pos (bankOf s o.ch o.m) (fun b => { b with busy := true, suspended := false, op := o.id }) s

/-- R96: the banks of a finished operation are free, on its die and on the parity die. -/
def bankEnd (o : MOp) (s : State) : State :=
  modChan o.ch (fun x => { x with banks := x.banks.map fun b =>
    if b.2.busy && b.2.op == o.id then (b.1, { b.2 with busy := false, suspended := false, op := 0, stuck := false }) else b }) s

/-- Take an operation out of flight; its channel no longer holds what it held when the frame began (R114). -/
def dropOp (id : Nat) (s : State) : State :=
  s.modMed fun d => { d with ops := d.ops.filter fun o => o.id != id,
                             chans := d.chans.map fun e =>
                               if e.2.fullFrame && d.ops.any fun o => o.id == id && o.ch == e.1 && o.issued then
                                 (e.1, { e.2 with fullFrame := false }) else e }

/-- An operation by its number. -/
def findOp (s : State) (id : Nat) : Option MOp := s.med.ops.find? fun o => o.id == id

/-- Update of an operation. -/
def modOp (id : Nat) (f : MOp → MOp) (s : State) : State :=
  s.modMed fun d => { d with ops := d.ops.map fun o => if o.id == id then f o else o }

/-! Spare lines (R146-R148). -/

/-- R147: spare entries in use on a die. -/
def sparesUsed (s : State) (c pos : Nat) : List (Nat × BitVec 32) :=
  s.integ.repairs.filter fun e => e.1 / 256 == dieKey c pos && e.2.getLsbD 29

/-- R152: free spare entries on a die. -/
def spareFree (s : State) (c pos : Nat) : Nat := 256 - (sparesUsed s c pos).length

/-- R147: choose, record and send a free spare entry for a line; none where there is no entry or no room in the
bank's pool of 8. The lowest-numbered free entry is taken (DESIGN CHOICE, log entry 69). -/
def spareTake (c pos bank brow : Nat) (s : State) : Option State :=
  let used := sparesUsed s c pos
  let inBank := (used.filter fun e => bits e.2.toNat 23 6 == bank).length
  match (List.range 256).find? (fun i => !used.any fun e => e.1 % 256 == i) with
  | some i =>
    if 8 ≤ inBank then none
    else
      let v := BitVec.ofNat 32 (brow % 2 ^ 23 + bank % 64 * 2 ^ 23 + 2 ^ 29)
      let s := s.modInteg fun x => { x with repairs := tput 0 x.repairs (dieKey c pos * 256 + i) v }
      let s := recordQueue (0x080000 + (dieKey c pos * 256 + i) * 4) s
      let s := s.modMed fun x => { x with dies := tmod default x.dies (dieKey c pos) fun y => { y with regs := tput 0 y.regs (0x100 + i) v } }
      let s := bump 453 1 (rinc (sendCtl c pos (remapPacket pos bank brow i) s) 0x200054 1)
      let s := raise 4 4 0x01 (det2 c pos bank brow i) s
      some (if spareFree s c pos == 16 then raise 4 4 0x02 (det2 c pos 0 0 16) s else s)
  | none => none

/-! Drift times of the dies (R84). -/

/-- R84: DIE_TIME is written to every die of the active M2 channels by broadcast MRW. -/
def dieTimeSend (n : Nat) (valid : Bool) (s : State) : State :=
  let s := s.modMed fun d => { d with timeUpdated := n, diesTime := BitVec.ofNat 24 n, diesTimeValid := valid }
  forEach ((popChans s).filter fun c => s.board.m2.getLsbD c && (chan s c).state == .active)
    (fun c s => sendCtl c 31 (mrwPacket 31 3 (n % 2 ^ 24 + b2n valid * 2 ^ 31)) s) s

end Sys2Proof.Machine
end

