-- ==== Sys2Proof/Machine/SlotEcc.lean ====
section
/-! DEFINITION. The inline ECC of a purse slot: its 288-byte image with three Reed-Solomon codewords, and what the home slice
reads where DRAM cells have changed (R195, R198, R199). -/

namespace Sys2Proof.Machine

/-! GF(2^8) and the code of R198. A codeword's first byte has the highest degree, and the generator has the roots alpha^0 to
alpha^(2t-1) (DESIGN CHOICE, log entry 80). -/

/-- R198: a product in GF(2^8) under x^8 + x^4 + x^3 + x^2 + 1. -/
def gf8Mul (a b : Nat) : Nat :=
  (List.range 8).foldl (fun r i =>
    let d := 2 * r
    let d := if 256 ≤ d then d ^^^ 0x11D else d
    if b.testBit (7 - i) then d ^^^ a else d) 0

/-- A power in GF(2^8). -/
def gf8Pow (a : Nat) : Nat → Nat
  | 0 => 1
  | n + 1 => gf8Mul a (gf8Pow a n)

/-- The inverse in GF(2^8). -/
def gf8Inv (a : Nat) : Nat := gf8Pow a 254

/-- The value at x of a polynomial, highest degree first. -/
def rsEval (x : Nat) (p : List Nat) : Nat := p.foldl (fun r c => gf8Mul r x ^^^ c) 0

/-- The generator of 2t roots, highest degree first. -/
def rsGen (roots : Nat) : List Nat :=
  (List.range roots).foldl (fun p i =>
    List.zipWith (· ^^^ ·) (p ++ [0]) (0 :: p.map (gf8Mul (gf8Pow 2 i)))) [1]

/-- R198: the check bytes of a message. -/
def rsParity (roots : Nat) (msg : List Nat) : List Nat :=
  let g := (rsGen roots).tail
  msg.foldl (fun r c =>
    let q := c ^^^ r.headD 0
    List.zipWith (· ^^^ ·) (r.tail ++ [0]) (g.map (gf8Mul q))) (List.replicate roots 0)

/-- The syndromes of a received word. -/
def rsSyndromes (roots : Nat) (w : List Nat) : List Nat := (List.range roots).map fun i => rsEval (gf8Pow 2 i) w

/-- One step of Berlekamp and Massey: the locator, lowest degree first, the one before the last change of length, its
discrepancy, the shift and the length. -/
def bmStep (syn : List Nat) (st : List Nat × List Nat × Nat × Nat × Nat) (n : Nat) : List Nat × List Nat × Nat × Nat × Nat :=
  let (c, b, bd, m, l) := st
  let d := (List.range (l + 1)).foldl (fun r i => r ^^^ gf8Mul (c.getD i 0) (syn.getD (n - i) 0)) 0
  if d == 0 then (c, b, bd, m + 1, l)
  else
    let q := gf8Mul d (gf8Inv bd)
    let t := List.replicate m 0 ++ b.map (gf8Mul q)
    let k := max c.length t.length
    let c' := (List.range k).map fun i => c.getD i 0 ^^^ t.getD i 0
    if 2 * l ≤ n then (c', c, d, 1, n + 1 - l) else (c', b, bd, m + 1, l)

/-- The value at x of a polynomial, lowest degree first. -/
def polyAt (x : Nat) (p : List Nat) : Nat := rsEval x p.reverse

/-- R198: a received word decoded within t byte errors: the word and the number of bytes corrected; none where the code
detects more. -/
def rsDecode (t : Nat) (w : List Nat) : Option (List Nat × Nat) :=
  let syn := rsSyndromes (2 * t) w
  if syn.all (· == 0) then some (w, 0)
  else
    let (c, _, _, _, l) := (List.range (2 * t)).foldl (bmStep syn) ([1], [1], 1, 1, 0)
    let deg := w.length - 1
    let at_ := (List.range w.length).filter fun i => polyAt (gf8Inv (gf8Pow 2 (deg - i))) c == 0
    if t < l || at_.length != l then none
    else
      let omega := (List.range (2 * t)).map fun k =>
        (List.range (k + 1)).foldl (fun r i => r ^^^ gf8Mul (c.getD i 0) (syn.getD (k - i) 0)) 0
      let fixed := (w.zip (List.range w.length)).map fun e =>
        if at_.contains e.2 then
          let x := gf8Pow 2 (deg - e.2)
          let xi := gf8Inv x
          let dv := polyAt xi ((List.range (c.length - 1)).map fun i => if i % 2 == 0 then c.getD (i + 1) 0 else 0)
          e.1 ^^^ gf8Mul x (gf8Mul (polyAt xi omega) (gf8Inv dv))
        else e.1
      if (rsSyndromes (2 * t) fixed).all (· == 0) then some (fixed, l) else none

/-! The image of a slot (R195). -/

/-- Bytes lo to lo + n - 1 of an image, byte 0 in the low bits. -/
def imageBytes (x : BitVec 2304) (lo n : Nat) : List Nat := (List.range n).map fun i => (x.extractLsb' (8 * (lo + i)) 8).toNat

/-- Bytes as a number, the first in the low bits. -/
def bytesNat (bs : List Nat) : Nat := bs.foldr (fun b r => b + 256 * r) 0

/-- R195: the tag word. -/
def tagWord (p : PSlot) : Nat :=
  p.quot % 2 ^ 16 + p.gen6.toNat * 2 ^ 16 + b2n p.valid * 2 ^ 22 + b2n p.dirty * 2 ^ 23 + b2n p.queued * 2 ^ 24 +
    b2n p.draining * 2 ^ 25 + b2n p.line.poison * 2 ^ 26 + p.line.rewritten.toNat * 2 ^ 27

/-- R195, R198: bytes 0 to 267 of a slot. -/
def slotBody (p : PSlot) : BitVec 2304 :=
  BitVec.ofNat 2304 (p.line.data.toNat + tagWord p * 2 ^ 2048 + p.line.hallmark.toNat * 2 ^ 2080)

/-- The bytes of a list at even (0) or odd (1) places. -/
def everyOther (k : Nat) (bs : List Nat) : List Nat :=
  ((bs.zip (List.range bs.length)).filter fun e => e.2 % 2 == k).map (·.1)

/-- R195, R198: the 288 bytes of a slot with its inline ECC. -/
def slotImage (p : PSlot) : BitVec 2304 :=
  let b := slotBody p
  let line := imageBytes b 0 256
  let ecc := rsParity 4 (imageBytes b 256 12) ++ rsParity 8 (everyOther 0 line) ++ rsParity 8 (everyOther 1 line)
  b ||| BitVec.ofNat 2304 (bytesNat ecc * 2 ^ 2144)

/-- What a read of a slot gives. -/
inductive SlotRead where
  /-- the slot, and the codewords corrected -/
  | good (p : PSlot) (n : Nat)
  /-- the line is uncorrectable, the line metadata is correct; the codewords corrected -/
  | lineBad (n : Nat)
  /-- the line metadata is uncorrectable -/
  | metaBad
deriving DecidableEq, Repr

/-- The slot that decoded bytes spell; what the controller keeps beside the slot stays. -/
def slotParse (line md : List Nat) (p : PSlot) : PSlot :=
  let t := bytesNat (md.take 4)
  { p with quot := t % 2 ^ 16, gen6 := BitVec.ofNat 6 (t / 2 ^ 16), valid := t.testBit 22, dirty := t.testBit 23,
           queued := t.testBit 24, draining := t.testBit 25,
           line := { data := BitVec.ofNat 2048 (bytesNat line), hallmark := BitVec.ofNat 64 (bytesNat (md.drop 4)),
                     poison := t.testBit 26, rewritten := BitVec.ofNat 4 (t / 2 ^ 27) } }

/-- R198: decode what stands in a slot's cells. -/
def slotDecode (raw : BitVec 2304) (p : PSlot) : SlotRead :=
  let line := imageBytes raw 0 256
  match rsDecode 2 (imageBytes raw 256 12 ++ imageBytes raw 268 4) with
  | none => .metaBad
  | some (md, n) =>
    match rsDecode 4 (everyOther 0 line ++ imageBytes raw 272 8), rsDecode 4 (everyOther 1 line ++ imageBytes raw 280 8) with
    | some (ev, i), some (od, j) =>
      .good (slotParse (((ev.take 128).zip (od.take 128)).flatMap fun e => [e.1, e.2]) (md.take 12) p)
        (b2n (n != 0) + b2n (i != 0) + b2n (j != 0))
    | _, _ => .lineBad (b2n (n != 0))

/-! What a home slice does with a slot that it reads (R198, R199). -/

/-- R198: n codewords of a slot were corrected; PUR_CNT_CORR counts each of them (DESIGN CHOICE, log entry 96). -/
def slotCorrected (n : Nat) (s : State) : State := if n == 0 then s else rbit (rinc s 0x80018 n) 0x80004 8

/-- R199: a slot is uncorrectable: the count, ECC_UNCORR, and the time for R484. -/
def slotUncorr (s : State) : State :=
  rbit (rinc (s.modPur fun u => { u with uncorrTimes := (u.uncorrTimes ++ [s.clock]).drop (u.uncorrTimes.length - 15) }) 0x8001C 1)
    0x80004 9

/-- R199: the entries of a slice's lost-slot table. -/
def lostOf (s : State) (slice : Nat) : List (Nat × Nat × Nat) := s.pur.lostSlots.filter fun e => e.2.2 == slice

/-- R199: the slot that an access waits for, where its slice's lost-slot table of 64 entries is full. -/
def lostFull (s : State) (slice : Nat) : Option Nat :=
  if (lostOf s slice).length < 64 then none else ((lostOf s slice).head?).map (·.1)

/-- The slot's cells are read as its contents are, the changed cells standing as they are. -/
def slotReread (k : Nat) (raw : BitVec 2304) (p : PSlot) (s : State) : State :=
  s.modPur fun u => { u with slots := tput pslot0 u.slots k p, flips := tput 0 u.flips k (raw ^^^ slotImage p) }

/-- R199: the slot of line l, whose line is uncorrectable: a dirty line is poisoned and logged, a clean one dropped. -/
def slotLineBad (l : Nat) (s : State) : State :=
  let k := slotNo s l
  let p := slotOf s l
  let s := slotUncorr s
  let dpa := (p.quot * purseSlots s + k) * 256
  let s := raise 9 7 0x01 (det1 dpa (ent s (folioOf (dpa / 256))).key 0 0) s
  if p.valid && p.dirty then
    cxlAppend .a 2 (2 ^ 50 + dpa) 0 (setSlot k { p with line := { p.line with poison := true, rewritten := 0 } } s)
  else setSlot k pslot0 s

/-- R199: the slot's line metadata is uncorrectable: it enters the slice's lost-slot table; the slot to wait for. -/
def slotMetaBad (l : Nat) (s : State) : Option Nat × State :=
  let k := slotNo s l
  match lostFull s (sliceOf s l) with
  | some k' => (some k', s)
  | none =>
    let s := raise 9 7 0x02 (det3 k 0) (rbit (slotUncorr s) 0x80004 10)
    (some k, s.modPur fun u => { u with lostSlots := u.lostSlots ++ [(k, s.clock, sliceOf s l)] })

/-- R198, R199: the home slice reads the slot of line l; the lost slot that the access then waits for. -/
def slotCheck (l : Nat) (s : State) : Option Nat × State :=
  let k := slotNo s l
  let flips := tget 0 s.pur.flips k
  if flips == 0 then (none, s)
  else
    let raw := slotImage (slotOf s l) ^^^ flips
    match slotDecode raw (slotOf s l) with
    | .good p n => (none, slotCorrected n (if p == slotOf s l then s else slotReread k raw p s))
    | .lineBad n => (none, slotLineBad l (slotCorrected n s))
    | .metaBad => slotMetaBad l s

end Sys2Proof.Machine
end

