-- ==== Sys2Proof/Machine/Access.lean ====
section
/-! DEFINITION. The plaintext of a line and its re-encryption, shared by every requester of device memory: what
a line's source holds, poison, merges, counter reinitialisation, recoinage, the debt map and the mirror hook
(R15, R49, R128, R249-R257, R265-R275, R398-R409). -/

namespace Sys2Proof.Machine

/-! Poison (R49, R128). -/

/-- R377: the poison list gains a line. -/
def poisonListAdd (lineNo syn : Nat) (s : State) : State :=
  s.modInteg fun i => { i with poisonList := (i.poisonList.filter fun e => e.1 != lineNo) ++ [(lineNo, syn)] }

/-- R377: the poison list loses a line. -/
def poisonListDrop (lineNo : Nat) (s : State) : State :=
  s.modInteg fun i => { i with poisonList := i.poisonList.filter fun e => e.1 != lineNo }

/-- R128: set POISON on a line that the till holds dirty. -/
def poisonInTill (lineNo : Nat) (s : State) : State :=
  match evbFind s lineNo with
  | some x => s.modPur fun u =>
      { u with evb := u.evb.map fun y => if y == x then { y with line := { y.line with poison := true, rewritten := 0 } } else y }
  | none =>
    let k := slotNo s lineNo
    let p := slotOf s lineNo
    if slotHit s lineNo p then setSlot k { p with line := { p.line with poison := true, rewritten := 0 } } s else s

/-- R128, R251: the line stays poisoned where it stands: on media, by a write of its own in the maintenance pass, or in the till
that will drain it; not for the syndromes 0x6 and 0x9 to 0xC. -/
def poisonStore (lineNo syn : Nat) (s : State) : State :=
  if syn == 0x6 || 0x9 ≤ syn then s
  else
    let e := ent s (folioOf lineNo)
    let s := poisonListAdd lineNo syn s
    if inTill s lineNo then poisonInTill lineNo s
    else if e.media == noFolio || syn == 0x7 || s.med.ops.any (fun o => o.purpose == .poisonWrite lineNo) then s
    else queueOp .maint (.poisonWrite lineNo) e.media (lineNo % 8192) e (poisonLine s e (lineNo % 8192)) s

/-- R128: a poisoned line is returned to a host access (`h`) or to another requester. -/
def poisonReturn (lineNo sector syn key : Nat) (h : Option Head) (s : State) : State :=
  let dpa := lineNo * 256 + sector * 64
  let s := cxlAppend (h.getD .a) 2 (0x1000000 + dpa) syn s
  let s := rset (rset s 0x200060 (BitVec.ofNat 32 dpa)) 0x200064
    (BitVec.ofNat 32 (dpa / 2 ^ 32 % 2 ^ 13 + syn % 16 * 2 ^ 16 + key % 128 * 2 ^ 20))
  let s := rbit (rinc s 0x20004C 1) 0x200000 9
  let s := if 0x8 ≤ syn && syn ≤ 0xA then iceLast dpa syn key false h s else s
  let s := bump 451 1 s
  poisonStore lineNo syn (raise 4 0 0x03 ((det1 dpa key syn 0).on (h.getD .a)) s)

/-! The coin presses on a stored line. -/

/-- R257: a hallmark that does not verify is counted and raised once per millisecond. -/
def hallmarkFail (lineNo key : Nat) (s : State) : State :=
  raiseMs 6 0 0x04 (det1 (lineNo * 256) key 0x8 0) (rbit (rinc (bump 514 1 s) 0x300040 1) 0x300000 8)

/-- R275, R257: the old counter block of a recoinage page that names a block. -/
def oldBlock (s : State) (b : Nat) : Option CtrBlock :=
  (s.cry.pagesRc.find? fun e => e.2.block == b).map fun e => e.2.old

/-- The plaintext of a stored ciphertext under the folio's owner, or the syndrome (R250) for which it cannot be
given: 0xA beneath a faulted node, 0x9 with a lost block, 0xC without the key, 0x8 where the hallmark fails. -/
def press (lineNo : Nat) (ct : Line) (hm : BitVec 64) (s : State) : Except Nat Line × State :=
  let k := (ent s (folioOf lineNo)).key
  let b := blockOf lineNo
  if inWindow s lineNo && treeFaulted s (wIndex b) then (.error 0xA, s)
  else
    match ctrFetch (sc s) b s with
    | (none, s) => if inWindow s lineNo && treeFaulted s (wIndex b) then (.error 0xA, s) else (.error 0x9, s)
    | (some c, s) =>
      if inWindow s lineNo && treeFaulted s (wIndex b) then (.error 0xA, s)
      else
        match domKey s k with
        | none => (.error 0xC, s)
        | some dk =>
          let s := derivedKey k b c.major s
          match openLine dk k lineNo c ct hm with
          | some d => (.ok d, bump 513 1 s)
          | none =>
            match oldBlock s b with
            | some c' =>
              match openLine dk k lineNo c' ct hm with
              | some d => (.ok d, bump 513 1 s)
              | none => (.error 0x8, hallmarkFail lineNo k s)
            | none => (.error 0x8, hallmarkFail lineNo k s)

/-- What a merge or a read works on: the line's plaintext, its stored form, and its poison. -/
structure Base where
  /-- plaintext; zero where the line holds no data -/
  plain : Line
  /-- the stored ciphertext and hallmark; none for a line that reads as zeros -/
  stored : Option (Line × BitVec 64)
  /-- the line is poisoned -/
  poison : Bool
  /-- sectors rewritten since (R49) -/
  rewritten : BitVec 4
  /-- syndrome that its poison returns with -/
  syn : Nat
deriving DecidableEq, Repr

/-- A line that reads as zeros. -/
def baseZero : Base := { plain := 0, stored := none, poison := false, rewritten := 0, syn := 0 }

/-- A poisoned line. -/
def basePoison (syn : Nat) : Base := { plain := 0, stored := none, poison := true, rewritten := 0, syn := syn }

/-- The base of a stored line; a poisoned till line returns syndrome POISON_STORED (log entry 26). -/
def baseStored (lineNo : Nat) (ct : Line) (hm : BitVec 64) (poison : Bool) (rew : BitVec 4) (s : State) : Base × State :=
  if poison && rew == 0 then ({ basePoison 0x6 with stored := some (ct, hm) }, s)
  else
    match press lineNo ct hm s with
    | (.ok d, s) => ({ plain := d, stored := some (ct, hm), poison := poison, rewritten := rew, syn := 0x6 }, s)
    | (.error syn, s) => ({ basePoison syn with stored := some (ct, hm) }, s)

/-- A media line as a miss delivered it, with the histogram classes of R438 that its read adds. -/
structure Filled where
  /-- the line -/
  res : LineRes
  /-- classes -/
  classes : List Nat
  /-- ledger generation of the read (R156) -/
  gen : BitVec 24
deriving DecidableEq, Repr

/-- The base of a delivered media line. -/
def baseFilled (lineNo : Nat) (r : LineRes) (s : State) : Base × State :=
  match r with
  | .zero => (baseZero, s)
  | .poison syn => (basePoison syn, s)
  | .good l => baseStored lineNo l.data l.hallmark false 0 s

/-- R43: the folio has contents on media. -/
def hasMedia (s : State) (lineNo : Nat) : Bool := (ent s (folioOf lineNo)).media != noFolio

/-- R257: a clean purse line whose hallmark failed loses its slot. -/
def slotInvalidate (lineNo : Nat) (s : State) : State :=
  let p := slotOf s lineNo
  if (evbFind s lineNo).isNone && slotHit s lineNo p && !p.dirty then setSlot (slotNo s lineNo) pslot0 s else s

/-- The line without a media read: from the till or the purse, from a delivered miss, or as zeros; none where media
must be read (R15, R43, R257). -/
def baseNow (lineNo : Nat) (fill : Option Filled) (s : State) : Option Base × State :=
  let other (s : State) : Option Base × State :=
    match fill with
    | some r => let (b, s) := baseFilled lineNo r.res s; (some b, s)
    | none => if hasMedia s lineNo then (none, s) else (some baseZero, s)
  match cachedLine s lineNo with
  | none => other s
  | some p =>
    let (b, s) := baseStored lineNo p.data p.hallmark p.poison p.rewritten s
    if b.poison && b.syn == 0x8 && !inTill s lineNo then other (slotInvalidate lineNo s) else (some b, s)

/-! Reservations (R323-R325). -/

/-- R324: reservations that a predicate picks are lost with a DETAIL; a spurious loss is counted. -/
def resvLose (p : Resv → Bool) (detail : Nat) (s : State) : State :=
  let n := (s.mov.resv.filter fun r => p r && r.lost == 0).length
  let s := s.modMov fun m => { m with resv := m.resv.map fun r => if p r && r.lost == 0 then { r with lost := detail + 1 } else r }
  if detail == 1 && 0 < n then rinc s 0x40004C n else s

/-- R324, R325: a write to a line by a queue or another requester loses its reservations; a senior one is lost to no
other mover queue. -/
def resvWrite (q : Option Nat) (lineNo : Nat) (s : State) : State :=
  resvLose (fun r => r.lineNo == lineNo && !(r.senior && q.isSome && q != some r.q)) 0 s

/-- R324: REMAP, instant zero, release or recoinage touches lines. -/
def resvTouch (p : Nat → Bool) (s : State) : State := resvLose (fun r => p r.lineNo) 1 s

/-! Encryption and merge. -/

/-- R269, R274: a write to a line whose minor counter is spent must wait for a recoinage. -/
def minorSpent (s : State) (lineNo : Nat) : Bool :=
  match (ctrFetch (sc s) (blockOf lineNo) s).1 with
  | some c => minorOf c lineNo == 0xFFFFFF
  | none => false

/-- R268, R265: encrypt a line for the purse under its next counter: the stored form, or none where a lost block
cannot be reinitialised, or no key is loaded. -/
def encLine (lineNo : Nat) (plain : Line) (s : State) : Option (Line × BitVec 64) × State :=
  let k := (ent s (folioOf lineNo)).key
  let b := blockOf lineNo
  match domKey s k with
  | none => (none, s)
  | some dk =>
    let (c, s) :=
      match ctrFetch (sc s) b s with
      | (some c, s) => (some c, s)
      | (none, s) => ctrReinit b s
    match c with
    | none => (none, s)
    | some c =>
      let c := minorBump c lineNo
      let s := ctrStore (sc s) b c s
      (some (sealLine dk k lineNo c plain), bump 512 1 (derivedKey k b c.major s))

/-- The merge counters of the home slice (R432). -/
def sliceCount (lineNo k : Nat) (s : State) : State := bump (352 + 8 * sliceOf s lineNo + k) 1 s

/-- Merge a new plaintext into a line (R15, R49): whole sectors `full` become rewritten, and poison that is fully
rewritten is kept until the drain clears it. False where the write is discarded (R266). -/
def mergeLine (lineNo : Nat) (plain : Line) (poison : Bool) (rew : BitVec 4) (s : State) : Bool × State :=
  match encLine lineNo plain s with
  | (none, s) => (false, s)
  | (some (ct, hm), s) =>
    (true, sliceCount lineNo 2 (placeDirty lineNo { data := ct, hallmark := hm, poison := poison, rewritten := rew } s))

/-- One write to a sector of a line. -/
structure SecWrite where
  /-- the sector, 0 to 3 -/
  sector : Nat
  /-- data -/
  data : Sector
  /-- byte enables -/
  en : BitVec 64
  /-- the data carries poison -/
  poison : Bool
deriving DecidableEq, Repr

/-- R340: a write whose data carries poison: POISON is set, REWRITTEN cleared, and no data written. -/
def mergePoison (lineNo : Nat) (b : Base) (s : State) : Bool × State :=
  match b.stored with
  | some (ct, hm) =>
    (true, sliceCount lineNo 2 (placeDirty lineNo { data := ct, hallmark := hm, poison := true, rewritten := 0 } s))
  | none => mergeLine lineNo b.plain true 0 s

/-- Apply a sector write to the base of its line. -/
def mergeSector (lineNo : Nat) (b : Base) (w : SecWrite) (s : State) : Bool × State :=
  if w.poison then mergePoison lineNo b s
  else
    let full := w.en == BitVec.allOnes 64
    let d := mergeBytes (lineSector b.plain w.sector) w.data w.en
    let rew := if b.poison && full then b.rewritten ||| (1 <<< w.sector) else b.rewritten
    mergeLine lineNo (setSector b.plain w.sector d) b.poison rew s

/-- R49: a read of a sector of the base: its data, or poison with its syndrome. -/
def readSector (b : Base) (sector : Nat) : Except Nat Sector :=
  if b.poison && !b.rewritten.getLsbD sector then .error b.syn else .ok (lineSector b.plain sector)

/-- A line of a media folio as it stands under an entry that names it, without a read of its own: what a swap leaves to reads
translated before it (R15), a staged line (R236), the recoinages of an abandoned set (R273) and the check of a recoinage page before
service (R275) find. The line decodes without correction (DESIGN CHOICE, log entry 78); the checks of R122, the reconstruction of R127
and the service of a dead die (R131, R134) are those of every read. -/
def mediaAt (s : State) (e : LEntry) (o : Nat) : LineRes :=
  if e.media == noFolio then .zero
  else
    let c := chOf s e.media o
    let subst := dieDead s c (dieOf s o) e.media
    let l := mline s (if subst then parityKey e.media c (rowOfLine s o) else lineKey e.media o)
    let viaStripe (fail : Nat) : LineRes :=
      match reconstruct s e.media o with
      | some x => reconLine s c e e.gen x
      | none => .poison fail
    if subst && !parityUsable s c e.media then .poison (if e.bullion then 0x2 else 0x3)
    else if subst && e.bullion then viaStripe 0x2
    else
      match checkLine s c e e.gen l with
      | some r => if subst && r == .zero then .poison 0x3 else r
      | none =>
        if subst then .poison 0x3
        else if e.bullion then viaStripe 0x5 else .poison 0x5

/-- A line of a host folio on media as it stands. -/
def mediaNow (s : State) (lineNo : Nat) : LineRes := mediaAt s (ent s (folioOf lineNo)) (lineNo % 8192)

/-- R139: a drift re-read on an M1 channel counts for its folio; at the limit the whole folio is restruck. Past the limit the count goes
on, and the folio is not restruck again before it leaves the table (DESIGN CHOICE, log entry 95). -/
def rereadNote (c f : Nat) (s : State) : State :=
  let s := bump (96 + 8 * c + 5) 1 (chanCount 0x100038 c true s)
  if s.board.m2.getLsbD c then s
  else
    let (s, n) := countReread f s
    let lim := bits (rval s 0x20000C) 16 8
    if lim != 0 && n == lim then
      raise 4 3 0x03 (det3 f n) (queueFolioRestrike f (s.modInteg fun i => { i with wholeStrikes := (i.wholeStrikes ++ [f]).dedup }))
    else s

/-! Reads of the controller's own (R15, R89). -/

/-- R115: the channel of a line has failed. -/
def channelFailed (s : State) (lineNo : Nat) : Bool :=
  let e := ent s (folioOf lineNo)
  (chan s (chOf s e.media (lineNo % 8192))).state == .failed

/-- The read operation outstanding for a line under its folio's generation (R15). -/
def missOf (s : State) (lineNo : Nat) : Option Nat :=
  (s.med.ops.find? fun o => o.gen == (ent s (folioOf lineNo)).gen &&
    match o.purpose with | .hostRead l | .prefetch l | .take _ l => l == lineNo | _ => false).map (·.id)

/-- The line that a reader's own read has brought under the generation in force. -/
def takenOf (s : State) (r : Taker) (l : Nat) : Option Filled :=
  (s.med.taken.find? fun x => x.by_ == r && x.line == l && x.gen == (ent s (folioOf l)).gen).map fun x => ⟨x.res, x.classes, x.gen⟩

/-- Lines that were brought are given up. -/
def takenDrop (p : Taken → Bool) (s : State) : State := s.modMed fun d => { d with taken := d.taken.filter fun x => !p x }

/-- R15: a read of the controller's own is queued for a line, or joins the one outstanding; `count` where the access that needs it
has not been counted as a read (R157). -/
def takeStart (r : Taker) (count : Bool) (l : Nat) (s : State) : State :=
  match missOf s l with
  | some id => modOp id (fun o => { o with takers := if o.takers.contains r then o.takers else o.takers ++ [r] }) s
  | none =>
    let e := ent s (folioOf l)
    let s := if count then countHostRead (folioOf l) s else s
    queueOp .read (.take r l) e.media (l % 8192) e blankLine s

/-- R257: the clean copy of a line in the purse does not verify. -/
def copyBad (s : State) (l : Nat) : Bool :=
  match cachedLine s l with
  | some p => !inTill s l && !(p.poison && p.rewritten == 0) &&
      (match (press l p.data p.hallmark s).1 with | .error syn => syn == 0x8 | .ok _ => false)
  | none => false

/-- R15, R43: a reader has the line at hand: in the till or the purse, as zeros, lost with its channel, or brought by its read, which
else is asked for. -/
def takeReady (r : Taker) (count : Bool) (l : Nat) (s : State) : Bool × State :=
  let s := if copyBad s l then (baseNow l none s).2 else s
  if (cachedLine s l).isSome || !hasMedia s l || channelFailed s l || (takenOf s r l).isSome then (true, s)
  else (false, takeStart r count l s)

/-- The base of a line for a reader that has it at hand. -/
def takeBase (r : Taker) (l : Nat) (s : State) : Base × State :=
  match baseNow l (takenOf s r l) s with
  | (some b, s) => (b, takenDrop (fun x => x.by_ == r && x.line == l) s)
  | (none, s) => if channelFailed s l then (basePoison 0x7, s) else baseFilled l (mediaNow s l) s

/-! Recoinage (R274). -/

/-- R274 steps 3 and 5: the plaintext of a line of a recoined block; none for blank, poisoned or unreadable lines. -/
def recoinPlain (lineNo : Nat) (s : State) : Option (Line × Bool × BitVec 4) × State :=
  let (x, s) := takeBase .recoin lineNo s
  if x.stored.isNone || (x.poison && x.rewritten == 0) then (none, s) else (some (x.plain, x.poison, x.rewritten), s)

/-- R274 step 3: the lines of a block are at hand; those that are missing are asked for. -/
def recoinReady (b : Nat) : List Nat → State → Bool × State
  | [], s => (true, s)
  | i :: r, s =>
    let (a, s) := takeReady .recoin true (b * 64 + i) s
    let (c, s) := recoinReady b r s
    (a && c, s)

/-- R274 steps 1 to 3: a recoinage starts: the block's writes are held, its old block goes to a free page, and its lines are read. -/
def recoinStart (b : Nat) (s : State) : State :=
  if s.cry.recoins.contains b then s
  else
    match (List.range 8).find? (fun p => !s.cry.pagesRc.any fun e => e.1 == p) with
    | none => s.modCry fun c => { c with recoins := c.recoins ++ [b] }
    | some p =>
      let (old, s) := ctrFetch (sc s) b s
      let page : RecoinPage := { block := b, key := (ent s (b / 128)).key, old := old.getD ctr0, valid := false }
      let s := s.modCry fun c => { c with recoins := c.recoins ++ [b], pagesRc := tput default c.pagesRc p page }
      (recoinReady b (List.range 64)
        (pageQueue 2 (recRecoin p) (zeros 4) 0 (pageQueue 2 (recRecoin p + 0x100) (zeros 208) 0 s))).2

/-- R274: a waiting recoinage takes a page that became free. -/
def recoinPageTake (s : State) : State :=
  match s.cry.recoins.find? (fun b => !s.cry.pagesRc.any fun e => e.2.block == b) with
  | some b => recoinStart b (s.modCry fun c => { c with recoins := c.recoins.filter fun x => x != b })
  | none => s

/-- R274 step 5: the block's lines with their plaintexts. -/
def recoinLines (b : Nat) : List Nat → State → List (Nat × Line × Bool × BitVec 4) × State
  | [], s => ([], s)
  | i :: r, s =>
    let (x, s) := recoinPlain (b * 64 + i) s
    let (xs, s) := recoinLines b r s
    match x with
    | some y => ((b * 64 + i, y) :: xs, s)
    | none => (xs, s)

/-- R274 steps 3 to 6: re-encrypt a block's lines under a new MAJOR with minor 0, and store the block. -/
def recoinTo (b : Nat) (major : BitVec 64) (s : State) : State :=
  let (ls, s) := recoinLines b (List.range 64) s
  let c : CtrBlock := { ctr0 with major := major }
  let s := resvTouch (fun l => blockOf l == b) (derivedDrop (fun e => e.2.1 == b) (ctrStore (sc s) b c s))
  let k := (ent s (b / 128)).key
  match domKey s k with
  | none => s
  | some dk =>
    forEach ls (fun x s =>
      let (ct, hm) := sealLine dk k x.1 c x.2.1
      placeDirty x.1 { data := ct, hallmark := hm, poison := x.2.2.1, rewritten := x.2.2.2 } (slotCheck x.1 s).2) s

/-- R274: the page of a block's recoinage is freed once the block and its lines have drained. -/
def recoinFree (s : State) : State :=
  let done := s.cry.pagesRc.filter fun e => e.2.valid && !s.cry.recoins.contains e.2.block &&
    !(dirtyCtrs s).any (fun c => c.block == e.2.block) &&
    !(List.range 64).any fun i => inTill s (e.2.block * 64 + i)
  if done.isEmpty then s
  else recoinPageTake (s.modCry fun c => { c with pagesRc := c.pagesRc.filter fun e => !done.any fun d => d.1 == e.1 })

/-! The correspondent pair at a merge (R398, R402, R408, R409). -/

/-- R409: a folio enters the debt map; its region is recorded in the passbook the first time. -/
def debtAdd (f : Nat) (s : State) : State :=
  let s := if s.pair.debtExact.contains f then s else s.modPair fun p => { p with debtExact := p.debtExact ++ [f] }
  if s.pair.regions.contains (f / 4096) then s
  else recordQueue (recDebt + f / 4096 / 8) (s.modPair fun p => { p with regions := p.regions ++ [f / 4096] })

/-- R399, R12: one entry of the mirror buffer is made and sent, and its presence bit is set. -/
def mirrorSend (settle : Bool) (key sector : Nat) (d : Sector) (s : State) : State :=
  let n := s.pair.mirrorNext
  let s := s.modFe fun f => { f with present := (f.present.filter fun e => e != (sector / 4, 9)) ++ [(sector / 4, 9)] }
  let s := s.modPair fun p =>
    { p with mirrorNext := n + 1, lastTx := s.clock, packets := p.packets + 1,
             mirror := p.mirror ++ [{ seq := n, key := key, sector := sector, data := d, settle := settle,
                                      acked := false, refused := false }] }
  send (.pairPkt (if settle then 2 else 1) n d) (if settle then s else bump 64 1 s)

/-- R402, R415: the mirror buffer has room for a write; a planned split holds the credits of mirror-bound writes. -/
def mirrorRoom (s : State) : Bool :=
  (s.pair.state != .joined && s.pair.state != .settling) || (s.pair.mirror.length < 32768 && !s.pair.splitPlanned)

/-- R398, R408: what a merged write of a device-memory folio does to the pair. -/
def mirrorHook (lineNo sector key : Nat) (d : Sector) (s : State) : State :=
  if !pairMode s then s
  else
    match s.pair.state with
    | .joined => mirrorSend false key (lineNo * 4 + sector) d s
    | .settling =>
      let f := folioOf lineNo
      mirrorSend false key (lineNo * 4 + sector) d
        (if s.pair.mirrored.contains f then s else s.modPair fun p => { p with mirrored := p.mirrored ++ [f] })
    | .solo | .linking => debtAdd (folioOf lineNo) s
    | .off => s

/-! Till space (R65, R186). -/

/-- R65: a write to a line must wait in the metered queue. -/
def mustMeter (s : State) (lineNo : Nat) : Bool :=
  (s.pur.metered || highWater s ≤ occupancy s) && !inTill s lineNo

/-- R186: writes to the folio go to the overdraft: it is read-only, or blank-mapped at reserve 0 with the
overdraft in use for it. -/
def needsOverdraft (s : State) (lineNo : Nat) : Bool :=
  let e := ent s (folioOf lineNo)
  e.state == .readOnly ||
    (!hasMedia s lineNo && reserveLeft s == 0 && s.led.overdraft.any fun x => folioOf x.1 == folioOf lineNo)

/-- R186: a write that would need the overdraft is discarded when it is full. -/
def overdraftRefuses (s : State) (lineNo : Nat) : Bool :=
  needsOverdraft s lineNo && overdraftMax ≤ s.led.overdraft.length &&
    !(s.led.overdraft.any fun e => e.1 == lineNo)

/-- R185: on a board that declares no hold-up, an overdraft line is written to the spill folios at once. -/
def spillLine (lineNo : Nat) (p : PLine) (s : State) : State :=
  if holdupActs s then s
  else
    wearProgram (runAt s.led.spillDir (s.led.spill.length / 8192 % 32))
      (s.modLed fun l => { l with spill := (l.spill.filter fun e => e.1 != lineNo) ++ [(lineNo, p)] })

/-- R185, R186: a merged line of a read-only folio is an overdraft line; a merge into an overdraft line is spilt as the first was. -/
def toOverdraft (lineNo : Nat) (s : State) : State :=
  match s.led.overdraft.find? fun e => e.1 == lineNo with
  | some x => spillLine lineNo x.2 s
  | none =>
  if !needsOverdraft s lineNo then s
  else
    match cachedLine s lineNo with
    | none => s
    | some p =>
      let s := s.modPur fun u => { u with evb := u.evb.filter fun x => x.lineNo != lineNo }
      let s := if slotHit s lineNo (slotOf s lineNo) then setSlot (slotNo s lineNo) pslot0 s else s
      overdraftPut lineNo p (spillLine lineNo p s)

/-- R282: writes beneath a faulted node are completed and discarded. -/
def treeDiscards (lineNo : Nat) (s : State) : Bool := inWindow s lineNo && treeFaulted s (wIndex (blockOf lineNo))

/-- A write, by mover queue `q` or another requester, of a sector whose base is at hand: merged, mirrored, and moved to
the overdraft where its folio needs it; reservations on the line are lost. False where it is discarded. -/
def writeBy (q : Option Nat) (lineNo key : Nat) (b : Base) (w : SecWrite) (mirror : Bool) (s : State) : Bool × State :=
  if treeDiscards lineNo s then (false, rinc s 0x300054 1)
  else if overdraftRefuses s lineNo then (false, writeDiscarded (lineNo * 256 + w.sector * 64) key s)
  else
    let (done, s) := mergeSector lineNo b w s
    if !done then (false, s)
    else
      let s := resvWrite q lineNo (toOverdraft lineNo s)
      let d := mergeBytes (lineSector b.plain w.sector) w.data w.en
      (true, if mirror then mirrorHook lineNo w.sector key d s else s)

/-- A write of a sector by a requester that is no mover queue. -/
def writeNow (lineNo key : Nat) (b : Base) (w : SecWrite) (mirror : Bool) (s : State) : Bool × State :=
  writeBy none lineNo key b w mirror s

end Sys2Proof.Machine
end

