-- ==== Sys2Proof/Machine/MemAccess.lean ====
section
/-! DEFINITION. CXL.mem: decode of a host address, the checks at translation, reads and writes at the home slice,
back-invalidate snoops, flow control, prefetch hints and Global Persistent Flush (R31-R69, R340). -/

namespace Sys2Proof.Machine

/-! Decode (R31-R34). -/

/-- Remove the interleave ways from an offset (R31, R345): the granule number divided by the ways. -/
def deinterleave (ways gran off : Nat) : Nat :=
  if ways ≤ 1 then off else off / gran / ways * gran + off % gran

/-- Where an HPA leads through one decoder: the DPA, the key ID, whether it lies within the decoder's DPA size, and
whether it is the strongbox. -/
structure Target where
  /-- DPA -/
  dpa : Nat
  /-- key ID -/
  key : Nat
  /-- the window offset is below the DPA size (R33) -/
  inside : Bool
  /-- strongbox -/
  sbox : Bool
  /-- HDM-DB -/
  bi : Bool
deriving DecidableEq, Repr

/-- The target of an address in a decoder's range. -/
def decodeIn (d : Decoder) (hpa : Nat) : Option Target :=
  if d.base ≤ hpa && hpa < d.base + d.size then
    let off := deinterleave d.ways d.gran (hpa - d.base)
    if d.sbox then some { dpa := d.dpaBase + off, key := 0, inside := off < d.dpaSize, sbox := true, bi := d.bi }
    else
      let w := off % 2 ^ d.kpos
      some { dpa := d.dpaBase + w, key := bits off d.kpos 7, inside := w < d.dpaSize && off < 2 ^ (d.kpos + 7),
             sbox := false, bi := d.bi }
  else none

/-- The least k with n ≤ 2^k, from k up, at most `fuel` tries. -/
def log2Up (n : Nat) : Nat → Nat → Nat
  | 0, k => k
  | fuel + 1, k => if n ≤ 2 ^ k then k else log2Up n fuel (k + 1)

/-- A dword of a head's configuration space. -/
def cfgDword (s : State) (h : Head) (n : Nat) : BitVec 32 :=
  (tget none (portOf s h).cfg n).getD (Config.cfgReset (headNo h) n)

/-- R339: the two ranges of a head at CXL 1.1, whose bases stand in configuration space (log entry 31): Range 1 with
K = K1 and a DPA base of 0, Range 2 with the strongbox. -/
def cxl11Ranges (s : State) (h : Head) : List Decoder :=
  let k1 := log2Up (s.board.folios * 2 ^ 21) 46 30
  let base (i : Nat) : Nat :=
    (cfgDword s h (Config.cfgPlace i)).toNat * 2 ^ 32 + (cfgDword s h (Config.cfgPlace (i + 1))).toNat / 2 ^ 28 * 2 ^ 28
  let r1 : Decoder := { base := base 2, size := 2 ^ (k1 + 7), ways := 1, gran := 256, target := 0, kpos := k1, dpaBase := 0,
                        dpaSize := s.board.folios * 2 ^ 21, bi := false, sbox := false }
  let size := s.pur.sboxAct * 2 ^ 30
  [r1, { r1 with base := base 4, size := size, dpaBase := 2 ^ 45, dpaSize := size, sbox := true }]

/-- R31: the host address behind a decoder that leads to a DPA under a key ID, the inverse of `decodeIn`. -/
def encodeIn (d : Decoder) (dpa key : Nat) : Nat :=
  let off := dpa - d.dpaBase + (if d.sbox then 0 else key * 2 ^ d.kpos)
  d.base + (if d.ways ≤ 1 then off else (off / d.gran * d.ways + d.target % d.ways) * d.gran + off % d.gran)

/-- R59: the host address that a holder used for a sector: through the HDM-DB decoder that reaches it. -/
def snoopHpa (s : State) (h : Head) (sector key : Nat) : Nat :=
  let dpa := sector * 64
  ((portOf s h).decoders.findSome? fun e => e.2.bind fun d =>
    if d.bi && d.dpaBase ≤ dpa && dpa < d.dpaBase + d.dpaSize then some (encodeIn d dpa key) else none).getD dpa

/-- The target of an HPA on a head: its committed decoder's, or at CXL 1.1 its range's; none where none claims it. -/
def decodeHpa (s : State) (h : Head) (hpa : Nat) : Option Target :=
  if (portOf s h).level == .cxl11 then (cxl11Ranges s h).findSome? fun d => decodeIn d hpa
  else (portOf s h).decoders.findSome? fun e => e.2.bind fun d => decodeIn d hpa

/-! Guards (R63, R65, R336, R350). -/

/-- R336: CXL.mem is enabled on a head: a CXL level, and not Port B at CXL 1.1. -/
def memEnabled (s : State) (h : Head) : Bool :=
  headPresent s h && (portOf s h).level != .pcie && !((portOf s h).level == .cxl11 && h == .b) &&
    !(portOf s h).perstLow && !s.sup.inReset

/-- R63: the head has a transaction slot: 1,024 of its own and 6,144 shared, or 8,192 with a single head. -/
def slotFree (s : State) (h : Head) : Bool :=
  let held := s.fe.txns.filter fun t => t.by_ == .host
  if twoHeads s then
    let mine := (held.filter fun t => t.head == h).length
    let other := held.length - mine
    mine < 1024 || (mine - 1024) + (other - 1024) < 6144
  else held.length < 8192

/-- The block takes CXL.mem requests from the head: memory is active and a slot is free. -/
def takesReads (s : State) (h : Head) : Bool := memEnabled s h && s.led.memActive && slotFree s h

/-- R47, R65, R210, R402: the head has a write credit. -/
def takesWrites (s : State) (h : Head) : Bool :=
  takesReads s h && !s.pur.creditsHeld && s.fe.portA.gpf == 0 && s.fe.portB.gpf == 0 && !s.sup.tripped &&
    s.pur.waitQ.length < 6912 && mirrorRoom s

/-! Completions. -/

/-- Base of the audit counters of a head. -/
def headCtr : Head → Nat
  | .a => 0
  | .b => 32

/-- A read completes: its data or poison, its latency (R437). -/
def readDone (t : Txn) (r : Except Nat Sector) (classes : List Nat) (s : State) : State :=
  let s := histRead (s.clock - t.since) (0 :: classes) (1 + headNo t.head) t.key s
  match r with
  | .ok d => send (.memData t.head t.tag d) s
  | .error syn =>
    let s := bump (headCtr t.head + 4) 1 (send (.memPoison t.head t.tag) s)
    if syn == 0 then s else poisonReturn t.lineNo t.sector syn t.key (some t.head) s

/-- A write completes; no one awaits one of the controller's own. -/
def writeDone (t : Txn) (s : State) : State := if t.by_ == .host then send (.memCmp t.head t.tag) s else s

/-! The snoop filter (R58-R62). -/

/-- The snoop-filter entry of a sector. -/
def sfFind (s : State) (sector : Nat) : Option SfEntry := s.fe.sf.find? fun e => e.sector == sector

/-- A head holds the entry. -/
def SfEntry.holds (e : SfEntry) : Head → Bool
  | .a => e.holdA
  | .b => e.holdB

/-- R59: the snoops that an access needs: to which heads, and whether they invalidate. `own` is a write or a read
for ownership; `h` is the requesting head, none for a device-side requester. -/
def snoopsFor (s : State) (h : Option Head) (own : Bool) (sector : Nat) : List (Head × Bool) :=
  match sfFind s sector with
  | none => []
  | some e =>
    ([Head.a, Head.b].filter fun x => e.holds x && h != some x && (own || e.modify)).map fun x => (x, own)

/-- R58: the set of a sector. -/
def sfSet (sector : Nat) : Nat := sector % 2 ^ 18

/-- R59, R69: the victim of a full set: a way with no request in flight, be it one of a requester inside the controller, which
waits for the way's snoop. -/
def sfVictim (s : State) (sector : Nat) : Option SfEntry :=
  if (sfFind s sector).isSome then none
  else
    let ways := s.fe.sf.filter fun e => sfSet e.sector == sfSet sector
    if ways.length < 16 then none
    else ways.find? fun e => !(s.fe.txns.any fun t => t.lineNo * 4 + t.sector == e.sector) &&
      !s.fe.bis.any fun x => x.sector == e.sector

/-- Send one snoop, unless it is already outstanding or 512 are (R61). -/
def snoopSend (h : Head) (sector key : Nat) (inval : Bool) (s : State) : State :=
  if s.fe.bis.any (fun x => x.head == h && x.sector == sector) then s
  else if 512 ≤ (s.fe.bis.filter fun x => x.head == h).length then s
  else
    send (.snoop h (snoopHpa s h sector key) inval)
      (bump (headCtr h + 7) 1 (s.modFe fun f => { f with bis := f.bis ++ [{ head := h, sector := sector, since := s.clock, inval := inval }] }))

/-- R69: the filter has no way for a sector now: its set is full, with a request in flight on every way. The read then waits until
one has none (DESIGN CHOICE, log entry 92). -/
def filterFull (s : State) (sector : Nat) : Bool :=
  (sfFind s sector).isNone && (sfVictim s sector).isNone &&
    16 ≤ (s.fe.sf.filter fun e => sfSet e.sector == sfSet sector).length

/-- R59, R61: send the snoops an access needs; it may be served when none is left to answer for its line, be it the
requesting head's own. -/
def snoopNeed (h : Option Head) (own alloc : Bool) (sector : Nat) (s : State) : Bool × State :=
  let ns := snoopsFor s h own sector
  let key := (sfFind s sector).elim 0 (·.key)
  let s := forEach ns (fun n s => snoopSend n.1 sector key n.2 s) s
  match (if alloc then sfVictim s sector else none) with
  | some v =>
    let s := forEach ([Head.a, Head.b].filter v.holds) (fun x s => snoopSend x v.sector v.key true s) s
    (true, s)
  | none => (!ns.isEmpty || s.fe.bis.any (fun x => x.sector == sector), s)

/-- R58: a served read of an HDM-DB window makes its head a holder. -/
def sfHold (h : Head) (own : Bool) (sector key : Nat) (s : State) : State :=
  let old := (sfFind s sector).getD { sector := sector, key := key, holdA := false, holdB := false, modify := false }
  let e := { old with key := key, holdA := old.holdA || h == .a, holdB := old.holdB || h == .b,
                      modify := own || (old.modify && !own && (old.holds h)) }
  s.modFe fun f => { f with sf := (f.sf.filter fun x => x.sector != sector) ++ [e] }

/-! Serving a transaction at its home slice. -/

/-- A transaction whose write has been merged and waits only for its completion (R41). -/
def TxnWait.merged : TxnWait → Bool
  | .late | .draining _ => true
  | _ => false

/-- A waiting transaction of the line that stands before this one (R50); a write that waits late has been merged. -/
def earlier (s : State) (t : Txn) : Option TxnWait :=
  (s.fe.txns.find? fun u => u.lineNo == t.lineNo && !u.wait.merged).map (·.wait)

/-- R413: the access goes to the correspondent. -/
def mustForward (s : State) (lineNo : Nat) : Bool :=
  pairMode s && s.pair.state == .settling && s.pair.peerLeft.contains (folioOf lineNo)

/-- R413: forward an access. -/
def forwardSend (t : Txn) (s : State) : Nat × State :=
  let n := s.pair.fwdNext
  let f : Fwd := { id := n, mover := false, head := t.head, tag := t.tag, write := t.write, sector := t.lineNo * 4 + t.sector,
                   key := t.key, data := t.data, enables := t.enables }
  (n, send (.pairPkt (if t.write then 4 else 3) n t.data)
    (bump 70 1 (s.modPair fun p => { p with fwds := p.fwds ++ [f], fwdNext := n + 1 })))

/-- R48: a level 2 reinit of the line's home slice or of the purse controller holds its accesses. -/
def reinitHolds (s : State) (lineNo : Nat) : Bool :=
  s.sup.fnBusy.any fun f => f == .purse || f == .slice (sliceOf s lineNo)

/-- R199, R48: the line's slot waits for a scan, or a reinit holds it. -/
def slotScanning (s : State) (lineNo : Nat) : Bool :=
  reinitHolds s lineNo || s.pur.lostSlots.any fun e => e.1 == slotNo s lineNo

/-- R34: the lines of the strongbox stand above those of device memory. -/
def sboxLine (lineNo : Nat) : Bool := 2 ^ 37 ≤ lineNo

/-- R530: an access waits for the accesses to its folio that were translated under an older generation. -/
def olderWaits (s : State) (t : Txn) : Bool :=
  let g := (ent s (folioOf t.lineNo)).gen
  t.gen == g && s.fe.txns.any fun u => folioOf u.lineNo == folioOf t.lineNo && u.gen != g && !u.wait.merged

/-! The slice ring (R11-R13). Every slice takes part, also one whose cluster has no populated channel; what a staging cache
holds is the last line its engine read, what the control processor's L2 holds the last line that it wrote, and the mirror buffer
holds the lines of its entries; no cache but the eviction buffers holds a dirty line between commands (DESIGN CHOICE, log entry
81). -/

/-- R12: a ring agent holds a copy of a line. -/
def ringHolds (s : State) (l : Nat) (agent : Nat) : Bool :=
  if agent == 9 then s.pair.mirror.any fun e => e.sector / 4 == l else tget none s.fe.staged agent == some l

/-- R12, R13: an access at the home slice broadcasts one snoop where presence bits show a holder other than the requester
`by_`; a copy that it finds is clean, a write drops it from the caches, and the bit of a cache that no longer holds the line is
cleared. -/
def ringSnoop (by_ : Option Nat) (write : Bool) (l : Nat) (s : State) : State :=
  let asks (e : Nat × Nat) : Bool := e.1 == l && by_ != some e.2
  if !s.fe.present.any asks then s
  else
    let found := s.fe.present.any fun e => asks e && ringHolds s l e.2
    s.modFe fun f =>
      { f with present := f.present.filter fun e => !asks e || (ringHolds s l e.2 && (!write || e.2 == 9)),
               staged := if write then f.staged.filter fun e => !(e.2 == some l && by_ != some e.1) else f.staged,
               ringSnoops := (f.ringSnoops.1 + 1, f.ringSnoops.2 + b2n (!found)) }

/-- R12, R13: a line enters an agent's cache, which evicts its clean line without notice, and its presence bit is set. -/
def stageCopy (agent l : Nat) (s : State) : State :=
  s.modFe fun f => { f with staged := tput none f.staged agent (some l),
                            present := (f.present.filter fun e => e != (l, agent)) ++ [(l, agent)] }

/-- Start a media read of a line for a transaction, or attach to the one outstanding, which then fills the purse as the allocate
policy of either read gives (R15, R42); its number. -/
def missStart (t : Txn) (s : State) : Nat × State :=
  match missOf s t.lineNo with
  | some id => (id, modOp id (fun o => { o with noAlloc := o.noAlloc && t.noAlloc }) s)
  | none =>
    let s := if t.write then countHostRead (folioOf t.lineNo) s else s
    let e := { ent s (folioOf t.lineNo) with noAlloc := t.noAlloc }
    let id := s.med.nextOp
    (id, sliceCount t.lineNo 1 (queueOp .read (.hostRead t.lineNo) e.media (t.lineNo % 8192) e blankLine s))

/-- The requester of a transaction as the snoop filter knows it: a head, or none for the controller's own. -/
def Txn.asker (t : Txn) : Option Head := if t.by_ == .host then some t.head else none

/-- A snoop for the sector of a transaction is outstanding (R59, R61, R69). -/
def snoopOut (s : State) (t : Txn) : Bool := s.fe.bis.any fun x => x.sector == t.lineNo * 4 + t.sector

/-- Why the line of an access cannot be used yet, before its contents are looked at. The write-back that answers a snoop waits for
no other snoop and is not forwarded (R59, R69). -/
def accessWait (t : Txn) (s : State) : Option TxnWait × State :=
  let own := t.by_ == .writeBack
  if !own && snoopOut s t then (some .snoop, s)
  else if !own && mustForward s t.lineNo then
    let (n, s) := forwardSend t s
    (some (.forward n), s)
  else if !own && olderWaits s t then (some .oldGen, s)
  else if reinitHolds s t.lineNo then (some .reinit, s)
  else if slotScanning s t.lineNo then (some (.slotScan (slotNo s t.lineNo)), s)
  else
    match slotCheck t.lineNo s with
    | (some k, s) => (some (.slotScan k), s)
    | (none, s) =>
      let s := ringSnoop (if t.by_ == .host || own then none else some 8) t.write t.lineNo s
      if own then (none, s)
      else
        let (w, s) := snoopNeed t.asker (t.write || t.own) false (t.lineNo * 4 + t.sector) s
        (if w then some .snoop else none, s)

/-- The base of a line for an access: at hand, or the wait for its media read (R15, R115). -/
def baseOrMiss (t : Txn) (fill : Option Filled) (s : State) : Except TxnWait Base × State :=
  match baseNow t.lineNo fill s with
  | (some b, s) => (.ok b, s)
  | (none, s) =>
    if channelFailed s t.lineNo then (.ok (basePoison 0x7), s)
    else
      let (id, s) := missStart t s
      (.error (.miss id), s)

/-- The histogram classes of a served read (R438). -/
def readClasses (s : State) (lineNo : Nat) (fill : Option Filled) : List Nat :=
  (match fill with | some f => f.classes | none => [1]) ++ (if (ent s (folioOf lineNo)).sealed_ then [5] else [])

/-- Serve a read: none when it is done, else what it waits for. -/
def serveRead (fill : Option Filled) (bi : Bool) (t : Txn) (s : State) : Option TxnWait × State :=
  let hit := (cachedLine s t.lineNo).isSome
  let inEvb := (evbFind s t.lineNo).isSome
  match baseOrMiss t fill s with
  | (.error w, s) => (some w, s)
  | (.ok b, s) =>
    let full := bi && filterFull s (t.lineNo * 4 + t.sector)
    let (sw, s) := if bi && !full then snoopNeed (some t.head) t.own true (t.lineNo * 4 + t.sector) s else (false, s)
    if full then (some .filterFull, s)
    else if sw then (some .snoop, s)
    else
      let s := if hit then sliceCount t.lineNo (if inEvb then 5 else 0) s else s
      let cls := readClasses s t.lineNo (if hit then none else fill)
      let s := if bi then sfHold t.head t.own (t.lineNo * 4 + t.sector) t.key s else s
      (none, readDone t (readSector b t.sector) cls s)

/-- R44, R41, R42: a merged write completes now or waits for its media write, by the acknowledge policy under which it was
translated. -/
def writeAck (t : Txn) (s : State) : Option TxnWait × State :=
  if lateFor s { ent s (folioOf t.lineNo) with late := t.late } && (inTill s t.lineNo) &&
      !(s.led.overdraft.any fun e => e.1 == t.lineNo) then (some .late, s)
  else (none, writeDone t s)

/-- R41, R42, R207: a line merged under a write policy of write-through or an acknowledge policy of late goes to the express ring
whatever its folio's policy is now. -/
def expressLine (t : Txn) (s : State) : State :=
  if !(t.through || t.late) then s
  else
    s.modPur fun u =>
      { u with exRing := u.exRing ++ u.wbRing.filter fun r => r.lineNo == t.lineNo,
               wbRing := u.wbRing.filter fun r => r.lineNo != t.lineNo }

/-- The write of a transaction to its line, whose base is at hand; the control processor's sets the line's poison, or clears it
(R377), and its L2 holds the line (R12). -/
def writeTxn (t : Txn) (b : Base) (s : State) : Bool × State :=
  let w : SecWrite := { sector := t.sector, data := t.data, en := t.enables, poison := t.poison }
  match t.by_ with
  | .inject =>
    let (done, s) := writeNow t.lineNo t.key b { w with poison := true } false s
    (done, stageCopy 8 t.lineNo (if done then poisonListAdd t.lineNo 0 s else s))
  | .clear =>
    let (done, s) := writeNow t.lineNo t.key { b with poison := false, rewritten := 0 } w true s
    (done, stageCopy 8 t.lineNo (if done then poisonListDrop t.lineNo s else s))
  | _ => writeNow t.lineNo t.key b w true s

/-- Serve a write: none when it is done, else what it waits for (R44, R65, R200, R274). -/
def serveWrite (fill : Option Filled) (t : Txn) (s : State) : Option TxnWait × State :=
  if treeDiscards t.lineNo s then (none, writeDone t (rinc s 0x300054 1))
  else if overdraftRefuses s t.lineNo then
    (none, writeDone t (writeDiscarded (t.lineNo * 256 + t.sector * 64) t.key s))
  else if s.cry.recoins.contains (blockOf t.lineNo) then (some (.recoin (blockOf t.lineNo)), s)
  else if minorSpent s t.lineNo then (some (.recoin (blockOf t.lineNo)), recoinStart (blockOf t.lineNo) s)
  else if !canPlace s t.lineNo then (some .evictFull, s)
  else
    match baseOrMiss t fill s with
    | (.error w, s) => (some w, s)
    | (.ok b, s) =>
      let (done, s) := writeTxn t b s
      if done then writeAck t (expressLine t s) else (none, writeDone t s)

/-- R34, R213, R214: serve an access to the strongbox: its data unit, past the ledger and the presses. Where it reaches it
through an HDM-DB window, the filter's rules apply (R59). A poisoned write completes and keeps the old data (DESIGN CHOICE,
log entry 73). A reinit of its home slice or of the purse controller holds it (R48). -/
def serveSbox (bi : Bool) (t : Txn) (s : State) : Option TxnWait × State :=
  let sector := t.lineNo * 4 + t.sector
  let full := bi && !t.write && filterFull s sector
  let (sw, s) := if full || t.by_ != .host then (false, s)
    else snoopNeed t.asker (t.write || t.own) (bi && !t.write) sector s
  if reinitHolds s t.lineNo then (some .reinit, s)
  else if full then (some .filterFull, s)
  else if sw then (some .snoop, s)
  else if t.write then
    (none, writeDone t (if t.poison then s else sboxWrite sector (mergeBytes (sboxRead s sector) t.data t.enables) s))
  else
    let s := if bi then sfHold t.head t.own sector t.key s else s
    (none, readDone t (.ok (sboxRead s sector)) [1] s)

/-- Serve a transaction whose translation has been checked. -/
def serve (fill : Option Filled) (bi : Bool) (t : Txn) (s : State) : Option TxnWait × State :=
  if sboxLine t.lineNo then serveSbox bi t s
  else
  match accessWait t s with
  | (some w, s) => (some w, s)
  | (none, s) =>
    let fill := fill.filter fun f => f.gen == t.gen
    if t.write then serveWrite fill t s else serveRead fill bi t s

/-- The window through which a head reaches a device-memory sector is HDM-DB (R57). -/
def windowBi (s : State) (h : Head) (dpa : Nat) : Bool :=
  (portOf s h).decoders.any fun e => e.2.any fun d => d.bi && d.dpaBase ≤ dpa && dpa < d.dpaBase + d.dpaSize

/-- R61: a request that crosses the controller's own snoop to its head starts the conflict handshake. -/
def conflictNote (t : Txn) (s : State) : State :=
  let sector := t.lineNo * 4 + t.sector
  if s.fe.bis.any fun x => x.head == t.head && x.sector == sector then send (.biConflict t.head (snoopHpa s t.head sector t.key)) s
  else s

/-- Take a transaction that has been translated: R65 first, then service in the line's order. -/
def admitTxn (t : Txn) (s : State) : State :=
  let s := conflictNote t s
  let wait (w : TxnWait) (s : State) : State := s.modFe fun f => { f with txns := f.txns ++ [{ t with wait := w }] }
  if t.write && t.by_ == .host && !sboxLine t.lineNo && mustMeter s t.lineNo && !overdraftRefuses s t.lineNo && !mustForward s t.lineNo then
    let w : WWrite := { sector := t.sector, data := t.data, enables := t.enables, poison := t.poison }
    let s := s.modPur fun u =>
      { u with waitQ := if u.waitQ.any (fun x => x.lineNo == t.lineNo) then
                          u.waitQ.map fun x => if x.lineNo == t.lineNo then { x with writes := x.writes ++ [w] } else x
                        else u.waitQ ++ [{ lineNo := t.lineNo, key := t.key, writes := [w] }] }
    wait .metered (if s.pur.metered then s else bump 420 1 (s.modPur fun u => { u with metered := true }))
  else
    match earlier s t with
    | some w => wait w s
    | none =>
      match serve none (windowBi s t.head (t.lineNo * 256)) t s with
      | (none, s) => s
      | (some w, s) => wait w s

/-- Serve the waiting transactions of a line in order, until one must wait on; a write that waits late stays, and one that waits in
the metered queue keeps those behind it (R65). -/
def serveList (fill : Option Filled) : List Txn → State → List Txn × State
  | [], s => ([], s)
  | t :: r, s =>
    if t.wait.merged then
      let (r, s) := serveList fill r s
      (t :: r, s)
    else if t.wait == .metered && s.pur.waitQ.any (fun x => x.lineNo == t.lineNo) then (t :: r, s)
    else
      match serve fill (windowBi s t.head (t.lineNo * 256)) t s with
      | (none, s) => serveList fill r s
      | (some .late, s) =>
        let (r, s) := serveList fill r s
        ({ t with wait := .late } :: r, s)
      | (some w, s) => ({ t with wait := w } :: r.map fun u => if u.wait.merged then u else { u with wait := w }, s)

/-- Retry the transactions of one line. -/
def retryLine (fill : Option Filled) (lineNo : Nat) (s : State) : State :=
  let mine := s.fe.txns.filter fun t => t.lineNo == lineNo
  let s := s.modFe fun f => { f with txns := f.txns.filter fun t => t.lineNo != lineNo }
  let (left, s) := serveList fill mine s
  s.modFe fun f => { f with txns := left ++ f.txns }

/-- What no single event ends: older accesses to the folio, or a full set of the snoop filter (R69, R530). -/
def TxnWait.polled : TxnWait → Bool
  | .oldGen | .filterFull => true
  | _ => false

/-- Retry every transaction that waits for a reason. -/
def retryWhere (p : TxnWait → Bool) (s : State) : State :=
  forEach ((s.fe.txns.filter fun t => p t.wait).map (·.lineNo)).dedup (fun l s => retryLine none l s) s

/-- R530: what an event ended is retried, then the accesses that older ones held. -/
def retryAfter (p : TxnWait → Bool) (s : State) : State := retryWhere TxnWait.polled (retryWhere p s)

/-! Requests. -/

/-- R33, R43: an access to an unprovisioned folio or beyond the decoder's DPA size. -/
def unprovisionedAccess (h : Head) (tag dpa key : Nat) (write : Bool) (s : State) : State :=
  let d := (det1 dpa key 0 0).on h
  if write then raise 5 5 0x01 d (send (.memCmp h tag) s)
  else raiseMs 5 5 0x02 d (bump (headCtr h + 4) 1 (send (.memPoison h tag) s))

/-- R360: CXL.mem IDE has been enabled and the stream is not secure. -/
def ideBlocks (s : State) (h : Head) : Bool := (portOf s h).ideMemOnce && !(portOf s h).ideMem

/-- R360: a request on an insecure head: poisoned, or completed and discarded. -/
def ideRefuse (h : Head) (tag : Nat) (write : Bool) (s : State) : State :=
  let s := bump (headCtr h + 9) 1 s
  let s := if write then send (.memCmp h tag) s else bump (headCtr h + 4) 1 (send (.memPoison h tag) s)
  raiseMs (headNo h) 2 0x02 (det0.on h) s

/-- The strongbox (R34, R213): beyond its size an access is unprovisioned, else it is served in the order of its line. -/
def sboxAccess (h : Head) (tag dpa : Nat) (own : Bool) (w : Option SecWrite) (s : State) : State :=
  if s.pur.sboxAct * 2 ^ 30 ≤ dpa - 2 ^ 45 then unprovisionedAccess h tag dpa 0 w.isSome s
  else admitTxn { head := h, tag := tag, write := w.isSome, lineNo := dpa / 256, sector := dpa / 64 % 4, key := 0,
                  since := s.clock, wait := .metered, data := w.elim 0 (·.data), enables := w.elim 0 (·.en),
                  poison := w.elim false (·.poison), own := own } s

/-- The entries of the front end's ledger cache (01_architecture, Units). -/
def ledgerEntries : Nat := 65536

/-- The ledger cache once it holds a folio, at its number modulo the entries (DESIGN CHOICE, log entry 87). -/
def ledgerFill (f : Nat) (c : List Nat) : List Nat := f :: c.filter fun g => g % ledgerEntries != f % ledgerEntries

/-- R157, R432: the front end looks a host folio up in the ledger cache; a miss reads the entry from DRAM into the cache and
is counted. -/
def ledgerLookup (h : Head) (f : Nat) (s : State) : State :=
  if s.fe.ledgerCache.contains f then s
  else bump (headCtr h + 11) 1 (s.modFe fun x => { x with ledgerCache := ledgerFill f x.ledgerCache })

/-- A CXL.mem request of a head that has been accepted: decode, IDE, folio state, key checks, then the line. -/
def hostAccess (h : Head) (tag hpa : Nat) (own : Bool) (w : Option SecWrite) (s : State) : State :=
  match decodeHpa s h hpa with
  | none => s
  | some g =>
    if ideBlocks s h then ideRefuse h tag w.isSome s
    else if g.sbox then sboxAccess h tag g.dpa own w s
    else
      let lineNo := g.dpa / 256
      let f := folioOf lineNo
      let e := ent s f
      let s := ledgerLookup h f s
      if !g.inside || !provisioned e then unprovisionedAccess h tag g.dpa g.key w.isSome s
      else
        let t : Txn := { head := h, tag := tag, write := w.isSome, lineNo := lineNo, sector := g.dpa / 64 % 4, key := g.key,
                         since := s.clock, wait := .metered, data := w.elim 0 (·.data),
                         enables := w.elim 0 (·.en), poison := w.elim false (·.poison), own := own, gen := e.gen,
                         late := e.late, through := e.through, noAlloc := e.noAlloc }
        match accessCheck s g.key (some h) e with
        | some fail =>
          let s := bump (headCtr h + 5) 1 (accessFault fail g.dpa g.key w.isSome (some h) s)
          if w.isSome then writeDone t s
          else
            let s := histRead 0 [0] (1 + headNo h) g.key s
            poisonReturn lineNo t.sector fail.syndrome g.key (some h)
              (bump (headCtr h + 4) 1 (send (.memPoison h tag) s))
        | none => admitTxn t (if w.isSome then s else countHostRead f s)

/-- MEMRD (R43, R340). A request for which the head has no credit or slot does not arrive: the state is unchanged. -/
def execMemRd (h : Head) (tag : Nat) (hpa : BitVec 64) (own : Bool) (s : State) : Res :=
  .next (if takesReads s h then hostAccess h tag hpa.toNat own none (bump (headCtr h) 1 s) else s)

/-- MEMRDDATA (R340): served as a read. -/
def execMemRdData (h : Head) (tag : Nat) (hpa : BitVec 64) (own : Bool) (s : State) : Res :=
  .next (if takesReads s h then hostAccess h tag hpa.toNat own none (bump (headCtr h) 1 s) else s)

/-- MEMWR (R44, R340). -/
def execMemWr (h : Head) (tag : Nat) (hpa : BitVec 64) (data : Sector) (poison : Bool) (s : State) : Res :=
  .next (if takesWrites s h then
    hostAccess h tag hpa.toNat false (some { sector := 0, data := data, en := BitVec.allOnes 64, poison := poison })
      (bump (headCtr h + 1) 1 s)
  else s)

/-- MEMWRPTL (R340). -/
def execMemWrPtl (h : Head) (tag : Nat) (hpa : BitVec 64) (data : Sector) (enables : BitVec 64) (poison : Bool)
    (s : State) : Res :=
  .next (if takesWrites s h then
    hostAccess h tag hpa.toNat false (some { sector := 0, data := data, en := enables, poison := poison })
      (bump (headCtr h + 2) 1 s)
  else s)

/-! Prefetch (R232, R340). -/

/-- R232: queue a line in its home slice's prefetch queue: not where it is held, blank-mapped or draining; false where
the queue is full. -/
def prefetchQueue (lineNo : Nat) (s : State) : Bool × State :=
  let sl := sliceOf s lineNo
  if (cachedLine s lineNo).isSome || !hasMedia s lineNo || s.pur.prefetchQ.contains (sl, lineNo) then (true, s)
  else if 16384 ≤ (s.pur.prefetchQ.filter fun e => e.1 == sl).length then (false, bump 645 1 s)
  else (true, bump 644 1 (s.modPur fun u => { u with prefetchQ := u.prefetchQ ++ [(sl, lineNo)] }))

/-- MEMSPECRD (R340): a hint, dropped where the queue is full or the access would not be allowed. -/
def execMemSpecRd (h : Head) (hpa : BitVec 64) (s : State) : Res :=
  .next (if !takesReads s h then s
    else
      let s := bump (headCtr h + 3) 1 s
      match decodeHpa s h hpa.toNat with
      | none => s
      | some g =>
        let e := ent s (folioOf (g.dpa / 256))
        let s := if g.sbox || ideBlocks s h then s else ledgerLookup h (folioOf (g.dpa / 256)) s
        if g.sbox || !g.inside || !provisioned e || ideBlocks s h || (accessCheck s g.key (some h) e).isSome then s
        else (prefetchQueue (g.dpa / 256) s).2)

/-! Snoop responses. -/

/-- The holder bit of a head clears; an entry without holders goes. -/
def sfClear (h : Head) (sector : Nat) (s : State) : State :=
  let clear (e : SfEntry) : SfEntry :=
    if e.sector == sector then { e with holdA := e.holdA && h != .a, holdB := e.holdB && h != .b, modify := false } else e
  s.modFe fun f => { f with sf := (f.sf.map clear).filter (fun e => e.holdA || e.holdB) }

/-- A transaction of the controller's own on a line of device memory goes before those that wait for the line, or behind them. -/
def ownTxn (t : Txn) (front : Bool) (s : State) : State :=
  let e := ent s (folioOf t.lineNo)
  let t := { t with gen := e.gen, late := e.late, through := e.through, noAlloc := e.noAlloc, since := s.clock }
  let s := s.modFe fun f => { f with txns := if front then t :: f.txns else f.txns ++ [t] }
  retryLine none t.lineNo s

/-- R59: the write-back of a snooped head is merged before the waiting access: a transaction of its own at the front of the line's
order, which no one awaits. One that R43 or R249 refuses is discarded, counted and raised as a write is. -/
def writeBack (h : Head) (sector key : Nat) (d : Sector) (s : State) : State :=
  let lineNo := sector / 4
  let e := ent s (folioOf lineNo)
  let fail := if sboxLine lineNo then none else accessCheck s key (some h) e
  if !sboxLine lineNo && !provisioned e then raise 5 5 0x01 ((det1 (sector * 64) key 0 0).on h) s
  else if fail.isSome then fail.elim s fun f => accessFault f (sector * 64) key true (some h) s
  else
    ownTxn { head := h, tag := 0, write := true, lineNo := lineNo, sector := sector % 4, key := key, since := s.clock, wait := .snoop,
             data := d, enables := BitVec.allOnes 64, poison := false, own := false, by_ := .writeBack } true s

/-- BI_SNOOP_RESPONSE (R59): write-back, then invalidation or downgrade, then the waiting accesses. -/
def execBiSnoopResponse (h : Head) (sector : Nat) (wb : Option Sector) (s : State) : Res :=
  match s.fe.bis.find? (fun x => x.head == h && x.sector == sector) with
  | none => .next s
  | some x =>
    let held := s.fe.sf.find? fun e => e.sector == sector
    let s := s.modFe fun f => { f with bis := f.bis.filter fun y => !(y.head == h && y.sector == sector) }
    let s := if x.inval then sfClear h sector s
      else s.modFe fun f => { f with sf := f.sf.map fun e => if e.sector == sector then { e with modify := false } else e }
    let s := if wb.isSome then bump (headCtr h + 8) 1 s else s
    let s :=
      match wb, held with
      | some d, some e => if e.modify then writeBack h sector e.key d s else s
      | _, _ => s
    .next (retryAfter (fun w => w == .snoop || w.polled) s)

/-- BI_TIMEOUT (R62): 2 ms without a response. -/
def execBiTimeout (h : Head) (sector : Nat) (s : State) : Res :=
  match s.fe.bis.find? (fun x => x.head == h && x.sector == sector) with
  | none => .next s
  | some x =>
    if s.clock < 2000000 + x.since then .next s
    else
      let s := s.modFe fun f => { f with bis := f.bis.filter fun y => !(y.head == h && y.sector == sector) }
      let s := raise (headNo h) 3 0x01 ((det1 (sector * 64) ((sfFind s sector).elim 0 (·.key)) 0 0).on h) (sfClear h sector s)
      .next (retryAfter (fun w => w == .snoop || w.polled) s)

/-- R199: the line that the rings name for a slot: that of the latest entry under its folio's generation whose line has no copy in
an eviction buffer. -/
def lostLine (s : State) (slot : Nat) : Option Nat :=
  (((s.pur.exRing ++ s.pur.wbRing).filter fun r =>
      r.lineNo % purseSlots s == slot && r.gen6 == gen6 (ent s (folioOf r.lineNo)).gen && (evbFind s r.lineNo).isNone).foldl
    (fun best r =>
      match best with
      | some b => if (ringTime s + 2 ^ 21 - b.time) % 2 ^ 21 < (ringTime s + 2 ^ 21 - r.time) % 2 ^ 21 then some b else some r
      | none => some r) (none : Option RingEntry)).map (·.lineNo)

/-- LOST_SLOT_SCAN_DONE (R199): the line that the rings name for the slot is poisoned; waiting accesses proceed. -/
def execLostSlotScanDone (slot : Nat) (s : State) : Res :=
  if s.pur.lostSlots.any (fun e => e.1 == slot) then
    let s := s.modPur fun u => { u with lostSlots := u.lostSlots.filter fun e => e.1 != slot }
    let s :=
      match lostLine s slot with
      | none => setSlot slot pslot0 s
      | some l =>
        cxlAppend .a 2 (2 ^ 50 + l * 256) 0
          (setSlot slot { quot := l / purseSlots s, gen6 := gen6 (ent s (folioOf l)).gen, valid := true, dirty := true,
                          queued := true, draining := false,
                          line := { data := 0, hallmark := 0, poison := true, rewritten := 0 } } s)
    .next (retryAfter (· == .slotScan slot) (bump 422 1 s))
  else .next s

/-- RECOINED (R274): a recoinage that holds a page completes once its lines have been read, and the held writes are merged. -/
def execRecoined (b : Nat) (s : State) : Res :=
  if s.cry.recoins.contains b && s.cry.pagesRc.any (fun e => e.2.block == b) then
    let (here, s) := recoinReady b (List.range 64) s
    if !here then .next s
    else
    let (c, s) := ctrFetch (sc s) b s
    let (m, s) := nextMajor (c.getD ctr0).major 1 s
    match m with
    | none =>
      let s := s.modCry fun c => { c with recoins := c.recoins.filter fun x => x != b,
                                          pagesRc := c.pagesRc.filter fun e => e.2.block != b }
      let lost := s.fe.txns.filter fun t => t.wait == .recoin b
      .next (retryAfter TxnWait.polled (forEach lost (fun t s => writeDone t s)
        (s.modFe fun f => { f with txns := f.txns.filter fun t => t.wait != .recoin b })))
    | some v =>
      let s := recoinTo b v s
      let s := s.modCry fun c => { c with recoins := c.recoins.filter fun x => x != b }
      let s := raise 6 1 0x03 (det1 (b * 2 ^ 14) (ent s (b / 128)).key 0 v.toNat) (rinc (bump 520 1 s) 0x300050 1)
      .next (retryAfter (· == .recoin b) s)
  else .next s

/-! Global Persistent Flush (R47). -/

/-- GPF_PHASE1 (R47): new write credits are withheld, on both heads (DESIGN CHOICE, log entry 53). -/
def execGpfPhase1 (h : Head) (s : State) : Res :=
  .next (if memEnabled s h then
    let first := s.fe.portA.gpf == 0 && s.fe.portB.gpf == 0
    let s := if first then s.modPair fun p => { p with gpfUpto := p.mirrorNext } else s
    modPort h (fun p => { p with gpf := max p.gpf 1 }) s
  else s)

/-- GPF_PHASE2 (R47): phase 2 begins; without hold-up the till drains. -/
def execGpfPhase2 (h : Head) (s : State) : Res :=
  .next (if memEnabled s h && 1 ≤ (portOf s h).gpf then
    let s := modPort h (fun p => { p with gpf := 2 }) s
    if holdupActs s then s else s.modPur fun u => { u with flushing := true }
  else s)

/-- R47: the conditions of phase 2: no write waits for its completion, and without hold-up the till is empty; a pair has
every mirror entry merged before phase 1 acknowledged (R405). -/
def gpfReady (s : State) : Bool :=
  !(s.fe.txns.any fun t => t.write) && s.pur.waitQ.isEmpty && (holdupActs s || occupancy s == 0) &&
    !((s.pair.state == .joined || s.pair.state == .settling) && s.pair.mirror.any fun e => !e.settle && e.seq < s.pair.gpfUpto)

/-- GPF_PHASE2_COMPLETE (R47): the heads in phase 2 are answered, and write credits return once no head is in a phase (DESIGN
CHOICE, log entry 53). -/
def execGpfPhase2Complete (s : State) : Res :=
  if gpfReady s then
    let hs := [Head.a, Head.b].filter fun h => (portOf s h).gpf == 2
    if hs.isEmpty then .next s
    else .next (forEach hs (fun h s => send (.gpfDone h) (modPort h (fun p => { p with gpf := 0 }) s))
      (s.modPur fun u => { u with flushing := false }))
  else .next s

end Sys2Proof.Machine
end

