-- ==== Sys2Proof/Machine/MediaOps.lean ====
section
/-! DEFINITION. The media reads and writes of the home slices: what a finished sense, a finished program and the
drain do (R41, R100, R122-R145, R183-R186, R200, R207, R208). -/

namespace Sys2Proof.Machine

/-! Finished reads. -/

/-- A read is sensed again. -/
def resense (o : MOp) (f : MOp → MOp) (s : State) : State :=
  sensesDue o.ch (modOp o.id (fun x => f { x with sent := false, issued := false }) s)

/-- R138, R137: count a drift re-read and send the operation again under a bin. -/
def reread (o : MOp) (bin : Nat) (s : State) : State :=
  resense o (fun x => { x with rereads := 1, bin := bin }) (rereadNote o.ch (opFolio s o) s)

/-- R130: a line found uncorrectable by its decode counts towards the failure of the die that served it. -/
def dieUncorr (o : MOp) (s : State) : State :=
  let k := dieKey o.ch (servePos s o.ch (busPos s o) o.m)
  let key := readKey s o
  s.modMed fun d =>
    { d with dies := tmod default d.dies k fun x =>
        { x with uncorr := (x.uncorr.filter fun e => s.clock < 1000000000 + e.2.2 && e.2.1 != key) ++
            [(bankOf s o.ch o.m, key, s.clock)] } }

/-- R127: a line goes to the uncorrectable path: counted, recorded and raised. -/
def uncorrEnter (o : MOp) (foreign : Bool) (s : State) : State :=
  let f := opFolio s o
  let dpa := f * 2 ^ 21 + opLine s o * 256
  let s := rbit (rinc (bump 449 1 s) 0x200044 1) 0x200000 8
  let s := s.modInteg fun i => { i with uncorrBy := if i.uncorrBy.contains (f, opLine s o) then i.uncorrBy else i.uncorrBy ++ [(f, opLine s o)] }
  if foreign then raise 4 0 0x04 (det1 dpa 0 0x5 0) s else dieUncorr o (raise 4 0 0x01 (det1 dpa 0 0 0) s)

/-- R99, R127: a repair reconstruction of the operation's line is queued; it is delivered when its run ends. -/
def repairRun (o : MOp) (code : Nat) (s : State) : State :=
  reconStart o.ch o.id false (modOp o.id (fun x => { x with rereads := code, sent := false }) s)

/-- The read of a line that is being restruck. -/
def strikes (o : MOp) : Bool :=
  match o.purpose with
  | .strikeRead .. => true
  | _ => false

/-- R127: a line delivered by a repair reconstruction; the read of a restrike writes it itself. -/
def repaired (o : MOp) (s : State) : State :=
  let dpa := opFolio s o * 2 ^ 21 + opLine s o * 256
  let s := raise 4 0 0x02 (det1 dpa 0 0 0) (rinc (bump 450 1 s) 0x200048 1)
  if strikes o then s else queueRestrike o.m (opLine s o) s

/-- R15, R56: the folio of an operation as it was issued: the checks of R122 are made against these. -/
def opEnt (s : State) (o : MOp) : LEntry := { ent s (opFolio s o) with bullion := o.bullion, sealed_ := o.sealed_ }

/-- R127, R131: the line from its stripe; poison of the given syndrome where the stripe cannot give it. -/
def viaStripe (o : MOp) (scan : Bool) (fail : Nat) (repair : Bool) (s : State) : Option LineRes × State :=
  match (if scan then none else reconstruct s o.m (opLine s o)) with
  | some x => (some (reconLine s o.ch (opEnt s o) o.gen x), if repair then repaired o s else s)
  | none => (some (.poison fail), s)

/-- The read of a line of a stripe whose parity line or missing line is being made anew: no reconstruction serves it. -/
def stripeReads (o : MOp) : Bool :=
  match o.purpose with
  | .stripeRead .. => true
  | _ => false

/-- R127: a line that does not decode: its stripe for bullion, else poison; a substitute poisons with FAILED_DIE (R131). -/
def lineLost (o : MOp) (subst : Bool) (s : State) : Option LineRes × State :=
  let s := uncorrEnter o false s
  if stripeReads o then (some (.poison 0x2), s)
  else if o.bullion then (none, repairRun o 2 s) else (some (.poison (if subst then 0x3 else 0x1)), s)

/-- R122, R123, R131: what a decoded line with n bits corrected gives. -/
def lineDecoded (o : MOp) (subst : Bool) (l : MLine) (n : Nat) (s : State) : Option LineRes × State :=
  let s := corrected o.m (opLine s o) n o.bullion s
  match checkLine s o.ch (opEnt s o) o.gen l with
  | some res => (some (if subst && res == .zero then .poison 0x3 else res), s)
  | none =>
    if subst || (stripeReads o && onParity o) then (some (.poison 0x3), s)
    else
      let s := uncorrEnter o true s
      if stripeReads o then (some (.poison 0x5), s)
      else if o.bullion then (none, repairRun o 3 s) else (some (.poison 0x5), s)

/-- R141: one decode of a search: at most t/2 bits corrected are accepted; else the next bin is tried, and after the last the
decode of fewest bits is taken. -/
def searchSense (o : MOp) (r : Sense) (subst : Bool) (l : MLine) (s : State) : Option LineRes × State :=
  let n? := match r with | .decoded n => some n | .foreign _ => some 0 | .uncorrectable => none
  let accept (bin n : Nat) (s : State) : Option LineRes × State :=
    lineDecoded o subst l n (modChan o.ch (fun x => { x with lastBin := bin }) s)
  let better (n : Nat) : Option (Nat × Nat) :=
    match o.best with
    | some b => if n < b.2 then some (o.bin, n) else o.best
    | none => some (o.bin, n)
  let best := match n? with | some n => better n | none => o.best
  if n?.any fun n => n ≤ (if o.bullion then 8 else 4) then accept o.bin (n?.getD 0) s
  else if o.searchAt < 20 then (none, resense o (fun x => { x with searchAt := x.searchAt + 1, best := best }) s)
  else
    match best with
    | some b => accept b.1 b.2 s
    | none => lineLost o subst s

/-- What a finished sense makes of an operation: the line it delivers, or none where it is sent again. -/
def senseResult (o : MOp) (r : Sense) (s : State) : Option LineRes × State :=
  let subst := dieDead s o.ch o.pos o.m && !onParity o
  let run := (chan s o.ch).recon.filter fun x => x.op == o.id
  let s := if run.isSome then reconNext o.ch (modChan o.ch (fun x => { x with recon := none }) s) else s
  let scan := r == .uncorrectable
  if subst && !parityUsable s o.ch o.m then (some (.poison (if o.bullion then 0x2 else 0x3)), s)
  else if subst && o.bullion then viaStripe o scan 0x2 false s
  else if run.any fun x => x.bypass then viaStripe o scan 0x2 false s
  else if o.rereads == 2 then viaStripe o scan 0x2 true s
  else if o.rereads == 3 then viaStripe o scan 0x5 true s
  else
    let raw := mline s (readKey s o)
    let l := match r with | .foreign fl => { raw with flags := fl } | _ => raw
    let stampBin := binOf s l.stamp
    if isBlank l then (some (if subst then .poison 0x3 else .zero), s)
    else if opSearch s o then searchSense o r subst l s
    else if o.rereads == 0 && !s.board.m2.getLsbD o.ch && stampBin != o.bin then (none, reread o stampBin s)
    else
      match r with
      | .uncorrectable => if o.rereads == 0 then (none, reread o (binUp stampBin) s) else lineLost o subst s
      | .decoded n => lineDecoded o subst l n s
      | .foreign _ => lineDecoded o subst l 0 s

/-- R105, R107: the bound in ns within which a read is served in normal service, from its queueing at the home slice: that of
M1 where its line or its counter block lies on an M1 channel. -/
def readBound (s : State) (c : Nat) (l : Nat) : Nat :=
  if s.board.m2.getLsbD c && (ctrChan s l).all fun d => s.board.m2.getLsbD d then 1200 else 2400

/-- R105: the allowance of work ahead in ns. -/
def allowance (s : State) (c : Nat) : Nat :=
  let hot := 2 ≤ (chan s c).thermal
  if s.board.m2.getLsbD c then (if hot then 320 else 448) else (if hot then 0 else 128)

/-- R102, R106, R131: a read is late: it exceeded its allowance, needed more than 7 re-reads, or, where it was reissued or its die
has failed, exceeded its bound. -/
def isLate (s : State) (o : MOp) (l : Nat) : Bool :=
  o.late || allowance s o.ch < o.ahead ||
    ((0 < o.tries || dieDead s o.ch o.pos o.m) && readBound s o.ch l < s.clock - o.since)

/-- R126: the recomputation of a stripe's parity line is queued; the stripe stays open until it is written, and its data lines are
read first. -/
def parityQueue (o : MOp) (s : State) : State :=
  let s := modChan o.ch (fun x => { x with openStripes := if x.openStripes.contains (o.m, o.row) then x.openStripes
                                                          else x.openStripes ++ [(o.m, o.row)] }) s
  stripeStart { ch := o.ch, m := o.m, row := o.row, use := .parity, left := List.range s.board.dieCount } s

/-- The operation that writes what a stripe's lines were read for. -/
def stripeWrite (w : StripeWork) (s : State) : State :=
  let f := (revOf s w.m).owner
  let e := ent s f
  let op (purpose : Purpose) (pos : Nat) : MOp :=
    { id := s.med.nextOp, ch := w.ch, kind := .maint, purpose := purpose, pos := pos, m := w.m, row := w.row,
      gen := e.gen, ready := true, sent := false, bin := 0, rereads := 0, queuedAt := s.clock, line := blankLine,
      late := false, tries := 0, spares := 0, bullion := e.bullion, sealed_ := e.sealed_, since := s.clock }
  match w.use with
  | .parity => pushOp (op (.parity w.m w.row) 0) s
  | .rebuild p => pushOp (op (.rebuild w.m w.row p) p) s
  | .write _ => s

/-- A stripe's work is over. -/
def workDone (w : StripeWork) (s : State) : State :=
  s.modMed fun d => { d with works := d.works.filter fun x => !(x.ch == w.ch && x.m == w.m && x.row == w.row && x.use == w.use) }

/-- R126, R131, R132: a line of a stripe was read; with the last one the write follows. -/
def stripeGot (c m row p : Nat) (bad : Bool) (s : State) : State :=
  let got (w : StripeWork) : StripeWork :=
    if w.ch == c && w.m == m && w.row == row && w.left.contains p then
      { w with left := w.left.filter (· != p), bad := if bad then w.bad ++ [p] else w.bad } else w
  let s := s.modMed fun d => { d with works := d.works.map got }
  let ready (w : StripeWork) : Bool := w.left.isEmpty && !w.writing
  forEach (s.med.works.filter ready) (fun w s =>
    match w.use with
    | .write _ => workDone w s
    | _ => stripeWrite w (s.modMed fun d => { d with works := d.works.map fun x => if x == w then { x with writing := true } else x })) s

/-- R145: the restrike of a line whose read delivered it: its ciphertext, hallmark, flags and generation as decoded, or, where it was
reconstructed, as the ledger gives them; a blank line needs none. -/
def strikeWrite (m off : Nat) (o : MOp) (res : LineRes) (s : State) : State :=
  let raw := mline s (readKey s o)
  if isBlank raw then s
  else
    let l := match res with | .good x => x | _ => raw
    pushOp { o with id := s.med.nextOp, kind := .maint, purpose := .restrikeLine m off, sent := false, issued := false, readyAt := 0,
                    rereads := 0, tries := 0, line := l, queuedAt := s.clock, since := s.clock } s

/-- R181: the copy of a line that a migration read; a line stored with POISON is copied as it stands, with its ciphertext and
hallmark. -/
def migStore (f off : Nat) (o : MOp) (res : LineRes) (s : State) : State :=
  match s.led.migs.find? (fun g => g.folio == f && (g.phase == .copying || g.phase == .recopy || g.phase == .holding)) with
  | none => s
  | some g =>
    let e := ent s f
    let e' := { e with gen := e.gen + 1, bullion := g.bullion, media := g.dst }
    let c := chOf s g.dst off
    let put (l : MLine) (poison : Bool) (s : State) : State :=
      queueOp .maint (.migWrite f off) g.dst off e'
        { l with gen := e'.gen.setWidth 32, flags := lineFlags s c g.bullion e.sealed_ poison false } s
    match res with
    | .zero => s
    | .good l => put l false s
    | .poison syn => if syn == 0x6 then put (mline s (readKey s o)) true s else put (poisonLine s e' off) true s

/-- Deliver a finished read: a host's, a prefetch and a mover's fill the purse as the allocate policy under which it was issued gives,
then the accesses that wait for the line go on; any other goes to its reader. -/
def deliverRead (o : MOp) (res : LineRes) (s : State) : State :=
  let cls := [if s.board.m2.getLsbD o.ch then 2 else 3] ++ (if 0 < o.rereads then [4] else [])
  let fill (l : Nat) (always : Bool) (s : State) : State :=
    match res with
    | .good x =>
      if (ent s (folioOf l)).gen == o.gen && (always || !o.noAlloc) then
        match slotCheck l s with
        | (some _, s) => s
        | (none, s) => fillClean l { data := x.data, hallmark := x.hallmark, poison := false, rewritten := 0 } s
      else s
    | _ => s
  let late (l : Nat) (s : State) : State := if isLate s o l then lateRead o.ch s else s
  let keep (rs : List Taker) (l : Nat) (s : State) : State :=
    s.modMed fun d => { d with taken := (d.taken.filter fun x => !(x.line == l && rs.contains x.by_)) ++
      (rs.map fun r => { by_ := r, line := l, gen := o.gen, res := res, classes := cls }) }
  match o.purpose with
  | .hostRead l => retryLine (some ⟨res, cls, o.gen⟩) l (keep o.takers l (fill l false (late l s)))
  | .prefetch l => retryLine (some ⟨res, cls, o.gen⟩) l (keep o.takers l (countHostRead (folioOf l) (sliceCount l 7 (fill l true (late l s)))))
  | .take r l => retryLine (some ⟨res, cls, o.gen⟩) l (keep (r :: o.takers) l (if r == .mover then fill l false (late l s) else s))
  | .assay m _ _ => if (revOf s m).kind == 1 then countHostRead (revOf s m).owner s else s
  | .strikeRead m off => strikeWrite m off o res (countHostRead (revOf s m).owner s)
  | .stripeRead m row p =>
    stripeGot o.ch m row p (match res with | .poison syn => syn != 0x6 | _ => false) (countHostRead (revOf s m).owner s)
  | .migRead f off => migStore f off o res s
  | _ => s

/-- R126: a parity line that does not decode is recomputed; the read of a stripe's own work notes it. -/
def parityRead (o : MOp) (r : Sense) (s : State) : Option LineRes × State :=
  let raw := mline s (readKey s o)
  let search := opSearch s o
  let m2 := s.board.m2.getLsbD o.ch
  let bin := binOf s raw.stamp
  if isBlank raw then (some .zero, s)
  else if !search && o.rereads == 0 && !m2 && bin != o.bin then (none, reread o bin s)
  else
    match r with
    | .decoded n => (some (.good raw), corrected o.m (readKey s o % 32768) n true s)
    | .foreign _ => (some (.good raw), s)
    | .uncorrectable =>
      if !search && o.rereads == 0 then (none, reread o (binUp bin) s)
      else
        let s := dieUncorr o s
        if stripeReads o then (some (.poison 0x2), s) else (some .zero, parityQueue o s)

/-- R144: the age at which the patrol restrikes a line. -/
def ageLimit (s : State) : Nat := max 0x1000 (min 0x700000 (rval s 0x200014 % 2 ^ 24))

/-- R144: the patrol restrikes a line at or above the age limit. -/
def ageCheck (o : MOp) (s : State) : State :=
  match o.purpose with
  | .assay m off true =>
    if ageLimit s ≤ (stampNow s - (mline s (lineKey m off)).stamp).toNat then queueRestrike m off s else s
  | _ => s

/-- R142, R144: a folio's restrikes are all done. -/
def folioStruck (s : State) (f : Nat) : Bool :=
  let m := (ent s f).media
  !s.integ.restrikes.any (fun x => x.1 == m) &&
    !s.med.ops.any fun o => match o.purpose with | .restrikeLine x _ | .strikeRead x _ => x == m | _ => false

/-- R139, R142: the restrikes of a whole folio are done: its date stamp is set, and it leaves the scrub list. -/
def strikesNote (m : Nat) (s : State) : State :=
  let f := (revOf s m).owner
  let listed := s.integ.scrubbing && s.integ.scrub.contains f
  if (listed || s.integ.wholeStrikes.contains f) && folioStruck s f then
    modEnt f (fun e => { e with stamp := stampNow s }) (s.modInteg fun i =>
      { i with wholeStrikes := i.wholeStrikes.filter (· != f), scrub := if listed then i.scrub.filter (· != f) else i.scrub })
  else s

/-- MEDIA_READ_DONE (R122): a read that had its slot, or whose reconstruction run ended. -/
def execMediaReadDone (op : Nat) (r : Sense) (s : State) : Res :=
  match findOp s op with
  | none => .next s
  | some o =>
    if !readsLine o || !o.sent then .next s
    else
      match (if onParity o && o.bullion then parityRead o r s else senseResult o r s) with
      | (none, s) => .next s
      | (some res, s) =>
        .next (retryWhere TxnWait.polled ((fun s => if strikes o then strikesNote o.m s else s) (sensesDue o.ch (deliverRead o res (dropOp op (ageCheck o s))))))

/-! Finished writes. -/

/-- R201: the eviction-buffer copy that an operation drains, or the line's slot where that is what it drains. -/
def drainedEvb (lineNo op : Nat) (s : State) : Option EvLine :=
  s.pur.evb.find? fun x => x.lineNo == lineNo && x.draining && x.op == op

/-- R208: an operation drains the line from its slot. -/
def drainsSlot (lineNo op : Nat) (s : State) : Bool :=
  let p := slotOf s lineNo
  p.valid && p.draining && p.op == op && p.quot == lineNo / purseSlots s

/-- R49: a line's poison ends once a media write completed whose every sector had been rewritten. -/
def settlePoison (lineNo op : Nat) (s : State) : State :=
  let l :=
    match drainedEvb lineNo op s with
    | some x => x.line
    | none => (slotOf s lineNo).line
  if l.poison && l.rewritten == 0xF then poisonListDrop lineNo s else s

/-- A drained line leaves the till: the eviction-buffer copy that the operation drained goes, or its slot becomes clean; a
slot that a newer eviction-buffer copy supersedes is invalidated (R100, R200, R201). -/
def tillFree (lineNo op : Nat) (s : State) : State :=
  match drainedEvb lineNo op s with
  | some x => s.modPur fun u => { u with evb := u.evb.erase x }
  | none =>
    let k := slotNo s lineNo
    let p := slotOf s lineNo
    if drainsSlot lineNo op s then
      if (evbFind s lineNo).isSome then setSlot k pslot0 s
      else
        let l := p.line
        let l := if l.poison && l.rewritten == 0xF then { l with poison := false, rewritten := 0 } else l
        setSlot k { p with draining := false, dirty := false, queued := false, op := 0, line := l } s
    else s

/-- A mover queue. -/
def queueAt (s : State) (q : Nat) : Option Queue := tget none s.mov.queues q

/-- Update of every descriptor in flight. -/
def mapDescs (f : Desc → Desc) (s : State) : State :=
  s.modMov fun m => { m with queues := m.queues.map fun e => (e.1, e.2.map fun q => { q with descs := q.descs.map f }) }

/-- The codes in `Desc.waits`: a line whose drain has not been issued. -/
def waitLine (l : Nat) : Nat := 4 * l
/-- A media operation. -/
def waitOp (op : Nat) : Nat := 4 * op + 1
/-- A forwarded access. -/
def waitFwd (id : Nat) : Nat := 4 * id + 2
/-- A line queued for prefetch. -/
def waitPrefetch (l : Nat) : Nat := 4 * l + 3

/-- R41, R54, R185: a write merged into a line waits for its media write: its folio is late, and the line is in the till and not in
the overdraft. -/
def lateWaits (s : State) (l : Nat) : Bool :=
  lateFor s (ent s (folioOf l)) && inTill s l && !s.led.overdraft.any fun e => e.1 == l

/-- The descriptor is a CLEAN (R313). -/
def descIsClean (d : Desc) : Bool := d.raw.toNat % 256 == 7

/-- R400, R413: received entries and forwarded writes whose media write happened are answered. -/
def rxAcks (p : Nat → Bool) (s : State) : State :=
  forEach (s.pair.rxLate.filter fun e => p e.2) (fun e s => send (.pairPkt (if e.1 % 2 == 0 then 6 else 10) (e.1 / 2) 0) s)
    (s.modPair fun x => { x with rxLate := x.rxLate.filter fun e => !p e.2 })

/-- R54, R400: what descriptors and received mirror entries waited for happened; `clean` for CLEAN descriptors too
(R314). -/
def descDrop (p : Nat → Bool) (clean : Bool) (s : State) : State :=
  rxAcks p <| mapDescs (fun d => if clean || !descIsClean d then { d with waits := d.waits.filter fun w => !p w } else d) s

/-- R41: the writes that a completed media write covers. -/
def lateComplete (op : Nat) (s : State) : State :=
  let s := descDrop (· == waitOp op) true s
  let done := s.fe.txns.filter fun t => t.wait == .draining op
  forEach done (fun t s => writeDone t s) (s.modFe fun f => { f with txns := f.txns.filter fun t => t.wait != .draining op })

/-- R65: a freed till line takes the line at the head of the metered queue into the till. A flush ends with the till
empty. -/
def admitWaiting (s : State) : State :=
  let s := meterUpdate s
  let s := if occupancy s == 0 && s.pur.flushing then s.modPur fun u => { u with flushing := false } else s
  match s.pur.waitQ with
  | [] => s
  | w :: rest => retryLine none w.lineNo (s.modPur fun u => { u with waitQ := rest })

/-- R65: lines of the metered queue enter the till while it is below high water. -/
def admitRoom : Nat → State → State
  | 0, s => s
  | n + 1, s => if s.pur.waitQ.isEmpty || highWater s ≤ occupancy s then s else admitRoom n (admitWaiting s)

/-- R41, R239: a line of the till is dropped; the writes merged into it complete, and waiting lines take the room. -/
def lateDropped (f : Nat) (s : State) : State :=
  let s := resvTouch (fun l => folioOf l == f) (descDrop (fun w => w % 4 == 0 && folioOf (w / 4) == f) true s)
  let done := s.fe.txns.filter fun t => t.wait.merged && folioOf t.lineNo == f
  let s := forEach done (fun t s => writeDone t s)
    (s.modFe fun x => { x with txns := x.txns.filter fun t => !(t.wait.merged && folioOf t.lineNo == f) })
  admitRoom s.pur.waitQ.length (meterUpdate s)

/-- R142: a folio whose lines are drained before the mint time is set is listed for the scrub. -/
def scrubNote (f : Nat) (s : State) : State :=
  if s.tbs.set || s.integ.scrub.contains f then s
  else
    let s := s.modInteg fun i => { i with scrub := i.scrub ++ [f] }
    if s.pb.scrubRegions.contains (f / 4096) then s
    else recordQueue recScrub (s.modPb fun p => { p with scrubRegions := p.scrubRegions ++ [f / 4096] })

/-- R98: a stripe closes when its MERGE or its recomputation completes. -/
def stripeClose (o : MOp) (s : State) : State :=
  modChan o.ch (fun x => { x with openStripes := x.openStripes.erase (o.m, o.row) }) s

/-- Operations that have not begun are given up, with their reconstruction runs. -/
def opsDrop (p : MOp → Bool) (s : State) : State :=
  forEach (s.med.ops.filter fun o => p o && !(o.issued && !readsLine o)) (fun o s =>
    sensesDue o.ch (reconNext o.ch (dropOp o.id (modChan o.ch (fun x =>
      { x with recon := x.recon.filter fun r => r.op != o.id, reconQ := x.reconQ.filter fun r => r.op != o.id }) s)))) s

/-- Update of a migration. -/
def modMig (f : Nat) (g : Mig → Mig) (s : State) : State :=
  s.modLed fun l => { l with migs := l.migs.map fun x => if x.folio == f then g x else x }

/-- Drop a migration. -/
def dropMig (f : Nat) (s : State) : State := s.modLed fun l => { l with migs := l.migs.filter fun x => x.folio != f }

/-- The reads and writes of a folio's migration are given up. -/
def migOpsDrop (f : Nat) (s : State) : State :=
  opsDrop (fun o => match o.purpose with | .migRead g _ | .migWrite g _ => g == f | _ => false) s

/-- R42: a change from write-back to write-through queues the folio's dirty lines for drain; R207: so does the end of a migration's
hold. -/
def toExpress (f : Nat) (s : State) : State :=
  s.modPur fun u =>
    let mine := u.wbRing.filter fun r => folioOf r.lineNo == f
    { u with exRing := u.exRing ++ mine, wbRing := u.wbRing.filter fun r => folioOf r.lineNo != f }

/-- R182: a migration runs that has not begun its REMAP. -/
def Mig.early (g : Mig) : Bool := g.phase == .copying || g.phase == .recopy || g.phase == .holding

/-- R182: a migration is abandoned before its REMAP: its hold ends, and it is queued again. -/
def migStop (g : Mig) (s : State) : State :=
  if g.early then
    let s := if g.phase == .holding then toExpress g.folio s else s
    modMig g.folio (fun x => { x with phase := .queued, src := noFolio, dst := noFolio, pass := 0, marked := [], todo := [] })
      (migOpsDrop g.folio s)
  else s

/-- R182: a migration is abandoned at its current step: before its REMAP its destination is blanked. -/
def migAbandon (g : Mig) (s : State) : State := if g.early then queueBlank g.dst 0 (migStop g s) else s

/-- R181: the lines of a media folio that hold contents: written lines, and those of a dead die that its substitutes or the stripe
give (R131). -/
def heldLines (s : State) (m : Nat) : List Nat :=
  let dead (k : Nat) : List Nat :=
    let c := (k - 16384) / 512
    ((stripeLines s m c ((k - 16384) % 512)).filter fun o => dieDead s c (dieOf s o) m)
  (writtenLines s m ++ ((writtenKeys s m).filter fun k => 16384 ≤ k).flatMap dead).dedup

/-- R181: the lines of a folio whose drain is in flight; the next pass recopies them. -/
def migPending (s : State) (f : Nat) : List Nat :=
  s.med.ops.filterMap fun o => match o.purpose with
    | .drain l => if folioOf l == f then some (l % 8192) else none
    | _ => none

/-- R89, R181: the reads of a migration's lines are queued. -/
def migAsk (f m : Nat) (os : List Nat) (s : State) : State :=
  forEach os (fun o s => queueOp .maint (.migRead f o) m o (ent s f) blankLine s) s

/-- R181 step 5: under its hold a migration reads the lines that are left, each once its last drain has landed. -/
def migFeed (s : State) : State :=
  forEach (s.led.migs.filter fun g => g.phase == .holding && !g.todo.isEmpty) (fun g s =>
    let now := g.todo.filter fun o => !(migPending s g.folio).contains o
    migAsk g.folio g.src now (s.modLed fun l =>
      { l with migs := l.migs.map fun x => if x.folio == g.folio then { x with todo := x.todo.filter fun o => !now.contains o } else x })) s

/-- The programs of an operation's line take effect: UPDATE and MERGE, or one WRITE (R125), of the parity line where the line's die is
dead (R131); where its parity is recomputed instead, the data line alone (R126). -/
def lineLanded (f : Nat) (e : LEntry) (o : MOp) (s : State) : State :=
  let off := opLine s o
  if o.noMerge then parityQueue o (programOne o.m (lineKey o.m off) o.line s)
  else if o.wire.flags.getLsbD 5 then wearProgram o.m (setMline (parityKey o.m o.ch o.row) o.wire s)
  else
    let s := stripeClose o (programLine f { e with bullion := o.bullion, sealed_ := o.sealed_ } o.m off o.line s)
    if o.merged then
      s.modMed fun d => { d with dies := tmod default d.dies (dieKey o.ch o.pos) fun x => { x with dbufs := x.dbufs.filter fun b => b.1 != o.dbuf } }
    else s

/-- R132, R133: a row of a rebuild is done. -/
def rebuildNext (m row : Nat) (s : State) : State :=
  s.modInteg fun i => { i with rebuildAt := row + 1, rebuildChunk := m }

/-- R115: a channel that has mended the open stripes of its reinit serves its reads again. -/
def mendEnd (c : Nat) (s : State) : State :=
  if (chan s c).mending && (chan s c).openStripes.isEmpty then sensesDue c (modChan c (fun x => { x with mending := false }) s) else s

/-- A program of an operation's line completed on its channel. -/
def writeLanded (o : MOp) (s : State) : State :=
  let s := bankEnd o (dropOp o.id s)
  match o.purpose with
  | .drain l =>
    let f := folioOf l
    let s := scrubNote f (lineLanded f (ent s f) o s)
    let s := lateComplete o.id (tillFree l o.id (settlePoison l o.id s))
    recoinFree (retryAfter (fun w => w == .evictFull || w.polled) (migFeed (admitWaiting s)))
  | .drainCtr _ => s
  | .parity m row =>
    let s := s.modMed fun d => { d with works := d.works.filter fun w => !(w.ch == o.ch && w.m == m && w.row == row && w.use == .parity) }
    mendEnd o.ch (stripeClose o (wearProgram m (setMline (parityKey m o.ch row) o.wire s)))
  | .rebuild m row p =>
    let s := s.modMed fun d => { d with works := d.works.filter fun w => !(w.ch == o.ch && w.m == m && w.row == row && w.use == .rebuild p) }
    let key := if p == 16 then parityKey m o.ch row else lineKey m (opLine s o)
    rebuildNext m row (if isBlank o.wire then setMline key o.wire s else wearProgram m (setMline key o.wire s))
  | .migWrite f _ =>
    let e := ent s f
    lineLanded f { e with gen := e.gen + 1, media := o.m } o s
  | .poisonWrite l => lineLanded (folioOf l) (ent s (folioOf l)) o s
  | .restrikeLine m _ =>
    let key := if progPos s o == 16 then parityKey m o.ch o.row else lineKey m (opLine s o)
    strikesNote m (wearProgram m (setMline key o.wire (bump 452 1 (rinc s 0x200050 1))))
  | .staging n f off _ _ =>
    let e := ent s f
    let s := descDrop (· == waitOp o.id) true (lineLanded f { e with gen := e.gen + 1 } o s)
    s.modEsc fun x => { x with sets := tmod default x.sets n fun y =>
      { y with pendingWrites := y.pendingWrites - 1, stagedLines := tput false y.stagedLines (f * 8192 + off) true } }
  | .blank => setMline (if o.pos == 16 then parityKey o.m o.ch o.row else lineKey o.m (opLine s o)) blankLine s
  | .hostRead _ | .prefetch _ | .take .. | .assay .. | .strikeRead .. | .stripeRead .. | .migRead .. | .mrr .. => s

/-- MEDIA_WRITE_DONE (R41): a program or BLANK that had its slot completes. -/
def execMediaWriteDone (op : Nat) (s : State) : Res :=
  match findOp s op with
  | none => .next s
  | some o => .next (if readsLine o || readsReg o || !o.sent then s else sensesDue o.ch (writeLanded o s))

/-! The drain (R207, R208, R183, R186). -/

/-- A migration holds the drain of a folio (R181 step 4): from its hold until its REMAP; in a power-down's drain, where no REMAP
begins, only while the append of its REMAP completes (R182). -/
def drainHeld (s : State) (f : Nat) : Bool :=
  s.led.migs.any fun g => g.folio == f &&
    if s.pur.drain == .none then g.phase == .holding || g.phase == .remap
    else g.phase == .remap && s.led.appending && s.led.appends.head?.any fun r => r.type == 0x04 && r.a == f

/-- R183, R238: a release in preparation or committed holds the first drain of members without contents in force. -/
def releaseHeld (s : State) (f : Nat) : Bool :=
  s.pur.drain == .none && s.esc.sets.any fun e => (e.2.state == .preparing || e.2.state == .committed) && e.2.members.contains f &&
    (ent s f).media == noFolio

/-- R54, R400: what descriptors and received mirror entries wait for is another event. -/
def waitsMove (a b : Nat) (s : State) : State :=
  let f (w : Nat) : Nat := if w == a then b else w
  (mapDescs (fun d => { d with waits := d.waits.map f }) s).modPair fun p =>
    { p with rxLate := p.rxLate.map fun e => (e.1, f e.2) }

/-- R101, R115, R200: the drain of a line by an operation is taken back: the copy drains again, unless a newer copy, issued or not,
supersedes it; what waited for it waits for the drain that follows. -/
def tillRedrain (lineNo op : Nat) (s : State) : State :=
  let newer : Option EvLine :=
    match drainedEvb lineNo op s with
    | some x => (s.pur.evb.dropWhile fun y => y != x).tail.find? fun y => y.lineNo == lineNo
    | none => if drainsSlot lineNo op s then evbFind s lineNo else none
  let next : Option Nat := newer.bind fun y => if y.draining then some y.op else none
  let back : TxnWait := next.elim .late .draining
  let s := s.modFe fun x => { x with txns := x.txns.map fun t => if t.wait == .draining op then { t with wait := back } else t }
  let s := waitsMove (waitOp op) (next.elim (waitLine lineNo) waitOp) s
  match drainedEvb lineNo op s with
  | some x =>
    if newer.isSome then s.modPur fun u => { u with evb := u.evb.erase x }
    else s.modPur fun u => { u with evb := u.evb.map fun y => if y == x then { y with draining := false, op := 0 } else y }
  | none =>
    if drainsSlot lineNo op s then
      if newer.isSome then setSlot (slotNo s lineNo) pslot0 s
      else
        let p := slotOf s lineNo
        setSlot (slotNo s lineNo) { p with draining := false, queued := true, op := 0 }
          (ringAppend (expressFor s (ent s (folioOf lineNo))) lineNo p.gen6 s)
    else s

/-- R145: a restrike or poison write of the line has been sent. -/
def restrikeSent (s : State) (m o : Nat) : Bool :=
  s.med.ops.any fun x => x.m == m && x.issued && opLine s x == o && match x.purpose with
    | .restrikeLine _ off => off < 16384
    | .poisonWrite _ => true
    | _ => false

/-- R115: lines on a failed channel cannot drain. -/
def drainBlocked (s : State) (l : Nat) : Bool :=
  let e := ent s (folioOf l)
  e.media != noFolio && (channelFailed s l || (chan s (chOf s e.media (l % 8192))).state != .active ||
    restrikeSent s e.media (l % 8192))

/-- R186: a line stays in the till: no spare could take it and its folio's migration has not moved it, or the overdraft has no place
for it. -/
def tillStays (s : State) (l : Nat) : Bool :=
  s.led.overdraftWait.contains l ||
    (s.pur.drain == .none && s.led.migs.any fun g => g.folio == folioOf l && g.phase != .quiesce && g.stay.contains (l % 8192))

/-- A line of the till may be given to its channel now. -/
def drainable (s : State) (l : Nat) : Bool :=
  !drainHeld s (folioOf l) && !releaseHeld s (folioOf l) && !recoinHeld s (blockOf l) && !drainBlocked s l && !tillStays s l

/-- R208: the ring entry's slot still holds the line dirty under its GEN6. -/
def ringLive (s : State) (r : RingEntry) : Bool :=
  let p := slotOf s r.lineNo
  p.valid && p.dirty && !p.draining && p.gen6 == r.gen6 && p.quot == r.lineNo / purseSlots s

/-- R199: a ring entry whose slot is not in the lost-slot table may drain. -/
def ringDrains (s : State) (r : RingEntry) : Bool :=
  ringLive s r && drainable s r.lineNo && !s.pur.lostSlots.any fun e => e.1 == slotNo s r.lineNo

/-- R207: order 4 is due. -/
def order4Due (s : State) : Bool :=
  let pct := min 84 (rval s 0x80120 % 128)
  s.pur.budget * pct ≤ occupancy s * 100 || s.pur.ageDue || s.pur.metered || s.pur.flushing || s.pur.lateForced ||
    s.pur.drain != .none

/-- What the drain takes next. -/
inductive DrainWork where
  /-- an eviction-buffer line -/
  | evb (x : EvLine)
  /-- a counter block -/
  | ctr (b : Nat)
  /-- an express-ring line -/
  | express (r : RingEntry)
  /-- a write-back-ring line -/
  | back (r : RingEntry)
deriving DecidableEq, Repr

/-- R208: entries that no longer name a dirty line are discarded when reached. -/
def ringTrim (s : State) : State :=
  let ex := s.pur.exRing.dropWhile fun r => !ringLive s r
  let wb := s.pur.wbRing.dropWhile fun r => !ringLive s r
  s.modPur fun u => { u with exRing := ex, wbRing := wb }

/-- R207, R210: the due work, in drain order; in a power-down's drain the counter blocks follow their lines. -/
def drainPick (s : State) : Option DrainWork :=
  let down := s.pur.drain != .none
  let ctr : Option DrainWork := (oldestCtr s fun c => !recoinHeld s c.block).map fun c => .ctr c.block
  match s.pur.evb.find? (fun x => !x.draining && drainable s x.lineNo) with
  | some x => some (.evb x)
  | none =>
    match (if !down && s.pur.budget / 16 < (dirtyCtrs s).length then ctr else none) with
    | some w => some w
    | none =>
      match s.pur.exRing.find? (ringDrains s) with
      | some r => some (.express r)
      | none =>
        match (if order4Due s then s.pur.wbRing.find? (ringDrains s) else none) with
        | some r => some (.back r)
        | none => if down then ctr else none

/-- R139, R183: the first allocation of a folio: ALLOC and REMAP are appended; its state stays escrow in a set. -/
def firstAlloc (f : Nat) (s : State) : State :=
  if s.led.appends.any (fun r => r.type == 0x02 && r.a == f) then s
  else
    let e := ent s f
    match allocFor false s with
    | none => s
    | some m =>
      let st := if e.state == .escrow then FolioState.escrow else .live
      jAppend [jRemap f 0 noFolio m ((e.gen + 1).toNat) st] (takeFolio m 1 f s)

/-- The dirty lines of a folio in the till, purse and eviction buffers. -/
def dirtyLinesOf (s : State) (f : Nat) : List Nat :=
  ((s.pur.evb.filter fun x => folioOf x.lineNo == f && !x.draining).map (·.lineNo)) ++
  ((s.pur.slots.filter fun e => slotInFolio s e.1 f e.2 && e.2.dirty && !e.2.draining).map fun e =>
    e.2.quot * purseSlots s + e.1)

/-- R41, R185: the late writes merged into a line that moves to the overdraft complete. -/
def lateLine (l : Nat) (s : State) : State :=
  let s := descDrop (· == waitLine l) false s
  let done := s.fe.txns.filter fun t => t.lineNo == l && t.wait.merged
  forEach done (fun t s => writeDone t s)
    (s.modFe fun f => { f with txns := f.txns.filter fun t => !(t.lineNo == l && t.wait.merged) })

/-- R186, R198: one dirty line moves to the overdraft; where it is full, the line stays in the till and waits for a place. -/
def lineToOverdraft (l : Nat) (s : State) : State :=
  if overdraftMax ≤ s.led.overdraft.length && !s.led.overdraft.any (fun e => e.1 == l) then
    if s.led.overdraftWait.contains l || !inTill s l then s
    else s.modLed fun d => { d with overdraftWait := d.overdraftWait ++ [l] }
  else
    match (if (evbFind s l).isSome then (none, s) else slotCheck l s) with
    | (some _, s) => s
    | (none, s) =>
      match cachedLine s l with
      | none => s
      | some p =>
        let s := lateLine l (spillLine l p s)
        let s := s.modPur fun u => { u with evb := u.evb.filter fun x => x.lineNo != l }
        let s := if slotHit s l (slotOf s l) then setSlot (slotNo s l) pslot0 s else s
        overdraftPut l p s

/-- R186: the folio's dirty lines move to the overdraft. -/
def folioToOverdraft (f : Nat) (s : State) : State := forEach (dirtyLinesOf s f) (fun l s => lineToOverdraft l s) s

/-- What waited for a line's drain waits for the operation that drains it. -/
def waitsIssued (l op : Nat) (s : State) : State := waitsMove (waitLine l) (waitOp op) s

/-- Mark a till line as issued: QUEUED clears, DRAINING sets (R208); late writes wait for this operation (R41). -/
def drainMark (w : DrainWork) (op : Nat) (s : State) : State :=
  let mark (l : Nat) (s : State) : State :=
    (waitsIssued l op s).modFe fun f => { f with txns := f.txns.map fun t => if t.lineNo == l && t.wait == .late then { t with wait := .draining op } else t }
  match w with
  | .evb x => mark x.lineNo (s.modPur fun u => { u with evb := u.evb.map fun y => if y == x then { y with draining := true, op := op } else y })
  | .express r | .back r =>
    let p := slotOf s r.lineNo
    mark r.lineNo (setSlot (slotNo s r.lineNo) { p with queued := false, draining := true, op := op }
      (s.modPur fun u => { u with exRing := u.exRing.filter (· != r), wbRing := u.wbRing.filter (· != r) }))
  | .ctr _ => s

/-- R208: an entry is younger than AGE_S. -/
def ringYoung (s : State) (r : RingEntry) : Bool :=
  let age := (2 ^ 21 + ringTime s - r.time) % 2 ^ 21
  age * 2 ^ 26 < bits (rval s 0x80120) 8 16 * 1000000000

/-- R208: order 4 by age ends when the drain reaches an entry younger than AGE_S. -/
def ageReached (s : State) : State :=
  if s.pur.ageDue && (s.pur.wbRing.find? (ringDrains s)).any (ringYoung s) then s.modPur fun u => { u with ageDue := false } else s

/-- R269, R314: a line whose counter block must reach media first: a late folio's, one on a board without hold-up, or
one that a CLEAN descriptor waits for. -/
def ctrFirst (s : State) (e : LEntry) (l : Nat) : Bool :=
  lateFor s e || !holdupActs s || s.mov.queues.any fun x => x.2.any fun q =>
    q.descs.any fun d => descIsClean d && d.waits.contains (waitLine l)

/-- R207, R183, R134, R269: give a due line to its channel: allocation first where its folio has none, the overdraft
where it cannot be stored; a power-down's drain allocates nothing (R171, R185, log entry 60). -/
def drainLineOut (w : DrainWork) (l : Nat) (p : PLine) (s : State) : State :=
  let f := folioOf l
  let e := ent s f
  if e.media == noFolio then
    if s.pur.drain != .none then folioToOverdraft f s
    else if reserveLeft s == 0 && !(s.led.appends.any fun r => r.type == 0x02 && r.a == f) then
      folioToOverdraft f (raise 5 4 0x05 (det3 f 0) s)
    else firstAlloc f s
  else if e.state == .readOnly || cannotStore s e.media (l % 8192) then lineToOverdraft l s
  else
    let s := if ctrFirst s e l then ctrClean (blockOf l) (if inWindow s l then treeFlush s else s) else s
    let s := s.modLed fun g => { g with migs := g.migs.map fun x =>
      if x.folio == f && (x.phase == .copying || x.phase == .recopy) && !x.marked.contains (l % 8192) then
        { x with marked := x.marked ++ [l % 8192] } else x }
    let op := s.med.nextOp
    let s := drainMark w op s
    let s := bump (match w with | .evb _ => 416 | .express _ => 417 | _ => 418) 1 s
    queueOp .write (.drain l) e.media (l % 8192) e (drainLine s e (l % 8192) p) s

/-- R199: a slot's line is read to be drained; nothing is drained where the slot is lost. -/
def drainSlot (w : DrainWork) (l : Nat) (s : State) : State :=
  match slotCheck l s with
  | (some _, s) => s
  | (none, s) => drainLineOut w l (slotOf s l).line s

/-- DRAIN_ISSUE (R207): the next due line or counter block is queued for its media write; none in ledger-lost mode
(R178), before recovery outside a power-down drain, or while the purse controller is reinitialised (R48). -/
def execDrainIssue (s : State) : Res :=
  let s := ageReached (ringTrim s)
  match (if s.led.lost || (!s.led.recovered && s.pur.drain == .none) || s.sup.fnBusy.contains .purse then none else drainPick s) with
  | none => .next s
  | some (.ctr b) => .next (recoinFree (ctrClean b s))
  | some (.evb x) => .next (drainLineOut (.evb x) x.lineNo x.line s)
  | some (.express r) => .next (drainSlot (.express r) r.lineNo s)
  | some (.back r) => .next (drainSlot (.back r) r.lineNo s)

/-- DRAIN_AGE_CHECK (R208): once per second, the age of the oldest write-back entry against AGE_S. -/
def execDrainAgeCheck (s : State) : Res :=
  if s.clock < 1000000000 + s.pur.ageChecked then .next s
  else
    let s := ringTrim (s.modPur fun u => { u with ageChecked := s.clock })
    match s.pur.wbRing with
    | [] => .next s
    | r :: _ =>
      .next (if ringYoung s r then s else s.modPur fun u => { u with ageDue := true })

end Sys2Proof.Machine
end

