-- ==== Sys2Proof/Machine/Settle.lean ====
section
/-! DEFINITION. Settlement of the correspondent pair (R409-R414) and the pair barrier (R404): what the media slots, the
pair link and the mailbox share. -/

namespace Sys2Proof.Machine

/-! The debt map (R409). -/

/-- R409: the folios of the debt map, exact and coarse. -/
def debtAll (s : State) : List Nat := s.pair.debtExact ++ s.pair.debtCoarse.filter fun f => !s.pair.debtExact.contains f

/-- R409: a folio leaves the debt map; the region bit clears when no folio of its region remains. -/
def debtDrop (f : Nat) (s : State) : State :=
  let s := s.modPair fun p =>
    { p with debtExact := p.debtExact.filter (· != f), debtCoarse := p.debtCoarse.filter (· != f),
             refusedFolios := p.refusedFolios.filter (· != f) }
  if s.pair.regions.contains (f / 4096) && !((debtAll s).any fun g => g / 4096 == f / 4096) then
    recordQueue (recDebt + f / 4096 / 8) (s.modPair fun p => { p with regions := p.regions.filter (· != f / 4096) })
  else s

/-! The barrier (R404). -/

/-- R404: the barrier resolves with a RESULT. -/
def barrierResolve (result : Nat) (s : State) : State :=
  match s.pair.barrier with
  | none => s
  | some b =>
    let s := bump 67 1 (s.modPair fun p =>
      { p with barrier := none, barrierDone := BitVec.ofNat 18 (b.token.toNat + result * 65536) })
    let s := if b.irq then raise 1 5 0x02 ((det3 b.token.toNat result).on .b) s else s
    if result == 3 then raise 1 5 0x03 ((det3 b.token.toNat result).on .b) s else s

/-- R404: the RESULT of a barrier that holds on this controller only, under the policy. -/
def localResult (s : State) : Nat := if s.pair.policy.getLsbD 0 then 3 else 2

/-- R404: the barrier resolves once every covered entry is acknowledged, and while settling once no covered folio
remains in either debt map. -/
def barrierCheck (s : State) : State :=
  match s.pair.barrier with
  | none => s
  | some b =>
    if s.pair.mirror.any fun e => !e.settle && e.seq < b.upto then s
    else if s.pair.state == .settling && b.folios.any fun f => (debtAll s).contains f || s.pair.peerLeft.contains f then s
    else barrierResolve (if b.refused then localResult s else 1) s

/-! Settlement (R410-R414). -/

/-- R412: append SETTLE: folios settled since the last record, folios remaining, and whether it is the end. -/
def settleRecord (done : Bool) (s : State) : State :=
  jAppend [jrec 0x0B s.pair.settled (debtAll s).length (b2n done) 0 0] (s.modPair fun p => { p with settleRecs := 0 })

/-- R412: a folio's last line is acknowledged: it leaves the map, unless a line of it was refused. -/
def settleGone (f : Nat) (s : State) : State :=
  if s.pair.refusedFolios.contains f then s
  else
    let s := (debtDrop f s).modPair fun p => { p with settled := p.settled + 1, settleRecs := p.settleRecs + 1 }
    if 4096 ≤ s.pair.settleRecs then settleRecord false s else s

/-- A settlement entry of a folio is unacknowledged. -/
def settlePending (s : State) (f : Nat) : Bool := s.pair.mirror.any fun e => e.settle && e.sector / 32768 == f

/-- R412: settlement turns to a folio: a blank-mapped one is sent as one instant zero, an unprovisioned one is gone. -/
def settleBegin (f : Nat) (s : State) : State :=
  let e := ent s f
  if !provisioned e then settleGone f s
  else if e.state == .blankMapped && (dirtyLinesOf s f).isEmpty then
    let n := s.pair.mirrorNext
    send (.pairPkt 5 f 0) (bump 68 1 (s.modPair fun p =>
      { p with mirrorNext := n + 1, lastTx := s.clock, packets := p.packets + 1,
               mirror := p.mirror ++ [{ seq := n, key := e.key, sector := f * 32768, data := 0, settle := true,
                                        acked := false, refused := false }] }))
  else s.modPair fun p => { p with settleAt := some (f, 0) }

/-- R412, R414: the folios still to send: those of the map not refused and not sent, listed ones first. -/
def settleLeft (s : State) : List Nat :=
  let fs := (debtAll s).filter fun f => !s.pair.refusedFolios.contains f && !settlePending s f
  (fs.filter fun f => s.pair.partCopied.contains f) ++ fs.filter fun f => !s.pair.partCopied.contains f

/-- R412: settlement turns to the next folio when none is being sent. -/
def settleNext (s : State) : State :=
  (settleLeft s).foldl (fun s f => if s.pair.state == .settling && s.pair.settleAt.isNone then settleBegin f s else s) s

/-- R412: the sectors of a line are sent; a poisoned one has no data to send (log entry 33). -/
def settleSend (l : Nat) (b : Base) (s : State) : State :=
  bump 68 1 (forEach [0, 1, 2, 3] (fun i s =>
    match readSector b i with
    | .ok d => mirrorSend true (ent s (folioOf l)).key (4 * l + i) d s
    | .error _ => s) s)

/-- R412: a slot that serves nothing else sends the next line in settlement, where the line is on the slot's channel or needs no
media read; each line is read as it stands. -/
def settleFeed (c : Nat) (s : State) : State :=
  match s.pair.settleAt with
  | none => s
  | some (f, o) =>
    let l := f * 8192 + o
    let media := (cachedLine s l).isNone && hasMedia s l
    if s.pair.state != .settling || 32764 < s.pair.mirror.length || (media && chOf s (ent s f).media o != c) then s
    else
      let (here, s) := takeReady .settle true l s
      if !here then s
      else
      let (b, s) := takeBase .settle l (ringSnoop none false l s)
      let s := settleSend l b s
      if o == 8191 then
        let s := s.modPair fun p => { p with settleAt := none }
        settleNext (if settlePending s f then s else settleGone f s)
      else s.modPair fun p => { p with settleAt := some (f, o + 1) }

/-- R414: the pair is joined once neither map holds a folio other than refused ones. -/
def settleDone (s : State) : State :=
  if s.pair.state != .settling || !s.pair.peerLeft.isEmpty || (debtAll s).any fun f => !s.pair.refusedFolios.contains f then s
  else
    let s := s.modPair fun p => { p with state := .joined, settleAt := none, partCopied := [], receiving := [] }
    let s := raise 1 7 0x02 ((det3 s.pair.settled (debtAll s).length).on .b) (settleRecord true s)
    let s := match s.pair.settleBy with
      | some p => bgFinish p 0 (s.modPair fun x => { x with settleBy := none })
      | none => s
    barrierCheck s

/-! R406: who leads. -/

/-- R406: this controller is the time lead: its SOURCE is not 0x2, and where neither follows the lower serial number. -/
def timeLead (s : State) : Bool :=
  s.tbs.source != 2 && (s.pair.peerSource == 2 || s.board.serial.toNat < s.pair.peerSerial.toNat)

/-- R411: this controller counts as the time lead; where both follow, none leads, and the lower serial number decides as it
does where neither follows (DESIGN CHOICE, log entry 89). -/
def leadFor (s : State) : Bool :=
  timeLead s || (s.tbs.source == 2 && s.pair.peerSource == 2 && s.board.serial.toNat < s.pair.peerSerial.toNat)

/-- R411: the correspondent prevails over this controller on a folio in both maps. -/
def peerPrevails (s : State) (f : Nat) : Bool :=
  let own := s.pair.debtExact.contains f
  let peer := s.pair.peerExact.contains f
  let a := bits s.pair.policy.toNat 2 2 == 1
  let b := s.pair.peerAuth == 1
  if own != peer then peer
  else if s.pair.activeThrough != s.pair.peerActive then s.pair.peerActive
  else if a != b then b
  else !leadFor s

/-- R411: this controller's entry is dropped and counted as overwritten. -/
def settleOverwrite (f : Nat) (s : State) : State :=
  raise 1 7 0x04 ((det3 f 0).on .b) ((debtDrop f s).modPair fun p => { p with overwritten := p.overwritten + 1 })

/-- R410, R411: settlement starts: conflicts are decided, and mirroring of new writes resumes. -/
def settleStart (s : State) : State :=
  let lost := (debtAll s).filter fun f => s.pair.debtPeer.contains f && peerPrevails s f
  let s := forEach lost settleOverwrite s
  let s := s.modPair fun p =>
    { p with state := .settling, linkReady := false, splitCmd := false, splitPlanned := false, refusedFolios := [],
             peerLeft := p.debtPeer.filter (fun f => !(debtAll s).contains f), mirrored := [], receiving := [],
             settleAt := none }
  settleDone (settleNext (raise 1 7 0x01 ((det3 (debtAll s).length s.pair.peerLeft.length).on .b) s))

end Sys2Proof.Machine
end

