-- ==== Sys2Proof/Machine/Channels.lean ====
section
/-! DEFINITION. Media channels: commits, frames and slots, die alerts, bring-up, die failures and rebuilds, restrikes,
patrol, scrub, and the media commands of class 0xC2 (R84-R115, R130-R151). -/

namespace Sys2Proof.Machine

/-! Level 2 reinits (R483-R485). -/

/-- The number of a function in the daybook, and the key of its failures. -/
def fnCode : Function → Nat
  | .head h => headNo h
  | .slice n => 8 + n % 8
  | .purse => 16
  | .channel c => 32 + c % 32
  | .engine e => 64 + e % 8
  | .package e => 72 + e % 8
  | .mailbox .a => 80
  | .mailbox .b => 81
  | .mailbox .board => 82
  | .keyPage p => 88 + p % 8
  | .cpu => 96

/-- R432: the audit counters of one function. -/
def fnCounters : Function → List Nat
  | .head .a => List.range' 0 32
  | .head .b => List.range' 32 32
  | .slice n => List.range' (352 + 8 * n) 8
  | .channel c => List.range' (96 + 8 * c) 8
  | .engine e => List.range' (576 + 8 * e) 8
  | _ => []

/-- R484, R485: a level 2 reinit begins: counted, raised, its counters cleared. -/
def reinitStart (f : Function) (s : State) : State :=
  let s := s.modSup fun u => { u with reinits := satAdd 0xFF u.reinits 1,
                                      fnBusy := if u.fnBusy.contains f then u.fnBusy else u.fnBusy ++ [f] }
  let s := s.modEv fun e => { e with ctrs := e.ctrs.filter fun x => !(fnCounters f).contains x.1 }
  raise 9 6 0x01 (det3 (fnCode f) 2) s

/-! Registers and commits (R110, R111, R28). -/

/-- BAR0 offset of a channel's register. -/
def mch (c off : Nat) : Nat := 0x100000 + 0x1000 * c + off

/-- R10: a channel is populated. -/
def populated (s : State) (c : Nat) : Bool := (popChans s).contains c

/-- R110: the members of a target. -/
def members (s : State) : ChTarget → List Nat
  | .channel c => if populated s c then [c] else []
  | .broadcast => popChans s
  | .group g => (popChans s).filter fun c => (tget 0 s.med.groupMask g).getLsbD c

/-- The staged map of a channel. -/
def stagedMap (s : State) (c : Nat) : BitVec 64 :=
  BitVec.ofNat 64 (rval s (mch c 0x10) + (if s.board.m2.getLsbD c then rval s (mch c 0x14) else 0) * 2 ^ 32)

/-- R28, R111: the channels that a COMMIT reaches: an unpopulated channel has its block where its cluster runs. -/
def commitMembers (s : State) : ChTarget → List Nat
  | .channel c => [c]
  | t => members s t

/-- R28, R111: the one boundary of a COMMIT: the pending one where every member waits for it, else the first at least 32 ns
after the write. -/
def commitBoundary (s : State) (cs : List Nat) : Nat :=
  let at_ := (cs.head?.map fun c => (chan s c).commitAt).getD 0
  if cs.all fun c => (chan s c).commitBuf.isSome && (chan s c).commitAt == at_ then at_ else nextBoundary s

/-- COMMIT (R28, R111): the staged values of every member go to its commit buffer, for one frame boundary. -/
def regCommitStaged (t : ChTarget) (s : State) : Res :=
  let cs := commitMembers s t
  let at_ := commitBoundary s cs
  .next (forEach cs (fun c s =>
    let buf := (stagedMap s c, (rget s (mch c 0x20)).setWidth 3)
    modChan c (fun x => { x with commitBuf := some buf, commitAt := at_ }) s) s)

/-- COMMIT_APPLY (R28, R91): at its boundary the buffer takes effect; an invalid map is not applied. -/
def execCommitApply (c : Nat) (s : State) : Res :=
  match (chan s c).commitBuf with
  | none => .next s
  | some (map, sched) =>
    if mintNow s < (chan s c).commitAt then .next s
    else
      let good := mapValid (s.board.m2.getLsbD c) map
      let s := modChan c (fun x => { x with commitBuf := none, sched := sched, map := if good then map else x.map }) s
      .next (if good then s else raise 2 c 0x01 (det2 c 0 0 0 0) (rbit s (mch c 0x4) 8))

/-- MCH_CNT_CLEAR (R111). -/
def regMchCntClear (t : ChTarget) (s : State) : Res :=
  .next (forEach (members s t) (fun c s => rset (rset s (mch c 0x38) 0) (mch c 0x3C) 0) s)

/-- INT_CNT_CLEAR (R152). -/
def regIntCntClear (_h : Head) (s : State) : Res :=
  .next (forEach (List.range 7) (fun i s => rset s (0x200040 + 4 * i) 0) s)

/-! Frames and slots (R23, R87, R88, R94). -/

/-- The active channels of a cluster. -/
def clusterChans (s : State) (k : Nat) : List Nat :=
  ((List.range 4).map (4 * k + ·)).filter fun c => populated s c && (chan s c).state == .active

/-- R103, R231: a quiet window acts on a channel in the frame that begins at mint time t. -/
def quietIn (s : State) (c t : Nat) : Bool :=
  let b := tget 0 s.so.quiet c
  let e := tget 0 s.so.quietEndAt c
  (0 < b && b - 1 ≤ t) || (0 < e && b == 0 && t < e - 1)

/-- R104: the thermal step in force at the channels, 0 to 3. -/
def mediaStep (s : State) : Nat :=
  match s.sup.step with
  | 0 | 1 => 0
  | 2 => 1
  | 3 => 2
  | _ => 3

/-- R87: one channel starts the frame at mint time t; steps and windows apply (R103, R104); OPS_FULL for the frame
that ended. A channel that joins the frame has its drift table made active at this boundary (R83, R85 step 7). -/
def frameBegin (t c : Nat) (s : State) : State :=
  let x := chan s c
  let full := x.fullFrame
  let step := mediaStep s
  let s := if full then raise 2 c 0x06 (det2 c 0 0 0 0) s else s
  let s := if step != x.thermal then raise 2 c 0x03 (det2 c 0 0 0 step) s else s
  let s := if step == 3 && x.thermal != 3 then raise 2 c 0x04 (det2 c 0 0 0 step) s else s
  let now := opsHeld s c
  let s := (s.modIsl fun i => { i with half := 3 ≤ s.sup.step }).modSup fun u => { u with stepPend := false }
  let s := if x.joining then sendCtl c 31 (mrwPacket 31 4 1) s else s
  modChan c (fun x => { x with frame := t, slot := 0, cycles := s.clock, thermal := step, quiet := quietIn s c t,
                               fullFrame := 128 ≤ now, joining := false }) s

/-- R432: the frame counts of the till, the heads and the thermal steps; kept by cluster 0. -/
def frameCounts (k : Nat) (s : State) : State :=
  if k != 0 then s
  else
    let s := if s.pur.metered then bump 421 1 s else s
    let s := if s.pur.creditsHeld || 6912 ≤ s.pur.waitQ.length || s.fe.portA.gpf != 0 || s.fe.portB.gpf != 0 then
      bump 6 1 (if twoHeads s then bump 38 1 s else s) else s
    match mediaStep s with
    | 0 => s
    | n => bump (703 + n) 1 s

/-- FRAME_START (R23, R87): the cluster starts the frame of the oldest token that has come due. -/
def execFrameStart (k : Nat) (s : State) : Res :=
  let due := (clusterChans s k).filter fun c => (chan s c).token.any fun t => t ≤ mintNow s
  if due.isEmpty then .next s
  else
    .next (forEach due (fun c s =>
      match (chan s c).token with
      | [] => s
      | t :: rest => frameBegin t c (modChan c (fun x => { x with token := rest }) s)) (frameCounts k s))

/-- FRAME_LATE (R88): no token for the next frame has come: the cluster starts it on its own count. -/
def execFrameLate (k : Nat) (s : State) : Res :=
  let due := (clusterChans s k).filter fun c =>
    !(chan s c).joining && 1024 + (chan s c).frame ≤ mintNow s && !(chan s c).token.any fun t => t ≤ 1024 + (chan s c).frame
  .next (forEach due (fun c s =>
    raise 2 c 0x05 (det2 c 0 0 0 0) (frameBegin (1024 + (chan s c).frame) c s)) s)

/-- R232: a queued prefetch of a line on the channel becomes a read when the channel has none waiting. -/
def prefetchFeed (c : Nat) (s : State) : State :=
  if s.med.ops.any fun o => o.ch == c && o.kind == .read && !o.sent then s
  else
    let here (l : Nat) : Bool := hasMedia s l && chOf s (ent s (folioOf l)).media (l % 8192) == c
    match s.pur.prefetchQ.find? (fun e => here e.2) with
    | none => s
    | some e =>
      let s := s.modPur fun u => { u with prefetchQ := u.prefetchQ.erase e }
      if (cachedLine s e.2).isSome || (missOf s e.2).isSome then s
      else
        let en := ent s (folioOf e.2)
        queueOp .read (.prefetch e.2) en.media (e.2 % 8192) en blankLine s

/-- The counters of an operation that takes a slot, and of a lent slot (R432). -/
def slotCounts (c kind : Nat) (o : MOp) (s : State) : State :=
  let s := bump (96 + 8 * c + (match o.kind with | .read => 0 | .write => 1 | .maint => 2)) 1 s
  if o.kind == .read && kind != 0 then bump (96 + 8 * c + 3) 1 s else s

/-- Update of a die. -/
def modDie (c pos : Nat) (f : Die → Die) (s : State) : State :=
  s.modMed fun d => { d with dies := tmod default d.dies (dieKey c pos) f }

/-- R79: XOUT of a read's line. -/
def slotRead (o : MOp) (s : State) : State :=
  let pos := busPos s o
  let die := servePos s o.ch pos o.m
  modBank o.ch pos (bankOf s o.ch o.m) (fun b => { b with lastRead := s.clock })
    (sendDie o.ch die (lineCmd s o 0x02 die).packet (modOp o.id (fun x => { x with sent := true }) s))

/-- R79, R89: the MRR of a die register in its slot. -/
def slotReg (o : MOp) (s : State) : State :=
  match o.purpose with
  | .mrr p reg => sendDie o.ch p (mrrPacket p reg) (dropOp o.id s)
  | _ => s

/-- R125: MERGE of a delta frame into the parity line of an operation's stripe, set-only where it is blank (R76). -/
def slotMerge (o : MOp) (s : State) : State :=
  let die := servePos s o.ch 16 o.m
  let cmd := { lineCmd s o 0x05 die with src := servePos s o.ch o.pos o.m, dbuf := o.dbuf,
                                         setOnly := isBlank (mline s (parityKey o.m o.ch o.row)) }
  bankStart o 16 (sendDie o.ch die cmd.packet (modOp o.id (fun x => { x with sent := true, merged := true }) s))

/-- R132, R134, R135: the line that a rebuild writes at a position: the parity of the data lines, the line that the stripe or a valid
substitute gives, else a poisoned one; a stripe that holds nothing gives a blank line. -/
def rebuildLine (s : State) (c m row p : Nat) : MLine :=
  let f := (revOf s m).owner
  let e := ent s f
  let o := (stripeLines s m c row).getD p 0
  let bad := s.med.works.any fun w => w.ch == c && w.m == m && w.row == row && w.use == .rebuild p && !w.bad.isEmpty
  if p == 16 then
    (if e.bullion then parityLine s c f e (xorLines ((stripeLines s m c row).map fun x => mline s (lineKey m x))) else blankLine)
  else if bad then poisonLine s e o
  else if e.bullion then
    match (reconstruct s m o).map (reconLine s c e e.gen) with
    | some (.good l) => l
    | some _ => blankLine
    | none => poisonLine s e o
  else
    match checkLine s c e e.gen (mline s (parityKey m c row)) with
    | some (.good l) => { l with stamp := stampNow s }
    | _ => poisonLine s e o

/-- R125, R126, R131, R135, R145: the line that an operation's program carries, and its key: each gets its STAMP as its packet is
sent; a recomputed parity line is the XOR of the data lines, the write of a bullion line of a dead die the parity line with the
new line in it, and a restruck parity line stands as it is then. -/
def progLine (s : State) (o : MOp) : Nat × MLine :=
  let pk := parityKey o.m o.ch o.row
  match o.purpose with
  | .parity m row =>
    let f := (revOf s m).owner
    (pk, parityLine s o.ch f (ent s f) (xorLines ((stripeLines s m o.ch row).map fun x => mline s (lineKey m x))))
  | .rebuild m row p => (if p == 16 then pk else lineKey m (opLine s o), rebuildLine s o.ch m row p)
  | .restrikeLine m off =>
    if 16384 ≤ off then (pk, { mline s pk with stamp := stampNow s })
    else (if dieDead s o.ch o.pos o.m then pk else lineKey m off, { o.line with stamp := stampNow s })
  | _ =>
    if dieDead s o.ch o.pos o.m then
      if o.bullion then
        let f := opFolio s o
        let others := (stripeLines s o.m o.ch o.row).filter fun x => x != opLine s o
        (pk, parityLine s o.ch f (opEnt s o) (xorLines (o.line :: others.map fun x => mline s (lineKey o.m x))))
      else (pk, { o.line with stamp := stampNow s })
    else (lineKey o.m (opLine s o), { o.line with stamp := stampNow s })

/-- R92, R96-R98, R125, R147: a program's transfer: an UPDATE, which opens the stripe until its MERGE, or a WRITE; set-only on a
blank line, and on the spare line of a repair. A delta frame is in DBUF tDELTA after the data transfer (R73). A rebuilt line that
is blank is sent as BLANK. -/
def slotProgram (o : MOp) (s : State) : State :=
  let pos := progPos s o
  let die := servePos s o.ch pos o.m
  let (key, line) := progLine s o
  let old := mline s key
  let two := twoStep s o && !o.noMerge && !o.merged
  let upd := two && !o.setOnly
  let dbuf := if upd then (dbufFree s o).getD 0 else o.dbuf
  let cmd := { lineCmd s o (if upd then 0x04 else if isBlank line then 0x06 else 0x03) die with
                 dbuf := if upd then dbuf else 0,
                 setOnly := o.setOnly || (isBlank old && !isBlank line && !dieDead s o.ch o.pos o.m) }
  let s := sendDie o.ch die cmd.packet s
  let s := if isBlank line then s else sendLine o.ch line s
  let s := if upd then modDie o.ch o.pos (fun d => { d with dbufs := tput default d.dbufs dbuf (deltaFrame old line) }) s else s
  let s := if two then modChan o.ch (fun x => { x with openStripes := if x.openStripes.contains (o.m, o.row) then x.openStripes
                                                                      else x.openStripes ++ [(o.m, o.row)] }) s else s
  bankStart o pos (modOp o.id (fun x => { x with line := if key == lineKey o.m (opLine s o) then line else x.line, wire := line,
                                                 issued := true, updated := two, sent := !two, dbuf := dbuf,
                                                 readyAt := s.clock + (if upd then slotLen s o.ch + tDelta s o.ch else 0) }) s)

/-- R150: the 8 bytes of an intent-page entry. -/
def intentEntry (s : State) (e : Nat × Nat × Nat) : List Byte :=
  let pos := e.2.1 / 2 ^ 45
  let m := e.2.1 / 2 ^ 15 % 2 ^ 30
  toLE 8 (servePos s e.1 pos m + bankOf s e.1 m * 2 ^ 5 + browOf s e.1 m (e.2.1 % 2 ^ 15) * 2 ^ 11 + e.2.2 * 2 ^ 34 + 2 ^ 36)

/-- R150: before the first packet of a batch, the channel's next programs, up to 32 entries, are written as its intent page; the
first program is sent once the page is written. -/
def intentBatch (o : MOp) (s : State) : State :=
    let more := s.med.ops.filter fun x => x.ch == o.ch && !readsLine x && !readsReg x && !blanks x && x.id != o.id
    let es := (intentKeys s o ++ more.flatMap (intentKeys s)).dedup.take 32
    pageQueue 1 (recIntent o.ch) (es.flatMap (intentEntry s) ++ zeros (256 - 8 * es.length)) 0
      (s.modInteg fun i => { i with torn := (i.torn.filter fun e => e.1 != o.ch) ++ es })

/-- R79, R94: an operation gets its slot. -/
def slotGive (c kind : Nat) (o : MOp) (s : State) : State :=
  if !readsLine o && !readsReg o && intentActs s && !inIntent s o then intentBatch o s
  else
    let s := slotCounts c kind o s
    if readsLine o then slotRead o s
    else if readsReg o then slotReg o s
    else if o.updated then slotMerge o s
    else slotProgram o s

/-- R99: the positions of a run's stripe, the parity die among them, whose line's own date stamp falls in a bin other than the one
used; on M2 outside stamp search the die chose each line's own. -/
def reconRereads (s : State) (o : MOp) : List Nat :=
  let bin := if opSearch s o then (chan s o.ch).lastBin else o.bin
  let key (p : Nat) : Nat := if p == 16 then parityKey o.m o.ch o.row else lineKey o.m ((stripeLines s o.m o.ch o.row).getD p 0)
  if s.board.m2.getLsbD o.ch && !opSearch s o then []
  else (reconPos s o).filter fun p => !isBlank (mline s (key p)) && binOf s (mline s (key p)).stamp != bin

/-- R99, R106: a slot of a running reconstruction, from the first after its first sense, transfers its next line; the lines that must
be sensed again follow the run in further slots, and a run with more than 7 of them is late. Its read is done with its last
transfer. -/
def reconSlot (c : Nat) (r : ReconRun) (s : State) : State :=
  match findOp s r.op with
  | none => modChan c (fun x => { x with recon := none }) s
  | some o =>
    let ps := if r.rereads == 0 then reconPos s o else r.again
    let die := servePos s c (ps.getD (ps.length - r.left) 16) o.m
    let s := sendDie c die (lineCmd s o 0x02 die).packet s
    if 1 < r.left then modChan c (fun x => { x with recon := some { r with left := r.left - 1 } }) s
    else
      let again := if r.rereads == 0 then reconRereads s o else []
      if again.isEmpty then
        modOp r.op (fun x => { x with sent := true, late := x.late || 7 < r.rereads })
          (modChan c (fun x => { x with recon := some { r with left := 0 } }) s)
      else
        let n := again.length
        forEach again (fun p s => reconSense o (binOf s (mline s (if p == 16 then parityKey o.m c o.row
            else lineKey o.m ((stripeLines s o.m c o.row).getD p 0))).stamp) p true (rereadNote c (opFolio s o) s))
          (modChan c (fun x => { x with recon := some { r with left := n, rereads := n, again := again, ready := s.clock + tSense s c } }) s)

/-- R145, R128: a restrike whose line became dirty before its packet was sent is abandoned, and so is the write of a poison line. -/
def restrikesTrim (c : Nat) (s : State) : State :=
  forEach (s.med.ops.filter fun o => o.ch == c && !o.issued && match o.purpose with
    | .restrikeLine m off | .strikeRead m off => off < 16384 && inTill s ((revOf s m).owner * 8192 + off)
    | .poisonWrite l => inTill s l
    | _ => false) (fun o s => strikesNote o.m (dropOp o.id s)) s

/-! Drift tables (R136). -/

/-- R136: the offsets of a bin as the passbook holds them: Brynmund's, or those of a signed image. -/
def driftOf (s : State) (m2 : Bool) (e : Nat) : BitVec 24 := tget (Config.driftOffsets m2 e) s.pb.drift (32 * b2n m2 + e)

/-- R136: the drift tables that a signed image carries replace the passbook's. -/
def driftStore (image : List Byte) (s : State) : State :=
  let put (t : Tab (BitVec 24)) (k : Nat) : Tab (BitVec 24) :=
    match Config.imageDrift image (32 ≤ k) (k % 32) with
    | none => t
    | some v => tput (Config.driftOffsets (32 ≤ k) (k % 32)) t k v
  s.modPb fun p => { p with drift := (List.range 20 ++ List.range' 32 20).foldl put p.drift }

/-! Rebuilds (R132, R133). -/

/-- R39: rows of a chunk on one die. -/
def rowCount (s : State) : Nat := 8192 / (s.board.channels * s.board.dieCount)

/-- R132: the rows of a channel's stripes that hold a written line. -/
def stripesOn (s : State) (c : Nat) : List (Nat × Nat) :=
  (s.med.lines.filterMap fun e =>
    let m := e.1 / 32768
    let o := e.1 % 32768
    if o < 8192 then (if chOf s m o == c then some (m, rowOfLine s o) else none)
    else if (o - 16384) / 512 == c then some (m, (o - 16384) % 512) else none).dedup

/-- R132: the rows that a rebuild of a channel still has to do: those with a written line, and every row of the chunks of scrip
folios, whose lines read poisoned where they had no substitute. The other rows hold nothing. -/
def rebuildLeft (s : State) (c : Nat) : List (Nat × Nat) :=
  let scrip := (s.led.entries.filter fun e => provisioned e.2 && !e.2.bullion && e.2.media != noFolio).map (·.2.media)
  ((stripesOn s c ++ scrip.flatMap fun m => (List.range (rowCount s)).map fun r => (m, r)).dedup).filter fun x =>
    s.integ.rebuildChunk < x.1 || (s.integ.rebuildChunk == x.1 && s.integ.rebuildAt ≤ x.2)

/-- R132: the first of rows in ascending chunk order and in row order. -/
def firstRow : List (Nat × Nat) → Option (Nat × Nat)
  | [] => none
  | x :: r =>
    match firstRow r with
    | none => some x
    | some y => if x.1 < y.1 || (x.1 == y.1 && x.2 ≤ y.2) then some x else some y

/-- R133: a rebuild has reached a row; progress is recorded in the passbook every 4,096 chunks. -/
def rebuildReach (c pos m row : Nat) (s : State) : State :=
  let old := s.integ.rebuildChunk
  let s := s.modInteg fun i => { i with rebuildChunk := m, rebuildAt := row }
  if old / 4096 == m / 4096 then s
  else recordQueue recRebuild (s.modPb fun p => { p with rebuildRec := some (c, pos, m / 4096 * 4096) })

/-- A rebuild's stripe is being read or written. -/
def rebuildBusy (s : State) (c : Nat) : Bool :=
  s.med.works.any fun w => w.ch == c && match w.use with | .rebuild _ => true | _ => false

/-- R132, R133: one step of a rebuild, in ascending chunk order and in row order: the lines that give the next row's are read. The
row waits while its stripe is open or is being written (R98); a row of the reserve is blanked. -/
def rebuildStep (c : Nat) (s : State) : State :=
  let pos := s.integ.rebuildPos
  match firstRow (rebuildLeft s c) with
  | none => if s.integ.rebuildChunk < mediaN s then rebuildReach c pos (mediaN s) 0 s else s
  | some (m, row) =>
    let held := (chan s c).openStripes.contains (m, row) ||
      s.med.ops.any fun o => o.ch == c && o.m == m && o.row == row && o.issued && !readsLine o
    if rebuildBusy s c || held then s
    else
      let s := rebuildReach c pos m row s
      let r := revOf s m
      let e := ent s r.owner
      let w : StripeWork := { ch := c, m := m, row := row, use := .rebuild pos, left := [] }
      let next := s.modInteg fun i => { i with rebuildAt := row + 1 }
      if r.kind == 0 && pos < 16 then
        setMline (lineKey m ((stripeLines s m c row).getD pos 0)) blankLine
          (sendDie c 17 ({ op := 0x06, die := 17, bank := bankOf s c m, brow := browOf s c m row } : LineCmd).packet next)
      else if r.kind != 1 || (pos == 16 && !e.bullion) then next
      else if pos == 16 then stripeStart { w with left := List.range s.board.dieCount } s
      else if !e.bullion then stripeStart { w with left := [16] } s
      else if parityUsable s c m then
        stripeStart { w with left := ((List.range s.board.dieCount).filter (· != pos)) ++ [16] } s
      else
        let w := { w with bad := [16], writing := true }
        stripeWrite w (s.modMed fun d => { d with works := d.works ++ [w] })

/-- R133: a slot that no operation takes serves the rebuild: a maintenance slot, and with BOOST a write slot while the till is
below low water; else settlement (R412). -/
def slotLeft (c kind : Nat) (s : State) : State :=
  if s.integ.rebuildCh == some c && rebuildSlot s kind && !rebuildBusy s c then rebuildStep c s
  else
    match slotSpare s c with
    | some o => slotGive c kind o s
    | none => settleFeed c s

/-! Assays (R143, R144, R149). -/

/-- R143: the lines of a media folio on one channel: its rows, each with its data lines and its parity line. -/
def assayLines (s : State) (c : Nat) : Nat := rowCount s * (s.board.dieCount + b2n (s.board.parityDies.getLsbD c))

/-- The place in the folio's keys of the i-th of them. -/
def assayKey (s : State) (c m i : Nat) : Nat :=
  let per := s.board.dieCount + b2n (s.board.parityDies.getLsbD c)
  let row := i / per
  if i % per < s.board.dieCount then (stripeLines s m c row).getD (i % per) 0 else 16384 + c * 512 + row

/-- R143: an assay's next read of the channel is queued while it has none waiting, and an assay that has begun its last line on
every channel is over; a channel that is not in service has none. -/
def assayFeed (c : Nat) (s : State) : State :=
  let past (a : AssayRun) : Bool := (popChans s).all fun d =>
    assayLines s d ≤ tget 0 a.done d || (chan s d).state == .failed || (chan s d).state == .off
  let s := s.modMed fun d => { d with assays := d.assays.filter fun a => !past a }
  if s.med.ops.any fun o => o.ch == c && !o.sent && match o.purpose with | .assay .. => true | _ => false then s
  else
    match s.med.assays.find? (fun a => tget 0 a.done c < assayLines s c) with
    | none => s
    | some a =>
      let off := assayKey s c a.m (tget 0 a.done c)
      let s := s.modMed fun d => { d with assays := d.assays.map fun b =>
        if b == a then { b with done := tput 0 b.done c (tget 0 b.done c + 1) } else b }
      queueOp .maint (.assay a.m off a.patrol) a.m (keyLine s a.m off) (ent s (revOf s a.m).owner) blankLine s

/-! BLANK (R79, R95, R181 step 7). -/

/-- R79: the BLANK of an operation's line is sent, and its bank is busy. -/
def blankSend (o : MOp) (s : State) : State :=
  let die := servePos s o.ch o.pos o.m
  bankStart o o.pos (sendDie o.ch die (lineCmd s o 0x06 die).packet (modOp o.id (fun x => { x with sent := true, issued := true }) s))

/-- R95, R101: a BLANK may start on its bank now; it counts as a program for R73 and R97 (DESIGN CHOICE, log entry 54). -/
def blankMay (s : State) (o : MOp) : Bool := bankReady s o && progRoom s o.ch

/-- The BLANK of a row of media folio m on a die of channel c. -/
def blankOp (s : State) (c m p row : Nat) : MOp :=
  { (default : MOp) with id := s.med.nextOp, ch := c, kind := .maint, purpose := .blank, pos := p, m := m, row := row, ready := true,
                         queuedAt := s.clock, since := s.clock }

/-- R95: the BLANK of the next row of folio m on a die, where its bank may start one. -/
def blankNext (c m p : Nat) (s : State) : State :=
  let row := tget 0 (chan s c).blankAt (m * 18 + p)
  let o := blankOp s c m p row
  if rowCount s ≤ row || dieDead s c p m || !blankMay s o then s
  else
    blankSend o (modChan c (fun x => { x with blankAt := tput 0 x.blankAt (m * 18 + p) (row + 1) })
      (s.modMed fun d => { d with ops := d.ops ++ [o], nextOp := d.nextOp + 1 }))

/-- The die positions that hold lines of a folio: the data dies and the parity die. -/
def linePositions (s : State) (c : Nat) : List Nat := List.range s.board.dieCount ++ (if s.board.parityDies.getLsbD c then [16] else [])

/-- R79, R95, R102, R181 step 7: BLANKs whose packet was dropped are sent again, and those of the folios being blanked start on
every bank that may; not before every other operation on the folio has completed, and none in a power-down's drain. -/
def blankFeed (c : Nat) (s : State) : State :=
  if s.pur.drain != .none then s
  else
    let s := forEach (s.med.ops.filter fun o => o.ch == c && blanks o && !o.sent)
      (fun o s => if blankMay s o then blankSend o s else s) s
    forEach (s.led.blanking.map (·.1)) (fun m s =>
      if s.med.ops.any fun o => o.m == m && !blanks o then s else forEach (linePositions s c) (blankNext c m) s) s

/-- R181 step 7: every line of folio m has been blanked, or its BLANK is in flight; a channel that is off or failed has none. -/
def blankOver (s : State) (m : Nat) : Bool :=
  (popChans s).all fun c =>
    match (chan s c).state with
    | .active => (linePositions s c).all fun p => dieDead s c p m || rowCount s ≤ tget 0 (chan s c).blankAt (m * 18 + p)
    | .reinit => false
    | _ => true

/-- SLOT_START (R94, R95, R99): the channel's next slot of the frame. A run of a reconstruction takes consecutive slots, but a
read or idle slot goes to an ordinary read that is ready, which counts against the run (R105). BLANKs, which need no slot,
start beside it. -/
def execSlotStart (c : Nat) (s : State) : Res :=
  let x := chan s c
  if x.state != .active || slotCount s c ≤ x.slot || mintNow s < x.frame + x.slot * slotLen s c then .next s
  else
    let k := slotServes s c x.slot
    let s := modChan c (fun x => { x with slot := x.slot + 1 }) s
    match k with
    | none => .next (blankFeed c s)
    | some kind =>
      let s := reconNext c (sensesDue c (assayFeed c (prefetchFeed c (restrikesTrim c s))))
      match (chan s c).recon.filter fun r => 0 < r.left && r.ready ≤ s.clock with
      | some r =>
        match (if kind == 0 || kind == 3 then slotPick s c 3 else none) with
        | some o => .next (blankFeed c (slotGive c kind o (modOp r.op (fun x => { x with ahead := x.ahead + 64 }) s)))
        | none => .next (blankFeed c (reconSlot c r s))
      | none =>
        match slotPick s c kind with
        | some o => .next (blankFeed c (slotGive c kind o s))
        | none => .next (blankFeed c (slotLeft c kind s))

/-! Dies (R80, R84, R96, R102, R115, R126, R147). -/

/-- DIE_TIME_UPDATE (R84): the mint time crossed a multiple of 2^32 ns. -/
def execDieTimeUpdate (s : State) : Res :=
  let n := mintNow s / 2 ^ 32
  .next (if n == s.med.timeUpdated then s else dieTimeSend n (s.tbs.set && !inSearch s) s)

/-- BANK_RESUME (R96): the bank has had no read queued for 64 ns. -/
def execBankResume (c pos bank : Nat) (s : State) : Res :=
  let b := bankAt s c pos bank
  if b.suspended && !readQueued s c pos bank && b.lastRead + 64 ≤ s.clock then
    .next (sendCtl c pos (bankPacket 0x08 pos bank) (modBank c pos bank (fun b => { b with suspended := false }) s))
  else .next s

/-- R115: a die that did not suspend is reported to the integrity block, and the senses sent to its bank wait for the program. -/
def suspReport (c pos bank : Nat) (s : State) : State :=
  let s := modDie c pos (fun d => { d with suspFaults := d.suspFaults + 1, regs := tput 0 d.regs 5 (tget 0 d.regs 5 ||| 0x8) }) s
  let waits (o : MOp) : Bool := readsLine o && o.ch == c && busPos s o == pos && bankOf s c o.m == bank && !o.sent
  let s := modChan c (fun x => { x with fullFrame := x.fullFrame && !s.med.ops.any waits }) s
  let s := s.modMed fun d => { d with ops := d.ops.map fun o => if waits o then { o with issued := false } else o }
  modBank c pos bank (fun b => { b with suspended := false, stuck := true }) s

/-- SUSP_FAULT (R115): the die did not suspend: its reads wait for the bank. -/
def execSuspFault (c pos bank : Nat) (s : State) : Res :=
  if s.board.m2.getLsbD c && (bankAt s c pos bank).suspended then
    .next (raise 3 c 0x04 (det2 c pos bank 0 8) (suspReport c pos bank s))
  else .next s

/-- R180, R186: a folio whose line no spare could take migrates with priority; a drained line stays in the till until the REMAP. A
migration whose destination could not be written begins anew. -/
def spareMigrate (o : MOp) (f : Nat) (s : State) : State :=
  match o.purpose with
  | .migWrite .. =>
    forEach (s.led.migs.filter fun g => g.folio == f) (fun g s =>
      modMig f (fun x => if x.phase == .queued then { x with prio := 1 } else x) (migAbandon g (raise 5 3 0x01 (det3 f g.prio) s))) s
  | .drain l => modMig f (fun x => { x with stay := (x.stay ++ [l % 8192]).dedup }) (queueMig f 1 0 (ent s f).bullion s)
  | _ => queueMig f 1 0 (ent s f).bullion s

/-- What else ends with an operation that no spare could take. -/
def spareEnds (o : MOp) (s : State) : State :=
  match o.purpose with
  | .drain l => tillRedrain l o.id s
  | .restrikeLine m _ => strikesNote m s
  | .parity m row => s.modMed fun d => { d with works := d.works.filter fun w => !(w.ch == o.ch && w.m == m && w.row == row && w.use == .parity) }
  | .rebuild m row p =>
    rebuildNext m row (s.modMed fun d => { d with works := d.works.filter fun w => !(w.ch == o.ch && w.m == m && w.row == row && w.use == .rebuild p) })
  | .staging n _ _ _ _ =>
    (descDrop (· == waitOp o.id) true s).modEsc fun x =>
      { x with sets := tmod default x.sets n fun y => { y with pendingWrites := y.pendingWrites - 1 } }
  | _ => s

/-- R147, R186: a line that no spare can take: a priority migration, or the overdraft at reserve 0. -/
def spareOut (o : MOp) (none_ : Bool) (s : State) : State :=
  let f := opFolio s o
  let s := if none_ then raise 4 4 0x03 (det2 o.ch o.pos (bankOf s o.ch o.m) (browOf s o.ch o.m o.row) 0) (rbit s 0x200000 11)
    else s
  let s := s.modInteg fun i => { i with retireList := if i.retireList.contains f then i.retireList else i.retireList ++ [f] }
  let s := spareEnds o (stripeClose o (bankEnd o (dropOp o.id s)))
  if (revOf s o.m).kind == 5 then shelfMove false o.m s
  else if 0 < reserveLeft s then spareMigrate o f s
  else
    let s := folioToOverdraft f s
    if (ent s f).state == .live then jAppend [jReadOnly s f] s else s

/-- R147: a failed program on a die: a spare line, and the operation again to it, set-only; at most two spares. A failed MERGE is
followed by the recomputation of its parity line (R126) instead. -/
def wvFail (pos : Nat) (o : MOp) (s : State) : State :=
  let bank := bankOf s o.ch o.m
  let brow := browOf s o.ch o.m o.row
  let s := raise 3 o.ch 0x03 (det2 o.ch pos bank brow 2) (wearProgram o.m s)
  let merge := o.merged && pos == 16 && !(progPos s { o with updated := false } == 16)
  if 2 ≤ o.spares then spareOut o false s
  else
    match spareTake o.ch pos bank brow s with
    | none => spareOut o (spareFree s o.ch pos == 0) s
    | some s =>
      if merge then modOp o.id (fun x => { x with noMerge := true, spares := x.spares + 1 }) s
      else
        modOp o.id (fun x => { x with sent := false, updated := false, setOnly := true, spares := x.spares + 1 })
          (modBank o.ch (progPos s { o with updated := false }) bank (fun b => { b with busy := false, suspended := false, op := 0 }) s)

/-- R20: the writes held for a domain that is reset before its clock returns are discarded, each raising one HELD_DISCARD
(DESIGN CHOICE, log entry 66). -/
def heldLose (dom : Nat → Bool) (s : State) : State :=
  let lost := s.isl.held.filter fun w => dom w.dom
  let s := s.modIsl fun i => { i with held := i.held.filter fun w => !dom w.dom }
  forEach lost (fun w s => raise 8 4 0x03 (det3 w.acc.off w.dom) (rbit s 0x40 2)) s

/-- R115: an operation that a level 2 reinit of its channel keeps, to be issued again after bring-up. -/
def reinitKeeps (o : MOp) : Bool :=
  o.kind == .read || match o.purpose with
    | .staging .. | .assay .. | .migRead .. | .migWrite .. | .poisonWrite _ => true
    | _ => false

/-- R115: a level 2 reinit of a channel: its reads are held, its writes stay dirty in the till and drain again; its open stripes
stay noted until their parity is recomputed after bring-up. -/
def channelReinitOp (c : Nat) (s : State) : State :=
  let s := heldLose (fun d => d == domMC0 + c / 4) s
  let mine := s.med.ops.filter fun o => o.ch == c && !reinitKeeps o
  let s := s.modMed fun d =>
    { d with ops := (d.ops.filter fun o => o.ch != c || reinitKeeps o).map fun o =>
               if o.ch == c then { o with sent := false, issued := false, updated := false, merged := false, noMerge := false } else o,
             works := d.works.filter fun w => w.ch != c }
  let s := forEach mine (fun o s =>
    match o.purpose with
    | .drain l => tillRedrain l o.id s
    | .restrikeLine m o | .strikeRead m o => queueRestrike m o s
    | _ => s) s
  modChan c (fun x => { x with state := .reinit, attempts := 0, recon := none, reconQ := [], blankAt := [], fullFrame := false,
                               lastCtl := [] }) s

/-- R102: the last packets that belong to no operation are sent to a die again: its own and that to every die. -/
def resendCtl (c pos : Nat) (s : State) : State :=
  forEach [pos, 31] (fun p s => if tget 0 (chan s c).lastCtl p == 0 then s else sendDie c p (tget 0 (chan s c).lastCtl p) s) s

/-- R102, R484: a dropped packet: the operation is reissued up to 3 times; a fourth drop asks for a reinit of the
channel. A program whose bank it had begun begins again; a dropped MERGE is sent again alone. A packet of no operation is sent
again (R102). -/
def caError (c pos : Nat) (o : Option MOp) (s : State) : State :=
  let s := raise 3 c 0x02 (det2 c pos 0 0 1) (rbit s (mch c 0x4) 10)
  match o with
  | none => resendCtl c pos s
  | some o =>
    let s := modOp o.id (fun x => { x with sent := false, merged := false, issued := x.issued && !readsLine x, tries := x.tries + 1 }) s
    let s := if readsLine o then s
      else if o.merged then modBank o.ch 16 (bankOf s o.ch o.m) (fun b => { b with busy := false, op := 0 }) s
      else bankEnd o (modOp o.id (fun x => { x with updated := false, issued := false }) s)
    if 3 ≤ o.tries && (chan s c).state == .active then
      reinitStart (.channel c) (channelReinitOp c s)
    else sensesDue c s

/-- R126, R130: an internal decode failure: reported, counted towards the die's failure, its DBUF marked invalid, and the stripe's
parity recomputed once the data line is programmed. -/
def internalReport (c pos : Nat) (o : Option MOp) (s : State) : State :=
  let s := raise 4 1 0x07 (det2 c pos 0 0 16) s
  let s := modDie c pos (fun d => { d with internals := (d.internals.filter fun t => s.clock < 1000000000 + t) ++ [s.clock] }) s
  match o with
  | none => s
  | some o =>
    if o.bullion && (o.updated || o.merged) then
      modOp o.id (fun x => { x with noMerge := true, sent := true })
        (modDie c o.pos (fun d => { d with dbufs := d.dbufs.map fun b => if b.1 == o.dbuf then (b.1, { b.2 with valid := false }) else b }) s)
    else s

/-- R79, R89: an MRR of a die register is queued for a maintenance slot. What the register holds is acted on as the die reports it
(DESIGN CHOICE, log entry 25). -/
def mrrQueue (c pos reg : Nat) (s : State) : State :=
  pushOp { (default : MOp) with id := s.med.nextOp, ch := c, kind := .maint, purpose := .mrr pos reg, pos := pos, m := noFolio,
                                ready := true, queuedAt := s.clock, since := s.clock } s

/-- R80, R102, R147: ALERT_N of a die: its cause bits are set, WV_LOG names the line of a failed program, and the controller reads
the cause, and the log of a failed program, by MRR. -/
def alertRead (c pos : Nat) (cause : BitVec 5) (o : Option MOp) (s : State) : State :=
  let wv := cause.getLsbD 1
  let log := o.elim 0 fun x => browOf s c x.m x.row + bankOf s c x.m * 2 ^ 23
  let s := modDie c pos (fun d =>
    let regs := tput 0 d.regs 5 (tget 0 d.regs 5 ||| cause.setWidth 32)
    { d with regs := if wv && o.isSome then tput 0 regs 7 (BitVec.ofNat 32 log) else regs }) s
  let s := mrrQueue c pos 5 s
  if wv then mrrQueue c pos 7 s else s

/-- ALERT (R102): a die asserts ALERT_N; the controller reads its cause and acts on each. -/
def execAlert (c pos : Nat) (cause : BitVec 5) (op : Nat) (s : State) : Res :=
  if cause == 0 || !populated s c then .next s
  else
    let o := (findOp s op).filter fun x => x.ch == c && x.issued
    let s := raise 3 c 0x01 (det2 c pos 0 0 cause.toNat) (rbit s (mch c 0x4) 9)
    let s := alertRead c pos cause o s
    let s := if cause.getLsbD 4 then internalReport c pos o s else s
    let s := if cause.getLsbD 0 then caError c pos o s else s
    .next (if cause.getLsbD 1 then
      match o with
      | some x => if readsLine x || readsReg x || blanks x then s else wvFail pos x s
      | none => s
    else s)

/-! Bring-up (R72, R74, R85, R86, R115). -/

/-- R72, R85 step 5: the positions that must answer. -/
def expected (s : State) (c : Nat) : BitVec 18 :=
  let data := BitVec.ofNat 18 (2 ^ s.board.dieCount - 1)
  let par : BitVec 18 := if s.board.parityDies.getLsbD c then 1 <<< 16 else 0
  let stb : BitVec 18 := if s.board.standbyDies.getLsbD c then 1 <<< 17 else 0
  (data ||| par ||| stb) &&& ~~~(tget 0 s.pb.population c)

/-- R72: the positions that a channel may populate: data dies below D, the parity die and the standby die. -/
def allowedDies (s : State) : BitVec 18 := BitVec.ofNat 18 (2 ^ s.board.dieCount - 1) ||| 0x30000

/-- R74: the answering dies are of one generation. -/
def oneGen (present m2 : BitVec 18) : Bool := present &&& m2 == 0 || present &&& m2 == present

/-- R136, R83: the 40 DRIFT_SHADOW registers of a die of a generation, in their order. -/
def driftRows (s : State) (m2 : Bool) : List (Nat × BitVec 32) :=
  (List.range 20).flatMap fun e =>
    [(0x40 + 2 * e, BitVec.ofNat 32 (ageMin e)), (0x41 + 2 * e, (driftOf s m2 e).setWidth 32)]

/-- R80, R85 step 6: a configured die's registers. -/
def dieUp (s : State) (c pos : Nat) : Die :=
  let m2 := s.board.m2.getLsbD c
  let b := (Config.dieBits (dieKey c pos)).toNat
  let rows := Nat.log2 (8192 / (s.board.channels * s.board.dieCount))
  let cap := (if m2 then 80 else 40) / 8
  let id := (if m2 then 2 else 1) + (if m2 then 40 else 32) * 2 ^ 4 + cap * 2 ^ 10 + b % 256 * 2 ^ 18
  let drift := driftRows s m2
  let spares := (s.integ.repairs.filter fun e => e.1 / 256 == dieKey c pos).map fun e => (0x100 + e.1 % 256, e.2)
  let regs := [(0x000, BitVec.ofNat 32 id), (0x002, BitVec.ofNat 32 (rows + b / 256 * 16))] ++ drift ++ spares
  { gen := if m2 then 2 else 1, regs := regs.foldl (fun t e => tput 0 t e.1 e.2) [],
    driftAct := drift.foldl (fun t e => tput 0 t e.1 e.2) [], dbufs := [], mrrSilent := 0, internals := [], uncorr := [] }

/-- R85 steps 1 to 4: MRST_N is driven low and released, DIE_STATUS of the positions that answer is read, and DIE_ID of every
position. -/
def bringupSend (c : Nat) (present : BitVec 18) (s : State) : State :=
  let s := send (.mrst c false) (send (.mrst c true) s)
  let s := forEach ((List.range 18).filter fun p => present.getLsbD p) (fun p s => sendDie c p (mrrPacket p 1) s) s
  forEach (List.range 18) (fun p s => sendDie c p (mrrPacket p 0) s) s

/-- R85 step 6, R83: the packets that configure a channel's dies: DIE_CFG and the spare-line map of each, the drift table to all by
die ID 31, and DIE_TIME on M2; ACTIVATE follows at the frame boundary. -/
def configSend (c : Nat) (pos : List Nat) (s : State) : State :=
  let s := forEach pos (fun p s =>
    forEach ((dieUp s c p).regs.filter fun e => e.1 == 2 || 0x100 ≤ e.1) (fun e s => sendDie c p (mrwPacket p e.1 e.2.toNat) s) s) s
  let s := forEach (driftRows s (s.board.m2.getLsbD c)) (fun e s => sendDie c 31 (mrwPacket 31 e.1 e.2.toNat) s) s
  if s.board.m2.getLsbD c then
    sendDie c 31 (mrwPacket 31 3 (s.med.diesTime.toNat + b2n s.med.diesTimeValid * 2 ^ 31)) s
  else s

/-- R85 step 7, R115, R231: a channel comes up and waits for its first frame token: the parity of stripes that a reinit left open is
recomputed first, its operations are issued again, or were drains that start anew. -/
def channelUp (c : Nat) (present : BitVec 18) (s : State) : State :=
  let m2 := s.board.m2.getLsbD c
  let first := (chan s c).state != .reinit
  let open_ := if first then [] else (chan s c).openStripes
  let s := modChan c (fun x =>
    { x with state := .active, gen := if m2 then 2 else 1, dies := s.board.dieCount, present := present,
             reconQ := [], map := if first then (if m2 then 0x8444844484448444 else 0x84448444) else x.map,
             sched := if first then 7 else x.sched, failStep := 0, attempts := 0, recon := none, banks := [],
             openStripes := open_, frame := mintNow s / 1024 * 1024, slot := slotCount s c, token := [], reinitFails := 0,
             quiet := quietIn s c (mintNow s), joining := true, mending := !open_.isEmpty, fullFrame := false }) s
  let pos := (List.range 18).filter fun p => present.getLsbD p
  let s := s.modMed fun d => { d with dies := pos.foldl (fun t p => tput default t (dieKey c p) (dieUp s c p)) d.dies }
  let s := configSend c pos s
  let s := s.modMed fun d => { d with ops := d.ops.map fun o =>
    if o.ch == c then { o with sent := false, issued := false, queuedAt := s.clock } else o }
  let s := forEach open_ (fun x s =>
    stripeStart { ch := c, m := x.1, row := x.2, use := .parity, left := List.range s.board.dieCount } s) s
  forEach (s.med.ops.filter fun o => o.ch == c && needsStripe s o) (fun o s =>
    stripeStart { ch := c, m := o.m, row := o.row, use := .write o.id, left := (List.range s.board.dieCount).filter (· != o.pos) } s) s

/-- R86, R115: a channel fails: its reads complete with poison. -/
def channelFail (c step : Nat) (s : State) : State :=
  let lines := (s.fe.txns.filter fun t => match t.wait with | .miss _ => channelFailed (modChan c (fun x => { x with state := .failed }) s) t.lineNo | _ => false).map (·.lineNo)
  let s := modChan c (fun x => { x with state := .failed, failStep := step }) s
  let s := s.modMed fun d => { d with ops := d.ops.filter fun o => o.ch != c, works := d.works.filter fun w => w.ch != c }
  forEach lines.dedup (fun l s => retryLine none l s) s

/-- CHANNEL_BRINGUP (R85): a populated channel that is off, being brought up or reinitialised comes up with the dies
that answered; step 5 fails where R72, R74 or the passbook's population is broken. -/
def execChannelBringup (c : Nat) (present m2 : BitVec 18) (s : State) : Res :=
  let st := (chan s c).state
  if !populated s c || st == .active || st == .failed || s.sup.state != .on || s.sup.inReset then .next s
  else
  let s := bringupSend c present s
  let fail (mix : Bool) : State :=
    let s := channelFail c 5 (modChan c (fun x => { x with present := present, attempts := x.attempts + 1,
                                                           dies := s.board.dieCount,
                                                           gen := if present &&& m2 == present && present != 0 then 2 else 1 }) s)
    let s := if mix then raise 3 c 0x06 (det2 c 0 0 0 5) s else s
    let s := if st == .reinit then raise 3 c 0x07 (det2 c 0 0 0 5) s else s
    raise 3 c 0x05 (det2 c 0 0 0 5) s
  if !oneGen present m2 then .next (fail true)
  else if present &&& expected s c != expected s c || present &&& ~~~allowedDies s != 0 ||
      present &&& m2 != (if s.board.m2.getLsbD c then present else 0) then .next (fail false)
  else
    let s := channelUp c present s
    let s := s.modSup fun u => { u with pllLocked := true, fnBusy := u.fnBusy.filter fun f => f != .channel c,
                                        fnFails := tput 0 u.fnFails (fnCode (.channel c)) 0 }
    .next (retryWhere (fun w => w == .reinit) s)

/-- BRINGUP_STEP_TIMEOUT (R86): the sequence is repeated once, then the channel fails. -/
def execBringupStepTimeout (c step : Nat) (s : State) : Res :=
  let st := (chan s c).state
  if !populated s c || st == .active || st == .failed then .next s
  else
    let n := (chan s c).attempts + 1
    let s := modChan c (fun x => { x with attempts := n, failStep := step, state := if st == .off then .bringup else st }) s
    .next (if n < 2 then s
      else raise 3 c 0x05 (det2 c 0 0 0 step)
        (channelFail c step (if st == .reinit then raise 3 c 0x07 (det2 c 0 0 0 step) s else s)))

/-- CHANNEL_REINIT (R115). -/
def execChannelReinit (c : Nat) (s : State) : Res :=
  .next (if populated s c && (chan s c).state == .active then reinitStart (.channel c) (channelReinitOp c s) else s)

/-! Die failures and rebuilds (R130-R134). -/

/-- R130: the failure criterion holds; three unanswered reads of DIE_STATUS are the surroundings' report. -/
def dieMeets (s : State) (c pos : Nat) (why : DieFailure) : Bool :=
  let d := tget default s.med.dies (dieKey c pos)
  match why with
  | .mrrSilent => true
  | .internalReports => 4 ≤ (d.internals.filter fun t => s.clock < 1000000000 + t).length
  | .uncorrectableLines =>
    let u := d.uncorr.filter fun e => s.clock < 1000000000 + e.2.2
    64 ≤ u.length && 8 ≤ (u.map (·.1)).dedup.length

/-- R132: the standby die of a channel can take a failed position's place. -/
def standbyFree (s : State) (c : Nat) : Bool :=
  s.board.standbyDies.getLsbD c && !(failedDies s c).getLsbD 17 && tget 0 s.integ.subst c == 0

/-- R132, R133: a rebuild begins, where none runs. -/
def rebuildStart (c pos : Nat) (s : State) : State :=
  if s.integ.rebuildCh.isSome then s
  else
    let s := s.modInteg fun i => { i with rebuildCh := some c, rebuildPos := pos, rebuildChunk := 0, rebuildAt := 0 }
    let s := s.modPb fun p => { p with rebuildRec := some (c, pos, 0) }
    raise 4 1 0x02 (det2 c pos 0 0 0) (recordQueue recRebuild s)

/-- DIE_FAILED (R130, R131, R134). -/
def execDieFailed (c pos : Nat) (why : DieFailure) (s : State) : Res :=
  if !populated s c || 18 ≤ pos || (failedDies s c).getLsbD pos || !dieMeets s c pos why then .next s
  else
    let before := failedDies s c
    let bits18 := before ||| (1 <<< pos)
    let s := s.modInteg fun i => { i with failed := tput 0 i.failed c bits18 }
    let s := recordQueue (recPopulation + 4 * c) (s.modPb fun p => { p with population := tput 0 p.population c bits18 })
    let s := raise 4 1 0x01 (det2 c pos 0 0 (match why with | .mrrSilent => 1 | .internalReports => 2 | .uncorrectableLines => 3)) s
    if pos == 17 then
      if s.integ.rebuildCh == some c then
        let s := s.modInteg fun i => { i with rebuildCh := none }
        let s := s.modMed fun d =>
          { d with works := d.works.filter fun w => !(w.ch == c && match w.use with | .rebuild _ => true | _ => false),
                   ops := d.ops.filter fun o => !(o.ch == c && match o.purpose with | .rebuild .. => true | _ => false) }
        .next (raise 4 1 0x04 (det2 c pos 0 0 0) (s.modPb fun p => { p with rebuildRec := none }))
      else .next (s.modInteg fun i => { i with subst := tput 0 i.subst c 0 })
    else
      let second := (List.range 17).any fun p => before.getLsbD p && !substituted s c p
      let s := if second then raise 4 1 0x05 (det2 c pos 0 0 0) s else s
      if standbyFree s c then .next (rebuildStart c pos s)
      else .next (if pos < 16 then raise 4 1 0x06 (det2 c pos 0 0 0) s else s)

/-- R149: the folios that meet the retirement criteria: 4 or more uncorrectable lines, or a failed spare. -/
def retireDue (s : State) : List Nat :=
  ((s.integ.uncorrBy.map (·.1)).filter (fun f => 4 ≤ (s.integ.uncorrBy.filter fun e => e.1 == f).length) ++ s.integ.retireList).dedup.filter fun f => provisioned (ent s f)

/-- R149: firmware retires the folios that meet the criteria: a migration, then RETIRE. -/
def retireFolios (s : State) : State :=
  forEach (retireDue s) (fun f s => raise 4 4 0x04 (det3 f 0) (queueMig f 2 2 (ent s f).bullion s))
    s

/-- REBUILD_DONE (R132, R133): once its last row has been done the standby die takes the failed position's place; the next failed
position that has a free standby die follows. -/
def execRebuildDone (c : Nat) (s : State) : Res :=
  if s.integ.rebuildCh != some c || rebuildBusy s c || !(rebuildLeft s c).isEmpty then .next s
  else
    let pos := s.integ.rebuildPos
    let s := s.modInteg fun i => { i with rebuildCh := none, rebuildChunk := 0, rebuildAt := 0, subst := tput 0 i.subst c (pos + 1) }
    let s := recordQueue recRebuild (s.modPb fun p => { p with rebuildRec := none })
    let s := raise 4 1 0x03 (det2 c pos 0 0 0) s
    let s := retireFolios s
    let need := (popChans s).findSome? fun d =>
      if standbyFree s d then ((List.range 17).find? fun p => (failedDies s d).getLsbD p).map fun p => (d, p) else none
    .next (match need with | some (d, p) => rebuildStart d p s | none => s)

/-! Restrikes, patrol and scrub (R140-R145). -/

/-- The host line that a media folio's data line holds. -/
def hostLine (s : State) (m o : Nat) : Nat := (revOf s m).owner * 8192 + o

/-- RESTRIKE (R145): the line of the channel's oldest queued restrike is read as a maintenance operation, and written back once it is
decoded; a line that is dirty in the till is skipped, because its drain rewrites it. -/
def execRestrike (c : Nat) (s : State) : Res :=
  match s.integ.restrikes.find? (fun x => keyCh s x.1 x.2 == c) with
  | none => .next s
  | some (m, o) =>
    let s := s.modInteg fun i => { i with restrikes := i.restrikes.filter fun x => x != (m, o) }
    if o < 16384 && inTill s (hostLine s m o) then .next (strikesNote m s)
    else .next (queueOp .maint (.strikeRead m o) m (keyLine s m o) (ent s (revOf s m).owner) blankLine s)

/-- R143: the folios that a patrol reads. -/
def patrolFolios (s : State) : List Nat :=
  (s.led.entries.filter fun e => (e.2.state == .live || e.2.state == .readOnly || e.2.state == .escrow) && e.2.media != noFolio).map (·.1)

/-- PATROL_START (R143): a pass begins over every line of its folios. -/
def execPatrolStart (s : State) : Res :=
  let r := rval s 0x200008
  let period := r / 65536 * 3600 * 1000000000
  if s.led.memActive && bit r 0 && !s.integ.patrolling && s.integ.patrolAt + period ≤ s.clock then
    .next (forEach (patrolFolios s) (fun f s => assayStart (ent s f).media true s)
      (s.modInteg fun i => { i with patrolling := true, patrolAt := s.clock }))
  else .next s

/-- A read of the patrol is still to come. -/
def patrolLeft (s : State) : Bool :=
  s.med.assays.any (·.patrol) || s.med.ops.any fun o => match o.purpose with | .assay _ _ p => p | _ => false

/-- PATROL_DONE (R143): the pass is complete: all its reads have been made. -/
def execPatrolDone (s : State) : Res :=
  .next (if !s.integ.patrolling || patrolLeft s then s
    else raise 4 3 0x01 det0 (s.modInteg fun i => { i with patrolling := false }))

/-- SCRUB_DONE (R142, R139, R140): every folio of the list has been restruck: stamp-search mode ends, and the dies' times become
valid (R84). -/
def execScrubDone (s : State) : Res :=
  if !s.integ.scrubbing || !s.integ.scrub.all (folioStruck s) then .next s
  else
    let fs := s.integ.scrub
    let s := forEach fs (fun f s => modEnt f (fun e => { e with stamp := stampNow s }) s) s
    let s := s.modInteg fun i => { i with scrub := [], scrubbing := false, search := false }
    let s := recordQueue recScrub (s.modPb fun p => { p with scrubRegions := [] })
    let s := raise 4 2 0x02 det0 (raise 4 2 0x03 (det3 fs.length 0) s)
    .next (dieTimeSend (mintNow s / 2 ^ 32) s.tbs.set s)

/-- MINT_TIME_RECORD (R140): every 2^36 ns the mint time and the daybook summary are recorded. -/
def execMintTimeRecord (s : State) : Res :=
  if mintNow s / 2 ^ 36 == s.tbs.recordedAt / 2 ^ 36 then .next s
  else
    let s := s.modTbs fun t => { t with recorded := some t.mint, recordedAt := t.mint.toNat }
    .next (summaryWrite 4 (recordQueue recTime s))

/-! Class 0xC2. -/

/-- R149: a full assay begins: a read of every line that a patrol reads. -/
def fullStart (s : State) : State :=
  forEach (patrolFolios s) (fun f s => assayStart (ent s f).media false s) (s.modInteg fun i => { i with assay := true })

/-- A read of a full assay is still to come. -/
def fullLeft (s : State) : Bool :=
  s.med.assays.any (fun a => !a.patrol) || s.med.ops.any fun o => match o.purpose with | .assay _ _ p => !p | _ => false

/-- START_FULL_ASSAY (R379). -/
def yStartFullAssay : Body := fun p b s =>
  if le b 0 4 ≥ 2 then errAns rcInvalid s
  else bgStart p 0xC200 (le b 0 1) 0 (fullStart s)

/-- START_FULL_ASSAY (R379, R149). -/
def execStartFullAssay (p : MbxPort) (payload : List Byte) (s : State) : Res :=
  .next (yciRun 0xC200 yStartFullAssay p payload s)

/-- R80: a die register, and DIE_STATUS. -/
def dieReg (s : State) (c pos reg : Nat) : BitVec 32 :=
  let d := tget default s.med.dies (dieKey c pos)
  let m2 := s.board.m2.getLsbD c
  if reg == 3 then
    if m2 then BitVec.ofNat 32 (s.med.diesTime.toNat + b2n s.med.diesTimeValid * 2 ^ 31) else 0
  else if reg == 1 then
    let busy := ((chan s c).banks.filter fun b => b.1 / 64 == pos && b.2.busy).length
    let alert := tget 0 d.regs 5 &&& ~~~tget 0 d.regs 6 != 0
    BitVec.ofNat 32 (b2n ((chan s c).state == .active) + 2 * b2n alert + 4 * b2n (m2 && s.med.diesTimeValid) +
      8 * b2n (!d.driftAct.isEmpty) + min 15 busy * 16)
  else tget 0 d.regs reg

/-- READ_DIE_REGISTER (R379): the temperature is a free value, since the die measures it. -/
def yReadDieRegister : Body := fun _ b s =>
  let c := le b 0 1
  let pos := le b 1 1
  let reg := le b 2 2
  if 32 ≤ c || 18 ≤ pos || 0x800 ≤ reg || !populated s c || !(chan s c).present.getLsbD pos then errAns rcInvalid s
  else
    let s := mrrQueue c pos reg s
    let (v, s) := if reg == 8 then (let (v, s) := takeFree 8 s; (v.setWidth 32, s)) else (dieReg s c pos reg, s)
    okOut (toLE 4 v.toNat ++ toLE 4 (dieReg s c pos 1).toNat) s

/-- READ_DIE_REGISTER (R379). -/
def execReadDieRegister (p : MbxPort) (payload : List Byte) (s : State) : Res :=
  .next (yciRun 0xC201 yReadDieRegister p payload s)

/-- The code of MCH_STATUS.STATE. -/
def chStateCode : ChState → Nat
  | .off => 0 | .bringup => 1 | .active => 2 | .reinit => 3 | .failed => 4

/-- GET_CHANNEL_STATUS (R379). -/
def yGetChannelStatus : Body := fun _ b s =>
  let c := le b 0 1
  if 32 ≤ le b 0 4 then errAns rcInvalid s
  else
    let x := chan s c
    okOut (toLE 1 (chStateCode x.state) ++ toLE 1 x.failStep ++ toLE 1 x.attempts ++ [0] ++
      toLE 4 x.present.toNat ++ toLE 4 (failedDies s c).toNat ++ zeros 4) s

/-- GET_CHANNEL_STATUS (R379). -/
def execGetChannelStatus (p : MbxPort) (payload : List Byte) (s : State) : Res :=
  .next (yciRun 0xC202 yGetChannelStatus p payload s)

end Sys2Proof.Machine
end

