-- ==== Sys2Proof/Machine/Journal.lean ====
section
/-! DEFINITION. What a completed journal record puts in force, and the checkpoints (R168-R176, R181-R187, R234-R240). -/

namespace Sys2Proof.Machine

/-! Background commands that wait for records (R369, R380). -/

/-- The mailbox of a number of `JRec.own`. -/
def mbxAt : Nat → Option MbxPort
  | 1 => some .a | 2 => some .b | 3 => some .board | _ => none

/-- A record of a mailbox's background command completed. -/
def bgRec (own : Nat) (s : State) : State :=
  match mbxAt own with
  | none => s
  | some p => modMbx p (fun m => { m with bg := m.bg.map fun b => { b with recs := b.recs - 1 } }) s

/-- R380: one folio's class change of a mailbox's background command ended; `rc` is its return code. -/
def classDone (own rc : Nat) (s : State) : State :=
  match mbxAt own with
  | none => s
  | some p => modMbx p (fun m => { m with bg := m.bg.map fun b =>
      { b with recs := b.recs - 1, result := if b.result == 0 then rc else b.result } }) s

/-- Append records for the background command of a mailbox, which waits for them. -/
def jAppendFor (p : MbxPort) (rs : List JRec) (s : State) : State :=
  jAppend (rs.map fun r => { r with own := mbxNo p }) s

/-! The tables (R154-R160): what a record alone gives, as replay applies it too. -/

/-- R168 REMAP: the class that e carries for a migration to another class: 2 scrip, 3 bullion, 0 unchanged (log
entry 27). -/
def remapClass (e : Nat) (old : Bool) : Bool :=
  match e / 65536 with | 2 => false | 3 => true | _ => old

/-- A release item put in force on its entry (R239). -/
def itemApply (f new gen : Nat) (s : State) : State :=
  modEnt f (fun e => { e with media := new, state := if new == noFolio then .blankMapped else .live,
                              gen := BitVec.ofNat 24 gen, reads := 0, readSub := 0, stamp := stampNow s })
    (if new == noFolio then s else setRev new 1 f s)

/-- R168: the new values that a record states. A replayed REMAP or release item takes the mint time at recovery as its
DATE_STAMP (DESIGN CHOICE, log entry 70). -/
def recTables (r : JRec) (s : State) : State :=
  match r.type with
  | 0x01 => setWear r.a { wearOf s r.a with wear := r.d } (if inDirs s r.a then s else setRev r.a r.b r.c s)
  | 0x02 =>
    if r.e % 256 == 1 then
      s.modLed fun l => { l with shelfDir := runSet l.shelfDir r.a r.c,
                                 rev := tput default (tput default l.rev r.c default) r.b { kind := 4, owner := 0 } }
    else
      let b := if r.c == noFolio then (ent s r.a).media else r.b
      let s := modEnt r.a (fun e =>
        { e with media := r.c, state := stateOf (r.e / 256 % 256), gen := BitVec.ofNat 24 r.d,
                 bullion := remapClass r.e e.bullion, reads := 0, readSub := 0,
                 stamp := if r.c == noFolio then e.stamp else stampNow s }) s
      let s := if r.c == noFolio then s else setRev r.c 1 r.a s
      if b == noFolio then s else setRev b 4 0 s
  | 0x03 => setWear r.a { wearOf s r.a with wear := r.b } (setRev r.a 0 0 s)
  | 0x04 =>
    modEnt r.a (fun e =>
      let st := stateOf (r.c / 32)
      { withAttrBits e (r.c % 32) with key := r.b, state := st, gen := BitVec.ofNat 24 r.d,
                                       media := if st == .unprovisioned then noFolio else e.media }) s
  | 0x05 => setWear r.a { wearOf s r.a with wear := r.c } (setRev r.a 8 0 s)
  | _ => s

/-! Effects of a record in service. -/

/-- R186: the overdraft lines of a folio that can drain again are dirty lines of the till, and none of its lines waits for a place. -/
def overdraftReturn (f : Nat) (s : State) : State :=
  let mine := s.led.overdraft.filter fun x => folioOf x.1 == f
  let s := s.modLed fun l => { l with overdraft := l.overdraft.filter (fun x => folioOf x.1 != f),
                                      spill := l.spill.filter (fun x => folioOf x.1 != f),
                                      overdraftWait := l.overdraftWait.filter fun x => folioOf x != f }
  overdraftUpdate (forEach mine (fun x s => placeDirty x.1 x.2 (slotCheck x.1 s).2) s)

/-- R186: the reserve rose above 0: read-only folios with overdraft lines migrate, lowest host folio first, and the lines of
blank-mapped ones drain to a folio that is allocated for them. -/
def reserveRise (before : Nat) (s : State) : State :=
  let s := reserveEvents before s
  if before == 0 && 0 < reserveCount s then
    let held (f : Nat) : Bool := s.led.overdraft.any fun x => folioOf x.1 == f
    let fs := (s.led.entries.filter fun e => e.2.state == .readOnly && held e.1).map (·.1)
    let bs := ((s.led.overdraft.map fun x => folioOf x.1).filter fun f => (ent s f).media == noFolio).dedup
    forEach bs overdraftReturn (forEach fs (fun f s => queueMig f 1 0 (ent s f).bullion s) s)
  else s

/-- R186: waiting lines enter the overdraft while it has places. -/
def overdraftAdmit : Nat → State → State
  | 0, s => s
  | n + 1, s =>
    match s.led.overdraftWait with
    | [] => s
    | l :: rest =>
      if overdraftMax ≤ s.led.overdraft.length then s
      else overdraftAdmit n (lineToOverdraft l (s.modLed fun d => { d with overdraftWait := rest }))

/-- A folio became read-only (R186, R190). -/
def becameReadOnly (f : Nat) (s : State) : State :=
  folioToOverdraft f (raise 5 4 0x01 (det3 f 0) (rbit s 0x280000 16))

/-- An escrow set. -/
def escSet (s : State) (n : Nat) : Escrow := tget default s.esc.sets n

/-- Update of an escrow set. -/
def modSet (n : Nat) (f : Escrow → Escrow) (s : State) : State :=
  s.modEsc fun e => { e with sets := tmod default e.sets n f }

/-- R234: an ATTR that set state escrow makes the folio a member of the set that asked for it. -/
def escrowJoin (f : Nat) (s : State) : State :=
  match s.esc.sets.find? (fun e => tget 0 e.2.prior f != 0 && !e.2.members.contains f) with
  | some e => modSet e.1 (fun x => { x with members := x.members ++ [f] }) s
  | none => s

/-- R237, R240: an ATTR that ended state escrow takes the folio out of its set. -/
def escrowLeave (f : Nat) (s : State) : State :=
  match s.esc.sets.find? (fun e => e.2.members.contains f) with
  | some e =>
    modSet e.1 (fun x => { x with members := x.members.filter (fun g => g != f), prior := tput 0 x.prior f 0,
                                  staged := tput 0 x.staged f 0 }) s
  | none => s

/-- The poison list loses a folio whose contents are gone (R377). -/
def folioPoisonDrop (f : Nat) (s : State) : State :=
  s.modInteg fun i => { i with poisonList := i.poisonList.filter fun e => folioOf e.1 != f }

/-- R265: an instant zero or discard of a folio reinitialises its lost counter blocks. -/
def reinitLost (f : Nat) (s : State) : State :=
  forEach (s.cry.lostBlocks.filter fun b => b / 128 == f) (fun b s =>
    match ctrReinit b s with
    | (some c, s) => ctrStore (sc s) b c s
    | (none, s) => s) s

/-- R184, R191: a migration of a folio whose contents were replaced is abandoned before its REMAP, with a REMAP that is queued; its
destination is blanked, and a class change that was asked for is made by an ATTR. One past its REMAP goes on to the end of its source. -/
def migCut (f : Nat) (s : State) : State :=
  match s.led.migs.find? (fun x => x.folio == f && x.phase != .quiesce) with
  | none => s
  | some g =>
    let pend (r : JRec) : Bool := r.type == 0x02 && r.e % 256 == 0 && r.a == f && r.c == g.dst && g.dst != noFolio
    let s := (migOpsDrop f s).modLed fun l => { l with migs := l.migs.filter (fun x => x.folio != f || x.phase == .quiesce),
                                                       appends := l.appends.filter fun r => !pend r }
    let e := ent s f
    let s := if g.prio != 3 then raise 5 3 0x01 (det3 f g.prio) s
      else if provisioned e then
        jAppend [{ jAttr f e.key (attrBits { e with bullion := g.bullion }) e.state e.gen.toNat with own := g.own }] s
      else classDone g.own 0 (raise 5 3 0x01 (det3 f g.prio) s)
    queueBlank g.dst 0 s

/-- R183: an allocation that was begun for a folio which is no longer provisioned is taken back. -/
def allocCut (f : Nat) (s : State) : State :=
  let mine (r : JRec) : Bool := r.type == 0x02 && r.e % 256 == 0 && r.a == f && r.c != noFolio
  let new := (s.led.appends.filter mine).map (·.c)
  let begun := new.filter fun m => !(pendingAllocs s).contains m
  forEach begun (fun m s => queueBlank m 0 s)
    (s.modLed fun l => { l with appends := l.appends.filter fun r => !mine r && !(r.type == 0x01 && new.contains r.a) })

/-- R184, R197: what a folio held goes: its lines in the till and the purse, the writes merged into them, its poison and what a
migration did for it. -/
def folioDrop (f : Nat) (s : State) : State := reinitLost f (migCut f (folioPoisonDrop f (lateDropped f (sweepDrop f s))))

/-- R181, R186: the media folio that a host folio leaves is blanked, or retired where the folio was read-only. -/
def oldFolio (old : LEntry) (s : State) : State :=
  if old.media == noFolio then s
  else if old.state == .readOnly then jAppend [jRetire old.media 4 (wearOf s old.media).wear] s
  else queueBlank old.media 0 s

/-- R42, R160, R186, R234: an ATTR takes effect. -/
def attrEffect (f : Nat) (old : LEntry) (s : State) : State :=
  let e := ent s f
  let s := if !old.through && e.through then toExpress f s else s
  let s := if e.state == .unprovisioned && provisioned old then oldFolio old (allocCut f (folioDrop f s)) else s
  let s := if e.state == .readOnly && old.state != .readOnly then becameReadOnly f s else s
  let s := if e.state == .live && old.state == .readOnly then overdraftReturn f s else s
  let s := if e.state == .escrow && old.state != .escrow then escrowJoin f s else s
  if e.state != .escrow && old.state == .escrow then escrowLeave f s else s

/-- R181, R183, R184, R186: a REMAP takes effect on the till, and on the media folio it leaves; lines that a migration's hold kept
drain first (R207). -/
def remapEffect (r : JRec) (old : LEntry) (s : State) : State :=
  let f := r.a
  let s := if r.c == noFolio then folioDrop f s
    else sweepRemap f (BitVec.ofNat 24 r.d) (scrubNote f (resvTouch (fun l => folioOf l == f) s))
  if r.c != noFolio && s.led.migs.any (fun x => x.folio == f && x.phase == .remap) then
    let s := toExpress f (s.modLed fun l =>
      { l with migs := l.migs.map fun x => if x.folio == f && x.phase == .remap then { x with phase := .quiesce } else x })
    if old.state == .readOnly then jAppend [jAttr f old.key (attrBits (ent s f)) .live r.d] s else s
  else oldFolio old s

/-! Swaps (R15, R56, R184, R239). -/

/-- The base of a line once a write has been merged into it (R49, R340). -/
def baseWrite (b : Base) (w : SecWrite) : Base :=
  if w.poison then { b with poison := true, rewritten := 0, syn := 0x6 }
  else
    { b with plain := setSector b.plain w.sector (mergeBytes (lineSector b.plain w.sector) w.data w.en),
             rewritten := if b.poison && w.en == BitVec.allOnes 64 then b.rewritten ||| (1 <<< w.sector) else b.rewritten }

/-- An access that was translated before a swap ends on the contents that the swap replaces. -/
def txnSettle (cls : List Nat) (x : Base × State) (t : Txn) : Base × State :=
  let b := x.1
  let s := x.2
  if t.write then
    let w : SecWrite := { sector := t.sector, data := t.data, en := t.enables, poison := t.poison || t.by_ == .inject }
    let b := if t.by_ == .clear then { b with poison := false, rewritten := 0 } else b
    let d := mergeBytes (lineSector b.plain t.sector) t.data t.enables
    let s := if t.by_ == .inject then s else mirrorHook t.lineNo t.sector t.key d s
    (baseWrite b w, writeDone t (resvWrite none t.lineNo s))
  else
    let s := if windowBi s t.head (t.lineNo * 256) then sfHold t.head t.own (t.lineNo * 4 + t.sector) t.key s else s
    (b, readDone t (readSector b t.sector) cls s)

/-- The accesses to one line that were translated before a swap end in their order. -/
def lineSettle (ts : List Txn) (l : Nat) (s : State) : State :=
  let held := (cachedLine s l).isSome || !hasMedia s l
  let cls := readClasses s l (if held then none else some ⟨.zero, [if s.board.m2.getLsbD (chOf s (ent s (folioOf l)).media (l % 8192)) then 2 else 3], 0⟩)
  let (b, s) :=
    match baseNow l none s with
    | (some b, s) => (b, s)
    | (none, s) => if channelFailed s l then (basePoison 0x7, s) else baseFilled l (mediaNow s l) s
  ((ts.filter fun t => t.lineNo == l).foldl (txnSettle cls) (b, s)).2

/-- R15, R56, R184, R530: the accesses to a folio that were translated before a swap end on its old contents as they stand, before the
new mapping acts: reads are answered from them, and writes are merged into them and complete (DESIGN CHOICE on their time, log entry
79). Those forwarded to the correspondent wait for its answer. -/
def readsSettle (f : Nat) (s : State) : State :=
  let mine (t : Txn) : Bool := folioOf t.lineNo == f && !t.wait.merged && (match t.wait with | .forward _ => false | _ => true)
  let ts := s.fe.txns.filter mine
  let s := s.modFe fun x => { x with txns := x.txns.filter fun t => !mine t }
  let s := s.modPur fun u => { u with waitQ := u.waitQ.filter fun w => folioOf w.lineNo != f }
  let s := forEach ((ts.map (·.lineNo)).dedup) (lineSettle ts) s
  takenDrop (fun x => folioOf x.line == f) (opsDrop (fun o =>
    match o.purpose with
    | .hostRead l | .prefetch l | .take _ l | .poisonWrite l => folioOf l == f
    | _ => false) s)

/-- R239: old folios still to blank of a settling set. -/
def settleBlanked (m : Nat) (s : State) : State :=
  match s.led.blanking.find? (fun b => b.1 == m) with
  | some (_, n) =>
    let s := s.modLed fun l => { l with blanking := l.blanking.filter fun b => b.1 != m }
    if n == 0 then s else modSet (n - 1) (fun x => { x with oldFolios := x.oldFolios.filter fun y => y != m }) s
  | none => s

/-! Checkpoints (R170-R174). -/

/-- R175: checkpoint and spill folios whose wear exceeds the lowest by the spread, or by more; none at spread 0 (DESIGN CHOICE, log
entry 71). -/
def dirWorn (s : State) (m : Nat) : Bool :=
  wearSpread s != 0 && wearMinRes s + wearSpread s ≤ (wearOf s m).wear

/-- R175: the i-th folio of a directory is to be replaced from the reserve where it is worn: its ALLOC is queued; at reserve 0 it
stays. -/
def dirReplace (kind : Nat) (i : Nat) (s : State) : State :=
  let dir := if kind == 6 then s.led.ckptDir else s.led.spillDir
  if !dirWorn s (runAt dir i) then s
  else
    match allocFor false s with
    | none => raise 5 1 0x02 (det3 0 (floorF s)) s
    | some n => takeFolio n kind (if kind == 6 then ckptOwner s i else i) s

/-- R169, R175: an ALLOC of a checkpoint or spill folio is complete: it takes its place in the directory, and the folio that it
replaces is blanked. -/
def dirEnter (r : JRec) (s : State) : State :=
  let i := if r.b == 6 then (if 2 ^ 23 ≤ r.c then runLen s.led.ckptDir / 2 else 0) + r.c % 2 ^ 23 else r.c
  let old := runAt (if r.b == 6 then s.led.ckptDir else s.led.spillDir) i
  let s := s.modLed fun l =>
    if r.b == 6 then { l with ckptDir := runSet l.ckptDir i r.a } else { l with spillDir := runSet l.spillDir i r.a }
  recordQueue 0x012000 (queueBlank old 0 s)

/-- R172: a trigger starts a checkpoint, or is served by the next; none begins after a trip (R171) or before recovery. Worn folios are
replaced first (R175; of spill folios: DESIGN CHOICE, log entry 72). -/
def ckptTrigger (s : State) : State :=
  if s.sup.tripped || s.led.lost || !s.led.recovered then s
  else if s.led.ckptActive then s.modLed fun l => { l with ckptQueued := true }
  else
    let s := s.modLed fun l => { l with ckptActive := true, ckptPhase := .begin_, ckptBegan := s.clock, ckptNext := l.ckptNext + 1 }
    let s := if !ringRoom s then s
      else forEach (List.range 32) (dirReplace 7) (forEach (List.range (runLen s.led.ckptDir)) (dirReplace 6) s)
    ckptAppend [jrec 0x09 (s.led.ckptNext - 1).toNat 0 0 0 0] s

/-- R170: CKPT-END(S) became valid: the slots before CKPT-BEGIN(S − 1) are freed. -/
def ringFree (sq : Nat) (s : State) : State :=
  let keep := s.led.ring.dropWhile fun r => !(r.type == 0x09 && r.a + 1 == sq)
  let s := s.modLed fun l =>
    { l with ring := if keep.isEmpty then l.ring else keep, ckptSeq := BitVec.ofNat 32 sq, ckptActive := false }
  let s := pageStart (ringCheck (s.modInteg fun i => { i with uncorrBy := [], retireList := [] }))
  if s.led.ckptQueued then ckptTrigger (s.modLed fun l => { l with ckptQueued := false }) else s

/-- R172: the ring reached 75 %. -/
def ringHigh (s : State) : State := if 49152 ≤ s.led.ring.length then ckptTrigger s else s

/-- R181 step 2: a migration's destination is allocated: the lines of its source are read; those that drain now are read again in the
next pass. -/
def migBegin (m : Nat) (s : State) : State :=
  forEach (s.led.migs.filter fun g => g.dst == m && g.phase == .copying) (fun g s =>
    let pend := migPending s g.folio
    migAsk g.folio g.src ((heldLines s g.src).filter fun o => !pend.contains o)
      (modMig g.folio (fun x => { x with marked := (x.marked ++ pend).dedup }) s)) s

/-- R184: a record replaces the contents of a host folio. -/
def recSwaps (s : State) (r : JRec) : Bool :=
  (r.type == 0x02 && r.e % 256 == 0 && r.c == noFolio) ||
    (r.type == 0x04 && stateOf (r.c / 32) == .unprovisioned && provisioned (ent s r.a))

/-- R164, R180: the shelf folio that moved is blanked, or retired at the wear limit. -/
def shelfOld (m : Nat) (s : State) : State :=
  if wearLimit s ≤ (wearOf s m).wear then jAppend [jRetire m 1 (wearOf s m).wear] s else queueBlank m 0 s

/-- A completed record takes effect (R169). -/
def applyRec (r : JRec) (s : State) : State :=
  let s := if recSwaps s r then readsSettle r.a s else s
  let before := reserveCount s
  let old := ent s r.a
  let top := wearMax s
  let s := recTables r s
  let s :=
    match r.type with
    | 0x01 =>
      let s := if r.b == 6 || r.b == 7 then dirEnter r s else if r.b == 3 then migBegin r.a s else s
      reserveEvents before s
    | 0x02 => if r.e % 256 == 1 then shelfOld r.b (reserveEvents before s) else remapEffect r old s
    | 0x03 => reserveRise before (settleBlanked r.a (wearNear top s))
    | 0x04 => attrEffect r.a old s
    | 0x05 =>
      let s := settleBlanked r.a s
      if r.b == 1 then raise 5 2 0x02 (det3 r.a r.c) s else s
    | 0x08 => modSet r.a (fun x => if x.state == .preparing then { x with state := .committed } else x) s
    | 0x09 => s.modLed fun l => { l with ckptPhase := .body }
    | 0x0A => if r.part == 2 then ringFree r.a s else s
    | _ => s
  overdraftAdmit s.led.overdraftWait.length s

/-- R169: the append in progress completes in the ring. -/
def appendLand (r : JRec) (rest : List JRec) (s : State) : State :=
  s.modLed fun l =>
    { l with appends := rest, appending := false, ring := l.ring ++ [{ r with seq := l.seqNext }], seqNext := l.seqNext + 1 }

/-- R197: the sweep of a record that completed as the device was reset; its change is put in force by the replay. -/
def recSweep (r : JRec) (s : State) : State :=
  if recSwaps s r then sweepDrop r.a s
  else if r.type == 0x02 && r.e % 256 == 0 then sweepRemap r.a (BitVec.ofNat 24 r.d) s
  else s

/-- JOURNAL_APPEND_COMPLETE (R169): the append in progress completes, its change takes effect, and the next page
write or append starts. -/
def execJournalAppendComplete (s : State) : Res :=
  match s.led.appends with
  | [] => .next s
  | r :: rest =>
    if !s.led.appending then .next s
    else
      let r := recNow s r
      let s := bump 456 1 (appendLand r rest s)
      .next (ringNext (bgRec r.own (applyRec r s)))

/-- CHECKPOINT_TIMER (R172). -/
def execCheckpointTimer (s : State) : Res :=
  .next (if s.led.recovered && 600000000000 + s.led.ckptBegan ≤ s.clock then ckptTrigger s else s)

/-- CHECKPOINT_RING_THRESHOLD (R172). -/
def execCheckpointRingThreshold (s : State) : Res := .next (ringHigh s)

/-- CKPT_REQ (R172, R190). -/
def regCkptReq (_h : Head) (s : State) : Res := .next (ckptTrigger s)

/-- The body of a checkpoint as DRAM holds it (R173). -/
def bodyNow (s : State) : CkptBody :=
  { ledger := s.led.entries, wear := s.led.wear, rev := s.led.rev, wearBase := s.led.wearBase, wearLow := s.led.wearLow }

/-- R158: the four bytes of a wear-table entry. -/
def wearBytes (w : Wear) : List Byte := toLE 4 (w.wear % 2 ^ 19 + w.programs % 2 ^ 13 * 2 ^ 19)

/-- R160: the four bytes of a reverse-map entry. -/
def revBytes (r : Rev) : List Byte := toLE 4 (r.owner % 2 ^ 24 + r.kind % 16 * 2 ^ 24)

/-- R173: byte i of a checkpoint body: the ledger, the wear table and the reverse map, then zeros. -/
def ckptByte (s : State) (b : CkptBody) (i : Nat) : Byte :=
  let v := 16 * s.board.folios
  let n := 4 * mediaN s
  let w (m : Nat) : Wear := let x := tget default b.wear m; { x with wear := satAdd 0x7FFFF (wearFrom b.wearBase b.wearLow m) x.wear }
  let r (m : Nat) : Rev := if inDirs s m then revOf s m else tget default b.rev m
  if i < v then (entryBytes (tget entry0 b.ledger (i / 16))).getD (i % 16) 0
  else if i < v + n then (wearBytes (w ((i - v) / 4))).getD ((i - v) % 4) 0
  else if i < v + 2 * n then (revBytes (r ((i - v - n) / 4))).getD ((i - v - n) % 4) 0
  else 0

/-- R173: the folios of a checkpoint body. -/
def bodyFolios (s : State) : Nat := runLen s.led.ckptDir / 2 - 1

/-- R173, R168: the digest of a checkpoint's body. -/
def bodyDigest (s : State) (b : CkptBody) : BitVec 384 :=
  Config.sha384Of (bodyFolios s * 2 ^ 21) fun i => if i < bodyFolios s * 2 ^ 21 then ckptByte s b i else 0

/-- R173: the header of a checkpoint copy. -/
def ckptHeader (s : State) (c : CkptCopy) : List Byte :=
  toLE 4 0x59434B50 ++ toLE 4 c.seq.toNat ++ toLE 4 c.begin_.toNat ++ toLE 4 s.board.folios ++ toLE 4 (mediaN s) ++
    toLE 4 (bodyFolios s) ++ toLE 48 (bodyDigest s c.body).toNat ++ zeros 184

/-- R258: the folio key of folio i of checkpoint copy n (0 for A, 1 for B): the house key, Y[63] = 1, the copy and the folio as
the block index, and the checkpoint sequence as the major counter. -/
def ckptKey (s : State) (n i seq : Nat) : BitVec 256 :=
  let dk := Config.houseKey (s.ctl.life == .rma)
  let y (k : Nat) : BitVec 128 := BitVec.ofNat 128 (k + i % 2 ^ 30 * 2 ^ 8 + n % 2 * 2 ^ 38 + 2 ^ 63 + seq * 2 ^ 64)
  Config.aes256 dk (y 1) ++ Config.aes256 dk (y 0)

/-- R173, R258: what line j of checkpoint copy n stands as on its media folio: its ciphertext and hallmark. The header is line 0
of the copy's last folio. -/
def ckptLine (s : State) (n j : Nat) : Line × BitVec 64 :=
  let c := if n == 0 then s.led.copyA else s.led.copyB
  let last := bodyFolios s * 8192
  let plain := if j == last then ckptHeader s c else if j < last then (List.range' (256 * j) 256).map (ckptByte s c.body) else zeros 256
  let fk := ckptKey s n (j / 8192) c.seq.toNat
  let ct := cryptLine fk 0 j (BitVec.ofNat 2048 (le plain 0 256))
  (ct, hallmarkOf fk 0 j ct)

/-- R124: the parity lines of a full bullion folio. -/
def parityLines (s : State) (m : Nat) : Nat :=
  8192 / (s.board.channels * s.board.dieCount) * ((popChans s).filter fun c => parityUsable s c m).length

/-- R158, R174: a copy's folios were written: the data lines of its body with their parity lines, and the header's line with its
parity line. Each folio is blanked first, as the format does (DESIGN CHOICE, log entry 93). -/
def copyWear (b : Bool) (s : State) : State :=
  let half := runLen s.led.ckptDir / 2
  forEach (List.range half) (fun i s =>
    let m := runAt s.led.ckptDir (if b then half + i else i)
    let n := if i + 1 == half then 1 + b2n (parityUsable s (chOf s m 0) m) else 8192 + parityLines s m
    let s := wearNear (wearMax s) (setWear m { wearOf s m with wear := wearBlanked s m } s)
    wearPrograms m (n - min n 8192) (wearPrograms m (min n 8192) s)) s

/-- R175: a replaced checkpoint folio's directory is not in the passbook yet. -/
def dirPending (s : State) : Bool :=
  (ringRoom s && s.led.appends.any fun r => r.type == 0x01 && (r.b == 6 || r.b == 7)) ||
    s.pb.writes.any (fun w => w.addr == 0x012000) || s.pb.writing.any fun w => w.addr == 0x012000

/-- R191: a checkpoint copy cannot be written: a channel of its folios has failed. The checkpoint ends without its CKPT-END, and the
next trigger starts another (DESIGN CHOICE, log entry 94). -/
def ckptFail (s : State) : State :=
  raise 5 0 0x05 (det3 (s.led.ckptNext - 1).toNat 0) (s.modLed fun l => { l with ckptActive := false, ckptQueued := false })

/-- CHECKPOINT_DONE (R174, R280): the copy in progress is written, its body and then its header: copy A first, with the dirty tree
nodes, and copy B of the same body next; then CKPT-END is appended (log entry 28). -/
def execCheckpointDone (s : State) : Res :=
  let sq := s.led.ckptNext - 1
  if !s.led.ckptActive || s.led.ckptPhase != .body || s.sup.tripped || dirPending s then .next s
  else if (popChans s).any fun c => (chan s c).state == .failed then .next (ckptFail s)
  else if s.led.copyA.seq != sq then
    let s := treeFlush s
    let b := (s.led.ring.filter fun r => r.type == 0x09 && r.a == sq.toNat).getLast?
    .next (copyWear false (s.modLed fun l => { l with copyA := { seq := sq, begin_ := b.elim 0 (·.seq), body := bodyNow s } }))
  else
    let s := s.modLed fun l => { l with copyB := l.copyA, ckptPhase := .end_ }
    let p (i : Nat) : JRec := { jrec 0x0A sq.toNat 0 0 0 0 with part := i, digest := bodyDigest s s.led.copyA.body }
    .next (ckptAppend [p 0, p 1, p 2] (bump 457 1 (copyWear true s)))

end Sys2Proof.Machine
end

