-- ==== Sys2Proof/Machine/EscrowOps.lean ====
section
/-! DEFINITION. Escrow sets: staging writes and their counter blocks, the close, the abandon, the release and its
settling (R233-R240, R271-R273, R531). -/

namespace Sys2Proof.Machine

/-! Staging (R235, R271, R531). -/

/-- The set that has a folio as a member, or whose creation has taken it. -/
def setOf (s : State) (f : Nat) : Option Nat :=
  (s.esc.sets.find? fun e => e.2.members.contains f || tget 0 e.2.prior f != 0).map (·.1)

/-- The staged media folio of a member, none before its first staging write. -/
def stagedFolio (s : State) (n f : Nat) : Option Nat :=
  match tget 0 (escSet s n).staged f with
  | 0 => none
  | m + 1 => some m

/-- R531: a reserved folio is taken for a set; none at reserve 0, which raises CAPACITY_SHORT. -/
def stageTake (n owner : Nat) (s : State) : Option Nat × State :=
  match (if reserveLeft s == 0 then none else allocPick s) with
  | none => (none, raise 5 4 0x05 (det3 owner 0) s)
  | some m => (some m, takeFolio m 2 owner (modSet n (fun x => { x with reserved := x.reserved - 1 }) s))

/-- R235: the staged folio of a member, taken at its first staging write. -/
def stageFolio (n f : Nat) (s : State) : Option Nat × State :=
  match stagedFolio s n f with
  | some m => (some m, s)
  | none =>
    match stageTake n f s with
    | (none, s) => (none, s)
    | (some m, s) => (some m, modSet n (fun x => { x with staged := tput 0 x.staged f (m + 1) }) s)

/-- R271: the group of 64 members whose staging counter folio holds a member's blocks. -/
def ctrGroup (s : State) (n f : Nat) : Nat := ((escSet s n).members.idxOf f) / 64

/-- R271: the staging counter folio of a member's group is there. -/
def stageCtrFolio (n f : Nat) (s : State) : Bool × State :=
  let g := ctrGroup s n f
  if (escSet s n).ctrFolios.any fun e => e.1 == g then (true, s)
  else
    match stageTake n ((escSet s n).members.getD (64 * g) f) s with
    | (none, s) => (false, s)
    | (some m, s) => (true, modSet n (fun x => { x with ctrFolios := x.ctrFolios ++ [(g, m)] }) s)

/-- R271: the staging block b, created at its first use with its shelf block's MAJOR plus 2^29; none where the reserve
or the tally counter is at its end. -/
def stageBlock (n f b : Nat) (s : State) : Option CtrBlock × State :=
  match s.cry.staging.find? fun e => e.1 == b with
  | some e => (some e.2, s)
  | none =>
    match stageCtrFolio n f s with
    | (false, s) => (none, s)
    | (true, s) =>
      let (c, s) := ctrFetch (sc s) b s
      match nextMajor (c.getD ctr0).major (2 ^ 29) s with
      | (none, s) => (none, s)
      | (some v, s) => (some { ctr0 with major := v }, s)

/-- The entry under which the staged folio of a member is written: its next generation (R235). -/
def stagedEnt (s : State) (f m : Nat) : LEntry := { ent s f with gen := (ent s f).gen + 1, media := m }

/-- R236, R273: a staged line as its folio holds it, on a dead die as R131 serves it. -/
def stagedRes (s : State) (n l : Nat) : LineRes :=
  match stagedFolio s n (folioOf l) with
  | none => .zero
  | some m => mediaAt s (stagedEnt s (folioOf l) m) (l % 8192)

/-- R236, R273: the plaintext of a staged line; none for a line that is not staged or cannot be read. -/
def stagedPlain (n l : Nat) (s : State) : Option Line :=
  let k := (ent s (folioOf l)).key
  match stagedRes s n l, domKey s k with
  | .good x, some dk => openLine dk k l (tget ctr0 s.cry.staging (blockOf l)) x.data x.hallmark
  | _, _ => none

/-- R272: a staging block whose minor counter is spent takes its next MAJOR, and its staged lines are rewritten. -/
def stageRecoin (n b : Nat) (c : CtrBlock) (s : State) : Option CtrBlock × State :=
  match nextMajor c.major 1 s with
  | (none, s) => (none, s)
  | (some v, s) =>
    let c' : CtrBlock := { ctr0 with major := v }
    let ls := (List.range 64).filterMap fun i => (stagedPlain n (b * 64 + i) s).map fun d => (b * 64 + i, d)
    let f := b / 128
    let s := forEach ls (fun x s =>
      match stagedFolio s n f, domKey s (ent s f).key with
      | some m, some dk =>
        let e := stagedEnt s f m
        let (ct, hm) := sealLine dk e.key x.1 c' x.2
        programLine f e m (x.1 % 8192)
          { hallmark := hm, stamp := stampNow s, flags := lineFlags s (chOf s m (x.1 % 8192)) e.bullion false false false,
            gen := e.gen.setWidth 32, data := ct } s
      | _, _ => s) s
    (some c', s)

/-- R235, R268, R271: the line of a staging write of plaintext `d` under its staging block, and the staged folio it goes
to; none where R531 refuses it. -/
def stageLine (n l : Nat) (d : Line) (poison : Bool) (s : State) : Option (Nat × MLine) × State :=
  let f := folioOf l
  let b := blockOf l
  match stageFolio n f s with
  | (none, s) => (none, s)
  | (some m, s) =>
    match stageBlock n f b s with
    | (none, s) => (none, s)
    | (some c, s) =>
      let (c, s) := if minorOf c l == 0xFFFFFF then stageRecoin n b c s else (some c, s)
      match c, domKey s (ent s f).key with
      | some c, some dk =>
        let c := minorBump c l
        let s := s.modCry fun y => { y with staging := tput ctr0 y.staging b c }
        let e := stagedEnt s f m
        let (ct, hm) := sealLine dk e.key l c d
        (some (m, { hallmark := if poison then 0 else hm, stamp := stampNow s,
                    flags := lineFlags s (chOf s m (l % 8192)) e.bullion false poison false,
                    gen := e.gen.setWidth 32, data := if poison then 0 else ct }), bump 512 1 s)
      | _, _ => (none, s)

/-- R235: a staging write of a descriptor: queued for a maintenance slot; false where R531 refuses it. -/
def stageWrite (n l q idx : Nat) (d : Line) (poison : Bool) (s : State) : Bool × State :=
  match stageLine n l d poison s with
  | (none, s) => (false, s)
  | (some (m, x), s) =>
    let f := folioOf l
    let s := modSet n (fun y => { y with pendingWrites := y.pendingWrites + 1 }) s
    (true, queueOp .maint (.staging n f (l % 8192) q idx) m (l % 8192) (stagedEnt s f m) x s)

/-! The close (R237). -/

/-- The offsets of a folio that hold contents in force: on media or in the till. -/
def contentLines (s : State) (f : Nat) : List Nat :=
  let e := ent s f
  ((if e.media == noFolio then [] else heldLines s e.media) ++ (dirtyLinesOf s f).map (· % 8192) ++
    (s.led.overdraft.filterMap fun (x : Nat × PLine) => if folioOf x.1 == f then some (x.1 % 8192) else none)).dedup

/-- R237 step 2: the lines of members with staged folios that hold contents in force and were never staged. -/
def inheritLeft (s : State) (n : Nat) : List Nat :=
  let x := escSet s n
  (x.members.filter fun f => (stagedFolio s n f).isSome).flatMap fun f =>
    ((contentLines s f).map fun o => f * 8192 + o).filter fun l => !tget false x.stagedLines l

/-- R237 step 2: the lines to copy are at hand; those that are missing are asked for. -/
def inheritReady : List Nat → State → Bool × State
  | [], s => (true, s)
  | l :: r, s =>
    let (a, s) := takeReady .inherit true l s
    let (c, s) := inheritReady r s
    (a && c, s)

/-- R237 step 2: copy one line of the contents in force to the staged folio, in a maintenance slot. -/
def inheritCopy (n l : Nat) (s : State) : State :=
  let (x, s) := takeBase .inherit l s
  if x.stored.isNone && !x.poison then s
  else (stageWrite n l 0 0 x.plain (x.poison && x.rewritten != 0xF) s).2

/-- R237 step 2: the copies of a set whose staging writes are done, once their lines have been read. -/
def closeCopy (n : Nat) (s : State) : State :=
  let ls := if (escSet s n).inherit then inheritLeft s n else []
  let (here, s) := inheritReady ls s
  if here then forEach ls (inheritCopy n) (modSet n (fun x => { x with items := 1 }) s) else s

/-- R237 step 3: the ATTR records of the members that leave. -/
def closeReturn (n : Nat) (s : State) : State :=
  let x := escSet s n
  let leave := if x.inherit then x.members.filter fun f => (stagedFolio s n f).isNone else []
  jAppend (leave.map fun f =>
    let e := ent s f
    jAttr f e.key (attrBits e) (stateOf (tget 1 x.prior f - 1)) e.gen.toNat) (modSet n (fun x => { x with items := 2 }) s)

/-- ATTR records of a set's members wait for their append. -/
def attrsPending (s : State) (n : Nat) : Bool :=
  s.led.appends.any fun r => r.type == 0x04 && (escSet s n).members.contains r.a

/-- SET_CLOSED (R237): the waits, copies and returns of a close go on, and at their end the reservation is released and the set is
closed. -/
def execSetClosed (set : Nat) (s : State) : Res :=
  let x := escSet s set
  if x.state != .closing || x.abandon || 0 < x.pendingWrites then .next s
  else
    let s := if x.items == 0 then closeCopy set s else s
    if (escSet s set).items == 0 || 0 < (escSet s set).pendingWrites then .next s
    else
      let s := if (escSet s set).items == 1 then closeReturn set s else s
      if attrsPending s set then .next s
      else .next (raise 7 2 0x01 (det3 set 0)
        (recordQueue recEscrow (modSet set (fun x => { x with state := .closed, reserved := 0, items := 0 }) s)))

/-! The abandon (R240, R273). -/

/-- R273: the shelf blocks of members that have staging blocks are recoined to the staging MAJOR plus 1. -/
def abandonRecoin (n : Nat) (s : State) : State :=
  let bs := s.cry.staging.filter fun e => (escSet s n).members.contains (e.1 / 128)
  let s := forEach bs (fun e s =>
    match nextMajor e.2.major 1 s with
    | (some v, s) => recoinTo e.1 v s
    | (none, s) => s) s
  s.modCry fun c => { c with staging := c.staging.filter fun e => !bs.any fun x => x.1 == e.1 }

/-- R240: an abandon begins: staged folios and counter folios are blanked, and each member takes an ATTR. -/
def abandonStart (n : Nat) (s : State) : State :=
  let x := escSet s n
  let s := takenDrop (fun y => y.by_ == .inherit && x.members.contains (folioOf y.line)) (abandonRecoin n s)
  let ms := x.staged.map (fun e => e.2 - 1) ++ x.ctrFolios.map (·.2)
  let s := modSet n (fun x => { x with abandon := true, reserved := 0, oldFolios := ms, ctrFolios := [], stagedLines := [] }) s
  let s := forEach ms (fun m s => queueBlank m (n + 1) s) s
  jAppend (x.members.map fun f =>
    let e := ent s f
    jAttr f e.key (attrBits e) (if e.media == noFolio then .blankMapped else .live) e.gen.toNat) s

/-- SET_ABANDONED (R240): the folios are blank and the members have returned: the set is free. -/
def execSetAbandoned (set : Nat) (s : State) : Res :=
  let x := escSet s set
  if !x.abandon || !x.oldFolios.isEmpty || !x.members.isEmpty then .next s
  else .next (raise 7 2 0x05 (det3 set 0) (recordQueue recEscrow (modSet set (fun _ => default) s)))

/-! Release and settling (R238, R239, R273). -/

/-- R239, R273: staging counter blocks replace the shelf blocks of members, and their folios are blanked. -/
def settleCtrs (n : Nat) (s : State) : State :=
  let x := escSet s n
  let bs := s.cry.staging.filter fun e => x.members.contains (e.1 / 128)
  let s := s.modCry fun c =>
    { c with staging := c.staging.filter fun e => !bs.any fun y => y.1 == e.1 }
  let s := forEach bs (fun e s => derivedDrop (fun d => d.2.1 == e.1) (ctrStore (sc s) e.1 e.2 s)) s
  let ms := x.ctrFolios.map (·.2)
  let s := modSet n (fun x => { x with ctrFolios := [], oldFolios := x.oldFolios ++ ms }) s
  forEach ms (fun m s => queueBlank m (n + 1) s) s

/-- R239: one member is settled: its entry, its staged folio's KIND, and its lines of the old generation; the old media
folio, to blank. -/
def settleMember (n f : Nat) (s : State) : State :=
  let e := ent s f
  let new := (stagedFolio s n f).getD noFolio
  let s := itemApply f new (e.gen + 1).toNat s
  let s := migCut f (folioPoisonDrop f (lateDropped f (sweepDrop f s)))
  if e.media == noFolio then s
  else queueBlank e.media (n + 1) (modSet n (fun x => { x with oldFolios := x.oldFolios ++ [e.media] }) s)

/-- R238 step 4, R239: the swap of a committed set: members translate to their staged folios, and settling begins. -/
def releaseSwap (n : Nat) (s : State) : State :=
  let ms := (escSet s n).members
  let s := modSet n (fun x => { x with state := .settling, reserved := 0, oldFolios := [] }) s
  let s := forEach ms (fun f s => readsSettle f s) s
  let s := forEach ms (fun f s => settleMember n f s) s
  let s := settleCtrs n s
  s.modEsc fun e => { e with index := if e.index.contains n then e.index else e.index ++ [n] }

/-- RELEASE_DONE (R239): every old folio is in the reserve: the set is free. -/
def execReleaseDone (set : Nat) (s : State) : Res :=
  let x := escSet s set
  if x.state != .settling || !x.oldFolios.isEmpty then .next s
  else
    let s := s.modEsc fun e => { e with index := e.index.filter fun i => i != set }
    .next (raise 7 2 0x03 (det3 set x.members.length) (recordQueue recEscrow (modSet set (fun _ => default) s)))

/-- R238 step 3: a migration of a member is held from RELEASE-BEGIN; one that holds the folio's drain lets it go meanwhile. -/
def migHold (f : Nat) (s : State) : State :=
  if s.led.migs.any fun g => g.folio == f && g.phase == .holding then toExpress f (modMig f (fun g => { g with phase := .recopy }) s) else s

/-- R238 steps 1 and 2: a preparation begins for a standing-order entry; each item states what is in force at its append. -/
def releasePrepare (n entry : Nat) (fire : Nat) (s : State) : State :=
  let x := escSet s n
  let s := forEach x.members migHold s
  let s := modSet n (fun x => { x with state := .preparing, entry := entry + 1 }) s
  let k := x.members.length
  let item (f : Nat) : JRec :=
    let e := ent s f
    jrec 0x07 n e.media ((stagedFolio s n f).getD noFolio) (e.gen + 1).toNat f
  jAppend ([jrec 0x06 n k 0 0 fire] ++ x.members.map item ++ [jrec 0x08 n k 0 0 0]) s

/-- R229, R241: a preparation stops: its records not yet begun are dropped, with a RELEASE-COMMIT that is not complete, and the set
stays closed. -/
def releaseUnprepare (n : Nat) (s : State) : State :=
  let keep (r : JRec) : Bool := !((r.type == 0x06 || r.type == 0x07 || r.type == 0x08) && r.a == n)
  let s := s.modLed fun l =>
    match l.appends with
    | r :: rest =>
      if l.appending && (keep r || r.type != 0x08) then { l with appends := r :: rest.filter keep }
      else { l with appends := l.appends.filter keep, appending := false }
    | [] => l
  pageStart (ringCheck (modSet n (fun x => { x with state := .closed, entry := 0 }) s))

end Sys2Proof.Machine
end

