-- ==== Sys2Proof/Machine/Recovery.lean ====
section
/-! DEFINITION. Recovery at start-up, ledger-lost mode, the rebuild scan, the format, and migrations (R149-R151,
R175-R182, R275, R351, R529). -/

namespace Sys2Proof.Machine

/-! The choice of a checkpoint (R176). A copy's digest is that of its contents: a copy that reads back as it was
written agrees with its header and with CKPT-END of its sequence (log entry 23). -/

/-- The ring holds a valid CKPT-END of a sequence (R168). -/
def endInRing (s : State) (sq : BitVec 32) : Bool :=
  s.led.ring.any fun r => r.type == 0x0A && r.part == 0 && r.a == sq.toNat && [0, 1, 2].all fun i =>
    s.led.ring.any fun x => x.type == 0x0A && x.part == i && x.seq == r.seq + BitVec.ofNat 32 i && !x.torn

/-- R176: the copy to use: some false = A, some true = B, none = ledger-lost. -/
def ckptChoose (s : State) (a b : Bool) : Option Bool :=
  let ca := s.led.copyA
  let cb := s.led.copyB
  if ca.seq == cb.seq then
    if a && b then some false
    else if endInRing s ca.seq then (if a then some false else if b then some true else none)
    else none
  else
    match a, b with
    | true, true => some (decide (ca.seq.toNat < cb.seq.toNat))
    | true, false => some false
    | false, true => some true
    | false, false => none

/-- R176: the ring still holds the chosen copy's CKPT-BEGIN. -/
def beginInRing (s : State) (c : CkptCopy) : Bool := s.led.ring.any fun r => r.seq == c.begin_ && r.type == 0x09

/-- The copy of a choice. -/
def ckptCopy (s : State) (b : Bool) : CkptCopy := if b then s.led.copyB else s.led.copyA

/-- R190: CKPT_FALLBACK: copy B, an older checkpoint, or another copy of the same sequence that does not match. -/
def ckptFellBack (s : State) (useB okA okB : Bool) : Bool :=
  let mine := ckptCopy s useB
  let other := ckptCopy s (!useB)
  useB || mine.seq.toNat < other.seq.toNat || (mine.seq == other.seq && !(if useB then okA else okB))

/-! Replay (R177). -/

/-- The release items of the set of a RELEASE-COMMIT, since its last RELEASE-BEGIN. -/
def itemsOf (done : List JRec) (set : Nat) : List JRec :=
  let since := (done.reverse.takeWhile fun r => !(r.type == 0x06 && r.a == set)).reverse
  since.filter fun r => r.type == 0x07 && r.a == set

/-- Replay one record after those of `done`. -/
def replayOne (done : List JRec) (r : JRec) (s : State) : State :=
  if r.type == 0x08 then
    forEach (itemsOf done r.a) (fun i s =>
      let s := itemApply i.e i.c i.d s
      if i.b == noFolio then s else setRev i.b 4 0 s) s
  else recTables r s

/-- Replay records in order. -/
def replay : List JRec → List JRec → State → State
  | _, [], s => s
  | done, r :: rest, s => replay (done ++ [r]) rest (replayOne done r s)

/-- R177: the records from the chosen CKPT-BEGIN to the end of the journal. -/
def replayRecs (s : State) (c : CkptCopy) : List JRec := journalGood (s.led.ring.dropWhile fun r => r.seq != c.begin_)

/-- R169, R177: what follows the end of the journal is gone, and the next record takes the sequence number after it. -/
def journalCut (c : CkptCopy) (s : State) : State :=
  let keep := (s.led.ring.takeWhile fun r => r.seq != c.begin_) ++ replayRecs s c
  s.modLed fun l => { l with ring := keep, seqNext := keep.getLast?.elim l.seqNext fun r => r.seq + 1 }

/-- R177: load a copy and replay. -/
def ckptLoad (c : CkptCopy) (s : State) : State :=
  replay [] (replayRecs s c) (s.modLed fun l =>
    { l with entries := c.body.ledger, wear := c.body.wear, rev := c.body.rev, wearBase := c.body.wearBase,
             wearLow := c.body.wearLow })

/-- R177: an ALLOC without its REMAP, and folios whose blanking is pending, are settled. -/
def settleOne (rs : List JRec) (m : Nat) (s : State) : State :=
  let r := revOf s m
  match r.kind with
  | 3 => queueBlank m 0 s
  | 4 => queueBlank m 0 s
  | 1 =>
    if (ent s r.owner).media == m then s
    else if rs.any fun x => x.type == 0x01 && x.a == m && x.b == 1 then
      jAppend [jBlanked m (wearOf s m).wear] s
    else queueBlank m 0 s
  | _ => s

/-- R177: settle every media folio that an operation left incomplete. -/
def settleAll (rs : List JRec) (s : State) : State := forEach (s.led.rev.map (·.1)) (settleOne rs) s

/-- R177: the set's release is committed in the journal, or it was settling. -/
def releaseCommitted (rs : List JRec) (n : Nat) : Bool :=
  match (rs.filter fun r => (r.type == 0x06 || r.type == 0x08) && r.a == n).getLast? with
  | some r => r.type == 0x08
  | none => false

/-- R177, R197, R239: a committed release is settled from its items; where its swap had not been made, the members' lines are swept. -/
def settleRecover (rs : List JRec) (n : Nat) (s : State) : State :=
  let items := itemsOf rs n
  let olds := items.map (·.b) ++ (escSet s n).oldFolios
  let s := if (escSet s n).state == .settling then s else forEach items (fun i s => sweepDrop i.e s) s
  let s := modSet n (fun x => { x with state := .settling, items := 0, reserved := 0, pendingWrites := 0, oldFolios := [],
                                       members := if items.isEmpty then x.members else items.map (·.e) }) s
  let here := (s.led.blanking.map (·.1)).filter fun m => olds.contains m
  let s := modSet n (fun x => { x with oldFolios := here }) s
  let s := s.modLed fun l => { l with blanking := l.blanking.map fun b => if here.contains b.1 then (b.1, n + 1) else b }
  settleCtrs n s

/-- R177, R233-R240: an escrow set after replay: its members are the folios in state escrow; a preparation falls back
to closed; a committed release settles; an abandon goes on. -/
def escrowRecover (rs : List JRec) (n : Nat) (s : State) : State :=
  let x := escSet s n
  let s := s.modSo fun o => { o with entries := o.entries.map fun e =>
    if e.1 + 1 == x.entry && !releaseCommitted rs n then (e.1, { e.2 with prepared := false }) else e }
  if x.state == .free then s
  else if x.state == .settling || (releaseCommitted rs n && (x.state == .preparing || x.state == .committed)) then
    settleRecover rs n s
  else
    let ms := (s.led.entries.filter fun e => e.2.state == .escrow && tget 0 x.prior e.1 != 0).map (·.1)
    let free := (ms.filter fun f => tget 0 x.staged f == 0).length
    let here := (s.led.blanking.map (·.1)).filter fun m => x.oldFolios.contains m
    let s := modSet n (fun x => { x with state := if x.state == .preparing || x.state == .committed then .closed else x.state,
                                         members := ms, entry := 0, items := 0, pendingWrites := 0,
                                         reserved := if x.state == .open_ || x.state == .closing then
                                                       free + ((ms.length + 63) / 64 - x.ctrFolios.length) else x.reserved,
                                         oldFolios := here, prior := x.prior.filter fun e => ms.contains e.1 }) s
    let s := s.modLed fun l => { l with blanking := l.blanking.map fun b => if here.contains b.1 then (b.1, n + 1) else b }
    if x.abandon then
      let s := forEach (x.oldFolios.filter fun m => (revOf s m).kind == 2) (fun m s =>
        queueBlank m (n + 1) (modSet n (fun y => { y with oldFolios := y.oldFolios ++ [m] }) s)) s
      jAppend (ms.map fun f =>
        let e := ent s f
        jAttr f e.key (attrBits e) (if e.media == noFolio then .blankMapped else .live) e.gen.toNat) s
    else s

/-! Start-up checks (R151, R275). -/

/-- R275: one line of a recoinage page: re-encrypted where it passes under the old block only, poisoned where it
passes neither. -/
def recoinCheckLine (pg : RecoinPage) (bad : List Nat) (i : Nat) (s : State) : State :=
  let l := pg.block * 64 + i
  match mediaNow s l with
  | .good x =>
    (match domKey s (ent s (folioOf l)).key, ctrFetch (sc s) pg.block s with
     | some dk, (some c, s) =>
       let k := (ent s (folioOf l)).key
       if bad.contains i then poisonStore l 0x8 s
       else if (openLine dk k l c x.data x.hallmark).isSome then s
       else
         (match openLine dk k l pg.old x.data x.hallmark with
          | some d =>
            let (ct, hm) := sealLine dk k l c d
            placeDirty l { data := ct, hallmark := hm, poison := false, rewritten := 0 } s
          | none => poisonStore l 0x8 s)
     | _, _ => s)
  | _ => s

/-- R275: process one recoinage page, and free it. -/
def recoinRecover (e : Nat × RecoinPage) (checks : List RecoinCheck) (s : State) : State :=
  let s := s.modCry fun c => { c with pagesRc := c.pagesRc.filter fun x => x.1 != e.1 }
  if !e.2.valid then s
  else
    let bad := (checks.filter fun c => c.page == e.1).flatMap (·.failed)
    let s := forEach (List.range 64) (recoinCheckLine e.2 bad) s
    raise 6 1 0x04 (det1 (e.2.block * 2 ^ 14) e.2.key 0 0) s

/-- R151: the host folio and DPA of a torn line, where the ledger yields one. -/
def tornDpa (s : State) (m o : Nat) : Nat := (revOf s m).owner * 2 ^ 21 + o * 256

/-- R151: poison a data line of a stripe; of a staged or migrating folio under its next generation. -/
def tornPoison (m o : Nat) (s : State) : State :=
  let f := (revOf s m).owner
  let k := (revOf s m).kind
  if k == 0 || k == 4 || k == 8 then s
  else if k == 1 then programLine f (ent s f) m o (poisonLine s (ent s f) o) (poisonListAdd (f * 8192 + o) 0x4 s)
  else
    let e := { ent s f with gen := (ent s f).gen + 1, media := m }
    programLine f e m o (poisonLine s e o) s

/-- R151, R122: a listed line that decodes passes the checks of its folio; those of a folio that the ledger does not map are not
checked. -/
def tornPasses (s : State) (t : TornCheck) (e : LEntry) (o : Nat) : Bool :=
  t.parity || (revOf s t.m).kind != 1 || (checkLine s t.ch e e.gen (mline s (lineKey t.m o))).isSome

/-- R151: the data line that a listed entry stands for; a scrip line that a dead die's parity die holds is that die's (R131). -/
def tornLine (s : State) (t : TornCheck) : Nat :=
  let os := stripeLines s t.m t.ch t.row
  if t.parity || t.pos == 16 then (os.find? fun o => dieDead s t.ch (dieOf s o) t.m).getD 0 else os.getD t.pos 0

/-- R151: a listed line is torn. -/
def isTorn (s : State) (t : TornCheck) : Bool :=
  !(t.clean && tornPasses s t (ent s (revOf s t.m).owner) (tornLine s t)) &&
    s.integ.torn.any fun e => e.1 == t.ch && e.2.1 == tornKey (if t.parity then 16 else t.pos) t.m t.row

/-- R151: one listed line that is torn; `all` are the lines sensed. -/
def tornOne (all : List TornCheck) (t : TornCheck) (s : State) : State :=
  let r := revOf s t.m
  let e := ent s r.owner
  if !isTorn s t then s
  else
    let parity := t.parity && t.bullion
    let o := tornLine s t
    let ok := t.stripeOk && !all.any fun u => u.ch == t.ch && u.m == t.m && u.row == t.row && !(u.pos == t.pos && u.parity == t.parity) && isTorn s u
    let s := raise 4 5 0x01 (det1 (if parity then 0 else tornDpa s t.m o) 0 0x4 0) (rbit (rinc s 0x200058 1) 0x200000 10)
    if parity then
      parityRecompute t.m t.ch t.row r.owner e
        (if t.stripeOk then s else tornPoison t.m ((stripeLines s t.m t.ch t.row).getD t.bad 0) s)
    else if t.bullion && ok then
      match reconstruct s t.m o with
      | some x =>
        (match reconLine s t.ch e e.gen x with
         | .good l => raise 4 5 0x02 (det1 (tornDpa s t.m o) 0 0 0)
             (wearProgram t.m (setMline (lineKey t.m o) l s))
         | _ => setMline (lineKey t.m o) blankLine s)
      | none => tornPoison t.m o s
    else tornPoison t.m o s

/-- R185: the overdraft is reloaded from the spill folios. -/
def overdraftReload (s : State) : State :=
  let new := s.led.spill.filter fun x => !s.led.overdraft.any fun y => y.1 == x.1
  s.modLed fun l => { l with overdraft := l.overdraft ++ new }

/-- R178: ledger-lost mode: every host folio is served as unprovisioned, and nothing drains. -/
def ledgerLost (s : State) : State :=
  raise 5 0 0x01 det0 (s.modLed fun l =>
    { l with lost := true, ckptUsed := 2, entries := [], recovered := true, scanDone := false,
             scanReport := [0, 0, 0, 0], ckptActive := false, ckptQueued := false, appends := [] })

/-- R409: after a power cycle the debt map is every provisioned folio of each marked region, as coarse entries. -/
def debtRebuild (s : State) : State :=
  if !pairMode s || !s.pair.debtExact.isEmpty || !s.pair.debtCoarse.isEmpty then s
  else
    let fs := (s.led.entries.filter fun e => s.pair.regions.contains (e.1 / 4096) && provisioned e.2).map (·.1)
    s.modPair fun p => { p with debtCoarse := fs }

/-- R177: the start-up checks once the ledger stands. -/
def startChecks (recoin : List RecoinCheck) (torn : List TornCheck) (s : State) : State :=
  let s := forEach s.cry.pagesRc (fun e s => recoinRecover e recoin s) s
  let s := if s.pur.pfLast.2 then s else forEach (torn.filter (isTorn s)) (tornOne torn) s
  debtRebuild (overdraftReload (s.modInteg fun i => { i with torn := [] }))

/-- Every populated channel is active (R85): recovery can read media. -/
def channelsUp (s : State) : Bool := (popChans s).all fun c => (chan s c).state == .active

/-- R177: recovery runs: the channels are up, recall is done, and the ledger does not stand yet. -/
def recoveryRuns (s : State) : Bool :=
  !s.led.recovered && s.sup.state == .on && !s.sup.inReset && !s.pb.recalling && channelsUp s

/-- R351: the DRAM is trained or left self-refresh, and CDAT is fixed (R350). -/
def dramUp (s : State) : State :=
  (s.modPur fun u => { u with ready := true, selfRefresh := false }).modFe fun f => { f with memInfoValid := true }

/-- RECOVERY (R176, R177): once per start, when the channels are up and recall is done; the DRAM is up by then. -/
def execRecovery (a b : CopyRead) (recoin : List RecoinCheck) (torn : List TornCheck) (s : State) : Res :=
  if !recoveryRuns s then .next s
  else
    let s := dramUp s
    let s := s.modLed fun l => { l with migs := [], blanking := [], appends := [], appending := false, ckptActive := false,
                                        ckptQueued := false, journalFull := false }
    match ckptChoose s a.readable b.readable with
    | none => .next (ledgerLost s)
    | some useB =>
      let c := ckptCopy s useB
      if !beginInRing s c then .next (ledgerLost s)
      else
        let fell := ckptFellBack s useB a.readable b.readable
        let rs := replayRecs s c
        let s := settleAll rs (journalCut c (ckptLoad c s))
        let s := forEach (s.esc.sets.map (·.1)) (escrowRecover rs) s
        let s := s.modLed fun l => { l with recovered := true, lost := false, ckptSeq := c.seq,
                                            ckptNext := c.seq + 1, ckptUsed := if useB then 1 else 0 }
        let s := if fell then raise 5 0 0x02 (det3 c.seq.toNat 0) (rbit s 0x280000 18) else s
        .next (startChecks recoin torn s)

/-- MEMORY_ACTIVE (R351): every start-up step has completed; R149: firmware's retirements at start-up. -/
def execMemoryActive (s : State) : Res :=
  if s.led.recovered && !s.led.memActive && s.ctl.life != .rma && !s.pur.sboxClearing && s.pur.ready && !s.pb.recalling && !s.sup.inReset then
    let s := s.modLed fun l => { l with memActive := true }
    .next (if s.led.lost then s else retireFolios s)
  else .next s

/-! The rebuild scan (R179). -/

/-- R179 step 3: a claim beats another of the same host folio. -/
def claimBeats (x y : ScanClaim) : Bool := 0 < (x.gen8 - y.gen8).toInt

/-- R179 steps 1 to 3: the winning claim of each host folio. -/
def scanWinners : List ScanClaim → List ScanClaim
  | [] => []
  | c :: rest =>
    let ws := scanWinners rest
    match ws.find? fun w => w.owner == c.owner with
    | none => c :: ws
    | some w => if claimBeats c w then c :: ws.filter fun x => x.owner != c.owner else ws

/-- R179 step 5: the provisioning extent of a host folio, with the ATTR records of the ring applied over it. -/
def scanAttrs (s : State) (f : Nat) : LEntry :=
  (s.led.ring.filter fun r => r.type == 0x04 && r.a == f).foldl
    (fun e r => { withAttrBits e (r.c % 32) with key := r.b, state := stateOf (r.c / 32) }) (tget entry0 s.led.extents f)

/-- R179 step 5: the entry that a winner gives. -/
def scanEntry (s : State) (c : ScanClaim) : LEntry :=
  { scanAttrs s c.owner with media := c.m, bullion := true, sealed_ := c.sealed_, state := .live, gen := c.gen,
                             stamp := c.stamp, reads := 0, readSub := 0 }

/-- R179 steps 4 and 6: a winner stands where data line 0 agrees and its folio is provisioned. -/
def scanStands (s : State) (c : ScanClaim) : Bool :=
  c.gen.setWidth 8 == c.gen8 && provisioned (scanAttrs s c.owner)

/-- R179 steps 1, 2 and 4: the claim of a media folio: by the parity line of row 0 on the first of the two channels on which one
stands, with GEN of its data line 0. -/
def scanClaim (s : State) (m : Nat) : Option ScanClaim :=
  let reads (c : Nat) : Option MLine :=
    let p := mline s (parityKey m c 0)
    if parityUsable s c m && !isBlank p && p.flags.getLsbD 5 then some p else none
  (((popChans s).take 2).findSome? reads).map fun p =>
    { m := m, owner := p.gen.toNat % 2 ^ 24, gen8 := BitVec.ofNat 8 (p.gen.toNat / 2 ^ 24),
      gen := (mline s (lineKey m 0)).gen.setWidth 24, sealed_ := p.flags.getLsbD 3, stamp := p.stamp }

/-- R179: the claims of the media folios that no directory lists; `bad` are those whose lines do not decode. -/
def scanClaims (s : State) (bad : List Nat) : List ScanClaim :=
  let ms := ((s.med.lines.filter fun e => 16384 ≤ e.1 % 32768).map fun e => e.1 / 32768).dedup
  (ms.filter fun m => !inDirs s m && !bad.contains m).filterMap (scanClaim s)

/-- SCAN_DONE (R179): the scan ends; the claims are those that the parity lines of row 0 made, but for folios whose lines were found
uncorrectable. -/
def execScanDone (bad : List Nat) (s : State) : Res :=
  if !s.led.scanActive || s.led.scanDone then .next s
  else
    let cs := scanClaims s bad
    let ws := scanWinners cs
    let good := ws.filter (scanStands s)
    let losers := (cs.filter fun c => !ws.any fun w => w.m == c.m).map (·.m)
    let result := good.foldl (fun t c => tput entry0 t c.owner (scanEntry s c)) []
    let prov := (s.led.extents.filter fun e => provisioned e.2).length
    let un := mediaN s - (runLen s.led.ckptDir + runLen s.led.spillDir + runLen s.led.shelfDir + s.led.treeDir.length) -
      good.length - losers.length
    let s := s.modLed fun l =>
      { l with scanDone := true, scanActive := false, scanLosers := losers, scanResult := result,
               scanReport := [good.length, prov - good.length, un, losers.length] }
    .next (raise 5 0 0x03 (det3 good.length (prov - good.length)) s)

/-- R172, R174, R280: a whole checkpoint written at once: the ring holds its four records and frees what precedes it. -/
def ckptNow (s : State) : State :=
  let s := treeFlush s
  let sq := s.led.ckptNext
  let n := s.led.seqNext
  let e (i : Nat) : JRec :=
    { jrec 0x0A sq.toNat 0 0 0 0 with seq := n + BitVec.ofNat 32 (i + 1), part := i, digest := bodyDigest s (bodyNow s) }
  let s := s.modLed fun l =>
    { l with ring := l.ring ++ [{ jrec 0x09 sq.toNat 0 0 0 0 with seq := n }, e 0, e 1, e 2], seqNext := n + 4,
             ckptNext := sq + 1, ckptBegan := s.clock, ckptQueued := false, appends := [], appending := false }
  let c : CkptCopy := { seq := sq, begin_ := n, body := bodyNow s }
  ringFree sq.toNat (bump 457 1 ((copyWear true (copyWear false s)).modLed fun l => { l with copyA := c, copyB := c }))

/-- R179: the till lines of folios that the commit did not recover are discarded. -/
def tillDrop (keep : Nat → Bool) (s : State) : State :=
  let fs := (s.pur.slots.filterMap fun e => if e.2.valid then some (folioOf (e.2.quot * purseSlots s + e.1)) else none) ++
    (s.pur.evb.map fun x => folioOf x.lineNo) ++ (s.led.overdraft.map fun x => folioOf x.1) ++
    (s.led.spill.map fun x => folioOf x.1)
  forEach (fs.dedup.filter fun f => !keep f) (fun f s => lateDropped f (sweepDrop f s)) s

/-- SCAN_COMMIT_DONE (R179, R158): the unclaimed and losing folios are blank, each with 1 more WEAR, and in the reserve, a checkpoint is
written, and ledger-lost mode ends; not after a trip (R171). -/
def execScanCommitDone (s : State) : Res :=
  if !s.led.lost || !s.led.scanActive || !s.led.scanDone || s.sup.tripped then .next s
  else
    let res := s.led.scanResult
    let kept := res.map fun e => e.2.media
    let s := s.modMed fun d =>
      { d with lines := d.lines.filter fun e => kept.contains (e.1 / 32768) || inDirs s (e.1 / 32768) }
    let s := s.modLed fun l =>
      { l with entries := res, wear := [], wearBase := satAdd 0x7FFFF l.highestWear 1,
               wearLow := l.ckptDir ++ l.spillDir ++ l.shelfDir ++ (l.treeDir ++ kept).map (fun m => (m, 1)), lost := false, scanActive := false, scanDone := false,
               scanResult := [], scanLosers := [],
               rev := res.foldl (fun t e => tput default t e.2.media { kind := 1, owner := e.1 }) [] }
    let s := forEach (s.esc.sets.map (·.1)) (fun n s => modSet n (fun _ => default) s) s
    let s := tillDrop (fun f => provisioned (ent s f)) s
    .next (retireFolios (ckptNow s))

/-! The format (R529). -/

/-- Add a folio at the end of a directory's runs. -/
def runAdd (r : List (Nat × Nat)) (m : Nat) : List (Nat × Nat) :=
  match r.getLast? with
  | some (b, n) => if b + n == m then r.dropLast ++ [(b, n + 1)] else r ++ [(m, 1)]
  | none => [(m, 1)]

/-- R529 step 3: allocate n folios for a directory (6, 7 or 5), the least worn first. -/
def formatTake (kind : Nat) : Nat → State → State
  | 0, s => s
  | n + 1, s =>
    let s := formatTake kind n s
    match allocPick s with
    | none => s
    | some m =>
      s.modLed fun l =>
        if kind == 6 then { l with ckptDir := runAdd l.ckptDir m }
        else if kind == 7 then { l with spillDir := runAdd l.spillDir m }
        else { l with shelfDir := runAdd l.shelfDir m }

/-- R163: folios of one checkpoint copy. -/
def ckptFolios (s : State) : Nat := (footprint s + 2 ^ 21 - 1) / 2 ^ 21 + 1

/-- R529: the format: folios blanked, ledger and ring empty, directories allocated, checkpoint 0 written. The counter
shelf is blank with the rest, so counter blocks read as MAJOR 0 (R263). -/
def formatOp (s : State) : State :=
  let s := forEach ((s.fe.txns.map fun t => folioOf t.lineNo).filter fun f => f < 2 ^ 24).dedup readsSettle s
  let s := tillDrop (fun _ => false) s
  let off := s.led.rev.filter fun e => e.2.kind == 8
  let s := s.modMed fun d => { d with lines := d.lines.filter fun e => off.any fun x => x.1 == e.1 / 32768,
                                      ops := [], taken := [], works := [], assays := [],
                                      chans := d.chans.map fun e => (e.1, { e.2 with recon := none, reconQ := [], openStripes := [], banks := [],
                                                                                     blankAt := [], fullFrame := false }) }
  let s := s.modLed fun l =>
    { l with entries := [], rev := off, wearBase := satAdd 0x7FFFF l.wearBase 1, ring := [], seqNext := 1, appends := [],
             appending := false, ckptDir := [], spillDir := [], shelfDir := [], treeDir := [], extents := [], migs := [],
             blanking := [], lost := false, scanActive := false, scanDone := false, ckptNext := 0, journalFull := false,
             overdraft := [], spill := [], overdraftWait := [], overdraftFull := false }
  let s := s.modEsc fun e => { e with sets := [], index := [] }
  let s := s.modCry fun c => { c with media := [], staging := [], cache := [], lostBlocks := [], derived := [], recoins := [],
                                      pagesRc := [], tree := [], treeMedia := [] }
  let s := formatTake 5 (s.board.folios / 64) (formatTake 7 32 (formatTake 6 (2 * ckptFolios s) s))
  let s := recordQueue 0x012000 (s.modLed fun l => { l with reserveAtFormat := reserveCount s })
  ckptNow (s.modInteg fun i => { i with poisonList := [], scrub := [], restrikes := [], uncorrBy := [], retireList := [] })

/-! Migrations (R180-R182). -/

/-- R238, R241: the migrations of a member are held from its RELEASE-BEGIN until its set is free. -/
def migHeld (s : State) (f : Nat) : Bool :=
  s.esc.sets.any fun e => (e.2.state == .preparing || e.2.state == .committed || e.2.state == .settling) &&
    e.2.members.contains f

/-- R180: the queued migration that starts next: by priority, then by order of queueing. -/
def migNext (s : State) : Option Mig :=
  (s.led.migs.filter fun g => g.phase == .queued && !migHeld s g.folio &&
      (g.prio != 4 || (allocFor true s).isSome)).foldl (fun best g =>
    match best with
    | none => some g
    | some b => if g.prio < b.prio then some g else some b) none

/-- R165, R180, R186: a migration finds no destination. -/
def migNoRoom (g : Mig) (s : State) : State :=
  let s := raise 5 3 0x01 (det3 g.folio g.prio) (dropMig g.folio s)
  if g.prio == 3 then classDone g.own rcCapacity s
  else if (ent s g.folio).state == .live then jAppend [jReadOnly s g.folio] s else s

/-- MIGRATION_START (R181 step 1); the copy pass begins once its ALLOC is complete (R169). -/
def execMigrationStart (s : State) : Res :=
  if 16 ≤ migRunning s || s.sup.tripped || s.led.lost || !s.led.recovered || !s.ctl.cpuUp then .next s
  else
    match migNext s with
    | none => .next s
    | some g =>
      let e := ent s g.folio
      if e.media == noFolio then .next (classDone g.own 0 (dropMig g.folio s))
      else
        match allocFor (3 ≤ g.prio) s with
        | none => .next (migNoRoom g s)
        | some m =>
          .next (modMig g.folio (fun x => { x with src := e.media, dst := m, phase := .copying, pass := 0, marked := [], todo := [] })
            (takeFolio m 3 g.folio (bump 454 1 s)))

/-- R181: no read or write of a folio's migration is in flight. -/
def migIdle (s : State) (f : Nat) : Bool :=
  !s.med.ops.any fun o => match o.purpose with | .migRead g _ | .migWrite g _ => g == f | _ => false

/-- R181 steps 3 and 4: what follows a pass: the hold where at most 64 lines are marked or 8 passes have run, else the marked lines are
read again; those whose drain is in flight are left to the next pass. -/
def migAfter (g : Mig) (s : State) : State :=
  let left := (g.marked ++ g.todo).dedup
  if left.length ≤ 64 || 8 ≤ g.pass + 1 then
    migFeed (modMig g.folio (fun x => { x with pass := g.pass + 1, todo := left, marked := [], phase := .holding }) s)
  else
    let pend := migPending s g.folio
    migAsk g.folio g.src (left.filter fun o => !pend.contains o)
      (modMig g.folio (fun x => { x with pass := g.pass + 1, todo := [], marked := left.filter pend.contains, phase := .recopy }) s)

/-- R181 step 5: the REMAP of a migration, with the class of its destination. -/
def migRemap (g : Mig) (s : State) : State :=
  let e := ent s g.folio
  let r := jRemap g.folio 0 g.src g.dst (e.gen + 1).toNat e.state
  jAppend [{ r with e := r.e + 65536 * (2 + b2n g.bullion), own := g.own }] (modMig g.folio (fun x => { x with phase := .remap }) s)

/-- MIGRATION_PASS_DONE (R181 steps 2 to 5): a copy or recopy pass whose lines have all been written ends; the pass under the hold ends
in the REMAP. None ends before the destination's ALLOC is complete (R169), after a trip (R182), or while the folio's release is
prepared (R238). -/
def execMigrationPassDone (folio : Nat) (s : State) : Res :=
  match s.led.migs.find? (fun g => g.folio == folio) with
  | none => .next s
  | some g =>
    if (pendingAllocs s).contains g.dst || s.sup.tripped || migHeld s folio || !migIdle s folio then .next s
    else
    match g.phase with
    | .copying | .recopy => .next (migAfter g s)
    | .holding => .next (if g.todo.isEmpty && (migPending s folio).isEmpty then migRemap g s else s)
    | _ => .next s

/-- No operation on a media folio is in flight (R181 step 6). -/
def quiesced (s : State) (m : Nat) : Bool := !s.med.ops.any fun o => o.m == m

/-- MIGRATION_SOURCE_QUIESCED (R181 steps 6 and 7). -/
def execMigrationSourceQuiesced (folio : Nat) (s : State) : Res :=
  match s.led.migs.find? (fun g => g.folio == folio && g.phase == .quiesce) with
  | none => .next s
  | some g =>
    if !quiesced s g.src || s.sup.tripped then .next s
    else
      let s := s.modLed fun l => { l with migs := l.migs.filter fun x => !(x.folio == folio && x.phase == .quiesce) }
      .next (if g.retire == 0 then queueBlank g.src 0 s else jAppend [jRetire g.src g.retire (wearOf s g.src).wear] s)

/-- The channels forget the rows of a folio that is blank. -/
def blankEnd (m : Nat) (s : State) : State :=
  s.modMed fun d => { d with chans := d.chans.map fun e => (e.1, { e.2 with blankAt := e.2.blankAt.filter fun x => x.1 / 18 != m }) }

/-- FOLIO_BLANK_DONE (R181 step 7): every BLANK of the folio has completed; BLANKED is appended. -/
def execFolioBlankDone (m : Nat) (s : State) : Res :=
  if !s.led.blanking.any (fun b => b.1 == m) || s.sup.tripped || !quiesced s m || !blankOver s m ||
      s.led.appends.any (fun r => r.type == 0x03 && r.a == m) then
    .next s
  else
    let s := bump 455 1 (blankFolio m (blankEnd m s))
    let s := s.modInteg fun i => { i with restrikes := i.restrikes.filter fun x => x.1 != m }
    .next (jAppend [jBlanked m (wearBlanked s m)] s)

end Sys2Proof.Machine
end

