-- ==== Sys2Proof/Machine/Capacity.lean ====
section
/-! DEFINITION. The capacity and ledger commands of class 0xC1 (R188, R189, R379-R381). -/

namespace Sys2Proof.Machine

/-- R379: the host folios of an extent at a payload offset. -/
def extent (b : List Byte) (off : Nat) : List Nat := List.range' (le b off 3) (le b (off + 4) 3)

/-- R26, R379: an extent whose reserved bytes are zero and that lies within the configured capacity. -/
def extentOk (s : State) (b : List Byte) (off : Nat) : Bool :=
  le b (off + 3) 1 == 0 && le b (off + 7) 1 == 0 && le b off 3 + le b (off + 4) 3 ≤ s.board.folios

/-- A folio is in escrow state. -/
def inEscrow (s : State) (f : Nat) : Bool := (ent s f).state == .escrow

/-- R380: a background command that appends one record per folio. -/
def bgRecords (p : MbxPort) (op : Nat) (rs : List JRec) (s : State) : Ans :=
  let a := bgStart p op 0 rs.length s
  { a with st := jAppendFor p rs a.st }

/-- R379: the body of Get Capacity Info. -/
def yGetCapacityInfo : Body := fun _ _ s =>
  okOut (toLE 4 s.board.folios ++ toLE 4 (provisionedCount s) ++ toLE 4 (mediaN s) ++ toLE 4 (reserveCount s) ++
    toLE 4 (floorF s) ++ toLE 4 (writtenOff s) ++ toLE 4 (provisionable s) ++ zeros 4) s

/-- GET_CAPACITY_INFO (R379). -/
def execGetCapacityInfo (p : MbxPort) (payload : List Byte) (s : State) : Res :=
  .next (yciRun 0xC100 yGetCapacityInfo p payload s)

/-- R245, R246, R276: a key ID may own new folios of an arrival head: its slot is loaded, its HEAD bit is set, and a
sealed domain's folios lie in the sealed window. -/
def mayProvision (s : State) (key : Nat) (h : Head) (fs : List Nat) : Bool :=
  key < 128 && (domKey s key).isSome && headAllowed s key h && (!domSealed s key || fs.all fun f => inWindow s (f * 8192))

/-- R163: the folios are recorded in the passbook's provisioning extents. -/
def extentPut (f : Nat) (e : LEntry) (s : State) : State := s.modLed fun l => { l with extents := tput entry0 l.extents f e }

/-- R380: the body of Provision Folios. -/
def yProvisionFolios : Body := fun p b s =>
  let fs := extent b 0
  let key := le b 8 1
  let pol := le b 9 1
  if !extentOk s b 0 || 16 ≤ pol || le b 10 6 != 0 || fs.any (fun f => provisioned (ent s f)) ||
      !mayProvision s key (headOf p) fs then errAns rcInvalid s
  else if provisionable s < fs.length then errAns rcCapacity s
  else
    let a := pol + 16 * b2n (domSealed s key)
    let s := forEach fs (fun f s =>
      extentPut f (withAttrBits { entry0 with key := key, state := .blankMapped } a) s) s
    bgRecords p 0xC101 (fs.map fun f => jAttr f key a .blankMapped (ent s f).gen.toNat) (recordQueue recExtents s)

/-- PROVISION_FOLIOS (R380). -/
def execProvisionFolios (p : MbxPort) (payload : List Byte) (s : State) : Res :=
  .next (yciRun 0xC101 yProvisionFolios p payload s)

/-- R184: the REMAP of an instant zero, which leaves the folio in a given state. -/
def jZero (s : State) (f : Nat) (st : FolioState) : JRec := jRemap f 0 (ent s f).media noFolio ((ent s f).gen + 1).toNat st

/-- R380: the body of Deprovision Folios: a folio that names a media folio is remapped to none (log entry 29). -/
def yDeprovisionFolios : Body := fun p b s =>
  let fs := extent b 0
  if !extentOk s b 0 then errAns rcInvalid s
  else if fs.any (inEscrow s) then errAns rcBusy s
  else
    let fs := fs.filter fun f => provisioned (ent s f)
    let rs := fs.map fun f =>
      let e := ent s f
      if e.media == noFolio then jAttr f e.key (attrBits e) .unprovisioned e.gen.toNat else jZero s f .unprovisioned
    let s := forEach fs (fun f s => extentPut f entry0 s) s
    bgRecords p 0xC102 rs (recordQueue recExtents s)

/-- DEPROVISION_FOLIOS (R380, R186). -/
def execDeprovisionFolios (p : MbxPort) (payload : List Byte) (s : State) : Res :=
  .next (yciRun 0xC102 yDeprovisionFolios p payload s)

/-- R380: the body of Zero Folios. -/
def yZeroFolios : Body := fun p b s =>
  let fs := extent b 0
  if !extentOk s b 0 then errAns rcInvalid s
  else if fs.any (inEscrow s) then errAns rcBusy s
  else if fs.any (fun f => !provisioned (ent s f)) then errAns rcInvalid s
  else bgRecords p 0xC103 (fs.map fun f => jZero s f .blankMapped) s

/-- ZERO_FOLIOS (R380, R184, R186). -/
def execZeroFolios (p : MbxPort) (payload : List Byte) (s : State) : Res := .next (yciRun 0xC103 yZeroFolios p payload s)

/-- R380: the body of Set Folio Attributes. -/
def ySetFolioAttributes : Body := fun p b s =>
  let fs := extent b 0
  let v := le b 8 1
  let m := le b 9 1
  if !extentOk s b 0 || bit v 0 || bit m 0 || 16 ≤ v || 16 ≤ m || le b 10 2 != 0 ||
      fs.any (fun f => !provisioned (ent s f)) then errAns rcInvalid s
  else
    let rs := fs.map fun f =>
      let e := ent s f
      jAttr f e.key ((attrBits e &&& (0x1F ^^^ m)) ||| (v &&& m)) e.state e.gen.toNat
    bgRecords p 0xC104 rs s

/-- SET_FOLIO_ATTRIBUTES (R380, R42). -/
def execSetFolioAttributes (p : MbxPort) (payload : List Byte) (s : State) : Res :=
  .next (yciRun 0xC104 ySetFolioAttributes p payload s)

/-- R180: a class-change migration of a folio; a folio without contents changes by an ATTR. -/
def classChange (p : MbxPort) (f : Nat) (s : State) : State :=
  let e := ent s f
  if e.media == noFolio then
    jAppendFor p [jAttr f e.key (attrBits { e with bullion := !e.bullion }) e.state e.gen.toNat] s
  else
    s.modLed fun l =>
      { l with migs := l.migs ++ [{ folio := f, prio := 3, retire := 0, bullion := !e.bullion, src := noFolio, dst := noFolio,
                                    phase := .queued, pass := 0, marked := [], todo := [], own := mbxNo p }] }

/-- R380: the body of Change Folio Class; a folio that migrates already is left to that migration. -/
def yChangeFolioClass : Body := fun p b s =>
  let fs := extent b 0
  if !extentOk s b 0 || fs.any (fun f => inEscrow s f || (ent s f).sealed_) then errAns rcInvalid s
  else
    let fs := fs.filter fun f => provisioned (ent s f) && !migrating s f
    if reserveLeft s < allocLimit s true + fs.length then errAns rcCapacity s
    else
      let a := bgStart p 0xC105 0 fs.length s
      { a with st := forEach fs (fun f s => classChange p f s) a.st }

/-- CHANGE_FOLIO_CLASS (R380, R180). -/
def execChangeFolioClass (p : MbxPort) (payload : List Byte) (s : State) : Res :=
  .next (yciRun 0xC105 yChangeFolioClass p payload s)

/-- R379: the body of Get Folio Entry: the entry as it is served. -/
def yGetFolioEntry : Body := fun _ b s =>
  if le b 3 1 != 0 || s.board.folios ≤ le b 0 3 then errAns rcInvalid s else okOut (entryBytes (ent s (le b 0 3))) s

/-- GET_FOLIO_ENTRY (R379). -/
def execGetFolioEntry (p : MbxPort) (payload : List Byte) (s : State) : Res :=
  .next (yciRun 0xC106 yGetFolioEntry p payload s)

/-- REQUEST_CHECKPOINT (R378): as WLV_CTL.CKPT_REQ. -/
def execRequestCheckpoint (p : MbxPort) (payload : List Byte) (s : State) : Res :=
  .next (yciRun 0xC107 (fun _ _ s => ok (ckptTrigger s)) p payload s)

/-- R379, R380: the body of Ledger Recovery Decision. -/
def yLedgerDecision : Body := fun p b s =>
  if le b 1 3 != 0 || !s.led.lost then errAns rcInvalid s
  else
    match le b 0 1 with
    | 1 => bgStart p 0xC108 1 0 (s.modLed fun l => { l with scanActive := true, scanDone := false })
    | 2 =>
      if !s.led.scanDone then errAns rcBusy s
      else bgStart p 0xC108 2 0 (s.modLed fun l => { l with scanActive := true })
    | 3 => bgStart p 0xC108 3 0 (formatOp s)
    | _ => errAns rcInvalid s

/-- START_REBUILD_SCAN (R380): Ledger Recovery Decision 0x01. -/
def execStartRebuildScan (p : MbxPort) (payload : List Byte) (s : State) : Res :=
  .next (yciRun 0xC108 yLedgerDecision p (withAction 1 payload) s)

/-- COMMIT_SCAN_RESULT (R380): Ledger Recovery Decision 0x02. -/
def execCommitScanResult (p : MbxPort) (payload : List Byte) (s : State) : Res :=
  .next (yciRun 0xC108 yLedgerDecision p (withAction 2 payload) s)

/-- FORMAT (R380, R529): Ledger Recovery Decision 0x03. -/
def execFormat (p : MbxPort) (payload : List Byte) (s : State) : Res :=
  .next (yciRun 0xC108 yLedgerDecision p (withAction 3 payload) s)

/-- GET_SCAN_REPORT (R379, R380). -/
def execGetScanReport (p : MbxPort) (payload : List Byte) (s : State) : Res :=
  .next (yciRun 0xC109 (fun _ _ s => okOut (s.led.scanReport.flatMap (toLE 4)) s) p payload s)

/-! Health (R188, R189). -/

/-- R189: the fewest free spare entries on any die. -/
def fewestSpares (s : State) : Nat :=
  (popChans s).foldl (fun n c =>
    ((List.range 18).filter fun p => (chan s c).present.getLsbD p).foldl (fun n p => min n (spareFree s c p)) n) 256

/-- R188: life used in percent. -/
def lifeUsed (s : State) : Nat := min 100 (100 * wearMax s / max 1 (wearLimit s))

/-- R189: spare left in percent. -/
def spareLeft (s : State) : Nat :=
  min (min 100 (100 * reserveCount s / max 1 s.led.reserveAtFormat)) (100 * fewestSpares s / 256)

/-- R189: a temperature in °C, saturating at 127 and −128. -/
def sat8 (t : Int) : Byte := BitVec.ofInt 8 (max (-128) (min 127 t))

/-- R189: the 64 bytes of Get Wear and Reserve Health. -/
def wearHealth (s : State) : List Byte :=
  toLE 4 (reserveCount s) ++ toLE 4 (floorF s) ++ toLE 4 (writtenOff s) ++ toLE 4 (readOnlyCount s) ++
    toLE 4 s.led.overdraft.length ++ toLE 4 (wearMax s) ++ toLE 4 (wearMean s) ++ toLE 4 (wearLimit s) ++
    toLE 1 (spareLeft s) ++ toLE 1 (lifeUsed s) ++ toLE 2 (fewestSpares s) ++ toLE 4 (rval s 0x200044) ++
    toLE 4 (rval s 0x20004C) ++ toLE 4 (rval s 0x200058) ++ [sat8 s.sup.sinceOn, sat8 s.sup.ever] ++
    toLE 2 (min 0xFFFF (s.sup.min95 / 60)) ++ toLE 2 (min 0xFFFF (s.sup.min105 / 60)) ++ zeros 10

/-- GET_WEAR_AND_RESERVE_HEALTH (R189). -/
def execGetWearAndReserveHealth (p : MbxPort) (payload : List Byte) (s : State) : Res :=
  .next (yciRun 0xC10A (fun _ _ s => okOut (wearHealth s) s) p payload s)

/-- R381: the body of Set Till Loss Acceptance. -/
def ySetTillLoss : Body := fun _ b s =>
  let a := le b 0 1
  if 2 ≤ a || le b 1 3 != 0 || holdupActs s then errAns rcInvalid s
  else if a == 1 then ok (s.modPur fun u => { u with lossAccepted := true, tillLossPossible := true })
  else ok (s.modPur fun u => { u with lossAccepted := false, exRing := u.exRing ++ u.wbRing, wbRing := [] })

/-- SET_TILL_LOSS_ACCEPTANCE (R381). -/
def execSetTillLossAcceptance (p : MbxPort) (payload : List Byte) (s : State) : Res :=
  .next (yciRun 0xC10B ySetTillLoss p payload s)

end Sys2Proof.Machine
end

