-- ==== Sys2Proof/Machine/Timebase.lean ====
section
/-! DEFINITION. Mint time: setting it, its sources, PTM dialogues (R140, R217-R222, R242). -/

namespace Sys2Proof.Machine

/-- R219, R220: a set or SOURCE write is refused. -/
def setRefused (s : State) : State := raise 7 0 0x03 (det3 (mintNow s) 0) (rbit s 0x60000 8)

/-- R222: PTM_LOCKED clears. -/
def ptmUnlock (s : State) : State :=
  let was := s.tbs.locked
  let s := s.modTbs fun t => { t with locked := false, lockRun := 0 }
  if was then raise 7 0 0x05 (det3 (mintNow s) 0) s else s

/-- SOURCE_HOST (R219): the mint time runs on the crystal; a PTM lock ends, with PTM_UNLOCK (DESIGN CHOICE, log entry 74). A set that
waits for its boundary is dropped, as at every write of SOURCE (R220; DESIGN CHOICE, log entry 97). -/
def sourceHostOp (s : State) : State :=
  let s := ptmUnlock s
  s.modTbs fun t => { t with source := 0, slew := 0, slewing := false, resync := false, dialogueOpen := false, pendSet := none }

/-- SOURCE_PTM (R219): refused while PORT names Port B and Port B is not a second head. -/
def sourcePtmOp (s : State) : State :=
  if s.tbs.ptmCfg.getLsbD 16 && !twoHeads s then setRefused s
  else s.modTbs fun t => { t with source := 1, resync := true, unanswered := 0, lostRaised := false, dialogueOpen := false,
                                  dialogueAt := s.clock, lockRun := 0, pendSet := none }

/-- SOURCE_PAIR_LINK (R219, R406): refused while Port B is not a correspondent link. -/
def sourcePairOp (s : State) : State :=
  if !pairMode s then setRefused s
  else (ptmUnlock s).modTbs fun t => { t with source := 2, resync := true, dialogueOpen := false, pendSet := none }

/-- SOURCE_HOST (R219). -/
def regSourceHost (_h : Head) (s : State) : Res := .next (sourceHostOp s)
/-- SOURCE_PTM (R219). -/
def regSourcePtm (_h : Head) (s : State) : Res := .next (sourcePtmOp s)
/-- SOURCE_PAIR_LINK (R219). -/
def regSourcePairLink (_h : Head) (s : State) : Res := .next (sourcePairOp s)

/-- R219, R242: a write of TBS_PTM_CFG: PORT = 1 is refused while SOURCE is 0x1 and Port B is not a second head. -/
def ptmCfgOp (v : BitVec 32) (s : State) : State :=
  let bad := v.getLsbD 16 && s.tbs.source == 1 && !twoHeads s
  let port := if bad then s.tbs.ptmCfg &&& 0x10000 else v &&& 0x10000
  let s := s.modTbs fun t => { t with ptmCfg := (v &&& 0xFFFF) ||| port }
  if bad then setRefused s else s

/-- TBS_PTM_CFG_WRITE (R219). -/
def regTbsPtmCfgWrite (_h : Head) (value : BitVec 32) (s : State) : Res := .next (ptmCfgOp value s)

/-- R29, R220: a write of the second field of the TBS_SET pair. -/
def tbsSetHiOp (v : BitVec 32) (s : State) : State :=
  let s := s.modTbs fun t => { t with setHi := v }
  if s.tbs.setLoHeld.toNat % 1024 != 0 then
    setRefused (s.modTbs fun t => { t with setLoHeld := t.setLoForce })
  else if s.tbs.source != 0 then setRefused s
  else
    s.modTbs fun t => { t with setLoForce := t.setLoHeld, pendSet := some (nextBoundary s, v ++ t.setLoHeld) }

/-- TBS_SET_HI (R220). -/
def regTbsSetHi (_h : Head) (value : BitVec 32) (s : State) : Res := .next (tbsSetHiOp value s)

/-- R140: folios with contents. -/
def liveFolios (s : State) : List Nat :=
  (s.led.entries.filter fun e => e.2.state == .live || e.2.state == .readOnly || e.2.state == .escrow).map (·.1)

/-- R140, R221: the second case of R140 against a first set of V: every live folio joins the scrub list. -/
def secondCase (v : Nat) (s : State) : Bool :=
  match s.tbs.recorded with
  | none => !(liveFolios s).isEmpty
  | some r => v < r.toNat || 2 ^ 24 * 2 ^ 32 ≤ v - r.toNat + ageLimit s * 2 ^ 32

/-- R142: the scrub starts: every listed folio is restruck. -/
def scrubStart (s : State) : State :=
  if s.integ.scrub.isEmpty then s
  else forEach s.integ.scrub (fun f s => queueFolioRestrike f s) (s.modInteg fun i => { i with scrubbing := true })

/-- R140: stamp-search mode ends. -/
def searchExit (s : State) : State :=
  if s.integ.search then raise 4 2 0x02 det0 (s.modInteg fun i => { i with search := false }) else s

/-- R84, R140, R142, R221: what the first set does to the drift machinery: the search of every line ends; in the second case of
R140 every live folio joins the scrub list, whose folios stay in the mode until they are restruck. The dies learn the time. -/
def firstSet (v : Nat) (s : State) : State :=
  let s := if secondCase v s then
      let fs := liveFolios s
      recordQueue recScrub (s.modInteg fun i => { i with scrub := (i.scrub ++ fs).dedup })
    else s
  let s := scrubStart s
  let s := if s.integ.scrub.isEmpty then searchExit s else s.modInteg fun i => { i with search := false }
  dieTimeSend (v / 2 ^ 32) true s

/-- R220: the mint time becomes V at a boundary that has just passed; what is below a frame is slewed out (R222). -/
def mintMove (bd v : Nat) (s : State) : State :=
  s.modTbs fun t =>
    { t with mint := BitVec.ofNat 64 (v / 1024 * 1024 + (t.mint.toNat - bd)), slew := Int.ofNat (v % 1024),
             slewing := v % 1024 != 0, slewTick := 0, pendSet := none }

/-- MINT_TIME_SET (R220, R221): at the boundary the set applies, or is refused. -/
def execMintTimeSet (s : State) : Res :=
  match s.tbs.pendSet with
  | none => .next s
  | some (bd, w) =>
    let v := w.toNat
    if mintNow s < bd then .next s
    else if !s.tbs.set then
      let s := (mintMove bd v s).modTbs fun t => { t with set := true }
      .next (raise 7 0 0x01 (det3 v 0) (firstSet v s))
    else if v / 1024 * 1024 < bd || 2 ^ 32 + bd < v / 1024 * 1024 then .next (setRefused (s.modTbs fun t => { t with pendSet := none }))
    else
      let s := mintMove bd v s
      .next (if bd < v / 1024 * 1024 then raise 7 0 0x02 (det3 v bd) (rbit s 0x60000 9) else s)

/-! PTM (R222). -/

/-- R219: the head that TBS_PTM_CFG.PORT names. -/
def ptmHead (s : State) : Head := if s.tbs.ptmCfg.getLsbD 16 then .b else .a

/-- R242: PERIOD_MS in ns; 0 acts as 1. -/
def ptmPeriod (s : State) : Nat := max 1 (s.tbs.ptmCfg.toNat % 65536) * 1000000

/-- PTM_DIALOGUE (R222): a dialogue every PERIOD_MS; the third unanswered period in a row raises PTM_LOST.
An unanswered dialogue keeps the run of good ones (DESIGN CHOICE, log entry 75). -/
def execPtmDialogue (s : State) : Res :=
  if s.tbs.source != 1 || s.clock < s.tbs.dialogueAt + ptmPeriod s then .next s
  else
    let n := if s.tbs.dialogueOpen then s.tbs.unanswered + 1 else 0
    let lost := n == 3 && !s.tbs.lostRaised
    let s := bump 642 1 (s.modTbs fun t =>
      { t with dialogueAt := s.clock, dialogueOpen := true, unanswered := n, lostRaised := t.lostRaised || n == 3 })
    .next (if lost then raise 7 0 0x06 (det3 (mintNow s) 0)
        (rbit (s.modTbs fun t => { t with slew := 0, slewing := false }) 0x60000 10) else s)

/-- E, two's complement, saturating at 32 bits (R242, R406). -/
def errWord (e : Int) : BitVec 32 := BitVec.ofInt 32 (max (-(2 ^ 31)) (min (2 ^ 31 - 1) e))

/-- R222, R406: an exchange with error E while the source keeps the time: the set that a SOURCE write asked for, the
slew, or none beyond 1 ms. -/
def discipline (e : Int) (s : State) : State :=
  if !s.tbs.set || s.tbs.resync then
    let bd := boundaryAfter s 1
    s.modTbs fun t => { t with resync := false, pendSet := some (bd, BitVec.ofInt 64 (Int.ofNat bd + e)) }
  else if e.natAbs ≤ 1000000 then s.modTbs fun t => { t with slew := e, slewing := e != 0, slewTick := 0 }
  else s.modTbs fun t => { t with slew := 0, slewing := false }

/-- R222: PTM_LOCKED after an exchange with error E. -/
def ptmLockStep (e : Int) (s : State) : State :=
  if 1000000 < e.natAbs then
    raise 7 0 0x05 (det3 (mintNow s) e.natAbs) (s.modTbs fun t => { t with locked := false, lockRun := 0 })
  else if e.natAbs ≤ 64 then
    let n := s.tbs.lockRun + 1
    let s := s.modTbs fun t => { t with lockRun := n }
    if 8 ≤ n && !s.tbs.locked then raise 7 0 0x04 (det3 (mintNow s) 0) (s.modTbs fun t => { t with locked := true }) else s
  else
    let s := s.modTbs fun t => { t with lockRun := 0 }
    if 128 < e.natAbs then ptmUnlock s else s

/-- PTM_RESPONSE (R222): the answer to the open dialogue: the PTM master time gives E. -/
def execPtmResponse (master : BitVec 64) (s : State) : Res :=
  let p := portOf s (ptmHead s)
  if s.tbs.source != 1 || !s.tbs.dialogueOpen || p.width == 0 || !p.ptmEn then .next s
  else
    let e : Int := (master + s.tbs.offset - s.tbs.mint).toInt
    let first := !s.tbs.set || s.tbs.resync
    let s := s.modTbs fun t => { t with dialogueOpen := false, unanswered := 0, lostRaised := false, ptmErr := errWord e }
    let s := discipline e s
    .next (if first && 1000000 < e.natAbs then ptmUnlock s else ptmLockStep e s)

end Sys2Proof.Machine
end

