-- ==== Sys2Proof/Machine/Orders.lean ====
section
/-! DEFINITION. Standing orders, quiet windows, the frame tokens, and the commands of class 0xC4 (R23, R223-R232,
R234-R240, R379). -/

namespace Sys2Proof.Machine

/-! Entries (R223). -/

/-- A free entry. -/
def soEntry0 : SoEntry := default

/-- A standing-order entry. -/
def soEnt (s : State) (i : Nat) : SoEntry := tget soEntry0 s.so.entries i

/-- Update of an entry. -/
def modSo (i : Nat) (f : SoEntry → SoEntry) (s : State) : State :=
  s.modSo fun o => { o with entries := tmod soEntry0 o.entries i f }

/-- FIRE_TIME. -/
def soFire (b : BitVec 256) : Nat := bits b.toNat 0 64
/-- PERIOD in ns; 0 acts as 1. -/
def soPeriod (b : BitVec 256) : Nat := max 1 (bits b.toNat 64 32) * 1024
/-- COUNT. -/
def soCount (b : BitVec 256) : Nat := bits b.toNat 96 32
/-- ACTION. -/
def soAction (b : BitVec 256) : Nat := bits b.toNat 128 8
/-- FLAGS. -/
def soFlags (b : BitVec 256) : Nat := bits b.toNat 136 8
/-- TAG. -/
def soTag (b : BitVec 256) : Nat := bits b.toNat 144 16
/-- n bytes of ARG from byte k. -/
def soArg (b : BitVec 256) (k n : Nat) : Nat := bits b.toNat (160 + 8 * k) (8 * n)

/-- An entry's bytes with FIRE_TIME and COUNT replaced. -/
def soWith (b : BitVec 256) (fire count : Nat) : BitVec 256 :=
  BitVec.ofNat 256 (b.toNat / 2 ^ 128 * 2 ^ 128 + count % 2 ^ 32 * 2 ^ 96 + b.toNat / 2 ^ 64 % 2 ^ 32 * 2 ^ 64 + fire % 2 ^ 64)

/-- The STATE code of R243. -/
def soCode : SoEntryState → Nat
  | .free => 0 | .armed => 1 | .dormant => 2 | .done => 3 | .rejected => 4 | .disarmed => 5

/-- R243: the word SO_STATEi. -/
def soWord (e : SoEntry) : Nat := soCode e.state + e.error.toNat * 256 + min 0xFFFF e.lateMax * 65536

/-- The entry is armed or dormant (R225). -/
def soHeld (e : SoEntry) : Bool := e.state == .armed || e.state == .dormant

/-- R225: bytes of an entry are written, unless it is armed or dormant. -/
def soWrite (i : Nat) (b : BitVec 256) (s : State) : State :=
  if soHeld (soEnt s i) then rbit s 0x61000 8 else modSo i (fun e => { e with bytes := b }) s

/-- R224: bytes of ARG that each action uses. -/
def argBytes : Nat → Nat
  | 1 => 8 | 2 => 1 | 3 => 2 | 4 => 4 | 5 => 4 | _ => 0

/-- R225: the cause for which the arm of an entry is rejected; 0 none. -/
def armError (e : SoEntry) : Nat :=
  let b := e.bytes
  let a := soAction b
  if soFire b % 1024 != 0 then 1
  else if 7 < a then 2
  else if 4 ≤ soFlags b || soArg b (argBytes a) (12 - argBytes a) != 0 || (a == 1 && bit (soArg b 7 1) 7) then 3
  else if (a == 1 && 8192 < soArg b 3 2 + soArg b 5 2) || (a == 2 && 63 < soArg b 0 1) || (a == 3 && 4095 < soArg b 0 2) then 4
  else if soHeld e then 5
  else 0

/-- R225: arm an entry. A successful arm clears ERROR (DESIGN CHOICE, log entry 99). -/
def soArmOp (i : Nat) (s : State) : State :=
  let e := soEnt s i
  let err := armError e
  if err == 0 then
    modSo i (fun e => { e with state := if soCount e.bytes == 0 then .dormant else .armed, error := 0, prepared := false, ends := false }) s
  else
    let s := modSo i (fun e => { e with error := BitVec.ofNat 8 err, state := if soHeld e then e.state else .rejected }) s
    raise 7 1 0x03 (det4 i (soTag e.bytes) err (soFire e.bytes)) (rbit s 0x61000 9)

/-- The set that an entry's release has prepared. -/
def setPreparedBy (s : State) (i : Nat) : Option (Nat × Escrow) :=
  s.esc.sets.find? fun x => x.2.entry == i + 1 && (x.2.state == .preparing || x.2.state == .committed)

/-- R229: disarm an entry. A release whose RELEASE-COMMIT is complete still takes effect, and the firings after it are disarmed. -/
def soDisarmOp (i : Nat) (s : State) : State :=
  let dis (s : State) : State := modSo i (fun e => { e with state := .disarmed, prepared := false, ends := false }) s
  match setPreparedBy s i with
  | some (n, x) =>
    if x.state == .committed then
      rbit (modSo i (fun e => { e with ends := soHeld e && soCount e.bytes != 1 }) s) 0x61000 11
    else dis (releaseUnprepare n s)
  | none => dis s

/-- SO_ARM (R225). -/
def regSoArm (_h : Head) (value : BitVec 32) (s : State) : Res := .next (soArmOp (value.toNat % 1024) s)
/-- SO_DISARM (R229). -/
def regSoDisarm (_h : Head) (value : BitVec 32) (s : State) : Res := .next (soDisarmOp (value.toNat % 1024) s)

/-! Firing (R226-R228, R238, R241). -/

/-- R243 SO_STATUS.RUNNING: the mint time is set and no trip is in force. -/
def soRunning (s : State) : Bool := s.tbs.set && !s.so.halted && !s.sup.tripped && s.pur.drain == .none

/-- R226: an entry after a firing whose token is issued for frame F; COUNT, FIRE_TIME and the state change as the token is issued
(DESIGN CHOICE, log entry 100). -/
def soAdvance (e : SoEntry) (frame : Nat) : SoEntry :=
  let b := e.bytes
  let c := soCount b
  let c' := if c == 0xFFFFFFFF then c else c - 1
  let fire := soFire b
  let per := soPeriod b
  let late := frame - fire
  let next := if bit (soFlags b) 1 && per ≤ late then fire + (late / per + 1) * per else fire + per
  { e with bytes := soWith b next c', state := if c' == 0 then .done else if e.ends then .disarmed else e.state, prepared := false,
           ends := false }

/-- R227: entries whose firing is due by a frame; a RELEASE waits for its commit (R238). -/
def soDue (s : State) (frame : Nat) : List (Nat × SoEntry) :=
  s.so.entries.filter fun e => e.2.state == .armed && soFire e.2.bytes ≤ frame &&
    (soAction e.2.bytes != 2 || (e.2.prepared && !(setPreparedBy s e.1).any fun x => x.2.state == .preparing))

/-- R227: one before the other in order of FIRE_TIME, then of entry index. -/
def soBefore (a b : Nat × SoEntry) : Bool :=
  soFire a.2.bytes < soFire b.2.bytes || (soFire a.2.bytes == soFire b.2.bytes && a.1 < b.1)

/-- R227: the first of the due entries. -/
def soFirst : List (Nat × SoEntry) → Option (Nat × SoEntry)
  | [] => none
  | x :: r =>
    match soFirst r with
    | none => some x
    | some y => if soBefore y x then some y else some x

/-- R226, R227: issue the tokens of a frame's firings, at most `n` more; each entry advances with its token (DESIGN CHOICE, log entry
100). -/
def soIssue (frame : Nat) : Nat → State → State
  | 0, s => s
  | n + 1, s =>
    match soFirst (soDue s frame) with
    | none => s
    | some (i, e) =>
      let f : Firing := { entry := i, frame := frame, fireTime := soFire e.bytes, bytes := e.bytes }
      soIssue frame n (modSo i (fun e => soAdvance e frame) (s.modSo fun o => { o with firings := o.firings ++ [f] }))

/-- FRAME_TOKEN (R23, R227): the tokens of the next frame go to every populated channel's cluster, with the firings that
take effect in it. -/
def execFrameToken (s : State) : Res :=
  let frame := (mintNow s / 1024 + 1) * 1024
  if frame == s.tbs.tokenFrame then .next s
  else
    let s := s.modTbs fun t => { t with tokenFrame := frame }
    let s := forEach (popChans s) (fun c s =>
      if (chan s c).state == .active then modChan c (fun x => { x with token := (x.token ++ [frame]).take 4 }) s else s) s
    let s := if soRunning s && s.led.memActive then soIssue frame 16 s else s
    .next s

/-- R228, R243: an issued firing takes effect: counted, its lateness recorded, FIRED where asked. A firing that raises nothing leaves no
daybook record, and its TAG stands in none (R223; DESIGN CHOICE, log entry 98). -/
def fireCount (f : Firing) (s : State) : State :=
  let late := (f.frame - f.fireTime) / 1024
  let s := s.modSo fun o => { o with firings := o.firings.erase f, fired := satAdd 0xFFFFFFFF o.fired 1,
                                     late := if 0 < late then satAdd 0xFFFFFFFF o.late 1 else o.late }
  let s := bump 640 1 (if 0 < late then bump 641 1 s else s)
  let s := modSo f.entry (fun e => { e with lateMax := max e.lateMax (min late 0xFFFF) }) s
  let d := det4 f.entry (soTag f.bytes) late f.fireTime
  let s := if rval s 0x6100C % 256 < late then raise 7 1 0x02 d (rbit s 0x61000 10) else s
  if bit (soFlags f.bytes) 0 then raise 7 1 0x01 d s else s

/-- The oldest issued firing of an entry with a given action whose frame has begun. -/
def firingNow (s : State) (entry action : Nat) : Option Firing :=
  s.so.firings.find? fun f => f.entry == entry && soAction f.bytes == action && f.frame ≤ mintNow s

/-- A firing of an entry takes effect (R224): the common counts, then the action's effect; none after a power-fail trip (R230). -/
def fireRun (entry action : Nat) (effect : Firing → State → State) (s : State) : Res :=
  match (if s.sup.tripped || s.so.halted then none else firingNow s entry action) with
  | none => .next s
  | some f => .next (effect f (fireCount f s))

/-- NOP (R224). -/
def execNopOrder (entry : Nat) (s : State) : Res := fireRun entry 0 (fun _ s => s) s

/-- R232: queue lines in turn; true where one was dropped. -/
def prefetchLines : List Nat → Bool → State → Bool × State
  | [], d, s => (d, s)
  | l :: r, d, s =>
    let (ok, s) := prefetchQueue l s
    prefetchLines r (d || !ok) s

/-- R232, R249: the effect of a PREFETCH order. -/
def prefetchEffect (f : Firing) (s : State) : State :=
  let b := f.bytes
  let h := soArg b 0 3
  let e := ent s h
  let d := det4 f.entry (soTag b) 0 f.fireTime
  if !provisioned e then raise 7 1 0x05 d s
  else
  match accessCheck s (soArg b 7 1) none e with
  | some fail => raise 7 1 0x05 d (accessCount fail (h * 2 ^ 21) (soArg b 7 1) false none s)
  | none =>
    let (drop, s) := prefetchLines (List.range' (h * 8192 + soArg b 3 2) (soArg b 5 2)) false s
    if drop then raise 7 1 0x04 d s else s

/-- R238 step 4: the effect of a RELEASE order; none where recovery has applied the release (R241). -/
def releaseEffect (f : Firing) (s : State) : State :=
  let n := soArg f.bytes 0 1
  let x := escSet s n
  if x.state == .committed && x.entry == f.entry + 1 then
    raise 7 2 0x02 (det4 f.entry (soTag f.bytes) ((f.frame - f.fireTime) / 1024) f.fireTime) (bump 643 1 (releaseSwap n s))
  else s

/-- R241: the releases of frames up to a firing's take effect before it. -/
def releasesFirst (f : Firing) (s : State) : State :=
  forEach (s.so.firings.filter fun g => soAction g.bytes == 2 && g.frame ≤ f.frame) (fun g s => releaseEffect g (fireCount g s)) s

/-- PREFETCH_ORDER (R232, R241). -/
def execPrefetchOrder (entry : Nat) (s : State) : Res := fireRun entry 1 (fun f s => prefetchEffect f (releasesFirst f s)) s

/-- RELEASE (R238). -/
def execReleaseOrder (entry : Nat) (s : State) : Res := fireRun entry 2 releaseEffect s

/-- R307: open the gate of a queue. -/
def gateOpenOp (q : Nat) (s : State) : State :=
  s.modMov fun m => { m with queues := tmod none m.queues q fun x => x.map fun x => { x with gateClosed := false } }

/-- QUEUE_START (R307). -/
def execQueueStart (entry : Nat) (s : State) : Res :=
  fireRun entry 3 (fun f s =>
    let q := soArg f.bytes 0 2
    match queueAt s q with
    | some x => if x.gateClosed then raise 8 17 0x04 ((det3 q 0).on x.head) (gateOpenOp q s) else s
    | none => s) s

/-- The populated channels of a mask. -/
def maskChans (s : State) (mask : Nat) : List Nat := (popChans s).filter fun c => bit mask c

/-- R103: a window that begins or ends acts on the channel's frame in progress. -/
def quietNow (c : Nat) (s : State) : State :=
  if (chan s c).state == .active then modChan c (fun x => { x with quiet := quietIn s c x.frame }) s else s

/-- QUIET_BEGIN (R231): no effect on a channel that is quiet. -/
def execQuietBegin (entry : Nat) (s : State) : Res :=
  fireRun entry 4 (fun f s => forEach (maskChans s (soArg f.bytes 0 4)) (fun c s =>
    if tget 0 s.so.quiet c != 0 then s
    else quietNow c (s.modSo fun o => { o with quiet := tput 0 o.quiet c (f.frame + 1), quietEndAt := tput 0 o.quietEndAt c 0 })) s) s

/-- R231: the window of a channel ends with the frame that begins at t. -/
def quietStop (c t : Nat) (s : State) : State :=
  if tget 0 s.so.quiet c == 0 then s
  else quietNow c (s.modSo fun o => { o with quiet := tput 0 o.quiet c 0, quietEndAt := tput 0 o.quietEndAt c (t + 1) })

/-- QUIET_END (R231). -/
def execQuietEnd (entry : Nat) (s : State) : Res :=
  fireRun entry 5 (fun f s => forEach (maskChans s (soArg f.bytes 0 4)) (fun c s => quietStop c f.frame s) s) s

/-- AUDIT (R224, R434): a snapshot at the firing frame. -/
def execAuditOrder (entry : Nat) (s : State) : Res :=
  fireRun entry 6 (fun f s => snapRequest f.frame (BitVec.ofNat 16 (soTag f.bytes)) 0 s) s

/-- MARKER (R224). -/
def execMarkerOrder (entry : Nat) (s : State) : Res :=
  fireRun entry 7 (fun f s => raise 7 1 0x07 (det4 f.entry (soTag f.bytes) ((f.frame - f.fireTime) / 1024) f.fireTime) s) s

/-- R231, R243: QUIET_MAX in ns; 0 acts as 1. -/
def quietMax (s : State) : Nat := max 1 (rval s 0x6100C / 65536) * 1024 * 1024

/-- QUIET_FORCED_END (R231). -/
def execQuietForcedEnd (c : Nat) (s : State) : Res :=
  let b := tget 0 s.so.quiet c
  if b == 0 || mintNow s < b - 1 + quietMax s then .next s
  else .next (raise 7 1 0x06 (det2 c 0 0 0 0) (quietStop c (b - 1 + quietMax s) s))

/-- R238 step 1: the lead of a release of m members. -/
def prepLead (m : Nat) : Nat := 1000000 + (m + 2) * 20000

/-- RELEASE_PREPARATION_START (R238): at its lead, or at arm; a set that is not closed refuses the firing, which is counted then, without
lateness and without FIRED (DESIGN CHOICE, log entry 101). -/
def execReleasePreparationStart (entry : Nat) (s : State) : Res :=
  let e := soEnt s entry
  let n := soArg e.bytes 0 1
  let x := escSet s n
  let fire := soFire e.bytes
  if e.state != .armed || soAction e.bytes != 2 || e.prepared || !soRunning s || !s.led.memActive || !s.ctl.cpuUp ||
      mintNow s + prepLead x.members.length < fire then .next s
  else if x.state != .closed || x.abandon then
    let frame := max fire ((mintNow s / 1024 + 1) * 1024)
    let f : Firing := { entry := entry, frame := frame, fireTime := fire, bytes := e.bytes }
    let s := modSo entry (fun e => soAdvance e frame) (s.modSo fun o => { o with fired := satAdd 0xFFFFFFFF o.fired 1 })
    .next (raise 7 2 0x04 (det4 f.entry (soTag e.bytes) 0 fire) (bump 640 1 s))
  else .next (releasePrepare n entry fire (modSo entry (fun e => { e with prepared := true }) s))

/-! Class 0xC4. -/

/-- The bytes of a standing-order entry. -/
def soBytes (e : SoEntry) : List Byte := toLE 32 e.bytes.toNat

/-- R379: the entry of a payload: [1:0], below 1,024, with [3:2] zero. -/
def soIndexOk (b : List Byte) : Bool := le b 0 2 < 1024 && le b 2 2 == 0

/-- WRITE_STANDING_ORDER (R379). -/
def execWriteStandingOrder (p : MbxPort) (payload : List Byte) (s : State) : Res :=
  .next (yciRun 0xC400 (fun _ b s =>
    if !soIndexOk b then errAns rcInvalid s else ok (soWrite (le b 0 2) (BitVec.ofNat 256 (le b 4 32)) s)) p payload s)

/-- ARM_STANDING_ORDER (R379). -/
def execArmStandingOrder (p : MbxPort) (payload : List Byte) (s : State) : Res :=
  .next (yciRun 0xC401 (fun _ b s =>
    if !soIndexOk b then errAns rcInvalid s
    else
      let s := soArmOp (le b 0 2) s
      okOut (toLE 4 (soWord (soEnt s (le b 0 2)))) s) p payload s)

/-- DISARM_STANDING_ORDER (R379). -/
def execDisarmStandingOrder (p : MbxPort) (payload : List Byte) (s : State) : Res :=
  .next (yciRun 0xC402 (fun _ b s =>
    if !soIndexOk b then errAns rcInvalid s else ok (soDisarmOp (le b 0 2) s)) p payload s)

/-- READ_STANDING_ORDER (R379). -/
def execReadStandingOrder (p : MbxPort) (payload : List Byte) (s : State) : Res :=
  .next (yciRun 0xC403 (fun _ b s =>
    if !soIndexOk b then errAns rcInvalid s
    else okOut (toLE 4 (soWord (soEnt s (le b 0 2))) ++ soBytes (soEnt s (le b 0 2))) s) p payload s)

/-- R243: the STATE code of an escrow set. -/
def escCode : EscState → Nat
  | .free => 0 | .open_ => 1 | .closing => 2 | .closed => 3 | .preparing => 4 | .committed => 5 | .settling => 6

/-- R243: the word SO_ESC_SETn. -/
def escWord (x : Escrow) : Nat :=
  escCode x.state + 8 * b2n x.inherit + min 0x7FFF x.staged.length * 16 + x.key % 128 * 2 ^ 19

/-- R234: the members that a payload names. -/
def escExtents (b : List Byte) (n : Nat) : List Nat := (List.range n).flatMap fun k => extent b (8 + 8 * k)

/-- R234: a folio may be a member of a set with a key ID. -/
def memberOk (s : State) (key f : Nat) : Bool :=
  let e := ent s f
  e.state != .readOnly && e.state != .escrow && !e.sealed_ && (!provisioned e || e.key == key) && (setOf s f).isNone

/-- R233: members of all sets together, with those whose ATTR records wait. -/
def allMembers (s : State) : Nat := s.esc.sets.foldl (fun n e => n + (e.2.prior.filter fun x => x.2 != 0).length) 0

/-- R234: an accepted Create Escrow Set. -/
def createSet (p : MbxPort) (n key opts : Nat) (fs : List Nat) (s : State) : Ans :=
  let ctr := (fs.length + 63) / 64
  let x : Escrow := { (default : Escrow) with
    state := .open_, inherit := bit opts 0, key := key, reserved := fs.length + ctr,
    prior := fs.foldl (fun t f => tput 0 t f (stateCode (if provisioned (ent s f) then (ent s f).state else .blankMapped) + 1)) [] }
  let attrs (f : Nat) : Nat := if provisioned (ent s f) then attrBits (ent s f) else opts / 2 % 16
  let s := modSet n (fun _ => x) s
  let s := forEach (fs.filter fun f => !provisioned (ent s f)) (fun f s =>
    extentPut f (withAttrBits { entry0 with key := key, state := .blankMapped } (opts / 2 % 16)) s) s
  let a := bgRecords p 0xC404 (fs.map fun f => jAttr f key (attrs f) .escrow (ent s f).gen.toNat) (recordQueue recEscrow s)
  { a with st := modMbx p (fun m => { m with bg := m.bg.map fun b => { b with arg := n } }) a.st }

/-- R234: the body of Create Escrow Set. -/
def yCreateEscrowSet : Body := fun p b s =>
  let n := le b 0 1
  let key := le b 1 1
  let opts := le b 2 1
  let cnt := le b 3 1
  let fs := escExtents b cnt
  if 64 ≤ n || 32 ≤ opts || 16 < cnt || le b 4 4 != 0 || b.length != 8 + 8 * cnt then errAns rcInvalid s
  else if (escSet s n).state != .free then errAns rcBusy s
  else if !(List.range cnt).all (fun k => extentOk s b (8 + 8 * k)) || !fs.Nodup || !fs.all (memberOk s key) ||
      128 ≤ key || (domKey s key).isNone || domSealed s key || !headAllowed s key (headOf p) ||
      16384 < fs.length || 65536 < allMembers s + fs.length then errAns rcInvalid s
  else if reserveLeft s < floorF s + escReserved s + fs.length + (fs.length + 63) / 64 ||
      provisionable s < (fs.filter fun f => !provisioned (ent s f)).length then errAns rcCapacity s
  else createSet p n key opts fs s

/-- CREATE_ESCROW_SET (R234). -/
def execCreateEscrowSet (p : MbxPort) (payload : List Byte) (s : State) : Res :=
  .next (yciRun 0xC404 yCreateEscrowSet p payload s)

/-- R379: a set number in [0], with [3:1] zero. -/
def setIndexOk (b : List Byte) : Bool := le b 0 1 < 64 && le b 1 3 == 0

/-- R237: the body of Close Escrow Set. -/
def yCloseEscrowSet : Body := fun p b s =>
  let n := le b 0 1
  if !setIndexOk b || (escSet s n).state == .free then errAns rcInvalid s
  else if (escSet s n).state != .open_ || (escSet s n).abandon then errAns rcBusy s
  else
    let s := recordQueue recEscrow (modSet n (fun x => { x with state := .closing, items := 0 }) s)
    bgStart p 0xC405 n 0 (if (escSet s n).pendingWrites == 0 then closeCopy n s else s)

/-- CLOSE_ESCROW_SET (R237). -/
def execCloseEscrowSet (p : MbxPort) (payload : List Byte) (s : State) : Res :=
  .next (yciRun 0xC405 yCloseEscrowSet p payload s)

/-- R240: the body of Abandon Escrow Set. -/
def yAbandonEscrowSet : Body := fun p b s =>
  let n := le b 0 1
  let x := escSet s n
  if !setIndexOk b || x.state == .free then errAns rcInvalid s
  else if !(x.state == .open_ || x.state == .closing || x.state == .closed) || x.abandon then errAns rcBusy s
  else bgStart p 0xC406 n 0 (recordQueue recEscrow (abandonStart n s))

/-- ABANDON_ESCROW_SET (R240). -/
def execAbandonEscrowSet (p : MbxPort) (payload : List Byte) (s : State) : Res :=
  .next (yciRun 0xC406 yAbandonEscrowSet p payload s)

/-- GET_ESCROW_SET (R379). -/
def execGetEscrowSet (p : MbxPort) (payload : List Byte) (s : State) : Res :=
  .next (yciRun 0xC407 (fun _ b s =>
    let x := escSet s (le b 0 1)
    if !setIndexOk b then errAns rcInvalid s
    else okOut (toLE 4 (escWord x) ++ toLE 4 x.members.length ++ toLE 4 x.reserved ++ zeros 4) s) p payload s)

end Sys2Proof.Machine
end

