-- ==== Sys2Proof/Machine/Mover.lean ====
section
/-! DEFINITION. The mover: queue pairs and doorbells, descriptors and their checks, the opcodes that move lines,
ordering marks, reservations, completion entries, engine reinit and queue administration (R305-R333). The package
opcodes are in Machine/Package.lean. -/

namespace Sys2Proof.Machine

/-! Queues and engines. -/

/-- Update of a queue that exists. -/
def modQueue (q : Nat) (f : Queue → Queue) (s : State) : State :=
  match queueAt s q with
  | none => s
  | some x => s.modMov fun m => { m with queues := tput none m.queues q (some (f x)) }

/-- A mover engine at reset: in service, idle (R332). -/
def engine0 : Engine := { inService := true, reinit := false, fails := 0, progress := 0 }

/-- A mover engine. -/
def engineAt (s : State) (e : Nat) : Engine := tget engine0 s.mov.engines e

/-- Update of an engine. -/
def modEngine (e : Nat) (f : Engine → Engine) (s : State) : State :=
  s.modMov fun m => { m with engines := tmod engine0 m.engines e f }

/-- The queues that exist, with their numbers. -/
def queueList (s : State) : List (Nat × Queue) := s.mov.queues.filterMap fun e => e.2.map fun x => (e.1, x)

/-- Queues bound to an engine. -/
def engineQueues (s : State) (e : Nat) : Nat := ((queueList s).filter fun x => x.2.engine == e).length

/-- Descriptors in flight on an engine (R306). -/
def engineFlight (s : State) (e : Nat) : Nat :=
  ((queueList s).filter fun x => x.2.engine == e).foldl (fun n x => n + x.2.descs.length) 0

/-- R306, R327: the engine in service with the fewest queues, the lowest numbered among equals. -/
def engineFewest (s : State) : Option Nat :=
  let es := (List.range 8).filter fun e => (engineAt s e).inService && !(engineAt s e).reinit
  es.foldl (fun b e => match b with
    | none => some e
    | some x => if engineQueues s e < engineQueues s x then some e else b) none

/-- The engine of a queue serves it: in service, not being reinitialised, not stopped (R210, R326). -/
def engineServes (s : State) (x : Queue) : Bool :=
  (engineAt s x.engine).inService && !(engineAt s x.engine).reinit && !s.mov.stopped

/-- A queue is deleted: its descriptors, reservations and chunks go with it (R317, R329). -/
def queueDelete (q : Nat) (s : State) : State :=
  s.modMov fun m => { m with queues := tput none m.queues q none, resv := m.resv.filter fun r => r.q != q,
                             chunks := m.chunks.filter fun c => c.q != q }

/-- Delete the queues that a predicate picks; no further entry is written (R329). -/
def queuesDelete (p : Queue → Bool) (s : State) : State :=
  forEach (((queueList s).filter fun x => p x.2).map (·.1)) queueDelete s

/-! Descriptors (R311, R312). -/

/-- n bytes of a descriptor from byte off. -/
def Desc.get (d : Desc) (off n : Nat) : Nat := bits d.raw.toNat (8 * off) (8 * n)
/-- OPCODE. -/
def Desc.op (d : Desc) : Nat := d.get 0 1
/-- FLAGS. -/
def Desc.flags (d : Desc) : Nat := d.get 1 1
/-- The descriptor carries ACQUIRE; FENCE always does (R322). -/
def Desc.acquire (d : Desc) : Bool := bit d.flags 0 || d.op == 0x0A
/-- The descriptor carries RELEASE; FENCE always does (R322). -/
def Desc.release (d : Desc) : Bool := bit d.flags 1 || d.op == 0x0A
/-- SRC_HOST. -/
def Desc.srcHost (d : Desc) : Bool := bit (d.get 4 1) 7
/-- DST_HOST. -/
def Desc.dstHost (d : Desc) : Bool := bit (d.get 5 1) 7
/-- Source key ID. -/
def Desc.srcKey (d : Desc) : Nat := d.get 4 1 % 128
/-- Destination key ID. -/
def Desc.dstKey (d : Desc) : Nat := d.get 5 1 % 128
/-- The set named as destination (SIDE = 0), if any. -/
def Desc.dstSet (d : Desc) : Option Nat := if bit (d.get 6 1) 7 && !bit (d.get 6 1) 6 then some (d.get 6 1 % 64) else none
/-- The set named as source (SIDE = 1), if any. -/
def Desc.srcSet (d : Desc) : Option Nat := if bit (d.get 6 1) 7 && bit (d.get 6 1) 6 then some (d.get 6 1 % 64) else none
/-- SRC. -/
def Desc.src (d : Desc) : Nat := d.get 8 8
/-- DST. -/
def Desc.dst (d : Desc) : Nat := d.get 16 8
/-- LENGTH. -/
def Desc.len (d : Desc) : Nat := d.get 24 4

/-- The opcode uses a source side, and a destination side (R313). -/
def usesSrc (op : Nat) : Bool := op == 1 || (4 ≤ op && op ≤ 8)
/-- The opcode uses a destination side (R313). -/
def usesDst (op : Nat) : Bool := (1 ≤ op && op ≤ 5) || op == 9
/-- The opcode uses LENGTH (R313). -/
def usesLen (op : Nat) : Bool := op ≤ 3 || (5 ≤ op && op ≤ 7)
/-- The source is in device memory. -/
def Desc.srcDev (d : Desc) : Bool := usesSrc d.op && !d.srcHost
/-- The destination is in device memory. -/
def Desc.dstDev (d : Desc) : Bool := usesDst d.op && !d.dstHost
/-- Bytes of a device range. -/
def Desc.span (d : Desc) : Nat := if d.op == 8 || d.op == 9 then 8 else d.len

/-- An address of a device side is aligned and in range (R311, R312). -/
def devAddrBad (d : Desc) (a : Nat) : Bool := 2 ^ 45 ≤ a || a % (if d.op == 8 || d.op == 9 then 8 else 64) != 0

/-- R312: two device ranges of a descriptor overlap. -/
def rangesOverlap (d : Desc) : Bool :=
  d.op == 1 && d.srcDev && d.dstDev && d.src < d.dst + d.len && d.dst < d.src + d.len

/-- R312, R313: the faults of the ARG field, by byte offset. -/
def argFaults (d : Desc) : List (Bool × Nat) :=
  match d.op with
  | 2 => [(d.get 40 24 != 0, 40)]
  | 9 => [(d.get 40 24 != 0, 40)]
  | 4 => [(64 ≤ d.get 36 1, 36), (d.get 37 3 != 0, 37), (d.get 48 16 != 0, 48)]
  | 5 => [(64 ≤ d.get 36 1, 36), (2 ≤ d.get 37 1, 37), (d.get 38 2 != 0, 38), (d.get 48 16 != 0, 48)]
  | _ => [(d.get 32 32 != 0, 32)]

/-- R312, R315: the faults of a descriptor's fields, by byte offset, lowest first. -/
def fieldFaults (d : Desc) : List (Bool × Nat) :=
  let op := d.op
  let line := op == 5 || d.srcSet.isSome
  ([(decide (8 ≤ d.flags), 1),
   (if usesSrc op then (op == 4 && !d.srcHost) || (5 ≤ op && d.srcHost) || (d.srcHost && d.srcKey != 0) else d.get 4 1 != 0, 4),
   (if usesDst op then (op == 5 && !d.dstHost) || (op != 1 && op != 5 && d.dstHost) || (d.dstHost && d.dstKey != 0) ||
      (op == 1 && d.srcHost && d.dstHost) else d.get 5 1 != 0, 5),
   (if bit (d.get 6 1) 7 then
      (if bit (d.get 6 1) 6 then !((op == 1 || op == 5) && d.srcDev) else !(op ≤ 4 && d.dstDev)) else d.get 6 1 != 0, 6),
   (d.get 7 1 != 0, 7),
   (if usesSrc op then (if d.srcHost then d.src % 64 != 0 else devAddrBad d d.src || (line && d.src % 256 != 0 && op == 5))
    else d.src != 0, 8),
   (if usesDst op then (if d.dstHost then d.dst % 64 != 0 else devAddrBad d d.dst || rangesOverlap d ||
      ((d.dstSet.isSome || op == 4) && d.dst % 256 != 0)) else d.dst != 0, 16),
   (if usesLen op then d.len % 64 != 0 || 2 ^ 30 < d.len || (op == 5 && (2 ^ 20 < d.len || d.len % 256 != 0)) ||
      (d.dstSet.isSome && d.len % 256 != 0) || (d.srcDev && 2 ^ 45 < d.src + d.len) || (d.dstDev && 2 ^ 45 < d.dst + d.len)
    else d.len != 0, 24),
   (d.get 28 4 != 0, 28)] : List (Bool × Nat)) ++ argFaults d

/-- R318: the byte offset of the first faulty field. -/
def fieldFault (d : Desc) : Option Nat := ((fieldFaults d).find? (·.1)).map (·.2)

/-- R320, R252: the first key ID that a descriptor may not name. An IMPORT's grant is checked with its header (R291). -/
def grantFault (s : State) (x : Queue) (d : Desc) : Option Nat :=
  let may (k : Nat) : Bool := x.grants.getLsbD k && (policyFlags s k).getLsbD 3
  let cross := d.op == 1 && d.srcDev && d.dstDev && d.srcKey != d.dstKey
  if d.srcDev && !may d.srcKey then some d.srcKey
  else if cross && !(policyFlags s d.srcKey).getLsbD 4 then some d.srcKey
  else if d.op == 5 && !(policyFlags s d.srcKey).getLsbD 5 then some d.srcKey
  else if d.dstDev && !(if d.op == 4 then (policyFlags s d.dstKey).getLsbD 3 else may d.dstKey) then some d.dstKey
  else none

/-- The host folios of a device range. -/
def rangeFolios (a n : Nat) : List Nat :=
  if n == 0 then [] else (List.range ((a + n - 1) / 2 ^ 21 + 1 - a / 2 ^ 21)).map (· + a / 2 ^ 21)

/-- R315: a set is open, and the folios of a range are its members. -/
def setCovers (s : State) (n a len : Nat) : Bool :=
  (escSet s n).state == .open_ && !(escSet s n).abandon && (rangeFolios a len).all (escSet s n).members.contains

/-- R315: the set for which a descriptor is refused. -/
def escrowFault (s : State) (d : Desc) : Option Nat :=
  match d.dstSet, d.srcSet with
  | some n, _ => if d.op == 4 || setCovers s n d.dst d.len then none else some n
  | none, some n => if setCovers s n d.src d.len then none else some n
  | none, none => none

/-- The first folio of a range that fails R248; an unprovisioned folio does not (R43). -/
def rangeAccess (s : State) (key a len : Nat) : Option (AccessFail × Nat) :=
  (rangeFolios a len).findSome? fun f =>
    let e := ent s f
    if provisioned e then (accessCheck s key none e).map fun x => (x, max a (f * 2 ^ 21)) else none

/-- R319: the first failure of R248 of a descriptor's device ranges: the failure, the DPA, the key ID, a write. -/
def accessFailOf (s : State) (d : Desc) : Option (AccessFail × Nat × Nat × Bool) :=
  let src := if d.srcDev then rangeAccess s d.srcKey d.src d.span else none
  let dst := if d.dstDev && d.op != 4 then rangeAccess s d.dstKey d.dst d.span else none
  match src, dst with
  | some x, _ => some (x.1, x.2, d.srcKey, false)
  | none, some x => some (x.1, x.2, d.dstKey, true)
  | none, none => none

/-! The life of a descriptor. -/

/-- Update of the first element that a predicate picks. -/
def updFirst {α : Type} (p : α → Bool) (f : α → α) : List α → List α
  | [] => []
  | a :: r => if p a then f a :: r else a :: updFirst p f r

/-- The oldest descriptor at a ring index whose work goes on. -/
def isWork (idx : Nat) (d : Desc) : Bool := d.idx == idx && d.stage != .done

/-- Update of that descriptor. -/
def modDesc (q idx : Nat) (f : Desc → Desc) (s : State) : State :=
  modQueue q (fun x => { x with descs := updFirst (isWork idx) f x.descs }) s

/-- The descriptor at a ring index whose work goes on. -/
def workOf (s : State) (q idx : Nat) : Option Desc := (queueAt s q).bind fun x => x.descs.find? (isWork idx)

/-- R326: a descriptor of a queue made progress: its engine is alive. -/
def progressNote (q : Nat) (s : State) : State :=
  match queueAt s q with
  | none => s
  | some x => modEngine x.engine (fun e => { e with progress := s.clock }) s

/-- A descriptor's work ends: its completion entry may follow (R317). -/
def descEnd (q idx status detail : Nat) (result : Nat) (s : State) : State :=
  modDesc q idx (fun d => { d with stage := .done, status := status, detail := detail, result := BitVec.ofNat 64 result })
    (progressNote q s)

/-- R322: every access of a descriptor has completed: reads returned, writes merged. -/
def accessesDone (d : Desc) : Bool := d.stage == .done && !d.waits.any (fun w => w % 4 == 2)

/-- What a descriptor waits for has happened; a prefetched line is filled, skipped or dropped (R314). -/
def waitMet (s : State) (w : Nat) : Bool :=
  w % 4 == 3 && !(s.pur.prefetchQ.any fun e => e.2 == w / 4) && !(s.med.ops.any fun o => o.purpose == .prefetch (w / 4))

/-- R54: a descriptor meets its completion condition. -/
def condition54 (s : State) (d : Desc) : Bool := d.stage == .done && d.waits.all (waitMet s)

/-- R322, R306: the marks let a descriptor run: every earlier ACQUIRE is met, and its RELEASE waits for all before. -/
def marksMet (s : State) (x : Queue) (d : Desc) : Bool :=
  let before := x.descs.takeWhile (· != d)
  (before.all fun e => !e.acquire || accessesDone e) && (!d.release || before.all (condition54 s))

/-- R306: a queue has a descriptor that may start. -/
def startable (s : State) (x : Queue) : Bool := x.descs.any fun d => d.stage == .fetched && marksMet s x d

/-- R306: the queue of engine e that starts the next descriptor: the one in turn while it has starts left and a descriptor to
start, else the next such queue in number, and from the lowest again (DESIGN CHOICE on the order, log entry 88). -/
def turnQueue (s : State) (e : Nat) : Option Nat :=
  let g := engineAt s e
  let qs := ((queueList s).filter fun x => x.2.engine == e && startable s x.2).map (·.1)
  if 0 < g.turn && 0 < g.turnLeft && qs.contains (g.turn - 1) then some (g.turn - 1)
  else (qs.filter fun q => g.turn ≤ q).min? <|> qs.min?

/-- R306: a queue takes one of the 1, 2, 4 or 8 starts of its turn. -/
def turnTake (q : Nat) (x : Queue) (s : State) : State :=
  modEngine x.engine (fun g =>
    if g.turn == q + 1 && 0 < g.turnLeft then { g with turnLeft := g.turnLeft - 1 }
    else { g with turn := q + 1, turnLeft := 2 ^ x.prio - 1 }) s

/-- R319: the prefix of a descriptor in bytes. -/
def Desc.prefixBytes (d : Desc) : Nat := 64 * d.done

/-- A started descriptor is stopped by a later change: DOMAIN_CHANGED, with the prefix (R319), its DETAIL and what the refusal leaves
(R249); an IMPORT as R294 gives. -/
def changedNow (x : Queue) (d : Desc) (s : State) : Option (Nat × State) :=
  if d.op == 4 then none
  else
  match accessFailOf s d with
  | some f => some (f.1.syndrome, accessFault f.1 f.2.1 f.2.2.1 f.2.2.2 none s)
  | none => if (grantFault s x d).isSome then some (0xB, s) else (escrowFault s d).map fun n => (n, s)

/-- R319: the checks of a descriptor at its start: its status, its detail and what the refusal leaves. -/
def startCheck (x : Queue) (d : Desc) (s : State) : Option (Nat × Nat × State) :=
  match fieldFault d with
  | some o => some (0x02, o, s)
  | none =>
    match grantFault s x d with
    | some k => some (0x03, k, s)
    | none =>
      match escrowFault s d with
      | some n => some (0x06, n, s)
      | none => (accessFailOf s d).map fun f => (0x04, f.1.syndrome, accessFault f.1 f.2.1 f.2.2.1 f.2.2.2 none s)

/-- A command that carries on a descriptor of an opcode: the queue and the descriptor, started and checked, or the state
in which the command ends: the descriptor may not run yet, or it has failed a check. -/
def descRun (q idx op : Nat) (s : State) : Except State (Queue × Desc × State) :=
  match queueAt s q, workOf s q idx with
  | some x, some d =>
    if d.op != op || !engineServes s x || !marksMet s x d then .error s
    else
      if d.stage == .started then
        match changedNow x d s with
        | some (det, s) => .error (descEnd q idx 0x0C det d.prefixBytes s)
        | none => .ok (x, d, s)
      else if turnQueue s x.engine != some q then .error s
      else
        match startCheck x d (turnTake q x s) with
        | some (st, det, s) => .error (descEnd q idx st det 0 s)
        | none =>
          let s := turnTake q x s
          .ok (x, d, modDesc q idx (fun d => { d with stage := .started, startGen := x.qgen.toNat }) (progressNote q s))
  | _, _ => .error s

/-! Reads and writes of device memory (R12, R50, R252, R322). -/

/-- A host transaction of a line that has not been merged stands before a mover access (R50). -/
def lineBusy (s : State) (l : Nat) : Bool := s.fe.txns.any fun t => t.lineNo == l && !t.wait.merged

/-- R59: the snoops that a mover access to sectors of a line needs; true where it must wait for them. -/
def moverSnoops (own : Bool) (l : Nat) : List Nat → State → Bool × State
  | [], s => (false, s)
  | i :: r, s =>
    let (w, s) := snoopNeed none own false (4 * l + i) s
    let (w', s) := moverSnoops own l r s
    (w || w', s)

/-- R413: forward a mover access of a sector to the correspondent; its number. -/
def moverForward (write : Bool) (key sector : Nat) (d : Sector) (s : State) : Nat × State :=
  let n := s.pair.fwdNext
  let f : Fwd := { id := n, mover := true, head := .a, tag := 0, write := write, sector := sector, key := key, data := d,
                   enables := BitVec.allOnes 64 }
  (n, send (.pairPkt (if write then 4 else 3) n d)
    (bump 70 1 (s.modPair fun p => { p with fwds := p.fwds ++ [f], fwdNext := n + 1 })))

/-- R413: the answers to forwarded reads of sectors are here; those that are missing are asked for. -/
def forwardReady (key l : Nat) : List Nat → State → Bool × State
  | [], s => (true, s)
  | i :: r, s =>
    let here := s.mov.fwdData.any fun e => e.1 == 4 * l + i
    let asked := s.pair.fwds.any fun f => f.mover && !f.write && f.sector == 4 * l + i
    let s := if here || asked then s else (moverForward false key (4 * l + i) 0 s).2
    let (b, s) := forwardReady key l r s
    (here && b, s)

/-- R15, R99, R122: the sectors of a line can be read now; what they wait for is asked for, a media read through the slots of its
channel among it. -/
def readReady (key l : Nat) (secs : List Nat) (s : State) : Bool × State :=
  if !provisioned (ent s (folioOf l)) then (true, s)
  else if mustForward s l then forwardReady key l secs s
  else if slotScanning s l || lineBusy s l then (false, s)
  else
    match slotCheck l s with
    | (some _, s) => (false, s)
    | (none, s) =>
      let (w, s) := moverSnoops false l secs s
      if w then (false, s) else takeReady .mover false l s

/-- The histogram classes of a mover read of a line: a hit, or those of the media read that brought it (R438). -/
def moverClasses (s : State) (l : Nat) : List Nat :=
  (if (cachedLine s l).isSome then [1] else (takenOf s .mover l).elim [] (·.classes)) ++
    (if (ent s (folioOf l)).sealed_ then [5] else [])

/-- R437, R438: a mover read of a line is counted with a latency that is free. -/
def moverReadCount (key : Nat) (cls : List Nat) (s : State) : State :=
  let (t, s) := takeFree 32 s
  histRead t.toNat ([0] ++ cls) 3 key s

/-- R413: take the answer to a forwarded read of a sector. -/
def forwardTake (l i : Nat) (s : State) : Except Nat Sector × State :=
  let r := ((s.mov.fwdData.find? fun e => e.1 == 4 * l + i).map (·.2)).join
  (match r with | some d => .ok d | none => .error 0,
   s.modMov fun m => { m with fwdData := m.fwdData.filter fun e => e.1 != 4 * l + i })

/-- The answers to forwarded reads of a line's sectors. -/
def forwardTakes (l : Nat) : List Nat → State → List (Except Nat Sector) × State
  | [], s => ([], s)
  | i :: r, s =>
    let (x, s) := forwardTake l i s
    let (xs, s) := forwardTakes l r s
    (x :: xs, s)

/-- R43, R128, R314: a mover read of sectors of a line that can be read now. -/
def moverRead (key l : Nat) (secs : List Nat) (s : State) : List (Except Nat Sector) × State :=
  if !provisioned (ent s (folioOf l)) then
    (secs.map fun _ => .error 0, raiseMs 5 5 0x02 (det1 (l * 256) key 0 0) s)
  else if mustForward s l then forwardTakes l secs s
  else
    let cls := moverClasses s l
    let (b, s) := takeBase .mover l (countHostRead (folioOf l) s)
    let s := moverReadCount key cls s
    let out := secs.map (readSector b)
    match (secs.find? fun i => match readSector b i with | .error _ => true | .ok _ => false) with
    | some i => (out, if b.syn == 0 then s else poisonReturn l i b.syn key none s)
    | none => (out, s)

/-- R282, R43, R186: a write to a line is discarded. -/
def writeLost (s : State) (l : Nat) : Bool :=
  !provisioned (ent s (folioOf l)) || treeDiscards l s || overdraftRefuses s l

/-- R65, R200, R274, R402, R59, R15: a mover write to sectors of a line can be made now; what it waits for is asked for, among it the
media read of a line that it writes in part. -/
def writeReady (l : Nat) (secs : List Nat) (s : State) : Bool × State :=
  if mustForward s l || writeLost s l then (true, s)
  else if slotScanning s l || lineBusy s l || s.cry.recoins.contains (blockOf l) then (false, s)
  else if minorSpent s l then (false, recoinStart (blockOf l) s)
  else if (mustMeter s l || !s.pur.waitQ.isEmpty) && !inTill s l then (false, s)
  else if !canPlace s l || !mirrorRoom s then (false, s)
  else
    match slotCheck l s with
    | (some _, s) => (false, s)
    | (none, s) =>
      let (w, s) := moverSnoops true l secs s
      if w then (false, s) else if secs.length == 4 then (true, s) else takeReady .mover true l s

/-- R282, R43, R187: what a discarded write leaves. -/
def discardNote (l key : Nat) (s : State) : State :=
  if !provisioned (ent s (folioOf l)) then raise 5 5 0x01 (det1 (l * 256) key 0 0) s
  else if treeDiscards l s then rinc s 0x300054 1
  else writeDiscarded (l * 256) key s

/-- R49: poison of a line that a whole-line write supersedes is kept, fully rewritten, until its drain. -/
def poisonKept (s : State) (l : Nat) : Bool :=
  ((cachedLine s l).elim false (·.poison)) || s.integ.poisonList.any fun e => e.1 == l

/-- R44, R202: a whole line is written, or claimed; false where it is discarded. -/
def writeWhole (q : Nat) (key l : Nat) (d : Line) (poison claim : Bool) (s : State) : Bool × State :=
  let keep := !poison && poisonKept s l
  match encLine l d s with
  | (none, s) => (false, s)
  | (some (ct, hm), s) =>
    let p : PLine := { data := ct, hallmark := hm, poison := poison || (keep && !claim),
                       rewritten := if keep && !claim then 0xF else 0 }
    let s := sliceCount l (if claim then 6 else 2) (placeDirty l p s)
    let s := if claim && keep then poisonListDrop l s else s
    let s := resvWrite (some q) l (toOverdraft l s)
    (true, if poison then s else forEach [0, 1, 2, 3] (fun i s => mirrorHook l i key (lineSector d i) s) s)

/-- R314: sectors of a line are merged as host partial writes are; false where the line is discarded. -/
def writePart (q key l : Nat) (en : BitVec 64) (poison : Bool) : List (Nat × Sector) → State → Bool × State
  | [], s => (true, s)
  | (i, d) :: r, s =>
    let (b, s) := takeBase .mover l s
    let (ok, s) := writeBy (some q) l key b { sector := i, data := d, en := en, poison := poison } true s
    if ok then writePart q key l en poison r s else (false, s)

/-- R413: sectors of a line written through the correspondent; the numbers awaited. -/
def forwardWrites (key l : Nat) : List (Nat × Sector) → State → List Nat × State
  | [], s => ([], s)
  | (i, d) :: r, s =>
    let (n, s) := moverForward true key (4 * l + i) d s
    let (ns, s) := forwardWrites key l r s
    (waitFwd n :: ns, s)

/-- The line of four sectors. -/
def joinLine (xs : List (Nat × Sector)) : Line := xs.foldl (fun l x => setSector l x.1 x.2) 0

/-- A mover write of sectors of a line that can be made now: what the descriptor then waits for, or none where the line
is discarded (R54, R318). -/
def moverWrite (q key l : Nat) (xs : List (Nat × Sector)) (poison claim : Bool) (s : State) : Option (List Nat) × State :=
  if mustForward s l then
    let (ns, s) := forwardWrites key l xs s
    (some ns, s)
  else if writeLost s l then (none, discardNote l key s)
  else
    let s := ringSnoop ((queueAt s q).map (·.engine)) true l s
    let (ok, s) := if xs.length == 4 then writeWhole q key l (joinLine xs) poison claim s
      else writePart q key l (BitVec.allOnes 64) poison xs s
    if !ok then (none, s)
    else (some (if lateWaits s l then [waitLine l] else []), s)

/-! Segments: the part of a descriptor within one line of its destination, or of its source. -/

/-- Units of 64 bytes from unit `done` of a range at `a` to the end of its line or of the range. -/
def segUnits (a len done : Nat) : Nat := min (4 - (a / 64 + done) % 4) (len / 64 - done)

/-- The sectors of unit k to k + n of a device range: line and sector. -/
def unitSectors (a k n : Nat) : List (Nat × Nat) := (List.range n).map fun i => ((a / 64 + k + i) / 4, (a / 64 + k + i) % 4)

/-- The lines of sectors, in order, with their sectors. -/
def byLine (us : List (Nat × Nat)) : List (Nat × List Nat) :=
  (us.map (·.1)).dedup.map fun l => (l, (us.filter fun u => u.1 == l).map (·.2))

/-- R236: a staging write to the line is queued, so that a staged read is ordered after it (R50). -/
def stagePending (s : State) (n l : Nat) : Bool :=
  s.med.ops.any fun o => match o.purpose with
    | .staging m f off _ _ => m == n && f * 8192 + off == l
    | _ => false

/-- The lines of a source can be read now; a staged line, and one that the set has not staged without INHERIT, waits for no line in
force (R236). -/
def srcReady (set : Option Nat) (key : Nat) : List (Nat × List Nat) → State → Bool × State
  | [], s => (true, s)
  | (l, secs) :: r, s =>
    let own := set.any fun n => tget false (escSet s n).stagedLines l || !(escSet s n).inherit
    let (a, s) := if set.any fun n => stagePending s n l then (false, s) else if own then (true, s) else readReady key l secs s
    let (b, s) := srcReady set key r s
    (a && b, s)

/-- R236: a read of staged contents: the staged line; else zeros, or the contents in force under INHERIT. -/
def stagedRead (n key l : Nat) (secs : List Nat) (s : State) : List (Except Nat Sector) × State :=
  if tget false (escSet s n).stagedLines l then
    match stagedPlain n l s with
    | some d => (secs.map fun i => .ok (lineSector d i), s)
    | none => (secs.map fun _ => .error 0x6, s)
  else if (escSet s n).inherit then moverRead key l secs s
  else (secs.map fun _ => .ok 0, s)

/-- The sectors of a source. -/
def srcRead (set : Option Nat) (key : Nat) : List (Nat × List Nat) → State → List (Except Nat Sector) × State
  | [], s => ([], s)
  | (l, secs) :: r, s =>
    let (xs, s) := match set with
      | some n => stagedRead n key l secs s
      | none => moverRead key l secs s
    let (ys, s) := srcRead set key r s
    (xs ++ ys, s)

/-- A sector that was read, zero where it was poisoned. -/
def secOr0 : Except Nat Sector → Sector
  | .ok d => d
  | .error _ => 0

/-- A sector read as poisoned. -/
def secPoison : Except Nat Sector → Bool
  | .ok _ => false
  | .error _ => true

/-- R432: counter k of the engine of a queue counts n. -/
def engineCount (q k n : Nat) (s : State) : State :=
  match queueAt s q with
  | none => s
  | some x => bump (576 + 8 * x.engine + k) n s

/-- R12, R13: the lines that a queue's engine reads are snooped for and enter its staging cache. -/
def stageLines (q : Nat) (src : List (Nat × List Nat)) (s : State) : State :=
  match queueAt s q with
  | none => s
  | some x => forEach src (fun e s => stageCopy x.engine e.1 (ringSnoop (some x.engine) false e.1 s)) s

/-- R432, R439: a queue's device lines written. -/
def linesWritten (q : Nat) (s : State) : State :=
  engineCount q 2 1 (modQueue q (fun x => { x with cntLines := x.cntLines + 1 }) s)

/-- R321: the PASID of a queue's host-memory requests, none where PASID_VALID was not set at creation. -/
def queuePasid (x : Queue) : Option (BitVec 20) := if x.pasidValid then some x.pasid else none

/-- R321: a queue's read of its source in host memory, which the command's data answers. -/
def hostFetch (q addr n : Nat) (s : State) : State :=
  match queueAt s q with
  | some x => send (.hostRead x.head (queuePasid x) (BitVec.ofNat 64 addr) n) s
  | none => s

/-- R432, R439: a queue's host data, in 64-byte units. -/
def hostMoved (q n : Nat) (s : State) : State :=
  engineCount q 3 n (modQueue q (fun x => { x with cntHost := x.cntHost + BitVec.ofNat 64 n }) s)

/-- A descriptor advances by n units, with lines copied poisoned and discarded, and waits for more. -/
def descStep (q idx n poisoned discarded : Nat) (waits : List Nat) (s : State) : State :=
  modDesc q idx (fun d =>
    { d with done := d.done + n, poisoned := d.poisoned + poisoned, discarded := d.discarded + discarded,
             waits := d.waits ++ (waits.filter fun w => !d.waits.contains w) }) (progressNote q s)

/-- R54, R318, R531: a segment of data goes to its device line: units done, 0 where it must wait; the descriptor ends
where a staging write finds no reserve folio. -/
def segWrite (q idx : Nat) (d : Desc) (n : Nat) (xs : List Sector) (poison claim : Bool) (s : State) : Nat × State :=
  let us := unitSectors d.dst d.done n
  let l := (d.dst / 64 + d.done) / 4
  let data := (us.map (·.2)).zip xs
  match d.dstSet with
  | some e =>
    let op := s.med.nextOp
    match stageWrite e l q idx (joinLine data) poison s with
    | (true, s) => (n, linesWritten q (descStep q idx n (b2n poison) 0 [waitOp op] s))
    | (false, s) => (0, descEnd q idx 0x06 e d.prefixBytes s)
  | none =>
    match moverWrite q d.dstKey l data poison claim s with
    | (some ws, s) => (n, linesWritten q (descStep q idx n (b2n poison) 0 ws s))
    | (none, s) => (n, descStep q idx n 0 1 [] s)

/-- The line of a segment of a device destination can be written now. -/
def dstReady (d : Desc) (n : Nat) (s : State) : Bool × State :=
  if d.dstSet.isSome then (true, s)
  else writeReady ((d.dst / 64 + d.done) / 4) ((unitSectors d.dst d.done n).map (·.2)) s

/-- R314 COPY: one segment; `host` is what the host memory holds from the next unit on. -/
def copySeg (q idx left : Nat) (host : List Sector) (s : State) : Nat × State :=
  match workOf s q idx with
  | none => (0, s)
  | some d =>
    let n := segUnits (if d.dstDev then d.dst else d.src) d.len d.done
    if left < n || n == 0 || (d.srcHost && host.length < n) then (0, s)
    else
      let src := byLine (unitSectors d.src d.done n)
      let (r, s) := if d.srcHost then (true, s) else srcReady d.srcSet d.srcKey src s
      let (w, s) := if d.dstDev then dstReady d n s else (true, s)
      if !(r && w) then (0, s)
      else
        let (xs, s) := if d.srcHost then ((host.take n).map Except.ok, hostFetch q (d.src + 64 * d.done) (64 * n) s)
          else srcRead d.srcSet d.srcKey src (stageLines q src (engineCount q 1 src.length s))
        let bad := xs.any secPoison
        let s := if d.srcHost || d.dstHost then hostMoved q n s else s
        if d.dstDev then segWrite q idx d n (xs.map secOr0) bad false s
        else
          let h := ((queueAt s q).map (·.head)).getD .a
          let p := (queueAt s q).bind queuePasid
          let bytes := (xs.map fun x => toLE 64 (secOr0 x).toNat).flatten
          (n, descStep q idx n (b2n bad) 0 [] (send (.hostWrite h p (BitVec.ofNat 64 (d.dst + 64 * d.done)) bytes bad) s))

/-- R314 FILL: one segment; ZERO: whole lines are claimed (R202). -/
def fillSeg (q idx left : Nat) (_ : List Sector) (s : State) : Nat × State :=
  match workOf s q idx with
  | none => (0, s)
  | some d =>
    let n := segUnits d.dst d.len d.done
    if left < n || n == 0 then (0, s)
    else
      let (w, s) := dstReady d n s
      if !w then (0, s)
      else
        let pat := if d.op == 2 then d.get 32 8 else 0
        let sec : Sector := BitVec.ofNat 512 ((List.range 8).foldl (fun a i => a + pat * 2 ^ (64 * i)) 0)
        segWrite q idx d n (List.replicate n sec) false (d.op == 3) s

/-- R232, R314 PREFETCH: one line. -/
def prefetchSeg (q idx left : Nat) (_ : List Sector) (s : State) : Nat × State :=
  match workOf s q idx with
  | none => (0, s)
  | some d =>
    let n := segUnits d.src d.len d.done
    if left < n || n == 0 then (0, s)
    else
      let l := (d.src / 64 + d.done) / 4
      let (ok, s) := if provisioned (ent s (folioOf l)) then prefetchQueue l s else (true, s)
      (n, descStep q idx n 0 (b2n !ok) (if ok then [waitPrefetch l] else []) s)

/-- Segments in ascending address order (R319), until one must wait or the units are used. -/
def runSegs (seg : Nat → List Sector → State → Nat × State) : Nat → Nat → List Sector → State → State
  | 0, _, _, s => s
  | fuel + 1, left, host, s =>
    let (n, s) := seg left host s
    if n == 0 then s else runSegs seg fuel (left - n) (host.drop n) s

/-- A descriptor whose last unit is done ends with the status and RESULT of R313 and R318. -/
def rangeEnd (q idx : Nat) (s : State) : State :=
  match workOf s q idx with
  | none => s
  | some d =>
    if d.done < d.len / 64 then s
    else if d.op == 6 then
      descEnd q idx 0 0 (d.discarded * 2 ^ 32)
        (if d.discarded == 0 then s else raise 7 1 0x04 (det3 q d.discarded) s)
    else if d.discarded != 0 then descEnd q idx 0x0A 0 (d.len + d.discarded * 2 ^ 32) s
    else descEnd q idx (if d.poisoned == 0 then 0 else 0x09) 0 (d.len + d.poisoned * 2 ^ 32) s

/-- A command that moves up to `units` units of a descriptor. -/
def moveRun (op q idx units : Nat) (host : List Sector) (seg : Nat → Nat → Nat → List Sector → State → Nat × State)
    (s : State) : State :=
  match descRun q idx op s with
  | .error s => s
  | .ok (_, _, s) => rangeEnd q idx (runSegs (seg q idx) (units + 1) units host s)

/-- COPY (R314). -/
def execCopy (q idx units : Nat) (hostData : List Sector) (s : State) : Res :=
  .next (moveRun 1 q idx units hostData copySeg s)

/-- FILL (R314). -/
def execFill (q idx units : Nat) (s : State) : Res := .next (moveRun 2 q idx units [] fillSeg s)

/-- ZERO (R314, R202). -/
def execZero (q idx units : Nat) (s : State) : Res := .next (moveRun 3 q idx units [] fillSeg s)

/-- PREFETCH (R314, R232). -/
def execPrefetch (q idx units : Nat) (s : State) : Res := .next (moveRun 6 q idx units [] prefetchSeg s)

/-- CLEAN (R314): what the range's dirty lines wait for: their drain, or the media write that has been issued. -/
def cleanWaits (s : State) (a len : Nat) : List Nat :=
  let within (l : Nat) : Bool := a < l * 256 + 256 && l * 256 < a + len
  let code (l : Nat) (draining : Bool) : List Nat :=
    if draining then (s.med.ops.filter fun o => o.purpose == .drain l).map fun o => waitOp o.id else [waitLine l]
  let evb := (s.pur.evb.filter fun x => within x.lineNo).flatMap fun x => code x.lineNo x.draining
  let slots := s.pur.slots.flatMap fun e =>
    let l := e.2.quot * purseSlots s + e.1
    if e.2.valid && e.2.dirty && within l then code l e.2.draining else []
  let spilt := s.led.overdraft.filterMap fun (x : Nat × PLine) => if within x.1 then some (waitLine x.1) else none
  (evb ++ slots ++ spilt).dedup

/-- CLEAN (R314). -/
def execClean (q idx : Nat) (s : State) : Res :=
  match descRun q idx 7 s with
  | .error s => .next s
  | .ok (_, d, s) =>
    let ws := if d.len == 0 then [] else cleanWaits s d.src d.len
    .next (descEnd q idx 0 0 d.len (modDesc q idx (fun d => { d with waits := ws }) s))

/-- FENCE (R314). -/
def execFence (q idx : Nat) (s : State) : Res :=
  match descRun q idx 0x0A s with
  | .error s => .next s
  | .ok (_, _, s) => .next (descEnd q idx 0 0 0 s)

/-- TIMESTAMP (R314). -/
def execTimestamp (q idx : Nat) (s : State) : Res :=
  match descRun q idx 0x0B s with
  | .error s => .next s
  | .ok (_, _, s) => .next (descEnd q idx 0 0 (mintNow s) s)

/-! Reservations (R323-R325, R328). -/

/-- R323, R324: place a queue's reservation on a line; a full table of the slice evicts its oldest entry. -/
def resvPlace (q l : Nat) (senior : Bool) (s : State) : State :=
  let sl := sliceOf s l
  let s := s.modMov fun m => { m with resv := m.resv.filter fun r => r.q != q }
  let held := s.mov.resv.filter fun r => r.slice == sl && r.lost == 0
  let s := match held with
    | o :: _ => if 512 ≤ held.length then resvLose (· == o) 1 s else s
    | [] => s
  s.modMov fun m => { m with resv := m.resv ++ [{ q := q, lineNo := l, slice := sl, since := 0, senior := senior, lost := 0 }] }

/-- The 8 bytes at a DPA in its sector. -/
def word8 (d : Sector) (a : Nat) : Nat := bits d.toNat (8 * (a % 64)) 64

/-- RESERVE_LOAD (R323, R325). -/
def execReserveLoad (q idx : Nat) (s : State) : Res :=
  match descRun q idx 8 s with
  | .error s => .next s
  | .ok (x, d, s) =>
    let l := d.src / 256
    let i := d.src / 64 % 4
    let (r, s) := readReady d.srcKey l [i] s
    if !r then .next s
    else
      let (xs, s) := moverRead d.srcKey l [i] (stageLines q [(l, [i])] (engineCount q 1 1 s))
      let s := engineCount q 6 1 (resvPlace q l (x.loopLine == l && 4 ≤ x.loopFails) s)
      let s := modQueue q (fun x => { x with lastLoad := some (idx, d.src, d.srcKey) }) s
      match xs with
      | [.ok v] => .next (descEnd q idx 0 0 (word8 v d.src) s)
      | _ =>
        let (v, s) := takeFree 64 s
        .next (descEnd q idx 0 0 v.toNat s)

/-- R324: why a COND_STORE of a queue to a line fails: its DETAIL, none where it may write. -/
def storeFault (q l : Nat) (s : State) : Option Nat :=
  match s.mov.resv.find? (fun r => r.q == q) with
  | none => some 0
  | some r =>
    if r.lineNo != l then some 0
    else if r.lost != 0 then some (r.lost - 1)
    else if r.since != 0 && 100000 + (r.since - 1) < s.clock then some 1
    else if s.mov.resv.any fun o => o.q != q && o.lineNo == l && o.lost == 0 && o.senior then some 2
    else none

/-- R325: the loop counters of a queue after a COND_STORE at an index. -/
def loopNote (q idx : Nat) (d : Desc) (failed : Bool) (s : State) : State :=
  modQueue q (fun x =>
    let l := d.dst / 256
    let simple := x.lastLoad.any fun e => (e.1 + 1) % 2 ^ x.sqLog2 == idx && e.2.1 == d.dst && e.2.2 == d.dstKey
    let fails := if !failed then 0 else if !simple then x.loopFails else if x.loopLine == l then x.loopFails + 1 else 1
    { x with lastLoad := none, loopFails := fails, loopLine := if simple && failed then l else x.loopLine }) s

/-- R323, R328: a COND_STORE ends: its outcome is recorded and the reservation cleared. -/
def storeEnd (q idx status detail : Nat) (d : Desc) (result : Nat) (s : State) : State :=
  let spurious := status == 8 && detail == 1 && s.mov.resv.any fun r => r.q == q && r.lost == 0
  let s := if spurious then rinc s 0x40004C 1 else s
  let s := s.modMov fun m => { m with resv := m.resv.filter fun r => r.q != q }
  let s := loopNote q idx d (status == 8) s
  descEnd q idx status detail result
    (modQueue q (fun x => { x with outcome := some { idx := idx, status := status, detail := detail } }) s)

/-- COND_STORE (R323-R325, R328). -/
def execCondStore (q idx : Nat) (s : State) : Res :=
  match descRun q idx 9 s with
  | .error s => .next s
  | .ok (x, d, s) =>
    match x.outcome.filter fun o => o.idx == idx with
    | some o => .next (descEnd q idx o.status o.detail 0 s)
    | none =>
      let l := d.dst / 256
      let i := d.dst / 64 % 4
      let (w, s) := writeReady l [i] s
      if !w then .next s
      else
        match storeFault q l s with
        | some det => .next (storeEnd q idx 8 det d 0 s)
        | none =>
          let off := d.dst % 64
          let data : Sector := BitVec.ofNat 512 (d.get 32 8 * 2 ^ (8 * off))
          let en : BitVec 64 := BitVec.ofNat 64 (0xFF * 2 ^ off)
          if mustForward s l then
            let (n, s) := moverForward true d.dstKey (4 * l + i) data s
            let s := s.modPair fun p => { p with fwds := p.fwds.map fun f => if f.id == n then { f with enables := en } else f }
            .next (storeEnd q idx 0 0 d 0 (descStep q idx 0 0 0 [waitFwd n] s))
          else if writeLost s l then .next (storeEnd q idx 0x0A 0 d (2 ^ 32) (discardNote l d.dstKey s))
          else
            let (b, s) := takeBase .mover l (ringSnoop (some x.engine) true l s)
            let (ok, s) := writeBy (some q) l d.dstKey b { sector := i, data := data, en := en, poison := false } true s
            if !ok then .next (storeEnd q idx 0x0A 0 d (2 ^ 32) s)
            else
              let ws := if lateWaits s l then [waitLine l] else []
              .next (storeEnd q idx 0 0 d 0 (linesWritten q (descStep q idx 0 0 0 ws s)))

/-! Fetch and completion (R306, R310, R316, R317). -/

/-- Unstarted descriptors of a queue (R309). -/
def sqPending (x : Queue) : Nat := (x.sqTail + 2 ^ x.sqLog2 - x.sqHead) % 2 ^ x.sqLog2

/-- R310: entries that the completion ring still has room for, every descriptor in flight counted. -/
def cqRoom (x : Queue) : Nat := 2 ^ x.cqLog2 - x.cqUsed - x.descs.length

/-- The host link of a queue's head is up. -/
def headUp (s : State) (h : Head) : Bool := headPresent s h && (portOf s h).width != 0 && !(portOf s h).perstLow

/-- An engine may fetch descriptors of a queue (R306, R307, R329). -/
def mayFetch (s : State) (x : Queue) : Bool :=
  x.state == .running && !x.error && !x.gateClosed && engineServes s x && headUp s x.head && 0 < sqPending x

/-- A descriptor as it is fetched; a reserved opcode ends at once (R313). -/
def descNew (idx : Nat) (raw : BitVec 512) : Desc :=
  let op := raw.toNat % 256
  let bad := op == 0 || 0x0B < op
  { idx := idx, raw := raw, stage := if bad then .done else .fetched, done := 0, poisoned := 0, discarded := 0,
    status := if bad then 0x01 else 0, detail := 0, result := 0, waits := [], startGen := 0 }

/-- R310: the completion ring has no room: the queue starts nothing, and CQ_FULL is raised once. -/
def cqFullNote (q : Nat) (x : Queue) (s : State) : State :=
  if x.cqFull then s
  else raise 8 17 0x02 ((det3 q 0).on x.head) (modQueue q (fun x => { x with cqFull := true }) s)

/-- DESCRIPTOR_FETCH (R306, R310): up to four entries in one read; `entries` is what the ring holds from the head on. -/
def execDescriptorFetch (q : Nat) (entries : List (BitVec 512)) (s : State) : Res :=
  match queueAt s q with
  | none => .next s
  | some x =>
    if !mayFetch s x then .next s
    else if cqRoom x == 0 then .next (cqFullNote q x s)
    else
      let size := 2 ^ x.sqLog2
      let n := [sqPending x, size - x.sqHead, 32 - x.descs.length, 256 - engineFlight s x.engine, cqRoom x,
                entries.length].foldl min 4
      if n == 0 then .next s
      else
        let ds := (List.range n).zipWith (fun i raw => descNew (x.sqHead + i) raw) entries
        let fresh := !x.outcome.any fun o => x.sqHead ≤ o.idx && o.idx < x.sqHead + n
        .next (modEngine x.engine (fun e => { e with progress := s.clock }) (send (.fetch q (queuePasid x) x.sqHead n)
          (modQueue q (fun x => { x with descs := x.descs ++ ds, sqHead := (x.sqHead + n) % size,
                                         outcome := if fresh then x.outcome else none }) s)))

/-- R316: the bytes of a completion entry. -/
def cqEntry (d : Desc) (phase : Bool) : List Byte :=
  toLE 2 (d.get 2 2) ++ toLE 2 d.idx ++ [BitVec.ofNat 8 d.status, BitVec.ofNat 8 d.detail, BitVec.ofNat 8 (b2n phase), 0] ++
    toLE 8 d.result.toNat

/-- A status that MOV_CNT_ERR and QP_CNT_ERR count (R332). -/
def statusIsErr (st : Nat) : Bool := st != 0 && st != 8 && st != 9

/-- R331: a queue being deleted in drain mode is gone once nothing is in flight; its command answers. -/
def drainDeleted (q : Nat) (s : State) : State :=
  match queueAt s q with
  | none => s
  | some x =>
    if x.state == .deletingDrain && x.descs.isEmpty then
      let s := queueDelete q s
      forEach [MbxPort.a, .b] (fun p s =>
        match (mbxOf s p).busy with
        | some b => if b.opcode == 0xC501 && b.arg == q then mbxAnswer p 0xC501 0 [] s else s
        | none => s) s
    else s

/-- One completion entry is written and counted, and the vector notified where it was asked for (R317, R432, R439). -/
def completionWrite (q : Nat) (x : Queue) (d : Desc) (s : State) : State :=
  let err := statusIsErr d.status
  let size := 2 ^ x.cqLog2
  let s := send (.hostWrite x.head (queuePasid x) (x.cqBase + BitVec.ofNat 64 (16 * x.cqTail)) (cqEntry d x.phase) false) s
  let s := modQueue q (fun x =>
    { x with descs := x.descs.erase d, cqTail := (x.cqTail + 1) % size, cqUsed := x.cqUsed + 1,
             phase := if x.cqTail + 1 == size then !x.phase else x.phase, cntDesc := x.cntDesc + 1,
             cntErr := if err then x.cntErr + 1 else x.cntErr,
             cntStFail := if d.status == 8 then x.cntStFail + 1 else x.cntStFail, lastTime := s.tbs.mint }) s
  let s := rinc s 0x400040 1
  let s := if err then rinc s 0x400044 1 else s
  let s := bump (576 + 8 * x.engine) 1 s
  let s := if d.status == 8 then bump (576 + 8 * x.engine + 7) 1 s else s
  let s := if err then bump (576 + 8 * x.engine + 4) 1 s else s
  let s := if d.op == 8 then s.modMov fun m => { m with resv := m.resv.map fun r =>
      if r.q == q && r.since == 0 then { r with since := s.clock + 1 } else r } else s
  let s := if x.irqEn && bit d.flags 2 then notifyVec x.head x.vector s else s
  drainDeleted q s

/-- R317: a done descriptor's entry may be written: its own condition, RELEASE after every earlier entry, and FENCE
before every later one. -/
def mayComplete (s : State) (x : Queue) (d : Desc) : Bool :=
  let before := x.descs.takeWhile (· != d)
  condition54 s d && (!d.release || before.isEmpty) && !(before.any fun e => e.op == 0x0A) && headUp s x.head &&
    engineServes s x

/-- COMPLETION_ENTRY_WRITE (R317). -/
def execCompletionEntryWrite (q idx : Nat) (s : State) : Res :=
  match queueAt s q with
  | none => .next s
  | some x =>
    match x.descs.find? (fun d => d.idx == idx && d.stage == .done) with
    | none => .next s
    | some d => .next (if mayComplete s x d then completionWrite q x d s else s)

/-- R318, R329: a failed host-memory access. -/
def hostErrorOp (q idx : Nat) (side : HostSide) (detail : Nat) (s : State) : State :=
  match queueAt s q with
  | none => s
  | some x =>
    let stop (cause : Nat) : State :=
      if x.error then s
      else raise 8 17 0x01 ((det3 q cause).on x.head) (modQueue q (fun x => { x with error := true, errCause := cause }) s)
    match side with
    | .fetch => if mayFetch s x then stop 1 else s
    | .completion => if x.descs.any fun d => d.idx == idx && mayComplete s x d then
        modQueue q (fun x => { x with descs := x.descs.filter fun d => !(d.idx == idx && d.stage == .done) })
          (stop 2)
      else s
    | _ =>
      match workOf s q idx with
      | none => s
      | some d =>
        if d.stage != .started || !(if side == .source then d.srcHost else d.dstHost) then s
        else if d.op == 4 then
          descEnd q idx 0x07 0x09 0 (s.modMov fun m => { m with chunks := m.chunks.filter fun c => !(c.q == q && c.idx == idx) })
        else descEnd q idx 0x05 detail d.prefixBytes s

/-- HOST_ERROR (R318, R329). -/
def execHostError (q idx : Nat) (side : HostSide) (detail : BitVec 8) (s : State) : Res :=
  .next (hostErrorOp q idx side detail.toNat s)

/-- REQ_TIMEOUT (R355): a request of the controller without completion in time. -/
def execReqTimeout (q idx : Nat) (side : HostSide) (s : State) : Res :=
  match queueAt s q with
  | none => .next s
  | some x => .next (raise (headNo x.head) 3 0x02 ((det3 q idx).on x.head) (hostErrorOp q idx side 0x04 s))

/-! Doorbells and the gate (R307-R310). -/

/-- The queue a head's page shows: a queue of the other head acts as not created (R305, R308). -/
def pageOf (s : State) (h : Head) (q : Nat) : Option Queue := (queueAt s q).filter fun x => x.head == h && headPresent s h

/-- R309: a doorbell write is ignored. -/
def doorbellBad (q : Nat) (x : Queue) (s : State) : State :=
  raise 8 17 0x03 ((det3 q 0).on x.head) (modQueue q (fun x => { x with badDoorbell := true }) s)

/-- R309: a submission tail doorbell. -/
def sqTailOp (h : Head) (q : Nat) (v : BitVec 32) (s : State) : State :=
  match pageOf s h q with
  | none => s
  | some x =>
    if 2 ^ x.sqLog2 ≤ v.toNat % 65536 then doorbellBad q x s
    else modQueue q (fun x => { x with sqTail := v.toNat % 65536 }) s

/-- SQ_TAIL_DOORBELL (R309, R52). -/
def regSqTailDoorbell (h : Head) (q : Nat) (value : BitVec 32) (s : State) : Res := .next (sqTailOp h q value s)

/-- R309, R310: a completion head doorbell; room ends CQ_FULL. -/
def cqHeadOp (h : Head) (q : Nat) (v : BitVec 32) (s : State) : State :=
  match pageOf s h q with
  | none => s
  | some x =>
    let size := 2 ^ x.cqLog2
    let i := v.toNat % 65536
    let adv := (i + size - x.cqHead) % size
    if size ≤ i || x.cqUsed < adv then doorbellBad q x s
    else
      let used := x.cqUsed - adv
      modQueue q (fun x => { x with cqHead := i, cqUsed := used,
                                    cqFull := x.cqFull && used + x.descs.length == size }) s

/-- CQ_HEAD_DOORBELL (R309, R310). -/
def regCqHeadDoorbell (h : Head) (q : Nat) (value : BitVec 32) (s : State) : Res := .next (cqHeadOp h q value s)

/-- GATE_OPEN (R307). -/
def regGateOpen (h : Head) (q : Nat) (s : State) : Res :=
  .next (if (pageOf s h q).isSome then modQueue q (fun x => { x with gateClosed := false }) s else s)

/-- GATE_CLOSE (R307). -/
def regGateClose (h : Head) (q : Nat) (s : State) : Res :=
  .next (if (pageOf s h q).isSome then modQueue q (fun x => { x with gateClosed := true }) s else s)

/-- MOV_CNT_CLEAR (R332). -/
def regMovCntClear (_ : Head) (s : State) : Res :=
  .next (forEach [0x400040, 0x400044, 0x400048, 0x40004C] (fun k s => rset s k 0) s)

/-! Engine reinit (R326-R328). -/

/-- R327 step 3, R328: a queue of a reinitialised engine: a new generation, and its descriptors without a posted
completion run again from their beginning. -/
def queueRestart (x : Queue) : Queue :=
  { x with qgen := x.qgen + 1,
           descs := x.descs.map fun d =>
             if d.op == 0 || 0x0B < d.op then d
             else { d with stage := .fetched, done := 0, poisoned := 0, discarded := 0, status := 0, detail := 0,
                           result := 0, waits := [] } }

/-- R327 steps 1 to 3: one queue of a reinitialised engine is rebound. -/
def queueRebind (q : Nat) (s : State) : State :=
  let s := modQueue q queueRestart s
  let s := resvLose (fun r => r.q == q) 1 (s.modMov fun m => { m with chunks := m.chunks.filter fun c => c.q != q })
  match engineFewest s with
  | none => s
  | some n =>
    let s := modQueue q (fun x => { x with engine := n }) s
    bump (576 + 8 * n + 5) 1 (rinc (rbit s 0x400000 8) 0x400048 1)

/-- R326, R327: an engine is reinitialised at level 2. -/
def engineReinitOp (e : Nat) (s : State) : State :=
  let s := raise 8 16 0x01 (det3 e 0) (reinitStart (.engine e) s)
  let s := modEngine e (fun x => { x with reinit := true }) s
  let qs := ((queueList s).filter fun x => x.2.engine == e).map (·.1)
  let moved := (engineFewest s).isSome && !qs.isEmpty
  let s := forEach qs queueRebind s
  if moved then raise 8 16 0x02 (det3 e qs.length) s else s

/-- ENGINE_REINIT (R326): an internal fault, or a descriptor without progress for 10 ms. -/
def execEngineReinit (e : Nat) (fault : Bool) (s : State) : Res :=
  let x := engineAt s (e % 8)
  let stuck := 0 < engineFlight s (e % 8) && 10000000 + x.progress ≤ s.clock
  .next (if x.inService && !x.reinit && (fault || stuck) then engineReinitOp (e % 8) s else s)

/-- R327 step 4: the engine rejoins, or goes out of service after two failures. -/
def engineDoneOp (e : Nat) (ok : Bool) (s : State) : State :=
  let x := engineAt s e
  if !x.reinit then s
  else if ok then modEngine e (fun x => { x with reinit := false, fails := 0, progress := s.clock }) s
  else if x.fails == 0 then modEngine e (fun x => { x with fails := 1 }) s
  else
    raise 8 16 0x03 (det3 e 0)
      (rbit (modEngine e (fun x => { x with reinit := false, inService := false, fails := 2 }) s) 0x400000 9)

/-- R483: a reinit that has ended leaves its function. -/
def engineFreed (e : Nat) (s : State) : State :=
  if (engineAt s e).reinit then s else s.modSup fun u => { u with fnBusy := u.fnBusy.filter fun f => f != .engine e }

/-- ENGINE_REINIT_DONE (R327). -/
def execEngineReinitDone (e : Nat) (ok : Bool) (s : State) : Res := .next (engineFreed (e % 8) (engineDoneOp (e % 8) ok s))

/-! Administration (R330, R331, R379). -/

/-- R330: the payload of Create Queue Pair is acceptable. -/
def createOk (b : List Byte) (s : State) : Bool :=
  let q := le b 0 2
  let grants := BitVec.ofNat 128 (le b 32 16)
  q < 4096 && (queueAt s q).isNone && 4 ≤ le b 2 1 && le b 2 1 ≤ 16 && 4 ≤ le b 3 1 && le b 3 1 ≤ 16 && le b 4 4 < 2 ^ 21 &&
    le b 8 8 % 4096 == 0 && le b 16 8 % 4096 == 0 && le b 24 2 % 2 ^ 15 < 2048 && le b 26 1 < 8 && le b 27 5 == 0 &&
    (List.range 128).all fun k => !grants.getLsbD k || (policyFlags s k).getLsbD 3

/-- R330: the queue that a payload describes. -/
def queueNew (h : Head) (e : Nat) (b : List Byte) : Queue :=
  { (default : Queue) with
    head := h, sqLog2 := le b 2 1, cqLog2 := le b 3 1, pasid := BitVec.ofNat 20 (le b 4 4), pasidValid := bit (le b 4 4) 20,
    sqBase := BitVec.ofNat 64 (le b 8 8), cqBase := BitVec.ofNat 64 (le b 16 8), vector := le b 24 2 % 2 ^ 11,
    irqEn := bit (le b 24 2) 15, prio := le b 26 1 % 4, gateClosed := bit (le b 26 1) 2, phase := true, engine := e,
    grants := BitVec.ofNat 128 (le b 32 16) }

/-- R306, R330: the body of Create Queue Pair; BUSY where no engine is in service (log entry 47). -/
def yCreateQueuePair : Body := fun p b s =>
  if !createOk b s then errAns rcInvalid s
  else
    match engineFewest s with
    | none => errAns rcBusy s
    | some e => ok (s.modMov fun m => { m with queues := tput none m.queues (le b 0 2) (some (queueNew (headOf p) e b)) })

/-- CREATE_QUEUE_PAIR (R330). -/
def execCreateQueuePair (p : MbxPort) (payload : List Byte) (s : State) : Res := .next (yciRun 0xC500 yCreateQueuePair p payload s)

/-- R331: every descriptor in flight of an aborted queue gets its entry with ABORTED. -/
def abortOne (q : Nat) (d : Desc) (s : State) : State :=
  match queueAt s q with
  | none => s
  | some x => completionWrite q x d s

/-- R329, R331: the descriptors of a queue stop at line boundaries and complete with ABORTED; those that were done keep
their status. -/
def abortAll (q : Nat) (s : State) : State :=
  let s := modQueue q (fun x => { x with descs := x.descs.map fun d =>
    if d.stage == .done then d
    else { d with stage := .done, status := 0x0B, detail := 0, result := BitVec.ofNat 64 d.prefixBytes } }) s
  match queueAt s q with
  | none => s
  | some x => forEach x.descs (abortOne q) s

/-- The queue of an administration payload, where the sending head's mailbox created it. -/
def adminQueue (p : MbxPort) (q : Nat) (s : State) : Option Queue := (queueAt s q).filter fun x => x.head == headOf p

/-- R331: the body of Delete Queue Pair. -/
def yDeleteQueuePair : Body := fun p b s =>
  let q := le b 0 2
  match adminQueue p q s with
  | none => errAns rcInvalid s
  | some x =>
    if 2 ≤ le b 2 1 || le b 3 1 != 0 then errAns rcInvalid s
    else if le b 2 1 == 1 then ok (queueDelete q (abortAll q s))
    else if x.descs.isEmpty then ok (queueDelete q s)
    else
      let busy : BgCmd := { opcode := 0xC501, result := 0, recs := 0, arg := q }
      ⟨rcNone, [], modMbx p (fun m => { m with busy := some busy, busySince := s.clock })
        (modQueue q (fun x => { x with state := .deletingDrain }) s)⟩

/-- The payload of Delete Queue Pair with its MODE bit, which the row fixes. -/
def withMode (mode : Nat) (b : List Byte) : List Byte := b.set 2 (BitVec.ofNat 8 (le b 2 1 / 2 * 2 + mode))

/-- DELETE_QUEUE_PAIR_DRAIN (R331). -/
def execDeleteQueuePairDrain (p : MbxPort) (payload : List Byte) (s : State) : Res :=
  .next (yciRun 0xC501 yDeleteQueuePair p (withMode 0 payload) s)

/-- DELETE_QUEUE_PAIR_ABORT (R331). -/
def execDeleteQueuePairAbort (p : MbxPort) (payload : List Byte) (s : State) : Res :=
  .next (yciRun 0xC501 yDeleteQueuePair p (withMode 1 payload) s)

/-- R320, R331: the body of Set Queue Grants. -/
def ySetQueueGrants : Body := fun p b s =>
  match adminQueue p (le b 0 2) s with
  | none => errAns rcInvalid s
  | some _ =>
    if le b 2 2 != 0 then errAns rcInvalid s
    else ok (modQueue (le b 0 2) (fun x => { x with grants := BitVec.ofNat 128 (le b 4 16) }) s)

/-- SET_QUEUE_GRANTS (R320). -/
def execSetQueueGrants (p : MbxPort) (payload : List Byte) (s : State) : Res := .next (yciRun 0xC502 ySetQueueGrants p payload s)

/-- R326, R331: the body of Reinit Mover Engine. -/
def yReinitEngine : Body := fun _ b s =>
  let e := le b 0 1
  if 8 ≤ e || le b 1 3 != 0 then errAns rcInvalid s
  else if !(engineAt s e).inService || (engineAt s e).reinit then ok s
  else ok (engineReinitOp e s)

/-- REINIT_MOVER_ENGINE (R326). -/
def execReinitMoverEngine (p : MbxPort) (payload : List Byte) (s : State) : Res := .next (yciRun 0xC503 yReinitEngine p payload s)

/-- R310, R439: QP_STATUS. -/
def qpStatus (x : Queue) : Nat :=
  1 + 2 * b2n x.gateClosed + 4 * b2n x.error + 8 * b2n x.cqFull + 16 * x.errCause + 256 * b2n x.badDoorbell

/-- QP_INFO (R310). -/
def qpInfo (x : Queue) : Nat :=
  x.sqLog2 + x.cqLog2 * 2 ^ 5 + x.engine * 2 ^ 10 + x.qgen.toNat * 2 ^ 13 + headNo x.head * 2 ^ 21 + x.prio * 2 ^ 22

/-- R379: the body of Get Queue Info: zeros for a queue that is not created (R308). -/
def yGetQueueInfo : Body := fun p b s =>
  if 4096 ≤ le b 0 2 || le b 2 2 != 0 then errAns rcInvalid s
  else
    match adminQueue p (le b 0 2) s with
    | none => okOut (zeros 32) s
    | some x => okOut (toLE 4 (qpInfo x) ++ toLE 4 (qpStatus x) ++ toLE 2 x.sqHead ++ toLE 2 x.sqTail ++ toLE 2 x.cqHead ++
        toLE 2 x.cqTail ++ toLE 16 x.grants.toNat) s

/-- GET_QUEUE_INFO (R379). -/
def execGetQueueInfo (p : MbxPort) (payload : List Byte) (s : State) : Res := .next (yciRun 0xC504 yGetQueueInfo p payload s)

end Sys2Proof.Machine
end

