-- ==== Sys2Proof/Machine/Package.lean ====
section
/-! DEFINITION. The package cipher engines: AES-256-GCM, the checks of a chunk, IMPORT with its hold until verified, and
EXPORT (R286-R296, R303). -/

namespace Sys2Proof.Machine

/-! AES-256-GCM (R286, SP 800-38D); blocks are big-endian here. -/

/-- The big-endian value of bytes. -/
def beOf (bs : List Byte) : Nat := bs.foldl (fun n b => n * 256 + b.toNat) 0

/-- AES-256 of a big-endian block. -/
def aesBE (k : BitVec 256) (x : BitVec 128) : BitVec 128 := byteRev (Config.aes256 k (byteRev x 16)) 16

/-- GHASH of n blocks of bytes from a running value. -/
def ghashBytes (h : BitVec 128) (bs : List Byte) (n : Nat) (y : BitVec 128) : BitVec 128 :=
  (List.range n).foldl (fun y j => gmul (y ^^^ BitVec.ofNat 128 (beOf ((bs.drop (16 * j)).take 16))) h) y

/-- The GCM tag of additional data and ciphertext, both whole blocks. -/
def gcmTag (k : BitVec 256) (iv aad ct : List Byte) : BitVec 128 :=
  let h := aesBE k 0
  let y := ghashBytes h ct (ct.length / 16) (ghashBytes h aad (aad.length / 16) 0)
  let y := gmul (y ^^^ BitVec.ofNat 128 (8 * aad.length * 2 ^ 64 + 8 * ct.length)) h
  y ^^^ aesBE k (BitVec.ofNat 128 (beOf iv * 2 ^ 32 + 1))

/-- The n big-endian bytes of v. -/
def toBE (n v : Nat) : List Byte := (toLE n v).reverse

/-- GCM encryption, and decryption, of whole blocks. -/
def gcmCrypt (k : BitVec 256) (iv bs : List Byte) : List Byte :=
  ((List.range (bs.length / 16)).map fun j =>
    let m := aesBE k (BitVec.ofNat 128 (beOf iv * 2 ^ 32 + (j + 2) % 2 ^ 32))
    toBE 16 (m ^^^ BitVec.ofNat 128 (beOf ((bs.drop (16 * j)).take 16))).toNat).flatten

/-! The engines (R287, R288, R484). -/

/-- Chunks that an engine holds. -/
def chunksOf (s : State) (e : Nat) : Nat := (s.mov.chunks.filter fun c => c.engine == e).length

/-- R287, R288: the engine that takes the next chunk: in service, with a free hold buffer, the fewer chunks in hand. -/
def pkgEngine (s : State) : Option Nat :=
  let es := [0, 1].filter fun e => !s.mov.pkgOut.contains e && !s.sup.fnBusy.contains (.package e) && chunksOf s e < 2
  match es with
  | [] => none
  | [e] => some e
  | _ => some (if chunksOf s 1 < chunksOf s 0 then 1 else 0)

/-- A package key slot. -/
def pkgSlotOf (s : State) (k : Nat) : PkgSlot := tget default s.cry.pkg k

/-- R303, R304: a chunk is refused: the descriptor ends with PACKAGE and the status. -/
def pkgRefuse (q idx st done : Nat) (s : State) : State :=
  let s := s.modMov fun m => { m with chunks := m.chunks.filter fun c => !(c.q == q && c.idx == idx) }
  let s :=
    if st == 7 then raise 6 5 0x01 (det3 q idx) (rbit (rinc s 0x300118 1) 0x300100 8)
    else raise 6 5 0x02 (det3 q st) (rbit (rinc s 0x30011C 1) 0x300100 9)
  descEnd q idx 0x07 st done s

/-! IMPORT (R290-R294). -/

/-- R291: the checks made on the header, in order: the status of the first that fails, 0 where none does. -/
def headerStatus (s : State) (x : Queue) (d : Desc) (b : List Byte) : Nat :=
  let slot := pkgSlotOf s (d.get 36 1)
  let n := le b 20 4
  let off := le b 24 8
  let dst := d.dst + off
  if le b 0 4 != 0x43444E46 || le b 4 1 != 1 || 2 ≤ le b 5 1 || le b 44 20 != 0 then 0x01
  else if 2 ^ 20 < n || n % 256 != 0 || 4096 < le b 6 2 || le b 6 2 % 16 != 0 || off % 256 != 0 then 0x02
  else if !slot.loaded || slot.export_ then 0x03
  else if slot.complete then 0x0A
  else if le b 8 8 != slot.pkgId.toNat then 0x04
  else if le b 16 4 != d.get 32 4 then 0x05
  else if d.get 40 8 < off + n || 2 ^ 45 < dst + n then 0x06
  else if d.dstKey != slot.keyId || !x.grants.getLsbD d.dstKey then 0x08
  else
    match d.dstSet with
    | some e => if setCovers s e dst n then 0 else 0x0B
    | none => 0

/-- The lines of plaintext bytes. -/
def plainLines (bs : List Byte) (n : Nat) : List Line :=
  (List.range n).map fun i => BitVec.ofNat 2048 (le bs (256 * i) 256)

/-- R293: the chunk in its hold buffer. -/
def chunkNew (s : State) (e q idx : Nat) (d : Desc) (b : List Byte) : Chunk :=
  let key := (pkgSlotOf s (d.get 36 1)).key
  let aadLen := 64 + le b 6 2
  let n := le b 20 4
  let iv := (b.drop 32).take 12
  let ct := (b.drop aadLen).take n
  let tag := BitVec.ofNat 128 (beOf ((b.drop (aadLen + n)).take 16))
  { engine := e, q := q, idx := idx, stage := .verifying, slot := d.get 36 1, dpa := d.dst + le b 24 8, key := d.dstKey,
    escrow := d.dstSet.elim 0 (· + 1), last := bit (le b 5 1) 0, plain := plainLines (gcmCrypt key iv ct) (n / 256),
    tagOk := gcmTag key iv (b.take aadLen) ct == tag, captured := key }

/-- IMPORT (R290-R293): the header checks, then the ciphertext into a hold buffer; `hostPoison` is a read that returned
poison. -/
def execImportChunk (q idx : Nat) (chunk : List Byte) (hostPoison : Bool) (s : State) : Res :=
  match descRun q idx 4 s with
  | .error s => .next s
  | .ok (x, d, s) =>
    if s.mov.chunks.any fun c => c.q == q && c.idx == idx then .next s
    else
      match pkgEngine s with
      | none => .next s
      | some e =>
        let st := headerStatus s x d chunk
        if st != 0 then .next (pkgRefuse q idx st 0 s)
        else if hostPoison then .next (pkgRefuse q idx 0x09 0 s)
        else
          let n := 80 + le chunk 6 2 + le chunk 20 4
          let s := hostMoved q ((n + 63) / 64) (hostFetch q d.src n s)
          .next (s.modMov fun m => { m with chunks := m.chunks ++ [chunkNew s e q idx d chunk] })

/-- R294, R249: why a verified chunk's next line is refused: DOMAIN or ESCROW, 0 none; and what the refusal leaves. -/
def chunkLineFault (x : Queue) (c : Chunk) (l : Nat) (s : State) : Nat × State :=
  let e := ent s (folioOf l)
  let fail := if provisioned e then accessCheck s c.key none e else none
  let refuse (s : State) : Nat × State := (0x08, fail.elim s fun f => accessFault f (l * 256) c.key true none s)
  match c.escrow with
  | n + 1 => if !setCovers s n (l * 256) 256 then (0x0B, s) else if fail.isSome then refuse s else (0, s)
  | 0 =>
    if fail.isSome then refuse s
    else if !x.grants.getLsbD c.key || !(policyFlags s c.key).getLsbD 3 then (0x08, s) else (0, s)

/-- R293, R294: the next line of a verified chunk goes to its home slice: true where it did. -/
def chunkLine (c : Chunk) (l : Nat) (d : Line) (s : State) : Bool × State :=
  let xs := [0, 1, 2, 3].map fun i => (i, lineSector d i)
  match c.escrow with
  | n + 1 =>
    let op := s.med.nextOp
    match stageWrite n l c.q c.idx d false s with
    | (true, s) => (true, linesWritten c.q (descStep c.q c.idx 4 0 0 [waitOp op] s))
    | (false, s) => (false, pkgRefuse c.q c.idx 0x0B (((workOf s c.q c.idx).map Desc.prefixBytes).getD 0) s)
  | 0 =>
    let (w, s) := writeReady l [0, 1, 2, 3] s
    if !w then (false, s)
    else
      match moverWrite c.q c.key l xs false false s with
      | (some ws, s) => (true, linesWritten c.q (descStep c.q c.idx 4 0 0 ws s))
      | (none, s) => (true, descStep c.q c.idx 4 0 1 [] s)

/-- R293: the lines of a verified chunk in ascending order, until one must wait or is refused. -/
def chunkLines (c : Chunk) : List Line → State → State
  | [], s => s
  | d :: r, s =>
    match queueAt s c.q, workOf s c.q c.idx with
    | some x, some y =>
      let l := c.dpa / 256 + y.done / 4
      let (f, s) := chunkLineFault x c l s
      if f != 0 then pkgRefuse c.q c.idx f y.prefixBytes s
      else
        let (ok, s) := chunkLine c l d s
        if ok then chunkLines c r s else s
    | _, _ => s

/-- R292, R293: the last line has left the hold buffer: the buffer is zeroed and freed, and the descriptor is done. -/
def chunkEnd (c : Chunk) (s : State) : State :=
  match workOf s c.q c.idx with
  | none => s
  | some y =>
    if y.done / 4 < c.plain.length then s
    else
      let s := s.modMov fun m => { m with chunks := m.chunks.filter fun x => !(x.q == c.q && x.idx == c.idx) }
      let s := rinc (bump 523 (4 * c.plain.length) (bump 521 1 s)) 0x300110 1
      if y.discarded != 0 then descEnd c.q c.idx 0x0A 0 (256 * c.plain.length + y.discarded * 2 ^ 32) s
      else descEnd c.q c.idx 0 0 (256 * c.plain.length) s

/-- CHUNK_VERIFIED (R292-R294): the tag compare of an engine's oldest chunk ends; a verified chunk's lines are passed
on, and what had to wait goes on when the command is repeated. -/
def execChunkVerified (e : Nat) (s : State) : Res :=
  match s.mov.chunks.find? (fun c => c.engine == e) with
  | none => .next s
  | some c =>
    if c.stage == .verifying && !c.tagOk then .next (pkgRefuse c.q c.idx 0x07 0 s)
    else
      let first := c.stage == .verifying
      let s := s.modMov fun m => { m with chunks := m.chunks.map fun x =>
        if x.q == c.q && x.idx == c.idx then { x with stage := .writing } else x }
      let s :=
        if first && c.last then
          raise 6 5 0x03 (det3 c.slot 0)
            (s.modCry fun y => { y with pkg := tmod default y.pkg c.slot fun p => { p with complete := true } })
        else s
      let done := ((workOf s c.q c.idx).map fun y => y.done / 4).getD 0
      .next (chunkEnd c (chunkLines c (c.plain.drop done) s))

/-! EXPORT (R295, R296). -/

/-- R296: the export IV tally counter, an advance still being written counted. -/
def exportTally (s : State) : Nat :=
  (s.pb.writes ++ s.pb.writing.toList).foldl
    (fun m w => if w.cls == 3 && w.addr / 4096 == 0x111 then max m (le w.data 0 4) else m) (tallyVal s 1)

/-- R295, R296: the status for which an export is refused before it reads, 0 where none. -/
def exportStatus (s : State) (d : Desc) : Nat :=
  let slot := pkgSlotOf s (d.get 36 1)
  if d.get 40 8 % 256 != 0 then 0x02
  else if !slot.loaded || !slot.export_ then 0x03
  else if slot.keyId != d.srcKey then 0x08
  else if exportTally s == 0xFFFFFFFF then 0x0C
  else 0

/-- R289, R296: the sealed chunk of plaintext bytes under a slot, with its tally value. -/
def exportBytes (slot : PkgSlot) (d : Desc) (tally : Nat) (plain : List Byte) : List Byte :=
  let iv := toLE 4 slot.fixed.toNat ++ toLE 4 tally ++ toLE 4 (d.get 32 4)
  let header := toLE 4 0x43444E46 ++ [1, BitVec.ofNat 8 (d.get 37 1 % 2)] ++ zeros 2 ++ toLE 8 slot.pkgId.toNat ++
    toLE 4 (d.get 32 4) ++ toLE 4 plain.length ++ toLE 8 (d.get 40 8) ++ iv ++ zeros 20
  let ct := gcmCrypt slot.key iv plain
  header ++ ct ++ toBE 16 (gcmTag slot.key iv header ct).toNat

/-- EXPORT (R295, R296). -/
def execExportChunk (q idx : Nat) (s : State) : Res :=
  match descRun q idx 5 s with
  | .error s => .next s
  | .ok (x, d, s) =>
    if d.len == 0 then .next (descEnd q idx 0 0 0 s)
    else
      let st := exportStatus s d
      if st == 0x0C then .next (pkgRefuse q idx st 0 (raise 6 5 0x04 (det3 1 0) (tallyAdvance 1 (exportTally s + 1) s)))
      else if st != 0 then .next (pkgRefuse q idx st 0 s)
      else if (pkgEngine s).isNone then .next s
      else
        let src := byLine (unitSectors d.src 0 (d.len / 64))
        let (r, s) := srcReady d.srcSet d.srcKey src s
        if !r then .next s
        else
          let (xs, s) := srcRead d.srcSet d.srcKey src (stageLines q src (engineCount q 1 src.length s))
          if xs.any secPoison then .next (pkgRefuse q idx 0x0D 0 s)
          else
            let t := exportTally s
            let bs := exportBytes (pkgSlotOf s (d.get 36 1)) d t ((xs.map fun y => toLE 64 (secOr0 y).toNat).flatten)
            let s := tallyAdvance 1 (t + 1) (rinc (bump 523 (d.len / 64) (bump 522 1 s)) 0x300114 1)
            let s := hostMoved q ((bs.length + 63) / 64) s
            .next (descEnd q idx 0 0 bs.length (descStep q idx (d.len / 64) 0 0 []
              (send (.hostWrite x.head (queuePasid x) (BitVec.ofNat 64 d.dst) bs false) s)))

end Sys2Proof.Machine
end

