-- ==== Sys2Proof/Machine/Vault.lean ====
section
/-! DEFINITION. The vault: key pages and the vault register space, domain policies, the sealed window, tree actions,
protected passbook ranges, debug unlock and lifecycle, and debug access (R245-R253, R276, R283, R297-R304, R387-R391,
R455, R456). -/

namespace Sys2Proof.Machine

/-! Key pages (R297-R301). -/

/-- A key page. -/
def pageAt (s : State) (p : Nat) : KeyPage := tget default s.cry.pages p

/-- Update of a key page. -/
def modPage (p : Nat) (f : KeyPage → KeyPage) (s : State) : State :=
  s.modCry fun c => { c with pages := tmod default c.pages p f }

/-- R301: the owner nibble of a slot: PAGE in bits 2 to 0, ASSIGNED in bit 3. -/
def slotOwner (s : State) (pkg : Bool) (k : Nat) : Nat :=
  bits (tget 0 (if pkg then s.cry.pkgOwner else s.cry.domOwner) (k / 8)).toNat (4 * (k % 8)) 4

/-- R299: a slot is assigned to a page; domain slot 0 belongs to none. -/
def ownsSlot (s : State) (p : Nat) (pkg : Bool) (k : Nat) : Bool := (pkg || k != 0) && slotOwner s pkg k == 8 + p

/-- A slot holds a key. -/
def slotLoaded (s : State) (pkg : Bool) (k : Nat) : Bool :=
  if pkg then (pkgSlotOf s k).loaded else (tget none s.cry.dom k).isSome

/-- R247, R259: the key of a domain slot is removed. -/
def domUnload (k : Nat) (s : State) : State :=
  if (tget none s.cry.dom k).isNone then s
  else raise 6 3 0x02 (det3 k 0) (derivedDrop (fun e => e.1 == k) (s.modCry fun c => { c with dom := tput none c.dom k none }))

/-- R297: a package slot is emptied. -/
def pkgUnload (k : Nat) (s : State) : State :=
  if !(pkgSlotOf s k).loaded then s
  else raise 6 6 0x02 (det3 k 0) (s.modCry fun c => { c with pkg := tput default c.pkg k default })

/-- R246, R247: a KCV other than the recorded one, while the key ID owns folios or sets, refuses a load. -/
def kcvRefuses (s : State) (k : Nat) (key : BitVec 256) : Bool :=
  let p := tget policy0 s.cry.policy k
  p.kcvSet && p.kcv != kcvOf key && (ownsFolio s k || ownsSet s k)

/-- R297: the slot that a page's binding registers describe. -/
def slotBound (g : KeyPage) : PkgSlot :=
  { loaded := true, key := g.key, pkgId := g.idHi ++ g.idLo, keyId := g.bind.toNat % 128, export_ := g.bind.getLsbD 7,
    fixed := g.fixed, complete := false }

/-- R300: the bindings of two slots agree. -/
def sameBinding (a b : PkgSlot) : Bool := a.pkgId == b.pkgId && a.keyId == b.keyId && a.export_ == b.export_ && a.fixed == b.fixed

/-- R300: the RESULT of a LOAD (or UNLOAD) of a page: the first of BAD_SLOT, NOT_OWNER, LOCKED, INCOMPLETE, IN_USE and
REFUSED, or OK. -/
def keyResult (s : State) (p : Nat) (load : Bool) : Nat :=
  let g := pageAt s p
  let pkg := g.slotSel.getLsbD 0
  let k := bits g.slotSel.toNat 1 7
  if (if pkg then 64 ≤ k else k == 0) then 6
  else if !ownsSlot s p pkg k then 2
  else if g.lock then 3
  else if load && g.keyWritten != 0xFF then 1
  else if load && pkg && (pkgSlotOf s k).loaded && !sameBinding (pkgSlotOf s k) (slotBound g) then 5
  else if load && (if pkg then g.bind.toNat % 128 == 0 else kcvRefuses s k g.key) then 4
  else 0

/-- R246, R247: a domain key is loaded, and its KCV recorded. -/
def domLoad (k : Nat) (key : BitVec 256) (s : State) : State :=
  let old := tget policy0 s.cry.policy k
  let s := s.modCry fun c => { c with dom := tput none c.dom k (some key),
                                      policy := tput policy0 c.policy k { old with kcv := kcvOf key, kcvSet := true } }
  let s := derivedDrop (fun e => e.1 == k) s
  let s := if old.kcvSet && old.kcv == kcvOf key then s else recordQueue (recPolicy k) s
  raise 6 3 0x01 (det3 k 0) s

/-- R300: a write of VLT_KEY_CMD: the command runs, the key words are zeroed, and RESULT reports it. -/
def keyCommand (p : Nat) (load : Bool) (s : State) : State :=
  let r := keyResult s p load
  let g := pageAt s p
  let pkg := g.slotSel.getLsbD 0
  let k := bits g.slotSel.toNat 1 7
  let s :=
    if r != 0 then
      let s := if r == 4 && !pkg then raise 6 3 0x03 (det3 k 0) s else s
      raise 6 6 0x04 (det3 p r) s
    else if load then
      if pkg then raise 6 6 0x01 (det3 k 0) (s.modCry fun c => { c with pkg := tput default c.pkg k (slotBound g) })
      else domLoad k g.key s
    else if pkg then pkgUnload k s
    else domUnload k s
  modPage p (fun g => { g with result := r, key := 0, keyWritten := 0,
                               kcv := if r == 0 && load then kcvOf (slotBound { g with key := g.key }).key else g.kcv }) s

/-- R301: the word of an owner map as a write leaves it: the field of domain slot 0 ignores writes. -/
def ownerWord (pkg : Bool) (n : Nat) (v : BitVec 32) : BitVec 32 := if !pkg && n == 0 then v &&& 0xFFFFFFF0 else v

/-- R299: a write of an owner map word would reassign a slot that holds a key. -/
def ownerRefused (s : State) (pkg : Bool) (n : Nat) (v : BitVec 32) : Bool :=
  let w := (ownerWord pkg n v).toNat
  (List.range 8).any fun i =>
    let old := slotOwner s pkg (8 * n + i)
    let new := bits w (4 * i) 4
    slotLoaded s pkg (8 * n + i) && (old % 8 != new % 8 || (8 ≤ old && new < 8))

/-- R298, R299, R389: the status of a word write to the vault space: 0 where it may be written. -/
def wordStatus (s : State) (q off : Nat) (v : BitVec 32) : Nat :=
  let p := off / 0x1000
  let r := off % 0x1000
  if off < 0x8000 then
    if p != q then 0x04
    else if 0x040 < r then 0x03
    else if (pageAt s p).lock && 0x010 ≤ r && r ≤ 0x01C then 0x05
    else 0
  else if 0x8060 < off then 0x03
  else if q != 0 then 0x04
  else if (pageAt s 0).lock then 0x05
  else if off < 0x8040 then (if ownerRefused s false ((off - 0x8000) / 4) v then 0x06 else 0)
  else if off < 0x8060 then (if ownerRefused s true ((off - 0x8040) / 4) v then 0x06 else 0)
  else 0

/-- R300, R301: a word is written to the vault space. -/
def wordWrite (off : Nat) (v : BitVec 32) (s : State) : State :=
  let p := off / 0x1000
  let r := off % 0x1000
  if off < 0x8000 then
    if r == 0x000 then
      if v.getLsbD 3 && !(pageAt s p).lock then raise 6 6 0x03 (det3 p 0) (modPage p (fun g => { g with lock := true }) s) else s
    else if r == 0x008 then modPage p (fun g => { g with slotSel := v &&& 0xFF }) s
    else if r == 0x00C then
      (if v.toNat % 4 == 1 then keyCommand p true s else if v.toNat % 4 == 2 then keyCommand p false s else s)
    else if r == 0x010 then modPage p (fun g => { g with idLo := v }) s
    else if r == 0x014 then modPage p (fun g => { g with idHi := v }) s
    else if r == 0x018 then modPage p (fun g => { g with bind := v &&& 0xFF }) s
    else if r == 0x01C then modPage p (fun g => { g with fixed := v }) s
    else if 0x020 ≤ r && r < 0x040 then
      let n := (r - 0x020) / 4
      modPage p (fun g => { g with keyWritten := g.keyWritten ||| (1 <<< n),
                                   key := (g.key &&& ~~~((0xFFFFFFFF : BitVec 256) <<< (32 * n))) ||| (v.setWidth 256 <<< (32 * n)) }) s
    else s
  else if off < 0x8040 then
    s.modCry fun c => { c with domOwner := tput 0 c.domOwner ((off - 0x8000) / 4) (ownerWord false ((off - 0x8000) / 4) v) }
  else if off < 0x8060 then
    s.modCry fun c => { c with pkgOwner := tput 0 c.pkgOwner ((off - 0x8040) / 4) v }
  else
    let v := v &&& 7
    if v == s.cry.cm then s else raise 6 6 0x05 (det3 v.toNat 0) (s.modCry fun c => { c with cm := v })

/-- The words of a REG_WRITE frame, with their offsets. -/
def frameWords (b : List Byte) : List (Nat × BitVec 32) :=
  (List.range ((b.length - 4) / 4)).map fun i => (le b 0 2 + 4 * i, BitVec.ofNat 32 (le b (4 + 4 * i) 4))

/-- R389: REG_WRITE: checked whole, then written; the word of VLT_KEY_CMD acts last. -/
def vRegWrite (q : Nat) (b : List Byte) (s : State) : VAns :=
  let n := (b.length - 4) / 4
  if b.length < 8 || b.length % 4 != 0 || 16 < n || le b 2 2 != 0 || le b 0 2 % 4 != 0 || 0x10000 < le b 0 2 + 4 * n then vErr 0x03 s
  else
    let ws := frameWords b
    match ws.find? (fun w => wordStatus s q w.1 w.2 != 0) with
    | some w =>
      let st := wordStatus s q w.1 w.2
      vErr st (if st == 0x06 then raise 6 6 0x04 (det3 q 0x10) s else s)
    | none =>
      let isCmd (w : Nat × BitVec 32) : Bool := w.1 < 0x8000 && w.1 % 0x1000 == 0x00C
      let write (w : Nat × BitVec 32) (s : State) : State := wordWrite w.1 w.2 s
      vOk (forEach (ws.filter isCmd) write (forEach (ws.filter fun w => !isCmd w) write s))

/-- R300, R301: the value that a word of the vault space reads as. -/
def wordRead (s : State) (off : Nat) : Nat :=
  let p := off / 0x1000
  let g := pageAt s p
  if off < 0x8000 then
    match off % 0x1000 with
    | 0x000 => p + 8 * b2n g.lock
    | 0x004 => g.result + 256 * g.keyWritten.toNat
    | 0x008 => g.slotSel.toNat
    | 0x010 => g.idLo.toNat
    | 0x014 => g.idHi.toNat
    | 0x018 => g.bind.toNat
    | 0x01C => g.fixed.toNat
    | 0x040 => g.kcv.toNat
    | _ => 0
  else if off < 0x8040 then (tget 0 s.cry.domOwner ((off - 0x8000) / 4)).toNat
  else if off < 0x8060 then (tget 0 s.cry.pkgOwner ((off - 0x8040) / 4)).toNat
  else if off == 0x8060 then s.cry.cm.toNat
  else 0

/-- R389: REG_READ. -/
def vRegRead (q : Nat) (b : List Byte) (s : State) : VAns :=
  let off := le b 0 2
  let n := le b 2 1
  if b.length != 4 || n == 0 || 16 < n || le b 3 1 != 0 || off % 4 != 0 || 0x10000 < off + 4 * n then vErr 0x03 s
  else if (List.range n).any fun i => off + 4 * i < 0x8000 && (off + 4 * i) / 0x1000 != q then vErr 0x04 s
  else vOut ((List.range n).flatMap fun i => toLE 4 (wordRead s (off + 4 * i))) s

/-- REG_WRITE (R389). -/
def execRegWrite (principal : Nat) (tag : Nat) (payload : List Byte) (s : State) : Res :=
  .next (vaultRun 0x01 vRegWrite principal tag payload s)

/-- REG_READ (R389). -/
def execRegRead (principal : Nat) (tag : Nat) (payload : List Byte) (s : State) : Res :=
  .next (vaultRun 0x02 vRegRead principal tag payload s)

/-- The REG_WRITE frame of one word of a principal's own page. -/
def pageFrame (principal off v : Nat) : List Byte := toLE 2 (0x1000 * (principal % 8) + off) ++ zeros 2 ++ toLE 4 v

/-- LOAD (R300): a write of LOAD to the page's VLT_KEY_CMD. -/
def execLoadKey (principal : Nat) (tag : Nat) (s : State) : Res :=
  .next (vaultRun 0x01 vRegWrite principal tag (pageFrame principal 0x00C 1) s)

/-- UNLOAD (R300): a write of UNLOAD to the page's VLT_KEY_CMD. -/
def execUnloadKey (principal : Nat) (tag : Nat) (s : State) : Res :=
  .next (vaultRun 0x01 vRegWrite principal tag (pageFrame principal 0x00C 2) s)

/-- LOCK (R299): a write of 1 to the page's VLT_PAGE_CTL.LOCK. -/
def execLockPage (principal : Nat) (tag : Nat) (s : State) : Res :=
  .next (vaultRun 0x01 vRegWrite principal tag (pageFrame principal 0x000 8) s)

/-! Policies (R246, R247). -/

/-- The tag of a page write that a vault request waits for (PageWrite.principal). -/
def vaultTag (op q tag : Nat) : Nat := 1 + q % 8 + 8 * (tag % 32) + 256 * op

/-- R388: the answer of the vault request that a page write belongs to. -/
def vaultAnswer (v st : Nat) (s : State) : State :=
  if v == 0 then s else vaultRespond (v / 256) ((v - 1) % 8) (v / 8 % 32) st [] s

/-- R108, R247, R276: the population and strap allow sealed folios. -/
def sealAllowed (s : State) : Bool := allM2 s && s.sup.holdupDecl != 0

/-- R247: a policy record is refused: SEALED would change while the domain owns a folio, or be set where sealing is not
allowed. -/
def policyRefused (s : State) (k : Nat) (flags : Nat) : Bool :=
  let new := bit flags 0
  (new != domSealed s k && ownsFolio s k) || (new && !domSealed s k && !(sealAllowed s && sealedOn s))

/-- R247: a policy record written to the passbook is in force. -/
def policyPut (k : Nat) (flags : BitVec 8) (s : State) : State :=
  let old := tget policy0 s.cry.policy k
  raise 6 3 0x04 (det3 k flags.toNat)
    (s.modCry fun c => { c with policy := tput policy0 c.policy k { old with flags := flags, written := true } })

/-- R247, R389: SET_POLICY: the record's page write answers the request. -/
def vSetPolicy (tag : Nat) (q : Nat) (b : List Byte) (s : State) : VAns :=
  let k := le b 0 1
  if b.length != 16 || k == 0 || 128 ≤ k || 128 ≤ le b 1 1 || le b 2 2 != 0 || le b 8 8 != 0 then vErr 0x03 s
  else if !ownsSlot s q false k then vErr 0x04 s
  else if policyRefused s k (le b 1 1) then vErr 0x06 (raise 6 3 0x05 (det3 k (le b 1 1)) s)
  else ⟨none, [], pageQueue 5 (recPolicy k) b (vaultTag 0x03 q tag) s⟩

/-- SET_POLICY (R247). -/
def execSetPolicy (principal : Nat) (tag : Nat) (payload : List Byte) (s : State) : Res :=
  .next (vaultRun 0x03 (vSetPolicy tag) principal tag payload s)

/-- R246, R389: GET_POLICY: the record in force, with the recorded KCV. -/
def vGetPolicy (_ : Nat) (b : List Byte) (s : State) : VAns :=
  let k := le b 0 1
  if b.length != 4 || 128 ≤ k || le b 1 3 != 0 then vErr 0x03 s
  else
    let p := tget policy0 s.cry.policy k
    vOut ([BitVec.ofNat 8 k, policyFlags s k] ++ zeros 2 ++ toLE 4 (if k != 0 && p.kcvSet then p.kcv.toNat else 0) ++ zeros 8) s

/-- GET_POLICY (R389). -/
def execGetPolicy (principal : Nat) (tag : Nat) (payload : List Byte) (s : State) : Res :=
  .next (vaultRun 0x04 vGetPolicy principal tag payload s)

/-! The sealed window and the tree (R276, R282, R283). -/

/-- R276: take the n tree folios, with their shelf indices. -/
def treeTake : Nat → State → State
  | 0, s => s
  | n + 1, s =>
    let s := treeTake n s
    match allocPick s with
    | none => s
    | some m =>
      (takeFolio m 5 (s.board.folios / 64 + n) s).modLed fun l => { l with treeDir := l.treeDir ++ [m] }

/-- R261: counter blocks that leave or enter the window keep a hallmark under their parent there. -/
def rehallmark (p : Nat → Bool) (s : State) : State :=
  s.modCry fun c => { c with
    media := c.media.map fun e =>
      if p e.1 then (e.1, { e.2 with hallmark := shelfMac s 3 e.1 0 (blockParent s e.1) (ctrBits e.2) 200 }) else e
    cache := c.cache.map fun e =>
      if p e.2.block then
        let h := shelfMac s 3 e.2.block 0 (blockParent s e.2.block) (ctrBits e.2.ctr) 200
        (e.1, { e.2 with ctr := { e.2.ctr with hallmark := h } })
      else e }

/-- R276: the window is set: an enabled window starts an empty tree, and takes its folios the first time. -/
def windowPut (v : Nat) (s : State) : State :=
  let old := s.cry.sealedCfg
  let was (b : Nat) : Bool := old.getLsbD 5 && b / 2 ^ 26 == old.toNat % 32
  let s := if bit v 5 && s.led.treeDir.isEmpty then treeTake 265 s else s
  let s := s.modCry fun c => { c with sealedCfg := BitVec.ofNat 6 v }
  let s := if s.cry.sealedCfg == old then s
    else rehallmark was (s.modCry fun c => { c with tree := [], treeMedia := [], root := [], rootPend := none, faults := [] })
  recordQueue recWindow s

/-- R276, R389: SEALED_WINDOW. -/
def vSealedWindow (q : Nat) (b : List Byte) (s : State) : VAns :=
  let v := le b 0 1
  if b.length != 4 || 64 ≤ v || le b 1 3 != 0 then vErr 0x03 s
  else if q != 0 then vErr 0x04 s
  else if v == s.cry.sealedCfg.toNat then vOk s
  else
    let refuse : Bool :=
      (sealedOn s && s.led.entries.any fun e => e.2.sealed_) ||
        (bit v 5 && (!sealAllowed s || (s.led.treeDir.isEmpty && reserveLeft s < floorF s + 265)))
    if refuse then vErr 0x06 (raise 6 3 0x05 (det3 v 0) s) else vOk (windowPut v s)

/-- SEALED_WINDOW (R276). -/
def execSealedWindow (principal : Nat) (tag : Nat) (payload : List Byte) (s : State) : Res :=
  .next (vaultRun 0x05 vSealedWindow principal tag payload s)

/-- R283, R389: TREE_ACTION: a faulted node is resealed or discarded in the background. -/
def vTreeAction (q : Nat) (b : List Byte) (s : State) : VAns :=
  let act := le b 0 1
  let level := le b 1 1
  let n := le b 4 4
  if b.length != 8 || act == 0 || 2 < act || level == 0 || 6 < level || le b 2 2 != 0 then vErr 0x03 s
  else if q != 0 then vErr 0x04 s
  else if s.cry.treeJob.isSome then vErr 0x09 s
  else if !(if level == 6 then s.cry.faults.any fun f => f.1 == 6 else nodeFaulted s level n) then vErr 0x06 s
  else vOk (s.modCry fun c => { c with treeJob := some (act, level, n) })

/-- RESEAL (R283): TREE_ACTION with action 0x01. -/
def execResealNode (principal : Nat) (tag : Nat) (payload : List Byte) (s : State) : Res :=
  .next (vaultRun 0x06 vTreeAction principal tag (withAction 1 payload) s)

/-- DISCARD (R283): TREE_ACTION with action 0x02. -/
def execDiscardNode (principal : Nat) (tag : Nat) (payload : List Byte) (s : State) : Res :=
  .next (vaultRun 0x06 vTreeAction principal tag (withAction 2 payload) s)

/-- The window-relative index w lies beneath a node. -/
def beneath (level n w : Nat) : Bool := level == 6 || w / 32 ^ level == n

/-- R283: blocks beneath a node that are written, or whose parent counter is not zero. -/
def treeBlocks (s : State) (level n : Nat) : List Nat :=
  let base := s.cry.sealedCfg.toNat % 32 * 2 ^ 26
  let mine (b : Nat) : Bool := b / 2 ^ 26 == base / 2 ^ 26 && beneath level n (wIndex b)
  let stored := (s.cry.media.map (·.1)) ++ (s.cry.cache.map (·.2.block)) ++ s.cry.lostBlocks
  let counted := (s.cry.tree ++ s.cry.treeMedia).flatMap fun e =>
    if e.1 / 2 ^ 32 == 1 then e.2.ctrs.map fun c => base + e.1 % 2 ^ 32 * 32 + c.1 else []
  ((stored ++ counted).filter mine).dedup

/-- R283: nodes at or beneath a node, of one level, that are written. -/
def treeNodes (s : State) (level n at_ : Nat) : List Nat :=
  ((s.cry.tree ++ s.cry.treeMedia).filterMap fun e =>
    if e.1 / 2 ^ 32 == at_ && e.2 != { node0 with cached := true } && (level == 6 || e.1 % 2 ^ 32 / 32 ^ (level - at_) == n) then some (e.1 % 2 ^ 32) else none).dedup

/-- R283: MACs of a block beneath a node recomputed under a fresh parent counter. -/
def blockReseal (b : Nat) (s : State) : State :=
  let v := tget cc0 s.cry.cache (b % max 1 (sc s))
  let c := if v.valid && v.block == b then v.ctr else tget ctr0 s.cry.media b
  let s := parentBump 0 (wIndex b) s
  let c := { c with hallmark := shelfMac s 3 b 0 (blockParent s b) (ctrBits c) 200 }
  s.modCry fun y => { y with
    media := tput ctr0 y.media b c
    cache := y.cache.map fun e => if e.2.valid && e.2.block == b then (e.1, { e.2 with ctr := c }) else e
    lostBlocks := y.lostBlocks.filter (· != b) }

/-- R283: the MACs of the subtree recomputed from the bottom up, and the marks beneath the node cleared. -/
def subtreeRebuild (level n : Nat) (s : State) : State :=
  let s := forEach (([1, 2, 3, 4, 5] : List Nat).filter (· ≤ level)) (fun l s => forEach (treeNodes s level n l) (nodeWrite l) s) s
  s.modCry fun c => { c with treeJob := none
                             faults := c.faults.filter fun f => !(level == 6 || (f.1 ≤ level && f.2 / 32 ^ (level - f.1) == n)) }

/-- TREE_RESEALED (R283). -/
def execTreeResealed (s : State) : Res :=
  match s.cry.treeJob with
  | some (1, level, n) =>
    let s := forEach (treeBlocks s level n) blockReseal s
    .next (raise 6 2 0x03 (det3 n level) (subtreeRebuild level n s))
  | _ => .next s

/-- R283: every counter block beneath a node, in ascending order. -/
def allBlocks (s : State) (level n : Nat) : List Nat :=
  let base := s.cry.sealedCfg.toNat % 32 * 2 ^ 26
  if level == 6 then (List.range (2 ^ 26)).map (base + ·) else (List.range (32 ^ level)).map fun i => base + n * 32 ^ level + i

/-- R265, R283: a block beneath a discarded node is reinitialised, under a fresh parent counter. -/
def blockDiscard (b : Nat) (s : State) : State :=
  let s := s.modCry fun y => { y with cache := y.cache.filter fun e => e.2.block != b }
  match ctrReinit b s with
  | (none, s) => blockReseal b s
  | (some c, s) => blockReseal b (s.modCry fun y => { y with media := tput ctr0 y.media b c })

/-- TREE_DISCARDED (R283): every folio beneath is instant-zeroed, and every block reinitialised. -/
def execTreeDiscarded (s : State) : Res :=
  match s.cry.treeJob with
  | some (2, level, n) =>
    let fs := (s.led.entries.filter fun e => provisioned e.2 && inWindow s (e.1 * 8192) &&
      beneath level n (wIndex (e.1 * 128))).map (·.1)
    let s := jAppend (fs.map fun f => jZero s f .blankMapped) s
    let s := forEach (allBlocks s level n) blockDiscard s
    .next (raise 6 2 0x04 (det3 n level) (subtreeRebuild level n s))
  | _ => .next s

/-! Protected passbook ranges (R455, R456). -/

/-- R456: a protected write is refused. -/
def protectRefused (p : Nat) (s : State) : State := raise 8 3 0x05 (det3 p 0) s

/-- R455: PB_PROTECTED_WRITE: one page write, which answers the request. -/
def vProtectedWrite (tag : Nat) (q : Nat) (b : List Byte) (s : State) : VAns :=
  let off := le b 0 4
  let n := le b 4 2
  if b.length < 8 || n < 4 || 256 < n || n % 4 != 0 || le b 6 2 != 0 || b.length != 8 + n || off % 4 != 0 || 0x10000 ≤ off then vErr 0x03 s
  else
    let w : PageWrite := { cls := 5, addr := rangeBase q + off, data := b.drop 8, principal := 0 }
    if bpBlocks s q w then vErr 0x05 (protectRefused q s)
    else ⟨none, [], pageQueue 5 w.addr w.data (vaultTag 0x07 q tag) s⟩

/-- PB_PROTECTED_WRITE (R455). -/
def execPbProtectedWrite (principal : Nat) (tag : Nat) (payload : List Byte) (s : State) : Res :=
  .next (vaultRun 0x07 (vProtectedWrite tag) principal tag payload s)

/-- R455: PB_PROTECTED_READ. -/
def vProtectedRead (q : Nat) (b : List Byte) (s : State) : VAns :=
  let off := le b 0 4
  let n := le b 4 2
  if b.length != 8 || n < 4 || 1024 < n || n % 4 != 0 || le b 6 2 != 0 || off % 4 != 0 || 0x10000 < off + n then vErr 0x03 s
  else vOut ((List.range n).map fun i => tget 0 s.pb.ranges (rangeBase q + off + i)) s

/-- PB_PROTECTED_READ (R455). -/
def execPbProtectedRead (principal : Nat) (tag : Nat) (payload : List Byte) (s : State) : Res :=
  .next (vaultRun 0x08 vProtectedRead principal tag payload s)

/-- R460: queued writes to a range that its new setting protects are answered LOCKED. -/
def bpRecheck (p : Nat) (s : State) : State :=
  let hit := s.pb.writes.filter fun w => w.principal / 256 == 0x07 && (w.principal - 1) % 8 == p && bpBlocks s p w
  let s := s.modPb fun y => { y with writes := y.writes.filter fun w => !hit.contains w }
  forEach hit (fun w s => vaultAnswer w.principal 0x05 (protectRefused p s)) s

/-- R456: PB_BLOCK_PROTECT. -/
def vBlockProtect (q : Nat) (b : List Byte) (s : State) : VAns :=
  let p := le b 0 1
  let v := le b 1 1
  if b.length != 4 || 8 ≤ p || 4 ≤ v || le b 2 2 != 0 then vErr 0x03 s
  else if q != 0 then vErr 0x04 s
  else if (pageAt s 0).lock then vErr 0x05 s
  else
    let old := tget 0 s.pb.bp p
    if v < old && s.ctl.life != .manufacture && s.ctl.life != .debugUnlocked then vErr 0x07 s
    else if v == old then vOk s
    else
      let s := bpRecheck p (s.modPb fun y => { y with bp := tput 0 y.bp p v })
      vOk (raise 8 3 0x04 (det3 p v) (pageQueue 5 (recWindow + 0x100) (zeros 4) 0 s))

/-- PB_BLOCK_PROTECT (R456). -/
def execPbBlockProtect (principal : Nat) (tag : Nat) (payload : List Byte) (s : State) : Res :=
  .next (vaultRun 0x09 vBlockProtect principal tag payload s)

/-! Lifecycle and debug unlock (R390, R391). -/

/-- R390: the code of a lifecycle state. -/
def lifeCode : Life → Nat
  | .manufacture => 0
  | .provisioned => 1
  | .debugUnlocked => 2
  | .rma => 3

/-- R379: the 8 bytes of Get Lifecycle State. -/
def lifeBytes (s : State) : List Byte := [BitVec.ofNat 8 (lifeCode s.ctl.life), BitVec.ofNat 8 (b2n s.ctl.lockout)] ++ zeros 6

/-- An opcode of principal 0 with an input length. -/
def p0Only (len : Nat) (body : List Byte → State → VAns) (q : Nat) (b : List Byte) (s : State) : VAns :=
  if b.length != len then vErr 0x03 s else if q != 0 then vErr 0x04 s else body b s

/-- GET_LIFECYCLE (R389). -/
def execGetLifecycle (principal : Nat) (tag : Nat) (payload : List Byte) (s : State) : Res :=
  .next (vaultRun 0x10 (fun _ b s => if b.isEmpty then vOut (lifeBytes s) s else vErr 0x03 s) principal tag payload s)

/-- R391: DEBUG_CHALLENGE: a fresh nonce and the serial number. -/
def vChallenge (_ : List Byte) (s : State) : VAns :=
  if s.ctl.lockout then vErr 0x07 s
  else
    let (n, s) := takeRandom s
    vOut (toLE 32 n.toNat ++ toLE 8 s.board.serial.toNat) (s.modCtl fun c => { c with nonce := some (s.clock, n) })

/-- DEBUG_CHALLENGE (R391). -/
def execDebugChallenge (principal : Nat) (tag : Nat) (payload : List Byte) (s : State) : Res :=
  .next (vaultRun 0x11 (p0Only 0 vChallenge) principal tag payload s)

/-- R391: a signature over the outstanding challenge, which is used up; none where it does not verify: AUTH_FAIL, the
third of which locks debug out. -/
def authCheck (sig : List Byte) (s : State) : Option State × State :=
  let good :=
    match s.ctl.nonce with
    | some (t, n) => s.clock ≤ 60000000000 + t && Config.ecdsaOk 1 (toLE 32 n.toNat ++ toLE 8 s.board.serial.toNat) sig
    | none => false
  let s := s.modCtl fun c => { c with nonce := none }
  if good then (some s, s)
  else
    let s := s.modCtl fun c => { c with authFails := c.authFails + 1 }
    if s.ctl.authFails == 3 then (none, raise 8 2 0x03 det0 (s.modCtl fun c => { c with lockout := true })) else (none, s)

/-- R390: entry to DEBUG_UNLOCKED: every domain key but the house's and every package key are unloaded. -/
def debugEnter (s : State) : State :=
  let s := forEach (List.range 128) domUnload (forEach (List.range 64) pkgUnload s)
  let s := tallyAdvance 4 (tallyVal s 4 + 1) (s.modCtl fun c => { c with life := .debugUnlocked })
  raise 8 2 0x02 det0 s

/-- R391: DEBUG_RESPONSE. -/
def vDebugResponse (b : List Byte) (s : State) : VAns :=
  if s.ctl.life != .provisioned then vErr 0x07 s
  else
    match authCheck b s with
    | (none, s) => vErr 0x08 s
    | (some s, _) => vOk (debugEnter s)

/-- DEBUG_RESPONSE (R391). -/
def execDebugResponse (principal : Nat) (tag : Nat) (payload : List Byte) (s : State) : Res :=
  .next (vaultRun 0x12 (p0Only 96 vDebugResponse) principal tag payload s)

/-- R390, R391: DEBUG_UNLOCKED ends; the debug access mode returns to OFF. -/
def debugLeave (s : State) : State :=
  if s.ctl.life != .debugUnlocked then s
  else (s.modCtl fun c => { c with life := .provisioned, authDigest := none }).modCry fun c => { c with dbgMode := 0, dbgSeen := false }

/-- DEBUG_LOCK (R391). -/
def execDebugLock (principal : Nat) (tag : Nat) (payload : List Byte) (s : State) : Res :=
  .next (vaultRun 0x13 (p0Only 0 fun _ s => if s.ctl.life != .debugUnlocked then vErr 0x07 s else vOk (debugLeave s))
    principal tag payload s)

/-- R390, R391: ENTER_RMA: permanent; the device's data is unreadable and memory active is never reported. -/
def vEnterRma (b : List Byte) (s : State) : VAns :=
  if s.ctl.life == .rma then vErr 0x07 s
  else
    match authCheck b s with
    | (none, s) => vErr 0x08 s
    | (some s, _) =>
      let s := (s.modCtl fun c => { c with life := .rma }).modLed fun l => { l with memActive := false }
      vOk (raise 8 2 0x04 det0 (derivedDrop (fun _ => true) s))

/-- ENTER_RMA (R390). -/
def execEnterRma (principal : Nat) (tag : Nat) (payload : List Byte) (s : State) : Res :=
  .next (vaultRun 0x14 (p0Only 96 vEnterRma) principal tag payload s)

/-- AUTHORISE_IMAGE (R389): in DEBUG_UNLOCKED only. -/
def execAuthoriseImage (principal : Nat) (tag : Nat) (payload : List Byte) (s : State) : Res :=
  .next (vaultRun 0x15 (p0Only 48 fun b s =>
    if s.ctl.life != .debugUnlocked then vErr 0x07 s
    else vOk (s.modCtl fun c => { c with authDigest := some (BitVec.ofNat 384 (le b 0 48)) })) principal tag payload s)

/-- ICE_LOADEDn (R284): bit i for key ID 32n + i. -/
def iceLoaded (s : State) (n : Nat) : Nat :=
  (List.range 32).foldl (fun a i => a + b2n (domKey s (32 * n + i)).isSome * 2 ^ i) 0

/-- ICE_PKG_LOADEDn (R303). -/
def pkgLoaded (s : State) (n : Nat) : Nat :=
  (List.range 32).foldl (fun a i => a + b2n (pkgSlotOf s (32 * n + i)).loaded * 2 ^ i) 0

/-- GET_STATUS (R389). -/
def execGetStatus (principal : Nat) (tag : Nat) (payload : List Byte) (s : State) : Res :=
  .next (vaultRun 0x20 (fun _ b s =>
    if !b.isEmpty then vErr 0x03 s
    else vOut ([0, 1, 2, 3].flatMap (fun n => toLE 4 (iceLoaded s n)) ++ [0, 1].flatMap (fun n => toLE 4 (pkgLoaded s n)) ++
      [BitVec.ofNat 8 (lifeCode s.ctl.life)]) s) principal tag payload s)

/-! The port (R387, R388). -/

/-- R387, R388: a request whose CRC fails is answered FRAME_ERROR, and one with a bad first byte discarded; both are
raised. A good one with a reserved bit set in its header is answered INVALID_FIELD and has no effect (R26). A request that
ends early, or another good one, is not this event. -/
def frameErrorOp (bs : List Byte) (s : State) : State :=
  match bs with
  | [] => s
  | c :: _ =>
    if c == 0 then s
    else if s.ctl.vaultResp.isSome then vaultFlush s
    else if c != 0x5A then raise 8 2 0x01 det0 s
    else
      let n := 6 + le bs 4 2
      if bs.length < n + 2 then s
      else if le bs n 2 == (crc16 (bs.take n)).toNat then
        (if 64 ≤ le bs 1 1 || le bs 3 1 != 0 then vaultRespond (le bs 1 1 % 64) (le bs 2 1 % 8) (le bs 2 1 / 8) 0x03 [] s else s)
      else vaultRespond 0 0 0 0x02 [] (raise 8 2 0x01 det0 s)

/-- FRAME_ERROR (R387, R388). -/
def execFrameError (bytes : List Byte) (s : State) : Res := .next (frameErrorOp bytes s)

/-- REQUEST_FLUSHED (R388). -/
def execRequestFlushed (bytes : List Byte) (s : State) : Res :=
  .next (if s.ctl.vaultResp.isSome && bytes.head? != none && bytes.head? != some 0 then vaultFlush s else s)

/-- VAULT_RESPONSE_READ (R388): after a whole read the response goes, and one that became ready since follows. -/
def execVaultResponseRead (whole : Bool) (s : State) : Res :=
  .next (if whole then s.modCtl fun c => { c with vaultResp := c.vaultNext.head?, vaultNext := c.vaultNext.drop 1 } else s)

/-! Debug access (R253). -/

/-- R390: JTAG takes every instruction. -/
def jtagOpen (s : State) : Bool := s.ctl.life != .provisioned

/-- DEBUG_MODE_SELECT (R253): the reserved mode is not taken. -/
def execDebugModeSelect (mode : BitVec 2) (s : State) : Res :=
  .next (if jtagOpen s && mode != 3 && mode != s.cry.dbgMode then
    s.modCry fun c => { c with dbgMode := mode, dbgSeen := false } else s)

/-- The stored ciphertext and hallmark of a line, in the till, the purse or on media. -/
def storedLine (s : State) (l : Nat) : Line × BitVec 64 :=
  match cachedLine s l with
  | some p => (p.data, p.hallmark)
  | none =>
    let e := ent s (folioOf l)
    if e.media == noFolio then (0, 0)
    else
      let x := mline s (lineKey e.media (l % 8192))
      (x.data, x.hallmark)

/-- R253: the mode that a debug access to a key ID acts in: PLAIN only in DEBUG_UNLOCKED under DEBUG_OK. -/
def debugModeFor (s : State) (key : Nat) : BitVec 2 :=
  if s.cry.dbgMode == 2 && !(s.ctl.life == .debugUnlocked && (policyFlags s key).getLsbD 6) then 1 else s.cry.dbgMode

/-- R253: a PLAIN debug access acts as a host access of a sector. -/
def debugPlain (g : Target) (wdata : Option Sector) (s : State) : State :=
  let l := g.dpa / 256
  let i := g.dpa / 64 % 4
  match wdata with
  | none =>
    let (r, s) := readReady g.key l [i] s
    if !r then s
    else
      let (xs, s) := moverRead g.key l [i] (ringSnoop (some 8) false l s)
      send (.jtag ((xs.map secOr0).foldl (fun a d => a ||| d.setWidth 2048) 0) 0) s
  | some d =>
    let (w, s) := writeReady l [i] s
    if !w || mustForward s l then s
    else if writeLost s l then discardNote l g.key s
    else
      let (b, s) := takeBase .mover l (ringSnoop (some 8) true l s)
      (writeNow l g.key b { sector := i, data := d, en := BitVec.allOnes 64, poison := false } true s).2

/-- DEBUG_ACCESS (R253, R43, R248); a read that R43 or R249 refuses answers as one in mode OFF does, all ones (DESIGN CHOICE, log entry
103). -/
def execDebugAccess (hpa : BitVec 64) (wdata : Option Sector) (s : State) : Res :=
  if !jtagOpen s then .next s
  else
    match (decodeHpa s .a hpa.toNat).filter fun g => !g.sbox && g.inside with
    | none => .next s
    | some g =>
      let l := g.dpa / 256
      let s := if s.cry.dbgSeen then s
        else raise 6 4 0x01 (det1 g.dpa g.key 0 s.cry.dbgMode.toNat) (s.modCry fun c => { c with dbgSeen := true })
      let s := rbit s 0x300000 13
      let ones (s : State) : State := if wdata.isSome then s else send (.jtag (BitVec.allOnes 2048) (BitVec.allOnes 64)) s
      if s.cry.dbgMode == 0 then .next (ones s)
      else if !provisioned (ent s (folioOf l)) then
        .next (ones (if wdata.isSome then raise 5 5 0x01 (det1 g.dpa g.key 0 0) s else raiseMs 5 5 0x02 (det1 g.dpa g.key 0 0) s))
      else
        match accessCheck s g.key none (ent s (folioOf l)) with
        | some f => .next (ones (accessFault f g.dpa g.key wdata.isSome none s))
        | none =>
          if debugModeFor s g.key == 2 then .next (debugPlain g wdata s)
          else if wdata.isSome then .next s
          else .next (send (.jtag (storedLine s l).1 (storedLine s l).2) s)

/-! Counters and the mailbox commands of class 0xC3. -/

/-- ICE_CNT_CLEAR (R284, R303). -/
def regIceCntClear (_ : Head) (s : State) : Res :=
  .next (forEach ((List.range 6).map (fun k => 0x300040 + 4 * k) ++ (List.range 4).map (fun k => 0x300110 + 4 * k))
    (fun k s => rset s k 0) s)

/-- R379: the body of Get Domain Info. -/
def yGetDomainInfo : Body := fun _ b s =>
  let k := le b 0 1
  if 128 ≤ k || le b 1 3 != 0 then errAns rcInvalid s
  else
    let p := tget policy0 s.cry.policy k
    let owned := (s.led.entries.filter fun e => provisioned e.2 && e.2.key == k).length
    let sets := (s.esc.sets.filter fun e => e.2.state != .free && e.2.key == k).length
    okOut ([policyFlags s k, BitVec.ofNat 8 (b2n (domKey s k).isSome + 2 * b2n p.written)] ++ zeros 2 ++ toLE 4 owned ++
      toLE 4 (if k != 0 && p.kcvSet then p.kcv.toNat else 0) ++ toLE 4 sets) s

/-- GET_DOMAIN_INFO (R379). -/
def execGetDomainInfo (p : MbxPort) (payload : List Byte) (s : State) : Res := .next (yciRun 0xC300 yGetDomainInfo p payload s)

/-- GET_SEALED_WINDOW (R378): ICE_SEALED_CFG. -/
def execGetSealedWindow (p : MbxPort) (payload : List Byte) (s : State) : Res :=
  .next (yciRun 0xC301 (fun _ _ s => okOut (toLE 4 s.cry.sealedCfg.toNat) s) p payload s)

end Sys2Proof.Machine
end

