-- ==== Sys2Proof/Machine/Pair.lean ====
section
/-! DEFINITION. The correspondent pair (R394-R418): bring-up, mirroring, barriers, loss, time, forwarding, settlement and
the commands of class 0xC6. The packets of `Out.pairPkt` are numbered: 1 mirror entry, 2 settlement sector, 3 and 4
forwarded read and write, 5 settlement instant zero, 6 acknowledgement, 7 REFUSED, 8 and 9 forwarded read answered with
data and with poison, 10 forwarded write done, 11 heartbeat, 12 HELLO, 13 debt map, 14 time. -/

namespace Sys2Proof.Machine

/-- A packet of the pair link is sent (R397, R407). -/
def pairSend (kind arg : Nat) (d : Sector) (s : State) : State :=
  send (.pairPkt kind arg d) (s.modPair fun p => { p with lastTx := s.clock, packets := p.packets + 1 })

/-- A packet arrived (R407). -/
def pairHeard (s : State) : State := s.modPair fun p => { p with lastRx := s.clock }

/-- The pair mirrors: joined or settling. -/
def mirroring (s : State) : Bool := s.pair.state == .joined || s.pair.state == .settling

/-! Bring-up (R395-R397). -/

/-- R395 step 1: the PHY has trained; the policy of the bring-up is fixed (R415). -/
def pairPhyUp (s : State) : State :=
  if s.pair.stepFailedAt.isSome || s.clock < s.pair.refusedUntil || s.pair.step != .phy then s
  else pairHeard (s.modPair fun p => { p with step := .hello, state := .linking, linkReady := false, v2InForce := p.policy.getLsbD 4 })

/-- R395: a step of bring-up failed: the link returns to step 1 after 10 ms. -/
def pairStepFail (s : State) : State :=
  s.modPair fun p => { p with step := .phy, stepFailedAt := some s.clock }

/-- PAIR_LINK_RETRY (R395): 10 ms after a step failed, step 1 may begin again. -/
def execPairLinkRetry (s : State) : Res :=
  .next (match s.pair.stepFailedAt with
    | some t =>
      if pairMode s && 10000000 + t ≤ s.clock && s.pair.refusedUntil ≤ s.clock then
        s.modPair fun p => { p with stepFailedAt := none }
      else s
    | none => s)

/-- HELLO (R395 step 2, R396): the lower version runs, and version 1 runs at 32 GT/s. -/
def execHello (peer : PeerHello) (s : State) : Res :=
  if !pairMode s || s.pair.step != .hello then .next s
  else
    let v2 := 2 ≤ peer.version && s.pair.v2InForce
    let s := (pairHeard s).modPair fun p =>
      { p with step := .auth, v2 := v2, peerSerial := peer.serial, peerLife := peer.life, peerSource := peer.source }
    .next (pairSend 12 (b2n v2) 0 (if v2 then s else modPort .b (fun x => { x with rate := min x.rate 2 }) s))

/-- R397: the correspondent is acceptable. -/
def peerOk (chainOk : Bool) (s : State) : Bool :=
  chainOk && s.pair.peerLife.toNat == lifeCode s.ctl.life && (s.ctl.life == .provisioned || s.ctl.life == .debugUnlocked)

/-- PAIR_AUTHENTICATION (R395 step 3, R397): a session key, or the link refused for 1 s. `chainOk` says that the
correspondent's chain and signature verify. -/
def execPairAuthentication (chainOk : Bool) (s : State) : Res :=
  if !pairMode s || s.pair.step != .auth then .next s
  else if peerOk chainOk s then
    .next ((pairHeard s).modPair fun p => { p with step := .exchange, session := p.session + 1, packets := 0, tagFails := 0 })
  else
    let s := (pairStepFail s).modPair fun p => { p with refusedUntil := 1000000000 + s.clock }
    .next (raise 1 4 0x03 (det0.on .b) (modPort .b (fun x => { x with rate := 0, width := 0 }) s))

/-- R395 step 4: what follows the exchange of the maps: joined, settlement, or the wait for Start Settlement (R410,
R415). -/
def pairJoin (auto : Bool) (s : State) : State :=
  if (debtAll s).isEmpty && s.pair.debtPeer.isEmpty && !s.pair.splitCmd then
    barrierCheck (s.modPair fun p => { p with state := .joined })
  else if (s.pair.policy.getLsbD 1 || auto) && !s.pair.splitCmd then settleStart s
  else s.modPair fun p => { p with state := .solo, linkReady := true }

/-- DEBT_MAP_EXCHANGE (R395 step 4, R410): the maps are exchanged; repeated while the pair waits for Start Settlement. -/
def execDebtMapExchange (peer : PeerDebt) (s : State) : Res :=
  if !pairMode s || !s.led.memActive || !(s.pair.step == .exchange || s.pair.linkReady) then .next s
  else
    let first := s.pair.step == .exchange
    let s := (pairHeard s).modPair fun p =>
      { p with step := .up, debtPeer := (peer.exact ++ peer.coarse).dedup, peerExact := peer.exact, peerActive := peer.active,
               peerAuth := peer.authority }
    let s := pairSend 13 (debtAll s).length 0 s
    .next (if first then pairJoin peer.auto (raise 1 4 0x01 (det0.on .b) s) else s)

/-- SESSION_KEY_RENEWAL (R397): after 2^32 packets, without interrupting mirroring. -/
def execSessionKeyRenewal (s : State) : Res :=
  .next (if pairMode s && 2 ^ 32 ≤ s.pair.packets then
    pairHeard (s.modPair fun p => { p with session := p.session + 1, packets := 0 })
  else s)

/-- PAIR_TAG_FAIL (R397): a packet whose tag fails is dropped and replayed; the third in a row retrains the link. -/
def execPairTagFail (s : State) : Res :=
  .next (if pairMode s && (s.pair.step == .exchange || s.pair.step == .up) then
    if 2 ≤ s.pair.tagFails then
      modPort .b (fun x => { x with rate := 0 }) (s.modPair fun p => { p with tagFails := 0 })
    else s.modPair fun p => { p with tagFails := p.tagFails + 1 }
  else s)

/-! Mirroring (R398-R401). -/

/-- R65, R200, R274, R59, R15: a received write to a sector can be applied now; what it waits for is asked for. -/
def rxReady (l i : Nat) (s : State) : Bool × State :=
  if writeLost s l then (true, s)
  else if slotScanning s l || lineBusy s l || s.cry.recoins.contains (blockOf l) then (false, s)
  else if minorSpent s l then (false, recoinStart (blockOf l) s)
  else if (mustMeter s l || !s.pur.waitQ.isEmpty) && !inTill s l then (false, s)
  else if !canPlace s l then (false, s)
  else
    let (w, s) := moverSnoops true l [i] s
    if w then (false, s) else takeReady .mover true l s

/-- R400: a received write is applied at its home slice; false where R249, R43, R186 or R282 discards it. -/
def rxWrite (key sector : Nat) (d : Sector) (en : BitVec 64) (mirror : Bool) (s : State) : Bool × State :=
  let l := sector / 4
  let e := ent s (folioOf l)
  if writeLost s l then (false, discardNote l key s)
  else
    match accessCheck s key none e with
    | some fail => (false, accessFault fail (sector * 64) key true none s)
    | none =>
      let (b, s) := takeBase .mover l (ringSnoop none true l s)
      writeBy none l key b { sector := sector % 4, data := d, en := en, poison := false } mirror s

/-- R400, R44: the answer to a received write once it is persistent under its folio's acknowledge policy; `n` is the code
of `pair.rxLate`. -/
def rxAnswer (n l : Nat) (s : State) : State :=
  if lateFor s (ent s (folioOf l)) && inTill s l && !(s.led.overdraft.any fun e => e.1 == l) then
    s.modPair fun p => { p with rxLate := p.rxLate ++ [(n, waitLine l)] }
  else pairSend (if n % 2 == 0 then 6 else 10) (n / 2) 0 s

/-- R412, R414: a settlement sector was received: the folio is part-copied until its last one. -/
def rxSettle (e : MirrorMsg) (s : State) : State :=
  if !e.settle then s
  else
    let f := e.sector / 32768
    let s := if e.sector % 4 == 3 then bump 69 1 s else s
    if e.last then
      s.modPair fun p => { p with receiving := p.receiving.filter (· != f), peerLeft := p.peerLeft.filter (· != f),
                                  partCopied := p.partCopied.filter (· != f) }
    else s.modPair fun p => { p with receiving := if p.receiving.contains f then p.receiving else p.receiving ++ [f] }

/-- MIRROR_ENTRY (R400, R412): a mirror entry or settlement sector is applied and acknowledged, or REFUSED; one that must
wait (metered mode, a slice being reinitialised) is not taken yet. -/
def execMirrorEntry (e : MirrorMsg) (s : State) : Res :=
  if !pairMode s || !mirroring s then .next s
  else
    let l := e.sector / 4
    let (ready, s) := rxReady l (e.sector % 4) s
    if !ready then .next s
    else
      let (done, s) := rxWrite e.key e.sector e.data (BitVec.allOnes 64) false (pairHeard s)
      let s := rxSettle e (if done then rxAnswer (2 * e.seq) l s else pairSend 7 e.seq 0 s)
      .next (barrierCheck (settleDone s))

/-- SETTLEMENT_INSTANT_ZERO (R412, R184): the receiver zeroes the folio. -/
def execSettlementInstantZero (folio : Nat) (s : State) : Res :=
  if !pairMode s || s.pair.state != .settling then .next s
  else
    let s := pairHeard s
    let e := ent s folio
    let s := if !provisioned e then pairSend 7 folio 0 (raise 5 5 0x01 (det1 (folio * 2 ^ 21) e.key 0 0) s)
      else
        let st := if e.state == .escrow then FolioState.escrow else .blankMapped
        let blank := e.media == noFolio && (dirtyLinesOf s folio).isEmpty
        pairSend 6 folio 0 (if blank then s else jAppend [jZero s folio st] s)
    let s := s.modPair fun p => { p with receiving := p.receiving.filter (· != folio), peerLeft := p.peerLeft.filter (· != folio),
                                         partCopied := p.partCopied.filter (· != folio) }
    .next (barrierCheck (settleDone (bump 69 1 s)))

/-- R412: an entry of settlement is answered: the folio is settled once nothing of it is left. -/
def settleAnswered (e : MirrorEntry) (s : State) : State :=
  let f := e.sector / 32768
  if !e.settle || settlePending s f || s.pair.settleAt.any (fun x => x.1 == f) then s
  else settleDone (settleNext (settleGone f s))

/-- R407, R413: forwarded host accesses that were not answered complete: reads with poison, writes locally. -/
def forwardsHostLost (s : State) : State :=
  let lost (t : Txn) : Bool := match t.wait with | .forward _ => true | _ => false
  let reads := s.fe.txns.filter fun t => lost t && !t.write
  let s := s.modFe fun f => { f with txns := f.txns.filter fun t => !(lost t && !t.write) }
  let s := forEach reads (fun t s => readDone t (.error 0) [] s) s
  retryAfter (fun w => match w with | .forward _ => true | _ => false) s

/-- R413: a forwarded mover access that was not answered completes: a read poisoned, a write applied locally. -/
def forwardMoverLost (f : Fwd) (s : State) : State :=
  let s := if f.write then
      let (_, s) := rxWrite f.key f.sector f.data f.enables false s
      debtAdd (f.sector / 32768) s
    else s.modMov fun m => { m with fwdData := m.fwdData ++ [(f.sector, none)] }
  descDrop (· == waitFwd f.id) true s

/-- R414: a loss during settlement: part-copied folios are listed, and SETTLE_ABORT is raised. -/
def settleAbort (s : State) : State :=
  let n := s.pair.receiving.length
  let s := s.modPair fun p => { p with partCopied := (p.partCopied ++ p.receiving).dedup, receiving := [], peerLeft := [], settleAt := none }
  let s := raise 1 7 0x03 ((det3 n 0).on .b) (rbit s 0x500000 11)
  match s.pair.settleBy with
  | some p => bgFinish p rcInternal (s.modPair fun x => { x with settleBy := none })
  | none => s

/-- R407, R413, R414: the correspondent is declared lost; `result` resolves the open barrier. -/
def pairLostOp (result : Nat) (s : State) : State :=
  let settling := s.pair.state == .settling
  let un := (s.pair.mirror.map fun e => e.sector / 32768).dedup
  let fw := s.pair.fwds
  let s := s.modPair fun p =>
    { p with state := .solo, mirror := [], fwds := [], losses := p.losses + 1, linkReady := false, splitPlanned := false,
             rxLate := [], step := .phy, stepFailedAt := some s.clock, lockRun := 0, activeThrough := s.led.memActive,
             tagFails := 0 }
  let s := forEach un debtAdd s
  let s := if settling then settleAbort s else s
  let s := barrierResolve result s
  let s := forEach (fw.filter (·.mover)) forwardMoverLost (forwardsHostLost s)
  let s := if fw.isEmpty then s else raise 1 7 0x05 ((det3 fw.length 0).on .b) s
  let s := if s.pair.timeLocked then
      raise 1 6 0x02 (det0.on .b) (s.modPair fun p => { p with timeLocked := false })
    else s
  raise 1 4 0x02 (det0.on .b) (bump 71 1 (rbit s 0x500000 8))

/-- R415: a planned split declares loss once the mirror buffer is acknowledged, with RESULT 0x1. -/
def splitCheck (s : State) : State :=
  if s.pair.splitPlanned && s.pair.mirror.isEmpty && mirroring s then
    pairLostOp (if s.pair.barrier.any (·.refused) then localResult s else 1) s
  else s

/-- MIRROR_ACK (R399): the entry leaves the mirror buffer. -/
def execMirrorAck (seq : Nat) (s : State) : Res :=
  .next (match s.pair.mirror.find? fun e => e.seq == seq with
    | none => s
    | some e =>
      let s := bump 65 1 ((pairHeard s).modPair fun p => { p with mirror := p.mirror.erase e })
      splitCheck (barrierCheck (settleAnswered e s)))

/-- MIRROR_REFUSED (R400, R412): the folio enters the debt map, or stays in it as refused. -/
def execMirrorRefused (seq : Nat) (s : State) : Res :=
  .next (match s.pair.mirror.find? fun e => e.seq == seq with
    | none => s
    | some e =>
      let f := e.sector / 32768
      let s := (pairHeard s).modPair fun p =>
        { p with mirror := p.mirror.erase e,
                 refusedFolios := if p.refusedFolios.contains f then p.refusedFolios else p.refusedFolios ++ [f],
                 barrier := p.barrier.map fun b => if !e.settle && seq < b.upto then { b with refused := true } else b }
      let s := debtAdd f (bump 66 1 (rbit s 0x500000 9))
      let s := raise 1 5 0x01 ((det1 (e.sector * 64) e.key 0 0).on .b) s
      splitCheck (barrierCheck (settleDone (settleNext s))))

/-- PAIR_BARRIER (R404): a write of PAIR_BARRIER; it replaces an open barrier's token and covers what that covered. -/
def regPairBarrier (_h : Head) (value : BitVec 32) (s : State) : Res :=
  if !pairMode s then .next s
  else
    let old := s.pair.barrier
    let b : Barrier :=
      { token := value.setWidth 16, irq := value.getLsbD 16, upto := s.pair.mirrorNext, refused := old.any (·.refused),
        folios := if s.pair.state == .settling then s.pair.mirrored else [] }
    let s := s.modPair fun p => { p with barrier := some b }
    .next (if mirroring s then barrierCheck s else barrierResolve (localResult s) s)

/-! Loss and heartbeat (R407). -/

/-- HEARTBEAT (R407): sent after 10 µs without a packet. -/
def execHeartbeat (s : State) : Res :=
  .next (if pairMode s && s.pair.step == .up && 10000 + s.pair.lastTx ≤ s.clock then pairSend 11 0 0 s else s)

/-- PAIR_LOST (R407): no packet for 64 µs, or a retrain that failed; during bring-up, the step has failed (R395). -/
def execPairLost (s : State) : Res :=
  .next (if !pairMode s || !(64000 + s.pair.lastRx ≤ s.clock || s.fe.portB.rate == 0) then s
    else if mirroring s then pairLostOp (localResult s) s
    else if s.pair.step != .phy then (pairStepFail s).modPair fun p => { p with linkReady := false }
    else s)

/-! Time (R406). -/

/-- PAIR_TIME_SEND (R406): every 1 ms, the lead sends its mint time. -/
def execPairTimeSend (s : State) : Res :=
  .next (if pairMode s && s.pair.step == .up && s.tbs.source != 2 && 1000000 + s.pair.lastTime ≤ s.clock then
    pairSend 14 (mintNow s) 0 (s.modPair fun p => { p with lastTime := s.clock })
  else s)

/-- R406: TIME_LOCKED after an exchange with error E, under the residual of the version (R396). -/
def pairLockStep (e : Int) (s : State) : State :=
  let r := if s.pair.v2 then 5 else 20
  if e.natAbs ≤ r then
    let n := s.pair.lockRun + 1
    let s := s.modPair fun p => { p with lockRun := n }
    if 8 ≤ n && !s.pair.timeLocked then
      raise 1 6 0x01 ((det3 (mintNow s) 0).on .b) (s.modPair fun p => { p with timeLocked := true })
    else s
  else
    let s := s.modPair fun p => { p with lockRun := 0 }
    if 2 * r < e.natAbs && s.pair.timeLocked then
      raise 1 6 0x02 ((det3 (mintNow s) e.natAbs).on .b) (s.modPair fun p => { p with timeLocked := false })
    else s

/-- PAIR_TIME_EXCHANGE (R406): the follower takes E from the lead's time and half the round trip. -/
def execPairTimeExchange (lead : BitVec 64) (roundTrip : Nat) (s : State) : Res :=
  if !pairMode s || s.pair.step != .up || s.tbs.source != 2 || s.pair.peerSource == 2 then .next s
  else
    let e : Int := (lead + BitVec.ofNat 64 (roundTrip / 2) - s.tbs.mint).toInt
    let first := !s.tbs.set || s.tbs.resync
    let s := discipline e ((pairHeard s).modPair fun p => { p with timeErr := errWord e })
    if first then .next s
    else
      let s := if 1000000 < e.natAbs then raise 1 6 0x03 ((det3 (mintNow s) e.natAbs).on .b) (rbit s 0x500000 10) else s
      .next (pairLockStep e s)

/-! Forwarding (R413). -/

/-- FORWARDED_ACCESS (R413): the correspondent's access is served from this controller's copy; a write is mirrored back,
and answered as R44 gives. One that must wait is not taken yet. -/
def execForwardedAccess (f : ForwardMsg) (s : State) : Res :=
  if !pairMode s || s.pair.state != .settling then .next s
  else
    let l := f.sector / 4
    let i := f.sector % 4
    if f.write then
      let (ready, s) := rxReady l i s
      if !ready || !mirrorRoom s then .next s
      else
        let (_, s) := rxWrite f.key f.sector f.data f.enables true (pairHeard s)
        .next (rxAnswer (2 * f.id + 1) l s)
    else
      let (ready, s) := readReady f.key l [i] s
      if !ready then .next s
      else
        let s := pairHeard s
        match accessCheck s f.key none (ent s (folioOf l)) with
        | some fail => .next (pairSend 9 f.id 0 (accessFault fail (f.sector * 64) f.key false none s))
        | none =>
          if !provisioned (ent s (folioOf l)) then .next (pairSend 9 f.id 0 (raiseMs 5 5 0x02 (det1 (f.sector * 64) f.key 0 0) s))
          else
            let (b, s) := takeBase .mover l (countHostRead (folioOf l) (ringSnoop none false l s))
            .next (match readSector b i with
              | .ok d => pairSend 8 f.id d s
              | .error _ => pairSend 9 f.id 0 s)

/-- FORWARD_RESPONSE (R413): the answer completes the host or mover access; none is a poisoned read. -/
def execForwardResponse (id : Nat) (data : Option Sector) (s : State) : Res :=
  match s.pair.fwds.find? fun f => f.id == id with
  | none => .next s
  | some f =>
    let s := (pairHeard s).modPair fun p => { p with fwds := p.fwds.erase f }
    if f.mover then
      let s := if f.write then s else s.modMov fun m => { m with fwdData := m.fwdData ++ [(f.sector, data)] }
      .next (descDrop (· == waitFwd id) true s)
    else
      let done := s.fe.txns.filter fun t => t.wait == .forward id
      let s := s.modFe fun x => { x with txns := x.txns.filter fun t => t.wait != .forward id }
      let s := forEach done (fun t s =>
        if t.write then writeDone t s
        else readDone t (match data with | some d => .ok d | none => .error 0) [] s) s
      .next (retryWhere TxnWait.polled (retryLine none (f.sector / 4) s))

/-! The commands of class 0xC6 (R415) and the pair registers (R417). -/

/-- R417: PAIR_STATUS. -/
def pairStatus (s : State) : Nat :=
  (match s.pair.state with | .off => 0 | .linking => 1 | .joined => 2 | .solo => 3 | .settling => 4) +
    8 * b2n s.pair.v2 + 16 * b2n (pairMode s && timeLead s) + 32 * b2n s.pair.timeLocked + 64 * b2n s.pair.linkReady +
    rval s 0x500000

/-- R415: the body of Get Pair Status. -/
def yGetPairStatus : Body := fun _ _ s =>
  if !pairMode s then errAns rcInvalid s
  else okOut (toLE 4 (pairStatus s) ++ toLE 4 s.pair.policy.toNat ++ toLE 4 (debtAll s).length ++ toLE 4 s.pair.debtPeer.length ++
    toLE 4 s.pair.settled ++ toLE 4 s.pair.overwritten ++ toLE 4 s.pair.losses ++ toLE 4 s.pair.peerSerial.toNat) s

/-- GET_PAIR_STATUS (R415). -/
def execGetPairStatus (p : MbxPort) (payload : List Byte) (s : State) : Res :=
  .next (yciRun 0xC600 yGetPairStatus p payload s)

/-- R415: the body of Set Pair Policy: kept in the passbook, as parameter 0x0020. -/
def ySetPairPolicy : Body := fun _ b s =>
  if !pairMode s || 8 ≤ le b 0 1 || 2 < le b 1 1 || le b 2 2 != 0 then errAns rcInvalid s
  else
    let v := bits (le b 0 1) 0 2 + 4 * le b 1 1 + 16 * bits (le b 0 1) 2 1
    ok (paramQueue 0x20 v (s.modPair fun p => { p with policy := BitVec.ofNat 32 v }))

/-- SET_PAIR_POLICY (R415). -/
def execSetPairPolicy (p : MbxPort) (payload : List Byte) (s : State) : Res :=
  .next (yciRun 0xC601 ySetPairPolicy p payload s)

/-- R410, R414, R415: the body of Start Settlement: LINK_READY, or joined with refused folios to retry. -/
def yStartSettlement : Body := fun p _ s =>
  if !pairMode s then errAns rcInvalid s
  else if s.pair.state == .settling then errAns rcBusy s
  else if !s.pair.linkReady && !(s.pair.state == .joined && !s.pair.refusedFolios.isEmpty) then errAns rcInvalid s
  else
    let a := bgStart p 0xC602 0 0 (s.modPair fun x => { x with settleBy := some p })
    { a with st := settleStart a.st }

/-- START_SETTLEMENT (R410). -/
def execStartSettlement (p : MbxPort) (payload : List Byte) (s : State) : Res :=
  .next (yciRun 0xC602 yStartSettlement p payload s)

/-- R415: the body of Split Pair. -/
def ySplitPair : Body := fun _ b s =>
  let mode := le b 0 1
  if !pairMode s || le b 1 3 != 0 || (mode != 1 && mode != 2) then errAns rcInvalid s
  else if !mirroring s then ok (s.modPair fun p => { p with splitCmd := true })
  else
    let s := s.modPair fun p => { p with splitCmd := true, splitPlanned := p.splitPlanned || mode == 1 }
    ok (if mode == 1 then splitCheck s else pairLostOp (localResult s) s)

/-- SPLIT_PAIR_PLANNED (R415): Split Pair with MODE 0x1. -/
def execSplitPairPlanned (p : MbxPort) (payload : List Byte) (s : State) : Res :=
  .next (yciRun 0xC603 ySplitPair p (withAction 1 payload) s)

/-- SPLIT_PAIR_IMMEDIATE (R407, R415): Split Pair with MODE 0x2. -/
def execSplitPairImmediate (p : MbxPort) (payload : List Byte) (s : State) : Res :=
  .next (yciRun 0xC603 ySplitPair p (withAction 2 payload) s)

end Sys2Proof.Machine
end

