-- ==== Sys2Proof/Machine/Reset.lean ====
section
/-! DEFINITION. What a reset or a power loss keeps and drops: the level 2 reset of a head (R354), the level 3 device reset
(R48, R483, R486), the loss of the core supplies and the power-up (R486, R533), and the power-down drain (R210, R477). -/

namespace Sys2Proof.Machine

/-! The level 2 reset of a head (R353, R354). -/

/-- R354: a port after a level 2 reset of its head. A Function Level Reset (`flr`) leaves CXL.mem: its IDE stream, the
decoders and a flush that runs. The link itself and what the mailbox keeps across it stay. -/
def portReset (flr : Bool) (now : Nat) (p : Port) : Port :=
  { p with cfg := [], ptmEn := false, msixEn := false, msixMask := false, msix := [], pba := [],
           coal := p.coal.map fun e => (e.1, { e.2 with acc := 0, first := 0 }),
           mbx := Mailbox.init, cxl := Mailbox.init, cxlOut := [], sessions := 0, ideIo := false,
           ideMem := flr && p.ideMem, ideMemOnce := flr && p.ideMemOnce, gpf := if flr then p.gpf else 0,
           decoders := if flr then p.decoders else [],
           decoderErr := if flr then p.decoderErr else 0, resetAt := now }

/-- R354: GC_HDM_CFG of the head's decoders returns to its reset value; a Function Level Reset keeps that of a committed
decoder. -/
def hdmCfgReset (flr : Bool) (h : Head) (s : State) : State :=
  forEach (List.range 4) (fun n s =>
    if flr && (tget none (portOf s h).decoders n).isSome then s
    else rset s (0x100 + 4 * (n + 4 * headNo h)) (regReset 0x100)) s

/-- R354: the per-head registers of a head return to their reset values. -/
def headRegsReset (h : Head) (s : State) : State :=
  s.setRegs (s.regs.filter fun e => !(perHead (e.1 % 2 ^ 26) && (if h == .b then 2 ^ 26 ≤ e.1 else e.1 < 2 ^ 26)))

/-- R65: the metered queue without the transactions of a head: it holds the writes of the others that wait in it. -/
def waitQWithout (h : Head) (s : State) : List WaitLine :=
  (s.pur.waitQ.map fun x => { x with writes :=
    (s.fe.txns.filter fun t => t.head != h && t.write && t.by_ == .host && t.wait == .metered && t.lineNo == x.lineNo).map fun t =>
      { sector := t.sector, data := t.data, enables := t.enables, poison := t.poison } }).filter fun x => !x.writes.isEmpty

/-- R48, R354: the head's requests without a completion are not applied; what was merged stays in the till (R532). -/
def headTxnsDrop (h : Head) (s : State) : State :=
  let keeps (t : Txn) : Bool := t.head != h || t.by_ != .host
  let s := s.modPur fun u => { u with waitQ := waitQWithout h s }
  let s := s.modPair fun p => { p with fwds := p.fwds.filter fun f => f.mover || f.head != h }
  s.modFe fun f => { f with txns := f.txns.filter keeps }

/-- R354: a level 2 reset of a head, or its Function Level Reset; the other head and device memory are unaffected. The
head's snoop-filter holder bits stay until its snoops time out (R62, R362). -/
def headReset (flr : Bool) (h : Head) (s : State) : State :=
  let s := hdmCfgReset flr h (queuesDelete (fun q => q.head == h) s)
  let s := modPort h (portReset flr s.clock) (headRegsReset h s)
  let s := if flr then s else headTxnsDrop h s
  let s := if s.fe.portA.gpf == 2 || s.fe.portB.gpf == 2 then s else s.modPur fun u => { u with flushing := false }
  let s := reinitStart (.head h) s
  let s := s.modSup fun u => { u with fnBusy := u.fnBusy.filter fun f => f != .head h }
  admitWaiting (raise (headNo h) 0 0x06 (det0.on h) s)

/-- R353: a link goes down: GC_LINK shows it. -/
def linkOff (h : Head) (s : State) : State := modPort h (fun p => { p with rate := 0, width := 0, level := .pcie }) s

/-- R353, R364: a link that was up goes down: LINK_DOWN. -/
def linkDownNote (h : Head) (s : State) : State :=
  if (portOf s h).rate == 0 then s else raise (headNo h) 0 0x02 (det0.on h) (linkOff h s)

/-! Registers that a reset keeps (R6, R486). -/

/-- R454: the RWP registers, in the order of parameters 0x0010 to 0x0019. -/
def rwpOffs : List Nat :=
  [0x200008, 0x20000C, 0x200010, 0x200014, 0x280008, 0x28000C, 0x280010, 0x80010, 0x80104, 0x80120]

/-- R6: the domains that a level 3 reset resets: all but AON, MGT and TBS. -/
def dom3 (d : Nat) : Bool := d != domAON && d != domMGT && d != domTBS

/-- R6, R486: the stored registers after a level 3 reset: RWP registers are kept. -/
def regsAfter3 (t : Tab (BitVec 32)) : Tab (BitVec 32) :=
  t.filter fun e => !dom3 (domainOf (e.1 % 2 ^ 26)) || rwpOffs.contains e.1

/-- R166, R190, R204, R216: the reset value of a register that the population sets. -/
def boardReset (s : State) (off : Nat) : BitVec 32 :=
  if off == 0x80104 then BitVec.ofNat 32 (min 32 (bmaxUnits s))
  else if off == 0x280008 then BitVec.ofNat 32 (max 256 (mediaN s / 1024))
  else if off == 0x28000C then BitVec.ofNat 32 (wearRating s)
  else regReset off

/-- R6, R453: the RWP registers are reloaded from the passbook. -/
def rwpReload (s : State) : State :=
  forEach (rwpOffs.zip (List.range 10)) (fun e s =>
    match s.pb.params.find? fun x => x.1 == 0x10 + e.2 with
    | some x => rset s e.1 (x.2.setWidth 32)
    | none => rset s e.1 (boardReset s e.1)) s

/-! The till across a reset (R48). -/

/-- R48, R201: the eviction-buffer copies that no newer copy of their line supersedes. -/
def evbNewest : List EvLine → List EvLine
  | [] => []
  | x :: rest => if rest.any fun y => y.lineNo == x.lineNo then evbNewest rest else x :: evbNewest rest

/-- R48: the till as a level 3 reset keeps it: clean slots and copies that a newer eviction-buffer copy supersedes are
invalidated, issued lines are to be drained again, the waiting queue is empty, and the till drains after the restart. -/
def tillKeep (s : State) : State :=
  let s := s.modPur fun u =>
    { u with slots := (u.slots.filter fun e => e.2.dirty && !u.evb.any fun x => x.lineNo == e.2.quot * purseSlots s + e.1).map
               (fun e => (e.1, { e.2 with draining := false, op := 0 })),
             evb := (evbNewest u.evb).map fun x => { x with draining := false, op := 0 },
             waitQ := [], prefetchQ := [], flushing := occupancy s != 0, ageDue := false, lostSlots := [], swept := [],
             uncorrTimes := [], metered := false }
  let n := purseSlots s
  let s := forEach (s.pur.slots.filter fun e => !e.2.queued) (fun e s =>
    let l := e.2.quot * n + e.1
    ringAppend (expressFor s (ent s (folioOf l))) l e.2.gen6 (setSlot e.1 { e.2 with queued := true } s)) s
  meterUpdate s

/-- R213, R214: the strongbox is lost and cleared under a new key before memory active. A new size takes effect once the
till has drained under the old layout. -/
def sboxRestart (s : State) : State :=
  let g := sboxClamp s (rval s 0x80010 % 64)
  let (k, s) := takeRandom s
  s.modPur fun u => { u with sbox := [], sboxKey := k, sboxClearing := g != 0 || u.sboxAct != 0,
                             flushing := u.flushing || g != u.sboxAct }

/-- R20: the writes held for a domain that is reset are discarded, and nothing waits for it longer. -/
def heldDiscard (dom : Nat → Bool) (s : State) : State :=
  let s := heldLose dom s
  s.modIsl fun i => { i with waiting := i.waiting.filter fun w => !dom w.dom }

/-! The level 3 device reset (R48, R354, R483, R486). -/

/-- R483: a level 3 reset is not taken outside ON, during a power-down's drain or critical stop (R211, R362, R487), or
while one holds the device. -/
def resetTakes (s : State) : Bool := s.sup.state == .on && s.pur.drain == .none && !s.sup.tripped && s.sup.critStop.isNone

/-- R354: what a level 3 reset does before the islands are reset: LINK_DOWN of each link that is up and DEVICE_RESET reach
the daybook, and the tree's dirty nodes reach media (R280). -/
def reset3Begin (src : Nat) (s : State) : State :=
  let s := if pairMode s && mirroring s then pairLostOp (localResult s) s else s
  let s := linkDownNote .b (linkDownNote .a s)
  let s := raise 9 6 0x02 (det3 src 3) s
  let s := heldDiscard dom3 (treeFlush s)
  let s := forEach s.ev.inq ringTake s
  s.modEv fun e => { e with inq := [], episode := false }

/-- R169: the append in progress completes; the records behind it have not begun. -/
def appendsDrop (s : State) : State :=
  let s := match s.led.appends, s.led.appending with
    | r :: rest, true => recSweep (recNow s r) (appendLand (recNow s r) rest s)
    | _, _ => s
  s.modLed fun l => { l with appends := [], appending := false, journalFull := false }

/-- R133, R134: a rebuild that a reset or a loss of power interrupted goes on from the last chunk that the passbook records. -/
def rebuildResume (s : State) : State :=
  match s.pb.rebuildRec with
  | some (c, pos, chunk) => s.modInteg fun i => { i with rebuildCh := some c, rebuildPos := pos, rebuildChunk := chunk, rebuildAt := 0 }
  | none => s.modInteg fun i => { i with rebuildCh := none, rebuildPos := 0, rebuildChunk := 0, rebuildAt := 0 }

/-- R483, R486: media, ledger, integrity and coins across a level 3 reset. -/
def reset3Memory (s : State) : State :=
  let s := s.modMed fun m => { m with chans := [], groupMask := [], bcastDiff := 0, ops := [], taken := [], works := [], assays := [] }
  let s := rebuildResume (s.modInteg fun i => { i with rereads := [], patrolling := false, assay := false })
  let s := (appendsDrop s).modLed fun l =>
    { l with ckptActive := false, ckptQueued := false, scanActive := false, scanDone := false, scanReport := [0, 0, 0, 0],
             migs := [], blanking := [], memActive := false, recovered := false }
  (s.modCry fun c => { c with derived := [], recoins := [], tree := [], treeJob := none }).modEsc fun e => { e with index := [] }

/-- R354, R486: mover, ports, mailboxes and audit across a level 3 reset. -/
def reset3Front (s : State) : State :=
  let s := (queuesDelete (fun _ => true) s).modMov fun m =>
    { m with engines := [], chunks := [], pkgOut := [], pkgFails := [], fwdData := [], stopped := false }
  let port (p : Port) : Port := { (Port.init) with perstLow := p.perstLow, cxlTime := p.cxlTime, cxlTimeAt := p.cxlTimeAt,
                                                   shutdown := p.shutdown, alertCfg := p.alertCfg, resetAt := s.clock }
  let s := s.modFe fun f => { Front.reset with portA := port f.portA, portB := port f.portB, restartAt := s.clock }
  let s := s.modEv fun e =>
    { e with ctrs := [], wrapped := [], clearAt := none, snaps := [], snapSeq := 0, snapReqs := [], snapCopy := none,
             sampleBase := [], sampleK := [], histAct := [], histAt := [] }
  s.modCtl fun c => { c with board := Mailbox.init, boardFifo := [], fifoPart := tput 0 c.fifoPart 0 0,
                             fifoPkts := tput 0 c.fifoPkts 0 0, cpuUp := true, mbxBusyUntilCpu := false, rstPend := none }

/-- R385: the staged image that waits for a reset runs from it. -/
def fwAtResetRun (s : State) : State :=
  if s.ctl.fwAtReset then
    s.modCtl fun c => { c with fwAtReset := false, fwRunning := 1 - c.fwRunning, fwActivating := some s.clock }
  else s

/-- R483: a level 3 device reset, with its source (R489). Every island but AON, MGT and TBS is reset; the till is kept and
drains after restart; recovery runs again before memory active. `hold` keeps the device in reset until a release. TIL_PF_LAST, which
reports the drain before this power-on, is no capture of a fault and keeps its value (DESIGN CHOICE, log entry 90). -/
def deviceResetOp (src : Nat) (hold : Bool) (s : State) : State :=
  if !resetTakes s then s
  else
    let s := reset3Front (reset3Memory (tillKeep (reset3Begin src s)))
    let s := sboxRestart (s.setRegs (regsAfter3 s.regs))
    let s := s.modPur fun u => { u with ready := false, selfRefresh := hold, creditsHeld := false }
    let s := s.modIsl fun i => { i with on := BitVec.allOnes 18, latchLo := [] }
    let s := s.modPair fun p =>
      { p with state := if pairMode s then .linking else .off, step := .phy, stepFailedAt := none, activeThrough := false,
               settleAt := none, fwds := [], mirror := [], rxLate := [], barrierDone := 0, timeErr := 0, splitPlanned := false }
    let s := s.modSup fun u => { u with resets := satAdd 0xFF u.resets 1, level := 3, source := src, inReset := hold,
                                        fnFails := [], fnBusy := [] }
    fwAtResetRun (debugLeave s)

/-! The loss of the core's supplies (R462, R486). -/

/-- R142, R447: the folios that the passbook's scrub regions list, as known now. -/
def scrubListed (s : State) : List Nat := (liveFolios s).filter fun f => s.pb.scrubRegions.contains (f / 4096)

/-- R486: what the core keeps without power: media, passbook records, the repair map, the ledger structures on media, the
firmware slots and the fuses; everything else is at its reset value. Rows of VDD_AON's own island are not touched. -/
def coreOff (s : State) : State :=
  let scrub := scrubListed s
  let s := s.setRegs []
  let s := s.modIsl fun _ => { Islands.reset with on := 1 <<< domAON }
  let s := s.modMed fun m => { Media.reset with lines := m.lines, nextOp := m.nextOp }
  let s := s.modInteg fun i =>
    { Integrity.reset with scrub := scrub, failed := i.failed, subst := i.subst, repairs := i.repairs, torn := i.torn,
                           poisonList := i.poisonList, uncorrBy := i.uncorrBy, retireList := i.retireList }
  let s := rebuildResume s
  let s := s.modLed fun l =>
    { Ledger.reset with ckptDir := l.ckptDir, spillDir := l.spillDir, shelfDir := l.shelfDir, treeDir := l.treeDir,
                        reserveAtFormat := l.reserveAtFormat, ring := l.ring, seqNext := l.seqNext, copyA := l.copyA,
                        copyB := l.copyB, ckptSeq := l.ckptSeq, ckptNext := l.ckptNext, extents := l.extents,
                        spill := l.spill, highestWear := l.highestWear }
  let s := s.modPur fun u =>
    { Purse.reset with holdupOk := u.holdupOk, holdupSince := u.holdupSince, runMark := u.runMark, pfRecord := u.pfRecord }
  let s := s.modTbs fun t => { Timebase.reset with recorded := t.recorded }
  let s := (s.modSo fun _ => Orders.reset).modEsc fun e => { e with index := [] }
  let s := s.modCry fun c =>
    { Crypto.reset with policy := c.policy, media := c.media, staging := c.staging, lostBlocks := c.lostBlocks,
                        pagesRc := c.pagesRc, sealedCfg := c.sealedCfg, treeMedia := c.treeMedia, root := c.root,
                        rootPend := c.rootPend, random := c.random, free := c.free }
  let s := s.modMov fun _ => Mover.reset
  let s := s.modFe fun f =>
    { Front.reset with portA := { Port.init with perstLow := f.portA.perstLow, shutdown := f.portA.shutdown },
                       portB := { Port.init with perstLow := f.portB.perstLow, shutdown := f.portB.shutdown } }
  let s := s.modCtl fun c =>
    { Control.reset with fw0 := c.fw0, fw1 := c.fw1, fwRunning := c.fwRunning, fwAtReset := c.fwAtReset,
                         versions := c.versions, cpuUp := false,
                         life := if c.life == .debugUnlocked then .provisioned else c.life }
  let s := s.modPair fun p =>
    { Pair.reset with policy := p.policy, regions := p.regions, activeThrough := false }
  s.modEv fun e => { Events.reset with powerUps := e.powerUps, summary := e.summary, groupCnt := e.groupCnt,
                                       pfDrains := e.pfDrains, pfBad := e.pfBad }

/-- R431: the counts of the summary as the passbook holds them; those added since are lost. -/
def summaryLoad (s : State) : State :=
  match s.ev.summary with
  | [] => s.modEv fun e => { e with groupCnt := [], pfDrains := 0, pfBad := 0 }
  | xs => s.modEv fun e =>
    { e with groupCnt := (List.range 11).foldl (fun t g => tput 0 t g (xs.getD g 0)) [], powerUps := xs.getD 11 0,
             pfDrains := xs.getD 12 0, pfBad := xs.getD 13 0 }

/-- R533: how the last power-on ended, as TIL_PF_LAST reports it: a run mark with no record is a drain that did not
complete, of duration 0xFFFF. -/
def pfLastOf (s : State) : Nat × Bool := s.pur.pfRecord.getD (0xFFFF, false)

/-- R533, R46: the run mark of a power-on, with the report of the one before. -/
def runMarkWrite (s : State) : State :=
  let last := pfLastOf s
  let s := s.modPur fun u => { u with pfLast := last, pfRecord := none, runMark := true }
  let s := recordQueue recDrain s
  if last.2 then s else tallyAdvance 3 (tallyVal s 3 + 1) (rbit s 0x80100 16)

/-- R351, R486, R533: the core starts: the islands run, RWP registers and budget come from the passbook, the mint time from
its last record (R218), the strongbox is cleared under a new key (R214), and stamp-search mode begins (R140, R153). BUDGET_CLAMP is set
for a budget that was written (R204). -/
def corePowerUp (s : State) : State :=
  let s := rwpReload (s.modIsl fun i => { i with on := BitVec.allOnes 18 })
  let s := s.modTbs fun t => { t with mint := t.recorded.getD 0, recordedAt := (t.recorded.getD 0).toNat,
                                      unsetSince := (t.recorded.getD 0).toNat }
  let s := s.modPur fun u => { u with lateForced := holdupActs s }
  let (b, above) := clampBudget s (rval s 0x80104 % 128)
  let clamped := above && s.pb.params.any fun x => x.1 == 0x18
  let s := s.modPur fun u => { u with budget := b * 262144 }
  let s := if clamped then rbit s 0x80100 18 else s
  let g := sboxClamp s (rval s 0x80010 % 64)
  let (k, s) := takeRandom s
  let s := s.modPur fun u => { u with sboxAct := g, sboxKey := k, sboxClearing := g != 0, sbox := [] }
  let s := (s.modCtl fun c => { c with cpuUp := true }).modFe fun f => { f with restartAt := s.clock }
  let s := s.modPair fun p => { p with state := if pairMode s then .linking else .off }
  let s := s.modEv fun e => { e with powerUps := satAdd 0xFFFFFFFF e.powerUps 1 }
  fwAtResetRun (raise 4 2 0x01 det0 (runMarkWrite (s.modPb fun p => { p with tallySat := [] })))

/-! The power-down drain (R210, R477, R533). -/

/-- R477: what every power-down does first: credits are withheld, engines and standing orders stop, no journal operation
begins, and the migrations that have not begun their REMAP are abandoned (R182); `cause` is SUP_CAUSE.DOWN. -/
def drainStart (mode : DrainMode) (cause : Nat) (restart : Bool) (s : State) : State :=
  let s := s.modPur fun u => { u with creditsHeld := true, drain := mode, drainSince := s.clock }
  let s := forEach s.led.migs migStop (s.modInteg fun i => { i with torn := [] })
  let s := (s.modMov fun m => { m with stopped := true }).modSo fun o => { o with halted := true }
  s.modSup fun u => { u with down := cause, restartDue := restart }

/-- R210: a power-fail trip or a rail lost in service: the drain begins, the ports' PHYs go idle, the mover's queues are
gone (R317), and the regions of unacknowledged mirror entries are marked (R409). -/
def tripStart (cause : Nat) (s : State) : State :=
  let s := queuesDelete (fun _ => true) (drainStart .powerFail cause true s)
  let un := (s.pair.mirror.map fun e => e.sector / 32768).dedup
  let s := forEach un debtAdd (s.modPair fun p => { p with state := if pairMode s then .solo else .off, mirror := [], fwds := [] })
  let s := s.modPur fun u => { u with waitQ := [] }
  linkOff .b (linkOff .a (s.modFe fun f => { f with txns := [], present := [], staged := [] }))

/-- R186, R115, R178: a dirty line cannot be stored while the power lasts: its channel has failed, or it stays in the till. -/
def drainStuck (s : State) (l : Nat) : Bool :=
  s.led.lost || tillStays s l || ((ent s (folioOf l)).media != noFolio && channelFailed s l)

/-- R210, R533, R215: nothing is left that a power-down's drain can store, now or once a channel is up again, and no program is in
flight. -/
def drainIdle (s : State) : Bool :=
  s.pur.drain != .none && (drainPick (ringTrim s)).isNone && !(s.med.ops.any fun o => o.kind == .write) &&
    (s.pur.evb.all fun x => drainStuck s x.lineNo) &&
    s.pur.slots.all fun e => !(e.2.valid && e.2.dirty) || drainStuck s (e.2.quot * purseSlots s + e.1)

/-- R477: a cut-off drain lets each channel finish its programs in progress. -/
def drainFinish (s : State) : State := forEach (s.med.ops.filter fun o => o.kind == .write && o.sent) writeLanded s

/-- R185: the overdraft is written to the spill folios. -/
def overdraftSpill (s : State) : State :=
  let n := s.led.overdraft.length
  let s := forEach (List.range 32) (fun i s =>
    if n ≤ 8192 * i then s else wearPrograms (runAt s.led.spillDir i) (min 8192 (n - 8192 * i)) s) s
  s.modLed fun l => { l with spill := (l.spill.filter fun e => !l.overdraft.any fun x => x.1 == e.1) ++ l.overdraft }

/-- R210: dirty counter blocks follow their lines, and the tree's nodes follow them (R280). -/
def countersOut (s : State) : State :=
  let s := forEach (dirtyCtrs s) (fun c s => if recoinHeld s c.block then s else ctrClean c.block s) s
  treeFlush s

/-- R210, R482, R533: the passbook records at the end of a drain: the drain's record and mark, the mint time, the summary,
and the temperature history. -/
def drainRecords (complete : Bool) (s : State) : State :=
  let dur := min 0xFFFF ((s.clock - s.pur.drainSince) / 100000)
  let pf := s.pur.drain == .powerFail
  let s := s.modPur fun u => { u with pfRecord := some (dur, complete), runMark := !complete, drain := .none }
  let s := s.modTbs fun t => { t with recorded := some t.mint, recordedAt := t.mint.toNat }
  let s := s.modEv fun e => { e with pfDrains := satAdd 0xFFFFFFFF e.pfDrains (b2n pf),
                                     pfBad := satAdd 0xFFFFFFFF e.pfBad (b2n (pf && !complete)) }
  summaryWrite 1 (pageQueue 1 recDrain (zeros 8) 0 (pageQueue 1 recTime (zeros 8) 0 s))

/-- R210, R477: the drain ends; one that is cut off is raised as DRAIN_CUT and its record marked incomplete. A level 4
drain writes a checkpoint at its end (R172). -/
def drainEnd (cut : Bool) (s : State) : State :=
  let s := if cut then raise 9 2 0x02 (det3 (occupancy s) 0) (drainFinish s) else s
  let left := occupancy s != s.led.overdraft.length
  let s := overdraftSpill s
  let s := if cut then s else countersOut s
  let s := if s.pur.drain == .level4 && !cut && !s.sup.tripped && s.led.recovered && !s.led.lost then ckptNow (appendsDrop s) else appendsDrop s
  drainRecords (!cut && !left) s

end Sys2Proof.Machine
end

