-- ==== Sys2Proof/Machine/Ports.lean ====
section
/-! DEFINITION. The host ports (R334-R364): links and their levels, the resets of a head, HDM decoders, IDE, SPDM and DOE,
configuration requests and recovery. -/

namespace Sys2Proof.Machine

/-! Links (R334-R337). -/

/-- R363: the RATE code of a rate in GT/s. -/
def rateCode (gts : Nat) : Nat := if 64 ≤ gts then 3 else if 32 ≤ gts then 2 else if 16 ≤ gts then 1 else 4

/-- R334, R363: the width a link trains to, as its WIDTH code: 3 x16, 2 x8, 1 x4, 0 below. Port B has eight lanes. -/
def widthCode (h : Head) (lanes : Nat) : Nat :=
  match h with
  | .a => if 16 ≤ lanes then 3 else if 8 ≤ lanes then 2 else 0
  | .b => if 8 ≤ lanes then 2 else if 4 ≤ lanes then 1 else 0

/-- R334: the WIDTH code of the full width. -/
def fullWidth : Head → Nat
  | .a => 3
  | .b => 2

/-- R336: the rate in GT/s at which a link trains with a partner: 64 GT/s is not offered below CXL 3.x. -/
def rateWith (p : Partner) (gts : Nat) : Nat := if p == .cxl31 then gts else min gts 32

/-- R336: the level of a link that trained at a rate with a partner. -/
def levelWith (p : Partner) (gts : Nat) : LinkLevel :=
  if gts < 16 then .pcie
  else
    match p with
    | .pcie => .pcie
    | .cxl11 => .cxl11
    | .cxl20 => .cxl20
    | .cxl31 => if 64 ≤ gts then .cxl31 else .cxl20

/-- The links can train: ON, no reset holds the device, the port's PERST is high, and no power-down runs. -/
def linkMay (h : Head) (s : State) : Bool :=
  s.sup.state == .on && !s.sup.inReset && !(portOf s h).perstLow && !s.sup.tripped && s.pur.drain == .none &&
    (headPresent s h || (h == .b && pairMode s))

/-- R334, R336: a link trains. -/
def linkUpOp (h : Head) (gts lanes : Nat) (p : Partner) (s : State) : State :=
  let w := widthCode h lanes
  let g := rateWith p gts
  if w == 0 then raise (headNo h) 0 0x04 (det0.on h) s
  else
    let up := modPort h (fun x => { x with rate := rateCode g, width := w, level := levelWith p g }) s
    let s := raise (headNo h) 0 0x01 (det0.on h) up
    let s := if w < fullWidth h then raise (headNo h) 0 0x03 (det0.on h) s else s
    if memEnabled up h then s else raise (headNo h) 0 0x05 (det0.on h) s

/-- R395: the pair link trains; it carries no CXL level. -/
def pairLinkUp (gts lanes : Nat) (s : State) : State :=
  let w := widthCode .b lanes
  if w == 0 then raise 1 0 0x04 (det0.on .b) s
  else pairPhyUp (modPort .b (fun x => { x with rate := rateCode gts, width := w, level := .pcie }) s)

/-- LINK_UP (R336). A link that is up trains again only after it went down. -/
def execLinkUp (h : Head) (rate width : Nat) (partner : Partner) (s : State) : Res :=
  .next (if !linkMay h s || (portOf s h).rate != 0 then s
    else if headPresent s h then linkUpOp h rate width partner s
    else pairLinkUp rate width s)

/-- LINK_DOWN (R353): a level 2 reset of the head. The pair link's loss is declared by R407. -/
def execLinkDown (h : Head) (s : State) : Res :=
  .next (if (portOf s h).rate == 0 then s
    else if headPresent s h then headReset false h (linkDownNote h s)
    else linkOff h (if s.pair.state == .linking && s.pair.step != .phy then pairStepFail s else s))

/-- LINK_RECOVERY (R337, R353): level 1; a link at 32 or 16 GT/s may change its rate, and one below 16 GT/s is PCIe only. -/
def execLinkRecovery (h : Head) (rate : Nat) (s : State) : Res :=
  let p := portOf s h
  if p.rate == 0 || !headPresent s h then .next s
  else
    let s := bump (headCtr h + 10) 1 s
    if p.level == .cxl31 then .next s
    else
      let g := min rate 32
      let s := modPort h (fun x => { x with rate := rateCode g, level := if g < 16 then .pcie else x.level }) s
      .next (if g < 16 && p.level != .pcie then raise (headNo h) 0 0x05 (det0.on h) s else s)

/-! Resets of a head (R353, R354). -/

/-- HOT_RESET (R354). -/
def execHotReset (h : Head) (s : State) : Res :=
  .next (if (portOf s h).rate == 0 || !headPresent s h then s else headReset false h s)

/-- FUNCTION_LEVEL_RESET (R354). -/
def execFunctionLevelReset (h : Head) (s : State) : Res :=
  .next (if (portOf s h).rate == 0 || !headPresent s h then s else headReset true h s)

/-- R353: an assertion of a head's PERST with two heads: level 2 of the head, whose link goes down; level 3 while both are
low. -/
def perstTwo (h : Head) (s : State) : State :=
  if s.fe.portA.perstLow && s.fe.portB.perstLow then deviceResetOp 1 true s
  else if resetTakes s then headReset false h (linkDownNote h s)
  else s

/-- PERST_A_N (R353, R362). -/
def execPerstAN (s : State) : Res :=
  .next (if s.fe.portA.perstLow then s
    else
      let s := modPort .a (fun p => { p with perstLow := true }) s
      if twoHeads s then perstTwo .a s else deviceResetOp 1 true s)

/-- PERST_B_N (R353): no effect with a single head. -/
def execPerstBN (s : State) : Res :=
  .next (if s.fe.portB.perstLow then s
    else
      let s := modPort .b (fun p => { p with perstLow := true }) s
      if twoHeads s then perstTwo .b s else s)

/-- What holds the device in a level 3 reset (R353, R476). -/
def resetHeld (s : State) : Bool :=
  s.sup.mrLow || (s.fe.portA.perstLow && (!twoHeads s || s.fe.portB.perstLow))

/-- R351, R476: the reset ends once nothing holds it, and the restart begins. -/
def resetRelease (s : State) : State :=
  if s.sup.inReset && !resetHeld s then
    (s.modSup fun u => { u with inReset := false }).modFe fun f => { f with restartAt := s.clock }
  else s

/-- PERST_RELEASE (R351). -/
def execPerstRelease (h : Head) (s : State) : Res :=
  .next (resetRelease (modPort h (fun p => { p with perstLow := false }) s))

/-- CXL_RESET (R353): level 3; CXL 1.1 and PCIe links have no CXL Reset (R338). -/
def execCxlReset (h : Head) (s : State) : Res :=
  .next (match (portOf s h).level with
    | .cxl31 | .cxl20 => if headPresent s h then deviceResetOp 2 false s else s
    | _ => s)

/-! HDM decoders (R344-R347). -/

/-- R346: the DPA where the head's decoder before n ends: that of the nearest committed one. -/
def prevEnd (s : State) (h : Head) (n : Nat) : Nat :=
  ((portOf s h).decoders.filter fun e => e.1 < n).foldl (fun m e => e.2.elim m fun d => d.dpaBase + d.dpaSize) 0

/-- R346: the decoder that a commit asks for. -/
def decoderOf (s : State) (h : Head) (n : Nat) (r : DecoderReq) : Decoder :=
  let cfg := rval s (0x100 + 4 * (n + 4 * headNo h))
  let k := cfg % 64
  let base := prevEnd s h n + r.skip
  let sbox := 2 ^ 45 ≤ base
  let room := s.board.folios * 2 ^ 21 - base
  let given := bits cfg 8 18 * 2 ^ 28
  { base := r.base, size := r.size, ways := r.iw, gran := r.gran, target := r.target, kpos := k, dpaBase := base,
    dpaSize := if sbox then r.size / max r.iw 1 else if given == 0 then min (2 ^ k) room else given,
    bi := r.bi, sbox := sbox }

/-- R347: two DPA ranges overlap. -/
def dpaOverlap (x y : Decoder) : Bool := x.dpaBase < y.dpaBase + y.dpaSize && y.dpaBase < x.dpaBase + x.dpaSize

/-- R344: the DPA range lies wholly within one part. -/
def dpaPart (s : State) (d : Decoder) : Bool :=
  if d.sbox then d.dpaBase + d.dpaSize ≤ 2 ^ 45 + s.pur.sboxAct * 2 ^ 30
  else d.dpaBase + d.dpaSize ≤ s.board.folios * 2 ^ 21

/-- R347: the head's other decoders stand in ascending DPA order and overlap none. -/
def dpaOrder (s : State) (h : Head) (n : Nat) (d : Decoder) : Bool :=
  (portOf s h).decoders.all fun e =>
    match e.2 with
    | none => true
    | some x => if e.1 < n then x.dpaBase + x.dpaSize ≤ d.dpaBase else d.dpaBase + d.dpaSize ≤ x.dpaBase

/-- The other head. -/
def otherHead : Head → Head
  | .a => .b
  | .b => .a

/-- R57, R347: the range clashes with a committed decoder of the other head. -/
def dpaClash (s : State) (h : Head) (d : Decoder) : Bool :=
  let both := s.fe.portA.level == .cxl31 && s.fe.portB.level == .cxl31
  (portOf s (otherHead h)).decoders.any fun e =>
    match e.2 with
    | none => false
    | some x => dpaOverlap x d && !(x.bi && d.bi && both)

/-- R345: the interleave ways and granularity that the controller supports. -/
def waysOk (d : Decoder) : Bool :=
  [1, 2, 4, 8].contains d.ways && [256, 512, 1024, 2048, 4096, 8192, 16384].contains d.gran

/-- R347: the first cause for which the commit is refused, 0 where none applies. -/
def commitCause (s : State) (h : Head) (n : Nat) (d : Decoder) : Nat :=
  if !d.sbox && !(30 ≤ d.kpos && d.kpos ≤ 45) then 0x1
  else if !d.sbox && 2 ^ d.kpos < d.dpaSize then 0x2
  else if d.size != d.ways * (if d.sbox then d.dpaSize else 2 ^ (d.kpos + 7)) then 0x3
  else if !dpaPart s d then 0x4
  else if !waysOk d then 0x5
  else if d.dpaBase % 2 ^ 28 != 0 || d.dpaSize % 2 ^ 28 != 0 || d.base % 2 ^ 28 != 0 then 0x6
  else if !dpaOrder s h n d then 0x7
  else if dpaClash s h d then 0x8
  else if d.bi && (portOf s h).level != .cxl31 then 0x9
  else 0

/-- R347: a commit of decoder n; the one that stood there is uncommitted by it. -/
def commitOp (h : Head) (n : Nat) (r : DecoderReq) (s : State) : State :=
  let s := modPort h (fun p => { p with decoders := tput none p.decoders n none }) s
  let d := decoderOf s h n r
  let c := commitCause s h n d
  if c == 0 then
    raise (headNo h) 1 0x02 ((det3 n 0).on h)
      (modPort h (fun p => { p with decoders := tput none p.decoders n (some d),
                                    decoderErr := p.decoderErr &&& ~~~((1 : BitVec 4) <<< n) }) s)
  else
    let s := modPort h (fun p => { p with decoderErr := p.decoderErr ||| (1 <<< n) }) s
    raise (headNo h) 1 0x01 ((det3 n c).on h) (rset s 0x120 (BitVec.ofNat 32 (n + 4 * headNo h + 8 + c * 16)))

/-- DECODER_COMMIT (R347). At CXL 1.1 the memory is exposed through the ranges of R339, which are not decoders. -/
def execDecoderCommit (h : Head) (n : Nat) (req : DecoderReq) (s : State) : Res :=
  .next (if headPresent s h && n < 4 && (portOf s h).rate != 0 && !s.sup.inReset then commitOp h n req s else s)

/-! IDE, SPDM and DOE (R358-R360). -/

/-- IDE_SECURE (R359, R360): at other levels than CXL 3.1 no stream is enabled. -/
def execIdeSecure (h : Head) (x : IdeStream) (s : State) : Res :=
  .next (if (portOf s h).level != .cxl31 || !headPresent s h then s
    else
      let s := modPort h (fun p => match x with
        | .io => { p with ideIo := true }
        | .mem => { p with ideMem := true, ideMemOnce := true }) s
      raise (headNo h) 2 0x01 ((det3 (b2n (x == .mem)) 0).on h) s)

/-- IDE_KEY_EXPIRY (R362): what has been received completes; later requests follow R360. -/
def execIdeKeyExpiry (h : Head) (x : IdeStream) (s : State) : Res :=
  .next (modPort h (fun p => match x with
    | .io => { p with ideIo := false }
    | .mem => { p with ideMem := false }) s)

/-- The SPDM 1.2 response code of a request (log entry 35). -/
def spdmCode : SpdmReq → Nat
  | .version => 0x04
  | .capabilities => 0x61
  | .algorithms => 0x63
  | .digests => 0x01
  | .certificate => 0x02
  | .challenge => 0x03
  | .measurements => 0x60
  | .keyExchange => 0x64
  | .finish => 0x65
  | .endSession => 0x6C
  | .heartbeat => 0x68
  | .keyUpdate => 0x69

/-- R358: the responder cannot take the request: a fifth session, or a session request without a session. -/
def spdmRefused (p : Port) : SpdmReq → Bool
  | .keyExchange | .finish => 4 ≤ p.sessions
  | .endSession | .heartbeat | .keyUpdate => p.sessions == 0
  | _ => false

/-- A lifecycle state's number in a measurement (R390). -/
def lifeNo : Life → Nat
  | .manufacture => 0
  | .provisioned => 1
  | .debugUnlocked => 2
  | .rma => 3

/-- R358: an SPDM request: the response's version and code, the measured values where they are asked for, and the rest of
the message, which the SPDM standard fixes, as a free value (log entry 35). -/
def spdmAnswer (h : Head) (r : SpdmReq) (s : State) : State :=
  if spdmRefused (portOf s h) r then send (.doe h [0x12, 0x7F]) s
  else
    let m : List Byte := if r == .measurements then
      [BitVec.ofNat 8 s.ctl.fwRunning, BitVec.ofNat 8 (lifeNo s.ctl.life), 0xB1] else []
    let (rest, s) := takeFree 512 s
    let s := send (.doe h ([0x12, BitVec.ofNat 8 (spdmCode r)] ++ m ++ toLE 64 rest.toNat)) s
    match r with
    | .finish => raise (headNo h) 2 0x03 (det0.on h) (modPort h (fun p => { p with sessions := p.sessions + 1 }) s)
    | .endSession => raise (headNo h) 2 0x03 (det0.on h) (modPort h (fun p => { p with sessions := p.sessions - 1 }) s)
    | _ => s

/-- The head's function answers configuration requests and DOE: it is there, and its link is up. -/
def functionUp (s : State) (h : Head) : Bool := headPresent s h && (portOf s h).rate != 0

/-- SPDM_REQUEST (R358). -/
def execSpdmRequest (h : Head) (r : SpdmReq) (s : State) : Res :=
  .next (if functionUp s h then spdmAnswer h r s else s)

/-! CDAT (R349). The structures' layout is the CDAT specification's (log entry 35). -/

/-- R349: a DSMAS entry. -/
def dsmas (handle flags base len : Nat) : List Byte :=
  [0, 0] ++ toLE 2 24 ++ [BitVec.ofNat 8 handle, BitVec.ofNat 8 flags, 0, 0] ++ toLE 8 base ++ toLE 8 len

/-- R349: a DSLBIS entry: data type, unit and value. -/
def dslbis (handle type unit value : Nat) : List Byte :=
  [1, 0] ++ toLE 2 24 ++ [BitVec.ofNat 8 handle, 0, BitVec.ofNat 8 type, 0] ++ toLE 8 unit ++ toLE 6 value ++ [0, 0]

/-- R349: a DSEMTS entry: EFI conventional memory with the specific-purpose attribute. -/
def dsemts (handle base len : Nat) : List Byte :=
  [4, 0] ++ toLE 2 24 ++ [BitVec.ofNat 8 handle, 1, 0, 0] ++ toLE 8 base ++ toLE 8 len

/-- R349: the CDAT entries in order. Latencies are in ns; bandwidths in units of 5 MB/s, rounded down. -/
def cdatEntries (s : State) : List (List Byte) :=
  let len := s.board.folios * 2 ^ 21
  let sb := s.pur.sboxAct * 2 ^ 30
  let c2 := ((popChans s).filter fun c => s.board.m2.getLsbD c).length
  let c1 := (popChans s).length - c2
  let lat (handle type ns : Nat) := dslbis handle type 1000 ns
  let bw (handle type mb : Nat) := dslbis handle type 5 (mb / 5)
  [dsmas 0 (4 + 8 * b2n (twoHeads s)) 0 len] ++ (if sb == 0 then [] else [dsmas 1 0 (2 ^ 45) sb]) ++ [dsemts 0 0 len]
  ++ (if sb == 0 then [] else [dsemts 1 (2 ^ 45) sb])
  ++ [lat 0 1 (if allM2 s then 420 else 593), lat 0 2 160, bw 0 4 (4000 * c2 + 2000 * c1), bw 0 5 (qRate s / 1000)]
  ++ (if sb == 0 then [] else [lat 1 1 150, lat 1 2 150, bw 1 4 153600, bw 1 5 153600])

/-- The sum of bytes modulo 256. -/
def byteSum (bs : List Byte) : Byte := bs.foldl (· + ·) 0

/-- The CDAT with its header, whose checksum makes the bytes sum to zero (R350). -/
def cdatHeader (s : State) : List Byte :=
  let body := (cdatEntries s).flatten
  let h := toLE 4 (16 + body.length) ++ [1]
  h ++ [-(byteSum (h ++ body))] ++ zeros 10

/-- CDAT Table Access: entry 0 is the header; the handle of the next entry leads, 0xFFFF after the last. -/
def cdatAnswer (s : State) (n : Nat) : List Byte :=
  let es := cdatHeader s :: cdatEntries s
  match es[n]? with
  | none => [0, 0] ++ toLE 2 0xFFFF
  | some e => [0, 0] ++ toLE 2 (if n + 1 < es.length then n + 1 else 0xFFFF) ++ e

/-- R360: DOE Discovery: vendor, object type, and the next index, 0 after the last. -/
def doeDiscovery (n : Nat) : List Byte :=
  match n with
  | 0 => toLE 2 0x0001 ++ [0, 1]
  | 1 => toLE 2 0x0001 ++ [1, 2]
  | 2 => toLE 2 0x0001 ++ [2, 3]
  | 3 => toLE 2 0x1E98 ++ [2, 0]
  | _ => toLE 2 0xFFFF ++ [0, 0]

/-- DOE_REQUEST (R360). -/
def execDoeRequest (h : Head) (r : DoeReq) (s : State) : Res :=
  .next (if !functionUp s h then s
    else
      match r with
      | .discovery n => send (.doe h (doeDiscovery n)) s
      | .cdat n => send (.doe h (cdatAnswer s n)) s
      | .spdm q => spdmAnswer h q s)

/-! Configuration space (R341, R348, R356). -/

/-- R348: the size that a range of the PCIe DVSEC for CXL Devices reports. -/
def rangeSize (s : State) (h : Head) (two : Bool) : Nat :=
  if two then s.pur.sboxAct * 2 ^ 30
  else if (portOf s h).level == .cxl11 then 2 ^ (log2Up (s.board.folios * 2 ^ 21) 46 30 + 7)
  else s.board.folios * 2 ^ 21

/-- R348: the low size dword of a range: Memory_Info_Valid and Memory_Active, Media_Type and Memory_Class 0b010,
Desired_Interleave 0, Memory_Active_Timeout 0b001. -/
def rangeLow (s : State) (h : Head) (two : Bool) : Nat :=
  b2n s.fe.memInfoValid + 2 * b2n s.led.memActive + 2 * 4 + 2 * 32 + 2 ^ 13 + rangeSize s h two / 2 ^ 28 % 16 * 2 ^ 28

/-- R348: the capability field of the PCIe DVSEC for CXL Devices: IO_Capable, Mem_Capable, HDM_Count 2, CXL_Reset_Capable
with timeout 0b010. -/
def cxlCapability : Nat := 0x2A6

/-- R348: GPF Phase 2 Duration in ms: 1 with hold-up, else the time of the budget's drain and 6 ms. -/
def gpfMs (s : State) : Nat :=
  if holdupActs s then 1 else (s.pur.budget * 256 + qRate s - 1) / max 1 (qRate s) + 6

/-- R348: that duration as the GPF DVSEC encodes it: a base of at most 15 and a scale, rounded up. -/
def gpfDuration (s : State) : Nat :=
  let n := gpfMs s
  if n ≤ 15 then n + 3 * 256
  else if n ≤ 150 then (n + 9) / 10 + 4 * 256
  else if n ≤ 1500 then (n + 99) / 100 + 5 * 256
  else min 15 ((n + 999) / 1000) + 6 * 256

/-- R454: the reset value of parameters 1 to 4. -/
def paramReset (id : Nat) : BitVec 64 :=
  match id with
  | 1 => 0x1D9E
  | 2 => 0x3200
  | 3 => 0x52
  | 4 => 38000
  | _ => 0

/-- R348, R454: GPF Phase 2 Power in mW. -/
def gpfPower (s : State) : Nat := (tget (paramReset 4) s.pb.paramsUp 0x4).toNat

/-- R341, R454: the subsystem vendor and device ID. -/
def subsystemId (s : State) : Nat :=
  (tget (paramReset 1) s.pb.paramsUp 0x1).toNat % 2 ^ 16 + (tget (paramReset 2) s.pb.paramsUp 0x2).toNat % 2 ^ 16 * 2 ^ 16

/-- R341: the standard header's dwords that the spec fixes, by dword. -/
def cfgHeader (s : State) (h : Head) (n : Nat) : Option Nat :=
  match n with
  | 0 => some (0x1D9E + (0x3200 + headNo h) * 2 ^ 16)
  | 2 => some 0x050210B1
  | 8 | 9 | 12 => some 0
  | 11 => some (subsystemId s)
  | _ => none

/-- R343: the Register Locator DVSEC: three register blocks, all in BAR0, each with its BIR and identifier, its offset and
the high half of the offset, from dword 3 on. The CXL specification's identifiers are 1 component registers, 3 memory device
registers and 0xFF the vendor's block, whose vendor ID stands in the DVSEC vendor ID's place (PRESUMED, log entry 82). -/
def cfgLocator (n : Nat) : Option Nat :=
  let r := Config.cfgPlace 8
  if n == r + 1 then some (0x1E98 + 36 * 2 ^ 20)
  else if n == r + 2 then some 8
  else if n == r + 3 then some (1 * 2 ^ 8 + 0x70000)
  else if n == r + 5 then some (3 * 2 ^ 8 + 0x10000)
  else if n == r + 7 then some (0xFF * 2 ^ 8)
  else if n == r + 4 || n == r + 6 || n == r + 8 then some 0
  else none

/-- R348: the dwords of the DVSECs that the spec gives values for, by dword within the PCIe DVSEC for CXL Devices. -/
def cfgDvsec (s : State) (h : Head) (n : Nat) : Option Nat :=
  let d := Config.cfgPlace 6
  let g := Config.cfgPlace 7
  if n == d + 2 then some (cxlCapability * 2 ^ 16)
  else if n == d + 6 then some (rangeSize s h false / 2 ^ 32)
  else if n == d + 7 then some (rangeLow s h false)
  else if n == d + 10 then some (rangeSize s h true / 2 ^ 32)
  else if n == d + 11 then some (rangeLow s h true)
  else if n == g + 2 then some (5 + gpfDuration s * 2 ^ 16)
  else if n == g + 3 then some (gpfPower s)
  else cfgLocator n

/-- The dwords that a configuration write does not change. -/
def cfgFixed (s : State) (h : Head) (n : Nat) : Option Nat := (cfgHeader s h n).orElse fun _ => cfgDvsec s h n

/-- A dword with the bits of a mask taken from a value. -/
def cfgBits (d : BitVec 32) (mask v : Nat) : BitVec 32 :=
  (d &&& ~~~BitVec.ofNat 32 mask) ||| (BitVec.ofNat 32 v &&& BitVec.ofNat 32 mask)

/-- R348, R355, R357, R361: the fields of capabilities that the spec gives values for, over what the dword holds: the PTM
capability (requester, no responder, a granularity of 1 ns) and PTM enable; the MSI-X table's 2,048 vectors, its mask and
enable, and the places of the table and the PBA in BAR0; the completion timeout ranges A to D with the disable; and CXL.io,
CXL.mem and the 256-byte flit of the Flex Bus Port DVSEC. The fields' places within a dword are PRESUMED (log entry 31). -/
def cfgView (s : State) (h : Head) (n : Nat) (d : BitVec 32) : BitVec 32 :=
  let p := portOf s h
  let flit := 2 ^ (16 + Config.cfgPlace 11 % 16)
  if n == Config.cfgPlace 0 then cfgBits d 1 (b2n p.ptmEn)
  else if n + 1 == Config.cfgPlace 0 then cfgBits d 0xFF07 0x0101
  else if n == Config.cfgPlace 1 then
    cfgBits d 0xC7FF0000 (2047 * 2 ^ 16 + b2n p.msixMask * 2 ^ 30 + b2n p.msixEn * 2 ^ 31)
  else if n == Config.cfgPlace 1 + 1 then 0x38000
  else if n == Config.cfgPlace 1 + 2 then 0x34000
  else if n == Config.cfgPlace 9 then cfgBits d 0x1F 0x1F
  else if n == Config.cfgPlace 10 + 2 then
    cfgBits (cfgBits d flit (b2n (p.level == .cxl31) * flit)) (6 * 2 ^ 16) (6 * 2 ^ 16)
  else d

/-- What a configuration read of a dword returns. -/
def cfgRead (s : State) (h : Head) (n : Nat) : BitVec 32 :=
  match cfgFixed s h n with
  | some v => BitVec.ofNat 32 v
  | none => cfgView s h n (cfgDword s h n)

/-- R422: vectors that are no longer masked are signalled from the Pending Bit Array. -/
def pbaFlush (h : Head) (s : State) : State :=
  let p := portOf s h
  if !p.msixEn || p.msixMask then s
  else
    let go := p.pba.filter fun v => !(tget vec0 p.msix v).masked
    let s := modPort h (fun p => { p with pba := p.pba.filter fun v => (tget vec0 p.msix v).masked }) s
    forEach go (fun v s => send (.msi h v) (incRaw 711 1 s).1) s

/-- A configuration write of a dword: PTM enable, MSI-X enable and mask where the dword is theirs. -/
def cfgWriteOp (h : Head) (n : Nat) (v : BitVec 32) (s : State) : State :=
  if (cfgFixed s h n).isSome then s
  else
    let v' := Config.cfgWrite n (cfgDword s h n) v
    let s := modPort h (fun p => { p with cfg := tput none p.cfg n (some v') }) s
    let s := if n == Config.cfgPlace 0 then modPort h (fun p => { p with ptmEn := v.getLsbD 0 }) s else s
    if n == Config.cfgPlace 1 then
      pbaFlush h (modPort h (fun p => { p with msixEn := v.getLsbD 31, msixMask := v.getLsbD 30 }) s)
    else s

/-- CONFIG_REQUEST (R356). -/
def execConfigRequest (h : Head) (r : ConfigReq) (s : State) : Res :=
  .next (if !functionUp s h then s
    else
      match r with
      | .read n => send (.cfg h (cfgRead s h n)) s
      | .write n v => cfgWriteOp h n v s)

end Sys2Proof.Machine
end

