-- ==== Sys2Proof/Machine/Rails.lean ====
section
/-! DEFINITION. The supervisor's states and the rail sequencer (R462-R474, R501-R508). -/

namespace Sys2Proof.Machine

/-! Supervision parameters (R471). -/

/-- R471: the reset value of a supervision parameter. -/
def supReset (id : Nat) : BitVec 64 :=
  if id == 0x180 then 0xB
  else if id == 0x181 then 0x4
  else if id < 0x180 && id % 8 == 1 then 0x14000000
  else if id < 0x180 && id % 8 == 2 then 0x01F40064
  else 0

/-- R471: a supervision parameter as written. -/
def supParam (s : State) (id : Nat) : Nat := (tget (supReset id) s.sup.railCfg id).toNat

/-- R472: word k of slot s, in force since the last power-on. -/
def railWord (s : State) (slot k : Nat) : Nat := (tget (supReset (0x100 + 8 * slot + k)) s.sup.railInForce (0x100 + 8 * slot + k)).toNat

/-- R471: USED. -/
def railUsed (s : State) (i : Nat) : Bool := bit (railWord s i 0) 0
/-- R471: SENSE. -/
def railSense (s : State) (i : Nat) : Nat := bits (railWord s i 0) 1 5
/-- R471: bit j of DEPEND. -/
def railNeeds (s : State) (i j : Nat) : Bool := bit (railWord s i 0) (16 + j)
/-- R471: GOOD. -/
def railGood (s : State) (i : Nat) : Nat := bits (railWord s i 1) 0 12
/-- R471: FALL. -/
def railFall (s : State) (i : Nat) : Nat := bits (railWord s i 1) 12 12
/-- R466: GOOD less HYST. -/
def railLow (s : State) (i : Nat) : Nat := railGood s i - bits (railWord s i 1) 24 8
/-- R471: RISE_TO in ns. -/
def railRiseTo (s : State) (i : Nat) : Nat := 100000 * max 1 (bits (railWord s i 2) 0 16)
/-- R471: FALL_TO in ns. -/
def railFallTo (s : State) (i : Nat) : Nat := 100000 * max 1 (bits (railWord s i 2) 16 16)
/-- R471: ON_DELAY in ns. -/
def railOnDelay (s : State) (i : Nat) : Nat := 10000 * bits (railWord s i 3) 0 16
/-- R471: OFF_DELAY in ns. -/
def railOffDelay (s : State) (i : Nat) : Nat := 10000 * bits (railWord s i 3) 16 16
/-- R471: LONG_S in ns. -/
def longPress (s : State) : Nat := 1000000000 * min 10 (max 2 (supParam s 0x181 % 16))

/-- The rail slots. -/
def railSlots : List Nat := List.range 16

/-- The used slots. -/
def railsUsed (s : State) : List Nat := railSlots.filter (railUsed s)

/-- A rail slot's state. -/
def railAt (s : State) (i : Nat) : Rail := tget default s.sup.rails i

/-- Update of a rail slot. -/
def modRail (i : Nat) (f : Rail → Rail) (s : State) : State :=
  s.modSup fun u => { u with rails := tmod default u.rails i f }

/-- R470: counts saturate at 0xFFFF. -/
def cnt16 (n : Nat) : Nat := satAdd 0xFFFF n 1

/-! Temperatures (R478, R479, R482). -/

/-- A sensor. -/
def sensorAt (s : State) (n : Nat) : Sensor := tget default s.sup.sensors n

/-- R479: a sensor's reading in 0.25 °C: 111 °C when broken. -/
def sensorRead (x : Sensor) : Int := if x.cause == 0 then x.temp else 444

/-- The twelve sensors. -/
def sensorNos : List Nat := List.range 12

/-- R478: the temperature of the hottest zone, in 0.25 °C. -/
def hottest (s : State) : Int := sensorNos.foldl (fun m n => max m (sensorRead (sensorAt s n))) (sensorRead (sensorAt s 0))

/-- R482: the hottest working sensor in 0.25 °C; none when no sensor works. -/
def hottestWorking (s : State) : Option Int :=
  sensorNos.foldl (fun m n =>
    let x := sensorAt s n
    if x.cause != 0 then m else some (m.elim x.temp (max x.temp))) none

/-- R482: the device temperature in °C: the hottest working sensor rounded down; 111 when none works. -/
def deviceTemp (s : State) : Int := (hottestWorking s).elim 111 fun t => t.fdiv 4

/-- R462, R481: a working sensor reads 95 °C or above: a power-on is refused. -/
def tooHot (s : State) : Bool := (hottestWorking s).elim false fun t => 380 ≤ t

/-! Entering the states (R462). -/

/-- FAULT is entered (R466, R472, R502, R508). -/
def faultEnter (s : State) : State :=
  raise 9 0 0x04 (det3 s.sup.down 0)
    (s.modSup fun u => { u with state := .fault, faultN := true, faultDue := false, restartDue := false, seriesOpen := false })

/-- ON is reached: the core starts (R351, R490). -/
def onEnter (s : State) : State :=
  let s := s.modSup fun u => { u with state := .on, onAt := s.clock, seriesOpen := false, pllLocked := false }
  raise 9 0 0x01 det0 (corePowerUp s)

/-- RAIL_EN of a slot is asserted (R465). -/
def railOn (i : Nat) (s : State) : State :=
  modRail i (fun r => { r with state := .rising, enabled := true, enAt := s.clock, dueAt := 0, goodScans := 0, good := false }) s

/-- R465: a slot is enabled, or its ON_DELAY starts, once every slot that it depends on is judged good. -/
def railRise (i : Nat) (s : State) : State :=
  let r := railAt s i
  if r.state == .rising || r.state == .good || r.dueAt != 0 || !(railSlots.all fun j => !railNeeds s i j || (railAt s j).good) then s
  else if railOnDelay s i == 0 then railOn i s
  else modRail i (fun r => { r with dueAt := s.clock + railOnDelay s i + 1 }) s

/-- R465: what UP does next: enables, and ON once every used slot is good. -/
def upAdvance (s : State) : State :=
  if s.sup.state != .up then s
  else
    let s := forEach (railsUsed s) railRise s
    if (railsUsed s).all fun i => (railAt s i).good then onEnter s else s

/-- R454, R501: what a power-on samples: the straps, the rail parameters and the parameters of the next power-up. -/
def upSample (s : State) : State :=
  let b := s.board
  let s := s.modSup fun u =>
    { u with railInForce := u.railCfg, holdupDecl := b.holdupSel, portbMode := b.portbSel, srisA := b.srisA, srisB := b.srisB }
  s.modPb fun p => { p with paramsUp := p.params.filter fun e => e.1 < 0x10 }

/-- R462, R466, R479, R480: a power-on begins. `cycle`: it restarts through COOL (R489 SUP_CAUSE.LEVEL). -/
def upEnter (cycle : Bool) (s : State) : State :=
  let s := upSample s
  let s := s.modSup fun u =>
    { u with state := .up, restartDue := false, faultDue := false, faultN := false, thermTripN := false, critStop := none,
             rails := u.rails.map fun e => (e.1, { e.2 with state := .off, good := false, enabled := false, goodScans := 0,
                                                            fallScans := 0, badScans := 0, dueAt := 0, preFailed := false,
                                                            faulted := false, cnt := { e.2.cnt with lowest := 0 } }),
             seriesFaults := if u.seriesOpen then u.seriesFaults else 0, seriesOpen := true,
             sensors := u.sensors.map fun e => (e.1, { e.2 with cause := 0, same := 0, last := s.clock }),
             reinits := 0, resets := 0, level := if cycle then 4 else 0, inReset := false, fnFails := [], fnBusy := [] }
  let s := s.modSup fun u => { u with sinceOn := deviceTemp s, step := 0, belowRun := [], stepPend := false }
  if s.board.testEn then faultEnter (s.modSup fun u => { u with down := 9 }) else upAdvance s

/-- R462, R473, R481: a power-on is due and nothing forbids it. -/
def upMay (s : State) : Bool := s.sup.supplyGood && !tooHot s

/-- R462, R475: a power-on is asked for in OFF or FAULT: refused while hot, and waiting for the supply. -/
def upAsk (s : State) : State :=
  if tooHot s || !s.sup.aonOn then s
  else if s.sup.supplyGood then upEnter false s
  else s.modSup fun u => { u with restartDue := true, faultN := false }

/-! DOWN (R467, R468). -/

/-- A slot that has not fallen yet. -/
def railLive (r : Rail) : Bool := r.state == .rising || r.state == .good || r.state == .falling

/-- R467: DOWN has completed. -/
def downDone (s : State) : State :=
  let s := s.modSup fun u => { u with tripped := false }
  if s.sup.faultDue then faultEnter s
  else if s.sup.restartDue then s.modSup fun u => { u with state := .cool, coolAt := s.clock }
  else s.modSup fun u => { u with state := .off, seriesOpen := false }

/-- RAIL_EN of a slot is released (R467); one that failed before its turn counts as fallen (R468). -/
def railOff (i : Nat) (s : State) : State :=
  modRail i (fun r => { r with state := if r.preFailed then .fallen else .falling, enabled := false, good := false,
                               disAt := s.clock, dueAt := 0, fallScans := 0 }) s

/-- R467: a slot is disabled, or its OFF_DELAY starts, once every enabled slot that depends on it has fallen. -/
def railDrop (i : Nat) (s : State) : State :=
  let r := railAt s i
  if !r.enabled || r.dueAt != 0 || (railSlots.any fun j => railNeeds s j i && railLive (railAt s j)) then s
  else if railOffDelay s i == 0 then railOff i s
  else modRail i (fun r => { r with dueAt := s.clock + railOffDelay s i + 1 }) s

/-- R467: the slots that are disabled now; a slot that failed early frees those beneath it at once. -/
def railsDrop : Nat → State → State
  | 0, s => s
  | n + 1, s => railsDrop n (forEach (railsUsed s) railDrop s)

/-- R467: what DOWN does next. -/
def downAdvance (s : State) : State :=
  if s.sup.state != .down then s
  else
    let s := railsDrop 16 s
    if (railsUsed s).all fun i => !railLive (railAt s i) then downDone s else s

/-- R462, R467: the rails go down; the core, when it ran, loses its supplies (R486). -/
def downStart (s : State) : State :=
  let s := if s.sup.state == .on then coreOff s else s
  let s := s.modSup fun u =>
    { u with state := .down, critStop := none,
             rails := u.rails.map fun e => (e.1, { e.2 with dueAt := 0, fallScans := 0, preFailed := false, abandoned := false }) }
  downAdvance s

/-! Faults (R466, R469). -/

/-- R466: SEQ_CFG.RETRY_LIMIT is exceeded. -/
def overLimit (s : State) (n : Nat) : Bool := supParam s 0x180 % 8 < n

/-- R466, R487: a sequence fault of a slot: cause 1 is its rise timeout, 2 its fall below GOOD less HYST. One with the supply
not good is not counted. -/
def seqFault (slot cause : Nat) (s : State) : State :=
  let s := modRail slot (fun r => { r with faulted := true, cnt := { r.cnt with
    seqFaults := cnt16 r.cnt.seqFaults, riseTo := if cause == 1 then cnt16 r.cnt.riseTo else r.cnt.riseTo } }) s
  let s := raise 9 0 0x02 (det3 slot cause) s
  let n := if s.sup.supplyGood then satAdd 7 s.sup.seriesFaults 1 else s.sup.seriesFaults
  let spent := s.sup.supplyGood && overLimit s (s.sup.seriesFaults + 1)
  downStart (s.modSup fun u => { u with seriesFaults := n, faultDue := spent, restartDue := !spent, down := if spent then 8 else u.down })

/-- R469: a slot is lost in service: as at a power-fail trip, and a sequence fault of a new series. -/
def railLost (slot : Nat) (s : State) : State :=
  let s := modRail slot (fun r => { r with faulted := true, cnt := { r.cnt with losses := cnt16 r.cnt.losses } }) s
  let s := raise 9 1 0x01 (det3 slot 0) s
  if s.pur.drain != .none then s
  else
    let spent := overLimit s 1
    let s := tripStart 7 s
    s.modSup fun u => { u with seriesFaults := 1, seriesOpen := true, faultDue := spent, restartDue := !spent }

/-! Scans (R464-R469). -/

/-- R465, R466: a scan of a slot in UP; true where it is a sequence fault. -/
def scanUp (i code : Nat) (s : State) : State × Bool :=
  let r := railAt s i
  if r.state == .rising then
    if railGood s i ≤ code then
      if r.goodScans == 0 then (modRail i (fun r => { r with goodScans := 1 }) s, false)
      else (modRail i (fun r => { r with goodScans := 2, good := true, state := .good, cnt := { r.cnt with lowest := code } }) s, false)
    else if r.goodScans == 0 then (s, false)
    else (modRail i (fun r => { r with goodScans := 0, cnt := { r.cnt with chatter := cnt16 r.cnt.chatter } }) s, false)
  else (s, r.good && code < railLow s i)

/-- R469: a scan of a slot in ON; true where it is lost. -/
def scanOn (i code : Nat) (s : State) : State × Bool :=
  let r := railAt s i
  if !r.good then (s, false)
  else if code < railLow s i then
    (modRail i (fun r => { r with badScans := min 2 (r.badScans + 1), good := r.badScans == 0 }) s, r.badScans == 1)
  else (modRail i (fun r => { r with badScans := 0 }) s, false)

/-- R467, R468: a scan of a slot in DOWN. -/
def scanDown (i code : Nat) (s : State) : State :=
  let r := railAt s i
  if !railLive r then s
  else
    let n := if code < railFall s i then min 2 (r.fallScans + 1) else 0
    let s := modRail i (fun r => { r with fallScans := n }) s
    if n < 2 then s
    else if r.state == .falling then modRail i (fun r => { r with state := .fallen }) s
    else if r.preFailed then s
    else
      raise 9 1 0x03 (det3 i 0) (modRail i (fun r => { r with preFailed := true, abandoned := true,
                                                              cnt := { r.cnt with downFails := cnt16 r.cnt.downFails } }) s)

/-- R470: the latest code of a used slot, and its lowest while good. -/
def scanNote (i code : Nat) (s : State) : State :=
  modRail i (fun r => { r with cnt := { r.cnt with latest := code, lowest := if r.good then min r.cnt.lowest code else r.cnt.lowest } }) s

/-- The used slots of a scan, judged in slot order; the first for which the judgement holds. -/
def scanAll (f : Nat → Nat → State → State × Bool) : List (Nat × Nat) → State → Option Nat × State
  | [], s => (none, s)
  | (i, c) :: r, s =>
    let (s, hit) := f i c s
    let (o, s) := scanAll f r s
    (if hit then some i else o, s)

/-- SCAN_END (R464): a scan of the 20 inputs completes, 100 µs after the last. -/
def execScanEnd (codes : List (BitVec 12)) (s : State) : Res :=
  if s.sup.state == .recalling || !s.sup.aonOn || s.clock < 100000 + s.sup.scanAt then .next s
  else
    let s := s.modSup fun u =>
      { u with scanAt := s.clock,
               inputs := (List.range 20).foldl (fun t i => tput 0 t i (codes.getD i 0)) u.inputs }
    let xs := (railsUsed s).map fun i => (i, (codes.getD (railSense s i) 0).toNat)
    let s := forEach xs (fun x s => scanNote x.1 x.2 s) s
    match s.sup.state with
    | .up =>
      let (hit, s) := scanAll scanUp xs s
      .next (match hit with
        | some i => seqFault i 2 s
        | none => upAdvance s)
    | .on =>
      let (hit, s) := scanAll scanOn xs s
      .next (match hit with
        | some i => railLost i s
        | none => s)
    | .down => .next (downAdvance (forEach xs (fun x s => scanDown x.1 x.2 s) s))
    | _ => .next s

/-- RAIL_DELAY_EXPIRY (R465, R467). -/
def execRailDelayExpiry (slot : Nat) (s : State) : Res :=
  let r := railAt s slot
  if r.dueAt == 0 || s.clock < r.dueAt - 1 then .next s
  else
    match s.sup.state with
    | .up => .next (railOn slot s)
    | .down => .next (downAdvance (railOff slot s))
    | _ => .next s

/-- RISE_TIMEOUT (R465). -/
def execRiseTimeout (slot : Nat) (s : State) : Res :=
  let r := railAt s slot
  .next (if s.sup.state == .up && r.state == .rising && r.enAt + railRiseTo s slot ≤ s.clock then seqFault slot 1 s else s)

/-- RAIL_ABANDONED (R467). -/
def execRailAbandoned (slot : Nat) (s : State) : Res :=
  let r := railAt s slot
  .next (if s.sup.state == .down && r.state == .falling && r.disAt + railFallTo s slot ≤ s.clock then
      let s := modRail slot (fun r => { r with state := .abandoned, abandoned := true,
                                               cnt := { r.cnt with abandons := cnt16 r.cnt.abandons } }) s
      downAdvance (raise 9 1 0x02 (det3 slot 0) s)
    else s)

/-- SEQ_RETRY (R466, R473): COOL ends 100 ms after the last slot has fallen, once the supply is good. -/
def execSeqRetry (s : State) : Res :=
  .next (if s.sup.state == .cool && 100000000 + s.sup.coolAt ≤ s.clock && upMay s then
      let s := if s.sup.seriesOpen then raise 9 0 0x03 (det3 s.sup.seriesFaults 0) s else s
      upEnter true s
    else s)

/-- SUPPLY_GOOD (R473): a power-on that waits for the supply begins; COOL ends through SEQ_RETRY. -/
def execSupplyGood (s : State) : Res :=
  let s := s.modSup fun u => { u with supplyGood := u.aonOn }
  .next (if s.sup.aonOn && s.sup.restartDue && (s.sup.state == .off || s.sup.state == .fault) && !tooHot s then upEnter false s else s)

/-- PLL_LOCK_TIMEOUT (R508). -/
def execPllLockTimeout (s : State) : Res :=
  .next (if s.sup.state == .on && !s.sup.pllLocked && 10000000 + s.sup.onAt ≤ s.clock then
      downStart (s.modSup fun u => { u with down := 9, faultDue := true, restartDue := false })
    else s)

/-- RTC_START_TIMEOUT (R508). -/
def execRtcStartTimeout (s : State) : Res :=
  .next (if 1000000000 + s.sup.aonAt ≤ s.clock then s.modSup fun u => { u with rtcCrystal := false } else s)

/-- RTC_CRYSTAL_START (R508). -/
def execRtcCrystalStart (s : State) : Res := .next (s.modSup fun u => { u with rtcCrystal := true })

end Sys2Proof.Machine
end

