-- ==== Sys2Proof/Machine/Power.lean ====
section
/-! DEFINITION. The purse's power commands (R204-R216), trips and drains (R210, R477), buttons (R475, R476), temperatures
(R478-R482), power cycles, and the supervision commands and registers (R488, R489). -/

namespace Sys2Proof.Machine

/-! Hold-up and budget (R205, R206). -/

/-- HOLDUP_OK_FALL (R206): lines acknowledged early drain in express order. -/
def execHoldupOkFall (s : State) : Res :=
  let s := s.modPur fun u => { u with holdupOk := false, holdupReady := false }
  .next (if s.sup.state == .on && holdupActs s then
      rbit (s.modPur fun u => { u with lateForced := true, exRing := u.exRing ++ u.wbRing, wbRing := [] }) 0x80100 17
    else s)

/-- HOLDUP_OK_RISE (R206). -/
def execHoldupOkRise (s : State) : Res :=
  .next (if s.pur.holdupOk then s else s.modPur fun u => { u with holdupOk := true, holdupSince := s.clock })

/-- HOLDUP_READY (R206): 10 ms of HOLDUP_OK high. -/
def execHoldupReady (s : State) : Res :=
  .next (if s.pur.holdupOk && 10000000 + s.pur.holdupSince ≤ s.clock && s.sup.state == .on then
      s.modPur fun u => { u with holdupReady := true, lateForced := false }
    else s)

/-- R205: a written budget waits for the next frame boundary, clamped as R204 gives. -/
def budgetStage (u : Nat) (s : State) : State :=
  let (b, clamped) := clampBudget s (u % 128)
  let s := s.modPur fun p => { p with budgetStaged := some (b * 262144), budgetAt := nextBoundary s }
  if clamped then rbit s 0x80100 18 else s

/-- R454: a write of RWP register i (parameter 0x10 + i), through BAR0 or as a parameter. -/
def rwpWrite (i : Nat) (v : BitVec 32) (s : State) : State :=
  let off := rwpOffs.getD i 0
  match rowOf off with
  | none => s
  | some r =>
    let s := rset s off (writeMasked r.rw r.w1c (rget s off) v)
    let s := paramQueue (0x10 + i) (rval s off) s
    if i == 8 then budgetStage (rval s off) s else s

/-- TIL_BUDGET_WRITE (R205). -/
def regTilBudgetWrite (_h : Head) (value : BitVec 32) (s : State) : Res := .next (rwpWrite 8 value s)

/-- BUDGET_APPLY (R205). -/
def execBudgetApply (s : State) : Res :=
  .next (match s.pur.budgetStaged with
    | some b =>
      if s.pur.budgetAt ≤ mintNow s then meterUpdate (s.modPur fun u => { u with budget := b, budgetStaged := none }) else s
    | none => s)

/-- PUR_CNT_CLEAR (R216). -/
def regPurCntClear (_h : Head) (s : State) : Res := .next (rset (rset s 0x80018 0) 0x8001C 0)

/-- SBOX_CLEAR_DONE (R213, R214): the zero-fill that a power-up or device reset began completes; a new size waits until the till has
drained under the old layout, but for the overdraft, which does not move. -/
def execSboxClearDone (s : State) : Res :=
  let g := sboxClamp s (rval s 0x80010 % 64)
  if !s.pur.sboxClearing then .next s
  else if g == s.pur.sboxAct then .next (s.modPur fun u => { u with sboxClearing := false })
  else if occupancy s != s.led.overdraft.length then .next s
  else
    .next (s.modPur fun u => { u with sboxClearing := false, sboxAct := g, slots := [], wbRing := [], exRing := [],
                                      flushing := false })

/-! Trips and drains (R210, R473, R474, R477). -/

/-- The critical stop's pins (R481, R487). -/
def critPins (s : State) : State := s.modSup fun u => { u with thermTripN := true, faultN := true }

/-- R210, R474, R477, R481: a power-down's drain ends, complete or cut off, and the rails go down. At the critical
temperature no restart follows, unless a trip asked for one during the stop. -/
def drainOver (cut : Bool) (s : State) : State :=
  let mode := s.pur.drain
  let s := drainEnd cut s
  let s := if mode == .critical then critPins s
    else if mode == .powerFail && s.sup.step == 5 then critPins (s.modSup fun u => { u with restartDue := false })
    else s
  downStart s

/-- POWER_FAIL_DRAIN_DONE (R210, R477): nothing is left to drain. -/
def execPowerFailDrainDone (s : State) : Res := .next (if drainIdle s then drainOver false s else s)

/-- R473: the comparator trips: latched and counted. -/
def tripNote (latch : Bool) (s : State) : State :=
  let s := s.modSup fun u => { u with tripped := u.tripped || latch, trips := satAdd 0xFFFF u.trips 1, supplyGood := false }
  raise 9 2 0x01 det0 s

/-- PF_TRIP (R473, R474, R487). A drain that runs already goes on; a critical stop then restarts once the supply is good. -/
def execPfTrip (s : State) : Res :=
  .next (match s.sup.state with
    | .on =>
      if s.sup.tripped then s.modSup fun u => { u with supplyGood := false }
      else
        let s := tripNote true s
        match s.pur.drain with
        | .none => tripStart 1 s
        | .critical => s.modSup fun u => { u with restartDue := true }
        | _ => s
    | .up => downStart ((tripNote true s).modSup fun u => { u with down := 1, restartDue := true, faultDue := false })
    | _ => if s.sup.supplyGood && s.sup.aonOn then tripNote false s else s)

/-- R477, R486: a level 4 power cycle begins. -/
def level4Start (cause : Nat) (s : State) : State := drainStart .level4 cause true (queuesDelete (fun _ => true) s)

/-- A level 4 cycle or a level 3 reset may begin. -/
def cycleTakes (s : State) : Bool := s.sup.state == .on && s.pur.drain == .none && !s.sup.tripped

/-- POWER_CYCLE (R382, R477): 1 ms after Request Power Cycle's answer. -/
def execPowerCycle (s : State) : Res :=
  .next (match s.ctl.rstPend with
    | some (t, true) =>
      if 1000000 + t ≤ s.clock && cycleTakes s then level4Start 3 (s.modCtl fun c => { c with rstPend := none }) else s
    | _ => s)

/-- DEVICE_RESET (R382, R483): 1 ms after Reset Device's answer; the resets of the pins and of the link begin at their own
commands, and are not begun twice. -/
def execDeviceReset (src : ResetSource) (s : State) : Res :=
  .next (match src, s.ctl.rstPend with
    | .resetDevice, some (t, false) =>
      if 1000000 + t ≤ s.clock then
        let s := s.modCtl fun c => { c with rstPend := none }
        deviceResetOp 3 (resetHeld s) s
      else s
    | .perst, _ => if resetHeld s && !s.sup.mrLow && !s.sup.inReset then deviceResetOp 1 true s else s
    | .mrN, _ => if s.sup.mrLow && !s.sup.inReset then deviceResetOp 4 true s else s
    | _, _ => s)

/-! Buttons (R475, R476). -/

/-- PB_N_PRESS (R475). -/
def execPbNPress (s : State) : Res :=
  if s.sup.pbPressed || s.pur.drain == .longPress then .next s
  else
    let s := s.modSup fun u => { u with pbPressed := true, pbAt := s.clock }
    .next (if s.sup.state == .off || s.sup.state == .fault then upAsk s else s)

/-- PB_PRESS (R475): released in ON before LONG_S. -/
def execPbPress (s : State) : Res :=
  if !s.sup.pbPressed then .next s
  else
    let short := s.clock < s.sup.pbAt + longPress s && s.sup.onAt ≤ s.sup.pbAt
    let s := s.modSup fun u => { u with pbPressed := false }
    .next (if s.sup.state == .on && short then raise 9 3 0x01 det0 s else s)

/-- R475, R477, R487: the forced off in ON. -/
def forceOff (s : State) : State :=
  match s.pur.drain with
  | .none => drainStart .longPress 2 false (raise 9 3 0x02 det0 s)
  | .level4 =>
    let s := raise 9 3 0x02 det0 s
    (s.modPur fun u => { u with drain := .longPress }).modSup fun u => { u with down := 2, restartDue := false }
  | .powerFail => s.modSup fun u => { u with restartDue := false }
  | _ => s

/-- PB_FORCE_OFF (R475). -/
def execPbForceOff (s : State) : Res :=
  if !s.sup.pbPressed || s.clock < s.sup.pbAt + longPress s then .next s
  else
    .next (match s.sup.state with
      | .on => if s.sup.onAt ≤ s.sup.pbAt then forceOff s else s
      | .up | .down => s.modSup fun u => { u with restartDue := false }
      | .cool => s.modSup fun u => { u with state := .off, restartDue := false, seriesOpen := false }
      | _ => s)

/-- DRAIN_CUT (R477, R487): 150 ms after the press is recognised. -/
def execDrainCut (s : State) : Res :=
  .next (if s.pur.drain == .longPress && 150000000 + s.sup.pbAt + longPress s ≤ s.clock then drainOver true s else s)

/-- MR_RESET (R476). -/
def execMrReset (s : State) : Res :=
  let s := s.modSup fun u => { u with mrLow := true }
  .next (if resetTakes s && !s.sup.inReset then deviceResetOp 4 true (raise 9 3 0x03 det0 s) else s)

/-- MR_N_RELEASE (R476). -/
def execMrNRelease (s : State) : Res := .next (resetRelease (s.modSup fun u => { u with mrLow := false }))

/-! Temperatures (R478-R481). -/

/-- R480: a step's entry temperature in 0.25 °C. -/
def stepEnter : Nat → Int
  | 1 => 380
  | 2 => 400
  | 3 => 420
  | 4 => 440
  | _ => 460

/-- R480: below this temperature, in 0.25 °C, a step may be left; the critical step is not left. -/
def stepLeave : Nat → Int
  | 1 => 368
  | 2 => 388
  | 3 => 408
  | _ => 428

/-- R480: the highest step that a temperature enters. -/
def stepOf (t : Int) : Nat := [1, 2, 3, 4, 5].foldl (fun m k => if stepEnter k ≤ t then k else m) 0

/-- R480: the steps that sensor n's conversion counts as below: 16 in a row of every sensor leave the step. -/
def belowCount (n : Nat) (t : Int) (s : State) : State :=
  s.modSup fun u => { u with belowRun := [1, 2, 3, 4].foldl (fun r k =>
    tput 0 r (16 * k + n) (if t < stepLeave k then min 16 (tget 0 r (16 * k + n) + 1) else 0)) u.belowRun }

/-- R480: a step has been left. -/
def stepLeft (s : State) (k : Nat) : Bool := sensorNos.all fun n => tget 0 s.sup.belowRun (16 * k + n) == 16

/-- R480: the step in force after a conversion. -/
def stepNow (s : State) : Nat :=
  let kept := if s.sup.step == 5 then 5 else [1, 2, 3, 4].foldl (fun m k => if k ≤ s.sup.step && !stepLeft s k then k else m) 0
  max kept (stepOf (hottest s))

/-- R481, R487: a critical stop begins, with its power-down cause. A power-fail drain runs to its end first; in UP the rails go down. -/
def critStart (cause : Nat) (s : State) : State :=
  match s.sup.state with
  | .on =>
    if s.pur.drain == .critical || s.pur.drain == .powerFail then s
    else
      let s := raise 9 4 0x03 (det3 cause 0) s
      drainStart .critical cause false (s.modSup fun u => { u with critStop := some s.clock })
  | .up =>
    let s := raise 9 4 0x03 (det3 cause 0) s
    downStart (critPins (s.modSup fun u => { u with down := cause, restartDue := false, faultDue := false }))
  | _ => s

/-- R480, R490: the step in force changes. -/
def stepChange (s : State) : State :=
  let old := s.sup.step
  let new := stepNow s
  if new == old then s
  else
    let s := s.modSup fun u => { u with step := new, stepPend := true }
    let s := if old == 0 then raise 9 4 0x01 (det3 new 0) s else s
    let s := raise 9 4 0x02 (det3 new old) s
    if new == 5 then critStart 5 s else s

/-- R482: the device temperature is recorded, and counted once a minute. -/
def tempNote (s : State) : State :=
  let t := deviceTemp s
  s.modSup fun u =>
    let due := 60000000000 + u.minAt ≤ s.clock
    { u with sinceOn := max u.sinceOn t, ever := max u.ever t, minAt := if due then s.clock else u.minAt,
             min95 := if due && 95 < t then u.min95 + 1 else u.min95, min105 := if due && 105 < t then u.min105 + 1 else u.min105 }

/-- R479: a sensor breaks; a second broken sensor of its zone starts the critical stop. -/
def sensorBreak (n cause : Nat) (s : State) : State :=
  let s := s.modSup fun u => { u with sensors := tmod default u.sensors n fun x => { x with cause := cause } }
  let s := raise 9 5 0x01 (det3 n cause) s
  let broken := (sensorNos.filter fun m => m / 3 == n / 3 && (sensorAt s m).cause != 0).length
  let s := stepChange s
  if broken == 2 then critStart 6 (raise 9 5 0x02 (det3 (n / 3) 0) s) else s

/-- R479: what a conversion shows: 1 out of range, 2 stuck, 0 neither. -/
def convCause (raw : Int) (same : Nat) : Nat := if raw < -160 || 600 < raw then 1 else if 1024 ≤ same then 2 else 0

/-- SENSOR_CONVERSION (R478-R482): a reading in 0.25 °C. -/
def execSensorConversion (sensor : Nat) (raw : Int) (s : State) : Res :=
  if 12 ≤ sensor || !s.sup.aonOn then .next s
  else
    let x := sensorAt s sensor
    let same := if x.same != 0 && raw == x.raw then min 1024 (x.same + 1) else 1
    let y : Sensor := { x with temp := raw, raw := raw, same := same, last := s.clock }
    let s := s.modSup fun u => { u with sensors := tput default u.sensors sensor y }
    let c := convCause raw same
    let s := if x.cause == 0 && c != 0 then sensorBreak sensor c s else s
    .next (stepChange (tempNote (belowCount sensor (sensorRead (sensorAt s sensor)) s)))

/-- SENSOR_NO_CONVERSION (R479): no conversion for 4 ms. -/
def execSensorNoConversion (sensor : Nat) (s : State) : Res :=
  let x := sensorAt s sensor
  .next (if sensor < 12 && s.sup.aonOn && x.cause == 0 && 4000000 + x.last ≤ s.clock then tempNote (sensorBreak sensor 3 s) else s)

/-- CRITICAL_STOP_TIMEOUT (R481): 10 ms after the stop began. -/
def execCriticalStopTimeout (s : State) : Res :=
  .next (match s.sup.critStop with
    | some t => if 10000000 + t ≤ s.clock && s.pur.drain == .critical then drainOver true s else s
    | none => s)

/-- TEMPERATURE_HISTORY_RECORD (R482). -/
def execTemperatureHistoryRecord (s : State) : Res :=
  .next (if 3600000000000 + s.sup.histAt ≤ s.clock && s.sup.aonOn then
      recordQueue recHealth (s.modSup fun u => { u with histStored := [u.ever, u.min95, u.min105], histAt := s.clock })
    else s)

/-! Registers (R489). -/

/-- R462: the code of a supervisor state. -/
def supCode : SupState → Nat
  | .off => 0
  | .up => 1
  | .on => 2
  | .down => 3
  | .cool => 4
  | .fault => 5
  | .recalling => 6

/-- SUP_STATUS. -/
def supStatus (s : State) : Nat :=
  supCode s.sup.state + 8 * min 7 s.sup.seriesFaults + 2 ^ 6 * b2n s.sup.tripped + 2 ^ 7 * b2n s.pur.holdupOk +
    2 ^ 8 * b2n s.sup.pbPressed + 2 ^ 9 * b2n s.sup.mrLow + 2 ^ 10 * b2n s.sup.faultN + 2 ^ 11 * b2n s.sup.thermTripN +
    2 ^ 12 * b2n s.sup.critStop.isSome

/-- SUP_CAUSE. -/
def supCause (s : State) : Nat := s.sup.down % 16 + 16 * (s.sup.level % 16) + 256 * (s.sup.source % 16)

/-- SUP_COUNTS. -/
def supCounts (s : State) : Nat := s.sup.reinits % 256 + 256 * (s.sup.resets % 256) + 2 ^ 16 * (s.sup.trips % 2 ^ 16)

/-- The mask of the slots for which a property holds. -/
def slotMask (p : Nat → Bool) : Nat := railSlots.foldl (fun m i => if p i then m + 2 ^ i else m) 0

/-- PSQ_RAILS. -/
def psqRails (s : State) : Nat := slotMask (fun i => (railAt s i).good) + 2 ^ 16 * slotMask fun i => (railAt s i).enabled

/-- PSQ_FAULTS. -/
def psqFaults (s : State) : Nat := slotMask (fun i => (railAt s i).faulted) + 2 ^ 16 * slotMask fun i => (railAt s i).abandoned

/-- The code of a slot's state. -/
def railCode : RailState → Nat
  | .off => 0
  | .rising => 1
  | .good => 2
  | .falling => 3
  | .fallen => 4
  | .abandoned => 5
  | .unused => 6

/-- PSQ_RAILs. -/
def psqRail (s : State) (i : Nat) : Nat :=
  if !railUsed s i then 6 else railCode (railAt s i).state + 8 * railSense s i

/-- The broken sensors. -/
def brokenNo (s : State) : Nat := (sensorNos.filter fun n => (sensorAt s n).cause != 0).length

/-- THM_STATUS. -/
def thmStatus (s : State) : Nat :=
  s.sup.step + 8 * b2n (4 ≤ s.sup.step) + 16 * brokenNo s +
    2 ^ 8 * [0, 1, 2, 3].foldl (fun m z => if sensorNos.any fun n => n / 3 == z && (sensorAt s n).cause != 0 then m + 2 ^ z else m) 0

/-- The first sensor that reads the highest. -/
def hotSensor (s : State) : Nat :=
  sensorNos.foldl (fun m n => if sensorRead (sensorAt s m) < sensorRead (sensorAt s n) then n else m) 0

/-- THM_HOT. -/
def thmHot (s : State) : Nat :=
  (sat8 (deviceTemp s)).toNat + 2 ^ 8 * (hotSensor s / 3) + 2 ^ 10 * hotSensor s + 2 ^ 16 * (sat8 s.sup.sinceOn).toNat +
    2 ^ 24 * (sat8 s.sup.ever).toNat

/-- THM_HOURS. -/
def thmHours (s : State) : Nat := min 0xFFFF (s.sup.min95 / 60) + 2 ^ 16 * min 0xFFFF (s.sup.min105 / 60)

/-- THM_SENSORn. -/
def thmSensor (s : State) (n : Nat) : Nat :=
  let x := sensorAt s n
  (BitVec.ofInt 11 (sensorRead x)).toNat + 2 ^ 11 * b2n (x.cause != 0) + 2 ^ 12 * (x.cause % 4) + 2 ^ 14 * (n / 3)

/-- R489: a supervision register, by its offset from 0x060_0000. -/
def supReg (s : State) (off : Nat) : Nat :=
  if off == 0 then supStatus s
  else if off == 4 then supCause s
  else if off == 8 then supCounts s
  else if off == 0x10 then psqRails s
  else if off == 0x14 then psqFaults s
  else if 0x100 ≤ off && off < 0x150 && off % 4 == 0 then (tget 0 s.sup.inputs ((off - 0x100) / 4)).toNat
  else if 0x180 ≤ off && off < 0x1C0 && off % 4 == 0 then psqRail s ((off - 0x180) / 4)
  else if off == 0x200 then thmStatus s
  else if off == 0x204 then thmHot s
  else if off == 0x208 then thmHours s
  else if 0x210 ≤ off && off < 0x240 && off % 4 == 0 then thmSensor s ((off - 0x210) / 4)
  else 0

/-! The commands of class 0xC8 (R382, R488). -/

/-- R488: the body of Get Supervision Status. -/
def yGetSupervisionStatus : Body := fun _ _ s =>
  let temps := sensorNos.map fun n => sat8 ((sensorRead (sensorAt s n)).fdiv 4)
  okOut ([BitVec.ofNat 8 (supCode s.sup.state), BitVec.ofNat 8 s.sup.seriesFaults] ++ toLE 2 (slotMask fun i => (railAt s i).good)
    ++ toLE 2 (slotMask fun i => (railAt s i).enabled) ++ toLE 2 (slotMask fun i => (railAt s i).faulted)
    ++ [BitVec.ofNat 8 s.sup.step, BitVec.ofNat 8 (brokenNo s), sat8 (deviceTemp s), BitVec.ofNat 8 (hotSensor s / 3)] ++ temps
    ++ [BitVec.ofNat 8 s.sup.down, BitVec.ofNat 8 (s.sup.level % 16 + 16 * (s.sup.source % 16))] ++ toLE 2 s.sup.trips
    ++ [BitVec.ofNat 8 s.sup.reinits, BitVec.ofNat 8 s.sup.resets] ++ zeros 34) s

/-- GET_SUPERVISION_STATUS (R488). -/
def execGetSupervisionStatus (p : MbxPort) (payload : List Byte) (s : State) : Res :=
  .next (yciRun 0xC800 yGetSupervisionStatus p payload s)

/-- R488: the body of Get Rail Counters. -/
def yGetRailCounters : Body := fun _ b s =>
  if 16 ≤ le b 0 1 || le b 1 3 != 0 then errAns rcInvalid s
  else
    let c := (railAt s (le b 0 1)).cnt
    okOut (toLE 2 c.seqFaults ++ toLE 2 c.riseTo ++ toLE 2 c.chatter ++ toLE 2 c.downFails ++ toLE 2 c.abandons ++ toLE 2 c.losses
      ++ toLE 2 c.latest ++ toLE 2 c.lowest) s

/-- GET_RAIL_COUNTERS (R488). -/
def execGetRailCounters (p : MbxPort) (payload : List Byte) (s : State) : Res :=
  .next (yciRun 0xC801 yGetRailCounters p payload s)

/-- R26, R471: the ID is not reserved, and the value has no reserved bit. -/
def supIdOk (id v : Nat) : Bool :=
  if id == 0x180 || id == 0x181 then v < 16
  else 0x100 ≤ id && id < 0x180 && id % 8 < 4 && (id % 8 != 0 || (bits v 6 10 == 0 && bits v 1 5 < 20))

/-- R472: the slots whose dependencies are resolved, after n rounds. -/
def railResolve (deps : Nat → Nat → Bool) : Nat → List Nat
  | 0 => []
  | n + 1 =>
    let d := railResolve deps n
    railSlots.filter fun i => railSlots.all fun j => !deps i j || d.contains j

/-- R472: the rail table of a parameter set is usable. -/
def railTableOk (cfg : Tab (BitVec 64)) : Bool :=
  let w (i k : Nat) : Nat := (tget (supReset (0x100 + 8 * i + k)) cfg (0x100 + 8 * i + k)).toNat
  let used (i : Nat) : Bool := bit (w i 0) 0
  let deps (i j : Nat) : Bool := bit (w i 0) (16 + j)
  let used16 := railSlots.filter used
  (railSlots.all fun i => railSlots.all fun j => !deps i j || (used j && j != i)) && (railResolve deps 16).length == 16 &&
    (used16.all fun i => bits (w i 1) 12 12 + bits (w i 1) 24 8 < bits (w i 1) 0 12) &&
    (used16.map fun i => bits (w i 0) 1 5).Nodup

/-- R472: the body of Set Supervision Parameter. -/
def ySetSupervisionParameter : Body := fun _ b s =>
  let id := le b 0 2
  let v := le b 4 4
  let cfg := tput (supReset id) s.sup.railCfg id (BitVec.ofNat 64 v)
  if le b 2 2 != 0 || !supIdOk id v || !railTableOk cfg then errAns rcInvalid s
  else ok (paramQueue id v (s.modSup fun u => { u with railCfg := cfg }))

/-- SET_SUPERVISION_PARAMETER (R472). -/
def execSetSupervisionParameter (p : MbxPort) (payload : List Byte) (s : State) : Res :=
  .next (yciRun 0xC802 ySetSupervisionParameter p payload s)

/-- RESET_DEVICE (R382): a power cycle that is pending is carried out instead (R392). -/
def execResetDevice (p : MbxPort) (payload : List Byte) (s : State) : Res :=
  .next (yciRun 0xC803 (fun _ _ s =>
    ok (s.modCtl fun c => { c with rstPend := if c.rstPend.elim false (·.2) then c.rstPend else some (s.clock, false) })) p payload s)

/-- REQUEST_POWER_CYCLE (R382). -/
def execRequestPowerCycle (p : MbxPort) (payload : List Byte) (s : State) : Res :=
  .next (yciRun 0xC804 (fun _ _ s => ok (s.modCtl fun c => { c with rstPend := some (s.clock, true) })) p payload s)

end Sys2Proof.Machine
end

