-- ==== Sys2Proof/Machine/Reinit.lean ====
section
/-! DEFINITION. Level 2 reinits of the functions and their escalation (R483-R485). The channels' are in Channels, the
engines' in Mover, the heads' in Reset and Ports. -/

namespace Sys2Proof.Machine

/-- R484: reinits are taken in ON, outside a reset. -/
def reinitMay (f : Function) (s : State) : Bool := s.sup.state == .on && !s.sup.inReset && !s.sup.fnBusy.contains f

/-! Escalation (R485). -/

/-- R485: escalation to level 3, or to level 4 where an escalated level 3 reset began within 60 s. -/
def escalate (f : Function) (s : State) : State :=
  let again := s.sup.lastEscalated.elim false fun t => s.clock < 60000000000 + t
  if again then
    let s := raise 9 6 0x03 (det3 (fnCode f) 4) s
    if cycleTakes s then level4Start 4 s else s
  else
    let s := raise 9 6 0x03 (det3 (fnCode f) 3) s
    if resetTakes s then (deviceResetOp 5 (resetHeld s) s).modSup fun u => { u with lastEscalated := some s.clock } else s

/-! The functions (R484). -/

/-- HOME_SLICE_REINIT (R48, R329, R484): the slice's accesses are held and its reservations lost; its eviction buffer drains
before its logic is reset. -/
def execHomeSliceReinit (n : Nat) (s : State) : Res :=
  .next (if n < 8 && reinitMay (.slice n) s then
      reinitStart (.slice n) (resvLose (fun r => sliceOf s r.lineNo == n) 1 s)
    else s)

/-- PURSE_REINIT (R48, R484): DRAM is held in self-refresh; its accesses are held. -/
def execPurseReinit (s : State) : Res :=
  .next (if reinitMay .purse s then
      reinitStart .purse (s.modPur fun u => { u with ready := false, selfRefresh := true, uncorrTimes := [] })
    else s)

/-- R294: the chunks of a reinitialised package engine are dropped, and their descriptors run again from their beginning. -/
def chunksReissue (e : Nat) (s : State) : State :=
  let cs := s.mov.chunks.filter fun c => c.engine == e
  let s := s.modMov fun m => { m with chunks := m.chunks.filter fun c => c.engine != e }
  forEach cs (fun c s => modDesc c.q c.idx (fun d =>
    { d with stage := .fetched, done := 0, poisoned := 0, discarded := 0, status := 0, detail := 0, result := 0, waits := [] }) s) s

/-- PACKAGE_ENGINE_REINIT (R294, R484). -/
def execPackageEngineReinit (e : Nat) (s : State) : Res :=
  .next (if e < 2 && reinitMay (.package e) s && !s.mov.pkgOut.contains e then reinitStart (.package e) (chunksReissue e s) else s)

/-- MAILBOX_REINIT (R484): the command in progress answers INTERNAL_ERROR. -/
def execMailboxReinit (p : MbxPort) (s : State) : Res :=
  .next (if reinitMay (.mailbox p) s then
      let s := reinitStart (.mailbox p) s
      match (mbxOf s p).busy with
      | some c => mbxAnswer p c.opcode rcInternal [] s
      | none => s
    else s)

/-- KEY_PAGE_REINIT (R484): VLT_KEY words are zeroed; loaded slots are kept. -/
def execKeyPageReinit (page : Nat) (s : State) : Res :=
  .next (if page < 8 && reinitMay (.keyPage page) s then
      reinitStart (.keyPage page) (s.modCry fun c => { c with pages := tmod default c.pages page fun k => { k with key := 0, keyWritten := 0 } })
    else s)

/-- R182, R371, R484: the control processors restart from the running image. -/
def cpuReinitOp (s : State) : State :=
  let s := reinitStart .cpu s
  forEach s.led.migs migAbandon (s.modCtl fun c => { c with cpuUp := false })

/-- CPU_REINIT (R484). -/
def execCpuReinit (s : State) : Res := .next (if reinitMay .cpu s then cpuReinitOp s else s)

/-! The end of a reinit (R483, R484). -/

/-- A function whose held work has been reissued is in service again. -/
def reinitEnd (f : Function) (s : State) : State :=
  let s := s.modSup fun u => { u with fnBusy := u.fnBusy.filter (· != f), fnFails := tput 0 u.fnFails (fnCode f) 0 }
  match f with
  | .slice _ => admitWaiting (retryAfter (· == .reinit) s)
  | .purse => admitWaiting (retryAfter (· == .reinit) (s.modPur fun u => { u with ready := true, selfRefresh := false }))
  | .cpu => s.modCtl fun c => { c with cpuUp := true }
  | _ => s

/-- R484: what follows when a function's level 2 fails twice in a row. -/
def reinitFailed (f : Function) (s : State) : State :=
  let s := s.modSup fun u => { u with fnBusy := u.fnBusy.filter (· != f), fnFails := tput 0 u.fnFails (fnCode f) 0 }
  match f with
  | .package e => raise 9 6 0x03 (det3 (fnCode f) 2) (s.modMov fun m => { m with pkgOut := m.pkgOut ++ [e] })
  | .mailbox _ => cpuReinitOp (raise 9 6 0x03 (det3 (fnCode f) 2) s)
  | .slice _ | .purse | .keyPage _ | .cpu => escalate f s
  | .head _ | .channel _ | .engine _ => s

/-- R48: a slice's logic is reset only once its eviction buffer has drained. -/
def reinitReady (f : Function) (s : State) : Bool :=
  match f with
  | .slice n => !s.pur.evb.any fun x => sliceOf s x.lineNo == n
  | _ => true

/-- REINIT_COMPLETE (R483-R485): of a function other than a head, a channel and an engine, whose reinits end at their own
commands. -/
def reinitCompleteOp (f : Function) (ok : Bool) (s : State) : State :=
  if !s.sup.fnBusy.contains f || !reinitReady f s then s
  else if ok then reinitEnd f s
  else if tget 0 s.sup.fnFails (fnCode f) == 0 then s.modSup fun u => { u with fnFails := tput 0 u.fnFails (fnCode f) 1 }
  else reinitFailed f s

/-- REINIT_COMPLETE (R483). A mover engine's is ENGINE_REINIT_DONE, a channel's its bring-up. -/
def execReinitComplete (f : Function) (ok : Bool) (s : State) : Res :=
  match f with
  | .engine e => .next (engineFreed (e % 8) (engineDoneOp (e % 8) ok s))
  | .head _ | .channel _ => .next s
  | _ => .next (reinitCompleteOp f ok s)

end Sys2Proof.Machine
end

