-- ==== Sys2Proof/Machine/Control.lean ====
section
/-! DEFINITION. The mailbox commands of chapter 12 that no other chapter owns: background completion (R369), the inbound
FIFOs and the MCTP endpoint (R373, R374), the CXL subset (R377), firmware (R383-R386), lifecycle and versions (R375, R390). -/

namespace Sys2Proof.Machine

/-! Background commands (R369, R370). -/

/-- R369 for a CXL mailbox: a background command finishes. -/
def cxlBgFinish (p : MbxPort) (rc : Nat) (s : State) : State :=
  match (cxlOf s p).bg with
  | none => s
  | some b =>
    raise 8 0 0x01 ((det3 b.opcode rc).on (headOf p))
      (modCxl p (fun m => { m with bg := none, bgResult := rc, bgPercent := 100 }) s)

/-- R237, R380: the escrow set of a background Close or Abandon: none while it still closes, else the return code. -/
def escrowBgResult (s : State) (op n : Nat) : Option Nat :=
  let x := escSet s n
  if op == 0xC405 then
    if x.abandon || x.state == .free then some rcBusy else if x.state == .closing then none else some 0
  else if x.state == .free then some 0 else none

/-- R369: whether a YCI background command has run to its end, with its return code. -/
def bgReady (s : State) (b : BgCmd) : Option Nat :=
  match b.opcode with
  | 0xC101 | 0xC102 | 0xC103 | 0xC104 | 0xC404 => if b.recs == 0 then some 0 else none
  | 0xC105 => if b.recs == 0 then some b.result else none
  | 0xC108 =>
    if b.arg == 1 then (if s.led.scanDone then some 0 else none)
    else if b.arg == 2 then (if s.led.lost then none else some 0)
    else some 0
  | 0xC200 => if fullLeft s then none else some 0
  | 0xC405 | 0xC406 => escrowBgResult s b.opcode b.arg
  | 0xCA02 => if b.arg == 1 then some 0 else none
  | _ => none

/-- R149: the full assay ends; `retire` retires the folios that meet the criteria. -/
def assayEnd (retire : Bool) (s : State) : State :=
  let s := s.modInteg fun i => { i with assay := false }
  if retire then retireFolios s else s

/-- BG_DONE (R369) of a YCI mailbox. -/
def bgDoneOp (p : MbxPort) (s : State) : State :=
  match (mbxOf s p).bg with
  | none => s
  | some b =>
    match bgReady s b with
    | none => s
    | some rc => bgFinish p rc (if b.opcode == 0xC200 then assayEnd (b.arg == 1) s else s)

/-- BG_DONE (R369) of a CXL mailbox: Scan Media and Sanitize; an online activation ends at its own commands. -/
def cxlBgDoneOp (p : MbxPort) (s : State) : State :=
  match (cxlOf s p).bg with
  | none => s
  | some b =>
    match b.opcode with
    | 0x4304 => if b.arg == 0 && fullLeft s then s else cxlBgFinish p 0 (if b.arg == 0 then assayEnd false s else s)
    | 0x4400 => cxlBgFinish p 0 s
    | 0x0202 => if b.arg == 1 then cxlBgFinish p 0 s else s
    | _ => s

/-- BG_DONE (R369). -/
def execBgDone (p : MbxPort) (cxl : Bool) (s : State) : Res :=
  .next (if firmwareAway p s then s else if cxl then cxlBgDoneOp p s else bgDoneOp p s)

/-! The inbound FIFOs and the MCTP endpoint (R373, R374). -/

/-- A FIFO's number. -/
def fifoNo : FifoPort → Nat
  | .boardFifo => 0
  | .vaultFifo => 1

/-- A FIFO's bytes. -/
def fifoOf (s : State) : FifoPort → List Byte
  | .boardFifo => s.ctl.boardFifo
  | .vaultFifo => s.ctl.vaultFifo

/-- Set a FIFO's bytes. -/
def setFifo (f : FifoPort) (bs : List Byte) (s : State) : State :=
  match f with
  | .boardFifo => s.modCtl fun c => { c with boardFifo := bs }
  | .vaultFifo => s.modCtl fun c => { c with vaultFifo := bs }

/-- R373: firmware that runs takes the complete packets; the bytes of the packet that arrives stay (log entry 37). -/
def fifoTake (f : FifoPort) (s : State) : State :=
  if !s.ctl.cpuUp || s.sup.tripped || s.sup.inReset then s
  else
    let bs := fifoOf s f
    let part := tget 0 s.ctl.fifoPart (fifoNo f)
    (setFifo f (bs.drop (bs.length - part)) s).modCtl fun c => { c with fifoPkts := tput 0 c.fifoPkts (fifoNo f) 0 }

/-- R373: bytes of a packet arrive; at its boundary it is kept, or flushed where it failed a check or overflowed. -/
def fifoPut (f : FifoPort) (bytes : List Byte) (last ok : Bool) (s : State) : State :=
  let k := fifoNo f
  let old := fifoOf s f
  let room := 4096 - old.length
  let now := old ++ bytes.take room
  let part := tget 0 s.ctl.fifoPart k + min room bytes.length
  let spill := room < bytes.length || tget 0 s.ctl.fifoPart (k + 2) == 1
  if !last then
    (setFifo f now s).modCtl fun c => { c with fifoPart := tput 0 (tput 0 c.fifoPart k part) (k + 2) (b2n spill) }
  else
    let keep := ok && !spill
    let s := setFifo f (if keep then now else now.take (now.length - part)) s
    s.modCtl fun c => { c with fifoPart := tput 0 (tput 0 c.fifoPart k 0) (k + 2) 0,
                               fifoPkts := if keep then tmod 0 c.fifoPkts k (· + 1) else c.fifoPkts }

/-- MCTP_PACKET (R373). -/
def execMctpPacket (port : FifoPort) (bytes : List Byte) (last ok : Bool) (s : State) : Res :=
  .next (if portPowered true s then fifoTake port (fifoPut port bytes last ok s) else s)

/-- R374: an MCTP control response: message type 0, command, completion code and data (log entry 37). -/
def mctpControl (cmd cc : Nat) (out : List Byte) (s : State) : State :=
  send (.mctp ([0, BitVec.ofNat 8 cmd, BitVec.ofNat 8 cc] ++ out)) s

/-- R374: an MCTP control command: nothing answers without power; not ready without firmware. -/
def mctpRun (cmd : Nat) (body : List Byte → State → Nat × List Byte × State) (payload : List Byte) (s : State) : State :=
  if !portPowered true s then s
  else if firmwareAway .board s then mctpControl cmd 0x04 [] s
  else
    let (cc, out, s) := body payload s
    mctpControl cmd cc out s

/-- SET_ENDPOINT_ID (R374): operations set and force take an endpoint ID other than 0 and 0xFF. -/
def execSetEndpointId (payload : List Byte) (s : State) : Res :=
  .next (mctpRun 0x01 (fun b s =>
    let e := le b 1 1
    if b.length != 2 then (0x03, [], s)
    else if 2 ≤ le b 0 1 || e == 0 || e == 0xFF then (0x02, [], s)
    else (0, [0, BitVec.ofNat 8 e, 0], s.modCtl fun c => { c with eid := BitVec.ofNat 8 e })) payload s)

/-- GET_ENDPOINT_ID (R374). -/
def execGetEndpointId (payload : List Byte) (s : State) : Res :=
  .next (mctpRun 0x02 (fun _ s => (0, [s.ctl.eid, 0, 0], s)) payload s)

/-- GET_MCTP_VERSION_SUPPORT (R374): one entry, version 1.3.1 (log entry 37). -/
def execGetMctpVersionSupport (payload : List Byte) (s : State) : Res :=
  .next (mctpRun 0x04 (fun _ s => (0, [1, 0x00, 0xF1, 0xF3, 0xF1], s)) payload s)

/-- GET_MESSAGE_TYPE_SUPPORT (R374): MCTP control, CXL CCI and vendor defined PCI. -/
def execGetMessageTypeSupport (payload : List Byte) (s : State) : Res :=
  .next (mctpRun 0x05 (fun _ s => (0, [3, 0x00, 0x08, 0x7E], s)) payload s)

/-- GET_VENDOR_DEFINED_MSG_SUPPORT (R374): one vendor, the PCI vendor ID 0x1D9E. -/
def execGetVendorDefinedMsgSupport (payload : List Byte) (s : State) : Res :=
  .next (mctpRun 0x06 (fun b s =>
    if le b 0 1 == 0 then (0, [0xFF, 0, 0x1D, 0x9E, 0, 0], s) else (0x02, [], s)) payload s)

/-! The CXL subset (R377). Payload layouts are CXL's (log entry 18). -/

/-- IDENTIFY (R377). -/
def execIdentify (p : MbxPort) (payload : List Byte) (s : State) : Res :=
  .next (cxlRun 0x0001 true 0 false (fun p _ s =>
    okOut (toLE 2 0x1D9E ++ toLE 2 (0x3200 + headNo (headOf p)) ++ toLE 4 (subsystemId s) ++ toLE 8 s.board.serial.toNat ++ [12, 3]) s)
    p payload s)

/-- BACKGROUND_OPERATION_STATUS (R377). -/
def execBackgroundOperationStatus (p : MbxPort) (payload : List Byte) (s : State) : Res :=
  .next (cxlRun 0x0002 true 0 false (fun p _ s =>
    let m := cxlOf s p
    okOut ([BitVec.ofNat 8 (b2n m.bg.isSome + 2 * (m.bgPercent % 128)), 0] ++ toLE 2 m.bgOpcode ++ toLE 2 m.bgResult ++ [0, 0]) s)
    p payload s)

/-- REQUEST_ABORT_BACKGROUND_OP (R377): aborts Scan Media only. -/
def execRequestAbortBackgroundOp (p : MbxPort) (payload : List Byte) (s : State) : Res :=
  .next (cxlRun 0x0005 false 0 false (fun p _ s =>
    match (cxlOf s p).bg with
    | some b => if b.opcode == 0x4304 then ok (cxlBgFinish p 0x12 (if b.arg == 0 then assayEnd false s else s)) else errAns rcInvalid s
    | none => errAns rcInvalid s) p payload s)

/-- GET_EVENT_INTERRUPT_POLICY (R377). -/
def execGetEventInterruptPolicy (p : MbxPort) (payload : List Byte) (s : State) : Res :=
  .next (cxlRun 0x0102 true 0 false (fun p _ s => okOut (toLE 4 (portOf s (headOf p)).evtPolicy.toNat) s) p payload s)

/-- SET_EVENT_INTERRUPT_POLICY (R377); bits 3:2 of a log's byte are reserved (R26). -/
def execSetEventInterruptPolicy (p : MbxPort) (payload : List Byte) (s : State) : Res :=
  .next (cxlRun 0x0103 false 4 true (fun p b s =>
    if (List.range 4).any fun i => bits (le b i 1) 2 2 != 0 then errAns rcInvalid s
    else ok (modPort (headOf p) (fun x => { x with evtPolicy := BitVec.ofNat 32 (le b 0 4) }) s)) p payload s)

/-- GET_TIMESTAMP (R377). -/
def execGetTimestamp (p : MbxPort) (payload : List Byte) (s : State) : Res :=
  .next (cxlRun 0x0300 false 0 false (fun p _ s =>
    let x := portOf s (headOf p)
    okOut (toLE 8 (if x.cxlTime == 0 then 0 else x.cxlTime + (s.clock - x.cxlTimeAt))) s) p payload s)

/-- SET_TIMESTAMP (R377): the mint time is not touched. -/
def execSetTimestamp (p : MbxPort) (payload : List Byte) (s : State) : Res :=
  .next (cxlRun 0x0301 false 8 false (fun p b s =>
    ok (modPort (headOf p) (fun x => { x with cxlTime := le b 0 8, cxlTimeAt := s.clock }) s)) p payload s)

/-- The Command Effects Log's UUID. -/
def celUuid : Nat := 0x173F3B62B196798F784B41BFB5C0A90D

/-- R377: the commands of the CXL subset with their effects, as the Command Effects Log lists them: bit 2 data change, 3 policy
change, 4 log change, 6 background. -/
def celEntries : List (Nat × Nat) :=
  [(0x0001, 0), (0x0002, 0), (0x0005, 0), (0x0100, 0), (0x0101, 0x10), (0x0102, 0), (0x0103, 0x08), (0x0200, 0), (0x0201, 0),
   (0x0202, 0x42), (0x0300, 0), (0x0301, 0x08), (0x0400, 0), (0x0401, 0), (0x4000, 0), (0x4100, 0), (0x4200, 0), (0x4201, 0),
   (0x4202, 0x08), (0x4203, 0), (0x4204, 0x08), (0x4300, 0), (0x4301, 0x04), (0x4302, 0x04), (0x4304, 0x40), (0x4400, 0x44)]

/-- The Command Effects Log. -/
def celBytes : List Byte := celEntries.flatMap fun e => toLE 2 e.1 ++ toLE 2 e.2

/-- GET_SUPPORTED_LOGS (R377): the Command Effects Log only. -/
def execGetSupportedLogs (p : MbxPort) (payload : List Byte) (s : State) : Res :=
  .next (cxlRun 0x0400 true 0 false (fun _ _ s =>
    okOut (toLE 2 1 ++ zeros 6 ++ toLE 16 celUuid ++ toLE 4 celBytes.length) s) p payload s)

/-- GET_LOG (R377). -/
def execGetLog (p : MbxPort) (payload : List Byte) (s : State) : Res :=
  .next (cxlRun 0x0401 true 24 false (fun _ b s =>
    if le b 0 16 != celUuid || celBytes.length < le b 16 4 + le b 20 4 then errAns rcInvalid s
    else okOut ((celBytes.drop (le b 16 4)).take (le b 20 4)) s) p payload s)

/-- The capacity in units of 256 MiB. -/
def capacity256 (s : State) : Nat := s.board.folios / 128

/-- The version of a firmware slot as a 16-byte revision. -/
def fwRev (f : FwSlot) : List Byte := toLE 4 f.version.toNat ++ zeros 12

/-- A firmware slot. -/
def fwSlotAt (s : State) (i : Nat) : FwSlot := if i == 0 then s.ctl.fw0 else s.ctl.fw1

/-- The staged slot. -/
def fwStaged (s : State) : FwSlot := fwSlotAt s (1 - s.ctl.fwRunning)

/-- The running slot. -/
def fwRun (s : State) : FwSlot := fwSlotAt s s.ctl.fwRunning

/-- IDENTIFY_MEMORY_DEVICE (R377): persistent capacity V × 2 MiB, no volatile capacity, no LSA, 256 poison records. -/
def execIdentifyMemoryDevice (p : MbxPort) (payload : List Byte) (s : State) : Res :=
  .next (cxlRun 0x4000 true 0 false (fun _ _ s =>
    okOut (fwRev (fwRun s) ++ toLE 8 (capacity256 s) ++ toLE 8 0 ++ toLE 8 (capacity256 s) ++ toLE 8 0 ++ toLE 2 256 ++ toLE 2 256
      ++ toLE 2 256 ++ toLE 2 256 ++ toLE 4 0 ++ toLE 3 256 ++ toLE 2 0 ++ [0, 0]) s) p payload s)

/-- GET_PARTITION_INFO (R377): all capacity persistent. -/
def execGetPartitionInfo (p : MbxPort) (payload : List Byte) (s : State) : Res :=
  .next (cxlRun 0x4100 false 0 false (fun _ _ s =>
    okOut (toLE 8 0 ++ toLE 8 (capacity256 s) ++ toLE 8 0 ++ toLE 8 0) s) p payload s)

/-- R152: INT_STATUS.DEGRADED: a die is failed and not replaced by a completed rebuild. -/
def intDegraded (s : State) : Bool :=
  (popChans s).any fun c => (List.range 18).any fun p => (failedDies s c).getLsbD p && tget 0 s.integ.subst c != p + 1

/-- R188: the health status bits: maintenance needed, performance degraded, hardware replacement needed. -/
def healthStatus (s : State) : Nat :=
  b2n (reserveCount s ≤ floorF s || 0 < readOnlyCount s) + 2 * b2n (intDegraded s || 3 ≤ s.sup.step) +
    4 * b2n ((reserveCount s == 0 && !s.led.overdraft.isEmpty) || s.led.lost)

/-- R188, R352: media status: 0 normal, 1 not ready, 3 all data lost. -/
def mediaStatus (s : State) : Nat := if s.led.lost then 3 else if s.led.memActive then 0 else 1

/-- R377: the additional status: life used and temperature against the programmed warnings and the critical values. -/
def healthExtra (s : State) (h : Head) : Nat :=
  let a := (portOf s h).alertCfg.toNat
  let life := if 100 ≤ lifeUsed s then 2 else if bit a 0 && bits a 8 8 ≤ lifeUsed s then 1 else 0
  let t := deviceTemp s
  let temp := if 115 ≤ t then 2 else if bit a 1 && (BitVec.ofNat 16 (bits a 16 16)).toInt ≤ t then 1 else 0
  life + 4 * temp

/-- GET_HEALTH_INFO (R188). -/
def execGetHealthInfo (p : MbxPort) (payload : List Byte) (s : State) : Res :=
  .next (cxlRun 0x4200 true 0 false (fun p _ s =>
    okOut ([BitVec.ofNat 8 (healthStatus s), BitVec.ofNat 8 (mediaStatus s), BitVec.ofNat 8 (healthExtra s (headOf p)),
      BitVec.ofNat 8 (lifeUsed s)] ++ toLE 2 (BitVec.ofInt 16 (deviceTemp s)).toNat ++ toLE 4 (tallyVal s 3)
      ++ toLE 4 (rval s 0x80018) ++ toLE 4 (rval s 0x200040)) s) p payload s)

/-- GET_ALERT_CONFIGURATION (R377): life used and over-temperature can be programmed; the critical values are 100 % and the
critical step's 115 °C. -/
def execGetAlertConfiguration (p : MbxPort) (payload : List Byte) (s : State) : Res :=
  .next (cxlRun 0x4201 true 0 false (fun p _ s =>
    let a := (portOf s (headOf p)).alertCfg.toNat
    okOut ([BitVec.ofNat 8 (bits a 0 2), 3, 100, BitVec.ofNat 8 (bits a 8 8)] ++ toLE 2 115 ++ toLE 2 0xFFD8 ++ toLE 2 (bits a 16 16)
      ++ zeros 6) s) p payload s)

/-- SET_ALERT_CONFIGURATION (R377); the other alerts' bits and byte 3 are reserved (R26). -/
def execSetAlertConfiguration (p : MbxPort) (payload : List Byte) (s : State) : Res :=
  .next (cxlRun 0x4202 false 12 false (fun p b s =>
    if 4 ≤ le b 0 1 || 4 ≤ le b 1 1 || le b 3 1 != 0 then errAns rcInvalid s
    else
      let old := (portOf s (headOf p)).alertCfg.toNat
      let on := (List.range 2).foldl (fun m i => m + (if bit (le b 0 1) i then (if bit (le b 1 1) i then 2 ^ i else 0) else bits old i 1 * 2 ^ i)) 0
      let life := if bit (le b 0 1) 0 then le b 2 1 else bits old 8 8
      let temp := if bit (le b 0 1) 1 then le b 4 2 else bits old 16 16
      ok (modPort (headOf p) (fun x => { x with alertCfg := BitVec.ofNat 64 (on + 2 ^ 8 * life + 2 ^ 16 * temp) }) s)) p payload s)

/-- GET_SHUTDOWN_STATE (R377). -/
def execGetShutdownState (p : MbxPort) (payload : List Byte) (s : State) : Res :=
  .next (cxlRun 0x4203 false 0 false (fun p _ s => okOut [(portOf s (headOf p)).shutdown] s) p payload s)

/-- SET_SHUTDOWN_STATE (R377). -/
def execSetShutdownState (p : MbxPort) (payload : List Byte) (s : State) : Res :=
  .next (cxlRun 0x4204 false 1 false (fun p b s =>
    if 2 ≤ le b 0 1 then errAns rcInvalid s
    else ok (modPort (headOf p) (fun x => { x with shutdown := BitVec.ofNat 8 (le b 0 1) }) s)) p payload s)

/-- R377: the poison source of a record: injected for a line poisoned by command or by a host, internal otherwise. -/
def poisonSource (syn : Nat) : Nat := if syn == 0 then 1 else 2

/-- GET_POISON_LIST (R377). -/
def execGetPoisonList (p : MbxPort) (payload : List Byte) (s : State) : Res :=
  .next (cxlRun 0x4300 false 16 false (fun _ b s =>
    let lo := le b 0 8
    let hi := lo + 64 * le b 8 8
    let xs := s.integ.poisonList.filter fun e => lo < e.1 * 256 + 256 && e.1 * 256 < hi
    okOut ([BitVec.ofNat 8 (b2n (254 < xs.length) + 4 * b2n s.integ.assay), 0] ++ zeros 8 ++ toLE 2 (min 254 xs.length) ++ zeros 20 ++
      (xs.take 254).flatMap fun e => toLE 8 (e.1 * 256 + poisonSource e.2) ++ toLE 4 4 ++ zeros 4) s) p payload s)

/-- CXL's INVALID_PHYSICAL_ADDRESS. -/
def rcAddress : Nat := 0xF

/-- A device-memory DPA of a provisioned folio, aligned to a sector, on which a poison command acts. -/
def poisonTarget (s : State) (dpa : Nat) : Bool :=
  dpa % 64 == 0 && dpa < s.board.folios * 2 ^ 21 && provisioned (ent s (dpa / 2 ^ 21)) && s.led.memActive && !s.led.lost

/-- R377, R59: a poison command's access to the sector of a DPA, in the line's order behind those that wait; the command answers at
once (DESIGN CHOICE, log entry 104). Where the line's key is not loaded it answers INVALID_PHYSICAL_ADDRESS. -/
def poisonAccess (by_ : TxnBy) (p : MbxPort) (dpa : Nat) (d : Sector) (s : State) : Ans :=
  let e := ent s (dpa / 2 ^ 21)
  if (domKey s e.key).isNone then errAns rcAddress s
  else
    ok (ownTxn { head := headOf p, tag := 0, write := true, lineNo := dpa / 256, sector := dpa / 64 % 4, key := e.key, since := s.clock,
                 wait := .snoop, data := d, enables := BitVec.allOnes 64, poison := false, own := false, by_ := by_ } false s)

/-- INJECT_POISON (R377, R195): the line is brought to the purse, and its POISON set. -/
def execInjectPoison (p : MbxPort) (payload : List Byte) (s : State) : Res :=
  .next (cxlRun 0x4301 false 8 false (fun p b s =>
    if !poisonTarget s (le b 0 8) then errAns rcAddress s else poisonAccess .inject p (le b 0 8) 0 s) p payload s)

/-- CLEAR_POISON (R377, R49): the sector is written, and POISON clears as a write of all four sectors does. -/
def execClearPoison (p : MbxPort) (payload : List Byte) (s : State) : Res :=
  .next (cxlRun 0x4302 false 72 false (fun p b s =>
    if !poisonTarget s (le b 0 8) then errAns rcAddress s
    else poisonAccess .clear p (le b 0 8) (BitVec.ofNat 512 (le b 8 64)) s) p payload s)

/-- SCAN_MEDIA (R377): the full assay without retirement; one of length 0 reads no line (R27). -/
def execScanMedia (p : MbxPort) (payload : List Byte) (s : State) : Res :=
  .next (cxlRun 0x4304 false 17 true (fun p b s =>
    if 2 ≤ le b 16 1 then errAns rcInvalid s
    else if le b 8 8 == 0 then cxlBgStart p 0x4304 1 s
    else if s.integ.assay || (cxlOf s p).bg.isSome then errAns rcBusy s
    else cxlBgStart p 0x4304 0 (fullStart s)) p payload s)

/-- SANITIZE (R377, R529): a format. -/
def execSanitize (p : MbxPort) (payload : List Byte) (s : State) : Res :=
  .next (cxlRun 0x4400 false 0 false (fun p _ s =>
    if (cxlOf s p).bg.isSome then errAns rcBusy s else cxlBgStart p 0x4400 0 (formatOp s)) p payload s)

/-! Firmware (R383-R386). -/

/-- Update of the staged slot. -/
def modStaged (f : FwSlot → FwSlot) (s : State) : State :=
  s.modCtl fun c => if c.fwRunning == 0 then { c with fw1 := f c.fw1 } else { c with fw0 := f c.fw0 }

/-- R383, R451: the page writes of transferred bytes. -/
def fwPages (off : Nat) : Nat → List Byte → State → State
  | 0, _, s => s
  | n + 1, bs, s =>
    if bs.isEmpty then s
    else
      let base := if s.ctl.fwRunning == 0 then 0x0A00000 else 0x0600000
      fwPages (off + 256) n (bs.drop 256) (pageQueue 7 (base + off) (bs.take 256) 0 s)

/-- R383: bytes join the staged image; at its full length the image is complete. -/
def fwAppend (off total : Nat) (data : List Byte) (s : State) : State :=
  let s := fwPages off 17 data s
  let s := modStaged (fun f => { f with data := f.data ++ data, bytes := off + data.length, total := total, state := .partial_ }) s
  let s := s.modCtl fun c => { c with fwLast := s.clock }
  if off + data.length < total then s
  else
    let d := (fwStaged s).data
    let g := Config.sha384 d
    raise 8 1 0x01 (det3 total 0) (modStaged (fun f =>
      { f with state := .complete, version := Config.imageVersion d, svn := Config.imageSvn d, forB1 := Config.imageForB1 d,
               digest := g, sigOk := Config.ecdsaOk 0 (toLE 48 g.toNat) (Config.imageSignature d) }) s)

/-- R383: another port owns the staged slot. -/
def fwOwned (s : State) (p : MbxPort) : Bool :=
  s.ctl.fwActivating.isSome || s.ctl.fwOwner.elim false fun q => q != p && s.clock < 60000000000 + s.ctl.fwLast

/-- R383: a transfer of image data; one of total length 0 leaves the slot empty (R27). -/
def fwTransfer (p : MbxPort) (off total : Nat) (data : List Byte) (s : State) : Ans :=
  if fwOwned s p then errAns rcBusy s
  else if off % 256 != 0 || 2 ^ 22 < total || total < off + data.length ||
      (data.length % 4 != 0 && off + data.length != total) then errAns rcInvalid s
  else if off == 0 then
    let s := modStaged (fun _ => FwSlot.init) (s.modCtl fun c => { c with fwOwner := some p, fwAtReset := false })
    ok (if total == 0 then s else fwAppend 0 total data s)
  else
    let f := fwStaged s
    if s.ctl.fwOwner != some p || f.state != .partial_ || f.bytes != off || f.total != total then errAns rcInvalid s
    else ok (fwAppend off total data s)

/-- R384: the staged image's checks, in order: 0 where it passes. -/
def fwCheck (s : State) : Nat :=
  let f := fwStaged s
  if !(f.state == .complete || f.state == .verified) || !f.forB1 then rcInvalid
  else if !f.sigOk && !(s.ctl.life == .debugUnlocked && s.ctl.authDigest == some f.digest) then rcSignature
  else if f.svn.toNat < tallyVal s 0 then rcRollback
  else 0

/-- R392: a mailbox runs a background command. -/
def anyBg (s : State) : Bool :=
  s.ctl.board.bg.isSome || s.fe.portA.mbx.bg.isSome || s.fe.portA.cxl.bg.isSome || s.fe.portB.mbx.bg.isSome || s.fe.portB.cxl.bg.isSome

/-- R385: the processors restart into the other image (online), or the slot is marked for the next device reset. -/
def fwActivate (online : Bool) (p : MbxPort) (s : State) : State :=
  let s := modStaged (fun f => { f with state := .verified }) s
  if online then
    s.modCtl fun c => { c with cpuUp := false, fwRunning := 1 - c.fwRunning, fwActivating := some s.clock, fwBy := some p, fwAtReset := false }
  else s.modCtl fun c => { c with fwAtReset := true }

/-- R379, R384: the body of Activate Firmware. -/
def yActivateFirmware : Body := fun p b s =>
  if 2 ≤ le b 0 1 || le b 1 3 != 0 then errAns rcInvalid s
  else if anyBg s || s.ctl.fwActivating.isSome then errAns rcBusy s
  else
    match fwCheck s with
    | 0 =>
      let a := bgStart p 0xCA02 (le b 0 1) 0 s
      { a with st := fwActivate (le b 0 1 == 0) p a.st }
    | rc => errAns rc s

/-- ACTIVATE_FIRMWARE_ONLINE (R385). -/
def execActivateFirmwareOnline (p : MbxPort) (payload : List Byte) (s : State) : Res :=
  .next (yciRun 0xCA02 yActivateFirmware p (withAction 0 payload) s)

/-- ACTIVATE_FIRMWARE_AT_RESET (R385). -/
def execActivateFirmwareAtReset (p : MbxPort) (payload : List Byte) (s : State) : Res :=
  .next (yciRun 0xCA02 yActivateFirmware p (withAction 1 payload) s)

/-- R383: the body of Transfer Firmware. -/
def yTransferFirmware : Body := fun p b s => fwTransfer p (le b 0 4) (le b 4 4) (b.drop 8) s

/-- TRANSFER_FIRMWARE (R383). -/
def execTransferFirmware (p : MbxPort) (payload : List Byte) (s : State) : Res := .next (yciRun 0xCA01 yTransferFirmware p payload s)

/-- The code of a staged state (R379). -/
def fwCode : FwState → Nat
  | .empty_ => 0
  | .partial_ => 1
  | .complete => 2
  | .verified => 3

/-- R379: the body of Get Firmware Info. -/
def yGetFirmwareInfo : Body := fun _ _ s =>
  let r := fwRun s
  let f := fwStaged s
  okOut (toLE 4 r.version.toNat ++ toLE 2 r.svn.toNat ++ toLE 2 f.svn.toNat ++ toLE 4 f.version.toNat ++ toLE 2 (tallyVal s 0)
    ++ [BitVec.ofNat 8 s.ctl.fwRunning, BitVec.ofNat 8 (fwCode f.state)] ++ zeros 48) s

/-- GET_FIRMWARE_INFO (R379). -/
def execGetFirmwareInfo (p : MbxPort) (payload : List Byte) (s : State) : Res := .next (yciRun 0xCA00 yGetFirmwareInfo p payload s)

/-- GET_FW_INFO (R377): two slots, online activation. -/
def execGetFwInfo (p : MbxPort) (payload : List Byte) (s : State) : Res :=
  .next (cxlRun 0x0200 true 0 false (fun _ _ s =>
    let staged := if s.ctl.fwAtReset then 2 - s.ctl.fwRunning else 0
    okOut ([2, BitVec.ofNat 8 (s.ctl.fwRunning + 1 + 8 * staged), 1] ++ zeros 13 ++ fwRev s.ctl.fw0 ++ fwRev s.ctl.fw1 ++ zeros 32) s)
    p payload s)

/-- R377, R383: the body of Transfer FW: full, initiate, continue, end and abort; the offset is in units of 128 bytes. -/
def cTransferFw : Body := fun p b s =>
  let data := b.drop 128
  let off := 128 * le b 4 4
  if le b 2 2 != 0 || ((b.take 128).drop 8).any (· != 0) then errAns rcInvalid s
  else
  match le b 0 1 with
  | 0 => fwTransfer p 0 data.length data s
  | 1 => fwTransfer p 0 (2 ^ 22) data s
  | 2 => fwTransfer p off (2 ^ 22) data s
  | 3 =>
    if fwOwned s p || s.ctl.fwOwner != some p || (fwStaged s).bytes != off || 2 ^ 22 < off + data.length then errAns rcInvalid s
    else ok (fwAppend off (off + data.length) data s)
  | 4 => if fwOwned s p then errAns rcBusy s else ok (modStaged (fun _ => FwSlot.init) (s.modCtl fun c => { c with fwOwner := none }))
  | _ => errAns rcInvalid s

/-- TRANSFER_FW (R383). -/
def execTransferFw (p : MbxPort) (payload : List Byte) (s : State) : Res :=
  .next (cxlRun 0x0201 true 128 true cTransferFw p payload s)

/-- R377, R384: the body of Activate FW, of the staged slot. -/
def cActivateFw : Body := fun p b s =>
  if 2 ≤ le b 0 1 || le b 1 1 != 2 - s.ctl.fwRunning then errAns rcInvalid s
  else if anyBg s || s.ctl.fwActivating.isSome then errAns rcBusy s
  else
    match fwCheck s with
    | 0 =>
      let a := cxlBgStart p 0x0202 (le b 0 1) s
      { a with st := fwActivate (le b 0 1 == 0) p a.st }
    | rc => errAns rc s

/-- ACTIVATE_FW (R384). -/
def execActivateFw (p : MbxPort) (payload : List Byte) (s : State) : Res :=
  .next (cxlRun 0x0202 true 2 false cActivateFw p payload s)

/-- The mailboxes. -/
def allMbx : List MbxPort := [.a, .b, .board]

/-- R385: the background command of an online activation finishes. -/
def fwBgFinish (rc : Nat) (s : State) : State :=
  forEach allMbx (fun p s =>
    let s := if (mbxOf s p).bg.elim false (fun b => b.opcode == 0xCA02 && b.arg == 0) then bgFinish p rc s else s
    if (cxlOf s p).bg.elim false (fun b => b.opcode == 0x0202 && b.arg == 0) then cxlBgFinish p rc s else s) s

/-- R376: the highest version served at or below a declared one. -/
def versionFall (served : BitVec 3) (d : Nat) : Nat := [0, 1, 2].foldl (fun m v => if v ≤ d && served.getLsbD v then v else m) 0

/-- R376: a mailbox whose declared version is no longer served. -/
def versionCheck (p : MbxPort) (s : State) : State :=
  let d := (mbxOf s p).declared
  if s.ctl.versions.getLsbD d then s
  else
    let s := modMbx p (fun m => { m with declared := versionFall s.ctl.versions d }) s
    let s := if p == .board then s else rbit s (regKey (headOf p) 0x2001C) 2
    raise 8 0 0x02 ((det3 d (versionFall s.ctl.versions d)).on (headOf p)) s

/-- FW_ACTIVATED (R385, R376): the new image reports ready within 2 s, with the versions it serves. -/
def execFwActivated (versions : BitVec 3) (s : State) : Res :=
  .next (match s.ctl.fwActivating with
    | none => s
    | some t =>
      if 2000000000 + t ≤ s.clock then s
      else
        let s := s.modCtl fun c => { c with fwActivating := none, fwBy := none, fwActAt := some s.clock, fwOwner := none,
                                            versions := versions, cpuUp := true }
        let s := forEach allMbx versionCheck s
        let s := if (fwRun s).sigOk then driftStore (fwRun s).data s else s
        fwBgFinish 0 (raise 8 1 0x02 (det3 (fwRun s).version.toNat (fwRun s).svn.toNat) s))

/-- FW_REVERTED (R385): after 2 s without readiness the previous image runs again. -/
def execFwReverted (s : State) : Res :=
  .next (match s.ctl.fwActivating with
    | none => s
    | some t =>
      if s.clock < 2000000000 + t then s
      else
        let s := s.modCtl fun c => { c with fwActivating := none, fwBy := none, fwRunning := 1 - c.fwRunning, cpuUp := true }
        fwBgFinish rcInternal (raise 8 1 0x03 (det3 (fwRun s).version.toNat 0) s))

/-- FW_SLOT_IDLE_TIMEOUT (R383). -/
def execFwSlotIdleTimeout (s : State) : Res :=
  .next (if s.ctl.fwOwner.isSome && 60000000000 + s.ctl.fwLast ≤ s.clock then s.modCtl fun c => { c with fwOwner := none } else s)

/-- R386: the body of Commit Rollback Floor; it answers once the floor's advance has completed. -/
def yCommitRollbackFloor : Body := fun p _ s =>
  let u := (fwRun s).svn.toNat
  if s.ctl.fwActAt.elim false fun t => s.clock < 60000000000 + t then errAns rcInvalid s
  else if tallyRefused s 0 u then ok s
  else
    ⟨rcNone, [], tallyAdvance 0 u (modMbx p (fun m =>
      { m with busy := some { opcode := 0xCA04, result := 0, recs := 0, arg := u }, busySince := s.clock }) s)⟩

/-- COMMIT_ROLLBACK_FLOOR (R386). -/
def execCommitRollbackFloor (p : MbxPort) (payload : List Byte) (s : State) : Res := .next (yciRun 0xCA04 yCommitRollbackFloor p payload s)

/-- R386: the floor's advance has completed: the mailboxes that wait for it answer. -/
def floorAnswer (s : State) : State :=
  forEach allMbx (fun p s =>
    match (mbxOf s p).busy with
    | some b => if b.opcode == 0xCA04 && b.arg ≤ tallyVal s 0 then mbxAnswer p 0xCA04 0 [] s else s
    | none => s) s

/-! Lifecycle and versions (R375, R379, R390). -/

/-- GET_LIFECYCLE_STATE (R379). -/
def execGetLifecycleState (p : MbxPort) (payload : List Byte) (s : State) : Res :=
  .next (yciRun 0xCA03 (fun _ _ s => okOut ([BitVec.ofNat 8 (lifeNo s.ctl.life), BitVec.ofNat 8 (b2n s.ctl.lockout)] ++ zeros 6) s) p payload s)

/-- GET_INTERFACE_VERSIONS (R379). -/
def execGetInterfaceVersions (p : MbxPort) (payload : List Byte) (s : State) : Res :=
  .next (yciRun 0xCB00 (fun p _ s =>
    okOut ([BitVec.ofNat 8 s.ctl.versions.toNat, BitVec.ofNat 8 (mbxOf s p).declared] ++ zeros 6) s) p payload s)

/-- R375: the body of Declare Interface Version. -/
def yDeclareInterfaceVersion : Body := fun p b s =>
  let v := le b 0 1
  if le b 1 3 != 0 || 3 ≤ v then errAns rcInvalid s
  else if !s.ctl.versions.getLsbD v then errAns rcVersion s
  else okOut [BitVec.ofNat 8 v, 0, 0, 0] (modMbx p (fun m => { m with declared := v }) s)

/-- DECLARE_INTERFACE_VERSION (R375). -/
def execDeclareInterfaceVersion (p : MbxPort) (payload : List Byte) (s : State) : Res :=
  .next (yciRun 0xCB01 yDeclareInterfaceVersion p payload s)

end Sys2Proof.Machine
end

