-- ==== Sys2Proof/Machine/Passbook.lean ====
section
/-! DEFINITION. The passbook (R446-R461): recall, page writes and what they complete, parameters, tally counters, and the
loss of VDD_AON (R450, R462). -/

namespace Sys2Proof.Machine

/-! Parameters (R454). -/

/-- R454: the ID of an RWP register's parameter. -/
def isRwpId (id : Nat) : Bool := 0x10 ≤ id && id < 0x1A

/-- R454, R471: the ID names a parameter. -/
def paramKnown (id : Nat) : Bool := (1 ≤ id && id < 5) || isRwpId id || id == 0x20 || supIdOk id 0

/-- R454: the reset value of a parameter. -/
def paramDefault (id : Nat) : BitVec 64 :=
  if id < 0x10 then paramReset id
  else if isRwpId id then (regReset (rwpOffs.getD (id - 0x10) 0)).setWidth 64
  else if id == 0x20 then 0x12
  else supReset id

/-- R454: the value of parameter 1 to 4 as last written: a pending page write's, else the passbook's. -/
def paramValue (s : State) (id : Nat) : Nat :=
  let ws := (s.pb.writing.toList ++ s.pb.writes).filter fun w => w.cls == 6 && w.addr == paramAddr id
  match ws.getLast? with
  | some w => le w.data 0 8
  | none => (tget (paramReset id) s.pb.params id).toNat

/-- R454: the body of Read Passbook Parameter. -/
def yReadPassbookParameter : Body := fun _ b s =>
  let id := le b 0 2
  if le b 2 2 != 0 || !paramKnown id then errAns rcInvalid s
  else
    let v := if isRwpId id then rval s (rwpOffs.getD (id - 0x10) 0)
      else if id == 0x20 then s.pair.policy.toNat
      else if 0x100 ≤ id then supParam s id
      else paramValue s id
    okOut (toLE 8 v) s

/-- READ_PASSBOOK_PARAMETER (R454). -/
def execReadPassbookParameter (p : MbxPort) (payload : List Byte) (s : State) : Res :=
  .next (yciRun 0xC700 yReadPassbookParameter p payload s)

/-- R454: the value lies within the parameter's width and range. -/
def paramOk (id v : Nat) : Bool :=
  if id < 3 then v < 2 ^ 16 else if id == 3 then 0x08 ≤ v && v ≤ 0x77 else v < 2 ^ 32

/-- R454: the body of Write Passbook Parameter. -/
def yWritePassbookParameter : Body := fun _ b s =>
  let id := le b 0 2
  let v := le b 4 8
  if le b 2 2 != 0 || !paramKnown id then errAns rcInvalid s
  else if id == 0x20 || 0x100 ≤ id then errAns rcNotPermitted s
  else if !paramOk id v then errAns rcInvalid s
  else if isRwpId id then ok (rwpWrite (id - 0x10) (BitVec.ofNat 32 v) s)
  else ok (paramQueue id v s)

/-- WRITE_PASSBOOK_PARAMETER (R454). -/
def execWritePassbookParameter (p : MbxPort) (payload : List Byte) (s : State) : Res :=
  .next (yciRun 0xC701 yWritePassbookParameter p payload s)

/-- GET_TALLY_COUNTER (R457). -/
def execGetTallyCounter (p : MbxPort) (payload : List Byte) (s : State) : Res :=
  .next (yciRun 0xC702 (fun _ b s =>
    if 5 ≤ le b 0 1 || le b 1 3 != 0 then errAns rcInvalid s
    else
      let v := tallyVal s (le b 0 1)
      okOut (toLE 4 v ++ [BitVec.ofNat 8 (b2n (v == 0xFFFFFFFF)), 0, 0, 0]) s) p payload s)

/-! Page writes (R449-R451, R458). -/

/-- R454: the passbook copy of a parameter, as written by the first n bytes of its page write. -/
def paramStore (w : PageWrite) (n : Nat) (s : State) : State :=
  let id := w.addr / 8
  let old := (tget (paramDefault id) s.pb.params id).toNat
  let v := le w.data 0 n + old / 2 ^ (8 * n) * 2 ^ (8 * n)
  s.modPb fun p => { p with params := tput (paramDefault id) p.params id (BitVec.ofNat 64 v) }

/-- R458: a word of a tally counter is written; step 1 puts the advance in force and queues step 2, which completes it. -/
def tallyStep (w : PageWrite) (s : State) : State :=
  let c := (w.addr - 0x110000) / 4096
  let u := le w.data 0 4
  if w.addr % 4096 < 2048 then
    let s := pageQueue 3 (w.addr + 2048) w.data 0 (tallyWord c 0 u s)
    if c == 0 then raise 8 1 0x04 (det3 u 0) s else s
  else
    let s := tallyWord c 1 u s
    if c == 0 then floorAnswer s else s

/-- R274: VALID of a recoinage page is written. -/
def recoinValid (p : Nat) (s : State) : State :=
  recoinFree (s.modCry fun c => { c with pagesRc := c.pagesRc.map fun e => if e.1 == p then (e.1, { e.2 with valid := true }) else e })

/-- What a completed page write does, by its area (R447); the records whose contents State holds in structured form took them
when they were queued (log entry 21). -/
def pageApply (w : PageWrite) (s : State) : State :=
  if w.data.isEmpty then s
  else if w.addr < 0x010000 then paramStore w (min 8 w.data.length) s
  else if 0x110000 ≤ w.addr && w.addr < 0x120000 then tallyStep w s
  else if 0x130000 ≤ w.addr && w.addr < 0x1B0000 then rangeStore w s
  else if recRecoin 0 ≤ w.addr && w.addr < recRecoin 8 && w.addr % 0x200 == 0 then recoinValid ((w.addr - recRecoin 0) / 0x200) s
  else if w.principal / 256 == 0x03 then policyPut ((w.addr - recPolicy 0) / 16) (BitVec.ofNat 8 (le w.data 1 1)) s
  else s

/-- PAGE_WRITE_DONE (R449): the write completes, its vault request is answered, and the next one starts. -/
def execPageWriteDone (s : State) : Res :=
  .next (match s.pb.writing with
    | none => s
    | some w => pageStart (vaultAnswer w.principal 0 (pageApply w (s.modPb fun p => { p with writing := none }))))

/-! Recall (R452, R453). -/

/-- R453: one word that recall could not correct, by area. -/
def recallFault (addr : Nat) (s : State) : State :=
  let s := raise 8 3 0x02 (det3 addr 0) s
  let addr := addr / 4 * 4
  if addr < 0x010000 then
    let id := addr / 8
    (s.modPb fun p => { p with params := p.params.filter (fun e => e.1 != id), faultIds := p.faultIds ++ [id] }).modSup fun u =>
      { u with railCfg := u.railCfg.filter fun e => e.1 != id }
  else if 0x110000 ≤ addr && addr < 0x120000 then s.modPb fun p => { p with tallyBad := p.tallyBad ++ [(addr - 0x110000) / 4] }
  else if 0x130000 ≤ addr && addr < 0x1B0000 then
    let (v, s) := takeFree 32 s
    rangeStore { cls := 5, addr := addr, data := toLE 4 v.toNat, principal := 0 } s
  else s

/-- R451, R452: the rewrite in place of a corrected word. It writes the bytes that the word holds, and carries none. -/
def recallRewrite (addr : Nat) (s : State) : State := pageQueue 4 (addr / 4 * 4) [] 0 s

/-- RECALL (R452): VDD_AON becomes good. -/
def execRecallRun (faults : List RecallFault) (s : State) : Res :=
  if s.sup.aonOn then .next s
  else
    let s := s.modSup fun u => { u with aonOn := true, aonAt := s.clock, state := .recalling, scanAt := s.clock, minAt := s.clock,
                                        histAt := s.clock, rtcCrystal := true }
    let s := summaryLoad (s.modPb fun p => { p with recalling := true, faultIds := [], tallyBad := [] })
    let s := forEach (faults.filter (·.fatal)) (fun f s => recallFault f.addr s) s
    let fixed := faults.filter fun f => !f.fatal
    let s := forEach fixed (fun f s => recallRewrite f.addr s) s
    .next (if fixed.isEmpty then s else raise 8 3 0x01 (det3 fixed.length 0) s)

/-- RECALL_COMPLETE (R462, R472): to UP, or to OFF; to FAULT where a rail parameter is lost. A power-on that the supply
delays waits in OFF (R473). -/
def execRecallComplete (s : State) : Res :=
  if s.sup.state != .recalling then .next s
  else
    let s := pageStart (s.modPb fun p => { p with recalling := false })
    let s := s.modSup fun u => { u with state := .off }
    .next (if s.pb.faultIds.any fun id => 0x100 ≤ id && id < 0x180 then faultEnter (s.modSup fun u => { u with down := 9 })
      else if !bit (supParam s 0x180) 3 then s
      else upAsk s)

/-! The loss of VDD_AON (R450, R462). -/

/-- R450: a page write that power ends leaves a prefix of its words. -/
def pageTorn (w : PageWrite) (words : Nat) (s : State) : State :=
  let n := 4 * (words % (w.data.length / 4 + 1))
  if n == 0 then s
  else if w.addr < 0x010000 then paramStore w (min n 8) s
  else if 0x130000 ≤ w.addr && w.addr < 0x1B0000 then rangeStore { w with data := w.data.take n } s
  else if 0x110000 ≤ w.addr && w.addr < 0x120000 then
    tallyWord ((w.addr - 0x110000) / 4096) (if w.addr % 4096 < 2048 then 0 else 1) (le w.data 0 4) s
  else s

/-- R169, R171, R450: the append that power ends leaves its record whole, torn, or not begun. -/
def appendTorn (words : Nat) (s : State) : State :=
  match s.led.appends, s.led.appending with
  | r :: rest, true =>
    if words == 0 then s.modLed fun l => { l with appending := false }
    else appendLand { recNow s r with torn := decide (words < 8) } rest s
  | _, _ => s

/-- R450, R533: the record of a drain whose page write has not completed is not in the passbook: the run mark stays. -/
def drainUnwritten (s : State) : State :=
  if (s.pb.writing.toList ++ s.pb.writes).any fun w => w.addr == recDrain && w.cls == 1 then
    s.modPur fun u => { u with pfRecord := none, runMark := true }
  else s

/-- R450, R486: what the passbook loses with VDD_AON: writes that have not started, and the rest of the one in progress. -/
def passbookOff (s : State) : State :=
  let (k, s) := takeFree 8 (drainUnwritten s)
  let s := match s.pb.writing with
    | some w => pageTorn w k.toNat s
    | none => s
  let s := (appendsDrop (appendTorn (k.toNat % 9) s)).modPb fun p => { p with writing := none, writes := [], recalling := false, tallySat := [] }
  s.modPb fun p => { p with paramsUp := [] }

/-- R470, R471, R482, R489: the supervisor without VDD_AON: what the passbook holds is kept. -/
def supOff (s : State) : State :=
  let h := s.sup.histStored
  s.modSup fun u =>
    { Super.reset with state := .off, aonOn := false, supplyGood := false, railCfg := s.pb.params.filter (fun e => 0x100 ≤ e.1),
                       rails := u.cntStored.map (fun e => (e.1, { (default : Rail) with cnt := { e.2 with latest := 0, lowest := 0 } })),
                       cntStored := u.cntStored, histStored := h, ever := h.getD 0 0, min95 := (h.getD 1 0).toNat,
                       min105 := (h.getD 2 0).toNat, mrLow := u.mrLow, pbPressed := false, pllLocked := false }

/-- VDD_AON_LOSS (R462): the whole controller loses power. -/
def execVddAonLoss (s : State) : Res :=
  if !s.sup.aonOn then .next s
  else
    .next (supOff (coreOff (passbookOff s)))

end Sys2Proof.Machine
end

