-- ==== Sys2Proof/Machine/Views.lean ====
section
/-! DEFINITION. What each register reads as: the view of the state through BAR0 and the queue pages of BAR2 (R7, R24,
R25, R111, R112, R152, R190, R216, R242, R243, R284, R303, R308, R310, R332, R363, R367, R417, R427, R433, R439-R443,
R489). -/

namespace Sys2Proof.Machine

/-! Clock islands (R16, R24). -/

/-- R11, R16: a cluster has a populated channel. -/
def clusterUsed (s : State) (k : Nat) : Bool := (popChans s).any fun c => c / 4 == k

/-- R16: a channel of the cluster is reinitialised. -/
def clusterReinit (s : State) (k : Nat) : Bool := (List.range 4).any fun i => (chan s (4 * k + i)).state == .reinit

/-- R16, R24: a domain's clock runs. Unpopulated clusters and host links that are down run until the firmware's start-up
stops them. -/
def domRuns (s : State) (d : Nat) : Bool :=
  s.isl.on.getLsbD d &&
    (if d == 0 then (portOf s .a).rate != 0 || !s.led.recovered
     else if d == 1 then (portOf s .b).rate != 0 || !s.led.recovered
     else if d < domMC0 then !s.sup.inReset
     else if d < domCPU then !s.sup.inReset && (clusterUsed s (d - domMC0) || !s.led.recovered) && !clusterReinit s (d - domMC0)
     else if d == domCPU then !s.sup.inReset
     else true)

/-- A word with bit i set where the property holds, for i below n. -/
def maskOf (n : Nat) (p : Nat → Bool) : Nat := (List.range n).foldl (fun a i => a + b2n (p i) * 2 ^ i) 0

/-- Writes held for a domain (R20). -/
def heldFor (s : State) (d : Nat) : List HeldWrite := s.isl.held.filter fun w => w.dom == d

/-- R363: GC_LINK_A and GC_LINK_B. -/
def linkWord (s : State) (h : Head) : Nat :=
  let p := portOf s h
  let lv := match p.level with | .pcie => 0 | .cxl11 => 1 | .cxl20 => 2 | .cxl31 => 3
  p.rate + p.width * 2 ^ 3 + lv * 2 ^ 5 + b2n (p.level == .cxl31) * 2 ^ 7 + b2n p.ideIo * 2 ^ 8 + b2n p.ideMem * 2 ^ 9 +
    b2n p.ptmEn * 2 ^ 10 + b2n (memEnabled s h) * 2 ^ 11

/-- R24, R363: the global control block. -/
def gcReg (s : State) (off : Nat) : Nat :=
  if off == 0x0 then 0x320000B1
  else if off == 0x4 then s.sup.portbMode.toNat
  else if off == 0x20 then linkWord s .a
  else if off == 0x24 then linkWord s .b
  else if off == 0x48 then maskOf 18 (domRuns s)
  else if off == 0x4C then maskOf 18 fun d => !(heldFor s d).isEmpty
  else rval s off

/-! Mailbox, events, MSI-X (R367, R368, R441, R361). -/

/-- R368: word i of the payload buffer: the output, what the host has written since, or undefined bytes beyond it. -/
def payloadWord (m : Mailbox) (i : Nat) : BitVec 32 :=
  match tget none m.written i with
  | some w => w
  | none =>
    if m.answered == 0 then 0
    else
      let byte := fun k => if k < m.out.length then m.out.getD k 0
        else (Config.freeValue 32768 (m.answered - 1)).extractLsb' (8 * k) 8
      BitVec.ofNat 32 (le [byte (4 * i), byte (4 * i + 1), byte (4 * i + 2), byte (4 * i + 3)] 0 4)

/-- The Yargen mailbox of a head. -/
def hostMbx (s : State) (h : Head) : Mailbox := (portOf s h).mbx

/-- R367: the mailbox block of a head, by offset from 0x002_0000. -/
def mbxReg (s : State) (h : Head) (off : Nat) : Nat :=
  let m := hostMbx s h
  if off == 0x0 then 0xC + s.ctl.versions.toNat * 16
  else if off == 0x4 then m.declared
  else if off == 0xC then rval s (regKey h 0x2000C) + b2n m.busy.isSome
  else if off == 0x10 then m.ret % 2 ^ 16 + m.out.length * 2 ^ 16
  else if off == 0x14 then m.bgOpcode + m.bgPercent * 2 ^ 16 + b2n m.bg.isSome * 2 ^ 23
  else if off == 0x18 then m.bgResult
  else if 0x1000 ≤ off && off < 0x2000 then (payloadWord m ((off - 0x1000) / 4)).toNat
  else rval s (regKey h (0x20000 + off))

/-- The head and vector that EVT_COAL_SEL selects (R441). -/
def coalSel (s : State) : Head × Nat := (if bit (rval s 0x30600) 11 then .b else .a, bits (rval s 0x30600) 0 11)

/-- R441: the event block, by BAR0 offset. -/
def evtReg (s : State) (off : Nat) : Nat :=
  if off == 0x30000 then maskOf 10 fun n => rget s (0x30010 + 4 * n) != 0
  else if off == 0x30604 then
    let c := tget coal0 (portOf s (coalSel s).1).coal (coalSel s).2
    c.count + c.holdUs * 2 ^ 8
  else rval s off

/-- R361: the MSI-X table of a head, by word. -/
def msixReg (s : State) (h : Head) (w : Nat) : Nat :=
  let v := tget vec0 (portOf s h).msix (w / 4)
  match w % 4 with
  | 0 => v.addr.toNat % 2 ^ 32
  | 1 => v.addr.toNat / 2 ^ 32
  | 2 => v.data.toNat
  | _ => b2n v.masked

/-- R361: word w of a head's Pending Bit Array. -/
def pbaReg (s : State) (h : Head) (w : Nat) : Nat := maskOf 32 fun i => (portOf s h).pba.contains (32 * w + i)

/-! Daybook and audit (R427, R433, R435, R442, R443). -/

/-- R427: the sequence number k after the cursor, 0 skipped. -/
def seqPlus (c : BitVec 32) (k : Nat) : Nat := (c.toNat - 1 + k) % (2 ^ 32 - 1) + 1

/-- R442: the daybook block, by offset from 0x004_0000. FREEZE and THAW clear themselves as they act and read 0 (DESIGN CHOICE,
log entry 65). -/
def dbkReg (s : State) (off : Nat) : Nat :=
  let e := s.ev
  if off == 0x0 then b2n e.frozen + 2 * b2n (e.frozen && 16384 ≤ e.ring.length)
  else if off == 0x8 then (e.ring.head?.elim 0 fun r => r.seq.toNat)
  else if off == 0xC then e.next.toNat
  else if off == 0x10 then e.cursor.toNat
  else if off == 0x14 then e.lostCnt.toNat
  else if off == 0x18 then e.trigCode.toNat + b2n e.trigArmed * 2 ^ 16
  else if 0x8000 ≤ off && off < 0x10000 then
    match e.ring.find? fun r => r.seq.toNat == seqPlus e.cursor ((off - 0x8000) / 32) with
    | some r => le (dbBytes r) ((off - 0x8000) % 32) 4
    | none => 0
  else 0

/-- R443: the snapshot buffer that AUD_SNAP_SEL shows. -/
def snapShown (s : State) : Snap := tget snap0 s.ev.snaps (rval s 0x50008 % 4)

/-- The 32-bit half of a 64-bit value at a byte offset. -/
def half (v off : Nat) : Nat := if off % 8 == 0 then v % 2 ^ 32 else v / 2 ^ 32 % 2 ^ 32

/-- R433, R443: the audit block, by BAR0 offset. -/
def audReg (s : State) (off : Nat) : Nat :=
  if off == 0x50000 then
    b2n s.ev.snapCopy.isSome + 2 * b2n (!s.ev.snapReqs.isEmpty || s.ev.clearAt.isSome || !s.ev.histAt.isEmpty)
  else if off == 0x500E4 then ((queueAt s (rval s 0x500E0)).elim 0 fun x => x.perm.toNat)
  else if 0x50100 ≤ off && off < 0x50120 then le (snapHeader (snapShown s)) (off - 0x50100) 4
  else if 0x52000 ≤ off && off < 0x54000 then half (tget 0 (snapShown s).ctrs ((off - 0x52000) / 8)).toNat off
  else if 0x54000 ≤ off && off < 0x56000 then half (ctrVal s ((off - 0x54000) / 8)) off
  else rval s off

/-- R433: the domain that holds a live counter. -/
def ctrDomain (i : Nat) : Nat := if 96 ≤ i && i < 352 then domMC0 + (i - 96) / 32 else domFAB

/-! Timebase and orders (R242, R243). -/

/-- R242: the timebase block, by BAR0 offset. -/
def tbsReg (s : State) (off : Nat) : Nat :=
  let t := s.tbs
  if off == 0x60000 then b2n t.set + 2 * b2n t.locked + 4 * b2n t.slewing + rval s 0x60000
  else if off == 0x60004 then t.source.toNat
  else if off == 0x60008 || off == 0x6000C then half t.mint.toNat off
  else if off == 0x60010 then t.setLo.toNat
  else if off == 0x60014 then t.setHi.toNat
  else if off == 0x60018 then t.ptmCfg.toNat
  else if off == 0x60020 then t.offsetLo.toNat
  else if off == 0x60024 then t.offset.toNat / 2 ^ 32
  else if off == 0x60028 then t.ptmErr.toNat
  else 0

/-- R243: standing orders and escrow sets, by BAR0 offset. -/
def soReg (s : State) (off : Nat) : Nat :=
  if off == 0x61000 then b2n (soRunning s) + 2 * b2n s.so.halted + rval s 0x61000
  else if off == 0x61010 then (s.so.entries.filter fun e => soHeld e.2).length
  else if off == 0x61014 then s.so.fired
  else if off == 0x61018 then s.so.late
  else if 0x61100 ≤ off && off < 0x61200 then escWord (escSet s ((off - 0x61100) / 4))
  else if 0x64000 ≤ off && off < 0x65000 then soWord (soEnt s ((off - 0x64000) / 4))
  else if 0x68000 ≤ off && off < 0x70000 then
    bits (soEnt s ((off - 0x68000) / 32)).bytes.toNat (8 * ((off - 0x68000) % 32)) 32
  else rval s off

/-! Purse and till (R216). -/

/-- R216: the purse block, by offset from 0x008_0000. -/
def purReg (s : State) (off : Nat) : Nat :=
  let p := s.pur
  if off == 0x0 then
    2 ^ s.board.dramIfs - 1 + b2n s.board.dram16 * 2 ^ 4 + s.board.dramRate * 2 ^ 5 + dramMiB s / 1024 * 2 ^ 8
  else if off == 0x4 then b2n p.ready + 2 * b2n p.selfRefresh + 4 * b2n p.sboxClearing + rval s 0x80004
  else if off == 0xC then purseSlots s
  else if off == 0x14 then p.sboxAct
  else if off == 0x20 then regLedger s
  else if off == 0x24 then regCtr s
  else if off == 0x28 then 160
  else if off == 0x2C then 76
  else if off == 0x30 then 9
  else if off == 0x34 then 64
  else rval s (0x80000 + off)

/-- R216: the till registers, by offset from 0x008_0100. The thresholds read zero until the regions are laid out. -/
def tilReg (s : State) (off : Nat) : Nat :=
  let p := s.pur
  if off == 0x0 then
    b2n p.metered + s.sup.holdupDecl.toNat * 2 + b2n p.holdupReady * 2 ^ 3 + b2n p.lossAccepted * 2 ^ 4 +
      b2n p.lateForced * 2 ^ 5 + b2n (holdupShort s) * 2 ^ 6 + rval s 0x80100
  else if off == 0x8 then (if p.ready then p.budget else 0)
  else if off == 0xC then occupancy s
  else if off == 0x10 then (if p.ready then highWater s else 0)
  else if off == 0x14 then (if p.ready then lowWater s else 0)
  else if off == 0x18 then (dirtyCtrs s).length
  else if off == 0x1C then p.evb.length
  else if off == 0x24 then p.pfLast.1 + b2n p.pfLast.2 * 2 ^ 16
  else rval s (0x80100 + off)

/-! Media (R111, R112). -/

/-- R111: the registers of channel c. COMMIT reads 0 always, also while COMMIT_PENDING is 1 (DESIGN CHOICE, log entry 67). -/
def mchReg (s : State) (c off : Nat) : Nat :=
  let x := chan s c
  if off == 0x0 then
    c + x.gen * 2 ^ 5 + (if x.dies == 16 then 2 else if x.dies == 8 then 1 else 0) * 2 ^ 7 +
      b2n (x.present.getLsbD 16) * 2 ^ 9 + b2n (x.present.getLsbD 17) * 2 ^ 10
  else if off == 0x4 then
    chStateCode x.state + x.thermal * 2 ^ 3 + b2n (x.thermal == 3) * 2 ^ 5 + b2n x.quiet * 2 ^ 6 + rval s (mch c 0x4)
  else if off == 0x8 then x.present.toNat
  else if off == 0x14 then (if s.board.m2.getLsbD c then rval s (mch c 0x14) else 0)
  else if off == 0x18 then mapInForce s c % 2 ^ 32
  else if off == 0x1C then mapInForce s c / 2 ^ 32
  else if off == 0x24 then 2 * b2n x.commitBuf.isSome
  else if off == 0x30 then inFlight s c .read + inFlight s c .write * 2 ^ 8 + inFlight s c .maint * 2 ^ 16
  else rval s (mch c off)

/-- R112: the media cluster globals, by offset from 0x012_8000. -/
def mclReg (s : State) (off : Nat) : Nat :=
  if off < 0x10 then (tget 0 s.med.groupMask (off / 4)).toNat
  else if off == 0x10 then s.med.bcastDiff.toNat
  else if off == 0x14 then maskOf 32 fun c => (chan s c).state != .off
  else if off == 0x18 then maskOf 32 fun c => (chan s c).gen == 2
  else 0

/-! Integrity (R152). -/

/-- R152: INT_DIE_STATEn. -/
def dieStateWord (s : State) (c : Nat) : Nat :=
  let su := tget 0 s.integ.subst c
  (failedDies s c).toNat + (if su == 0 then 0x1F else su - 1) * 2 ^ 18 + b2n (s.integ.rebuildCh == some c) * 2 ^ 23

/-- R152: INT_SPARE_FREEn: the fewest free entries, and the lowest position with them. -/
def spareWord (s : State) (c : Nat) : Nat :=
  let ps := (List.range 18).filter fun p => (chan s c).present.getLsbD p
  match ps with
  | [] => 0
  | p :: _ =>
    let b := ps.foldl (fun b q => if spareFree s c q < spareFree s c b then q else b) p
    spareFree s c b + b * 2 ^ 9

/-- R136, R152: a word of a drift table. -/
def driftWord (s : State) (m2 : Bool) (w : Nat) : Nat :=
  if w % 2 == 0 then ageMin (w / 2) else (driftOf s m2 (w / 2)).toNat

/-- R152: the integrity block, by offset from 0x020_0000. -/
def intReg (s : State) (off : Nat) : Nat :=
  let i := s.integ
  if off == 0x0 then
    b2n (intDegraded s) + 2 * b2n i.rebuildCh.isSome + 4 * b2n (inSearch s) + 8 * b2n (!i.scrub.isEmpty) + rval s 0x200000
  else if off == 0x20 then
    (match i.rebuildCh with | some c => c + i.rebuildPos * 2 ^ 5 + 2 ^ 10 | none => 0) + rval s 0x200020
  else if off == 0x24 then i.rebuildChunk
  else if 0x100 ≤ off && off < 0x180 then dieStateWord s ((off - 0x100) / 4)
  else if 0x180 ≤ off && off < 0x200 then spareWord s ((off - 0x180) / 4)
  else if 0x200 ≤ off && off < 0x2A0 then driftWord s true ((off - 0x200) / 4)
  else if 0x300 ≤ off && off < 0x3A0 then driftWord s false ((off - 0x300) / 4)
  else rval s (0x200000 + off)

/-! Wear and ledger (R190). -/

/-- R190: the counts 0x014 to 0x040, zero until the ledger is recovered. -/
def wlvCount (s : State) (off : Nat) : Nat :=
  if !s.led.recovered then 0
  else if off == 0x14 then reserveCount s
  else if off == 0x18 then writtenOff s
  else if off == 0x1C then readOnlyCount s
  else if off == 0x20 then s.led.overdraft.length
  else if off == 0x24 then wearMax s
  else if off == 0x28 then wearMean s
  else if off == 0x2C then wearMinRes s
  else if off == 0x30 then mediaN s
  else if off == 0x34 then migRunning s + min 0xFFFF (s.led.migs.filter fun g => g.phase == .queued).length * 2 ^ 5
  else if off == 0x38 then s.led.ring.length
  else if off == 0x3C then (s.led.seqNext - 1).toNat
  else if off == 0x40 then s.led.ckptSeq.toNat
  else 0

/-- R190: the wear and ledger block, by offset from 0x028_0000. -/
def wlvReg (s : State) (off : Nat) : Nat :=
  let l := s.led
  if off == 0x0 then
    b2n (recoveryRuns s) + 2 * b2n l.lost + 4 * b2n l.scanActive + 8 * b2n l.ckptActive + l.ckptUsed * 16 +
      b2n (l.recovered && reserveCount s ≤ floorF s) * 2 ^ 6 + b2n (l.recovered && reserveCount s == 0) * 2 ^ 7 +
      b2n l.journalFull * 2 ^ 8 + b2n l.overdraftFull * 2 ^ 9 + rval s 0x280000
  else if off == 0x8 || off == 0xC || off == 0x10 then rval s (0x280000 + off)
  else wlvCount s off

/-! Inline and package cipher (R284, R303). -/

/-- R282, R284: ICE_TREE_FAULTn; the root is level 6. -/
def treeFaultWord (s : State) (n : Nat) : Nat :=
  match s.cry.faults[n]? with
  | some f => f.2 + f.1 * 2 ^ 21
  | none => 0

/-- R284, R303: the inline cipher block, by offset from 0x030_0000. -/
def iceReg (s : State) (off : Nat) : Nat :=
  let c := s.cry
  if off == 0x0 then
    b2n (sealedOn s) + 2 * b2n (!c.faults.isEmpty) + 4 * b2n (!c.recoins.isEmpty) + rval s 0x300000
  else if off == 0x8 then c.sealedCfg.toNat
  else if off == 0xC then c.dbgMode.toNat + 4 * b2n (s.ctl.life == .debugUnlocked)
  else if 0x10 ≤ off && off < 0x20 then iceLoaded s ((off - 0x10) / 4)
  else if 0x20 ≤ off && off < 0x30 then maskOf 32 fun i => domSealed s (32 * ((off - 0x20) / 4) + i)
  else if off == 0x30 then
    min 1024 c.faults.length + b2n c.widened * 2 ^ 11 + (c.tree.filter fun t => t.2.dirty).length * 2 ^ 12
  else if 0x80 ≤ off && off < 0xC0 then treeFaultWord s ((off - 0x80) / 4)
  else if off == 0x100 then maskOf 2 (fun e => s.mov.chunks.any fun k => k.engine == e) + rval s 0x300100
  else if off == 0x104 then c.cm.toNat % 8
  else if off == 0x108 then pkgLoaded s 0
  else if off == 0x10C then pkgLoaded s 1
  else rval s (0x300000 + off)

/-! Mover, pair (R332, R417). -/

/-- R332: MOV_ENGn. -/
def engineWord (s : State) (n : Nat) : Nat :=
  let e := engineAt s n
  (if !e.inService then 3 else if e.reinit then 2 else if engineFlight s n == 0 then 0 else 1) +
    engineQueues s n * 2 ^ 2 + engineFlight s n * 2 ^ 15

/-- R332: the mover block, by offset from 0x040_0000. -/
def movReg (s : State) (off : Nat) : Nat :=
  if off == 0x0 then maskOf 8 (fun n => (engineAt s n).inService) + rval s 0x400000
  else if off == 0x8 then (queueList s).length
  else if 0x10 ≤ off && off < 0x30 then engineWord s ((off - 0x10) / 4)
  else rval s (0x400000 + off)

/-- R417: the pair block, by offset from 0x050_0000. -/
def pairReg (s : State) (off : Nat) : Nat :=
  let p := s.pair
  if off == 0x0 then pairStatus s
  else if off == 0x4 then p.policy.toNat
  else if off == 0xC then p.barrierDone.toNat + b2n p.barrier.isSome * 2 ^ 18
  else if off == 0x10 then p.timeErr.toNat
  else if off == 0x14 then (debtAll s).length
  else if off == 0x18 then p.debtPeer.length
  else if off == 0x1C then (p.mirror.filter fun m => !m.acked).length
  else 0

/-! The queue pages of BAR2 (R308, R310, R439, R440). -/

/-- R440: histogram h may be read through the page of queue x. -/
def histShown (s : State) (x : Queue) (h : Nat) : Bool :=
  x.perm.getLsbD h && !bit (histSel s h) 5 && x.grants.getLsbD (bits (histSel s h) 6 7)

/-- R439: the 64-bit counter of a queue page at an offset. -/
def qpCounter (s : State) (x : Queue) (off : Nat) : Nat :=
  if off == 0x1000 then x.cntDesc.toNat
  else if off == 0x1008 then x.cntLines.toNat
  else if off == 0x1010 then x.cntHost.toNat
  else if off == 0x1018 then x.cntErr.toNat
  else if off == 0x1020 then x.cntStFail.toNat
  else if off == 0x1028 then x.lastTime.toNat
  else if 0x1100 ≤ off && off < 0x1900 then
    let h := (off - 0x1100) / 0x100
    if histShown s x h then ctrVal s (768 + 32 * h + (off - 0x1100) % 0x100 / 8) else 0
  else 0

/-- R308, R310: a word of a queue page; one of a queue not created, or created through the other head, reads as zero.
GATE_OPEN and GATE_CLOSE clear themselves as they act and read 0 (DESIGN CHOICE, log entry 65). -/
def qpReg (s : State) (h : Head) (off : Nat) : Nat :=
  let o := off % 0x10000
  match pageOf s h (off / 0x10000) with
  | none => 0
  | some x =>
    if o == 0x0 then x.sqTail
    else if o == 0x4 then x.cqHead
    else if o == 0x8 then x.sqHead
    else if o == 0xC then x.cqTail
    else if o == 0x10 then qpStatus x
    else if o == 0x18 then qpInfo x
    else if 0x1000 ≤ o && o < 0x2000 then half (qpCounter s x (o / 8 * 8)) o
    else 0

/-! The whole view. -/

/-- What an aligned word of BAR0 below 0x010_0000 reads as. -/
def lowReg (s : State) (h : Head) (off : Nat) : Nat :=
  if off < 0x10000 then gcReg s off
  else if off < 0x20000 then (Config.cxlReg (headNo h) off).toNat
  else if off < 0x30000 then mbxReg s h (off - 0x20000)
  else if off < 0x34000 then evtReg s off
  else if off < 0x34100 then pbaReg s h ((off - 0x34000) / 4)
  else if 0x38000 ≤ off && off < 0x40000 then msixReg s h ((off - 0x38000) / 4)
  else if off < 0x40000 then 0
  else if off < 0x50000 then dbkReg s (off - 0x40000)
  else if off < 0x60000 then audReg s off
  else if off < 0x61000 then tbsReg s off
  else if off < 0x70000 then soReg s off
  else if off < 0x80000 then (Config.cxlReg (headNo h) off).toNat
  else if off < 0x80100 then purReg s (off - 0x80000)
  else if off < 0x90000 then tilReg s (off - 0x80100)
  else 0

/-- What an aligned word of BAR0 reads as from a head; an offset where no register is defined reads as zero (R25). -/
def regView (s : State) (h : Head) (off : Nat) : Nat :=
  if off < 0x100000 then lowReg s h off
  else if off < 0x120000 then mchReg s ((off - 0x100000) / 0x1000) (off % 0x1000)
  else if 0x128000 ≤ off && off < 0x129000 then mclReg s (off - 0x128000)
  else if 0x200000 ≤ off && off < 0x280000 then intReg s (off - 0x200000)
  else if 0x280000 ≤ off && off < 0x300000 then wlvReg s (off - 0x280000)
  else if 0x300000 ≤ off && off < 0x400000 then iceReg s (off - 0x300000)
  else if 0x400000 ≤ off && off < 0x500000 then movReg s (off - 0x400000)
  else if 0x500000 ≤ off && off < 0x600000 then pairReg s (off - 0x500000)
  else if 0x600000 ≤ off && off < 0x700000 then supReg s (off - 0x600000)
  else 0

end Sys2Proof.Machine
end

