-- ==== Sys2Proof/Machine/Regs.lean ====
section
/-! DEFINITION. Register accesses: access errors, crossings to stopped islands, apertures, latching reads, and what a write
of each register does (R6, R19-R21, R25, R26, R29, R30, R110-R113, R242, R346, R361, R367, R368, R433, R441-R443). -/

namespace Sys2Proof.Machine

/-- The state a command answers, or the state before it where it answers none. -/
def stOf (r : Res) (s : State) : State :=
  match r with
  | .next t => t
  | _ => s

/-! The doorbell of a Yargen mailbox (R367, R368). -/

/-- R378: the commands of classes 0xC1 to 0xC4. -/
def yciSubmit1 (op : Nat) (p : MbxPort) (b : List Byte) (s : State) : Option State :=
  match op with
  | 0xC100 => some (yciRun op yGetCapacityInfo p b s)
  | 0xC101 => some (yciRun op yProvisionFolios p b s)
  | 0xC102 => some (yciRun op yDeprovisionFolios p b s)
  | 0xC103 => some (yciRun op yZeroFolios p b s)
  | 0xC104 => some (yciRun op ySetFolioAttributes p b s)
  | 0xC105 => some (yciRun op yChangeFolioClass p b s)
  | 0xC106 => some (yciRun op yGetFolioEntry p b s)
  | 0xC107 => some (stOf (execRequestCheckpoint p b s) s)
  | 0xC108 => some (yciRun op yLedgerDecision p b s)
  | 0xC109 => some (stOf (execGetScanReport p b s) s)
  | 0xC10A => some (stOf (execGetWearAndReserveHealth p b s) s)
  | 0xC10B => some (yciRun op ySetTillLoss p b s)
  | 0xC200 => some (yciRun op yStartFullAssay p b s)
  | 0xC201 => some (yciRun op yReadDieRegister p b s)
  | 0xC202 => some (yciRun op yGetChannelStatus p b s)
  | 0xC300 => some (yciRun op yGetDomainInfo p b s)
  | 0xC301 => some (stOf (execGetSealedWindow p b s) s)
  | 0xC400 => some (stOf (execWriteStandingOrder p b s) s)
  | 0xC401 => some (stOf (execArmStandingOrder p b s) s)
  | 0xC402 => some (stOf (execDisarmStandingOrder p b s) s)
  | 0xC403 => some (stOf (execReadStandingOrder p b s) s)
  | 0xC404 => some (yciRun op yCreateEscrowSet p b s)
  | 0xC405 => some (yciRun op yCloseEscrowSet p b s)
  | 0xC406 => some (yciRun op yAbandonEscrowSet p b s)
  | 0xC407 => some (stOf (execGetEscrowSet p b s) s)
  | _ => none

/-- R378: the commands of classes 0xC5 to 0xCB. -/
def yciSubmit2 (op : Nat) (p : MbxPort) (b : List Byte) (s : State) : Option State :=
  match op with
  | 0xC500 => some (yciRun op yCreateQueuePair p b s)
  | 0xC501 => some (yciRun op yDeleteQueuePair p b s)
  | 0xC502 => some (yciRun op ySetQueueGrants p b s)
  | 0xC503 => some (yciRun op yReinitEngine p b s)
  | 0xC504 => some (yciRun op yGetQueueInfo p b s)
  | 0xC600 => some (yciRun op yGetPairStatus p b s)
  | 0xC601 => some (yciRun op ySetPairPolicy p b s)
  | 0xC602 => some (yciRun op yStartSettlement p b s)
  | 0xC603 => some (yciRun op ySplitPair p b s)
  | 0xC700 => some (yciRun op yReadPassbookParameter p b s)
  | 0xC701 => some (yciRun op yWritePassbookParameter p b s)
  | 0xC702 => some (stOf (execGetTallyCounter p b s) s)
  | 0xC800 => some (yciRun op yGetSupervisionStatus p b s)
  | 0xC801 => some (yciRun op yGetRailCounters p b s)
  | 0xC802 => some (yciRun op ySetSupervisionParameter p b s)
  | 0xC803 => some (stOf (execResetDevice p b s) s)
  | 0xC804 => some (stOf (execRequestPowerCycle p b s) s)
  | 0xC900 => some (yciRun op yReadDaybook p b s)
  | 0xC901 => some (yciRun op yFreezeDaybook p b s)
  | 0xC902 => some (yciRun op yGetDaybookSummary p b s)
  | 0xC903 => some (yciRun op yTakeAuditSnapshot p b s)
  | 0xC904 => some (yciRun op yReadAuditSnapshot p b s)
  | 0xC905 => some (yciRun op ySetDaybookRateLimit p b s)
  | 0xCA00 => some (yciRun op yGetFirmwareInfo p b s)
  | 0xCA01 => some (yciRun op yTransferFirmware p b s)
  | 0xCA02 => some (yciRun op yActivateFirmware p b s)
  | 0xCA03 => some (stOf (execGetLifecycleState p b s) s)
  | 0xCA04 => some (yciRun op yCommitRollbackFloor p b s)
  | 0xCB00 => some (stOf (execGetInterfaceVersions p b s) s)
  | 0xCB01 => some (yciRun op yDeclareInterfaceVersion p b s)
  | _ => none

/-- R372: a command by its opcode; a reserved opcode is UNSUPPORTED. -/
def yciSubmit (op : Nat) (p : MbxPort) (b : List Byte) (s : State) : State :=
  match yciSubmit1 op p b s with
  | some t => t
  | none =>
    match yciSubmit2 op p b s with
    | some t => t
    | none => yciRun op (fun _ _ s => errAns rcUnsupported s) p b s

/-- The mailbox of a head. -/
def headMbx : Head → MbxPort
  | .a => .a
  | .b => .b

/-- R367: a write of 1 to MBX_CTL.DOORBELL submits the command of MBX_CMD with its input of the payload buffer; a length
above 4,096 is wrong. -/
def doorbell (h : Head) (s : State) : State :=
  let op := bits (rval s (regKey h 0x20008)) 0 16
  let n := bits (rval s (regKey h 0x20008)) 16 13
  let b := ((List.range 1024).flatMap fun i => toLE 4 (payloadWord (hostMbx s h) i).toNat).take n
  if 4096 < n then yciRun op (fun _ _ s => errAns rcInvalid s) (headMbx h) (b ++ zeros (n - 4096)) s
  else yciSubmit op (headMbx h) b s

/-! Writes, by block. -/

/-- R6: the write of a register that `State.regs` holds. -/
def stored (h : Head) (off : Nat) (v : BitVec 32) (s : State) : State :=
  match rowOf off with
  | some r => rset s (regKey h off) (writeMasked r.rw r.w1c (rget s (regKey h off)) v)
  | none => s

/-- R346: the global control block. GC_HDM_CFG of a committed decoder keeps its value. -/
def writeGc (h : Head) (off : Nat) (v : BitVec 32) (s : State) : State :=
  let i := (off - 0x100) / 4
  if 0x100 ≤ off && off < 0x120 && (tget none (portOf s (if i < 4 then .a else .b)).decoders (i % 4)).isSome then s
  else stored h off v s

/-- R367, R368: the mailbox block of a head, by offset from 0x002_0000. -/
def writeMbx (h : Head) (off : Nat) (v : BitVec 32) (s : State) : State :=
  let busy := (hostMbx s h).busy.isSome
  if off == 0x8 then (if busy then s else stored h 0x20008 v s)
  else if off == 0xC then
    let s := stored h 0x2000C v s
    if v.getLsbD 0 && !busy then doorbell h s else s
  else if 0x1000 ≤ off && off < 0x2000 then
    (if busy then s
     else modMbx (headMbx h) (fun m => { m with written := tput none m.written ((off - 0x1000) / 4) (some v) }) s)
  else stored h (0x20000 + off) v s

/-- R423, R441: EVT_COAL acts on the selected vector; what has accumulated stays. -/
def writeCoal (v : BitVec 32) (s : State) : State :=
  modPort (coalSel s).1 (fun p => { p with coal := tmod coal0 p.coal (coalSel s).2 fun c =>
    { c with count := bits v.toNat 0 8, holdUs := bits v.toNat 8 16 } }) s

/-- R361: a word of the MSI-X table; a vector that it unmasks is signalled if it is pending. -/
def writeMsix (h : Head) (w : Nat) (v : BitVec 32) (s : State) : State :=
  let f := fun x : MsixVec =>
    match w % 4 with
    | 0 => { x with addr := x.addr.extractLsb' 32 32 ++ (v &&& 0xFFFFFFFC) }
    | 1 => { x with addr := v ++ x.addr.extractLsb' 0 32 }
    | 2 => { x with data := v }
    | _ => { x with masked := v.getLsbD 0 }
  pbaFlush h (modPort h (fun p => { p with msix := tmod vec0 p.msix (w / 4) f }) s)

/-- R441, R361: the event block and the MSI-X table. -/
def writeEvt (h : Head) (off : Nat) (v : BitVec 32) (s : State) : State :=
  if 0x30010 ≤ off && off < 0x30038 then stOf (regEvtPendingClear h ((off - 0x30010) / 4) v s) s
  else if off == 0x30604 then writeCoal v s
  else if 0x38000 ≤ off && off < 0x40000 then writeMsix h ((off - 0x38000) / 4) v s
  else stored h off v s

/-- R442: the daybook block; with FREEZE and THAW both written as 1 the daybook freezes, and a cursor of 0 acts as 1. -/
def writeDbk (h : Head) (off : Nat) (v : BitVec 32) (s : State) : State :=
  if off == 0x40004 then
    (if v.getLsbD 0 then stOf (regDaybookFreeze h s) s else if v.getLsbD 1 then stOf (regDaybookThaw h s) s else s)
  else if off == 0x40010 then s.modEv fun e => { e with cursor := if v == 0 then 1 else v }
  else s

/-- R440, R443: AUD_QPERM of the selected queue. -/
def writeQperm (v : BitVec 32) (s : State) : State :=
  modQueue (rval s 0x500E0) (fun x => { x with perm := v.setWidth 8 }) s

/-- R443: the audit block. -/
def writeAud (h : Head) (off : Nat) (v : BitVec 32) (s : State) : State :=
  if off == 0x50004 then
    let s := if v.getLsbD 0 then stOf (regSnap h (v.extractLsb' 16 16) s) s else s
    if v.getLsbD 1 then stOf (regClearCounters h s) s else s
  else if 0x50040 ≤ off && off < 0x500C0 then
    stOf (regSampleCfgWrite h ((off - 0x50040) / 8) (off % 8 == 4) v s) s
  else if 0x500C0 ≤ off && off < 0x500E0 then stOf (regHistCfgWrite h ((off - 0x500C0) / 4) v s) s
  else if off == 0x500E4 then writeQperm v s
  else stored h off v s

/-- R219: a write of TBS_CTL.SOURCE; 0x3 is refused. -/
def writeSource (h : Head) (v : BitVec 32) (s : State) : State :=
  match v.toNat % 4 with
  | 0 => stOf (regSourceHost h s) s
  | 1 => stOf (regSourcePtm h s) s
  | 2 => stOf (regSourcePairLink h s) s
  | _ => setRefused s

/-- R29, R242: the timebase block. A write of the first field of a pair is held. -/
def writeTbs (h : Head) (off : Nat) (v : BitVec 32) (s : State) : State :=
  if off == 0x60004 then writeSource h v s
  else if off == 0x60010 then s.modTbs fun t => { t with setLo := v, setLoHeld := v }
  else if off == 0x60014 then stOf (regTbsSetHi h v s) s
  else if off == 0x60018 then stOf (regTbsPtmCfgWrite h v s) s
  else if off == 0x60020 then s.modTbs fun t => { t with offsetLo := v }
  else if off == 0x60024 then s.modTbs fun t => { t with offset := v ++ t.offsetLo }
  else stored h off v s

/-- R223, R225: a word of a standing-order entry's bytes. -/
def writeEntry (w : Nat) (v : BitVec 32) (s : State) : State :=
  let old := (soEnt s (w / 8)).bytes
  let mask := (0xFFFFFFFF : BitVec 256) <<< (32 * (w % 8))
  soWrite (w / 8) ((old &&& ~~~mask) ||| (v.setWidth 256 <<< (32 * (w % 8)))) s

/-- R243: the standing-order block. -/
def writeSo (h : Head) (off : Nat) (v : BitVec 32) (s : State) : State :=
  if off == 0x61004 then stOf (regSoArm h v s) s
  else if off == 0x61008 then stOf (regSoDisarm h v s) s
  else if 0x68000 ≤ off && off < 0x70000 then writeEntry ((off - 0x68000) / 4) v s
  else stored h off v s

/-- R454: the register is one of the RWP registers, by its number among them. -/
def rwpIndex (off : Nat) : Option Nat := rwpOffs.findIdx? fun o => o == off

/-- R111: a register of channel c. MCH_SLOTMAP_HI is reserved on M1. -/
def writeMch (h : Head) (c off : Nat) (v : BitVec 32) (s : State) : State :=
  if off == 0x14 && !s.board.m2.getLsbD c then s
  else if off == 0x24 then
    let s := if v.getLsbD 0 then stOf (regCommitStaged (.channel c) s) s else s
    if v.getLsbD 2 then stOf (regMchCntClear (.channel c) s) s else s
  else stored h (mch c off) v s

/-- R112: MCL_GROUP_MASKg; the bits of unpopulated channels ignore writes. -/
def writeMcl (off : Nat) (v : BitVec 32) (s : State) : State :=
  let pop := BitVec.ofNat 32 (maskOf 32 fun c => populated s c)
  if off < 0x10 then s.modMed fun m => { m with groupMask := tput 0 m.groupMask (off / 4) (v &&& pop) } else s

/-- The blocks above 0x008_0000 whose writes act: RWP registers, counter clears, CKPT_REQ, PAIR_BARRIER (R152, R190, R216,
R284, R332, R417); the supervision block is read-only for the host (R489). -/
def writeHigh (h : Head) (off : Nat) (v : BitVec 32) (s : State) : State :=
  match rwpIndex off with
  | some i => rwpWrite i v s
  | none =>
    if off == 0x80008 then (if v.getLsbD 0 then stOf (regPurCntClear h s) s else s)
    else if off == 0x200004 then (if v.getLsbD 0 then stOf (regIntCntClear h s) s else s)
    else if off == 0x280004 then (if v.getLsbD 0 then stOf (regCkptReq h s) s else s)
    else if off == 0x300004 then (if v.getLsbD 0 then stOf (regIceCntClear h s) s else s)
    else if off == 0x400004 then (if v.getLsbD 0 then stOf (regMovCntClear h s) s else s)
    else if off == 0x500008 then stOf (regPairBarrier h v s) s
    else stored h off v s

/-- A write of an aligned word of BAR0, its island running. The CXL blocks are written through the CXL commands. -/
def bar0Write (h : Head) (off : Nat) (v : BitVec 32) (s : State) : State :=
  if off < 0x10000 then writeGc h off v s
  else if off < 0x20000 then s
  else if off < 0x30000 then writeMbx h (off - 0x20000) v s
  else if off < 0x40000 then writeEvt h off v s
  else if off < 0x50000 then writeDbk h off v s
  else if off < 0x60000 then writeAud h off v s
  else if off < 0x61000 then writeTbs h off v s
  else if off < 0x70000 then writeSo h off v s
  else if off < 0x80000 then s
  else if 0x100000 ≤ off && off < 0x120000 then writeMch h ((off - 0x100000) / 0x1000) (off % 0x1000) v s
  else if 0x128000 ≤ off && off < 0x129000 then writeMcl (off - 0x128000) v s
  else writeHigh h off v s

/-- R308, R309, R310: a write of an aligned word of a queue page. When both gate bits are written as 1, the gate closes. -/
def bar2Write (h : Head) (off : Nat) (v : BitVec 32) (s : State) : State :=
  let q := off / 0x10000
  let o := off % 0x10000
  if o == 0x0 then stOf (regSqTailDoorbell h q v s) s
  else if o == 0x4 then stOf (regCqHeadDoorbell h q v s) s
  else if o == 0x10 then
    (if v.getLsbD 8 && (pageOf s h q).isSome then modQueue q (fun x => { x with badDoorbell := false }) s else s)
  else if o == 0x14 then
    (if v.getLsbD 1 then stOf (regGateClose h q s) s else if v.getLsbD 0 then stOf (regGateOpen h q s) s else s)
  else s

/-! The accesses (R25). -/

/-- R25: an access of a supported size and alignment. -/
def accAligned (a : BarAccess) : Bool := (a.size == 4 && a.off % 4 == 0) || (a.size == 8 && a.off % 8 == 0)

/-- R25: the 32-bit words that a write covers, the lower offset first. -/
def accWords (a : BarAccess) : List (Nat × BitVec 32) :=
  if a.size == 8 then [(a.off, a.value.extractLsb' 0 32), (a.off + 4, a.value.extractLsb' 32 32)]
  else [(a.off, a.value.extractLsb' 0 32)]

/-- R110: the aperture that a BAR0 offset lies in. -/
def apertureOf (a : BarAccess) : Option ChTarget :=
  if a.bar2 then none
  else if 0x120000 ≤ a.off && a.off < 0x121000 then some .broadcast
  else if 0x121000 ≤ a.off && a.off < 0x125000 then some (.group ((a.off - 0x121000) / 0x1000))
  else none

/-- R21, R342, R433: the domain that holds what an access reaches, an aperture aside. -/
def accDomain (a : BarAccess) : Nat :=
  if a.bar2 then domFAB
  else if a.dir == .read && 0x54000 ≤ a.off && a.off < 0x56000 then ctrDomain ((a.off - 0x54000) / 8)
  else domainOf a.off

/-- R113: the domain of a channel. -/
def chDomain (c : Nat) : Nat := domMC0 + c / 4

/-- R19: an access to a domain is taken at once: its clock runs, and none waits or is held before it. -/
def domFree (s : State) (d : Nat) : Bool :=
  domRuns s d && (heldFor s d).isEmpty && !(s.isl.waiting.any fun w => w.dom == d)

/-- R110, R111: a write as it reaches channel c through an aperture. -/
def writeMember (a : BarAccess) (c : Nat) (s : State) : State :=
  forEach (accWords a) (fun w s => writeMch a.head c (w.1 % 0x1000) w.2 s) s

/-- A write as its island takes it; `member` is the channel that an aperture's write reaches. -/
def writeLand (a : BarAccess) (member : Option Nat) (s : State) : State :=
  match member with
  | some c => writeMember a c s
  | none => forEach (accWords a) (fun w s => if a.bar2 then bar2Write a.head w.1 w.2 s else bar0Write a.head w.1 w.2 s) s

/-- R20: a write while 16 are held is discarded. -/
def heldOverflow (a : BarAccess) (d : Nat) (s : State) : State := raise 8 4 0x02 (det3 a.off d) (rbit s 0x40 1)

/-- R19: an access begins to wait for a stopped island's clock. -/
def waitFor (a : BarAccess) (d : Nat) (member : Option Nat) (s : State) : State :=
  s.modIsl fun i => { i with waiting := i.waiting ++ [{ dom := d, since := s.clock, acc := a, member := member, seq := i.arrivals }],
                             arrivals := i.arrivals + 1 }

/-- R19, R20: a write to a domain: taken, discarded while 16 are held, or waiting. -/
def writeTo (a : BarAccess) (d : Nat) (member : Option Nat) (s : State) : State :=
  if domFree s d then writeLand a member s
  else if 16 ≤ (heldFor s d).length then heldOverflow a d s
  else waitFor a d member s

/-- All ones at the width of an access (R19, R25). -/
def allOnes (a : BarAccess) : BitVec 64 := if a.size == 4 then 0xFFFFFFFF else if a.size == 8 then BitVec.allOnes 64
  else BitVec.ofNat 64 (2 ^ (8 * min 8 a.size) - 1)

/-- A read is answered. -/
def readAnswer (a : BarAccess) (v : BitVec 64) (s : State) : State :=
  send (.barData a.head v) (s.modIsl fun i => { i with lastRead := v })

/-- R242, R433, R439: a 32-bit read of this offset latches its high word. -/
def latches (a : BarAccess) : Bool :=
  if a.bar2 then 0x1000 ≤ a.off % 0x10000 && a.off % 0x10000 < 0x2000 && a.off % 8 == 0
  else a.off == 0x60008 || (0x54000 ≤ a.off && a.off < 0x56000 && a.off % 8 == 0)

/-- The key of a latched high word. -/
def latchKey (a : BarAccess) : Nat := a.off + (if a.bar2 then 2 ^ 28 else 0)

/-- An aligned word as a register reads. -/
def wordView (s : State) (a : BarAccess) (off : Nat) : BitVec 32 :=
  BitVec.ofNat 32 (if a.bar2 then qpReg s a.head off else regView s a.head off)

/-- R25, R242, R433: a read as its island takes it: a 64-bit read is coherent; a 32-bit read of a latching low word latches
the high word, and the next read of that returns what was latched. -/
def readLand (a : BarAccess) (s : State) : State :=
  if a.size == 8 then readAnswer a (wordView s a (a.off + 4) ++ wordView s a a.off) s
  else if latches a then
    let hi := wordView s a (a.off + 4)
    readAnswer a ((wordView s a a.off).setWidth 64)
      (s.modIsl fun i => { i with latchLo := tput none i.latchLo (latchKey a + 4) (some hi) })
  else
    match tget none s.isl.latchLo (latchKey a) with
    | some v => readAnswer a (v.setWidth 64) (s.modIsl fun i => { i with latchLo := tput none i.latchLo (latchKey a) none })
    | none => readAnswer a ((wordView s a a.off).setWidth 64) s

/-- R110, R113: what member c contributes to an aperture read: all ones where its island is stopped. -/
def memberView (s : State) (a : BarAccess) (c : Nat) : BitVec 64 :=
  if !domRuns s (chDomain c) then allOnes a
  else
    let w := fun off => BitVec.ofNat 32 (mchReg s c (off % 0x1000))
    if a.size == 8 then w (a.off + 4) ++ w a.off else (w a.off).setWidth 64

/-- R110, R112, R113: an aperture read completes: the lowest member's value, and which members differ from it; zero where the
aperture has no members. -/
def apertureLand (a : BarAccess) (t : ChTarget) (s : State) : State :=
  match members s t with
  | [] => readAnswer a 0 (s.modMed fun m => { m with bcastDiff := 0 })
  | c :: rest =>
    let v := memberView s a c
    let diff := BitVec.ofNat 32 (maskOf 32 fun d => rest.contains d && memberView s a d != v)
    readAnswer a v (s.modMed fun m => { m with bcastDiff := diff })

/-- R111: a COMMIT through an aperture, which state s was written with, takes effect in every member that took it at one boundary. -/
def commitTogether (a : BarAccess) (cs : List Nat) (s u : State) : State :=
  if (accWords a).any fun w => w.1 % 0x1000 == 0x24 && w.2.getLsbD 0 then
    forEach (cs.filter fun c => domFree s (chDomain c)) (fun c u => modChan c (fun x => { x with commitAt := commitBoundary s cs }) u) u
  else u

/-- R19, R113: an aperture access. A write goes to each member, and takes one held
place for each that is stopped (DESIGN CHOICE, log entry 68); a read waits for the first member whose island is stopped. -/
def apertureAccess (a : BarAccess) (t : ChTarget) (s : State) : State :=
  match a.dir with
  | .write => commitTogether a (members s t) s (forEach (members s t) (fun c s => writeTo a (chDomain c) (some c) s) s)
  | .read =>
    match (members s t).find? fun c => !domFree s (chDomain c) with
    | some c => waitFor a (chDomain c) none s
    | none => apertureLand a t s

/-- R25: an access of another size or alignment. The domain that the record names is that of the offset; for an aperture, which R342
gives no single domain, that is the model's choice (DESIGN CHOICE, log entry 91). -/
def accessError (a : BarAccess) (s : State) : State :=
  let s := raise 8 4 0x04 (det3 a.off (accDomain a)) (rbit s 0x40 3)
  if a.dir == .read then readAnswer a (allOnes a) s else s

/-- R19, R25: a register access. -/
def accessOp (a : BarAccess) (s : State) : State :=
  if !accAligned a then accessError a s
  else
    match apertureOf a with
    | some t => apertureAccess a t s
    | none =>
      match a.dir with
      | .write => writeTo a (accDomain a) none s
      | .read => if domFree s (accDomain a) then readLand a s else waitFor a (accDomain a) none s

/-- REGISTER_WRITE (R6, R20, R25). -/
def execRegisterWrite (a : BarAccess) (s : State) : Res := .next (accessOp a s)

/-- MISALIGNED_ACCESS (R25). -/
def execMisalignedAccess (a : BarAccess) (s : State) : Res := .next (accessOp a s)

/-- LATCHING_LOW_WORD_READ (R242, R433). -/
def execLatchingLowWordRead (a : BarAccess) (s : State) : Res := .next (accessOp a s)

/-- APERTURE_READ (R110, R113). -/
def execApertureRead (a : BarAccess) (s : State) : Res := .next (accessOp a s)

/-! Stopped islands (R19, R20, R24). -/

/-- R19, R21, R24: a timed-out access is recorded. -/
def timeoutNote (a : BarAccess) (d : Nat) (s : State) : State :=
  let s := rset (rbit s 0x40 0) 0x50 (BitVec.ofNat 32 (a.off % 2 ^ 26 + b2n (a.dir == .write) * 2 ^ 26))
  raise 8 4 0x01 (det3 a.off d) s

/-- R19: a read that timed out is answered; through an aperture, the stopped members contribute all ones. -/
def timeoutRead (a : BarAccess) (s : State) : State :=
  match apertureOf a with
  | some t => apertureLand a t s
  | none => readAnswer a (allOnes a) s

/-- R19, R20: a write that timed out is held, unless 16 are held already. -/
def timeoutWrite (w : WaitAcc) (s : State) : State :=
  if 16 ≤ (heldFor s w.dom).length then heldOverflow w.acc w.dom s
  else s.modIsl fun i => { i with held := i.held ++ [{ dom := w.dom, acc := w.acc, member := w.member, seq := w.seq }] }

/-- Drop the first of a list that fits. -/
def dropFirst {α : Type} (p : α → Bool) : List α → List α
  | [] => []
  | x :: r => if p x then r else x :: dropFirst p r

/-- ISLAND_TIMEOUT (R19): an access that has waited 100 µs for a stopped island. -/
def execIslandTimeout (a : BarAccess) (s : State) : Res :=
  let due := fun w : WaitAcc => w.acc == a && 100000 + w.since ≤ s.clock && !domRuns s w.dom
  match s.isl.waiting.find? due with
  | none => .next s
  | some w =>
    let s := timeoutNote a w.dom (s.modIsl fun i => { i with waiting := dropFirst due i.waiting })
    .next (match a.dir with | .write => timeoutWrite w s | .read => timeoutRead a s)

/-- R19: an access into a list in the order of arrival. -/
def arrivalPut (w : WaitAcc) : List WaitAcc → List WaitAcc
  | [] => [w]
  | x :: r => if w.seq < x.seq then w :: x :: r else x :: arrivalPut w r

/-- R19: the accesses that a domain's clock releases, in the order they arrived: its held writes and what waits for it. -/
def released (s : State) (d : Nat) : List WaitAcc :=
  ((heldFor s d).map fun w => { dom := w.dom, since := s.clock, acc := w.acc, member := w.member, seq := w.seq }).foldl
    (fun l w => arrivalPut w l) (s.isl.waiting.filter fun w => w.dom == d)

/-- R19, R113: a waiting read completes; through an aperture it waits on, from when it began, for a further member whose
island is stopped. -/
def readRelease (w : WaitAcc) (s : State) : State :=
  match apertureOf w.acc with
  | none => readLand w.acc s
  | some t =>
    match (members s t).find? fun c => !domFree s (chDomain c) with
    | some c => s.modIsl fun i => { i with waiting := i.waiting ++ [{ w with dom := chDomain c }] }
    | none => apertureLand w.acc t s

/-- ISLAND_CLOCK_RETURN (R19): the domain's held writes and what waits for it are done in the order they arrived. -/
def execIslandClockReturn (d : Nat) (s : State) : Res :=
  if !domRuns s d then .next s
  else
    let ws := released s d
    let s := s.modIsl fun i => { i with held := i.held.filter (fun w => w.dom != d), waiting := i.waiting.filter fun w => w.dom != d }
    .next (forEach ws (fun w s =>
      match w.acc.dir with
      | .write => writeLand w.acc w.member s
      | .read => readRelease w s) s)

/-! The rows that are writes of one register. Each is that write, so that R19 holds for it as for any other. -/

/-- A 32-bit write of a BAR0 register. -/
def wr0 (h : Head) (off : Nat) (v : BitVec 32) : BarAccess :=
  { head := h, bar2 := false, off := off, size := 4, dir := .write, value := v.setWidth 64 }

/-- A 32-bit write of a queue page's register. -/
def wr2 (h : Head) (q off : Nat) (v : BitVec 32) : BarAccess :=
  { head := h, bar2 := true, off := 0x10000 * q + off, size := 4, dir := .write, value := v.setWidth 64 }

/-- R110: BAR0 offset of a channel register through a target. -/
def targetOff (t : ChTarget) (off : Nat) : Nat :=
  match t with
  | .channel c => mch c off
  | .broadcast => 0x120000 + off
  | .group g => 0x121000 + 0x1000 * g + off

/-- The target is there (R110). -/
def targetOk : ChTarget → Bool
  | .channel c => c < 32
  | .broadcast => true
  | .group g => g < 4

/-- COMMIT (R28, R111). -/
def execCommitStaged (t : ChTarget) (s : State) : Res :=
  .next (if targetOk t then accessOp (wr0 .a (targetOff t 0x24) 1) s else s)

/-- MCH_CNT_CLEAR (R111). -/
def execMchCntClear (t : ChTarget) (s : State) : Res :=
  .next (if targetOk t then accessOp (wr0 .a (targetOff t 0x24) 4) s else s)

/-- INT_CNT_CLEAR (R152). -/
def execIntCntClear (h : Head) (s : State) : Res := .next (accessOp (wr0 h 0x200004 1) s)

/-- PUR_CNT_CLEAR (R216). -/
def execPurCntClear (h : Head) (s : State) : Res := .next (accessOp (wr0 h 0x80008 1) s)

/-- ICE_CNT_CLEAR (R284, R303). -/
def execIceCntClear (h : Head) (s : State) : Res := .next (accessOp (wr0 h 0x300004 1) s)

/-- MOV_CNT_CLEAR (R332). -/
def execMovCntClear (h : Head) (s : State) : Res := .next (accessOp (wr0 h 0x400004 1) s)

/-- TIL_BUDGET_WRITE (R205). -/
def execTilBudgetWrite (h : Head) (value : BitVec 32) (s : State) : Res := .next (accessOp (wr0 h 0x80104 value) s)

/-- TBS_SET_HI (R29, R220). -/
def execTbsSetHi (h : Head) (value : BitVec 32) (s : State) : Res := .next (accessOp (wr0 h 0x60014 value) s)

/-- SOURCE_HOST (R219). -/
def execSourceHost (h : Head) (s : State) : Res := .next (accessOp (wr0 h 0x60004 0) s)

/-- SOURCE_PTM (R219). -/
def execSourcePtm (h : Head) (s : State) : Res := .next (accessOp (wr0 h 0x60004 1) s)

/-- SOURCE_PAIR_LINK (R219). -/
def execSourcePairLink (h : Head) (s : State) : Res := .next (accessOp (wr0 h 0x60004 2) s)

/-- TBS_PTM_CFG_WRITE (R219, R242). -/
def execTbsPtmCfgWrite (h : Head) (value : BitVec 32) (s : State) : Res := .next (accessOp (wr0 h 0x60018 value) s)

/-- SO_ARM (R225, R243). -/
def execSoArm (h : Head) (value : BitVec 32) (s : State) : Res := .next (accessOp (wr0 h 0x61004 value) s)

/-- SO_DISARM (R229, R243). -/
def execSoDisarm (h : Head) (value : BitVec 32) (s : State) : Res := .next (accessOp (wr0 h 0x61008 value) s)

/-- CKPT_REQ (R172, R190). -/
def execCkptReq (h : Head) (s : State) : Res := .next (accessOp (wr0 h 0x280004 1) s)

/-- SQ_TAIL_DOORBELL (R309, R310). -/
def execSqTailDoorbell (h : Head) (q : Nat) (value : BitVec 32) (s : State) : Res := .next (accessOp (wr2 h q 0x0 value) s)

/-- CQ_HEAD_DOORBELL (R309, R310). -/
def execCqHeadDoorbell (h : Head) (q : Nat) (value : BitVec 32) (s : State) : Res := .next (accessOp (wr2 h q 0x4 value) s)

/-- GATE_OPEN (R307, R310). -/
def execGateOpen (h : Head) (q : Nat) (s : State) : Res := .next (accessOp (wr2 h q 0x14 1) s)

/-- GATE_CLOSE (R307, R310). -/
def execGateClose (h : Head) (q : Nat) (s : State) : Res := .next (accessOp (wr2 h q 0x14 2) s)

/-- PAIR_BARRIER (R404, R417). -/
def execPairBarrier (h : Head) (value : BitVec 32) (s : State) : Res := .next (accessOp (wr0 h 0x500008 value) s)

/-- EVT_PENDING_CLEAR (R421, R441). -/
def execEvtPendingClear (h : Head) (n : Nat) (value : BitVec 32) (s : State) : Res :=
  .next (if n < 10 then accessOp (wr0 h (0x30010 + 4 * n) value) s else s)

/-- DAYBOOK_FREEZE (R428, R442). -/
def execDaybookFreeze (h : Head) (s : State) : Res := .next (accessOp (wr0 h 0x40004 1) s)

/-- DAYBOOK_THAW (R428, R442). -/
def execDaybookThaw (h : Head) (s : State) : Res := .next (accessOp (wr0 h 0x40004 2) s)

/-- SNAP (R434, R443). -/
def execSnap (h : Head) (tag : BitVec 16) (s : State) : Res := .next (accessOp (wr0 h 0x50004 (tag ++ (1 : BitVec 16))) s)

/-- CLEAR (R432, R443). -/
def execClearCounters (h : Head) (s : State) : Res := .next (accessOp (wr0 h 0x50004 2) s)

/-- SAMPLE_CFG_WRITE (R436, R443). -/
def execSampleCfgWrite (h : Head) (slot : Nat) (period : Bool) (value : BitVec 32) (s : State) : Res :=
  .next (if slot < 16 then accessOp (wr0 h (0x50040 + 8 * slot + (if period then 4 else 0)) value) s else s)

/-- HIST_CFG_WRITE (R438, R443). -/
def execHistCfgWrite (h : Head) (hist : Nat) (value : BitVec 32) (s : State) : Res :=
  .next (if hist < 8 then accessOp (wr0 h (0x500C0 + 4 * hist) value) s else s)

end Sys2Proof.Machine
end

