-- ==== Sys2Proof/Machine/Dispatch.lean ====
section
/-! DEFINITION. The dispatch of the commands: one arm per row of the opcode table, each a call of its meaning. -/

namespace Sys2Proof.Machine

/-- The effect of a command on everything but the queue (log entry 3). -/
def exec (i : Instr) (s : State) : Host.Outcome State Fault Refusal :=
  match i with
  | .registerWrite a => Sys2Proof.Machine.execRegisterWrite a s
  | .misalignedAccess a => Sys2Proof.Machine.execMisalignedAccess a s
  | .latchingLowWordRead a => Sys2Proof.Machine.execLatchingLowWordRead a s
  | .apertureRead a => Sys2Proof.Machine.execApertureRead a s
  | .islandTimeout a => Sys2Proof.Machine.execIslandTimeout a s
  | .islandClockReturn d => Sys2Proof.Machine.execIslandClockReturn d s
  | .commitStaged t => Sys2Proof.Machine.execCommitStaged t s
  | .commitApply c => Sys2Proof.Machine.execCommitApply c s
  | .frameToken => Sys2Proof.Machine.execFrameToken s
  | .frameStart k => Sys2Proof.Machine.execFrameStart k s
  | .frameLate k => Sys2Proof.Machine.execFrameLate k s
  | .slotStart c => Sys2Proof.Machine.execSlotStart c s
  | .memRd h tag hpa own => Sys2Proof.Machine.execMemRd h tag hpa own s
  | .memRdData h tag hpa own => Sys2Proof.Machine.execMemRdData h tag hpa own s
  | .memWr h tag hpa data poison => Sys2Proof.Machine.execMemWr h tag hpa data poison s
  | .memWrPtl h tag hpa data enables poison => Sys2Proof.Machine.execMemWrPtl h tag hpa data enables poison s
  | .memSpecRd h hpa => Sys2Proof.Machine.execMemSpecRd h hpa s
  | .recoined b => Sys2Proof.Machine.execRecoined b s
  | .mediaReadDone op r => Sys2Proof.Machine.execMediaReadDone op r s
  | .mediaWriteDone op => Sys2Proof.Machine.execMediaWriteDone op s
  | .drainIssue => Sys2Proof.Machine.execDrainIssue s
  | .drainAgeCheck => Sys2Proof.Machine.execDrainAgeCheck s
  | .gpfPhase1 h => Sys2Proof.Machine.execGpfPhase1 h s
  | .gpfPhase2 h => Sys2Proof.Machine.execGpfPhase2 h s
  | .gpfPhase2Complete => Sys2Proof.Machine.execGpfPhase2Complete s
  | .biSnoopResponse h sector wb => Sys2Proof.Machine.execBiSnoopResponse h sector wb s
  | .biTimeout h sector => Sys2Proof.Machine.execBiTimeout h sector s
  | .lostSlotScanDone slot => Sys2Proof.Machine.execLostSlotScanDone slot s
  | .alert c pos cause op => Sys2Proof.Machine.execAlert c pos cause op s
  | .suspFault c pos bank => Sys2Proof.Machine.execSuspFault c pos bank s
  | .bankResume c pos bank => Sys2Proof.Machine.execBankResume c pos bank s
  | .dieTimeUpdate => Sys2Proof.Machine.execDieTimeUpdate s
  | .channelBringup c present m2 => Sys2Proof.Machine.execChannelBringup c present m2 s
  | .bringupStepTimeout c step => Sys2Proof.Machine.execBringupStepTimeout c step s
  | .channelReinit c => Sys2Proof.Machine.execChannelReinit c s
  | .dieFailed c pos why => Sys2Proof.Machine.execDieFailed c pos why s
  | .rebuildDone c => Sys2Proof.Machine.execRebuildDone c s
  | .restrike c => Sys2Proof.Machine.execRestrike c s
  | .patrolStart => Sys2Proof.Machine.execPatrolStart s
  | .patrolDone => Sys2Proof.Machine.execPatrolDone s
  | .scrubDone => Sys2Proof.Machine.execScrubDone s
  | .mintTimeRecord => Sys2Proof.Machine.execMintTimeRecord s
  | .journalAppendComplete => Sys2Proof.Machine.execJournalAppendComplete s
  | .checkpointTimer => Sys2Proof.Machine.execCheckpointTimer s
  | .checkpointRingThreshold => Sys2Proof.Machine.execCheckpointRingThreshold s
  | .ckptReq h => Sys2Proof.Machine.execCkptReq h s
  | .checkpointDone => Sys2Proof.Machine.execCheckpointDone s
  | .recovery a b recoin torn => Sys2Proof.Machine.execRecovery a b recoin torn s
  | .memoryActive => Sys2Proof.Machine.execMemoryActive s
  | .scanDone bad => Sys2Proof.Machine.execScanDone bad s
  | .scanCommitDone => Sys2Proof.Machine.execScanCommitDone s
  | .migrationStart => Sys2Proof.Machine.execMigrationStart s
  | .migrationPassDone folio => Sys2Proof.Machine.execMigrationPassDone folio s
  | .migrationSourceQuiesced folio => Sys2Proof.Machine.execMigrationSourceQuiesced folio s
  | .folioBlankDone m => Sys2Proof.Machine.execFolioBlankDone m s
  | .holdupOkFall => Sys2Proof.Machine.execHoldupOkFall s
  | .holdupOkRise => Sys2Proof.Machine.execHoldupOkRise s
  | .holdupReady => Sys2Proof.Machine.execHoldupReady s
  | .tilBudgetWrite h value => Sys2Proof.Machine.execTilBudgetWrite h value s
  | .budgetApply => Sys2Proof.Machine.execBudgetApply s
  | .pfTrip => Sys2Proof.Machine.execPfTrip s
  | .powerFailDrainDone => Sys2Proof.Machine.execPowerFailDrainDone s
  | .sboxClearDone => Sys2Proof.Machine.execSboxClearDone s
  | .tbsSetHi h value => Sys2Proof.Machine.execTbsSetHi h value s
  | .mintTimeSet => Sys2Proof.Machine.execMintTimeSet s
  | .sourceHost h => Sys2Proof.Machine.execSourceHost h s
  | .sourcePtm h => Sys2Proof.Machine.execSourcePtm h s
  | .sourcePairLink h => Sys2Proof.Machine.execSourcePairLink h s
  | .tbsPtmCfgWrite h value => Sys2Proof.Machine.execTbsPtmCfgWrite h value s
  | .ptmDialogue => Sys2Proof.Machine.execPtmDialogue s
  | .ptmResponse master => Sys2Proof.Machine.execPtmResponse master s
  | .soArm h value => Sys2Proof.Machine.execSoArm h value s
  | .soDisarm h value => Sys2Proof.Machine.execSoDisarm h value s
  | .nopOrder entry => Sys2Proof.Machine.execNopOrder entry s
  | .prefetchOrder entry => Sys2Proof.Machine.execPrefetchOrder entry s
  | .releaseOrder entry => Sys2Proof.Machine.execReleaseOrder entry s
  | .queueStart entry => Sys2Proof.Machine.execQueueStart entry s
  | .quietBegin entry => Sys2Proof.Machine.execQuietBegin entry s
  | .quietEnd entry => Sys2Proof.Machine.execQuietEnd entry s
  | .auditOrder entry => Sys2Proof.Machine.execAuditOrder entry s
  | .markerOrder entry => Sys2Proof.Machine.execMarkerOrder entry s
  | .quietForcedEnd c => Sys2Proof.Machine.execQuietForcedEnd c s
  | .releasePreparationStart entry => Sys2Proof.Machine.execReleasePreparationStart entry s
  | .releaseDone set => Sys2Proof.Machine.execReleaseDone set s
  | .setClosed set => Sys2Proof.Machine.execSetClosed set s
  | .setAbandoned set => Sys2Proof.Machine.execSetAbandoned set s
  | .chunkVerified e => Sys2Proof.Machine.execChunkVerified e s
  | .sqTailDoorbell h q value => Sys2Proof.Machine.execSqTailDoorbell h q value s
  | .cqHeadDoorbell h q value => Sys2Proof.Machine.execCqHeadDoorbell h q value s
  | .gateOpen h q => Sys2Proof.Machine.execGateOpen h q s
  | .gateClose h q => Sys2Proof.Machine.execGateClose h q s
  | .descriptorFetch q entries => Sys2Proof.Machine.execDescriptorFetch q entries s
  | .copy q idx units hostData => Sys2Proof.Machine.execCopy q idx units hostData s
  | .fill q idx units => Sys2Proof.Machine.execFill q idx units s
  | .zero q idx units => Sys2Proof.Machine.execZero q idx units s
  | .importChunk q idx chunk hostPoison => Sys2Proof.Machine.execImportChunk q idx chunk hostPoison s
  | .exportChunk q idx => Sys2Proof.Machine.execExportChunk q idx s
  | .prefetch q idx units => Sys2Proof.Machine.execPrefetch q idx units s
  | .clean q idx => Sys2Proof.Machine.execClean q idx s
  | .reserveLoad q idx => Sys2Proof.Machine.execReserveLoad q idx s
  | .condStore q idx => Sys2Proof.Machine.execCondStore q idx s
  | .fence q idx => Sys2Proof.Machine.execFence q idx s
  | .timestamp q idx => Sys2Proof.Machine.execTimestamp q idx s
  | .completionEntryWrite q idx => Sys2Proof.Machine.execCompletionEntryWrite q idx s
  | .hostError q idx side detail => Sys2Proof.Machine.execHostError q idx side detail s
  | .reqTimeout q idx side => Sys2Proof.Machine.execReqTimeout q idx side s
  | .engineReinit e fault => Sys2Proof.Machine.execEngineReinit e fault s
  | .engineReinitDone e ok => Sys2Proof.Machine.execEngineReinitDone e ok s
  | .linkUp h rate width partner => Sys2Proof.Machine.execLinkUp h rate width partner s
  | .linkDown h => Sys2Proof.Machine.execLinkDown h s
  | .hotReset h => Sys2Proof.Machine.execHotReset h s
  | .functionLevelReset h => Sys2Proof.Machine.execFunctionLevelReset h s
  | .perstAN => Sys2Proof.Machine.execPerstAN s
  | .perstBN => Sys2Proof.Machine.execPerstBN s
  | .cxlReset h => Sys2Proof.Machine.execCxlReset h s
  | .decoderCommit h n req => Sys2Proof.Machine.execDecoderCommit h n req s
  | .ideSecure h is => Sys2Proof.Machine.execIdeSecure h is s
  | .spdmRequest h r => Sys2Proof.Machine.execSpdmRequest h r s
  | .doeRequest h r => Sys2Proof.Machine.execDoeRequest h r s
  | .deviceReset src => Sys2Proof.Machine.execDeviceReset src s
  | .powerCycle => Sys2Proof.Machine.execPowerCycle s
  | .reinitComplete f ok => Sys2Proof.Machine.execReinitComplete f ok s
  | .homeSliceReinit is => Sys2Proof.Machine.execHomeSliceReinit is s
  | .purseReinit => Sys2Proof.Machine.execPurseReinit s
  | .packageEngineReinit e => Sys2Proof.Machine.execPackageEngineReinit e s
  | .mailboxReinit p => Sys2Proof.Machine.execMailboxReinit p s
  | .keyPageReinit page => Sys2Proof.Machine.execKeyPageReinit page s
  | .cpuReinit => Sys2Proof.Machine.execCpuReinit s
  | .mchCntClear t => Sys2Proof.Machine.execMchCntClear t s
  | .intCntClear h => Sys2Proof.Machine.execIntCntClear h s
  | .purCntClear h => Sys2Proof.Machine.execPurCntClear h s
  | .iceCntClear h => Sys2Proof.Machine.execIceCntClear h s
  | .movCntClear h => Sys2Proof.Machine.execMovCntClear h s
  | .bgDone p cxl => Sys2Proof.Machine.execBgDone p cxl s
  | .mctpPacket port bytes last ok => Sys2Proof.Machine.execMctpPacket port bytes last ok s
  | .setEndpointId payload => Sys2Proof.Machine.execSetEndpointId payload s
  | .getEndpointId payload => Sys2Proof.Machine.execGetEndpointId payload s
  | .getMctpVersionSupport payload => Sys2Proof.Machine.execGetMctpVersionSupport payload s
  | .getMessageTypeSupport payload => Sys2Proof.Machine.execGetMessageTypeSupport payload s
  | .getVendorDefinedMsgSupport payload => Sys2Proof.Machine.execGetVendorDefinedMsgSupport payload s
  | .identify p payload => Sys2Proof.Machine.execIdentify p payload s
  | .backgroundOperationStatus p payload => Sys2Proof.Machine.execBackgroundOperationStatus p payload s
  | .requestAbortBackgroundOp p payload => Sys2Proof.Machine.execRequestAbortBackgroundOp p payload s
  | .getEventRecords p payload => Sys2Proof.Machine.execGetEventRecords p payload s
  | .clearEventRecords p payload => Sys2Proof.Machine.execClearEventRecords p payload s
  | .getEventInterruptPolicy p payload => Sys2Proof.Machine.execGetEventInterruptPolicy p payload s
  | .setEventInterruptPolicy p payload => Sys2Proof.Machine.execSetEventInterruptPolicy p payload s
  | .getFwInfo p payload => Sys2Proof.Machine.execGetFwInfo p payload s
  | .transferFw p payload => Sys2Proof.Machine.execTransferFw p payload s
  | .activateFw p payload => Sys2Proof.Machine.execActivateFw p payload s
  | .getTimestamp p payload => Sys2Proof.Machine.execGetTimestamp p payload s
  | .setTimestamp p payload => Sys2Proof.Machine.execSetTimestamp p payload s
  | .getSupportedLogs p payload => Sys2Proof.Machine.execGetSupportedLogs p payload s
  | .getLog p payload => Sys2Proof.Machine.execGetLog p payload s
  | .identifyMemoryDevice p payload => Sys2Proof.Machine.execIdentifyMemoryDevice p payload s
  | .getPartitionInfo p payload => Sys2Proof.Machine.execGetPartitionInfo p payload s
  | .getHealthInfo p payload => Sys2Proof.Machine.execGetHealthInfo p payload s
  | .getAlertConfiguration p payload => Sys2Proof.Machine.execGetAlertConfiguration p payload s
  | .setAlertConfiguration p payload => Sys2Proof.Machine.execSetAlertConfiguration p payload s
  | .getShutdownState p payload => Sys2Proof.Machine.execGetShutdownState p payload s
  | .setShutdownState p payload => Sys2Proof.Machine.execSetShutdownState p payload s
  | .getPoisonList p payload => Sys2Proof.Machine.execGetPoisonList p payload s
  | .injectPoison p payload => Sys2Proof.Machine.execInjectPoison p payload s
  | .clearPoison p payload => Sys2Proof.Machine.execClearPoison p payload s
  | .scanMedia p payload => Sys2Proof.Machine.execScanMedia p payload s
  | .sanitize p payload => Sys2Proof.Machine.execSanitize p payload s
  | .getCapacityInfo p payload => Sys2Proof.Machine.execGetCapacityInfo p payload s
  | .provisionFolios p payload => Sys2Proof.Machine.execProvisionFolios p payload s
  | .deprovisionFolios p payload => Sys2Proof.Machine.execDeprovisionFolios p payload s
  | .zeroFolios p payload => Sys2Proof.Machine.execZeroFolios p payload s
  | .setFolioAttributes p payload => Sys2Proof.Machine.execSetFolioAttributes p payload s
  | .changeFolioClass p payload => Sys2Proof.Machine.execChangeFolioClass p payload s
  | .getFolioEntry p payload => Sys2Proof.Machine.execGetFolioEntry p payload s
  | .requestCheckpoint p payload => Sys2Proof.Machine.execRequestCheckpoint p payload s
  | .startRebuildScan p payload => Sys2Proof.Machine.execStartRebuildScan p payload s
  | .commitScanResult p payload => Sys2Proof.Machine.execCommitScanResult p payload s
  | .format p payload => Sys2Proof.Machine.execFormat p payload s
  | .getScanReport p payload => Sys2Proof.Machine.execGetScanReport p payload s
  | .getWearAndReserveHealth p payload => Sys2Proof.Machine.execGetWearAndReserveHealth p payload s
  | .setTillLossAcceptance p payload => Sys2Proof.Machine.execSetTillLossAcceptance p payload s
  | .startFullAssay p payload => Sys2Proof.Machine.execStartFullAssay p payload s
  | .readDieRegister p payload => Sys2Proof.Machine.execReadDieRegister p payload s
  | .getChannelStatus p payload => Sys2Proof.Machine.execGetChannelStatus p payload s
  | .getDomainInfo p payload => Sys2Proof.Machine.execGetDomainInfo p payload s
  | .getSealedWindow p payload => Sys2Proof.Machine.execGetSealedWindow p payload s
  | .writeStandingOrder p payload => Sys2Proof.Machine.execWriteStandingOrder p payload s
  | .armStandingOrder p payload => Sys2Proof.Machine.execArmStandingOrder p payload s
  | .disarmStandingOrder p payload => Sys2Proof.Machine.execDisarmStandingOrder p payload s
  | .readStandingOrder p payload => Sys2Proof.Machine.execReadStandingOrder p payload s
  | .createEscrowSet p payload => Sys2Proof.Machine.execCreateEscrowSet p payload s
  | .closeEscrowSet p payload => Sys2Proof.Machine.execCloseEscrowSet p payload s
  | .abandonEscrowSet p payload => Sys2Proof.Machine.execAbandonEscrowSet p payload s
  | .getEscrowSet p payload => Sys2Proof.Machine.execGetEscrowSet p payload s
  | .createQueuePair p payload => Sys2Proof.Machine.execCreateQueuePair p payload s
  | .deleteQueuePairDrain p payload => Sys2Proof.Machine.execDeleteQueuePairDrain p payload s
  | .deleteQueuePairAbort p payload => Sys2Proof.Machine.execDeleteQueuePairAbort p payload s
  | .setQueueGrants p payload => Sys2Proof.Machine.execSetQueueGrants p payload s
  | .reinitMoverEngine p payload => Sys2Proof.Machine.execReinitMoverEngine p payload s
  | .getQueueInfo p payload => Sys2Proof.Machine.execGetQueueInfo p payload s
  | .getPairStatus p payload => Sys2Proof.Machine.execGetPairStatus p payload s
  | .setPairPolicy p payload => Sys2Proof.Machine.execSetPairPolicy p payload s
  | .startSettlement p payload => Sys2Proof.Machine.execStartSettlement p payload s
  | .splitPairPlanned p payload => Sys2Proof.Machine.execSplitPairPlanned p payload s
  | .splitPairImmediate p payload => Sys2Proof.Machine.execSplitPairImmediate p payload s
  | .readPassbookParameter p payload => Sys2Proof.Machine.execReadPassbookParameter p payload s
  | .writePassbookParameter p payload => Sys2Proof.Machine.execWritePassbookParameter p payload s
  | .getTallyCounter p payload => Sys2Proof.Machine.execGetTallyCounter p payload s
  | .getSupervisionStatus p payload => Sys2Proof.Machine.execGetSupervisionStatus p payload s
  | .getRailCounters p payload => Sys2Proof.Machine.execGetRailCounters p payload s
  | .setSupervisionParameter p payload => Sys2Proof.Machine.execSetSupervisionParameter p payload s
  | .resetDevice p payload => Sys2Proof.Machine.execResetDevice p payload s
  | .requestPowerCycle p payload => Sys2Proof.Machine.execRequestPowerCycle p payload s
  | .readDaybook p payload => Sys2Proof.Machine.execReadDaybook p payload s
  | .thaw p payload => Sys2Proof.Machine.execThaw p payload s
  | .freeze p payload => Sys2Proof.Machine.execFreeze p payload s
  | .armTrigger p payload => Sys2Proof.Machine.execArmTrigger p payload s
  | .disarmTrigger p payload => Sys2Proof.Machine.execDisarmTrigger p payload s
  | .getDaybookSummary p payload => Sys2Proof.Machine.execGetDaybookSummary p payload s
  | .takeAuditSnapshot p payload => Sys2Proof.Machine.execTakeAuditSnapshot p payload s
  | .readAuditSnapshot p payload => Sys2Proof.Machine.execReadAuditSnapshot p payload s
  | .setDaybookRateLimit p payload => Sys2Proof.Machine.execSetDaybookRateLimit p payload s
  | .getFirmwareInfo p payload => Sys2Proof.Machine.execGetFirmwareInfo p payload s
  | .transferFirmware p payload => Sys2Proof.Machine.execTransferFirmware p payload s
  | .activateFirmwareOnline p payload => Sys2Proof.Machine.execActivateFirmwareOnline p payload s
  | .activateFirmwareAtReset p payload => Sys2Proof.Machine.execActivateFirmwareAtReset p payload s
  | .fwActivated versions => Sys2Proof.Machine.execFwActivated versions s
  | .fwReverted => Sys2Proof.Machine.execFwReverted s
  | .fwSlotIdleTimeout => Sys2Proof.Machine.execFwSlotIdleTimeout s
  | .getLifecycleState p payload => Sys2Proof.Machine.execGetLifecycleState p payload s
  | .commitRollbackFloor p payload => Sys2Proof.Machine.execCommitRollbackFloor p payload s
  | .getInterfaceVersions p payload => Sys2Proof.Machine.execGetInterfaceVersions p payload s
  | .declareInterfaceVersion p payload => Sys2Proof.Machine.execDeclareInterfaceVersion p payload s
  | .regWrite principal tag payload => Sys2Proof.Machine.execRegWrite principal tag payload s
  | .loadKey principal tag => Sys2Proof.Machine.execLoadKey principal tag s
  | .unloadKey principal tag => Sys2Proof.Machine.execUnloadKey principal tag s
  | .lockPage principal tag => Sys2Proof.Machine.execLockPage principal tag s
  | .regRead principal tag payload => Sys2Proof.Machine.execRegRead principal tag payload s
  | .setPolicy principal tag payload => Sys2Proof.Machine.execSetPolicy principal tag payload s
  | .getPolicy principal tag payload => Sys2Proof.Machine.execGetPolicy principal tag payload s
  | .sealedWindow principal tag payload => Sys2Proof.Machine.execSealedWindow principal tag payload s
  | .resealNode principal tag payload => Sys2Proof.Machine.execResealNode principal tag payload s
  | .discardNode principal tag payload => Sys2Proof.Machine.execDiscardNode principal tag payload s
  | .treeResealed => Sys2Proof.Machine.execTreeResealed s
  | .treeDiscarded => Sys2Proof.Machine.execTreeDiscarded s
  | .pbProtectedWrite principal tag payload => Sys2Proof.Machine.execPbProtectedWrite principal tag payload s
  | .pbProtectedRead principal tag payload => Sys2Proof.Machine.execPbProtectedRead principal tag payload s
  | .pbBlockProtect principal tag payload => Sys2Proof.Machine.execPbBlockProtect principal tag payload s
  | .getLifecycle principal tag payload => Sys2Proof.Machine.execGetLifecycle principal tag payload s
  | .debugChallenge principal tag payload => Sys2Proof.Machine.execDebugChallenge principal tag payload s
  | .debugResponse principal tag payload => Sys2Proof.Machine.execDebugResponse principal tag payload s
  | .debugLock principal tag payload => Sys2Proof.Machine.execDebugLock principal tag payload s
  | .enterRma principal tag payload => Sys2Proof.Machine.execEnterRma principal tag payload s
  | .authoriseImage principal tag payload => Sys2Proof.Machine.execAuthoriseImage principal tag payload s
  | .getStatus principal tag payload => Sys2Proof.Machine.execGetStatus principal tag payload s
  | .frameError bytes => Sys2Proof.Machine.execFrameError bytes s
  | .requestFlushed bytes => Sys2Proof.Machine.execRequestFlushed bytes s
  | .vaultResponseRead whole => Sys2Proof.Machine.execVaultResponseRead whole s
  | .debugModeSelect mode => Sys2Proof.Machine.execDebugModeSelect mode s
  | .debugAccess hpa wdata => Sys2Proof.Machine.execDebugAccess hpa wdata s
  | .pairLinkRetry => Sys2Proof.Machine.execPairLinkRetry s
  | .hello peer => Sys2Proof.Machine.execHello peer s
  | .pairAuthentication chainOk => Sys2Proof.Machine.execPairAuthentication chainOk s
  | .debtMapExchange peer => Sys2Proof.Machine.execDebtMapExchange peer s
  | .sessionKeyRenewal => Sys2Proof.Machine.execSessionKeyRenewal s
  | .mirrorEntry e => Sys2Proof.Machine.execMirrorEntry e s
  | .mirrorAck seq => Sys2Proof.Machine.execMirrorAck seq s
  | .mirrorRefused seq => Sys2Proof.Machine.execMirrorRefused seq s
  | .pairBarrier h value => Sys2Proof.Machine.execPairBarrier h value s
  | .heartbeat => Sys2Proof.Machine.execHeartbeat s
  | .pairLost => Sys2Proof.Machine.execPairLost s
  | .pairTimeSend => Sys2Proof.Machine.execPairTimeSend s
  | .pairTimeExchange lead roundTrip => Sys2Proof.Machine.execPairTimeExchange lead roundTrip s
  | .forwardedAccess f => Sys2Proof.Machine.execForwardedAccess f s
  | .forwardResponse id data => Sys2Proof.Machine.execForwardResponse id data s
  | .settlementInstantZero folio => Sys2Proof.Machine.execSettlementInstantZero folio s
  | .evtPendingClear h n value => Sys2Proof.Machine.execEvtPendingClear h n value s
  | .coalesceHoldExpiry h vector => Sys2Proof.Machine.execCoalesceHoldExpiry h vector s
  | .daybookRecordTake => Sys2Proof.Machine.execDaybookRecordTake s
  | .daybookFreeze h => Sys2Proof.Machine.execDaybookFreeze h s
  | .daybookThaw h => Sys2Proof.Machine.execDaybookThaw h s
  | .rateLimitWindow => Sys2Proof.Machine.execRateLimitWindow s
  | .snap h tag => Sys2Proof.Machine.execSnap h tag s
  | .clearCounters h => Sys2Proof.Machine.execClearCounters h s
  | .countersCleared => Sys2Proof.Machine.execCountersCleared s
  | .snapshotCapture => Sys2Proof.Machine.execSnapshotCapture s
  | .snapDone => Sys2Proof.Machine.execSnapDone s
  | .sample slot => Sys2Proof.Machine.execSample slot s
  | .sampleCfgWrite h slot period value => Sys2Proof.Machine.execSampleCfgWrite h slot period value s
  | .histCfgWrite h hist value => Sys2Proof.Machine.execHistCfgWrite h hist value s
  | .histogramRestart hist => Sys2Proof.Machine.execHistogramRestart hist s
  | .recallRun faults => Sys2Proof.Machine.execRecallRun faults s
  | .recallComplete => Sys2Proof.Machine.execRecallComplete s
  | .pageWriteDone => Sys2Proof.Machine.execPageWriteDone s
  | .scanEnd codes => Sys2Proof.Machine.execScanEnd codes s
  | .railDelayExpiry slot => Sys2Proof.Machine.execRailDelayExpiry slot s
  | .riseTimeout slot => Sys2Proof.Machine.execRiseTimeout slot s
  | .railAbandoned slot => Sys2Proof.Machine.execRailAbandoned slot s
  | .seqRetry => Sys2Proof.Machine.execSeqRetry s
  | .supplyGood => Sys2Proof.Machine.execSupplyGood s
  | .pbNPress => Sys2Proof.Machine.execPbNPress s
  | .pbPress => Sys2Proof.Machine.execPbPress s
  | .pbForceOff => Sys2Proof.Machine.execPbForceOff s
  | .drainCut => Sys2Proof.Machine.execDrainCut s
  | .mrReset => Sys2Proof.Machine.execMrReset s
  | .mrNRelease => Sys2Proof.Machine.execMrNRelease s
  | .sensorConversion sensor raw => Sys2Proof.Machine.execSensorConversion sensor raw s
  | .criticalStopTimeout => Sys2Proof.Machine.execCriticalStopTimeout s
  | .pllLockTimeout => Sys2Proof.Machine.execPllLockTimeout s
  | .rtcStartTimeout => Sys2Proof.Machine.execRtcStartTimeout s
  | .perstRelease h => Sys2Proof.Machine.execPerstRelease h s
  | .vddAonLoss => Sys2Proof.Machine.execVddAonLoss s
  | .sensorNoConversion sensor => Sys2Proof.Machine.execSensorNoConversion sensor s
  | .rtcCrystalStart => Sys2Proof.Machine.execRtcCrystalStart s
  | .configRequest h r => Sys2Proof.Machine.execConfigRequest h r s
  | .ideKeyExpiry h is => Sys2Proof.Machine.execIdeKeyExpiry h is s
  | .pairTagFail => Sys2Proof.Machine.execPairTagFail s
  | .linkRecovery h rate => Sys2Proof.Machine.execLinkRecovery h rate s
  | .temperatureHistoryRecord => Sys2Proof.Machine.execTemperatureHistoryRecord s

end Sys2Proof.Machine
end

