-- ==== Sys2Proof/Machine/Tick.lean ====
section
/-! DEFINITION. What the block does when no command waits: one nanosecond passes (R217, log entry 4). -/

namespace Sys2Proof.Machine

/-- R217: while an error is slewed out, one count is added or removed every 5,000 cycles, which is 200 ppm. -/
def slewPeriod : Nat := 5000

/-- R217: the counts that one cycle adds to the mint time: 1, or 0 or 2 in a cycle that slews. -/
def tickCounts (s : State) : Nat :=
  if s.tbs.slew == 0 || s.tbs.slewTick + 1 < slewPeriod then 1
  else if s.tbs.slew < 0 then 0 else 2

/-- R217: one TBS cycle. -/
def tickMint (s : State) : State :=
  let n := tickCounts s
  s.modTbs fun t =>
    { t with mint := t.mint + BitVec.ofNat 64 n
             slewTick := if t.slew == 0 || slewPeriod ≤ t.slewTick + 1 then 0 else t.slewTick + 1
             slew := t.slew - ((n : Int) - 1)
             slewing := t.slew - ((n : Int) - 1) != 0 }

/-- R198: DRAM cells of a purse slot change; which, and when, the spec leaves to the DRAM (log entry 80). -/
def dramDecay (n : Nat) (f : Tab (BitVec 2304)) : Tab (BitVec 2304) :=
  let e := Config.dramNoise n
  tput 0 f e.1 (tget 0 f e.1 ^^^ e.2)

/-- One nanosecond without a command; the mint time counts while the TBS island runs (R16, R217). -/
def tick (s : State) : State :=
  let s := (s.setClock (s.clock + 1)).modPur fun u => { u with flips := dramDecay s.clock u.flips }
  if s.isl.on.getLsbD domTBS then tickMint s else s

end Sys2Proof.Machine
end

