-- ==== Sys2Proof/WellFormed.lean ====
section
/-! DEFINITION. Well-formed commands: every operand within the range that the spec gives what it names. A command that the
environment sends is well-formed; `exec` is total on the others too. -/

namespace Sys2Proof

/-- R10: a physical channel. -/
def chanOk (c : Nat) : Bool := c < 32

/-- R9: a cluster. -/
def clusterOk (k : Nat) : Bool := k < 8

/-- R72: a die position. -/
def dieOk (p : Nat) : Bool := p < 18

/-- R74: a bank of a die. -/
def bankOk (b : Nat) : Bool := b < 40

/-- R340: a request names a 64-byte sector. -/
def sectorOk (a : BitVec 64) : Bool := a.toNat % 64 == 0

/-- R31: a sector, DPA[44:6]. -/
def hostSectorOk (x : Nat) : Bool := x < 2 ^ 39

/-- R223: a standing-order entry. -/
def entryOk (i : Nat) : Bool := i < 1024

/-- R233: an escrow set. -/
def setOk (i : Nat) : Bool := i < 64

/-- R305: a queue pair. -/
def queueOk (q : Nat) : Bool := q < 4096

/-- R298: a key page. -/
def pageOk (p : Nat) : Bool := p < 8

/-- R438: a histogram. -/
def histOk (i : Nat) : Bool := i < 8

/-- R478: a temperature sensor. -/
def sensorOk (i : Nat) : Bool := i < 12

/-- R387: a vault principal. -/
def principalOk (p : Nat) : Bool := p < 8

/-- R361: an MSI-X vector. -/
def vectorOk (v : Nat) : Bool := v < 2048

/-- R154: a media folio number. -/
def mediaOk (m : Nat) : Bool := m < 2 ^ 25

/-- R33: a host folio, DPA[44:21]. -/
def folioOk (f : Nat) : Bool := f < 2 ^ 24

/-- R260: a counter block. -/
def blockOk (b : Nat) : Bool := b < 2 ^ 31

/-- R16: a clock domain bit. -/
def domOk (i : Nat) : Bool := i < 18

/-- R436, R463: a sampling slot or a rail slot. -/
def slot16Ok (i : Nat) : Bool := i < 16

/-- R441: an event pending register. -/
def evtOk (n : Nat) : Bool := n < 10

/-- R344: an HDM decoder of a head. -/
def decoderOk (n : Nat) : Bool := n < 4

/-- R286, R305: an engine. -/
def engineOk (e : Nat) : Bool := e < 8

/-- R9: a home slice. -/
def sliceOk (i : Nat) : Bool := i < 8

/-- R306: a fetch brings up to four descriptors. -/
def fetchOk (l : List (BitVec 512)) : Bool := l.length ≤ 4

/-- R464: a scan brings a code for each of its 20 inputs. -/
def codesOk (l : List (BitVec 12)) : Bool := l.length ≤ 20

/-- R110: a channel, or a group aperture. -/
def targetOk : ChTarget → Bool
  | .channel c => c < 32
  | .broadcast => true
  | .group g => g < 4

/-- Every operand of a command is within its range. -/
def Instr.wellFormed : Instr → Bool
  | .registerWrite _ => true
  | .misalignedAccess _ => true
  | .latchingLowWordRead _ => true
  | .apertureRead _ => true
  | .islandTimeout _ => true
  | .islandClockReturn d => domOk d
  | .commitStaged t => targetOk t
  | .commitApply c => chanOk c
  | .frameToken => true
  | .frameStart k => clusterOk k
  | .frameLate k => clusterOk k
  | .slotStart c => chanOk c
  | .memRd _ _ hpa _ => sectorOk hpa
  | .memRdData _ _ hpa _ => sectorOk hpa
  | .memWr _ _ hpa _ _ => sectorOk hpa
  | .memWrPtl _ _ hpa _ _ _ => sectorOk hpa
  | .memSpecRd _ hpa => sectorOk hpa
  | .recoined b => blockOk b
  | .mediaReadDone _ _ => true
  | .mediaWriteDone _ => true
  | .drainIssue => true
  | .drainAgeCheck => true
  | .gpfPhase1 _ => true
  | .gpfPhase2 _ => true
  | .gpfPhase2Complete => true
  | .biSnoopResponse _ sector _ => hostSectorOk sector
  | .biTimeout _ sector => hostSectorOk sector
  | .lostSlotScanDone _ => true
  | .alert c pos _ _ => chanOk c && dieOk pos
  | .suspFault c pos bank => chanOk c && dieOk pos && bankOk bank
  | .bankResume c pos bank => chanOk c && dieOk pos && bankOk bank
  | .dieTimeUpdate => true
  | .channelBringup c _ _ => chanOk c
  | .bringupStepTimeout c _ => chanOk c
  | .channelReinit c => chanOk c
  | .dieFailed c pos _ => chanOk c && dieOk pos
  | .rebuildDone c => chanOk c
  | .restrike c => chanOk c
  | .patrolStart => true
  | .patrolDone => true
  | .scrubDone => true
  | .mintTimeRecord => true
  | .journalAppendComplete => true
  | .checkpointTimer => true
  | .checkpointRingThreshold => true
  | .ckptReq _ => true
  | .checkpointDone => true
  | .recovery _ _ _ _ => true
  | .memoryActive => true
  | .scanDone _ => true
  | .scanCommitDone => true
  | .migrationStart => true
  | .migrationPassDone folio => folioOk folio
  | .migrationSourceQuiesced folio => folioOk folio
  | .folioBlankDone m => mediaOk m
  | .holdupOkFall => true
  | .holdupOkRise => true
  | .holdupReady => true
  | .tilBudgetWrite _ _ => true
  | .budgetApply => true
  | .pfTrip => true
  | .powerFailDrainDone => true
  | .sboxClearDone => true
  | .tbsSetHi _ _ => true
  | .mintTimeSet => true
  | .sourceHost _ => true
  | .sourcePtm _ => true
  | .sourcePairLink _ => true
  | .tbsPtmCfgWrite _ _ => true
  | .ptmDialogue => true
  | .ptmResponse _ => true
  | .soArm _ _ => true
  | .soDisarm _ _ => true
  | .nopOrder entry => entryOk entry
  | .prefetchOrder entry => entryOk entry
  | .releaseOrder entry => entryOk entry
  | .queueStart entry => entryOk entry
  | .quietBegin entry => entryOk entry
  | .quietEnd entry => entryOk entry
  | .auditOrder entry => entryOk entry
  | .markerOrder entry => entryOk entry
  | .quietForcedEnd c => chanOk c
  | .releasePreparationStart entry => entryOk entry
  | .releaseDone set => setOk set
  | .setClosed set => setOk set
  | .setAbandoned set => setOk set
  | .chunkVerified e => engineOk e
  | .sqTailDoorbell _ q _ => queueOk q
  | .cqHeadDoorbell _ q _ => queueOk q
  | .gateOpen _ q => queueOk q
  | .gateClose _ q => queueOk q
  | .descriptorFetch q entries => queueOk q && fetchOk entries
  | .copy q _ _ _ => queueOk q
  | .fill q _ _ => queueOk q
  | .zero q _ _ => queueOk q
  | .importChunk q _ _ _ => queueOk q
  | .exportChunk q _ => queueOk q
  | .prefetch q _ _ => queueOk q
  | .clean q _ => queueOk q
  | .reserveLoad q _ => queueOk q
  | .condStore q _ => queueOk q
  | .fence q _ => queueOk q
  | .timestamp q _ => queueOk q
  | .completionEntryWrite q _ => queueOk q
  | .hostError q _ _ _ => queueOk q
  | .reqTimeout q _ _ => queueOk q
  | .engineReinit e _ => engineOk e
  | .engineReinitDone e _ => engineOk e
  | .linkUp _ _ _ _ => true
  | .linkDown _ => true
  | .hotReset _ => true
  | .functionLevelReset _ => true
  | .perstAN => true
  | .perstBN => true
  | .cxlReset _ => true
  | .decoderCommit _ n _ => decoderOk n
  | .ideSecure _ _ => true
  | .spdmRequest _ _ => true
  | .doeRequest _ _ => true
  | .deviceReset _ => true
  | .powerCycle => true
  | .reinitComplete _ _ => true
  | .homeSliceReinit s => sliceOk s
  | .purseReinit => true
  | .packageEngineReinit e => engineOk e
  | .mailboxReinit _ => true
  | .keyPageReinit page => pageOk page
  | .cpuReinit => true
  | .mchCntClear t => targetOk t
  | .intCntClear _ => true
  | .purCntClear _ => true
  | .iceCntClear _ => true
  | .movCntClear _ => true
  | .bgDone _ _ => true
  | .mctpPacket _ _ _ _ => true
  | .setEndpointId _ => true
  | .getEndpointId _ => true
  | .getMctpVersionSupport _ => true
  | .getMessageTypeSupport _ => true
  | .getVendorDefinedMsgSupport _ => true
  | .identify _ _ => true
  | .backgroundOperationStatus _ _ => true
  | .requestAbortBackgroundOp _ _ => true
  | .getEventRecords _ _ => true
  | .clearEventRecords _ _ => true
  | .getEventInterruptPolicy _ _ => true
  | .setEventInterruptPolicy _ _ => true
  | .getFwInfo _ _ => true
  | .transferFw _ _ => true
  | .activateFw _ _ => true
  | .getTimestamp _ _ => true
  | .setTimestamp _ _ => true
  | .getSupportedLogs _ _ => true
  | .getLog _ _ => true
  | .identifyMemoryDevice _ _ => true
  | .getPartitionInfo _ _ => true
  | .getHealthInfo _ _ => true
  | .getAlertConfiguration _ _ => true
  | .setAlertConfiguration _ _ => true
  | .getShutdownState _ _ => true
  | .setShutdownState _ _ => true
  | .getPoisonList _ _ => true
  | .injectPoison _ _ => true
  | .clearPoison _ _ => true
  | .scanMedia _ _ => true
  | .sanitize _ _ => true
  | .getCapacityInfo _ _ => true
  | .provisionFolios _ _ => true
  | .deprovisionFolios _ _ => true
  | .zeroFolios _ _ => true
  | .setFolioAttributes _ _ => true
  | .changeFolioClass _ _ => true
  | .getFolioEntry _ _ => true
  | .requestCheckpoint _ _ => true
  | .startRebuildScan _ _ => true
  | .commitScanResult _ _ => true
  | .format _ _ => true
  | .getScanReport _ _ => true
  | .getWearAndReserveHealth _ _ => true
  | .setTillLossAcceptance _ _ => true
  | .startFullAssay _ _ => true
  | .readDieRegister _ _ => true
  | .getChannelStatus _ _ => true
  | .getDomainInfo _ _ => true
  | .getSealedWindow _ _ => true
  | .writeStandingOrder _ _ => true
  | .armStandingOrder _ _ => true
  | .disarmStandingOrder _ _ => true
  | .readStandingOrder _ _ => true
  | .createEscrowSet _ _ => true
  | .closeEscrowSet _ _ => true
  | .abandonEscrowSet _ _ => true
  | .getEscrowSet _ _ => true
  | .createQueuePair _ _ => true
  | .deleteQueuePairDrain _ _ => true
  | .deleteQueuePairAbort _ _ => true
  | .setQueueGrants _ _ => true
  | .reinitMoverEngine _ _ => true
  | .getQueueInfo _ _ => true
  | .getPairStatus _ _ => true
  | .setPairPolicy _ _ => true
  | .startSettlement _ _ => true
  | .splitPairPlanned _ _ => true
  | .splitPairImmediate _ _ => true
  | .readPassbookParameter _ _ => true
  | .writePassbookParameter _ _ => true
  | .getTallyCounter _ _ => true
  | .getSupervisionStatus _ _ => true
  | .getRailCounters _ _ => true
  | .setSupervisionParameter _ _ => true
  | .resetDevice _ _ => true
  | .requestPowerCycle _ _ => true
  | .readDaybook _ _ => true
  | .thaw _ _ => true
  | .freeze _ _ => true
  | .armTrigger _ _ => true
  | .disarmTrigger _ _ => true
  | .getDaybookSummary _ _ => true
  | .takeAuditSnapshot _ _ => true
  | .readAuditSnapshot _ _ => true
  | .setDaybookRateLimit _ _ => true
  | .getFirmwareInfo _ _ => true
  | .transferFirmware _ _ => true
  | .activateFirmwareOnline _ _ => true
  | .activateFirmwareAtReset _ _ => true
  | .fwActivated _ => true
  | .fwReverted => true
  | .fwSlotIdleTimeout => true
  | .getLifecycleState _ _ => true
  | .commitRollbackFloor _ _ => true
  | .getInterfaceVersions _ _ => true
  | .declareInterfaceVersion _ _ => true
  | .regWrite principal _ _ => principalOk principal
  | .loadKey principal _ => principalOk principal
  | .unloadKey principal _ => principalOk principal
  | .lockPage principal _ => principalOk principal
  | .regRead principal _ _ => principalOk principal
  | .setPolicy principal _ _ => principalOk principal
  | .getPolicy principal _ _ => principalOk principal
  | .sealedWindow principal _ _ => principalOk principal
  | .resealNode principal _ _ => principalOk principal
  | .discardNode principal _ _ => principalOk principal
  | .treeResealed => true
  | .treeDiscarded => true
  | .pbProtectedWrite principal _ _ => principalOk principal
  | .pbProtectedRead principal _ _ => principalOk principal
  | .pbBlockProtect principal _ _ => principalOk principal
  | .getLifecycle principal _ _ => principalOk principal
  | .debugChallenge principal _ _ => principalOk principal
  | .debugResponse principal _ _ => principalOk principal
  | .debugLock principal _ _ => principalOk principal
  | .enterRma principal _ _ => principalOk principal
  | .authoriseImage principal _ _ => principalOk principal
  | .getStatus principal _ _ => principalOk principal
  | .frameError _ => true
  | .requestFlushed _ => true
  | .vaultResponseRead _ => true
  | .debugModeSelect _ => true
  | .debugAccess hpa _ => sectorOk hpa
  | .pairLinkRetry => true
  | .hello _ => true
  | .pairAuthentication _ => true
  | .debtMapExchange _ => true
  | .sessionKeyRenewal => true
  | .mirrorEntry _ => true
  | .mirrorAck _ => true
  | .mirrorRefused _ => true
  | .pairBarrier _ _ => true
  | .heartbeat => true
  | .pairLost => true
  | .pairTimeSend => true
  | .pairTimeExchange _ _ => true
  | .forwardedAccess _ => true
  | .forwardResponse _ _ => true
  | .settlementInstantZero folio => folioOk folio
  | .evtPendingClear _ n _ => evtOk n
  | .coalesceHoldExpiry _ vector => vectorOk vector
  | .daybookRecordTake => true
  | .daybookFreeze _ => true
  | .daybookThaw _ => true
  | .rateLimitWindow => true
  | .snap _ _ => true
  | .clearCounters _ => true
  | .countersCleared => true
  | .snapshotCapture => true
  | .snapDone => true
  | .sample slot => slot16Ok slot
  | .sampleCfgWrite _ slot _ _ => slot16Ok slot
  | .histCfgWrite _ hist _ => histOk hist
  | .histogramRestart hist => histOk hist
  | .recallRun _ => true
  | .recallComplete => true
  | .pageWriteDone => true
  | .scanEnd codes => codesOk codes
  | .railDelayExpiry slot => slot16Ok slot
  | .riseTimeout slot => slot16Ok slot
  | .railAbandoned slot => slot16Ok slot
  | .seqRetry => true
  | .supplyGood => true
  | .pbNPress => true
  | .pbPress => true
  | .pbForceOff => true
  | .drainCut => true
  | .mrReset => true
  | .mrNRelease => true
  | .sensorConversion sensor _ => sensorOk sensor
  | .criticalStopTimeout => true
  | .pllLockTimeout => true
  | .rtcStartTimeout => true
  | .perstRelease _ => true
  | .vddAonLoss => true
  | .sensorNoConversion sensor => sensorOk sensor
  | .rtcCrystalStart => true
  | .configRequest _ _ => true
  | .ideKeyExpiry _ _ => true
  | .pairTagFail => true
  | .linkRecovery _ _ => true
  | .temperatureHistoryRecord => true

end Sys2Proof
end

