-- ==== Sys2Proof/Safety.lean ====
section
/-! DEFINITION. What counts as a safe run, and the words in which the statements speak of a command: an access that its
island takes, a mailbox command that is taken and answered, and what an event leaves alone. -/

namespace Sys2Proof

open Machine

/-- R10, R72: a channel count and a die count that a board can have; no command changes the board. -/
def boardOk (s : State) : Bool := [4, 8, 16, 32].contains s.board.channels && [4, 8, 16].contains s.board.dieCount

/-- Every waiting command is well-formed. -/
def queueWellFormed (s : State) : Bool := s.pending.all Instr.wellFormed

/-- A step answers a next state: the block neither faults nor refuses. -/
def stepGoesOn (s : State) : Prop := ∃ t, step s = .next t

namespace Machine

/-- A port without what notification may change. -/
def Port.bare (p : Port) : Port := { p with coal := [], pba := [], logs := [], logLost := [] }

/-- A state without what raising an event may change. -/
def State.bare (s : State) : State :=
  { s with regs := [], ev := Events.reset, outbox := [],
           fe := { s.fe with portA := s.fe.portA.bare, portB := s.fe.portB.bare } }

/-- The event block without what raising an event may change. -/
def Events.bare (e : Events) : Events :=
  { e with inq := [], lostCnt := 0, episode := false, tracks := [], groupCnt := [], ctrs := [], wrapped := [] }

/-- A key of a stored register outside the event block. -/
def notEvent (k : Nat) : Prop := k < 0x30000 ∨ 0x30600 ≤ k

/-- What was sent, newest first, less the MSI-X messages of notification (R422). -/
def State.said (s : State) : List Out := s.outbox.filter fun o => match o with | .msi _ _ => false | _ => true

/-- The audit counters that raising a reason may move (R432). -/
def noteCtr (i : Nat) : Bool := [707, 709, 710, 711].contains i

/-- An audit counter (R432). -/
def ctr (s : State) (i : Nat) : BitVec 48 := tget 0 s.ev.ctrs i

/-- t is s after reasons were raised (R420-R432): every block is s's but for what notification keeps in the events block and
in a port's coalescing, Pending Bits and CXL logs; s's messages were sent, and no others but MSI-X messages; every stored register outside
the event block and every audit counter but those of raising itself holds s's value. -/
def Noted (s t : State) : Prop :=
  t.bare = s.bare ∧ t.ev.bare = s.ev.bare ∧ t.said = s.said ∧ (∀ k, notEvent k → rget t k = rget s k) ∧
  ∀ i, noteCtr i = false → ctr t i = ctr s i

/-- The passbook without its page writes. -/
def Passbook.idle (p : Passbook) : Passbook := { p with writing := none, writes := [], writeAt := 0 }

/-- The ledger without the records that wait for their append. -/
def Ledger.idle (l : Ledger) : Ledger := { l with appends := [], appending := false, journalFull := false }

/-- A state without what waits for the passbook store (R169, R449). -/
def State.idle (s : State) : State := { s with pb := s.pb.idle, led := s.led.idle }

/-- t is s after reasons were raised, and page writes and journal records were queued (R169, R420, R449). -/
def Queued (s t : State) : Prop := Noted s.idle t.idle

/-- R432: audit counter i has counted n more. -/
def State.counted (i n : Nat) (s : State) : State :=
  s.modEv fun e => { e with ctrs := tput 0 e.ctrs i (tget 0 e.ctrs i + BitVec.ofNat 48 n) }

/-- R432: a head has looked a folio up in the ledger cache, which holds it then; a miss is counted. -/
def State.looked (h : Head) (f : Nat) (s : State) : State :=
  if s.fe.ledgerCache.contains f then s
  else (s.modFe fun x => { x with ledgerCache := ledgerFill f x.ledgerCache }).counted (headCtr h + 11) 1

/-- R420: the pending bit of the source is set, and its LAST_REASON is n. -/
def Pends (g src n : Nat) (t : State) : Prop :=
  (rget t (0x30010 + 4 * (flatOf (evCode g src n) / 32))).getLsbD (flatOf (evCode g src n) % 32) = true ∧
  rval t (0x30100 + 4 * flatOf (evCode g src n)) / 2 ^ 25 = n

/-- Two states agree in every block of the machine but the stored registers, the islands' crossings, the host ports, the
events block and the record of what was sent. -/
def sameBlocks (s t : State) : Prop :=
  t.board = s.board ∧ t.med = s.med ∧ t.integ = s.integ ∧ t.led = s.led ∧ t.pur = s.pur ∧ t.tbs = s.tbs ∧ t.so = s.so ∧
  t.esc = s.esc ∧ t.cry = s.cry ∧ t.mov = s.mov ∧ t.ctl = s.ctl ∧ t.pair = s.pair ∧ t.pb = s.pb ∧ t.sup = s.sup ∧
  t.clock = s.clock ∧ t.pending = s.pending

/-- A 32-bit read of a BAR0 register. -/
def rd0 (h : Head) (off : Nat) : BarAccess :=
  { head := h, bar2 := false, off := off, size := 4, dir := .read, value := 0 }

/-- R6: offsets of stored registers whose write does nothing but set RW bits and clear W1C bits. -/
def plainReg (off : Nat) : Bool :=
  [0x40, 0x20020, 0x2001C, 0x30600, 0x50008, 0x500E0, 0x60000, 0x61000, 0x6100C, 0x80004, 0x80100, 0x200000, 0x280000, 0x300000,
   0x300100, 0x400000, 0x500000].contains off || (0x30100 ≤ off && off < 0x30600 && off % 4 == 0)

/-- The access that a command is, where the command is one write of one register outside the apertures (R6, R19). -/
def rowAccess : Instr → Option BarAccess
  | .registerWrite a => if accAligned a && a.dir == .write && (apertureOf a).isNone then some a else none
  | .commitStaged (.channel c) => if c < 32 then some (wr0 .a (0x100024 + 0x1000 * c) 1) else none
  | .mchCntClear (.channel c) => if c < 32 then some (wr0 .a (0x100024 + 0x1000 * c) 4) else none
  | .intCntClear h => some (wr0 h 0x200004 1)
  | .purCntClear h => some (wr0 h 0x80008 1)
  | .iceCntClear h => some (wr0 h 0x300004 1)
  | .movCntClear h => some (wr0 h 0x400004 1)
  | .tilBudgetWrite h v => some (wr0 h 0x80104 v)
  | .tbsSetHi h v => some (wr0 h 0x60014 v)
  | .sourceHost h => some (wr0 h 0x60004 0)
  | .sourcePtm h => some (wr0 h 0x60004 1)
  | .sourcePairLink h => some (wr0 h 0x60004 2)
  | .tbsPtmCfgWrite h v => some (wr0 h 0x60018 v)
  | .soArm h v => some (wr0 h 0x61004 v)
  | .soDisarm h v => some (wr0 h 0x61008 v)
  | .ckptReq h => some (wr0 h 0x280004 1)
  | .sqTailDoorbell h q v => some (wr2 h q 0x0 v)
  | .cqHeadDoorbell h q v => some (wr2 h q 0x4 v)
  | .gateOpen h q => some (wr2 h q 0x14 1)
  | .gateClose h q => some (wr2 h q 0x14 2)
  | .pairBarrier h v => some (wr0 h 0x500008 v)
  | .evtPendingClear h n v => if n < 10 then some (wr0 h (0x30010 + 4 * n) v) else none
  | .daybookFreeze h => some (wr0 h 0x40004 1)
  | .daybookThaw h => some (wr0 h 0x40004 2)
  | .snap h tag => some (wr0 h 0x50004 (tag ++ (1 : BitVec 16)))
  | .clearCounters h => some (wr0 h 0x50004 2)
  | .sampleCfgWrite h n period v =>
    if n < 16 then some (wr0 h (0x50040 + 8 * n + (if period then 4 else 0)) v) else none
  | .histCfgWrite h n v => if n < 8 then some (wr0 h (0x500C0 + 4 * n) v) else none
  | _ => none

/-- R15, R44, R201, R248: nothing stands between a host of head h with this key ID and line L of a blank-mapped folio: no
transaction, snoop-filter entry, staged copy, pair, reinit, lost slot, changed DRAM cell, recoinage or sealed window; the till is below its high water and
does not hold the line, whose slot is invalid; its counter block is good in the counter cache, with the line's minor counter
not spent; and the host has access. -/
def idleFor (s : State) (h : Head) (key L : Nat) : Bool :=
  let e := ent s (folioOf L)
  let v := tget cc0 s.cry.cache (blockOf L % max 1 (sc s))
  s.fe.txns.isEmpty && s.fe.sf.isEmpty && s.fe.bis.isEmpty && !pairMode s && s.sup.fnBusy.isEmpty && s.pur.lostSlots.isEmpty &&
  s.pur.flips.isEmpty && s.fe.present.isEmpty && s.pur.evb.isEmpty && s.led.overdraft.isEmpty && !s.pur.metered && occupancy s < highWater s &&
  s.cry.recoins.isEmpty && !sealedOn s && (releasedSet s (folioOf L)).isNone && !s.cry.lostBlocks.contains (blockOf L) &&
  v.valid && v.block == blockOf L && ctrGood s (blockOf L) v.ctr && minorOf v.ctr L != 0xFFFFFF &&
  !(slotOf s L).valid && e.media == noFolio && provisioned e && e.state != .readOnly && !lateFor s e &&
  accessCheck s key (some h) e == none

/-- R366-R371: a YCI command that mailbox p takes: the port is there and powered, the firmware answers, no command is in
progress, and the command is permitted there, of the declared version and of the right length. -/
def yciTaken (op : Nat) (p : MbxPort) (b : List Byte) (s : State) : Bool :=
  !(p == .b && !twoHeads s) && portPowered (p == .board) s && (mbxOf s p).busy.isNone && !firmwareAway p s &&
  (yciRow op).any fun r =>
    r.since ≤ (mbxOf s p).declared && (if p == .board then r.board else r.host) &&
    !(s.led.lost && op / 256 == 0xC1 && !answersLost op) && r.lenOk b.length && !(r.bg && (mbxOf s p).bg.isSome)

/-- R367: a host mailbox holds the command it runs in MBX_CMD. -/
def yciNoted (op : Nat) (p : MbxPort) (b : List Byte) (s : State) : State :=
  if p == .board then s
  else rset s (regKey (headOf p) 0x20008) (BitVec.ofNat 32 (op % 65536 + b.length % 8192 * 65536))

/-- R367, R368: mailbox p takes the command and answers it, and that is all. -/
def answerOnly (op : Nat) (p : MbxPort) (b : List Byte) (rc : Nat) (out : List Byte) (s : State) : State :=
  mbxAnswer p op rc out (yciNoted op p b s)

/-- R369: the background command that a mailbox runs, as the answer BACKGROUND_STARTED leaves it. -/
def bgOn (p : MbxPort) (op arg recs : Nat) (s : State) : State :=
  modMbx p (fun m => { m with bg := some { opcode := op, result := 0, recs := recs, arg := arg }, bgOpcode := op, bgPercent := 0 }) s

/-- A state without mailbox p: its registers and fields, its messages, and the count of free values. -/
def State.sans (p : MbxPort) (s : State) : State :=
  match p with
  | .board => { s with ctl := { s.ctl with board := State.reset.ctl.board },
                       outbox := s.outbox.filter fun o => match o with | .mctp _ => false | _ => true }
  | .a => { s with regs := s.regs.filter (fun e => e.1 != 0x20008 && e.1 != 0x2001C), cry := { s.cry with free := 0 },
                   fe := { s.fe with portA := { s.fe.portA with mbx := State.reset.ctl.board } } }
  | .b => { s with regs := s.regs.filter (fun e => e.1 != 0x4020008 && e.1 != 0x402001C), cry := { s.cry with free := 0 },
                   fe := { s.fe with portB := { s.fe.portB with mbx := State.reset.ctl.board } } }

/-- R368, R374: mailbox p has answered a command with a return code and an output. -/
def answered (p : MbxPort) (op rc : Nat) (out : List Byte) (s t : State) : Prop :=
  match p with
  | .board => ∃ rest, t.outbox = .mctp (toLE 2 op ++ toLE 2 (mapRc s.ctl.board.declared rc) ++ out) :: rest
  | _ => (mbxOf t p).ret = mapRc (mbxOf s p).declared rc ∧ (mbxOf t p).out = out ∧ (mbxOf t p).busy = none

/-- R366, R371, R377: a CXL command that a port takes: the port is there and powered, the firmware answers, the port has the
right, and the input has its length (`open_`: at least that length). -/
def cxlTaken (board : Bool) (len : Nat) (open_ : Bool) (p : MbxPort) (b : List Byte) (s : State) : Bool :=
  !(p == .b && !twoHeads s) && portPowered (p == .board) s && !firmwareAway p s && !(p == .board && !board) &&
    (if open_ then len ≤ b.length else b.length == len)

/-- R374, R377: the answer of a CXL command: the CXL mailbox of a head holds it; the board's is an MCTP message. -/
def cxlAnswer (op : Nat) (p : MbxPort) (rc : Nat) (out : List Byte) (s : State) : State :=
  if p == .board then send (.mctp (toLE 2 op ++ toLE 2 rc ++ out)) s
  else modCxl p (fun m => { m with ret := rc, out := out }) s

/-- R374, R377: a CXL command has been answered with a return code and an output. -/
def cxlGave (op : Nat) (p : MbxPort) (rc : Nat) (out : List Byte) (t : State) : Prop :=
  if p == .board then t.outbox.head? = some (.mctp (toLE 2 op ++ toLE 2 rc ++ out))
  else (cxlOf t p).ret = rc ∧ (cxlOf t p).out = out

/-- A state without the CXL mailbox's answer and the board's messages. -/
def State.sansCxl (p : MbxPort) (s : State) : State :=
  if p == .board then { s with outbox := s.outbox.filter fun o => match o with | .mctp _ => false | _ => true }
  else modCxl p (fun m => { m with ret := 0, out := [] }) s

/-- R369: a background command of a CXL mailbox has been answered BACKGROUND_STARTED and runs. -/
def cxlStarted (op : Nat) (p : MbxPort) (t : State) : Prop :=
  (cxlOf t p).bg.map (·.opcode) = some op ∧ (cxlOf t p).bgOpcode = op ∧ (cxlOf t p).bgPercent = 0 ∧ cxlGave op p 1 [] t

/-- R334: the WIDTH code that a head's link trains to with n lanes: 3 x16, 2 x8, 1 x4, and 0 where it does not train. -/
def linkWidth (h : Head) (n : Nat) : Nat :=
  if h == .a then (if n < 8 then 0 else if n < 16 then 2 else 3) else if n < 4 then 0 else if n < 8 then 1 else 2

/-- R336, R351: the link is down, and it may train. -/
def linkFree (h : Head) (s : State) : Bool := linkMay h s && (portOf s h).rate == 0

/-- R354: t is s after a level 2 reset of a head, or its Function Level Reset (`flr`): what is reset, and what stays; the till
and what is under it where no write waits for room in it. -/
def headWasReset (flr : Bool) (h : Head) (s t : State) : Prop :=
  Pends (headNo h) 0 0x06 t ∧ (portOf t h).mbx = Mailbox.init ∧ (portOf t h).cxl = Mailbox.init ∧ (portOf t h).cfg = [] ∧
  (portOf t h).msixEn = false ∧ (portOf t h).msix = [] ∧ (portOf t h).sessions = 0 ∧ (portOf t h).ideIo = false ∧
  (flr = false → (portOf t h).decoders = [] ∧ (portOf t h).ideMem = false ∧ ∀ x ∈ t.fe.txns, x.head ≠ h) ∧
  (∀ q x, queueAt t q = some x → x.head ≠ h) ∧ (∀ q x, queueAt s q = some x → x.head ≠ h → queueAt t q = some x) ∧
  (portOf t (otherHead h)).bare = (portOf s (otherHead h)).bare ∧ t.tbs = s.tbs ∧ t.so = s.so ∧ t.esc = s.esc ∧
  (s.pur.waitQ = [] → t.led = s.led ∧ t.pur.slots = s.pur.slots ∧ t.pur.evb = s.pur.evb ∧ t.med = s.med ∧ t.cry.media = s.cry.media ∧
    t.cry.cache = s.cry.cache ∧ t.integ.poisonList = s.integ.poisonList)

/-- R483: the function's inputs are held for its reinit. -/
def reinitBusy (f : Function) (t : State) : Prop := f ∈ t.sup.fnBusy ∧ t.sup.reinits ≤ 0xFF

/-- R485: and REINIT is raised for it. -/
def reinitNoted (f : Function) (t : State) : Prop := reinitBusy f t ∧ Pends 9 6 0x01 t

/-- R48, R354, R483, R486: t is s after a level 3 device reset with its source: what is gone and what stays. `hold`: a pin holds
the device in reset. -/
def deviceWasReset (src : Nat) (hold : Bool) (s t : State) : Prop :=
  t.sup.level = 3 ∧ t.sup.source = src ∧ t.sup.inReset = hold ∧ t.sup.state = .on ∧ t.sup.resets = min 0xFF (s.sup.resets + 1) ∧
  t.led.memActive = false ∧ t.led.recovered = false ∧ t.fe.txns = [] ∧ (∀ h, (portOf t h).rate = 0 ∧
    (portOf t h).decoders = [] ∧ (portOf t h).perstLow = (portOf s h).perstLow) ∧ (∀ q, queueAt t q = none) ∧ t.ev.ctrs = [] ∧
  t.ctl.life = (if s.ctl.life = .debugUnlocked then .provisioned else s.ctl.life) ∧
  (∀ e ∈ t.pur.slots, e.2.dirty = true) ∧
  (pairMode s = false → t.med.lines = s.med.lines ∧
    ((s.pur.slots.map (·.1)).Nodup → ∀ e ∈ s.pur.slots, e.2.dirty = true →
      (s.pur.evb.any fun x => x.lineNo == e.2.quot * purseSlots s + e.1) = false → ∃ p, p = tget default t.pur.slots e.1 ∧
      p.line = e.2.line ∧ p.quot = e.2.quot ∧ p.dirty = true ∧ p.draining = false) ∧
    ((s.pur.evb.map (·.lineNo)).Nodup → t.pur.evb.map (fun x => (x.lineNo, x.line)) = s.pur.evb.map (fun x => (x.lineNo, x.line)))) ∧
  t.tbs = s.tbs ∧ t.so.entries.map (fun e => (e.1, e.2.bytes, e.2.state)) =
    s.so.entries.map (fun e => (e.1, e.2.bytes, e.2.state)) ∧ t.esc.sets = s.esc.sets ∧ s.ev.ring.length ≤ t.ev.ring.length ∧
  (s.ev.frozen = true → ∀ r ∈ s.ev.ring, r ∈ t.ev.ring) ∧
  (s.led.appending = false → t.led.entries = s.led.entries) ∧ t.cry.media = s.cry.media ∧ t.pb.params = s.pb.params ∧
  (∀ k, k < 2 ^ 26 → notEvent k → (k ∈ rwpOffs ∨ domainOf k = domTBS ∨ domainOf k = domAON) → rget t k = rget s k)

/-- R477: a power-down has begun its drain, with its cause: credits withheld, engines and standing orders stopped. -/
def drainBegun (mode : DrainMode) (cause : Nat) (restart : Bool) (s t : State) : Prop :=
  t.pur.drain = mode ∧ t.pur.creditsHeld = true ∧ t.pur.drainSince = s.clock ∧ t.mov.stopped = true ∧ t.so.halted = true ∧
  t.sup.down = cause ∧ t.sup.restartDue = restart ∧ t.sup.state = .on ∧ t.pur.slots = s.pur.slots ∧ t.pur.evb = s.pur.evb

/-- R210, R477, R533: a drain has ended, its record says whether it completed, and the core's supplies are gone. -/
def drainEnded (complete : Bool) (s t : State) : Prop :=
  t.pur.pfRecord = some (min 0xFFFF ((s.clock - s.pur.drainSince) / 100000), complete) ∧ t.pur.runMark = !complete ∧
  t.pur.drain = .none ∧ t.tbs.recorded = some s.tbs.mint ∧ t.sup.state ≠ .on ∧ t.ctl.cpuUp = false ∧ t.pur.slots = [] ∧
  (∀ h, (portOf t h).rate = 0) ∧ (s.med.ops = [] → ∀ e ∈ s.led.overdraft, ∃ x ∈ t.led.spill, x.1 = e.1) ∧ t.pb.params = s.pb.params

/-- R466: a sequence fault of a slot has been taken: counted where the supply is good, and the rails go down, to FAULT where
the retries are spent, else to a retry. -/
def railFault (slot cause : Nat) (s t : State) : Prop :=
  (t.sup.state = .down ∨ t.sup.state = .cool ∨ t.sup.state = .fault) ∧ (railAt t slot).faulted = true ∧
  (railAt t slot).cnt.seqFaults = min 0xFFFF ((railAt s slot).cnt.seqFaults + 1) ∧
  (cause = 1 → (railAt t slot).cnt.riseTo = min 0xFFFF ((railAt s slot).cnt.riseTo + 1)) ∧
  (s.sup.supplyGood = false ∨ s.sup.seriesFaults + 1 ≤ supParam s 0x180 % 8 →
    t.sup.state ≠ .fault ∧ t.sup.restartDue = true ∧ t.sup.faultDue = false) ∧
  (s.sup.supplyGood = true → supParam s 0x180 % 8 < s.sup.seriesFaults + 1 →
    t.sup.state = .fault ∨ (t.sup.state = .down ∧ t.sup.faultDue = true))

/-- R378: the YCI command that a row is: its opcode, its mailbox and its input, the row's fixed byte in place. -/
def yciCmd : Instr → Option (Nat × MbxPort × List Byte)
  | .getCapacityInfo p b => some (0xC100, p, b)
  | .provisionFolios p b => some (0xC101, p, b)
  | .deprovisionFolios p b => some (0xC102, p, b)
  | .zeroFolios p b => some (0xC103, p, b)
  | .setFolioAttributes p b => some (0xC104, p, b)
  | .changeFolioClass p b => some (0xC105, p, b)
  | .getFolioEntry p b => some (0xC106, p, b)
  | .requestCheckpoint p b => some (0xC107, p, b)
  | .commitScanResult p b => some (0xC108, p, (withAction 2 b))
  | .format p b => some (0xC108, p, (withAction 3 b))
  | .startRebuildScan p b => some (0xC108, p, (withAction 1 b))
  | .getScanReport p b => some (0xC109, p, b)
  | .getWearAndReserveHealth p b => some (0xC10A, p, b)
  | .setTillLossAcceptance p b => some (0xC10B, p, b)
  | .startFullAssay p b => some (0xC200, p, b)
  | .readDieRegister p b => some (0xC201, p, b)
  | .getChannelStatus p b => some (0xC202, p, b)
  | .getDomainInfo p b => some (0xC300, p, b)
  | .getSealedWindow p b => some (0xC301, p, b)
  | .writeStandingOrder p b => some (0xC400, p, b)
  | .armStandingOrder p b => some (0xC401, p, b)
  | .disarmStandingOrder p b => some (0xC402, p, b)
  | .readStandingOrder p b => some (0xC403, p, b)
  | .createEscrowSet p b => some (0xC404, p, b)
  | .closeEscrowSet p b => some (0xC405, p, b)
  | .abandonEscrowSet p b => some (0xC406, p, b)
  | .getEscrowSet p b => some (0xC407, p, b)
  | .createQueuePair p b => some (0xC500, p, b)
  | .deleteQueuePairAbort p b => some (0xC501, p, (withMode 1 b))
  | .deleteQueuePairDrain p b => some (0xC501, p, (withMode 0 b))
  | .setQueueGrants p b => some (0xC502, p, b)
  | .reinitMoverEngine p b => some (0xC503, p, b)
  | .getQueueInfo p b => some (0xC504, p, b)
  | .getPairStatus p b => some (0xC600, p, b)
  | .setPairPolicy p b => some (0xC601, p, b)
  | .startSettlement p b => some (0xC602, p, b)
  | .splitPairImmediate p b => some (0xC603, p, (withAction 2 b))
  | .splitPairPlanned p b => some (0xC603, p, (withAction 1 b))
  | .readPassbookParameter p b => some (0xC700, p, b)
  | .writePassbookParameter p b => some (0xC701, p, b)
  | .getTallyCounter p b => some (0xC702, p, b)
  | .getSupervisionStatus p b => some (0xC800, p, b)
  | .getRailCounters p b => some (0xC801, p, b)
  | .setSupervisionParameter p b => some (0xC802, p, b)
  | .resetDevice p b => some (0xC803, p, b)
  | .requestPowerCycle p b => some (0xC804, p, b)
  | .readDaybook p b => some (0xC900, p, b)
  | .armTrigger p b => some (0xC901, p, (withAction 2 b))
  | .disarmTrigger p b => some (0xC901, p, (withAction 3 b))
  | .freeze p b => some (0xC901, p, (withAction 1 b))
  | .thaw p b => some (0xC901, p, (withAction 0 b))
  | .getDaybookSummary p b => some (0xC902, p, b)
  | .takeAuditSnapshot p b => some (0xC903, p, b)
  | .readAuditSnapshot p b => some (0xC904, p, b)
  | .setDaybookRateLimit p b => some (0xC905, p, b)
  | .getFirmwareInfo p b => some (0xCA00, p, b)
  | .transferFirmware p b => some (0xCA01, p, b)
  | .activateFirmwareAtReset p b => some (0xCA02, p, (withAction 1 b))
  | .activateFirmwareOnline p b => some (0xCA02, p, (withAction 0 b))
  | .getLifecycleState p b => some (0xCA03, p, b)
  | .commitRollbackFloor p b => some (0xCA04, p, b)
  | .getInterfaceVersions p b => some (0xCB00, p, b)
  | .declareInterfaceVersion p b => some (0xCB01, p, b)
  | _ => none

/-- R368, R374: mailbox p has answered a command, and t is v, the command's effect, but for the mailbox, for reasons raised, and
for what waits for the passbook store (Queued). -/
def acted (p : MbxPort) (op rc : Nat) (out : List Byte) (s v t : State) : Prop :=
  answered p op rc out s t ∧ Queued (v.sans p) (t.sans p)

/-- R228, R243: a firing that has taken effect, but for its reasons and for the effect of its action: it is no longer issued,
its entry's lateness and the counts have it. -/
def State.fired (f : Firing) (s : State) : State :=
  let late := (f.frame - f.fireTime) / 1024
  let u := s.modSo fun o => { o with
    firings := o.firings.erase f, fired := satAdd 0xFFFFFFFF o.fired 1,
    late := if 0 < late then satAdd 0xFFFFFFFF o.late 1 else o.late,
    entries := tmod soEntry0 o.entries f.entry fun e => { e with lateMax := max e.lateMax (min late 0xFFFF) } }
  let u := (if 0 < late then u.counted 641 1 else u).counted 640 1
  if rval s 0x6100C % 256 < late then rbit u 0x61000 10 else u

/-- R387: the vault port takes a request: it is powered, no response waits, and the firmware answers. -/
def vaultOpen (s : State) : Bool :=
  portPowered true s && s.ctl.vaultResp.isNone && !s.pb.recalling && s.ctl.cpuUp && !s.sup.tripped && !s.sup.inReset

/-- R388: the response that waits at the vault port. -/
def vaultAnswered (op principal tag status : Nat) (out : List Byte) (t : State) : Prop :=
  t.ctl.vaultResp = some (vaultFrame op principal tag status out)

/-- R306, R319, R322: the descriptor at index idx of queue q is fetched, of this opcode, passes every check of its start, and its
engine, its queue's turn and the marks let it run. -/
def descReady (s : State) (q idx op : Nat) (x : Queue) (d : Desc) : Bool :=
  queueAt s q == some x && workOf s q idx == some d && d.op == op && d.stage == .fetched && engineServes s x && marksMet s x d &&
  turnQueue s x.engine == some q &&
  (fieldFault d).isNone && (grantFault s x d).isNone && (escrowFault s d).isNone && (accessFailOf s d).isNone

/-- R316, R317: descriptor d of queue q is done, with a STATUS, a DETAIL and a RESULT for its completion entry. -/
def endedAs (q : Nat) (d : Desc) (status detail result : Nat) (t : State) : Prop :=
  ∃ y e, queueAt t q = some y ∧ e ∈ y.descs ∧ e.idx = d.idx ∧ e.raw = d.raw ∧ e.stage = .done ∧ e.status = status ∧
    e.detail = detail ∧ e.result = BitVec.ofNat 64 result

/-- Two states agree but for queue q and the progress of engines. -/
def onlyQueue (q : Nat) (s t : State) : Prop :=
  (∀ k, k ≠ q → queueAt t k = queueAt s k) ∧ (∀ e, (engineAt t e).inService = (engineAt s e).inService) ∧
  t.modMov (fun m => { m with queues := [], engines := [] }) = s.modMov fun m => { m with queues := [], engines := [] }

end Machine

end Sys2Proof
end

