-- ==== Sys2Proof/Certificates/Slice0/Obligations.lean ====
section
/-! DEFINITION. The statements for the provers. -/

open Sys2Proof Sys2Proof.Machine

/-- A step runs the front command, and an empty queue lets one nanosecond pass (01_architecture.md). For every command
c and state s, step of s with c at the front of its queue is exec of c on s with the queue's rest. On an empty queue
step answers a next state whose clock is one nanosecond on, whose queue is empty, and in which nothing but the clock,
the timebase and the changed DRAM cells of purse slots (free values, log entry 80) has changed (log entry 4). -/
def Obligations.StepRunsFront : Prop :=
  (∀ (c : Instr) (rest : List Instr) (s : State),
    step (s.setPending (c :: rest)) = exec c (s.setPending rest)) ∧
  ∀ s : State, s.pending = [] → ∃ t, step s = .next t ∧ t.clock = s.clock + 1 ∧ t.pending = [] ∧
    ((t.modTbs fun _ => s.tbs).modPur fun u => { u with flips := s.pur.flips }).setClock s.clock = s

/-- Every step takes at most one command, in order, and no command changes the board or takes time
(01_architecture.md,  R12). For every state s, whatever its queue holds: if step answers next t, then t's queue is s's
queue without its first command, t's board is s's board, and t's clock is s's clock, or one nanosecond later where the
queue was empty; a board that a board can be (Safety.boardOk) so stays one. So no command of the 318 adds, drops or
reorders waiting commands (log entries 3 and 4). -/
def Obligations.StepTakesOneCommand : Prop :=
  ∀ s t : State, step s = .next t →
    t.pending = s.pending.tail ∧ t.board = s.board ∧ (boardOk s = true → boardOk t = true) ∧
    t.clock = s.clock + (if s.pending.isEmpty then 1 else 0)

/-- The RMA lifecycle state is permanent (R390,  R391). From every state whose lifecycle state is RMA, every step that
answers a next state leaves it RMA: no command of the block, no reset, no power-down and no loss of VDD_AON leaves RMA
(R390: RMA is fused; R391: ENTER_RMA is permanent). -/
def Obligations.RmaIsPermanent : Prop :=
  ∀ s t : State, s.ctl.life = .rma → step s = .next t → t.ctl.life = .rma

/-- A register write sets the RW bits, clears the W1C bits it writes as 1, and changes nothing else (R6,  R20,  R25).
For every plain stored register (Safety.plainReg), head, value and state in which the register's domain takes
accesses: REGISTER_WRITE answers a next state in which each RW bit of the register is the value's, each W1C bit that
the value writes as 1 is 0, and each other bit keeps its value; every other stored register and all other state is
unchanged. -/
def Obligations.RegisterWriteSetsFields : Prop :=
  ∀ (h : Head) (off : Nat) (v : BitVec 32) (s : State), plainReg off = true → domFree s (domainOf off) = true →
    ∃ (r : RegRow) (t : State), rowOf off = some r ∧ exec (.registerWrite (wr0 h off v)) s = .next t ∧
      (∀ i, i < 32 → (rget t (regKey h off)).getLsbD i =
        if r.rw.testBit i then v.getLsbD i
        else if r.w1c.testBit i && v.getLsbD i then false
        else (rget s (regKey h off)).getLsbD i) ∧
      (∀ k, k ≠ regKey h off → rget t k = rget s k) ∧
      t.setRegs s.regs = s

/-- A misaligned access is an ACCESS_ERROR, and a 32-bit read of a latching low word latches the high word for the
next read of it (R21,  R25,  R242,  R433). For every access of a size or alignment that R25 does not support,
MISALIGNED_ACCESS answers a next state in which GC_STATUS.ACCESS_ERROR (bit 3) is set and the reason ACCESS_ERROR
(0x04 of source 4 of group 8) is pending, a read has been answered with all ones, and nothing else has changed but for
notification (Safety.Noted): a write is discarded. For every 32-bit read of a latching low word (TBS_NOW_LO, a live
counter, a queue page's counter) whose domain takes accesses: LATCHING_LOW_WORD_READ answers a next state in which the
low word was answered and the high word of the same moment is latched, and nothing else changed. In every later state
that still holds that latch, a read of the high word answers the latched word, and the latch is then empty. -/
def Obligations.MisalignedAndLatchingAccesses : Prop :=
  (∀ (a : BarAccess) (s : State), accAligned a = false →
    ∃ t, exec (.misalignedAccess a) s = .next t ∧ Pends 8 4 0x04 t ∧
      Noted (if a.dir == .read then readAnswer a (allOnes a) (rbit s 0x40 3) else rbit s 0x40 3) t) ∧
  ∀ (a : BarAccess) (s : State), a.size = 4 → a.dir = .read → a.off % 4 = 0 → apertureOf a = none → latches a = true →
    domFree s (accDomain a) = true →
    ∃ t, exec (.latchingLowWordRead a) s = .next t ∧
      t = readAnswer a ((wordView s a a.off).setWidth 64) (s.modIsl fun i =>
        { i with latchLo := tput none i.latchLo (latchKey a + 4) (some (wordView s a (a.off + 4))) }) ∧
      ∀ u : State, tget none u.isl.latchLo (latchKey a + 4) = tget none t.isl.latchLo (latchKey a + 4) →
        domFree u (accDomain { a with off := a.off + 4 }) = true →
        ∃ w, exec (.latchingLowWordRead { a with off := a.off + 4 }) u = .next w ∧
          w.isl.lastRead = (wordView s a (a.off + 4)).setWidth 64 ∧
          w.outbox = .barData a.head ((wordView s a (a.off + 4)).setWidth 64) :: u.outbox ∧
          tget none w.isl.latchLo (latchKey a + 4) = none

/-- A read through an aperture answers its lowest member and records which members differ (R110,  R112,  R113). For
every aligned read of a broadcast or group aperture whose members' islands all take accesses, APERTURE_READ answers a
next state: with members, the lowest member's value is answered and MCL_BCAST_DIFF has bit d set exactly for the
members d whose value differs from it; without members, zero is answered and MCL_BCAST_DIFF is zero. Nothing else
changes. -/
def Obligations.ApertureReadAnswersLowestMember : Prop :=
  ∀ (a : BarAccess) (g : ChTarget) (s : State), accAligned a = true → a.dir = .read → apertureOf a = some g →
    (∀ c ∈ members s g, domFree s (chDomain c) = true) →
    ∃ t, exec (.apertureRead a) s = .next t ∧
      (∀ v d, t.isl.lastRead = v → t.med.bcastDiff = d →
        t = readAnswer a v (s.modMed fun m => { m with bcastDiff := d })) ∧
      (members s g = [] → t.isl.lastRead = 0 ∧ t.med.bcastDiff = 0) ∧
      ∀ c rest, members s g = c :: rest → t.isl.lastRead = memberView s a c ∧
        ∀ d, d < 32 → (t.med.bcastDiff.getLsbD d = true ↔ d ∈ rest ∧ memberView s a d ≠ memberView s a c)

/-- An access to a stopped island waits, times out after 100 µs, and its held writes apply when the clock returns
(R19,  R20,  R21,  R24). (1) Every command that is one 32-bit register write (Safety.rowAccess), sent while its domain
does not take accesses and holds fewer than 16 writes, joins the end of the waiting list, with its place in the order
of arrival, and changes nothing else. (2) With 16 held it is discarded: GC_STATUS.HELD_OVERFLOW and the reason
HELD_OVERFLOW. (3) ISLAND_TIMEOUT of an access that is the first to have waited 100 µs for an island still stopped
takes it off the list, sets GC_STATUS.ISLAND_TIMEOUT, records GC_TIMEOUT_INFO, raises ISLAND_TIMEOUT, and holds a
write (fewer than 16 being held) or answers a read outside the apertures with all ones. (4) ISLAND_CLOCK_RETURN of a
running domain with nothing waiting, its held writes standing in the order of their arrival, applies them in that
order and holds none of them any more; other domains' held writes stay. -/
def Obligations.StoppedIslandHoldsAccesses : Prop :=
  (∀ (c : Instr) (a : BarAccess) (s : State), rowAccess c = some a → domFree s (accDomain a) = false →
    (heldFor s (accDomain a)).length < 16 →
    exec c s = .next (s.modIsl fun i =>
      { i with waiting := i.waiting ++ [{ dom := accDomain a, since := s.clock, acc := a, member := none, seq := i.arrivals }],
               arrivals := i.arrivals + 1 })) ∧
  (∀ (c : Instr) (a : BarAccess) (s : State), rowAccess c = some a → domFree s (accDomain a) = false →
    16 ≤ (heldFor s (accDomain a)).length →
    ∃ t, exec c s = .next t ∧ Pends 8 4 0x02 t ∧ Noted (rbit s 0x40 1) t) ∧
  (∀ (w : WaitAcc) (rest : List WaitAcc) (s : State), s.isl.waiting = w :: rest → 100000 + w.since ≤ s.clock →
    domRuns s w.dom = false → (heldFor s w.dom).length < 16 → (w.acc.dir = .read → apertureOf w.acc = none) →
    ∃ t, exec (.islandTimeout w.acc) s = .next t ∧ Pends 8 4 0x01 t ∧
      (let u := rset (rbit (s.modIsl fun i => { i with waiting := rest }) 0x40 0) 0x50
        (BitVec.ofNat 32 (w.acc.off % 2 ^ 26 + b2n (w.acc.dir == .write) * 2 ^ 26))
       (w.acc.dir = .write → Noted (u.modIsl fun i =>
          { i with held := i.held ++ [{ dom := w.dom, acc := w.acc, member := w.member, seq := w.seq }] }) t) ∧
       (w.acc.dir = .read → Noted (readAnswer w.acc (allOnes w.acc) u) t))) ∧
  ∀ (d : Nat) (s : State), domRuns s d = true → (s.isl.waiting.any fun w => w.dom == d) = false →
    (heldFor s d).Pairwise (fun a b => a.seq ≤ b.seq) →
    ∃ t, exec (.islandClockReturn d) s = .next t ∧
      t = (heldFor s d).foldl (fun x w => writeLand w.acc w.member x)
        (s.modIsl fun i => { i with held := i.held.filter fun w => w.dom != d, waiting := s.isl.waiting })

/-- A 64-bit write of a pair is checked with the first field of the same access (R30). For each pair of the manual
(TBS_SET and TBS_OFFSET), whatever first field is held: a 64-bit write of the pair, with the timebase running, leaves
exactly the state that a 32-bit write of the second field with the access's high word leaves in the state in which the
first field holds the access's low word. -/
def Obligations.WideWriteOfPairIsOneCheck : Prop :=
  ∀ (h : Head) (lo hi : BitVec 32) (s : State), domFree s domTBS = true →
    (∃ t, exec (.registerWrite { head := h, bar2 := false, off := 0x60010, size := 8, dir := .write, value := hi ++ lo }) s = .next t ∧
      exec (.tbsSetHi h hi) (s.modTbs fun x => { x with setLo := lo, setLoHeld := lo }) = .next t) ∧
    (∃ t, exec (.registerWrite { head := h, bar2 := false, off := 0x60020, size := 8, dir := .write, value := hi ++ lo }) s = .next t ∧
      t = s.modTbs fun x => { x with offset := hi ++ lo, offsetLo := lo })

/-- The event, daybook and audit controls act as their bits say, and the counter-clear registers clear their counts
and nothing else (R421,  R428,  R432,  R434,  R438,  R441,  R442,  R111,  R152,  R216,  R284,  R303). With the block's
domain taking accesses: EVT_PENDING_CLEAR of word n < 10 clears the written bits of EVT_PENDINGn and nothing else;
DAYBOOK_FREEZE and DAYBOOK_THAW set and clear FROZEN and raise DAYBOOK_FROZEN and DAYBOOK_THAWED where they change it,
and change nothing where they do not; SNAP adds one register request with its TAG for the next boundary at least 32 ns
away; CLEAR sets the clear for the next boundary; SAMPLE_CFG_WRITE of slot n < 16 writes the slot's register, makes
the watched counter's value the base and restarts k; HIST_CFG_WRITE of h < 8 writes the selection and lets it wait for
the next boundary. Each changes nothing else. With the block's domain taking accesses: INT_CNT_CLEAR, PUR_CNT_CLEAR,
ICE_CNT_CLEAR, MOV_CNT_CLEAR and MCH_CNT_CLEAR of a populated channel set the block's counts to zero, leave every
other stored register and all other state unchanged. -/
def Obligations.AuditControlsAndCounterClears : Prop :=
  (∀ (h : Head) (n : Nat) (v : BitVec 32) (s : State), n < 10 → domFree s domFAB = true →
    ∃ t, exec (.evtPendingClear h n v) s = .next t ∧ t.setRegs s.regs = s ∧
      (∀ i, (rget t (0x30010 + 4 * n)).getLsbD i = ((rget s (0x30010 + 4 * n)).getLsbD i && !v.getLsbD i)) ∧
      ∀ k, k ≠ 0x30010 + 4 * n → rget t k = rget s k) ∧
  (∀ (h : Head) (s : State), domFree s domMGT = true →
    (∃ t, exec (.daybookFreeze h) s = .next t ∧ t.ev.frozen = true ∧
      (s.ev.frozen = true → t = s) ∧
      (s.ev.frozen = false → Noted (s.modEv fun e => { e with frozen := true, freezeLost := false }) t)) ∧
    ∃ t, exec (.daybookThaw h) s = .next t ∧ t.ev.frozen = false ∧
      (s.ev.frozen = false → t = s) ∧
      (s.ev.frozen = true → Noted (s.modEv fun e => { e with frozen := false, freezeLost := false }) t)) ∧
  (∀ (h : Head) (tag : BitVec 16) (s : State), domFree s domFAB = true →
    ∃ t b, exec (.snap h tag) s = .next t ∧ b % 1024 = 0 ∧ s.tbs.mint.toNat + 32 ≤ b ∧ b < s.tbs.mint.toNat + 32 + 1024 ∧
      t = s.modEv fun e => { e with snapReqs := e.snapReqs ++ [{ at_ := b, tag := tag, who := 2 }] }) ∧
  (∀ (h : Head) (s : State), domFree s domFAB = true →
    ∃ t b, exec (.clearCounters h) s = .next t ∧ b % 1024 = 0 ∧ s.tbs.mint.toNat < b ∧ b ≤ s.tbs.mint.toNat + 1024 ∧
      t = s.modEv fun e => { e with clearAt := some b }) ∧
  (∀ (h : Head) (n : Nat) (period : Bool) (v : BitVec 32) (s : State), n < 16 → domFree s domFAB = true →
    ∃ t, exec (.sampleCfgWrite h n period v) s = .next t ∧
      (∀ i, i < 32 → (rget t (0x50040 + 8 * n + (if period then 4 else 0))).getLsbD i =
        if period = true ∨ i < 12 then v.getLsbD i else (rget s (0x50040 + 8 * n)).getLsbD i) ∧
      (∀ k, k ≠ 0x50040 + 8 * n + (if period then 4 else 0) → rget t k = rget s k) ∧
      tget 0 t.ev.sampleBase n = (ctr s (bits (rval t (0x50040 + 8 * n)) 0 10)).toNat ∧ tget 0 t.ev.sampleK n = 0 ∧
      (t.setRegs s.regs).modEv (fun e => { e with sampleBase := s.ev.sampleBase, sampleK := s.ev.sampleK }) = s) ∧
  (∀ (h : Head) (n : Nat) (v : BitVec 32) (s : State), n < 8 → domFree s domFAB = true →
    ∃ t b, exec (.histCfgWrite h n v) s = .next t ∧ 
      (∀ i, i < 32 → (rget t (0x500C0 + 4 * n)).getLsbD i = if i < 13 then v.getLsbD i else (rget s (0x500C0 + 4 * n)).getLsbD i) ∧
      (∀ k, k ≠ 0x500C0 + 4 * n → rget t k = rget s k) ∧ b % 1024 = 0 ∧ s.tbs.mint.toNat < b ∧ b ≤ s.tbs.mint.toNat + 1024 ∧
      tget 0 t.ev.histAt n = b + 1 ∧
      (t.setRegs s.regs).modEv (fun e => { e with histAt := s.ev.histAt }) = s) ∧
  (∀ (h : Head) (s : State), domFree s domECC = true →
    ∃ t, exec (.intCntClear h) s = .next t ∧ t.setRegs s.regs = s ∧
      ∀ k, rget t k = if 0x200040 ≤ k ∧ k < 0x20005C ∧ k % 4 = 0 then 0 else rget s k) ∧
  (∀ (h : Head) (s : State), domFree s domPUR = true →
    ∃ t, exec (.purCntClear h) s = .next t ∧ t.setRegs s.regs = s ∧
      ∀ k, rget t k = if k = 0x80018 ∨ k = 0x8001C then 0 else rget s k) ∧
  (∀ (h : Head) (s : State), domFree s domCIP = true →
    ∃ t, exec (.iceCntClear h) s = .next t ∧ t.setRegs s.regs = s ∧
      ∀ k, rget t k = if k % 4 = 0 ∧ (0x300040 ≤ k ∧ k < 0x300058 ∨ 0x300110 ≤ k ∧ k < 0x300120) then 0 else rget s k) ∧
  (∀ (h : Head) (s : State), domFree s domFAB = true →
    ∃ t, exec (.movCntClear h) s = .next t ∧ t.setRegs s.regs = s ∧
      ∀ k, rget t k = if 0x400040 ≤ k ∧ k < 0x400050 ∧ k % 4 = 0 then 0 else rget s k) ∧
  ∀ (c : Nat) (s : State), c < 32 → populated s c = true → domFree s (chDomain c) = true →
    ∃ t, exec (.mchCntClear (.channel c)) s = .next t ∧ t.setRegs s.regs = s ∧
      ∀ k, rget t k = if k = 0x100038 + 0x1000 * c ∨ k = 0x10003C + 0x1000 * c then 0 else rget s k

/-- The timebase writes select the source, are refused, or set the time as R219 and R220 say (R29,  R219,  R220,
R242,  R406). With the timebase domain taking accesses: SOURCE_HOST selects source 0 with no slew and no pending set,
and not locked; SOURCE_PTM selects source 1 unless TBS_PTM_CFG.PORT names a Port B that is no second head,
SOURCE_PAIR_LINK selects source 2 only where Port B is a pair link, and each is otherwise refused; TBS_PTM_CFG_WRITE
writes the register but keeps PORT where a write of PORT = 1 is refused; TBS_SET_HI with source 0 and a frame-aligned
low word sets a pending set of the pair for the next boundary at least 32 ns away, and is otherwise refused. A refusal
sets TBS_STATUS.SET_REFUSED (bit 8), raises SET_REFUSED, discards the held low word where it is not frame-aligned, and
changes the source and the pending set not at all. -/
def Obligations.TimebaseWrites : Prop :=
  (∀ (h : Head) (s : State), domFree s domTBS = true →
    ∃ t, exec (.sourceHost h) s = .next t ∧ (s.tbs.locked = true → Pends 7 0 0x05 t) ∧
      Noted (s.modTbs fun x => { x with source := 0, slew := 0, slewing := false, resync := false, dialogueOpen := false,
                                        pendSet := none, locked := false, lockRun := 0 }) t) ∧
  (∀ (h : Head) (s : State), domFree s domTBS = true →
    ∃ t, exec (.sourcePtm h) s = .next t ∧
      if s.tbs.ptmCfg.getLsbD 16 && !twoHeads s then Pends 7 0 0x03 t ∧ Noted (rbit s 0x60000 8) t
      else t.tbs.source = 1 ∧ t.tbs.resync = true ∧ t.tbs.pendSet = none ∧ (t.modTbs fun _ => s.tbs) = s) ∧
  (∀ (h : Head) (s : State), domFree s domTBS = true →
    ∃ t, exec (.sourcePairLink h) s = .next t ∧
      if pairMode s then t.tbs.source = 2 ∧ t.tbs.resync = true ∧ t.tbs.locked = false ∧ Noted s (t.modTbs fun _ => s.tbs)
      else Pends 7 0 0x03 t ∧ Noted (rbit s 0x60000 8) t) ∧
  (∀ (h : Head) (v : BitVec 32) (s : State), domFree s domTBS = true →
    ∃ t, exec (.tbsPtmCfgWrite h v) s = .next t ∧
      if v.getLsbD 16 && s.tbs.source == 1 && !twoHeads s then
        Pends 7 0 0x03 t ∧
          Noted (rbit (s.modTbs fun x => { x with ptmCfg := (v &&& 0xFFFF) ||| (x.ptmCfg &&& 0x10000) }) 0x60000 8) t
      else t = s.modTbs fun x => { x with ptmCfg := v &&& 0x1FFFF }) ∧
  ∀ (h : Head) (v : BitVec 32) (s : State), domFree s domTBS = true →
    ∃ t, exec (.tbsSetHi h v) s = .next t ∧ t.tbs.setHi = v ∧
      if s.tbs.source = 0 ∧ s.tbs.setLoHeld.toNat % 1024 = 0 then
        ∃ b, b % 1024 = 0 ∧ s.tbs.mint.toNat + 32 ≤ b ∧ b < s.tbs.mint.toNat + 32 + 1024 ∧
          t = s.modTbs fun x => { x with setHi := v, setLoForce := x.setLoHeld, pendSet := some (b, v ++ x.setLoHeld) }
      else Pends 7 0 0x03 t ∧ t.tbs.pendSet = s.tbs.pendSet ∧ t.tbs.source = s.tbs.source ∧
        (s.tbs.setLoHeld.toNat % 1024 ≠ 0 → t.tbs.setLoHeld = s.tbs.setLoForce) ∧
        Noted (rbit s 0x60000 8) (t.modTbs fun _ => s.tbs)

/-- A raised reason is pending at once, whatever the rate limit, and moves only what notification keeps (R420,  R421,
R425,  R429). For every reason of a group below the Daybook group, every detail and state: raising it sets the
source's pending bit and makes it the LAST_REASON, whether or not the rate limit keeps its record; no pending bit that
was set is cleared; and nothing changes but what notification keeps (Safety.Noted). A further reason of the same
source, raised while the bit is 1, leaves the bit set and becomes the LAST_REASON. -/
def Obligations.RaisedReasonIsPending : Prop :=
  ∀ (g src n : Nat) (d : Det) (s : State), flatOf (evCode g src n) < 288 → evCode g src n % 128 = n →
    Pends g src n (raise g src n d s) ∧ Noted s (raise g src n d s) ∧
    ∀ w b, w < 10 → b < 32 → (rget s (0x30010 + 4 * w)).getLsbD b = true →
      (rget (raise g src n d s) (0x30010 + 4 * w)).getLsbD b = true

/-- Coalescing expires, the ring takes a record and a rate-limit window begins as R423 to R430 say (R423,  R425,
R428,  R429,  R430). COALESCE_HOLD_EXPIRY of a vector with accumulated notifications whose hold is over leaves none
accumulated, and, no power-fail trip having happened, sends its MSI-X message, or records it in the Pending Bit Array
where it is masked; before that it changes nothing. DAYBOOK_RECORD_TAKE, due, moves the oldest queued record to the
end of the ring under the next sequence number (0 skipped), dropping the oldest record of a full ring that is not
frozen; a frozen full ring keeps its records and the loss is marked; a matching armed trigger is disarmed and freezes
the daybook. RATE_LIMIT_WINDOW in a new window applies the waiting table, restarts the counts and keeps only the codes
with suppressed records; in the same window it changes nothing. -/
def Obligations.DaybookEvents : Prop :=
  (∀ (h : Head) (v : Nat) (s : State),
    let c := tget coal0 (portOf s h).coal v
    (0 < c.acc ∧ 1000 * c.holdUs + c.first ≤ s.clock →
      ∃ t, exec (.coalesceHoldExpiry h v) s = .next t ∧ (tget coal0 (portOf t h).coal v).acc = 0 ∧ Noted s t ∧
        (s.sup.tripped = false → (portOf s h).msixMask = false ∧ (tget vec0 (portOf s h).msix v).masked = false →
          t.outbox = .msi h v :: s.outbox) ∧
        (s.sup.tripped = false → (portOf s h).msixMask = true ∨ (tget vec0 (portOf s h).msix v).masked = true →
          v ∈ (portOf t h).pba ∧ t.outbox = s.outbox)) ∧
    (c.acc = 0 ∨ s.clock < 1000 * c.holdUs + c.first → exec (.coalesceHoldExpiry h v) s = .next s)) ∧
  (∀ (r : DbRec) (rest : List DbRec) (s : State), s.ev.inq = r :: rest → s.ev.takenAt ≤ s.clock →
    ∃ t, exec .daybookRecordTake s = .next t ∧ t.ev.takenAt = s.clock + 20 ∧ t.bare = s.bare ∧ t.said = s.said ∧
      (∀ k, notEvent k → rget t k = rget s k) ∧
      (s.ev.frozen = true ∧ 16384 ≤ s.ev.ring.length →
        t.ev.ring = s.ev.ring ∧ t.ev.next = s.ev.next ∧ t.ev.freezeLost = true ∧ t.ev.frozen = true) ∧
      (¬ (s.ev.frozen = true ∧ 16384 ≤ s.ev.ring.length) →
        t.ev.ring = (if 16384 ≤ s.ev.ring.length then s.ev.ring.drop 1 else s.ev.ring) ++ [{ r with seq := s.ev.next }] ∧
        t.ev.next = (if s.ev.next + 1 = 0 then 1 else s.ev.next + 1) ∧
        if trigMatches s r.code then t.ev.frozen = true ∧ t.ev.trigArmed = false
        else t.ev.frozen = s.ev.frozen ∧ t.ev.trigArmed = s.ev.trigArmed)) ∧
  ∀ s : State,
    (s.tbs.mint.toNat / 2 ^ 30 * 2 ^ 30 = s.ev.window → exec .rateLimitWindow s = .next s) ∧
    (s.tbs.mint.toNat / 2 ^ 30 * 2 ^ 30 ≠ s.ev.window →
      ∃ t, exec .rateLimitWindow s = .next t ∧ t.ev.window = s.tbs.mint.toNat / 2 ^ 30 * 2 ^ 30 ∧
        t.ev.limits = s.ev.limitsNext ∧ t.ev.wrapped = [] ∧
        (∀ x, x ∈ t.ev.tracks ↔ ∃ u ∈ s.ev.tracks, 0 < u.supp ∧ x = { u with kept := 0, raised := false }) ∧
        (t.modEv fun e => { e with window := s.ev.window, limits := s.ev.limits, wrapped := s.ev.wrapped,
                                   tracks := s.ev.tracks }) = s)

/-- Snapshots capture every counter at one boundary, and clears, samples and histogram restarts act at theirs (R432,
R434,  R435,  R436,  R438). COUNTERS_CLEARED at its boundary zeroes every audit counter but those that its own event
counts. SNAPSHOT_CAPTURE with no copy running captures one snapshot for all requests that are due: the next SEQ, the
boundary's time, the first request's TAG, the other requests counted in MERGED, and every counter as it stands.
SNAP_DONE puts the copy in buffer (SEQ - 1) mod 4. SAMPLE of an enabled slot whose counter passed a further multiple
of its period marks that multiple, and requests a snapshot where SNAP is set (its TAG is a free value, log entry 7).
HISTOGRAM_RESTART at its boundary clears the histogram's 32 bins and no other counter, and the written selection
applies. Nothing else changes but for notification (Safety.Noted). -/
def Obligations.AuditEvents : Prop :=
  (∀ (b : Nat) (s : State), s.ev.clearAt = some b → b ≤ s.tbs.mint.toNat →
    ∃ t, exec .countersCleared s = .next t ∧ (∀ i, noteCtr i = false → ctr t i = 0) ∧
      Noted (s.modEv fun e => { e with clearAt := none, ctrs := [] }) t) ∧
  (∀ (r : SnapReq) (others : List SnapReq) (s : State), s.ev.snapCopy = none →
    s.ev.snapReqs.filter (fun q => q.at_ ≤ s.tbs.mint.toNat / 1024 * 1024) = r :: others →
    ∃ t c, exec .snapshotCapture s = .next t ∧ c.seq = s.ev.snapSeq + 1 ∧ c.time = BitVec.ofNat 64 (s.tbs.mint.toNat / 1024 * 1024) ∧
      c.tag = r.tag ∧ c.ctrs = s.ev.ctrs ∧ c.merged = min others.length 255 ∧ c.reinits = s.sup.reinits ∧
      Noted (s.modEv fun e =>
        { e with snapReqs := e.snapReqs.filter fun q => !(q.at_ ≤ s.tbs.mint.toNat / 1024 * 1024),
                 snapCopy := some c, snapCopyAt := s.clock }) t) ∧
  (∀ (c : Snap) (s : State), s.ev.snapCopy = some c →
    ∃ t, exec .snapDone s = .next t ∧
      Noted (s.modEv fun e =>
        { e with snapCopy := none, snapSeq := c.seq, snaps := tput default e.snaps ((c.seq - 1).toNat % 4) c }) t) ∧
  (∀ (n k : Nat) (s : State), n < 16 → (rget s (0x50040 + 8 * n)).getLsbD 10 = true →
    k = (ctr s (bits (rval s (0x50040 + 8 * n)) 0 10) - BitVec.ofNat 48 (tget 0 s.ev.sampleBase n)).toNat /
      max 1 (rval s (0x50044 + 8 * n)) →
    tget 0 s.ev.sampleBase n < 2 ^ 48 → tget 0 s.ev.sampleK n < k →
    ∃ t, exec (.sample n) s = .next t ∧
      if (rget s (0x50040 + 8 * n)).getLsbD 11 then
        ∃ b tag, s.tbs.mint.toNat + 32 ≤ b ∧ b < s.tbs.mint.toNat + 32 + 1024 ∧ b % 1024 = 0 ∧
          Noted ((s.modCry fun c => { c with free := c.free + 1 }).modEv fun e =>
            { e with sampleK := tput 0 e.sampleK n k, snapReqs := e.snapReqs ++ [{ at_ := b, tag := tag, who := 3 }] }) t
      else Noted (s.modEv fun e => { e with sampleK := tput 0 e.sampleK n k }) t) ∧
  ∀ (n b : Nat) (s : State), n < 8 → tget 0 s.ev.histAt n = b + 1 → b ≤ s.tbs.mint.toNat →
    ∃ t, exec (.histogramRestart n) s = .next t ∧ tget 0 t.ev.histAt n = 0 ∧
      tget (regReset (0x500C0 + 4 * n)) t.ev.histAct n = rget s (0x500C0 + 4 * n) ∧
      (∀ i, ctr t i = if 768 + 32 * n ≤ i ∧ i < 800 + 32 * n then 0 else ctr s i) ∧
      (t.modEv fun e => { e with histAt := s.ev.histAt, histAct := s.ev.histAct, ctrs := s.ev.ctrs }) = s

/-- A sparse table reads what was written last and keeps its canonical form (R6,  01_architecture.md). For every
sparse table of the state (registers, ledger, wear, counters, media lines, records), default and key: after a write,
the key reads the written value and every other key reads what it read before; and a table whose keys rise and which
lists no entry equal to the default still has that form (the form is the model's own, log entry 2). A stored register
is read and set through such a table. -/
def Obligations.TableReadsLastWrite : Prop :=
  (∀ (α : Type) [DecidableEq α] (d v : α) (t : Tab α) (k : Nat),
    tget d (tput d t k v) k = v ∧ (∀ j, j ≠ k → tget d (tput d t k v) j = tget d t j) ∧
    (twf d t = true → twf d (tput d t k v) = true)) ∧
  ∀ (s : State) (k : Nat) (v : BitVec 32),
    rget (rset s k v) k = v ∧ (∀ j, j ≠ k → rget (rset s k v) j = rget s j) ∧ (rset s k v).setRegs s.regs = s

/-- A host reads back what it wrote to device memory (R15,  R43,  R44,  R201,  R255,  R256,  R261,  R268,  R340). For
every state in which memory is active and idle for the line (Safety.idleFor: nothing waits, no snoop filter entry, no
pair, no reinit, no sealed window, the till empty of the line and below its high water, the line's counter block good
in the counter cache and its minor counter not spent, the folio blank-mapped, provisioned, acknowledged early, and the
host allowed by key and head), and for every address, data and byte enables: the write, MEMWR or MEMWRPTL, completes
with one write completion; and a read of the same address by the same head, MEMRD or MEMRDDATA, then answers exactly
one message: the written bytes, zeros where a byte was not enabled. In between, the line stands encrypted in the till.
-/
def Obligations.HostReadsBackWhatItWrote : Prop :=
  ∀ (h : Head) (tag tag' : Nat) (hpa : BitVec 64) (data : Sector) (en : BitVec 64) (own full rdData : Bool) (g : Target) (s : State),
    takesWrites s h = true → decodeHpa s h hpa.toNat = some g → g.sbox = false → g.inside = true → ideBlocks s h = false →
    idleFor s h g.key (g.dpa / 256) = true → (full = true → en = BitVec.allOnes 64) →
    ∃ t, exec (if full then .memWr h tag hpa data false else .memWrPtl h tag hpa data en false) s = .next t ∧
      t.said = .memCmp h tag :: s.said ∧ inTill t (g.dpa / 256) = true ∧
      ∃ u, exec (if rdData then .memRdData h tag' hpa own else .memRd h tag' hpa own) t = .next u ∧
      u.said = .memData h tag' (mergeBytes 0 data en) :: t.said

/-- The strongbox reads and writes its data units past the ledger and the presses (R34,  R58,  R213,  R214,  R340).
For every request that decodes to the strongbox within its size, on a head that is taken and not refused by R360, with
no reinit of its home slice or of the purse controller, no request of the line waiting, no holder and no snoop of the
unit, and room in its snoop-filter set: MEMRD and MEMRDDATA answer the data unit, and through an HDM-DB window make
the head a holder of it (R58) and through no other; MEMWR stores its 64 bytes and MEMWRPTL merges the enabled bytes
over the unit, each encrypted under the strongbox key and the unit's number, and completes; other units keep their
contents. Nothing else changes but the head's request counter, the histograms and notification: the ledger, the purse
slots and the counters of the presses stay. -/
def Obligations.StrongboxAccess : Prop :=
  (∀ (h : Head) (tag : Nat) (hpa : BitVec 64) (own rdData : Bool) (g : Target) (s : State),
    takesReads s h = true → decodeHpa s h hpa.toNat = some g → g.sbox = true → ideBlocks s h = false →
    2 ^ 45 ≤ g.dpa → g.dpa - 2 ^ 45 < s.pur.sboxAct * 2 ^ 30 → reinitHolds s (g.dpa / 256) = false → (∀ u ∈ s.fe.txns, u.lineNo ≠ g.dpa / 256) →
    sfFind s (g.dpa / 64) = none → (∀ x ∈ s.fe.bis, x.sector ≠ g.dpa / 64) →
    (s.fe.sf.filter fun e => sfSet e.sector == sfSet (g.dpa / 64)).length < 16 →
    ∃ t, exec (if rdData then .memRdData h tag hpa own else .memRd h tag hpa own) s = .next t ∧
      t.said = .memData h tag (sboxRead s (g.dpa / 64)) :: s.said ∧
      t.bare = (if windowBi s h (g.dpa / 256 * 256) then sfHold h own (g.dpa / 64) 0 s else s).bare ∧
      ∀ k, notEvent k → rget t k = rget s k) ∧
  ∀ (h : Head) (tag : Nat) (hpa : BitVec 64) (data : Sector) (en : BitVec 64) (full : Bool) (g : Target) (s : State),
    takesWrites s h = true → decodeHpa s h hpa.toNat = some g → g.sbox = true → ideBlocks s h = false →
    2 ^ 45 ≤ g.dpa → g.dpa - 2 ^ 45 < s.pur.sboxAct * 2 ^ 30 → reinitHolds s (g.dpa / 256) = false → (full = true → en = BitVec.allOnes 64) →
    (∀ u ∈ s.fe.txns, u.lineNo ≠ g.dpa / 256) → sfFind s (g.dpa / 64) = none → (∀ x ∈ s.fe.bis, x.sector ≠ g.dpa / 64) →
    ∃ t c, exec (if full then .memWr h tag hpa data false else .memWrPtl h tag hpa data en false) s = .next t ∧
      c = Config.xtsEncrypt s.pur.sboxKey (g.dpa / 64 % 2 ^ 39) (mergeBytes (sboxRead s (g.dpa / 64)) data en) ∧
      t.said = .memCmp h tag :: s.said ∧
      t.bare = (s.modPur fun u => { u with sbox := (u.sbox.filter fun e => e.1 != g.dpa / 64 % 2 ^ 39) ++ [(g.dpa / 64 % 2 ^ 39, c)] }).bare ∧
      ∀ k, notEvent k → rget t k = rget s k

/-- An access beyond a decoder's DPA size is an access to an unprovisioned folio (R33). For every head, decoder and
address in its range with the window offset at or above the decoder's DPA size, the decoder being the one that claims
the address: a read answers poisoned data and a write completes and is discarded, each with exactly the effect that it
has where the folio of its DPA is unprovisioned (the same access in a state that differs only in that the address lies
within the size and the folio is unprovisioned). The ledger, the till and the media stay as they were. -/
def Obligations.BeyondDpaSizeIsUnprovisioned : Prop :=
  ∀ (h : Head) (tag : Nat) (hpa : BitVec 64) (own poison : Bool) (data : Sector) (d : Decoder) (off : Nat) (s : State),
    (portOf s h).level ≠ .cxl11 → (portOf s h).decoders = [(0, some d)] → d.sbox = false →
    d.base ≤ hpa.toNat → hpa.toNat < d.base + d.size → off = deinterleave d.ways d.gran (hpa.toNat - d.base) →
    d.dpaSize ≤ off % 2 ^ d.kpos → ideBlocks s h = false →
    (takesReads s h = true → ∃ t, exec (.memRd h tag hpa own) s = .next t ∧
      t = unprovisionedAccess h tag (d.dpaBase + off % 2 ^ d.kpos) (bits off d.kpos 7) false
        (ledgerLookup h (folioOf ((d.dpaBase + off % 2 ^ d.kpos) / 256)) (bump (headCtr h) 1 s)) ∧
      t.said = .memPoison h tag :: s.said ∧
      t.led = s.led ∧ t.pur = s.pur ∧ t.med = s.med ∧ t.integ = s.integ) ∧
    (takesWrites s h = true → ∃ t, exec (.memWr h tag hpa data poison) s = .next t ∧ Pends 5 5 0x01 t ∧
      t.said = .memCmp h tag :: s.said ∧ Noted (((send (.memCmp h tag) s).counted (headCtr h + 1) 1).looked h (folioOf ((d.dpaBase + off % 2 ^ d.kpos) / 256))) t) ∧
    ∀ (u : State), provisioned (ent u (folioOf ((d.dpaBase + off % 2 ^ d.kpos) / 256))) = false → ideBlocks u h = false →
      ∀ g : Target, decodeHpa u h hpa.toNat = some g → g.sbox = false → g.inside = true →
        g.dpa = d.dpaBase + off % 2 ^ d.kpos → g.key = bits off d.kpos 7 → takesReads u h = true →
        exec (.memRd h tag hpa own) u =
          .next (unprovisionedAccess h tag (d.dpaBase + off % 2 ^ d.kpos) (bits off d.kpos 7) false
            (ledgerLookup h (folioOf ((d.dpaBase + off % 2 ^ d.kpos) / 256)) (bump (headCtr h) 1 u)))

/-- Hints queue, snoops end, lost slots are scanned and recoinages complete (R59,  R62,  R199,  R232,  R274,  R340).
MEMSPECRD of an allowed line on media that is not held, queues the line once in its slice's prefetch queue and changes
nothing else but counters; a full queue drops it. BI_SNOOP_RESPONSE without data, and BI_TIMEOUT after 2 ms, end the
outstanding snoop: an invalidating one clears the head's holder bit, a downgrading one the right to modify; the
time-out also clears the holder bit and raises BI_TIMEOUT. LOST_SLOT_SCAN_DONE takes the slot off the list: the slot
is invalid where no ring names it, and holds the last named line, dirty and poisoned, where one does. RECOINED of a
block that holds a page, within its epoch, ends the block's recoinage and raises RECOINED. Each where no transaction
waits for it. -/
def Obligations.MemoryEventsComplete : Prop :=
  (∀ (h : Head) (hpa : BitVec 64) (g : Target) (s : State), takesReads s h = true → decodeHpa s h hpa.toNat = some g →
    g.sbox = false → g.inside = true → provisioned (ent s (folioOf (g.dpa / 256))) = true → ideBlocks s h = false →
    accessCheck s g.key (some h) (ent s (folioOf (g.dpa / 256))) = none →
    (cachedLine s (g.dpa / 256)).isNone = true → hasMedia s (g.dpa / 256) = true →
    s.pur.prefetchQ.contains (sliceOf s (g.dpa / 256), g.dpa / 256) = false →
    ∃ t, exec (.memSpecRd h hpa) s = .next t ∧
      if (s.pur.prefetchQ.filter fun e => e.1 == sliceOf s (g.dpa / 256)).length < 16384 then
        Noted ((((s.counted (headCtr h + 3) 1).looked h (folioOf (g.dpa / 256))).modPur fun u =>
          { u with prefetchQ := u.prefetchQ ++ [(sliceOf s (g.dpa / 256), g.dpa / 256)] }).counted 644 1) t
      else Noted (((s.counted (headCtr h + 3) 1).looked h (folioOf (g.dpa / 256))).counted 645 1) t) ∧
  (∀ (h : Head) (x : BiSnoop) (s : State), s.fe.bis = [x] → x.head = h → (s.fe.txns.any fun t => t.wait == .snoop || t.wait.polled) = false →
    ∃ t, exec (.biSnoopResponse h x.sector none) s = .next t ∧ t.fe.bis = [] ∧
      t = if x.inval then sfClear h x.sector (s.modFe fun f => { f with bis := [] })
          else s.modFe fun f => { f with bis := [], sf := f.sf.map fun e =>
            if e.sector == x.sector then { e with modify := false } else e }) ∧
  (∀ (h : Head) (x : BiSnoop) (s : State), s.fe.bis = [x] → x.head = h → 2000000 + x.since ≤ s.clock →
    (s.fe.txns.any fun t => t.wait == .snoop || t.wait.polled) = false →
    ∃ t, exec (.biTimeout h x.sector) s = .next t ∧ Pends (headNo h) 3 0x01 t ∧
      Noted (sfClear h x.sector (s.modFe fun f => { f with bis := [] })) t) ∧
  (∀ (k : Nat) (s : State), (s.pur.lostSlots.any fun e => e.1 == k) = true →
    (s.fe.txns.any fun t => t.wait == .slotScan k) = false →
    ∃ t, exec (.lostSlotScanDone k) s = .next t ∧ (∀ e ∈ t.pur.lostSlots, e.1 ≠ k) ∧
      (((s.pur.exRing ++ s.pur.wbRing).filter fun r => r.lineNo % purseSlots s == k) = [] →
        (tget default t.pur.slots k).valid = false) ∧
      (∀ pre r, ((s.pur.exRing ++ s.pur.wbRing).filter fun r => r.lineNo % purseSlots s == k) = pre ++ [r] →
        (tget default t.pur.slots k).valid = true ∧ (tget default t.pur.slots k).dirty = true ∧
        (tget default t.pur.slots k).line.poison = true ∧ (tget default t.pur.slots k).quot = r.lineNo / purseSlots s)) ∧
  ∀ (b : Nat) (c : CtrBlock) (s : State), s.cry.recoins.contains b = true →
    (s.cry.pagesRc.any fun e => e.2.block == b) = true → (ctrFetch (sc s) b s).1 = some c →
    c.major.toNat < epochEnd c.major.toNat → (s.fe.txns.any fun t => t.wait == .recoin b) = false →
    ∃ t, exec (.recoined b) s = .next t ∧ b ∉ t.cry.recoins ∧ Pends 6 1 0x03 t

/-- Global Persistent Flush: phase 1 withholds credits, phase 2 flushes, and both heads are answered when it is done
(R47,  R405). On a head with CXL.mem enabled: GPF_PHASE1 puts the head in phase 1 at least, after which no head has a
write credit; GPF_PHASE2 after phase 1 puts it in phase 2 and starts the till's flush where the board declares no
hold-up. GPF_PHASE2_COMPLETE, when no write waits, the waiting queue is empty, the till is empty or held up, and no
mirror entry of before phase 1 is left, answers every head in phase 2 and returns it to no phase, and the flush ends;
otherwise it changes nothing. -/
def Obligations.GlobalPersistentFlush : Prop :=
  (∀ (h : Head) (s : State), memEnabled s h = true →
    ∃ t, exec (.gpfPhase1 h) s = .next t ∧ (portOf t h).gpf = max (portOf s h).gpf 1 ∧ (∀ x, takesWrites t x = false) ∧
      t.modPair (fun _ => s.pair) = modPort h (fun p => { p with gpf := max p.gpf 1 }) s) ∧
  (∀ (h : Head) (s : State), memEnabled s h = true → 1 ≤ (portOf s h).gpf →
    ∃ t, exec (.gpfPhase2 h) s = .next t ∧ (portOf t h).gpf = 2 ∧
      (holdupActs s = false → t.pur.flushing = true) ∧
      t.modPur (fun _ => s.pur) = modPort h (fun p => { p with gpf := 2 }) s) ∧
  (∀ s : State, gpfReady s = false → exec .gpfPhase2Complete s = .next s) ∧
  ∀ s : State, gpfReady s = true → s.fe.portA.gpf = 2 →
    ∃ t, exec .gpfPhase2Complete s = .next t ∧ t.pur.flushing = false ∧ t.fe.portA.gpf = 0 ∧
      (s.fe.portB.gpf = 2 → t.fe.portB.gpf = 0 ∧ t.outbox = .gpfDone .b :: .gpfDone .a :: s.outbox) ∧
      (s.fe.portB.gpf ≠ 2 → t.fe.portB = s.fe.portB ∧ t.outbox = .gpfDone .a :: s.outbox)

/-- COMMIT buffers the staged values for a frame boundary, and at the boundary they take effect or an invalid map is
refused (R28,  R91,  R110,  R111). COMMIT through a channel's register or an aperture, every channel domain taking
accesses: the commit buffer of each member (the channel itself, populated or not, or the aperture's populated
channels) holds its staged slot map and schedule bits, all for one boundary: the first frame boundary at least 32 ns
away, or the boundary for which every member's COMMIT was already pending; no other channel and nothing else changes.
COMMIT_APPLY of a channel with no commit, or before its boundary, changes nothing; at the boundary the buffer empties,
the schedule bits apply, and a valid map applies; an invalid map does not: MCH_STATUS bit 8 and the reason
SLOTMAP_INVALID. -/
def Obligations.ChannelCommits : Prop :=
  (∀ (g : ChTarget) (s : State), boardOk s = true → Machine.targetOk g = true → (∀ c, c < 32 → domFree s (chDomain c) = true) →
    ∃ t b, exec (.commitStaged g) s = .next t ∧
      ((∀ c, c ∈ commitMembers s g → (chan s c).commitBuf.isSome = true ∧ (chan s c).commitAt = b) ∨
        (b % 1024 = 0 ∧ s.tbs.mint.toNat + 32 ≤ b ∧ b < s.tbs.mint.toNat + 32 + 1024)) ∧
      (t.modMed fun m => { m with chans := s.med.chans }) = s ∧
      ∀ c, chan t c = if c ∈ commitMembers s g then
          { chan s c with commitBuf := some (stagedMap s c, (rget s (0x100020 + 0x1000 * c)).setWidth 3), commitAt := b }
        else chan s c) ∧
  (∀ (c : Nat) (s : State), (chan s c).commitBuf = none ∨ s.tbs.mint.toNat < (chan s c).commitAt →
    exec (.commitApply c) s = .next s) ∧
  ∀ (c : Nat) (map : BitVec 64) (sched : BitVec 3) (s : State), c < 32 → (chan s c).commitBuf = some (map, sched) →
    (chan s c).commitAt ≤ s.tbs.mint.toNat →
    ∃ t, exec (.commitApply c) s = .next t ∧
      chan t c = { chan s c with commitBuf := none, sched := sched,
                                 map := if mapValid (s.board.m2.getLsbD c) map then map else (chan s c).map } ∧
      (∀ d, d ≠ c → chan t d = chan s d) ∧
      if mapValid (s.board.m2.getLsbD c) map then (t.modMed fun m => { m with chans := s.med.chans }) = s
      else Pends 2 c 0x01 t ∧ Noted (rbit s (0x100004 + 0x1000 * c) 8) (t.modMed fun m => { m with chans := s.med.chans })

/-- Tokens, frames and slots: each frame is announced once, started by its token or late, and its slots serve
operations (R23,  R79,  R87,  R88,  R94,  R95,  R96,  R101,  R103,  R227). FRAME_TOKEN once per frame gives the next
frame's start to every populated active channel and changes no other, issuing the due standing orders with it; the
frame's second token changes nothing. FRAME_START starts, in each active channel of the cluster with a token due, the
frame of its oldest token at slot 0 with the thermal step and quiet window in force, and sends ACTIVATE to the dies of
a channel that joins; without a due token it changes nothing. FRAME_LATE starts, in each channel that has joined and
whose next frame has begun without a token, the next frame, and raises FRAME_LATE for it. SLOT_START before the next
slot's time changes nothing; at it the slot is used up, and the first operation in the order of its kind, where there
is one and no reconstruction, assay or drain runs, is sent to its die: a read by XOUT, a register read by MRR, a
program by WRITE or UPDATE with its line (BLANK for a blank one), an updated one by MERGE to the parity die; a
program's bank is busy with it. BLANK takes no slot: with nothing else on the channel, on the first die with a row
left of a folio being blanked, SLOT_START sends the BLANK of its next row, whose bank is busy with it and which is in
flight (log entry 54). -/
def Obligations.FramesAndSlots : Prop :=
  (∀ s : State, (s.tbs.mint.toNat / 1024 + 1) * 1024 = s.tbs.tokenFrame → exec .frameToken s = .next s) ∧
  (∀ (f : Nat) (s : State), f = (s.tbs.mint.toNat / 1024 + 1) * 1024 → f ≠ s.tbs.tokenFrame → boardOk s = true →
    ∃ t, exec .frameToken s = .next t ∧ t.tbs.tokenFrame = f ∧
      (∀ c, chan t c = if c ∈ popChans s ∧ (chan s c).state = .active then
        { chan s c with token := ((chan s c).token ++ [f]).take 4 } else chan s c) ∧
      (((t.modTbs fun x => { x with tokenFrame := s.tbs.tokenFrame }).modMed fun m => { m with chans := s.med.chans }).modSo
        fun _ => s.so) = s ∧
      (soDue s f = [] ∨ s.tbs.set = false ∨ s.so.halted = true ∨ s.led.memActive = false → t.so = s.so) ∧
      ∀ i e, soFirst (soDue s f) = some (i, e) → soRunning s = true → s.led.memActive = true →
        ∃ more, t.so.firings = s.so.firings ++ { entry := i, frame := f, fireTime := soFire e.bytes, bytes := e.bytes } :: more) ∧
  (∀ (k : Nat) (s : State), 
    ∃ t, exec (.frameStart k) s = .next t ∧
      (∀ c f rest, c ∈ clusterChans s k → (chan s c).token = f :: rest → (∃ x ∈ (chan s c).token, x ≤ s.tbs.mint.toNat) →
        chan t c =
          { chan s c with token := rest, frame := f, slot := 0, cycles := s.clock, thermal := mediaStep s, quiet := quietIn s c f,
                          fullFrame := 128 ≤ opsHeld s c, joining := false,
                          lastCtl := if (chan s c).joining then tput 0 (chan s c).lastCtl 31 (mrwPacket 31 4 1) else (chan s c).lastCtl } ∧
        ((chan s c).joining = true → .dieCmd c (csOf 31) (mrwPacket 31 4 1) ∈ t.said)) ∧
      (∀ c, ¬ (c ∈ clusterChans s k ∧ ∃ x ∈ (chan s c).token, x ≤ s.tbs.mint.toNat) → chan t c = chan s c) ∧
      ((∀ c ∈ clusterChans s k, ∀ x ∈ (chan s c).token, s.tbs.mint.toNat < x) → t = s) ∧
      ((∀ c ∈ clusterChans s k, (∃ x ∈ (chan s c).token, x ≤ s.tbs.mint.toNat) → (chan s c).joining = false) → t.said = s.said) ∧
      (∀ r, notEvent r → rget t r = rget s r) ∧
      ((t.modMed fun m => { m with chans := s.med.chans }).modSup fun _ => s.sup).bare = (s.modIsl fun i => { i with half := t.isl.half }).bare) ∧
  (∀ (k : Nat) (s : State),
    ∃ t, exec (.frameLate k) s = .next t ∧
      ∀ c, if c ∈ clusterChans s k ∧ (chan s c).joining = false ∧ 1024 + (chan s c).frame ≤ s.tbs.mint.toNat ∧
          (∀ x ∈ (chan s c).token, 1024 + (chan s c).frame < x) then
        (chan t c).frame = 1024 + (chan s c).frame ∧ (chan t c).slot = 0 ∧ (chan t c).thermal = mediaStep s ∧
          (c < 32 → Pends 2 c 0x05 t)
      else chan t c = chan s c) ∧
  (∀ (c : Nat) (s : State),
    (chan s c).state ≠ .active ∨ slotCount s c ≤ (chan s c).slot ∨ s.tbs.mint.toNat < (chan s c).frame + (chan s c).slot * slotLen s c →
    exec (.slotStart c) s = .next s) ∧
  (∀ (c m n p row : Nat) (s : State), (chan s c).state = .active → (chan s c).slot < slotCount s c →
    (chan s c).frame + (chan s c).slot * slotLen s c ≤ s.tbs.mint.toNat → s.pur.prefetchQ = [] → (chan s c).recon = none → (chan s c).reconQ = [] →
    s.pair.state ≠ .settling → s.integ.rebuildCh = none → s.pur.drain = .none → s.med.ops = [] → s.med.assays = [] → (chan s c).banks = [] →
    s.led.blanking = [(m, n)] → p ∈ linePositions s c → row = tget 0 (chan s c).blankAt (m * 18 + p) → row < rowCount s → dieDead s c p m = false →
    (∀ q ∈ linePositions s c, q < p → dieDead s c q m = true ∨ rowCount s ≤ tget 0 (chan s c).blankAt (m * 18 + q)) →
    ∃ t o, exec (.slotStart c) s = .next t ∧ o = ({ blankOp s c m p row with sent := true, issued := true } : MOp) ∧ o ∈ t.med.ops ∧
      Out.dieCmd c (csOf (servePos s c p m)) (lineCmd s o 0x06 (servePos s c p m)).packet ∈ t.outbox ∧
      (bankAt t c p (bankOf s c m)).busy = true ∧ (bankAt t c p (bankOf s c m)).op = s.med.nextOp ∧
      tget 0 (chan t c).blankAt (m * 18 + p) = row + 1 ∧ t.med.lines = s.med.lines ∧ t.led = s.led) ∧
  ∀ (c : Nat) (s : State), (chan s c).state = .active → (chan s c).slot < slotCount s c →
    (chan s c).frame + (chan s c).slot * slotLen s c ≤ s.tbs.mint.toNat → s.pur.prefetchQ = [] → (chan s c).recon = none → (chan s c).reconQ = [] →
    s.pair.state ≠ .settling → s.integ.rebuildCh = none → s.pur.drain = .none → s.led.blanking = [] → s.med.assays = [] →
    (∀ o ∈ s.med.ops, o.ch = c → o.issued = true ∨ (readsLine o = false ∧ blanks o = false ∧
      (∀ m off, o.purpose = .restrikeLine m off → inTill s ((revOf s m).owner * 8192 + off) = false) ∧
      ∀ l, o.purpose = .poisonWrite l → inTill s l = false)) →
    ∃ t, exec (.slotStart c) s = .next t ∧ (chan t c).slot = (chan s c).slot + 1 ∧ (∀ d, d ≠ c → chan t d = chan s d) ∧
      ((slotServes s c (chan s c).slot).bind (slotPick s c) = none → slotSpare s c = none → t.outbox = s.outbox ∧ t.med.ops = s.med.ops) ∧
      ∀ o, (slotServes s c (chan s c).slot).bind (slotPick s c) = some o →
          (t.med.ops.filter fun q => q.id != o.id) = (s.med.ops.filter fun q => q.id != o.id) ∧
          (readsLine o = true → t.med.ops = s.med.ops.map (fun q => if q.id == o.id then { q with sent := true } else q) ∧
            t.said = .dieCmd c (csOf (servePos s c o.pos o.m)) (lineCmd s o 0x02 (servePos s c o.pos o.m)).packet :: s.said) ∧
          (∀ p reg, o.purpose = .mrr p reg → t.med.ops = s.med.ops.filter (fun q => q.id != o.id) ∧
            t.said = .dieCmd c (csOf p) (mrrPacket p reg) :: s.said) ∧
          (readsLine o = false → readsReg o = false → o.updated = true →
            t.med.ops = s.med.ops.map (fun q => if q.id == o.id then { q with sent := true, merged := true } else q) ∧
            (bankAt t c 16 (bankOf s c o.m)).busy = true ∧ (bankAt t c 16 (bankOf s c o.m)).op = o.id ∧
            t.said = .dieCmd c (csOf (servePos s c 16 o.m)) ({ lineCmd s o 0x05 (servePos s c 16 o.m) with
              src := servePos s c o.pos o.m, dbuf := o.dbuf, setOnly := isBlank (mline s (parityKey o.m c o.row)) }).packet :: s.said) ∧
          (readsLine o = false → readsReg o = false → o.updated = false →
            (bankAt t c (progPos s o) (bankOf s c o.m)).busy = true ∧ (bankAt t c (progPos s o) (bankOf s c o.m)).op = o.id ∧
            ∀ (upd : Bool) (line : MLine), upd = (twoStep s o && !o.noMerge && !o.merged && !o.setOnly) → line = (progLine s o).2 →
              t.said = (if isBlank line then [] else [.dieLine c (lineImage line)]) ++
                .dieCmd c (csOf (servePos s c (progPos s o) o.m))
                  ({ lineCmd s o (if upd then 0x04 else if isBlank line then 0x06 else 0x03) (servePos s c (progPos s o) o.m) with
                     dbuf := if upd then (dbufFree s o).getD 0 else 0,
                     setOnly := o.setOnly || (isBlank (mline s (progLine s o).1) && !isBlank line && !dieDead s c o.pos o.m) } : LineCmd).packet :: s.said)

/-- Dies learn the time, resume suspended programs, and their alerts are recorded and acted on (R84,  R96,  R102,
R115,  R147). DIE_TIME_UPDATE after the mint time crossed a multiple of 2^32 ns sends that time, valid unless the time
is unset or stamps are searched, to every active M2 channel, and records it; else it changes nothing. BANK_RESUME of a
suspended bank with no read queued for it and 64 ns since its last read resumes it; else nothing changes. SUSP_FAULT
of a suspended M2 bank raises SUSPEND_FAULT, is noted in the die's cause register, and the bank's reads wait for it;
else nothing changes. ALERT of no cause, or of an unpopulated channel, changes nothing; a cause of no action of its
own sets MCH_STATUS.DIE_ALERT, raises DIE_ALERT and queues the MRR of the cause register; a dropped packet (cause bit
0) makes its read be sent again, up to three times, with MCH_STATUS.CA_ERROR and its reason; a failed program (cause
bit 1) for which a spare is free is sent again set-only after the REMAP of its line to the spare, and the MRR of
WV_LOG, which names the line, is queued as well (log entry 25). -/
def Obligations.DieEvents : Prop :=
  (∀ s : State, s.tbs.mint.toNat / 2 ^ 32 = s.med.timeUpdated → exec .dieTimeUpdate s = .next s) ∧
  (∀ (n : Nat) (v : Bool) (s : State), n = s.tbs.mint.toNat / 2 ^ 32 → n ≠ s.med.timeUpdated → v = (s.tbs.set && !inSearch s) →
    ∃ t, exec .dieTimeUpdate s = .next t ∧
      (t.modMed fun d => { d with timeUpdated := s.med.timeUpdated, diesTime := s.med.diesTime, diesTimeValid := s.med.diesTimeValid,
                                  chans := s.med.chans }) = s.setOutbox t.outbox ∧
      t.med.timeUpdated = n ∧ t.med.diesTime = BitVec.ofNat 24 n ∧ t.med.diesTimeValid = v ∧
      ∀ (pk : BitVec 64) (cs : List Nat), pk = mrwPacket 31 3 (n % 2 ^ 24 + if v then 2 ^ 31 else 0) →
        cs = ((popChans s).filter fun c => s.board.m2.getLsbD c && (chan s c).state == .active) →
        t.outbox = (cs.map fun c => Out.dieCmd c 3 pk).reverse ++ s.outbox ∧
        ∀ c, chan t c = if c ∈ cs then { chan s c with lastCtl := tput 0 (chan s c).lastCtl 31 pk } else chan s c) ∧
  (∀ (c pos bank : Nat) (s : State),
    ∃ t, exec (.bankResume c pos bank) s = .next t ∧
      if (bankAt s c pos bank).suspended = true ∧ readQueued s c pos bank = false ∧ (bankAt s c pos bank).lastRead + 64 ≤ s.clock then
        bankAt t c pos bank = { bankAt s c pos bank with suspended := false } ∧
        t.outbox = .dieCmd c (csOf pos) (bankPacket 0x08 pos bank) :: s.outbox ∧
        chan t c = { chan s c with banks := (chan t c).banks, lastCtl := tput 0 (chan s c).lastCtl pos (bankPacket 0x08 pos bank) } ∧
        (∀ d, d ≠ c → chan t d = chan s d) ∧ (t.modMed fun m => { m with chans := s.med.chans }) = s.setOutbox t.outbox
      else t = s) ∧
  (∀ (c pos bank : Nat) (s : State), c < 32 →
    ∃ t, exec (.suspFault c pos bank) s = .next t ∧
      if s.board.m2.getLsbD c = true ∧ (bankAt s c pos bank).suspended = true then
        Pends 3 c 0x04 t ∧ bankAt t c pos bank = { bankAt s c pos bank with suspended := false, stuck := true } ∧
        (tget default t.med.dies (dieKey c pos)).suspFaults = (tget default s.med.dies (dieKey c pos)).suspFaults + 1 ∧
        (tget 0 (tget default t.med.dies (dieKey c pos)).regs 5).getLsbD 3 = true ∧
        (∀ o ∈ t.med.ops, readsLine o = true → o.ch = c → busPos s o = pos → bankOf s c o.m = bank → o.sent = false → o.issued = false) ∧
        t.med.lines = s.med.lines ∧ Noted s (t.modMed fun _ => s.med)
      else t = s) ∧
  (∀ (c pos op : Nat) (cause : BitVec 5) (s : State), cause = 0 ∨ populated s c = false →
    exec (.alert c pos cause op) s = .next s) ∧
  (∀ (c pos op : Nat) (cause : BitVec 5) (s : State), c < 32 → populated s c = true → cause ≠ 0 → cause &&& 0b10011 = 0 →
    ∃ t, exec (.alert c pos cause op) s = .next t ∧ Pends 3 c 0x01 t ∧
      tget 0 (tget default t.med.dies (dieKey c pos)).regs 5 = (tget 0 (tget default s.med.dies (dieKey c pos)).regs 5 ||| cause.setWidth 32) ∧
      (rget t (0x100004 + 0x1000 * c)).getLsbD 9 = true ∧ t.med.ops = s.med.ops ++
        [{ (default : MOp) with id := s.med.nextOp, ch := c, kind := .maint, purpose := .mrr pos 5, pos := pos, m := noFolio, ready := true,
                                queuedAt := s.clock, since := s.clock }] ∧
      t.med.chans = s.med.chans ∧ t.med.lines = s.med.lines ∧ t.led = s.led ∧ t.pur = s.pur ∧ t.fe = s.fe) ∧
  (∀ (c pos op : Nat) (o : MOp) (s : State), c < 32 → populated s c = true → findOp s op = some o → o.ch = c → o.issued = true →
    readsLine o = true → o.tries < 3 →
    ∃ t, exec (.alert c pos 0b00001 op) s = .next t ∧ Pends 3 c 0x02 t ∧ (rget t (0x100004 + 0x1000 * c)).getLsbD 10 = true ∧
      t.med.lines = s.med.lines ∧ t.led = s.led ∧ t.pur = s.pur ∧ t.fe = s.fe ∧
      (findOp t op).map (fun q => (q.sent, q.tries, q.purpose, q.rereads)) = some (false, o.tries + 1, o.purpose, o.rereads)) ∧
  ∀ (c op i : Nat) (o : MOp) (s : State), c < 32 → populated s c = true → findOp s op = some o → o.ch = c → o.issued = true →
    readsLine o = false → readsReg o = false → blanks o = false → o.merged = false → progPos s { o with updated := false } = o.pos →
    o.spares < 2 → (List.range 256).find? (fun i => !(sparesUsed s c o.pos).any fun e => e.1 % 256 == i) = some i →
    ((sparesUsed s c o.pos).filter fun e => bits e.2.toNat 23 6 == bankOf s c o.m).length < 8 →
    ∃ t, exec (.alert c o.pos 0b00010 op) s = .next t ∧ Pends 3 c 0x03 t ∧
      t.med.ops.take s.med.ops.length = s.med.ops.map (fun x =>
        if x.id == op then { x with sent := false, updated := false, setOnly := true, spares := x.spares + 1 } else x) ∧
      (t.med.ops.drop s.med.ops.length).map (fun x => (x.ch, x.purpose)) = [(c, .mrr o.pos 5), (c, .mrr o.pos 7)] ∧
      tget 0 (tget default t.med.dies (dieKey c o.pos)).regs 7 = BitVec.ofNat 32 (browOf s c o.m o.row + bankOf s c o.m * 2 ^ 23) ∧
      (tget 0 t.integ.repairs (dieKey c o.pos * 256 + i)).getLsbD 29 = true ∧
      bits (tget 0 t.integ.repairs (dieKey c o.pos * 256 + i)).toNat 0 23 = browOf s c o.m o.row % 2 ^ 23 ∧
      .dieCmd c (csOf o.pos) (remapPacket o.pos (bankOf s c o.m) (browOf s c o.m o.row) i) ∈ t.outbox ∧
      (bankAt t c o.pos (bankOf s c o.m)).busy = false

/-- A channel comes up with the dies that answer, is retried once, fails, and is reinitialised (R72,  R74,  R85,  R86,
R115,  R484,  R485). CHANNEL_BRINGUP of a channel that is unpopulated, active or failed, or of a block not in service,
changes nothing. With all expected dies and none beyond the populated data positions, of one generation, the channel
is active in the frame now, from its last slot; its map and schedule bits are those of reset after power-up and stay
after a reinit; every answering die holds its configuration; nothing but MRST_N of the channel and packets to its dies
goes out; the channel's operations are to be sent again; its reinit is over. With dies missing, with a die at a data
position that the population does not have, or of two generations, the channel fails at step 5, its operations end,
and BRINGUP_FAIL is raised. BRINGUP_STEP_TIMEOUT makes the first retry, and the second time fails the channel at its
step with BRINGUP_FAIL. CHANNEL_REINIT of an active populated channel puts it in reinit with every operation that it
keeps to be sent again and its open stripes noted, counts the reinit and raises it; else it changes nothing. -/
def Obligations.ChannelBringup : Prop :=
  (∀ (c : Nat) (present m2 : BitVec 18) (s : State),
    populated s c = false ∨ (chan s c).state = .active ∨ (chan s c).state = .failed ∨ s.sup.state ≠ .on ∨ s.sup.inReset = true →
    exec (.channelBringup c present m2) s = .next s) ∧
  (∀ (c : Nat) (present m2 : BitVec 18) (s : State), populated s c = true → (chan s c).state ≠ .active → (chan s c).state ≠ .failed →
    s.sup.state = .on → s.sup.inReset = false → oneGen present m2 = true → present &&& expected s c = expected s c → present &&& ~~~allowedDies s = 0 →
    present &&& m2 = (if s.board.m2.getLsbD c then present else 0) → (∀ x ∈ s.fe.txns, x.wait ≠ .reinit) →
    ∃ t, exec (.channelBringup c present m2) s = .next t ∧ (chan t c).state = .active ∧ (chan t c).present = present ∧
      (chan t c).frame = s.tbs.mint.toNat / 1024 * 1024 ∧ (chan t c).slot = slotCount s c ∧ (chan t c).failStep = 0 ∧
      ((chan s c).state = .reinit → (chan t c).map = (chan s c).map ∧ (chan t c).sched = (chan s c).sched) ∧
      ((chan s c).state ≠ .reinit → (chan t c).sched = 7 ∧
        (chan t c).map = if s.board.m2.getLsbD c then 0x8444844484448444 else 0x84448444) ∧
      (∀ d, d ≠ c → chan t d = chan s d) ∧
      (∀ p, p < 18 → present.getLsbD p = true → tget default t.med.dies (dieKey c p) = dieUp s c p) ∧
      (∀ k, (∀ p, p < 18 → k ≠ dieKey c p) → tget default t.med.dies k = tget default s.med.dies k) ∧
      (∀ o ∈ t.med.ops, o.ch = c → o.sent = false) ∧ Function.channel c ∉ t.sup.fnBusy ∧
      t.led = s.led ∧ t.pur = s.pur ∧ t.integ = s.integ ∧ t.fe = s.fe ∧ t.regs = s.regs ∧
      ∃ sent, t.outbox = sent ++ s.outbox ∧ ∀ x ∈ sent, x = .mrst c true ∨ x = .mrst c false ∨ ∃ cs p, x = .dieCmd c cs p) ∧
  (∀ (c : Nat) (present m2 : BitVec 18) (s : State), c < 32 → populated s c = true → (chan s c).state ≠ .active →
    (chan s c).state ≠ .failed → s.sup.state = .on → s.sup.inReset = false → s.fe.txns = [] →
    oneGen present m2 = false ∨ present &&& expected s c ≠ expected s c ∨ present &&& ~~~allowedDies s ≠ 0 ∨ present &&& m2 ≠ (if s.board.m2.getLsbD c then present else 0) →
    ∃ t, exec (.channelBringup c present m2) s = .next t ∧ Pends 3 c 0x05 t ∧ (chan t c).state = .failed ∧
      (chan t c).failStep = 5 ∧ (∀ o ∈ t.med.ops, o.ch ≠ c) ∧ (∀ d, d ≠ c → chan t d = chan s d) ∧
      t.said = (bringupSend c present s).said ∧
      Noted s ((t.setOutbox s.outbox).modMed fun m => { m with chans := s.med.chans, ops := s.med.ops, works := s.med.works })) ∧
  (∀ (c step : Nat) (s : State), c < 32 → populated s c = true → (chan s c).state ≠ .active → (chan s c).state ≠ .failed →
    s.fe.txns = [] →
    ∃ t, exec (.bringupStepTimeout c step) s = .next t ∧ (chan t c).attempts = (chan s c).attempts + 1 ∧
      (chan t c).failStep = step ∧ (∀ d, d ≠ c → chan t d = chan s d) ∧
      Noted s (t.modMed fun m => { m with chans := s.med.chans, ops := s.med.ops, works := s.med.works }) ∧
      if (chan s c).attempts = 0 then
        (chan t c).state = (if (chan s c).state = .off then .bringup else (chan s c).state) ∧ t.med.ops = s.med.ops
      else (chan t c).state = .failed ∧ Pends 3 c 0x05 t ∧ ∀ o ∈ t.med.ops, o.ch ≠ c) ∧
  (∀ (c : Nat) (s : State), populated s c = false ∨ (chan s c).state ≠ .active → exec (.channelReinit c) s = .next s) ∧
  ∀ (c : Nat) (s : State), populated s c = true → (chan s c).state = .active →
    ∃ t, exec (.channelReinit c) s = .next t ∧ Pends 9 6 0x01 t ∧ (chan t c).state = .reinit ∧ (chan t c).attempts = 0 ∧
      (chan t c).openStripes = (chan s c).openStripes ∧ Function.channel c ∈ t.sup.fnBusy ∧ t.sup.reinits = min 0xFF (s.sup.reinits + 1) ∧
      (∀ d, d ≠ c → chan t d = chan s d) ∧
      ∀ o ∈ t.med.ops, o.ch = c → o.sent = false ∧ o.issued = false

/-- A die that meets the criterion is recorded as failed, rebuilt on a free standby die, and replaced by it (R130,
R131,  R132,  R133,  R134). DIE_FAILED of a position that does not meet R130's criterion, or has failed already,
changes nothing. Else the position's bit is set in the population and recorded in the passbook; where the channel's
standby die is free, a rebuild of that position onto it begins, unless one runs; where it is not, NO_STANDBY is raised
for a data die; the failure of the standby die itself abandons the rebuild that runs on it, and REBUILD_ABANDONED is
raised. REBUILD_DONE of the channel whose rebuild runs, with no row left and no line of it in progress, puts the
standby die in the position's place, ends the record, and raises REBUILD_DONE; a rebuild of the next failed position
with a free standby die may follow; before that, and on another channel, it changes nothing. -/
def Obligations.DieFailureAndRebuild : Prop :=
  (∀ (c pos : Nat) (why : DieFailure) (s : State),
    populated s c = false ∨ 18 ≤ pos ∨ (failedDies s c).getLsbD pos = true ∨ dieMeets s c pos why = false →
    exec (.dieFailed c pos why) s = .next s) ∧
  (∀ (c pos : Nat) (why : DieFailure) (s : State), populated s c = true → pos < 18 → (failedDies s c).getLsbD pos = false →
    dieMeets s c pos why = true →
    ∃ t, exec (.dieFailed c pos why) s = .next t ∧
      (∀ p, p < 18 → (failedDies t c).getLsbD p = ((failedDies s c).getLsbD p || p == pos)) ∧
      (∀ d, d ≠ c → failedDies t d = failedDies s d) ∧ tget 0 t.pb.population c = failedDies t c ∧
      t.med.lines = s.med.lines ∧ t.med.chans = s.med.chans ∧ (pos < 17 → t.med = s.med) ∧ t.led.entries = s.led.entries ∧
      t.pur = s.pur ∧ t.fe.txns = s.fe.txns ∧ t.said = s.said ∧
      (pos < 17 → s.board.standbyDies.getLsbD c = true → (failedDies s c).getLsbD 17 = false → tget 0 s.integ.subst c = 0 →
        if s.integ.rebuildCh = none then
          t.integ.rebuildCh = some c ∧ t.integ.rebuildPos = pos ∧ t.pb.rebuildRec = some (c, pos, 0) ∧ Pends 4 1 0x02 t
        else t.integ.rebuildCh = s.integ.rebuildCh ∧ t.integ.rebuildPos = s.integ.rebuildPos) ∧
      (pos < 16 → s.board.standbyDies.getLsbD c = false → Pends 4 1 0x06 t ∧ t.integ.rebuildCh = s.integ.rebuildCh) ∧
      (pos = 17 → s.integ.rebuildCh = some c → t.integ.rebuildCh = none ∧ t.pb.rebuildRec = none ∧ Pends 4 1 0x04 t) ∧
      (pos = 17 → s.integ.rebuildCh ≠ some c → tget 0 t.integ.subst c = 0 ∧ Pends 4 1 0x01 t)) ∧
  (∀ (c : Nat) (s : State), s.integ.rebuildCh ≠ some c ∨ rebuildBusy s c = true ∨ rebuildLeft s c ≠ [] → exec (.rebuildDone c) s = .next s) ∧
  ∀ (c : Nat) (s : State), s.integ.rebuildCh = some c → rebuildBusy s c = false → rebuildLeft s c = [] →
    ∃ t, exec (.rebuildDone c) s = .next t ∧ tget 0 t.integ.subst c = s.integ.rebuildPos + 1 ∧
      (∀ d, d ≠ c → tget 0 t.integ.subst d = tget 0 s.integ.subst d) ∧ t.integ.failed = s.integ.failed ∧
      t.integ.rebuildCh ≠ some c ∧
      (t.integ.rebuildCh = none → t.pb.rebuildRec = none ∧ Pends 4 1 0x03 t) ∧
      ∀ d, t.integ.rebuildCh = some d → d ∈ popChans s ∧ standbyFree t d = true ∧
        (failedDies t d).getLsbD t.integ.rebuildPos = true ∧ t.integ.rebuildChunk = 0 ∧ Pends 4 1 0x02 t

/-- Restrikes, the patrol, the scrub and the mint-time record run as the drift rules say (R84,  R139,  R140,  R142,
R143,  R144,  R145). RESTRIKE takes the channel's oldest queued restrike, of a data or a parity line, off the queue,
skips a data line held in the till (which may complete its folio's restrikes), and else queues the maintenance read
whose decoded line is written back; with none it changes nothing. PATROL_START begins the patrol exactly when memory
is active, it is enabled, none runs and its period is over: it then reads, in maintenance slots, every line of the
live, read-only and escrow folios (an assay of each media folio). PATROL_DONE with a read of the patrol still to come
changes nothing, else it ends the patrol and raises PATROL_DONE. A patrol's read of a sound data line ends the read,
and queues the line's restrike exactly where its age is at or above the age limit or its corrected bits at or above
the class's threshold. SCRUB_DONE of a scrub with every folio struck gives each folio the stamp of now, empties the
scrub list, ends stamp search, makes the dies' time valid where the mint time is set, and raises SCRUB_DONE and then
STAMP_SEARCH_END; else nothing changes. MINT_TIME_RECORD records the mint time once per 2^36 ns. -/
def Obligations.RestrikePatrolScrub : Prop :=
  (∀ (c : Nat) (s : State), (∀ x ∈ s.integ.restrikes, keyCh s x.1 x.2 ≠ c) → exec (.restrike c) s = .next s) ∧
  (∀ (c m o : Nat) (pre post : List (Nat × Nat)) (s : State), s.integ.restrikes = pre ++ (m, o) :: post →
    (m, o) ∉ pre → (m, o) ∉ post → (∀ x ∈ pre, keyCh s x.1 x.2 ≠ c) → keyCh s m o = c →
    ∃ t, exec (.restrike c) s = .next t ∧ t.integ.restrikes = pre ++ post ∧
      if o < 16384 ∧ inTill s (hostLine s m o) = true then
        ((t.modInteg fun _ => s.integ).modLed fun l => { l with entries := s.led.entries }) = s ∧
          ∀ f, f ≠ (revOf s m).owner → ent t f = ent s f
      else t.med.lines = s.med.lines ∧ t.pur = s.pur ∧ t.fe = s.fe ∧ t.med.nextOp = s.med.nextOp + 1 ∧
        ∃ op ∈ t.med.ops, op.id = s.med.nextOp ∧ op.kind = .maint ∧ op.purpose = .strikeRead m o ∧
          op.ch = chOf s m (keyLine s m o) ∧ op.m = m ∧ op.sent = false) ∧
  (∀ s : State,
    ∃ t, exec .patrolStart s = .next t ∧
      if s.led.memActive = true ∧ (rget s 0x200008).getLsbD 0 = true ∧ s.integ.patrolling = false ∧
          s.integ.patrolAt + rval s 0x200008 / 65536 * 3600000000000 ≤ s.clock then
        t.integ.patrolling = true ∧ t.integ.patrolAt = s.clock ∧ t.led = s.led ∧ t.pur = s.pur ∧ t.med.lines = s.med.lines ∧
        t.regs = s.regs ∧ t.fe = s.fe ∧
        (t.modMed fun d => { d with assays := s.med.assays }) = s.modInteg (fun i => { i with patrolling := true, patrolAt := s.clock }) ∧
        t.med.assays = s.med.assays ++ (patrolFolios s).map fun f => { m := (ent s f).media, patrol := true, done := [] }
      else t = s) ∧
  (∀ s : State, s.integ.patrolling = false ∨ patrolLeft s = true → exec .patrolDone s = .next s) ∧
  (∀ s : State, s.integ.patrolling = true → patrolLeft s = false →
    ∃ t, exec .patrolDone s = .next t ∧ t.integ.patrolling = false ∧ Pends 4 3 0x01 t ∧
      Noted (s.modInteg fun i => { i with patrolling := false }) t) ∧
  (∀ (op m off n : Nat) (o : MOp) (x : MLine) (s : State), findOp s op = some o → o.kind = .maint → o.sent = true →
    o.purpose = .assay m off true → off < 16384 → o.m = m → opLine s o = off → inRecon s o = false →
    dieDead s o.ch o.pos m = false → o.rereads = 0 → opSearch s o = false → mline s (lineKey m off) = x → isBlank x = false →
    binOf s x.stamp = o.bin → (revOf s m).kind = 1 → (ent s (revOf s m).owner).media = m →
    checkLine s o.ch (ent s (revOf s m).owner) o.gen x = some (.good x) → (ent s (revOf s m).owner).readSub < 255 →
    s.fe.txns = [] →
    ∃ t, exec (.mediaReadDone op (.decoded n)) s = .next t ∧ findOp t op = none ∧ t.pur = s.pur ∧ t.med.lines = s.med.lines ∧
      ((m, off) ∈ t.integ.restrikes ↔ (m, off) ∈ s.integ.restrikes ∨
        ageLimit s ≤ (stampNow s - x.stamp).toNat ∨
        (bitsLimit s (ent s (revOf s m).owner).bullion ≠ 0 ∧ bitsLimit s (ent s (revOf s m).owner).bullion ≤ n))) ∧
  (∀ s : State, s.integ.scrubbing = false ∨ s.integ.scrub.all (folioStruck s) = false → exec .scrubDone s = .next s) ∧
  (∀ s : State, s.integ.scrubbing = true → s.integ.scrub.all (folioStruck s) = true →
    ∃ t, exec .scrubDone s = .next t ∧ t.integ.scrub = [] ∧ t.integ.scrubbing = false ∧ t.integ.search = false ∧
      t.pb.scrubRegions = [] ∧ (∀ f, ent t f = if f ∈ s.integ.scrub then { ent s f with stamp := stampNow s } else ent s f) ∧
      Pends 4 2 0x02 t ∧ t.med.lines = s.med.lines ∧ t.med.ops = s.med.ops ∧
      t.med.diesTimeValid = s.tbs.set ∧ t.pur = s.pur ∧ t.fe.txns = s.fe.txns) ∧
  ∀ s : State,
    ∃ t, exec .mintTimeRecord s = .next t ∧
      if s.tbs.mint.toNat / 2 ^ 36 = s.tbs.recordedAt / 2 ^ 36 then t = s
      else t.tbs = { s.tbs with recorded := some s.tbs.mint, recordedAt := s.tbs.mint.toNat } ∧
        t.med = s.med ∧ t.led.entries = s.led.entries ∧ t.pur = s.pur ∧ t.ev.ring = s.ev.ring ∧ t.said = s.said

/-- Media reads and writes complete, and the drain gives lines to their channels in order (R41,  R79,  R122,  R124,
R137,  R158,  R200,  R207,  R208,  R232). MEDIA_READ_DONE and MEDIA_WRITE_DONE of no operation, or one not sent,
change nothing. A prefetch read of a sound line of its own folio and generation fills the purse's free slot clean,
counts as a read of its folio and ends the operation; a read whose line's stamp calls for another drift bin is sent
again under it, once. A drain's program of a scrip line on a sound die stores the line on media as the operation
carries it and leaves the till slot that still held it clean, where nothing waits. The end of a BLANK leaves its line
blank and its bank free. DRAIN_ISSUE in ledger-lost mode, before recovery or while the purse is reinitialised gives
nothing out. An eviction-buffer line that is due on a folio with media whose channel and die can take it goes out
first: it is marked and a drain operation with its line is queued. DRAIN_AGE_CHECK within a second of the last changes
nothing; later it marks the time, and age is due exactly where the oldest live write-back entry is at least AGE_S old.
-/
def Obligations.MediaOperations : Prop :=
  (∀ (op : Nat) (r : Sense) (s : State), (∀ o, findOp s op = some o → readsLine o = false ∨ o.sent = false) →
    exec (.mediaReadDone op r) s = .next s) ∧
  (∀ (op : Nat) (s : State), (∀ o, findOp s op = some o → readsLine o = true ∨ o.sent = false) →
    exec (.mediaWriteDone op) s = .next s) ∧
  (∀ (op l n : Nat) (o : MOp) (x : MLine) (s : State), findOp s op = some o → o.kind = .read → o.sent = true → o.purpose = .prefetch l →
    opLine s o = l % 8192 → inRecon s o = false → dieDead s o.ch o.pos o.m = false → o.rereads = 0 →
    opSearch s o = false → isBlank x = false → (ent s (folioOf l)).readSub < 255 → mline s (lineKey o.m (opLine s o)) = x → binOf s x.stamp = o.bin →
    checkLine s o.ch (ent s (folioOf l)) o.gen x = some (.good x) → (ent s (folioOf l)).gen = o.gen →
    (cachedLine s l).isNone = true → (slotOf s l).valid = false → (∀ t ∈ s.fe.txns, t.lineNo ≠ l ∧ t.wait.polled = false) →
    ∃ t, exec (.mediaReadDone op (.decoded n)) s = .next t ∧ findOp t op = none ∧ t.fe.txns = s.fe.txns ∧
      t.led = (modEnt (folioOf l) (fun e => { e with readSub := e.readSub + 1 }) s).led ∧
      slotOf t l = { quot := l / purseSlots s, gen6 := gen6 o.gen, valid := true, dirty := false, queued := false, draining := false,
                     line := { data := x.data, hallmark := x.hallmark, poison := false, rewritten := 0 } } ∧
      ∀ k, k ≠ slotNo s l → tget pslot0 t.pur.slots k = tget pslot0 s.pur.slots k) ∧
  (∀ (op l : Nat) (o : MOp) (r : Sense) (s : State), findOp s op = some o → o.kind = .read → o.sent = true →
    o.purpose = .hostRead l → inRecon s o = false → dieDead s o.ch o.pos o.m = false → o.rereads = 0 →
    opSearch s o = false → isBlank (mline s (lineKey o.m (opLine s o))) = false → s.board.m2.getLsbD o.ch = false →
    binOf s (mline s (lineKey o.m (opLine s o))).stamp ≠ o.bin → (∀ fl, r ≠ .foreign fl) →
    ∃ t, exec (.mediaReadDone op r) s = .next t ∧ t.fe.txns = s.fe.txns ∧ t.pur = s.pur ∧
      (∃ y, findOp t op = some y ∧ y.rereads = 1 ∧ y.bin = binOf s (mline s (lineKey o.m (opLine s o))).stamp ∧ y.sent = false ∧
        y.purpose = o.purpose ∧ y.since = o.since ∧ y.queuedAt = o.queuedAt) ∧
      (t.med.ops.filter fun y => y.id != op) = (s.med.ops.filter fun y => y.id != op) ∧ t.med.lines = s.med.lines) ∧
  (∀ (op l : Nat) (o : MOp) (s : State), findOp s op = some o → o.kind = .write → o.sent = true → o.purpose = .drain l →
    opLine s o = l % 8192 → o.bullion = false → o.merged = false → o.noMerge = false → o.setOnly = false → dieDead s (chOf s o.m (l % 8192)) (dieOf s (l % 8192)) o.m = false →
    s.tbs.set = true → s.fe.txns = [] → s.pur.waitQ = [] → s.pur.evb = [] → s.cry.pagesRc = [] → s.pair.rxLate = [] →
    (slotOf s l).valid = true → (slotOf s l).draining = true → (slotOf s l).op = op → (slotOf s l).quot = l / purseSlots s →
    (slotOf s l).line.poison = false →
    ∃ t, exec (.mediaWriteDone op) s = .next t ∧ findOp t op = none ∧ mline t (lineKey o.m (l % 8192)) = o.line ∧
      (∀ k, k ≠ lineKey o.m (l % 8192) → mline t k = mline s k) ∧
      slotOf t l = { slotOf s l with draining := false, dirty := false, queued := false, op := 0 } ∧
      (s.med.ops.all (·.issued) = true → t.said = s.said)) ∧
  (∀ (op key : Nat) (o : MOp) (s : State), findOp s op = some o → o.purpose = .blank → o.sent = true →
    key = (if o.pos == 16 then parityKey o.m o.ch o.row else lineKey o.m (opLine s o)) →
    ∃ t, exec (.mediaWriteDone op) s = .next t ∧ findOp t op = none ∧ mline t key = blankLine ∧ (∀ k, k ≠ key → mline t k = mline s k) ∧
      (∀ pos bank, (bankAt s o.ch pos bank).busy = true → (bankAt s o.ch pos bank).op = op → (bankAt t o.ch pos bank).busy = false) ∧
      t.led = s.led ∧ t.pur = s.pur) ∧
  (∀ s : State, s.led.lost = true ∨ s.led.recovered = false ∧ s.pur.drain = .none ∨ s.sup.fnBusy.contains .purse = true →
    ∃ t, exec .drainIssue s = .next t ∧ t.med = s.med ∧ t.pur.slots = s.pur.slots ∧ t.pur.evb = s.pur.evb ∧
      t.led = s.led ∧ t.outbox = s.outbox) ∧
  (∀ (x : EvLine) (rest : List EvLine) (s : State), s.pur.evb = x :: rest → x.draining = false → s.led.lost = false →
    s.led.recovered = true → s.sup.fnBusy = [] → s.led.migs = [] → s.pair.rxLate = [] → s.fe.txns = [] → s.mov.queues = [] →
    drainable s x.lineNo = true →
    (ent s (folioOf x.lineNo)).media ≠ noFolio → (ent s (folioOf x.lineNo)).state ≠ .readOnly →
    cannotStore s (ent s (folioOf x.lineNo)).media (x.lineNo % 8192) = false → lateFor s (ent s (folioOf x.lineNo)) = false →
    holdupActs s = true →
    ∃ t op, exec .drainIssue s = .next t ∧ t.med.ops = s.med.ops ++ [op] ∧ op.kind = .write ∧ op.purpose = .drain x.lineNo ∧
      op.sent = false ∧ op.line = drainLine s (ent s (folioOf x.lineNo)) (x.lineNo % 8192) x.line ∧
      t.pur.evb = { x with draining := true, op := s.med.nextOp } ::
        (rest.map fun y => if y == x then { y with draining := true, op := s.med.nextOp } else y) ∧
      t.pur.slots = s.pur.slots ∧ ctr t 416 = ctr s 416 + 1) ∧
  ∀ s : State,
    ∃ t, exec .drainAgeCheck s = .next t ∧
      if s.clock < s.pur.ageChecked + 1000000000 then t = s
      else t.pur.ageChecked = s.clock ∧ t.pur.slots = s.pur.slots ∧ t.pur.evb = s.pur.evb ∧ t.med = s.med ∧ t.led = s.led ∧
        (∀ r, (s.pur.wbRing.dropWhile fun r => !ringLive s r).head? = some r →
          (t.pur.ageDue = true ↔ s.pur.ageDue = true ∨
            bits (rval s 0x80120) 8 16 * 1000000000 ≤ (2 ^ 21 + ringTime s - r.time) % 2 ^ 21 * 2 ^ 26)) ∧
        ((s.pur.wbRing.dropWhile fun r => !ringLive s r) = [] → t.pur.ageDue = s.pur.ageDue)

/-- Every YCI command is refused in one order, and its answer is mapped to the declared version and signalled (R366,
R367,  R368,  R370,  R371,  R372,  R374,  R375,  R380). For each of the 63 rows that are YCI commands (Safety.yciCmd):
at a port that is absent or without power nothing changes; while a command is in progress a host's doorbell is ignored
and the board is answered BUSY; else the command, noted in MBX_CMD on a host, is answered BUSY without firmware, then
VERSION if newer than the declared version, then NOT_PERMITTED (with its reason) outside the port's rights, then
MEDIA_DISABLED for class 0xC1 in ledger-lost mode but for the commands that answer there, then INVALID_INPUT for a
wrong length, then BUSY for a second background command (the order is log entry 22), each with no output and no other
effect. An answer: on a host mailbox RETURN is the code as its version reports it (CAPACITY, ROLLBACK and LIFECYCLE
mapped below 2.0), the output is the payload, nothing is in progress, MBX_EVT.DONE is set; on the board mailbox it is
one MCTP message. BG_DONE of a background command that has run to its end (Journal and the other chapters say when)
ends it with its result, PERCENT 100 and its reason, and on a host BG_DONE; else it changes nothing. -/
def Obligations.MailboxProtocol : Prop :=
  (∀ (i : Instr) (op : Nat) (p : MbxPort) (b : List Byte) (s : State), yciCmd i = some (op, p, b) →
    ((p = .b ∧ twoHeads s = false) ∨ portPowered (p == .board) s = false → exec i s = .next s) ∧
    ((p = .b → twoHeads s = true) → portPowered (p == .board) s = true → (mbxOf s p).busy.isSome = true →
      exec i s = .next (if p = .board then send (.mctp (toLE 2 op ++ toLE 2 0x6)) s else s)) ∧
    ((p = .b → twoHeads s = true) → portPowered (p == .board) s = true → (mbxOf s p).busy = none →
      ∃ r, yciRow op = some r ∧
        (firmwareAway p s = true → exec i s = .next (mbxAnswer p op 0x6 [] (yciNoted op p b s))) ∧
        (firmwareAway p s = false →
          ((mbxOf s p).declared < r.since → exec i s = .next (mbxAnswer p op 0x12 [] (yciNoted op p b s))) ∧
          (r.since ≤ (mbxOf s p).declared →
            ((if p = .board then r.board else r.host) = false →
              ∃ v, exec i s = .next (mbxAnswer p op 0x10 [] v) ∧ Pends 8 0 0x03 v ∧ Noted (yciNoted op p b s) v) ∧
            ((if p = .board then r.board else r.host) = true →
              (s.led.lost = true ∧ op / 256 = 0xC1 ∧ op ∉ [0xC100, 0xC106, 0xC108, 0xC109, 0xC10A] →
                exec i s = .next (mbxAnswer p op 0x7 [] (yciNoted op p b s))) ∧
              (s.led.lost = false ∨ op / 256 ≠ 0xC1 ∨ op ∈ [0xC100, 0xC106, 0xC108, 0xC109, 0xC10A] →
                (r.lenOk b.length = false → exec i s = .next (mbxAnswer p op 0x2 [] (yciNoted op p b s))) ∧
                (r.lenOk b.length = true → r.bg = true → (mbxOf s p).bg.isSome = true →
                  exec i s = .next (mbxAnswer p op 0x6 [] (yciNoted op p b s))))))))) ∧
  (∀ (op rc : Nat) (out : List Byte) (s : State),
    (∀ p, p ≠ .board →
      (mbxOf (mbxAnswer p op rc out s) p).ret = mapRc (mbxOf s p).declared rc ∧ (mbxOf (mbxAnswer p op rc out s) p).out = out ∧
      (mbxOf (mbxAnswer p op rc out s) p).busy = none ∧
      (rget (mbxAnswer p op rc out s) (regKey (headOf p) 0x2001C)).getLsbD 0 = true ∧
      (mbxAnswer p op rc out s).said = s.said) ∧
    (mbxAnswer .board op rc out s).said = .mctp (toLE 2 op ++ toLE 2 (mapRc s.ctl.board.declared rc) ++ out) :: s.said ∧
    (mbxAnswer .board op rc out s).regs = s.regs) ∧
  (∀ d rc, mapRc d rc = if 2 ≤ d then rc else if rc = 0x11 then 0x2 else if rc = 0x14 then 0x13 else if rc = 0x15 then 0x10 else rc) ∧
  (∀ (p : MbxPort) (s : State), firmwareAway p s = true ∨ (mbxOf s p).bg = none ∨ (∃ b, (mbxOf s p).bg = some b ∧ bgReady s b = none) →
    exec (.bgDone p false) s = .next s) ∧
  ∀ (p : MbxPort) (b : BgCmd) (rc : Nat) (s : State), firmwareAway p s = false → (mbxOf s p).bg = some b → bgReady s b = some rc →
    b.opcode ≠ 0xC200 →
    ∃ t, exec (.bgDone p false) s = .next t ∧ Pends 8 0 0x01 t ∧
      (p ≠ .board → (rget t (regKey (headOf p) 0x2001C)).getLsbD 1 = true) ∧
      Noted (let u := modMbx p (fun m => { m with bg := none, bgResult := mapRc m.declared rc, bgPercent := 100 }) s
             if p = .board then u else rbit u (regKey (headOf p) 0x2001C) 1) t

/-- The Get commands of classes 0xC1 to 0xC6 answer the fields that their layouts name, and change nothing else (R189,
R243,  R246,  R379,  R380,  R415). For each of these commands that its mailbox takes (Safety.yciTaken) with an input
in range, the answer is SUCCESS with exactly the bytes of its layout (R379, R189, R415), each field the machine's
value of that moment, and nothing but the answer changes (Safety.answerOnly): GET_CAPACITY_INFO, GET_FOLIO_ENTRY,
GET_SCAN_REPORT, GET_WEAR_AND_RESERVE_HEALTH, READ_DIE_REGISTER of a register other than the temperature (which is a
free value, log entry 7), which also queues the MRR as a maintenance operation of its channel (log entry 25),
GET_CHANNEL_STATUS, GET_DOMAIN_INFO, GET_SEALED_WINDOW, READ_STANDING_ORDER, GET_ESCROW_SET, GET_QUEUE_INFO (zeros for
a queue that is not there or of the other head) and GET_PAIR_STATUS. -/
def Obligations.ReadCommandsAnswer : Prop :=
  ∀ (p : MbxPort) (b : List Byte) (s : State),
    (yciTaken 0xC100 p b s = true → exec (.getCapacityInfo p b) s = .next (answerOnly 0xC100 p b 0
      (toLE 4 s.board.folios ++ toLE 4 (provisionedCount s) ++ toLE 4 (mediaN s) ++ toLE 4 (reserveCount s) ++ toLE 4 (floorF s) ++
        toLE 4 (writtenOff s) ++ toLE 4 (provisionable s) ++ zeros 4) s)) ∧
    (yciTaken 0xC106 p b s = true → le b 3 1 = 0 → le b 0 3 < s.board.folios →
      ∃ e, e = ent s (le b 0 3) ∧ exec (.getFolioEntry p b) s = .next (answerOnly 0xC106 p b 0
        (toLE 16 (e.media % 2 ^ 25 + e.key % 128 * 2 ^ 25 + b2n e.bullion * 2 ^ 32 + b2n e.through * 2 ^ 33 + b2n e.noAlloc * 2 ^ 34 +
          b2n e.late * 2 ^ 35 + b2n e.sealed_ * 2 ^ 36 + stateCode e.state * 2 ^ 37 + e.gen.toNat * 2 ^ 40 + e.stamp.toNat * 2 ^ 64 +
          min e.reads 0xFFFF * 2 ^ 88)) s)) ∧
    (yciTaken 0xC109 p b s = true → exec (.getScanReport p b) s = .next (answerOnly 0xC109 p b 0 (s.led.scanReport.flatMap (toLE 4)) s)) ∧
    (yciTaken 0xC10A p b s = true → ∃ out, exec (.getWearAndReserveHealth p b) s = .next (answerOnly 0xC10A p b 0 out s) ∧
      out.take 32 = toLE 4 (reserveCount s) ++ toLE 4 (floorF s) ++ toLE 4 (writtenOff s) ++ toLE 4 (readOnlyCount s) ++
        toLE 4 s.led.overdraft.length ++ toLE 4 (wearMax s) ++ toLE 4 (wearMean s) ++ toLE 4 (wearLimit s) ∧
      out.drop 32 = toLE 1 (spareLeft s) ++ toLE 1 (lifeUsed s) ++ toLE 2 (fewestSpares s) ++ toLE 4 (rval s 0x200044) ++
        toLE 4 (rval s 0x20004C) ++ toLE 4 (rval s 0x200058) ++ [sat8 s.sup.sinceOn, sat8 s.sup.ever] ++
        toLE 2 (min 0xFFFF (s.sup.min95 / 60)) ++ toLE 2 (min 0xFFFF (s.sup.min105 / 60)) ++ zeros 10) ∧
    (yciTaken 0xC201 p b s = true → le b 0 1 < 32 → le b 1 1 < 18 → le b 2 2 < 0x800 → populated s (le b 0 1) = true →
      (chan s (le b 0 1)).present.getLsbD (le b 1 1) = true → le b 2 2 ≠ 8 →
      exec (.readDieRegister p b) s = .next (answerOnly 0xC201 p b 0
        (toLE 4 (dieReg s (le b 0 1) (le b 1 1) (le b 2 2)).toNat ++ toLE 4 (dieReg s (le b 0 1) (le b 1 1) 1).toNat)
        (s.modMed fun d => { d with nextOp := d.nextOp + 1, ops := d.ops ++
          [{ (default : MOp) with id := d.nextOp, ch := le b 0 1, kind := .maint, purpose := .mrr (le b 1 1) (le b 2 2), pos := le b 1 1,
                                  m := noFolio, ready := true, queuedAt := s.clock, since := s.clock }] }))) ∧
    (yciTaken 0xC202 p b s = true → le b 0 4 < 32 → exec (.getChannelStatus p b) s = .next (answerOnly 0xC202 p b 0
      (toLE 1 (chStateCode (chan s (le b 0 1)).state) ++ toLE 1 (chan s (le b 0 1)).failStep ++ toLE 1 (chan s (le b 0 1)).attempts ++
        [0] ++ toLE 4 (chan s (le b 0 1)).present.toNat ++ toLE 4 (failedDies s (le b 0 1)).toNat ++ zeros 4) s)) ∧
    (yciTaken 0xC300 p b s = true → le b 0 1 < 128 → le b 1 3 = 0 → exec (.getDomainInfo p b) s = .next (answerOnly 0xC300 p b 0
      ([policyFlags s (le b 0 1), BitVec.ofNat 8 (b2n (domKey s (le b 0 1)).isSome + 2 * b2n (tget policy0 s.cry.policy (le b 0 1)).written)] ++
        zeros 2 ++ toLE 4 (s.led.entries.filter fun e => provisioned e.2 && e.2.key == le b 0 1).length ++
        toLE 4 (if le b 0 1 ≠ 0 ∧ (tget policy0 s.cry.policy (le b 0 1)).kcvSet = true
          then (tget policy0 s.cry.policy (le b 0 1)).kcv.toNat else 0) ++
        toLE 4 (s.esc.sets.filter fun e => e.2.state != .free && e.2.key == le b 0 1).length) s)) ∧
    (yciTaken 0xC301 p b s = true → exec (.getSealedWindow p b) s = .next (answerOnly 0xC301 p b 0 (toLE 4 s.cry.sealedCfg.toNat) s)) ∧
    (yciTaken 0xC403 p b s = true → le b 0 2 < 1024 → le b 2 2 = 0 → exec (.readStandingOrder p b) s = .next (answerOnly 0xC403 p b 0
      (toLE 4 (soWord (soEnt s (le b 0 2))) ++ toLE 32 (soEnt s (le b 0 2)).bytes.toNat) s)) ∧
    (yciTaken 0xC407 p b s = true → le b 0 1 < 64 → le b 1 3 = 0 → exec (.getEscrowSet p b) s = .next (answerOnly 0xC407 p b 0
      (toLE 4 (escWord (escSet s (le b 0 1))) ++ toLE 4 (escSet s (le b 0 1)).members.length ++ toLE 4 (escSet s (le b 0 1)).reserved ++
        zeros 4) s)) ∧
    (yciTaken 0xC504 p b s = true → le b 0 2 < 4096 → le b 2 2 = 0 →
      ((∀ x, queueAt s (le b 0 2) = some x → x.head ≠ headOf p) → exec (.getQueueInfo p b) s = .next (answerOnly 0xC504 p b 0 (zeros 32) s)) ∧
      ∀ x, queueAt s (le b 0 2) = some x → x.head = headOf p → exec (.getQueueInfo p b) s = .next (answerOnly 0xC504 p b 0
        (toLE 4 (qpInfo x) ++ toLE 4 (qpStatus x) ++ toLE 2 x.sqHead ++ toLE 2 x.sqTail ++ toLE 2 x.cqHead ++ toLE 2 x.cqTail ++
          toLE 16 x.grants.toNat) s)) ∧
    (yciTaken 0xC600 p b s = true →
      (pairMode s = false → exec (.getPairStatus p b) s = .next (answerOnly 0xC600 p b 0x2 [] s)) ∧
      (pairMode s = true → exec (.getPairStatus p b) s = .next (answerOnly 0xC600 p b 0
        (toLE 4 (pairStatus s) ++ toLE 4 s.pair.policy.toNat ++ toLE 4 (debtAll s).length ++ toLE 4 s.pair.debtPeer.length ++
          toLE 4 s.pair.settled ++ toLE 4 s.pair.overwritten ++ toLE 4 s.pair.losses ++ toLE 4 s.pair.peerSerial.toNat) s)))

/-- The Get commands of classes 0xC7 to 0xCB answer the fields that their layouts name, and change nothing (R379,
R427,  R431,  R435,  R454,  R457,  R458,  R488). For each of these commands that its mailbox takes (Safety.yciTaken)
with an input in range, the answer is SUCCESS with exactly the bytes of its layout (R379, R427, R431, R435, R457,
R488), and nothing but the answer changes (Safety.answerOnly): READ_PASSBOOK_PARAMETER (an RWP register's value, the
pair policy, a supervision parameter, or the passbook's or a pending write's value), GET_TALLY_COUNTER,
GET_SUPERVISION_STATUS, GET_RAIL_COUNTERS, READ_DAYBOOK (the held records from the one asked for, or from the oldest),
GET_DAYBOOK_SUMMARY, READ_AUDIT_SNAPSHOT (the counters asked for, from the buffer or the latest), GET_FIRMWARE_INFO,
GET_LIFECYCLE_STATE and GET_INTERFACE_VERSIONS. -/
def Obligations.StatusCommandsAnswer : Prop :=
  ∀ (p : MbxPort) (b : List Byte) (s : State),
    (yciTaken 0xC700 p b s = true → le b 2 2 = 0 → paramKnown (le b 0 2) = true →
      exec (.readPassbookParameter p b) s = .next (answerOnly 0xC700 p b 0 (toLE 8
        (if 0x10 ≤ le b 0 2 ∧ le b 0 2 < 0x1A then rval s (rwpOffs.getD (le b 0 2 - 0x10) 0)
         else if le b 0 2 = 0x20 then s.pair.policy.toNat
         else if 0x100 ≤ le b 0 2 then supParam s (le b 0 2)
         else paramValue s (le b 0 2))) s)) ∧
    (yciTaken 0xC702 p b s = true → le b 0 1 < 5 → le b 1 3 = 0 → exec (.getTallyCounter p b) s = .next (answerOnly 0xC702 p b 0
      (toLE 4 (tallyVal s (le b 0 1)) ++ [if tallyVal s (le b 0 1) = 0xFFFFFFFF then 1 else 0, 0, 0, 0]) s)) ∧
    (yciTaken 0xC800 p b s = true → ∃ out, exec (.getSupervisionStatus p b) s = .next (answerOnly 0xC800 p b 0 out s) ∧ out.length = 64 ∧
      out = [BitVec.ofNat 8 (supCode s.sup.state), BitVec.ofNat 8 s.sup.seriesFaults] ++
        toLE 2 (slotMask fun i => (railAt s i).good) ++ toLE 2 (slotMask fun i => (railAt s i).enabled) ++
        toLE 2 (slotMask fun i => (railAt s i).faulted) ++ [BitVec.ofNat 8 s.sup.step, BitVec.ofNat 8 (brokenNo s), sat8 (deviceTemp s),
          BitVec.ofNat 8 (hotSensor s / 3)] ++ (sensorNos.map fun n => sat8 ((sensorRead (sensorAt s n)).fdiv 4)) ++
        [BitVec.ofNat 8 s.sup.down, BitVec.ofNat 8 (s.sup.level % 16 + 16 * (s.sup.source % 16))] ++ toLE 2 s.sup.trips ++
        [BitVec.ofNat 8 s.sup.reinits, BitVec.ofNat 8 s.sup.resets] ++ zeros 34) ∧
    (yciTaken 0xC801 p b s = true → le b 0 1 < 16 → le b 1 3 = 0 →
      ∃ c, c = (railAt s (le b 0 1)).cnt ∧ exec (.getRailCounters p b) s = .next (answerOnly 0xC801 p b 0
        (toLE 2 c.seqFaults ++ toLE 2 c.riseTo ++ toLE 2 c.chatter ++ toLE 2 c.downFails ++ toLE 2 c.abandons ++ toLE 2 c.losses ++
          toLE 2 c.latest ++ toLE 2 c.lowest) s)) ∧
    (yciTaken 0xC900 p b s = true → le b 4 2 ≤ 128 → le b 6 2 = 0 →
      (∀ pre r post, s.ev.ring = pre ++ r :: post → (∀ q ∈ pre, q.seq.toNat ≠ le b 0 4) → r.seq.toNat = le b 0 4 →
        exec (.readDaybook p b) s = .next (answerOnly 0xC900 p b 0 (((r :: post).take (le b 4 2)).flatMap dbBytes) s)) ∧
      ((∀ q ∈ s.ev.ring, q.seq.toNat ≠ le b 0 4) →
        exec (.readDaybook p b) s = .next (answerOnly 0xC900 p b 0 ((s.ev.ring.take (le b 4 2)).flatMap dbBytes) s))) ∧
    (yciTaken 0xC902 p b s = true → exec (.getDaybookSummary p b) s = .next (answerOnly 0xC902 p b 0 (summaryBytes s.ev.summary) s)) ∧
    (yciTaken 0xC904 p b s = true → le b 0 1 < 4 ∨ le b 0 1 = 0xFF → le b 1 1 = 0 → le b 4 2 ≤ 508 → le b 6 2 = 0 →
      le b 2 2 + le b 4 2 ≤ 1024 →
      ∃ c, c = tget default s.ev.snaps (if le b 0 1 = 0xFF then (s.ev.snapSeq.toNat + 3) % 4 else le b 0 1) ∧
        exec (.readAuditSnapshot p b) s = .next (answerOnly 0xC904 p b 0 (snapHeader c ++
          (List.range (le b 4 2)).flatMap fun i => toLE 8 (tget 0 c.ctrs (le b 2 2 + i)).toNat) s)) ∧
    (yciTaken 0xCA00 p b s = true → exec (.getFirmwareInfo p b) s = .next (answerOnly 0xCA00 p b 0
      (toLE 4 (fwRun s).version.toNat ++ toLE 2 (fwRun s).svn.toNat ++ toLE 2 (fwStaged s).svn.toNat ++ toLE 4 (fwStaged s).version.toNat ++
        toLE 2 (tallyVal s 0) ++ [BitVec.ofNat 8 s.ctl.fwRunning, BitVec.ofNat 8 (fwCode (fwStaged s).state)] ++ zeros 48) s)) ∧
    (yciTaken 0xCA03 p b s = true → exec (.getLifecycleState p b) s = .next (answerOnly 0xCA03 p b 0
      ([BitVec.ofNat 8 (lifeNo s.ctl.life), BitVec.ofNat 8 (b2n s.ctl.lockout)] ++ zeros 6) s)) ∧
    (yciTaken 0xCB00 p b s = true → exec (.getInterfaceVersions p b) s = .next (answerOnly 0xCB00 p b 0
      ([BitVec.ofNat 8 s.ctl.versions.toNat, BitVec.ofNat 8 (mbxOf s p).declared] ++ zeros 6) s))

/-- The immediate setting commands put their setting in force before they answer, and change nothing else (R375,
R381,  R382,  R415,  R428,  R430,  R434,  R454,  R472). For each of these commands that its mailbox takes
(Safety.yciTaken) with an input in range, the answer is SUCCESS and the state is s with the setting, but for the
answer, reasons and passbook writes (Safety.acted): FREEZE and THAW set and clear FROZEN where they change it,
ARM_TRIGGER holds the code, DISARM_TRIGGER disarms, TAKE_AUDIT_SNAPSHOT requests one at the next boundary at least 32
ns away, SET_DAYBOOK_RATE_LIMIT writes a waiting table entry, DECLARE_INTERFACE_VERSION declares a served version
(VERSION otherwise), SET_TILL_LOSS_ACCEPTANCE, on a board that does not act on declared hold-up (else INVALID_INPUT),
accepts or, withdrawing, moves the write-back ring to the express ring, WRITE_PASSBOOK_PARAMETER leaves the value to
be read back (an RWP register keeps its non-RW bits, and TIL_BUDGET's waits for a frame boundary; INVALID_INPUT
outside the parameter's range; the pair policy and supervision parameters are NOT_PERMITTED), SET_PAIR_POLICY and
SET_SUPERVISION_PARAMETER take the policy and the usable parameter, RESET_DEVICE and REQUEST_POWER_CYCLE leave the
request pending from now, a pending power cycle staying. -/
def Obligations.SettingCommandsApply : Prop :=
  (∀ (p : MbxPort) (b : List Byte) (s : State), le b 1 1 = 0 →
    (yciTaken 0xC901 p (withAction 1 b) s = true → ∃ t, exec (.freeze p b) s = .next t ∧ t.ev.frozen = true ∧
      acted p 0xC901 0 [] s (if s.ev.frozen then s else s.modEv fun e => { e with frozen := true, freezeLost := false }) t) ∧
    (yciTaken 0xC901 p (withAction 0 b) s = true → ∃ t, exec (.thaw p b) s = .next t ∧ t.ev.frozen = false ∧
      acted p 0xC901 0 [] s (if s.ev.frozen then s.modEv fun e => { e with frozen := false, freezeLost := false } else s) t) ∧
    (yciTaken 0xC901 p (withAction 2 b) s = true → ∃ t, exec (.armTrigger p b) s = .next t ∧
      acted p 0xC901 0 [] s (s.modEv fun e => { e with trigCode := BitVec.ofNat 16 (le b 2 2), trigArmed := true }) t) ∧
    (yciTaken 0xC901 p (withAction 3 b) s = true → ∃ t, exec (.disarmTrigger p b) s = .next t ∧
      acted p 0xC901 0 [] s (s.modEv fun e => { e with trigArmed := false }) t)) ∧
  (∀ (p : MbxPort) (b : List Byte) (s : State),
    (yciTaken 0xC903 p b s = true → le b 2 2 = 0 → ∃ t, exec (.takeAuditSnapshot p b) s = .next t ∧
      ∃ bd, bd = (s.tbs.mint.toNat + 32 + 1023) / 1024 * 1024 ∧
        acted p 0xC903 0 [] s (s.modEv fun e =>
          { e with snapReqs := e.snapReqs ++ [{ at_ := bd, tag := BitVec.ofNat 16 (le b 0 2), who := 1 }] }) t) ∧
    (yciTaken 0xC905 p b s = true → le b 0 1 < 32 → le b 1 1 = 0 → ∃ t, exec (.setDaybookRateLimit p b) s = .next t ∧
      ∃ r : RateEntry, r = ⟨BitVec.ofNat 16 (le b 2 2), BitVec.ofNat 16 (le b 4 2), BitVec.ofNat 16 (le b 6 2)⟩ ∧
        acted p 0xC905 0 [] s (s.modEv fun e => { e with limitsNext := tput rateOff e.limitsNext (le b 0 1) r }) t) ∧
    (yciTaken 0xCB01 p b s = true → le b 0 1 < 3 → le b 1 3 = 0 → ∃ t, exec (.declareInterfaceVersion p b) s = .next t ∧
      if s.ctl.versions.getLsbD (le b 0 1) then
        (mbxOf t p).declared = le b 0 1 ∧ acted p 0xCB01 0 [BitVec.ofNat 8 (le b 0 1), 0, 0, 0] s s t
      else (mbxOf t p).declared = (mbxOf s p).declared ∧ acted p 0xCB01 0x12 [] s s t) ∧
    (yciTaken 0xC10B p b s = true → le b 0 1 < 2 → le b 1 3 = 0 → holdupActs s = true →
      exec (.setTillLossAcceptance p b) s = .next (answerOnly 0xC10B p b 0x2 [] s)) ∧
    (yciTaken 0xC10B p b s = true → le b 0 1 < 2 → le b 1 3 = 0 → holdupActs s = false →
      ∃ t, exec (.setTillLossAcceptance p b) s = .next t ∧
        acted p 0xC10B 0 [] s (s.modPur fun u => if le b 0 1 = 1 then { u with lossAccepted := true, tillLossPossible := true }
          else { u with lossAccepted := false, exRing := u.exRing ++ u.wbRing, wbRing := [] }) t)) ∧
  (∀ (p : MbxPort) (b : List Byte) (s : State), yciTaken 0xC701 p b s = true → le b 2 2 = 0 →
    (1 ≤ le b 0 2 → le b 0 2 < 5 → paramOk (le b 0 2) (le b 4 8) = true →
      ∃ t, exec (.writePassbookParameter p b) s = .next t ∧ acted p 0xC701 0 [] s s t ∧ paramValue t (le b 0 2) = le b 4 8) ∧
    (1 ≤ le b 0 2 → le b 0 2 < 0x1A → paramKnown (le b 0 2) = true → paramOk (le b 0 2) (le b 4 8) = false →
      exec (.writePassbookParameter p b) s = .next (answerOnly 0xC701 p b 0x2 [] s)) ∧
    (le b 0 2 = 0x18 → le b 4 8 < 2 ^ 32 → ∃ t, exec (.writePassbookParameter p b) s = .next t ∧
      acted p 0xC701 0 [] s ((s.setRegs t.regs).modPur fun u => { u with budgetStaged := t.pur.budgetStaged, budgetAt := nextBoundary s }) t ∧
      t.pur.budgetStaged = some ((clampBudget s (rval t 0x80104 % 128)).1 * 262144)) ∧
    (0x10 ≤ le b 0 2 → le b 0 2 < 0x1A → le b 0 2 ≠ 0x18 → le b 4 8 < 2 ^ 32 →
      ∃ t, exec (.writePassbookParameter p b) s = .next t ∧
        ∃ r, rowOf (rwpOffs.getD (le b 0 2 - 0x10) 0) = some r ∧
          acted p 0xC701 0 [] s (s.setRegs t.regs) t ∧
          (∀ k, notEvent k → k ≠ rwpOffs.getD (le b 0 2 - 0x10) 0 → k ≠ regKey (headOf p) 0x20008 → k ≠ regKey (headOf p) 0x2001C →
            rget t k = rget s k) ∧
          ∀ i, i < 32 → (rget t (rwpOffs.getD (le b 0 2 - 0x10) 0)).getLsbD i =
            if r.rw.testBit i then (le b 4 8).testBit i else (rget s (rwpOffs.getD (le b 0 2 - 0x10) 0)).getLsbD i) ∧
    (le b 0 2 = 0x20 ∨ 0x100 ≤ le b 0 2 → paramKnown (le b 0 2) = true →
      exec (.writePassbookParameter p b) s = .next (answerOnly 0xC701 p b 0x10 [] s))) ∧
  (∀ (p : MbxPort) (b : List Byte) (s : State), yciTaken 0xC601 p b s = true → pairMode s = true → le b 0 1 < 8 → le b 1 1 ≤ 2 →
    le b 2 2 = 0 →
    ∃ t, exec (.setPairPolicy p b) s = .next t ∧
      acted p 0xC601 0 [] s
        (s.modPair fun x => { x with policy := BitVec.ofNat 32 (le b 0 1 % 4 + 4 * le b 1 1 + 16 * (le b 0 1 / 4)) }) t) ∧
  (∀ (p : MbxPort) (b : List Byte) (s : State), yciTaken 0xC802 p b s = true → le b 2 2 = 0 → supIdOk (le b 0 2) (le b 4 4) = true →
    ∃ cfg, cfg = tput (supReset (le b 0 2)) s.sup.railCfg (le b 0 2) (BitVec.ofNat 64 (le b 4 4)) ∧
      (railTableOk cfg = false → exec (.setSupervisionParameter p b) s = .next (answerOnly 0xC802 p b 0x2 [] s)) ∧
      (railTableOk cfg = true → ∃ t, exec (.setSupervisionParameter p b) s = .next t ∧
        acted p 0xC802 0 [] s (s.modSup fun u => { u with railCfg := cfg }) t ∧
        { cls := 6, addr := 8 * le b 0 2, data := toLE 8 (le b 4 4), principal := 0 } ∈ t.pb.writing.toList ++ t.pb.writes)) ∧
  ∀ (p : MbxPort) (b : List Byte) (s : State),
    (yciTaken 0xC803 p b s = true → ∃ t, exec (.resetDevice p b) s = .next t ∧
      acted p 0xC803 0 [] s (if s.ctl.rstPend.any (·.2) then s else s.modCtl fun c => { c with rstPend := some (s.clock, false) }) t) ∧
    (yciTaken 0xC804 p b s = true → ∃ t, exec (.requestPowerCycle p b) s = .next t ∧
      acted p 0xC804 0 [] s (s.modCtl fun c => { c with rstPend := some (s.clock, true) }) t)

/-- The folio commands queue exactly one record per folio, and change no folio before it completes (R149,  R163,
R168,  R172,  R178,  R179,  R180,  R184,  R379,  R380,  R529). For each command that its mailbox takes, with a valid
extent: PROVISION_FOLIOS of unprovisioned folios that the key may own and that fit queues one ATTR per folio
(blank-mapped, key, policies, the domain's SEALED flag), answers CAPACITY where they do not fit and INVALID_INPUT
where one is provisioned; DEPROVISION_FOLIOS and ZERO_FOLIOS queue per folio an ATTR or the REMAP to no media folio,
and are BUSY where one is in escrow; SET_FOLIO_ATTRIBUTES queues ATTRs with the masked bits changed;
CHANGE_FOLIO_CLASS queues a class-change migration per folio with contents. Each answers BACKGROUND_STARTED, runs one
background command that waits for its records, and leaves every ledger entry as it was. REQUEST_CHECKPOINT acts as
WLV_CTL.CKPT_REQ. In ledger-lost mode START_REBUILD_SCAN starts the scan, COMMIT_SCAN_RESULT is BUSY before SCAN_DONE
and else starts the commit, FORMAT leaves an empty ledger, no sets, no counter blocks, and no ledger-lost mode;
START_FULL_ASSAY begins an assay of every folio that a patrol reads. -/
def Obligations.FolioCommands : Prop :=
  (∀ (p : MbxPort) (b : List Byte) (fs : List Nat) (s : State), fs = List.range' (le b 0 3) (le b 4 3) → extentOk s b 0 = true →
    (yciTaken 0xC101 p b s = true → le b 9 1 < 16 → le b 10 6 = 0 →
      ((∃ f ∈ fs, provisioned (ent s f) = true) → exec (.provisionFolios p b) s = .next (answerOnly 0xC101 p b 0x2 [] s)) ∧
      ((∀ f ∈ fs, provisioned (ent s f) = false) → mayProvision s (le b 8 1) (headOf p) fs = true →
        (provisionable s < fs.length → exec (.provisionFolios p b) s = .next (answerOnly 0xC101 p b 0x11 [] s)) ∧
        (fs.length ≤ provisionable s → ∃ t, exec (.provisionFolios p b) s = .next t ∧
          acted p 0xC101 1 [] s (s.modLed fun l => { l with extents := t.led.extents }) t ∧
          (∀ f, tget entry0 t.led.extents f = if f ∈ fs then
            withAttrBits { entry0 with key := le b 8 1, state := .blankMapped } (le b 9 1 + 16 * b2n (domSealed s (le b 8 1)))
            else tget entry0 s.led.extents f) ∧
          (mbxOf t p).bg = some { opcode := 0xC101, result := 0, recs := fs.length, arg := 0 } ∧
          t.led.appends = s.led.appends ++ fs.map fun f =>
            { jAttr f (le b 8 1) (le b 9 1 + 16 * b2n (domSealed s (le b 8 1))) .blankMapped (ent s f).gen.toNat with own := mbxNo p }))) ∧
    (yciTaken 0xC102 p b s = true →
      ((∃ f ∈ fs, (ent s f).state = .escrow) → exec (.deprovisionFolios p b) s = .next (answerOnly 0xC102 p b 0x6 [] s)) ∧
      ((∀ f ∈ fs, (ent s f).state ≠ .escrow) → ∃ t, exec (.deprovisionFolios p b) s = .next t ∧
        acted p 0xC102 1 [] s (s.modLed fun l => { l with extents := t.led.extents }) t ∧
        (∀ f, tget entry0 t.led.extents f = if f ∈ fs ∧ provisioned (ent s f) = true then entry0 else tget entry0 s.led.extents f) ∧
        t.led.appends = s.led.appends ++ (fs.filter fun f => provisioned (ent s f)).map fun f =>
          { (if (ent s f).media = noFolio then jAttr f (ent s f).key (attrBits (ent s f)) .unprovisioned (ent s f).gen.toNat
             else jRemap f 0 (ent s f).media noFolio ((ent s f).gen + 1).toNat .unprovisioned) with own := mbxNo p })) ∧
    (yciTaken 0xC103 p b s = true →
      ((∃ f ∈ fs, (ent s f).state = .escrow) → exec (.zeroFolios p b) s = .next (answerOnly 0xC103 p b 0x6 [] s)) ∧
      ((∀ f ∈ fs, (ent s f).state ≠ .escrow) → (∃ f ∈ fs, provisioned (ent s f) = false) →
        exec (.zeroFolios p b) s = .next (answerOnly 0xC103 p b 0x2 [] s)) ∧
      ((∀ f ∈ fs, (ent s f).state ≠ .escrow ∧ provisioned (ent s f) = true) → ∃ t, exec (.zeroFolios p b) s = .next t ∧
        acted p 0xC103 1 [] s s t ∧ (mbxOf t p).bg = some { opcode := 0xC103, result := 0, recs := fs.length, arg := 0 } ∧
        t.led.appends = s.led.appends ++ fs.map fun f =>
          { jRemap f 0 (ent s f).media noFolio ((ent s f).gen + 1).toNat .blankMapped with own := mbxNo p })) ∧
    (yciTaken 0xC104 p b s = true → le b 8 1 < 16 → le b 9 1 < 16 → le b 8 1 % 2 = 0 → le b 9 1 % 2 = 0 → le b 10 2 = 0 →
      (∀ f ∈ fs, provisioned (ent s f) = true) → ∃ t, exec (.setFolioAttributes p b) s = .next t ∧ acted p 0xC104 1 [] s s t ∧
        ∃ rs, rs = t.led.appends.drop s.led.appends.length ∧ t.led.appends = s.led.appends ++ rs ∧ rs.map (·.a) = fs ∧
          ∀ r ∈ rs, r.type = 0x04 ∧ r.b = (ent s r.a).key ∧ r.c / 32 = stateCode (ent s r.a).state ∧ r.d = (ent s r.a).gen.toNat ∧
            ∀ i, i < 5 → r.c.testBit i = if (le b 9 1).testBit i then (le b 8 1).testBit i else (attrBits (ent s r.a)).testBit i) ∧
    (yciTaken 0xC105 p b s = true → (∀ f ∈ fs, (ent s f).state ≠ .escrow ∧ (ent s f).sealed_ = false) →
      allocLimit s true + (fs.filter fun f => provisioned (ent s f) && !migrating s f).length ≤ reserveLeft s →
      ∃ t, exec (.changeFolioClass p b) s = .next t ∧ acted p 0xC105 1 [] s (s.modLed fun l => { l with migs := t.led.migs }) t ∧
        t.led.migs.map (fun g => (g.folio, g.prio, g.bullion)) = s.led.migs.map (fun g => (g.folio, g.prio, g.bullion)) ++
          ((fs.filter fun f => provisioned (ent s f) && !migrating s f).filter fun f => (ent s f).media != noFolio).map
            fun f => (f, 3, !(ent s f).bullion))) ∧
  (∀ (p : MbxPort) (b : List Byte) (s : State), yciTaken 0xC107 p b s = true → domFree s (domainOf 0x280004) = true →
    ∃ v, exec (.ckptReq .a) (yciNoted 0xC107 p b s) = .next v ∧ exec (.requestCheckpoint p b) s = .next (mbxAnswer p 0xC107 0 [] v)) ∧
  (∀ (p : MbxPort) (b : List Byte) (s : State), s.led.lost = true → le b 1 3 = 0 →
    (yciTaken 0xC108 p (withAction 1 b) s = true → ∃ t, exec (.startRebuildScan p b) s = .next t ∧
      acted p 0xC108 1 [] s (s.modLed fun l => { l with scanActive := true, scanDone := false }) t ∧
      (mbxOf t p).bg = some { opcode := 0xC108, result := 0, recs := 0, arg := 1 }) ∧
    (yciTaken 0xC108 p (withAction 2 b) s = true →
      (s.led.scanDone = false → exec (.commitScanResult p b) s = .next (answerOnly 0xC108 p (withAction 2 b) 0x6 [] s)) ∧
      (s.led.scanDone = true → ∃ t, exec (.commitScanResult p b) s = .next t ∧
        acted p 0xC108 1 [] s (s.modLed fun l => { l with scanActive := true }) t ∧
        (mbxOf t p).bg = some { opcode := 0xC108, result := 0, recs := 0, arg := 2 })) ∧
    (yciTaken 0xC108 p (withAction 3 b) s = true → ∃ t, exec (.format p b) s = .next t ∧ t.led.lost = false ∧ t.led.entries = [] ∧
      t.led.extents = [] ∧ t.esc.sets = [] ∧ t.cry.media = [] ∧ t.cry.cache = [] ∧ t.led.overdraft = [] ∧ t.led.ckptSeq = 0 ∧
      (mbxOf t p).bg = some { opcode := 0xC108, result := 0, recs := 0, arg := 3 })) ∧
  ∀ (p : MbxPort) (b : List Byte) (s : State), yciTaken 0xC200 p b s = true → le b 0 4 < 2 →
    ∃ t, exec (.startFullAssay p b) s = .next t ∧ acted p 0xC200 1 [] s ((s.modInteg fun i => { i with assay := true }).modMed fun d => { d with
        assays := d.assays ++ (patrolFolios s).map fun f => { m := (ent s f).media, patrol := false, done := [] } }) t ∧
      (mbxOf t p).bg = some { opcode := 0xC200, result := 0, recs := 0, arg := le b 0 1 }

/-- A standing order is written, armed and disarmed as its checks say (R223,  R225,  R229,  R243,  R379). With the
block's domain taking accesses: SO_ARM of an entry that passes R225's checks (FIRE_TIME on a frame, a known ACTION, no
reserved flag or ARG, ranges, not armed or dormant) arms it, or makes it dormant where COUNT is 0, and changes nothing
else; of an entry that does not, it records the cause in ERROR, makes the entry rejected unless it is armed or
dormant, sets SO_STATUS bit 9 and raises ARM_REJECTED. SO_DISARM of an entry whose release is not prepared makes it
disarmed; of one whose RELEASE-COMMIT is complete it sets SO_STATUS bit 11 and leaves only later firings to end
disarmed; of another prepared one it also returns the set to closed and drops its records, where no append is in
progress. WRITE_STANDING_ORDER replaces the bytes of an entry that is not armed or dormant, and else sets SO_STATUS
bit 8. ARM_STANDING_ORDER and DISARM_STANDING_ORDER act as SO_ARM and SO_DISARM; the first answers SO_STATEi. -/
def Obligations.StandingOrderCommands : Prop :=
  (∀ (h : Head) (v : BitVec 32) (s : State), domFree s (domainOf 0x61004) = true →
    ∃ t, exec (.soArm h v) s = .next t ∧
      ∃ e, e = soEnt s (v.toNat % 1024) ∧
      (armError e = 0 →
        soFire e.bytes % 1024 = 0 ∧ soAction e.bytes ≤ 7 ∧ soFlags e.bytes < 4 ∧ e.state ≠ .armed ∧ e.state ≠ .dormant ∧
        soEnt t (v.toNat % 1024) = { e with state := if soCount e.bytes = 0 then .dormant else .armed, error := 0, prepared := false, ends := false } ∧
        (∀ i, i ≠ v.toNat % 1024 → soEnt t i = soEnt s i) ∧ (t.modSo fun o => { o with entries := s.so.entries }) = s) ∧
      (soFire e.bytes % 1024 ≠ 0 → armError e = 1) ∧
      (soFire e.bytes % 1024 = 0 → 7 < soAction e.bytes → armError e = 2) ∧
      (armError e ≠ 0 → Pends 7 1 0x03 t ∧
        soEnt t (v.toNat % 1024) = { e with error := BitVec.ofNat 8 (armError e), state := if soHeld e then e.state else .rejected } ∧
        (∀ i, i ≠ v.toNat % 1024 → soEnt t i = soEnt s i) ∧
        Noted (rbit s 0x61000 9) (t.modSo fun o => { o with entries := s.so.entries }))) ∧
  (∀ (h : Head) (v : BitVec 32) (s : State), domFree s (domainOf 0x61008) = true →
    ∃ t, exec (.soDisarm h v) s = .next t ∧
      (setPreparedBy s (v.toNat % 1024) = none →
        soEnt t (v.toNat % 1024) = { soEnt s (v.toNat % 1024) with state := .disarmed, prepared := false, ends := false } ∧
        (∀ i, i ≠ v.toNat % 1024 → soEnt t i = soEnt s i) ∧ (t.modSo fun o => { o with entries := s.so.entries }) = s) ∧
      ∀ n x, setPreparedBy s (v.toNat % 1024) = some (n, x) →
        (x.state = .committed →
          soEnt t (v.toNat % 1024) = { soEnt s (v.toNat % 1024) with
            ends := soHeld (soEnt s (v.toNat % 1024)) && soCount (soEnt s (v.toNat % 1024)).bytes != 1 } ∧
          (∀ i, i ≠ v.toNat % 1024 → soEnt t i = soEnt s i) ∧ (t.modSo fun o => { o with entries := s.so.entries }) = rbit s 0x61000 11) ∧
        (x.state ≠ .committed →
          soEnt t (v.toNat % 1024) = { soEnt s (v.toNat % 1024) with state := .disarmed, prepared := false, ends := false } ∧
          (escSet t n).state = .closed ∧ (escSet t n).entry = 0 ∧ (escSet t n).members = (escSet s n).members ∧
          (s.led.appending = false → ∀ r ∈ t.led.appends, r.type = 0x06 ∨ r.type = 0x07 ∨ r.type = 0x08 → r.a ≠ n))) ∧
  (∀ (p : MbxPort) (b : List Byte) (s : State), yciTaken 0xC400 p b s = true → le b 0 2 < 1024 → le b 2 2 = 0 →
    ∃ t, exec (.writeStandingOrder p b) s = .next t ∧
      if (soEnt s (le b 0 2)).state = .armed ∨ (soEnt s (le b 0 2)).state = .dormant then
        acted p 0xC400 0 [] s (rbit s 0x61000 8) t
      else
        soEnt t (le b 0 2) = { soEnt s (le b 0 2) with bytes := BitVec.ofNat 256 (le b 4 32) } ∧
        (∀ i, i ≠ le b 0 2 → soEnt t i = soEnt s i) ∧ acted p 0xC400 0 [] s (s.modSo fun o => { o with entries := t.so.entries }) t) ∧
  (∀ (p : MbxPort) (b : List Byte) (s : State), le b 0 2 < 1024 → le b 2 2 = 0 → domFree s (domainOf 0x61004) = true →
    (yciTaken 0xC401 p b s = true → ∃ u, exec (.soArm .a (BitVec.ofNat 32 (le b 0 2))) (yciNoted 0xC401 p b s) = .next u ∧
      exec (.armStandingOrder p b) s = .next (mbxAnswer p 0xC401 0 (toLE 4 (soWord (soEnt u (le b 0 2)))) u)) ∧
    (yciTaken 0xC402 p b s = true → ∃ u, exec (.soDisarm .a (BitVec.ofNat 32 (le b 0 2))) (yciNoted 0xC402 p b s) = .next u ∧
      exec (.disarmStandingOrder p b) s = .next (mbxAnswer p 0xC402 0 [] u)))

/-- An issued firing takes effect in its frame: it is counted, its lateness is recorded, and its action acts (R224,
R227,  R228,  R231,  R232,  R238,  R243,  R307,  R434). NOP, PREFETCH_ORDER, RELEASE, QUEUE_START, QUIET_BEGIN,
QUIET_END, AUDIT and MARKER of an entry with no issued firing of that action whose frame has begun, and after a
power-fail trip, change nothing. Else its firing is counted and its lateness recorded (Safety.State.fired), and: NOP
does no more, and raises FIRED where flag bit 0 asks; MARKER raises MARKER; AUDIT requests a snapshot at the firing's
frame with the order's TAG; QUIET_BEGIN opens the window of each masked channel that is not quiet, from the frame;
QUIET_END closes that of each that is; QUEUE_START opens a created queue's closed gate with its reason; PREFETCH_ORDER
lets every issued RELEASE of its frame or before take effect first (R241), and, with none, raises PREFETCH_REFUSED for
a folio that is not provisioned or that the key may not access, and else only adds lines of its range to the prefetch
queue; RELEASE of a committed set of this entry starts settling it and raises RELEASED. QUIET_FORCED_END of a channel
quiet for QUIET_MAX ends its window there and raises its reason; else it changes nothing. -/
def Obligations.OrderFirings : Prop :=
  (∀ (i a : Nat) (s : State) (c : Instr),
    (a, c) ∈ [(0, Instr.nopOrder i), (1, .prefetchOrder i), (2, .releaseOrder i), (3, .queueStart i), (4, .quietBegin i),
      (5, .quietEnd i), (6, .auditOrder i), (7, .markerOrder i)] →
    s.sup.tripped = true ∨ s.so.halted = true ∨ firingNow s i a = none → exec c s = .next s) ∧
  (∀ (i : Nat) (f : Firing) (s : State), f.entry = i → s.sup.tripped = false → s.so.halted = false →
    (firingNow s i 0 = some f → ∃ t, exec (.nopOrder i) s = .next t ∧ Noted (s.fired f) t ∧
      (soFlags f.bytes % 2 = 1 → Pends 7 1 0x01 t)) ∧
    (firingNow s i 7 = some f → ∃ t, exec (.markerOrder i) s = .next t ∧ Noted (s.fired f) t ∧ Pends 7 1 0x07 t) ∧
    (firingNow s i 6 = some f → ∃ t, exec (.auditOrder i) s = .next t ∧
      Noted ((s.fired f).modEv fun e => { e with snapReqs := e.snapReqs ++ [⟨f.frame, BitVec.ofNat 16 (soTag f.bytes), 0⟩] }) t) ∧
    (firingNow s i 4 = some f → boardOk s = true → ∃ t, exec (.quietBegin i) s = .next t ∧
      Noted ((s.fired f).modSo fun o => { o with quiet := t.so.quiet, quietEndAt := t.so.quietEndAt })
        (t.modMed fun m => { m with chans := s.med.chans }) ∧ (∀ c, chan t c = { chan s c with quiet := (chan t c).quiet }) ∧
      ∀ c, if c ∈ popChans s ∧ (soArg f.bytes 0 4).testBit c = true ∧ tget 0 s.so.quiet c = 0 then
          tget 0 t.so.quiet c = f.frame + 1 ∧ tget 0 t.so.quietEndAt c = 0
        else tget 0 t.so.quiet c = tget 0 s.so.quiet c ∧ tget 0 t.so.quietEndAt c = tget 0 s.so.quietEndAt c) ∧
    (firingNow s i 5 = some f → boardOk s = true → ∃ t, exec (.quietEnd i) s = .next t ∧
      Noted ((s.fired f).modSo fun o => { o with quiet := t.so.quiet, quietEndAt := t.so.quietEndAt })
        (t.modMed fun m => { m with chans := s.med.chans }) ∧ (∀ c, chan t c = { chan s c with quiet := (chan t c).quiet }) ∧
      ∀ c, if c ∈ popChans s ∧ (soArg f.bytes 0 4).testBit c = true ∧ tget 0 s.so.quiet c ≠ 0 then
          tget 0 t.so.quiet c = 0 ∧ tget 0 t.so.quietEndAt c = f.frame + 1
        else tget 0 t.so.quiet c = tget 0 s.so.quiet c ∧ tget 0 t.so.quietEndAt c = tget 0 s.so.quietEndAt c) ∧
    (firingNow s i 3 = some f → ∃ t, exec (.queueStart i) s = .next t ∧
      ((queueAt s (soArg f.bytes 0 2)).all (!·.gateClosed) = true → Noted (s.fired f) t) ∧
      ∀ x, queueAt s (soArg f.bytes 0 2) = some x → x.gateClosed = true →
        queueAt t (soArg f.bytes 0 2) = some { x with gateClosed := false } ∧ Pends 8 17 0x04 t ∧
        Noted (s.fired f) (t.modMov fun _ => s.mov)) ∧
    (firingNow s i 1 = some f → ∃ t, exec (.prefetchOrder i) s = .next t ∧
      ∀ g ∈ s.so.firings, soAction g.bytes = 2 → g.frame ≤ f.frame → g ∉ t.so.firings) ∧
    (firingNow s i 1 = some f → (∀ g ∈ s.so.firings, soAction g.bytes = 2 → f.frame < g.frame) → ∃ t, exec (.prefetchOrder i) s = .next t ∧
      if provisioned (ent s (soArg f.bytes 0 3)) = false then Noted (s.fired f) t ∧ Pends 7 1 0x05 t
      else if (accessCheck s (soArg f.bytes 7 1) none (ent s (soArg f.bytes 0 3))).isSome = true then
        Pends 7 1 0x05 t ∧ t.pur = s.pur ∧ t.med = s.med ∧ t.led = s.led ∧ t.fe.txns = s.fe.txns ∧ t.so = (s.fired f).so
      else t.pur.prefetchQ.take s.pur.prefetchQ.length = s.pur.prefetchQ ∧
        (∀ x ∈ t.pur.prefetchQ.drop s.pur.prefetchQ.length, x.1 = sliceOf s x.2 ∧
          soArg f.bytes 0 3 * 8192 + soArg f.bytes 3 2 ≤ x.2 ∧ x.2 < soArg f.bytes 0 3 * 8192 + soArg f.bytes 3 2 + soArg f.bytes 5 2) ∧
        t.med = s.med ∧ t.led = s.led ∧ t.fe.txns = s.fe.txns ∧ t.pur.slots = s.pur.slots ∧ t.so = (s.fired f).so) ∧
    (firingNow s i 2 = some f →
      ((escSet s (soArg f.bytes 0 1)).state = .committed ∧ (escSet s (soArg f.bytes 0 1)).entry = i + 1 →
        ∃ t, exec (.releaseOrder i) s = .next t ∧ (escSet t (soArg f.bytes 0 1)).state = .settling ∧ Pends 7 2 0x02 t ∧
          soArg f.bytes 0 1 ∈ t.esc.index ∧ t.so.firings = s.so.firings.erase f ∧
          ∀ m ∈ (escSet s (soArg f.bytes 0 1)).members, (escSet s (soArg f.bytes 0 1)).members.Nodup →
            (ent t m).media = (stagedFolio s (soArg f.bytes 0 1) m).getD noFolio ∧ (ent t m).gen = (ent s m).gen + 1) ∧
      ((escSet s (soArg f.bytes 0 1)).state ≠ .committed ∨ (escSet s (soArg f.bytes 0 1)).entry ≠ i + 1 →
        ∃ t, exec (.releaseOrder i) s = .next t ∧ Noted (s.fired f) t))) ∧
  ∀ (c b : Nat) (s : State), b = tget 0 s.so.quiet c →
    (b = 0 ∨ s.tbs.mint.toNat < b - 1 + quietMax s → exec (.quietForcedEnd c) s = .next s) ∧
    (b ≠ 0 → b - 1 + quietMax s ≤ s.tbs.mint.toNat → ∃ t, exec (.quietForcedEnd c) s = .next t ∧ Pends 7 1 0x06 t ∧
      tget 0 t.so.quiet c = 0 ∧ tget 0 t.so.quietEndAt c = b + quietMax s ∧
      (∀ d, d ≠ c → tget 0 t.so.quiet d = tget 0 s.so.quiet d) ∧
      (∀ d, d ≠ c → chan t d = chan s d) ∧ chan t c = { chan s c with quiet := (chan t c).quiet } ∧
      Noted s ((t.modSo fun o => { o with quiet := s.so.quiet, quietEndAt := s.so.quietEndAt }).modMed fun m =>
        { m with chans := s.med.chans }))

/-- An escrow set is created, closed, prepared, abandoned, and freed step by step (R233,  R234,  R237,  R238,  R239,
R240,  R379,  R531). CREATE_ESCROW_SET of a free set with valid members, key and options that fit the reserve opens
the set with their reservation and prior states, answers BACKGROUND_STARTED, and queues one ATTR to escrow per member;
of a set that is not free it is BUSY, without reserve CAPACITY. CLOSE_ESCROW_SET of an open set puts it in closing, of
a free one is INVALID_INPUT, of another is BUSY. ABANDON_ESCROW_SET of an open, closing or closed set begins the
abandon and gives up its reservation; BUSY in other states. SET_CLOSED goes on with the close step by step: with the
staging writes and copies done it queues one ATTR per member that leaves (under INHERIT, those never staged), and
then, no record of a member waiting, makes the set closed with no reservation and raises SET_CLOSED. SET_ABANDONED and
RELEASE_DONE, once no old folio and (abandoned) no member is left, free the set with their reason.
RELEASE_PREPARATION_START at its lead marks the entry prepared, puts the closed set in preparing and queues BEGIN, one
ITEM per member and COMMIT; a set that is not closed, or that is abandoned, refuses the firing with its reason, counts
it and advances the entry (log entries 100, 101). Each changes nothing before its condition. -/
def Obligations.EscrowSets : Prop :=
  (∀ (p : MbxPort) (b : List Byte) (n key cnt : Nat) (fs : List Nat) (s : State), yciTaken 0xC404 p b s = true →
    n = le b 0 1 → key = le b 1 1 → cnt = le b 3 1 → n < 64 → le b 2 1 < 32 → cnt ≤ 16 → le b 4 4 = 0 → b.length = 8 + 8 * cnt →
    ((escSet s n).state ≠ .free → exec (.createEscrowSet p b) s = .next (answerOnly 0xC404 p b 0x6 [] s)) ∧
    ((escSet s n).state = .free → (∀ k, k < cnt → extentOk s b (8 + 8 * k) = true) →
      fs = ((List.range cnt).flatMap fun k => List.range' (le b (8 + 8 * k) 3) (le b (8 + 8 * k + 4) 3)) → fs.Nodup →
      (∀ f ∈ fs, memberOk s key f = true) → key < 128 → (domKey s key).isSome = true → domSealed s key = false →
      headAllowed s key (headOf p) = true → fs.length ≤ 16384 → allMembers s + fs.length ≤ 65536 →
      (reserveLeft s < floorF s + escReserved s + fs.length + (fs.length + 63) / 64 →
        exec (.createEscrowSet p b) s = .next (answerOnly 0xC404 p b 0x11 [] s)) ∧
      (floorF s + escReserved s + fs.length + (fs.length + 63) / 64 ≤ reserveLeft s →
        (fs.filter fun f => !provisioned (ent s f)).length ≤ provisionable s →
        ∃ t, exec (.createEscrowSet p b) s = .next t ∧ (escSet t n).state = .open_ ∧ (escSet t n).key = key ∧
          (escSet t n).inherit = (le b 2 1).testBit 0 ∧ (escSet t n).reserved = fs.length + (fs.length + 63) / 64 ∧
          (escSet t n).members = [] ∧ (∀ m, m ≠ n → escSet t m = escSet s m) ∧
          (∀ f ∈ fs, tget 0 (escSet t n).prior f = stateCode (if provisioned (ent s f) then (ent s f).state else .blankMapped) + 1) ∧
          (mbxOf t p).bg = some { opcode := 0xC404, result := 0, recs := fs.length, arg := n } ∧
          (t.led.appends.drop s.led.appends.length).map (fun r => (r.type, r.a, r.b, r.c / 32, r.d, r.own)) =
            fs.map (fun f => (0x04, f, key, stateCode .escrow, (ent s f).gen.toNat, mbxNo p)) ∧
          acted p 0xC404 1 [] s ((s.modEsc fun e => { e with sets := t.esc.sets }).modLed fun l => { l with extents := t.led.extents }) t))) ∧
  (∀ (p : MbxPort) (b : List Byte) (n : Nat) (s : State), n = le b 0 1 → n < 64 → le b 1 3 = 0 →
    (yciTaken 0xC405 p b s = true →
      ((escSet s n).state = .free → exec (.closeEscrowSet p b) s = .next (answerOnly 0xC405 p b 0x2 [] s)) ∧
      ((escSet s n).state ≠ .free → (escSet s n).state ≠ .open_ ∨ (escSet s n).abandon = true →
        exec (.closeEscrowSet p b) s = .next (answerOnly 0xC405 p b 0x6 [] s)) ∧
      ((escSet s n).state = .open_ → (escSet s n).abandon = false → (escSet s n).pendingWrites ≠ 0 ∨ (escSet s n).inherit = false →
        ∃ t, exec (.closeEscrowSet p b) s = .next t ∧ (escSet t n).state = .closing ∧ (∀ m, m ≠ n → escSet t m = escSet s m) ∧
          (mbxOf t p).bg = some { opcode := 0xC405, result := 0, recs := 0, arg := n } ∧
          acted p 0xC405 1 [] s (s.modEsc fun e => { e with sets := t.esc.sets }) t)) ∧
    (yciTaken 0xC406 p b s = true →
      ((escSet s n).state = .free → exec (.abandonEscrowSet p b) s = .next (answerOnly 0xC406 p b 0x2 [] s)) ∧
      ((escSet s n).state = .preparing ∨ (escSet s n).state = .committed ∨ (escSet s n).state = .settling →
        exec (.abandonEscrowSet p b) s = .next (answerOnly 0xC406 p b 0x6 [] s)) ∧
      ((escSet s n).state = .open_ ∨ (escSet s n).state = .closing ∨ (escSet s n).state = .closed → (escSet s n).abandon = false →
        ∃ t, exec (.abandonEscrowSet p b) s = .next t ∧ (escSet t n).abandon = true ∧ (escSet t n).reserved = 0 ∧
          (escSet t n).members = (escSet s n).members ∧ (escSet t n).ctrFolios = [] ∧
          (mbxOf t p).bg = some { opcode := 0xC406, result := 0, recs := 0, arg := n }))) ∧
  (∀ (n : Nat) (s : State),
    ((escSet s n).state ≠ .closing ∨ (escSet s n).abandon = true ∨ 0 < (escSet s n).pendingWrites → exec (.setClosed n) s = .next s) ∧
    ((escSet s n).state = .closing → (escSet s n).abandon = false → (escSet s n).pendingWrites = 0 → (escSet s n).items = 1 →
      (escSet s n).inherit = true →
      ∀ fs, fs = ((escSet s n).members.filter fun f => (stagedFolio s n f).isNone) → fs ≠ [] → ∃ t, exec (.setClosed n) s = .next t ∧
        t.led.appends = s.led.appends ++ fs.map (fun f =>
          jAttr f (ent s f).key (attrBits (ent s f)) (stateOf (tget 1 (escSet s n).prior f - 1)) (ent s f).gen.toNat) ∧
        Queued (modSet n (fun x => { x with items := 2 }) s) t) ∧
    ((escSet s n).state = .closing → (escSet s n).abandon = false → (escSet s n).pendingWrites = 0 → 2 ≤ (escSet s n).items →
      (attrsPending s n = true → exec (.setClosed n) s = .next s) ∧
      (attrsPending s n = false → ∃ t, exec (.setClosed n) s = .next t ∧ Pends 7 2 0x01 t ∧
        Queued (modSet n (fun x => { x with state := .closed, reserved := 0, items := 0 }) s) t)) ∧
    ((escSet s n).abandon = false ∨ (escSet s n).oldFolios ≠ [] ∨ (escSet s n).members ≠ [] → exec (.setAbandoned n) s = .next s) ∧
    ((escSet s n).abandon = true → (escSet s n).oldFolios = [] → (escSet s n).members = [] →
      ∃ t, exec (.setAbandoned n) s = .next t ∧ Pends 7 2 0x05 t ∧ Queued (modSet n (fun _ => default) s) t) ∧
    ((escSet s n).state ≠ .settling ∨ (escSet s n).oldFolios ≠ [] → exec (.releaseDone n) s = .next s) ∧
    ((escSet s n).state = .settling → (escSet s n).oldFolios = [] →
      ∃ t, exec (.releaseDone n) s = .next t ∧ Pends 7 2 0x03 t ∧ (escSet t n).state = .free ∧ n ∉ t.esc.index ∧
        Queued (modSet n (fun _ => default) (s.modEsc fun e => { e with index := e.index.filter fun i => i != n })) t)) ∧
  ∀ (i n : Nat) (e : SoEntry) (s : State), e = soEnt s i → n = soArg e.bytes 0 1 →
    (e.state ≠ .armed ∨ soAction e.bytes ≠ 2 ∨ e.prepared = true ∨ soRunning s = false ∨ s.led.memActive = false ∨ s.ctl.cpuUp = false ∨
      s.tbs.mint.toNat + prepLead (escSet s n).members.length < soFire e.bytes → exec (.releasePreparationStart i) s = .next s) ∧
    (e.state = .armed → soAction e.bytes = 2 → e.prepared = false → soRunning s = true → s.led.memActive = true → s.ctl.cpuUp = true →
      soFire e.bytes ≤ s.tbs.mint.toNat + prepLead (escSet s n).members.length →
      ((escSet s n).state = .closed → (escSet s n).abandon = false →
        ∃ t, exec (.releasePreparationStart i) s = .next t ∧ soEnt t i = { e with prepared := true } ∧
          (escSet t n).state = .preparing ∧ (escSet t n).entry = i + 1 ∧ (escSet t n).members = (escSet s n).members ∧
          (t.led.appends.drop s.led.appends.length).map (fun r => (r.type, r.a)) =
            [(0x06, n)] ++ (escSet s n).members.map (fun _ => (0x07, n)) ++ [(0x08, n)] ∧
          ((t.led.appends.drop s.led.appends.length).filter (·.type == 0x07)).map (fun r => (r.e, r.b, r.c, r.d)) =
            (escSet s n).members.map (fun f =>
              (f, (ent s f).media, (stagedFolio s n f).getD noFolio, ((ent s f).gen + 1).toNat)) ∧
          t.led.entries = s.led.entries ∧ t.med = s.med) ∧
      ((escSet s n).state ≠ .closed ∨ (escSet s n).abandon = true → ∃ t, exec (.releasePreparationStart i) s = .next t ∧ Pends 7 2 0x04 t ∧
        t.so.fired = satAdd 0xFFFFFFFF s.so.fired 1 ∧ ctr t 640 = ctr s 640 + 1 ∧ t.esc = s.esc ∧ t.led = s.led ∧
        ∃ frame, frame = max (soFire e.bytes) ((s.tbs.mint.toNat / 1024 + 1) * 1024) ∧ soEnt t i = soAdvance e frame))

/-- A pending set applies at its boundary, and PTM dialogues measure, discipline and lock the mint time (R140,  R217,
R219,  R220,  R221,  R222,  R242). MINT_TIME_SET without a pending set, or before its boundary, changes nothing. At it
the first set makes the mint time V's frame plus what has passed since the boundary, slews the rest, sets the timebase
and raises MINT_SET; a later set is refused where V's frame lies before the boundary or more than 2^32 ns after it,
and else moves the mint time the same way, raising STEPPED where frames were skipped. PTM_DIALOGUE begins a dialogue
once per period under source 1, counting an unanswered one; the third in a row ends the slew and raises PTM_LOST; else
it changes nothing. PTM_RESPONSE to an open dialogue ends it and records E, saturated, in the error register; while
the time is unset or a resync is asked it asks for a set at the next boundary; else within 1 ms it slews by E, and
beyond that it ends the slew. Beyond 1 ms the lock ends and PTM_UNLOCKED is raised (where the lock held, while a set
is asked for); above 128 ns a lock ends with the reason; the eighth in a row within 64 ns locks and raises PTM_LOCKED.
Otherwise it changes nothing. -/
def Obligations.MintTimeKeeping : Prop :=
  (∀ s : State, s.tbs.pendSet = none ∨ (∃ w, s.tbs.pendSet = some w ∧ s.tbs.mint.toNat < w.1) → exec .mintTimeSet s = .next s) ∧
  (∀ (bd : Nat) (w : BitVec 64) (s : State), s.tbs.pendSet = some (bd, w) → bd ≤ s.tbs.mint.toNat →
    s.tbs.mint.toNat - bd + w.toNat < 2 ^ 64 →
    (s.tbs.set = false → ∃ t, exec .mintTimeSet s = .next t ∧ Pends 7 0 0x01 t ∧ t.tbs.set = true ∧ t.tbs.pendSet = none ∧
      t.tbs.mint.toNat = w.toNat / 1024 * 1024 + (s.tbs.mint.toNat - bd) ∧ t.tbs.slew = Int.ofNat (w.toNat % 1024) ∧
      t.med.timeUpdated = w.toNat / 2 ^ 32 ∧ t.led.entries = s.led.entries ∧ t.pur = s.pur) ∧
    (s.tbs.set = true → w.toNat / 1024 * 1024 < bd ∨ 2 ^ 32 + bd < w.toNat / 1024 * 1024 →
      ∃ t, exec .mintTimeSet s = .next t ∧ Pends 7 0 0x03 t ∧
        Noted (rbit (s.modTbs fun x => { x with pendSet := none }) 0x60000 8) t) ∧
    (s.tbs.set = true → bd ≤ w.toNat / 1024 * 1024 → w.toNat / 1024 * 1024 ≤ 2 ^ 32 + bd →
      ∃ t, exec .mintTimeSet s = .next t ∧ t.tbs.mint.toNat = w.toNat / 1024 * 1024 + (s.tbs.mint.toNat - bd) ∧
        t.tbs.pendSet = none ∧ t.tbs.slew = Int.ofNat (w.toNat % 1024) ∧ (t.tbs.slewing = true ↔ w.toNat % 1024 ≠ 0) ∧
        (bd < w.toNat / 1024 * 1024 → Pends 7 0 0x02 t ∧ (rget t 0x60000).getLsbD 9 = true) ∧
        (bd = w.toNat / 1024 * 1024 → (t.modTbs fun _ => s.tbs) = s))) ∧
  (∀ s : State,
    (s.tbs.source ≠ 1 ∨ s.clock < s.tbs.dialogueAt + max 1 (s.tbs.ptmCfg.toNat % 65536) * 1000000 → exec .ptmDialogue s = .next s) ∧
    (s.tbs.source = 1 → s.tbs.dialogueAt + max 1 (s.tbs.ptmCfg.toNat % 65536) * 1000000 ≤ s.clock →
      ∃ t, exec .ptmDialogue s = .next t ∧ t.tbs.dialogueAt = s.clock ∧ t.tbs.dialogueOpen = true ∧
        t.tbs.unanswered = (if s.tbs.dialogueOpen then s.tbs.unanswered + 1 else 0) ∧ ctr t 642 = ctr s 642 + 1 ∧
        t.tbs.mint = s.tbs.mint ∧ t.tbs.locked = s.tbs.locked ∧
        (s.tbs.dialogueOpen = true → s.tbs.unanswered = 2 → s.tbs.lostRaised = false →
          Pends 7 0 0x06 t ∧ (rget t 0x60000).getLsbD 10 = true ∧ t.tbs.slewing = false) ∧
        (s.tbs.dialogueOpen = false ∨ s.tbs.unanswered ≠ 2 →
          Noted ((s.modTbs fun _ => t.tbs).counted 642 1) t ∧ t.tbs.slew = s.tbs.slew))) ∧
  (∀ (m : BitVec 64) (s : State),
    s.tbs.source ≠ 1 ∨ s.tbs.dialogueOpen = false ∨ (portOf s (ptmHead s)).width = 0 ∨ (portOf s (ptmHead s)).ptmEn = false →
    exec (.ptmResponse m) s = .next s) ∧
  ∀ (m : BitVec 64) (e : Int) (s : State), s.tbs.source = 1 → s.tbs.dialogueOpen = true → (portOf s (ptmHead s)).width ≠ 0 →
    (portOf s (ptmHead s)).ptmEn = true → e = (m + s.tbs.offset - s.tbs.mint).toInt →
    ∃ t, exec (.ptmResponse m) s = .next t ∧ t.tbs.dialogueOpen = false ∧ t.tbs.unanswered = 0 ∧ t.tbs.mint = s.tbs.mint ∧
      t.tbs.ptmErr = BitVec.ofInt 32 (max (-2147483648) (min 2147483647 e)) ∧ Noted s (t.modTbs fun _ => s.tbs) ∧
      (s.tbs.set = false ∨ s.tbs.resync = true →
        ∃ bd, bd = (s.tbs.mint.toNat + 1 + 1023) / 1024 * 1024 ∧ t.tbs.resync = false ∧
          t.tbs.pendSet = some (bd, BitVec.ofInt 64 (Int.ofNat bd + e)) ∧ t.tbs.slew = s.tbs.slew ∧
          (1000000 < e.natAbs → t.tbs.locked = false ∧ (s.tbs.locked = true → Pends 7 0 0x05 t))) ∧
      (s.tbs.set = true → s.tbs.resync = false → t.tbs.pendSet = s.tbs.pendSet ∧
        (e.natAbs ≤ 1000000 → t.tbs.slew = e ∧ (t.tbs.slewing = true ↔ e ≠ 0)) ∧
        (1000000 < e.natAbs → t.tbs.slew = 0 ∧ t.tbs.slewing = false ∧ t.tbs.locked = false ∧ Pends 7 0 0x05 t)) ∧
      ((e.natAbs ≤ 64 → t.tbs.lockRun = s.tbs.lockRun + 1 ∧
          (8 ≤ s.tbs.lockRun + 1 → t.tbs.locked = true ∧ (s.tbs.locked = false → Pends 7 0 0x04 t)) ∧
          (s.tbs.lockRun + 1 < 8 → t.tbs.locked = s.tbs.locked)) ∧
        (64 < e.natAbs → t.tbs.lockRun = 0) ∧
        (128 < e.natAbs → e.natAbs ≤ 1000000 → t.tbs.locked = false ∧ (s.tbs.locked = true → Pends 7 0 0x05 t)))

/-- A completed journal append takes its slot and its effect, and checkpoints begin, are written and free the ring
(R159,  R168,  R169,  R170,  R172,  R173,  R174,  R175,  R280). JOURNAL_APPEND_COMPLETE of the append in progress puts
the record in the ring, stating the entry's generation and state as they are now (Machine.recNow), under the next
sequence number and counts it; an ALLOC that is of no directory and no migration's, and an ATTR that neither changes
STATE nor turns write-through on, then sets the tables and nothing else, a CKPT-BEGIN leaves the body to be written,
the first two CKPT-END records act on nothing, and the third makes the checkpoint the newest and ends it (each where
no line waits for the overdraft); with no append in progress it changes nothing. CHECKPOINT_TIMER 600 s after the last
beginning, and CHECKPOINT_RING_THRESHOLD at 49,152 used slots, begin a checkpoint where none runs and else leave the
trigger to the next: CKPT-BEGIN is queued under the next sequence; where no directory folio is worn (R175) nothing
else is, and it goes ahead of an operation that waits for ring space (Machine.ringOrder). Before that they change
nothing. CHECKPOINT_DONE writes the dirty tree nodes to media (Machine.treeFlush) and copy A with the tables as they
stand, the second time copy B of the same body, counts, and queues the three CKPT-END records with the body's digest;
it waits while a replaced folio's directory is not in the passbook, and with a failed channel the checkpoint ends with
CKPT_FAIL (log entry 94). -/
def Obligations.JournalAndCheckpoints : Prop :=
  (∀ s : State, s.led.appends = [] ∨ s.led.appending = false → exec .journalAppendComplete s = .next s) ∧
  (∀ (r : JRec) (rest : List JRec) (s : State), s.led.appends = r :: rest → s.led.appending = true → s.led.overdraftWait = [] → ∀ u : State,
    u = (bgRec r.own (s.modLed fun l => { l with
      appends := rest, appending := false, ring := l.ring ++ [{ recNow s r with seq := l.seqNext }], seqNext := l.seqNext + 1 })).counted 456 1 →
    (r.type = 0x01 → inDirs s r.a = false → r.b ≠ 3 → r.b ≠ 6 → r.b ≠ 7 → ∃ t, exec .journalAppendComplete s = .next t ∧
      (wearOf t r.a).wear = min 0x7FFFF (max (wearFrom s.led.wearBase s.led.wearLow r.a) r.d) ∧ (∀ m, m ≠ r.a → wearOf t m = wearOf s m) ∧
      Queued (u.modLed fun l => { l with wear := t.led.wear, rev := tput default l.rev r.a { kind := r.b, owner := r.c } }) t) ∧
    (r.type = 0x04 → stateOf ((recNow s r).c / 32) = (ent s r.a).state → (ent s r.a).state ≠ .unprovisioned → bit r.c 1 = false →
      ∃ t, exec .journalAppendComplete s = .next t ∧
        Queued (u.modLed fun l => { l with entries := tmod entry0 l.entries r.a fun e =>
          { withAttrBits e (r.c % 32) with key := r.b } }) t) ∧
    (r.type = 0x09 → ∃ t, exec .journalAppendComplete s = .next t ∧ Queued (u.modLed fun l => { l with ckptPhase := .body }) t) ∧
    (r.type = 0x0A → r.part ≠ 2 → ∃ t, exec .journalAppendComplete s = .next t ∧ Queued u t) ∧
    (r.type = 0x0A → r.part = 2 → s.led.ckptQueued = false → ∃ t, exec .journalAppendComplete s = .next t ∧
      t.led.ckptSeq.toNat = r.a % 2 ^ 32 ∧ t.led.ckptActive = false ∧ t.integ.uncorrBy = [] ∧
      (t.led.ring <:+ s.led.ring ++ [{ r with seq := s.led.seqNext }]))) ∧
  (∀ s : State,
    (s.led.recovered = false ∨ s.clock < 600000000000 + s.led.ckptBegan → exec .checkpointTimer s = .next s) ∧
    (s.led.ring.length < 49152 → exec .checkpointRingThreshold s = .next s) ∧
    (s.sup.tripped = false → s.led.lost = false → s.led.recovered = true → s.led.ckptActive = true →
      (600000000000 + s.led.ckptBegan ≤ s.clock → exec .checkpointTimer s = .next (s.modLed fun l => { l with ckptQueued := true })) ∧
      (49152 ≤ s.led.ring.length → exec .checkpointRingThreshold s = .next (s.modLed fun l => { l with ckptQueued := true }))) ∧
    (s.sup.tripped = false → s.led.lost = false → s.led.recovered = true → s.led.ckptActive = false →
      ∀ (c : Instr), (c = .checkpointTimer ∧ 600000000000 + s.led.ckptBegan ≤ s.clock) ∨ (c = .checkpointRingThreshold ∧ 49152 ≤ s.led.ring.length) →
        ∃ t, exec c s = .next t ∧ t.led.ckptActive = true ∧ t.led.ckptPhase = .begin_ ∧ t.led.ckptBegan = s.clock ∧
          t.led.ckptNext = s.led.ckptNext + 1 ∧ jrec 0x09 s.led.ckptNext.toNat 0 0 0 0 ∈ t.led.appends ∧
          ((∀ i, i < runLen s.led.ckptDir → dirWorn s (runAt s.led.ckptDir i) = false) →
            (∀ i, i < 32 → dirWorn s (runAt s.led.spillDir i) = false) →
            t.led.appends = ringOrder (s.modLed fun l => { l with appends := l.appends ++ [jrec 0x09 s.led.ckptNext.toNat 0 0 0 0] }) ∧
            Queued (s.modLed fun l => { l with ckptActive := true, ckptPhase := .begin_, ckptBegan := s.clock, ckptNext := l.ckptNext + 1 }) t))) ∧
  ∀ s : State,
    (s.led.ckptActive = false ∨ s.led.ckptPhase ≠ .body ∨ s.sup.tripped = true ∨ dirPending s = true → exec .checkpointDone s = .next s) ∧
    (s.led.ckptActive = true → s.led.ckptPhase = .body → s.sup.tripped = false → dirPending s = false →
      ((∃ c ∈ popChans s, (chan s c).state = .failed) → ∃ t, exec .checkpointDone s = .next t ∧ Pends 5 0 0x05 t ∧
        Noted (s.modLed fun l => { l with ckptActive := false, ckptQueued := false }) t) ∧
      ((∀ c ∈ popChans s, (chan s c).state ≠ .failed) →
        (s.led.copyA.seq ≠ s.led.ckptNext - 1 → ∃ t u, exec .checkpointDone s = .next t ∧ u = treeFlush s ∧
          t.led.copyA.seq = s.led.ckptNext - 1 ∧ t.led.copyA.body = bodyNow u ∧ t.led.copyB = s.led.copyB ∧ t.led.ckptPhase = .body ∧
          t.led.appends = u.led.appends ∧ t.led.entries = s.led.entries) ∧
        (s.led.copyA.seq = s.led.ckptNext - 1 → ∃ t, exec .checkpointDone s = .next t ∧ t.led.ckptPhase = .end_ ∧
          t.led.copyB = s.led.copyA ∧ t.led.copyA = s.led.copyA ∧ t.led.entries = s.led.entries ∧ t.med = s.med ∧
          ctr t 457 = ctr s 457 + 1 ∧
          ∀ i ∈ [0, 1, 2], { jrec 0x0A (s.led.ckptNext - 1).toNat 0 0 0 0 with part := i, digest := bodyDigest s s.led.copyA.body } ∈
            t.led.appends)))

/-- Recovery loads a checkpoint or leaves ledger-lost mode, and the rebuild scan claims folios and commits them (R149,
R151,  R176,  R177,  R178,  R179,  R350,  R351,  R529). RECOVERY, once per start, with the device on, recall over and
every populated channel active, brings the DRAM up; where neither copy reads, ledger-lost mode with an empty ledger;
where both copies of one sequence read and the ring holds their CKPT-BEGIN, the ledger is served, the next checkpoint
follows that sequence, and where the ring holds only checkpoint records after it and no set, page or torn line waits,
the entries are the copy's; else it changes nothing. MEMORY_ACTIVE sets memory active once the start-up steps are
done, and in ledger-lost mode does nothing else. SCAN_DONE ends the scan: every entry of its result is that of a claim
on that folio, made by the parity lines of row 0 of a media folio outside the directories whose lines decode
(Machine.scanClaims), that stands; a lone claim that stands is in the result. SCAN_COMMIT_DONE puts the result in
force, frees every set, writes a checkpoint of it and ends ledger-lost mode; each changes nothing before its step, and
the commit nothing after a trip. -/
def Obligations.RecoveryAndScan : Prop :=
  (∀ (a b : CopyRead) (rc : List RecoinCheck) (torn : List TornCheck) (s : State),
    (s.led.recovered = true ∨ s.sup.state ≠ .on ∨ s.sup.inReset = true ∨ s.pb.recalling = true ∨ channelsUp s = false →
      exec (.recovery a b rc torn) s = .next s) ∧
    (s.led.recovered = false → s.sup.state = .on → s.sup.inReset = false → s.pb.recalling = false → channelsUp s = true →
      (a.readable = false → b.readable = false → ∃ t, exec (.recovery a b rc torn) s = .next t ∧ t.led.lost = true ∧
        t.led.recovered = true ∧ t.led.entries = [] ∧ Pends 5 0 0x01 t ∧ t.pur.ready = true ∧ t.fe.memInfoValid = true ∧
        t.med = s.med ∧ t.cry = s.cry) ∧
      (a.readable = true → b.readable = true → s.led.copyA.seq = s.led.copyB.seq → beginInRing s s.led.copyA = true →
        ∃ t, exec (.recovery a b rc torn) s = .next t ∧ t.led.recovered = true ∧ t.led.lost = false ∧
          t.led.ckptSeq = s.led.copyA.seq ∧ t.led.ckptNext = s.led.copyA.seq + 1 ∧ t.led.ckptUsed = 0 ∧
          t.pur.ready = true ∧ t.fe.memInfoValid = true ∧
          ((∀ r ∈ s.led.ring, r.type = 0x09 ∨ r.type = 0x0A) → s.esc.sets = [] → s.cry.pagesRc = [] → torn = [] →
            t.led.entries = s.led.copyA.body.ledger ∧ t.med = s.med)))) ∧
  (∀ s : State,
    (s.led.recovered = false ∨ s.led.memActive = true ∨ s.ctl.life = .rma ∨ s.pur.sboxClearing = true ∨ s.pur.ready = false ∨
      s.pb.recalling = true ∨ s.sup.inReset = true → exec .memoryActive s = .next s) ∧
    (s.led.recovered = true → s.led.memActive = false → s.ctl.life ≠ .rma → s.pur.sboxClearing = false → s.pur.ready = true →
      s.pb.recalling = false → s.sup.inReset = false → ∃ t, exec .memoryActive s = .next t ∧ t.led.memActive = true ∧
        (s.led.lost = true → t = s.modLed fun l => { l with memActive := true }) ∧
        Noted ((s.modLed fun l => { l with memActive := true, migs := t.led.migs })) t)) ∧
  (∀ (bad : List Nat) (s : State) (cs : List ScanClaim), cs = scanClaims s bad →
    (s.led.scanActive = false ∨ s.led.scanDone = true → exec (.scanDone bad) s = .next s) ∧
    (s.led.scanActive = true → s.led.scanDone = false → ∃ t, exec (.scanDone bad) s = .next t ∧ Pends 5 0 0x03 t ∧
      Noted (s.modLed fun l => { l with scanDone := true, scanActive := false, scanLosers := t.led.scanLosers,
                                        scanResult := t.led.scanResult, scanReport := t.led.scanReport }) t ∧
      (∀ c ∈ cs, c.m ∉ bad ∧ inDirs s c.m = false ∧ ∃ ch ∈ popChans s, (mline s (parityKey c.m ch 0)).flags.getLsbD 5 = true ∧
        c.owner = (mline s (parityKey c.m ch 0)).gen.toNat % 2 ^ 24) ∧
      (∀ f, (tget entry0 t.led.scanResult f).state ≠ .unprovisioned → ∃ c ∈ cs, c.owner = f ∧
        scanStands s c = true ∧ tget entry0 t.led.scanResult f = scanEntry s c) ∧
      ∀ c, cs = [c] → scanStands s c = true → tget entry0 t.led.scanResult c.owner = scanEntry s c)) ∧
  ∀ s : State,
    (s.led.lost = false ∨ s.led.scanActive = false ∨ s.led.scanDone = false ∨ s.sup.tripped = true → exec .scanCommitDone s = .next s) ∧
    (s.led.lost = true → s.led.scanActive = true → s.led.scanDone = true → s.sup.tripped = false → ∃ t, exec .scanCommitDone s = .next t ∧
      t.led.lost = false ∧ t.led.scanActive = false ∧ t.led.entries = s.led.scanResult ∧ t.led.copyA = t.led.copyB ∧
      t.led.copyA.body.ledger = s.led.scanResult ∧ t.led.ckptSeq = t.led.copyA.seq ∧ t.led.copyA.seq = s.led.ckptNext ∧
      ∀ n, (escSet t n).state = .free)

/-- A migration takes a folio, copies in passes, ends in its REMAP, and frees the source once it is quiet (R158,
R165,  R168,  R180,  R181,  R182). MIGRATION_START, with fewer than 16 running and the firmware up, starts the next
migration (priority, then order of queueing): its destination is the folio that the reserve gives, taken by an ALLOC
of KIND 3, and it is counted; where the reserve gives none it is dropped and MIGRATION_DROPPED raised; a folio with no
media folio needs none. MIGRATION_PASS_DONE of a pass whose lines are all written counts the pass: with 64 lines or
fewer left, or after the eighth, the folio is held and each of them whose drain is not in flight is read; else another
pass reads them. Of the pass under the hold, with no line left and no drain in flight, it queues the REMAP to the
destination under the next generation. MIGRATION_SOURCE_QUIESCED ends the migration once no operation is on the
source, and blanks or retires it. FOLIO_BLANK_DONE of a quiet folio, once every row of it has been blanked
(Machine.blankOver), leaves every line of it blank, counts, and queues BLANKED with WEAR one higher. Before those
conditions, after a trip, without such a migration or folio, and while the destination's ALLOC is not complete or a
release holds the folio, each changes nothing. -/
def Obligations.MigrationSteps : Prop :=
  (∀ s : State,
    (16 ≤ migRunning s ∨ s.sup.tripped = true ∨ s.led.lost = true ∨ s.led.recovered = false ∨ s.ctl.cpuUp = false ∨ migNext s = none →
      exec .migrationStart s = .next s) ∧
    (migRunning s < 16 → s.sup.tripped = false → s.led.lost = false → s.led.recovered = true → s.ctl.cpuUp = true →
      ∀ g, migNext s = some g →
        ((ent s g.folio).media = noFolio → ∃ t, exec .migrationStart s = .next t ∧ migrating t g.folio = false ∧
          t.led.appends = s.led.appends ∧ t.led.entries = s.led.entries ∧ t.med = s.med) ∧
        ((ent s g.folio).media ≠ noFolio → allocFor (decide (3 ≤ g.prio)) s = none →
          ∃ t, exec .migrationStart s = .next t ∧ migrating t g.folio = false ∧ Pends 5 3 0x01 t ∧ t.led.entries = s.led.entries ∧
            t.med = s.med) ∧
        ∀ m, (ent s g.folio).media ≠ noFolio → allocFor (decide (3 ≤ g.prio)) s = some m →
          ∃ t, exec .migrationStart s = .next t ∧ t.led.appends = s.led.appends ++ [jAlloc m 3 g.folio (wearOf s m).wear] ∧
            Queued ((s.modLed fun l => { l with migs := t.led.migs }).counted 454 1) t ∧
            t.led.migs = s.led.migs.map fun x => if x.folio = g.folio then
              { x with src := (ent s g.folio).media, dst := m, phase := .copying, pass := 0, marked := [], todo := [] } else x)) ∧
  (∀ (f : Nat) (s : State), (s.led.migs.find? (fun g => g.folio == f) = none ∨ s.sup.tripped = true ∨ migHeld s f = true ∨ migIdle s f = false →
    exec (.migrationPassDone f) s = .next s)) ∧
  (∀ (f : Nat) (s : State) (g : Mig), s.led.migs.find? (fun g => g.folio == f) = some g → ∀ left, left = (g.marked ++ g.todo).dedup →
    ((pendingAllocs s).contains g.dst = true ∨ g.phase = .queued ∨ g.phase = .remap ∨ g.phase = .quiesce →
      exec (.migrationPassDone f) s = .next s) ∧
    (s.sup.tripped = false → migHeld s f = false → migIdle s f = true → (pendingAllocs s).contains g.dst = false →
      (g.phase = .copying ∨ g.phase = .recopy → ∃ t, exec (.migrationPassDone f) s = .next t ∧
        (if left.length ≤ 64 ∨ 8 ≤ g.pass + 1 then
          ∃ x ∈ t.led.migs, x.folio = f ∧ x.pass = g.pass + 1 ∧ x.phase = .holding ∧ x.marked = [] ∧
            x.todo = left.filter fun o => (migPending s f).contains o
        else ∃ x ∈ t.led.migs, x.folio = f ∧ x.pass = g.pass + 1 ∧ x.phase = .recopy ∧ x.todo = [] ∧
            x.marked = left.filter fun o => (migPending s f).contains o) ∧
        (∀ o ∈ left, o ∉ migPending s f → ∃ op ∈ t.med.ops, op.purpose = .migRead f o ∧ op.m = g.src ∧ op.kind = .maint) ∧
        t.led.appends = s.led.appends ∧ t.led.entries.map (·.1) = s.led.entries.map (·.1) ∧ t.med.lines = s.med.lines) ∧
      (g.phase = .holding → g.todo ≠ [] ∨ migPending s f ≠ [] → exec (.migrationPassDone f) s = .next s) ∧
      (g.phase = .holding → g.todo = [] → migPending s f = [] → ∃ t, exec (.migrationPassDone f) s = .next t ∧
        t.led.appends = s.led.appends ++ [{ jRemap f 0 g.src g.dst ((ent s f).gen + 1).toNat (ent s f).state with
          e := 256 * stateCode (ent s f).state + 65536 * (2 + b2n g.bullion), own := g.own }] ∧
        Queued (s.modLed fun l => { l with migs := l.migs.map fun x => if x.folio = f then { x with phase := .remap } else x }) t))) ∧
  (∀ (f : Nat) (s : State),
    (s.led.migs.find? (fun g => g.folio == f && g.phase == .quiesce) = none → exec (.migrationSourceQuiesced f) s = .next s) ∧
    ∀ g, s.led.migs.find? (fun g => g.folio == f && g.phase == .quiesce) = some g →
      (quiesced s g.src = false ∨ s.sup.tripped = true → exec (.migrationSourceQuiesced f) s = .next s) ∧
      (quiesced s g.src = true → s.sup.tripped = false → ∃ t, exec (.migrationSourceQuiesced f) s = .next t ∧
        t.led.migs = (s.led.migs.filter fun x => !(x.folio == f && x.phase == .quiesce)) ∧ t.med = s.med ∧ t.led.entries = s.led.entries ∧
        (g.retire = 0 → g.src ≠ noFolio → (t.led.blanking.any fun b => b.1 == g.src) = true ∧ t.led.appends = s.led.appends) ∧
        (g.retire ≠ 0 → t.led.blanking = s.led.blanking ∧ t.led.appends = s.led.appends ++ [jRetire g.src g.retire (wearOf s g.src).wear]))) ∧
  ∀ (m : Nat) (s : State),
    ((∀ x ∈ s.led.blanking, x.1 ≠ m) ∨ s.sup.tripped = true ∨ quiesced s m = false ∨ blankOver s m = false ∨
      (∃ r ∈ s.led.appends, r.type = 0x03 ∧ r.a = m) → exec (.folioBlankDone m) s = .next s) ∧
    ((∃ x ∈ s.led.blanking, x.1 = m) → s.sup.tripped = false → quiesced s m = true → blankOver s m = true →
      (∀ r ∈ s.led.appends, ¬ (r.type = 0x03 ∧ r.a = m)) →
      ∃ t, exec (.folioBlankDone m) s = .next t ∧ (∀ o, o < 32768 → mline t (m * 32768 + o) = blankLine) ∧
        (∀ k, k / 32768 ≠ m → mline t k = mline s k) ∧
        t.led.appends = s.led.appends ++ [jBlanked m (satAdd 0x7FFFF (wearOf s m).wear 1)] ∧
        (∀ c, chan t c = { chan s c with blankAt := (chan s c).blankAt.filter fun x => x.1 / 18 != m }) ∧
        Queued ((s.modMed fun d => { d with lines := t.med.lines, chans := t.med.chans }).modInteg (fun i => { i with restrikes := t.integ.restrikes })
          |>.counted 455 1) t)

/-- Queue administration creates, grants and deletes exactly the queue it names (R306,  R320,  R326,  R329,  R330,
R331). Each command that its mailbox takes: CREATE_QUEUE_PAIR with an acceptable payload makes the queue it describes,
of the sending head, empty, on the engine in service with the fewest queues; it answers INVALID_INPUT to an
unacceptable payload, and BUSY where no engine is in service (the model's choice, log entry 47). SET_QUEUE_GRANTS
replaces the grants. DELETE_QUEUE_PAIR_ABORT deletes the queue and its reservation, and, where nothing is in flight,
does nothing else; DELETE_QUEUE_PAIR_DRAIN does so at once where nothing is in flight, and else leaves the queue
deleting and the command unanswered. Each answers INVALID_INPUT for a queue that is not there for that head.
REINIT_MOVER_ENGINE of an engine in service acts as an engine reinit for an internal fault and answers SUCCESS; of one
that is not, or is already being reinitialised, it only answers. -/
def Obligations.QueueAdministration : Prop :=
  (∀ (p : MbxPort) (b : List Byte) (s : State), yciTaken 0xC500 p b s = true →
    (createOk b s = false → exec (.createQueuePair p b) s = .next (answerOnly 0xC500 p b 0x2 [] s)) ∧
    (createOk b s = true → engineFewest s = none → exec (.createQueuePair p b) s = .next (answerOnly 0xC500 p b 0x6 [] s)) ∧
    (createOk b s = true → ∀ e, engineFewest s = some e → ∃ t, exec (.createQueuePair p b) s = .next t ∧
      acted p 0xC500 0 [] s (s.modMov fun m => { m with queues := tput none m.queues (le b 0 2) (queueAt t (le b 0 2)) }) t ∧
      ∃ x, queueAt t (le b 0 2) = some x ∧ x.head = headOf p ∧ x.engine = e ∧ x.descs = [] ∧ x.sqHead = 0 ∧ x.sqTail = 0 ∧
        x.sqLog2 = le b 2 1 ∧ x.cqLog2 = le b 3 1 ∧ x.sqBase.toNat = le b 8 8 ∧ x.cqBase.toNat = le b 16 8 ∧
        x.grants.toNat = le b 32 16 ∧ x.state = .running ∧ x.gateClosed = (le b 26 1).testBit 2)) ∧
  (∀ (p : MbxPort) (b : List Byte) (q : Nat) (s : State), q = le b 0 2 →
    (adminQueue p q s = none →
      (yciTaken 0xC501 p (withMode 1 b) s = true →
        exec (.deleteQueuePairAbort p b) s = .next (answerOnly 0xC501 p (withMode 1 b) 0x2 [] s)) ∧
      (yciTaken 0xC501 p (withMode 0 b) s = true →
        exec (.deleteQueuePairDrain p b) s = .next (answerOnly 0xC501 p (withMode 0 b) 0x2 [] s)) ∧
      (yciTaken 0xC502 p b s = true → exec (.setQueueGrants p b) s = .next (answerOnly 0xC502 p b 0x2 [] s))) ∧
    ∀ x, adminQueue p q s = some x → le b 2 2 = 0 →
      (yciTaken 0xC501 p (withMode 1 b) s = true → ∃ t, exec (.deleteQueuePairAbort p b) s = .next t ∧ queueAt t q = none ∧
        answered p 0xC501 0 [] s t ∧ (∀ r ∈ t.mov.resv, r.q ≠ q) ∧ (∀ k, k ≠ q → queueAt t k = queueAt s k) ∧
        (x.descs = [] → acted p 0xC501 0 [] s (s.modMov fun m => { m with
          queues := tput none m.queues q none, resv := m.resv.filter fun r => r.q != q, chunks := m.chunks.filter fun c => c.q != q }) t)) ∧
      (yciTaken 0xC501 p (withMode 0 b) s = true → ∃ t, exec (.deleteQueuePairDrain p b) s = .next t ∧
        (x.descs = [] → queueAt t q = none ∧ acted p 0xC501 0 [] s (s.modMov fun m => { m with
          queues := tput none m.queues q none, resv := m.resv.filter fun r => r.q != q, chunks := m.chunks.filter fun c => c.q != q }) t) ∧
        (x.descs ≠ [] → queueAt t q = some { x with state := .deletingDrain } ∧ (mbxOf t p).busy.isSome = true ∧
          t.mov = (s.modMov fun m => { m with queues := tput none m.queues q (some { x with state := .deletingDrain }) }).mov)) ∧
      (yciTaken 0xC502 p b s = true → ∃ t, exec (.setQueueGrants p b) s = .next t ∧
        acted p 0xC502 0 [] s (s.modMov fun m => { m with
          queues := tput none m.queues q (some { x with grants := BitVec.ofNat 128 (le b 4 16) }) }) t)) ∧
  ∀ (p : MbxPort) (b : List Byte) (s : State), yciTaken 0xC503 p b s = true → le b 1 3 = 0 →
    (8 ≤ le b 0 1 → exec (.reinitMoverEngine p b) s = .next (answerOnly 0xC503 p b 0x2 [] s)) ∧
    (le b 0 1 < 8 → (engineAt s (le b 0 1)).inService = false ∨ (engineAt s (le b 0 1)).reinit = true →
      exec (.reinitMoverEngine p b) s = .next (answerOnly 0xC503 p b 0 [] s)) ∧
    (le b 0 1 < 8 → (engineAt s (le b 0 1)).inService = true → (engineAt s (le b 0 1)).reinit = false →
      ∃ v, exec (.engineReinit (le b 0 1) true) (yciNoted 0xC503 p b s) = .next v ∧
        exec (.reinitMoverEngine p b) s = .next (mbxAnswer p 0xC503 0 [] v))

/-- Doorbells and gates move one queue's indices, descriptors are fetched and completed in order, errors stop what
they name (R306,  R307,  R309,  R310,  R313,  R316,  R317,  R318,  R326,  R327,  R329,  R355). With the fabric island
free: SQ_TAIL_DOORBELL and CQ_HEAD_DOORBELL set the tail, and the head, freeing the entries passed, and an index out
of range, or beyond the entries in use, only marks BAD_DOORBELL and raises it; GATE_OPEN and GATE_CLOSE move
GATE_CLOSED; of a queue that is not there for that head they do nothing. DESCRIPTOR_FETCH of a queue that may fetch,
with room, appends up to four entries and moves the head; with no completion room it raises CQ_FULL once.
COMPLETION_ENTRY_WRITE of a done descriptor that may complete writes its entry at the ring's tail, removes it and
counts it. HOST_ERROR of a fetch puts the queue in error (ERR_CAUSE 1), of a started descriptor's data access ends it
with status 0x05; REQ_TIMEOUT does the same with detail 0x04 and raises REQ_TIMEOUT. ENGINE_REINIT for a fault takes
the engine out, raises ENGINE_REINIT and, where another serves, leaves none of its queues on it and raises REBIND;
ENGINE_REINIT_DONE returns it, or after a second failure puts it out of service. -/
def Obligations.QueueProgress : Prop :=
  (∀ (h : Head) (q : Nat) (v : BitVec 32) (s : State), q < 4096 → domFree s domFAB = true →
    ((pageOf s h q).isNone = true → exec (.sqTailDoorbell h q v) s = .next s ∧ exec (.cqHeadDoorbell h q v) s = .next s ∧
      exec (.gateOpen h q) s = .next s ∧ exec (.gateClose h q) s = .next s) ∧
    ∀ x, pageOf s h q = some x →
      (∃ t, exec (.sqTailDoorbell h q v) s = .next t ∧
        (v.toNat % 65536 < 2 ^ x.sqLog2 → queueAt t q = some { x with sqTail := v.toNat % 65536 } ∧ onlyQueue q s t) ∧
        (2 ^ x.sqLog2 ≤ v.toNat % 65536 → queueAt t q = some { x with badDoorbell := true } ∧ Pends 8 17 0x03 t)) ∧
      (∃ t, exec (.cqHeadDoorbell h q v) s = .next t ∧
        ∃ adv, adv = (v.toNat % 65536 + 2 ^ x.cqLog2 - x.cqHead) % 2 ^ x.cqLog2 ∧
          (v.toNat % 65536 < 2 ^ x.cqLog2 → adv ≤ x.cqUsed → onlyQueue q s t ∧
            queueAt t q = some { x with cqHead := v.toNat % 65536, cqUsed := x.cqUsed - adv,
                                        cqFull := x.cqFull && x.cqUsed - adv + x.descs.length == 2 ^ x.cqLog2 }) ∧
          (2 ^ x.cqLog2 ≤ v.toNat % 65536 ∨ x.cqUsed < adv → queueAt t q = some { x with badDoorbell := true } ∧ Pends 8 17 0x03 t)) ∧
      (∃ t, exec (.gateOpen h q) s = .next t ∧ queueAt t q = some { x with gateClosed := false } ∧ onlyQueue q s t) ∧
      (∃ t, exec (.gateClose h q) s = .next t ∧ queueAt t q = some { x with gateClosed := true } ∧ onlyQueue q s t)) ∧
  (∀ (q : Nat) (es : List (BitVec 512)) (x : Queue) (s : State), queueAt s q = some x → mayFetch s x = true →
    (cqRoom x = 0 → x.cqFull = false → ∃ t, exec (.descriptorFetch q es) s = .next t ∧ Pends 8 17 0x02 t ∧
      queueAt t q = some { x with cqFull := true }) ∧
    (0 < cqRoom x → es.length = 1 → x.descs.length < 32 → engineFlight s x.engine < 256 → x.sqHead < 2 ^ x.sqLog2 →
      ∃ t y, exec (.descriptorFetch q es) s = .next t ∧ queueAt t q = some y ∧ y.descs.dropLast = x.descs ∧
        y.sqHead = (x.sqHead + 1) % 2 ^ x.sqLog2 ∧ t.outbox = .fetch q (queuePasid x) x.sqHead 1 :: s.outbox ∧ ∃ d, y.descs.getLast? = some d ∧ d.idx = x.sqHead ∧
        d.raw = es.headD 0 ∧
        (d.op = 0 ∨ 0x0B < d.op → d.stage = .done ∧ d.status = 1) ∧ (d.op ≠ 0 → d.op ≤ 0x0B → d.stage = .fetched))) ∧
  (∀ (q idx : Nat) (x : Queue) (d : Desc) (s : State), queueAt s q = some x → x.state = .running →
    x.descs.find? (fun d => d.idx == idx && d.stage == .done) = some d →
    (mayComplete s x d = false → exec (.completionEntryWrite q idx) s = .next s) ∧
    (mayComplete s x d = true → ∃ t y, exec (.completionEntryWrite q idx) s = .next t ∧ queueAt t q = some y ∧
      y.descs = x.descs.erase d ∧ y.cqTail = (x.cqTail + 1) % 2 ^ x.cqLog2 ∧ y.cqUsed = x.cqUsed + 1 ∧ y.cntDesc = x.cntDesc + 1 ∧
      .hostWrite x.head (queuePasid x) (x.cqBase + BitVec.ofNat 64 (16 * x.cqTail)) (cqEntry d x.phase) false ∈ t.outbox)) ∧
  (∀ (q idx : Nat) (det : BitVec 8) (x : Queue) (s : State), queueAt s q = some x →
    (mayFetch s x = true → (∃ t, exec (.hostError q idx .fetch det) s = .next t ∧ Pends 8 17 0x01 t ∧
        queueAt t q = some { x with error := true, errCause := 1 }) ∧
      ∃ t, exec (.reqTimeout q idx .fetch) s = .next t ∧ Pends (headNo x.head) 3 0x02 t ∧
        queueAt t q = some { x with error := true, errCause := 1 }) ∧
    ∀ d, workOf s q idx = some d → d.stage = .started → d.srcHost = true → d.op ≠ 4 →
      (∃ t, exec (.hostError q idx .source det) s = .next t ∧ endedAs q d 0x05 det.toNat d.prefixBytes t ∧ onlyQueue q s t) ∧
      ∃ t, exec (.reqTimeout q idx .source) s = .next t ∧ endedAs q d 0x05 0x04 d.prefixBytes t ∧ Pends (headNo x.head) 3 0x02 t) ∧
  ∀ (e : Nat) (ok : Bool) (s : State), e < 8 →
    ((engineAt s e).inService = true → (engineAt s e).reinit = false →
      ∃ t, exec (.engineReinit e true) s = .next t ∧ (engineAt t e).reinit = true ∧ (engineQueues s e = 0 → Pends 8 16 0x01 t) ∧
        ((∃ k, k < 8 ∧ k ≠ e ∧ (engineAt s k).inService = true ∧ (engineAt s k).reinit = false) → engineQueues t e = 0 ∧
          (0 < engineQueues s e → Pends 8 16 0x02 t)) ∧
        ∀ q x, queueAt s q = some x → x.engine = e → ∃ y, queueAt t q = some y ∧ y.qgen = x.qgen + 1 ∧
          y.descs.map (fun d => (d.idx, d.raw)) = x.descs.map fun d => (d.idx, d.raw)) ∧
    ((engineAt s e).inService = false ∨ (engineAt s e).reinit = true → exec (.engineReinit e true) s = .next s) ∧
    ((engineAt s e).reinit = true → ∃ t, exec (.engineReinitDone e ok) s = .next t ∧
      (ok = true → (engineAt t e).reinit = false ∧ (engineAt t e).fails = 0 ∧ (engineAt t e).inService = (engineAt s e).inService) ∧
      (ok = false → (engineAt s e).fails = 0 → (engineAt t e).reinit = true ∧ (engineAt t e).fails = 1) ∧
      (ok = false → (engineAt s e).fails ≠ 0 → (engineAt t e).inService = false ∧ Pends 8 16 0x03 t))

/-- Descriptors that may run complete: fences, timestamps, cleans, reservations, conditional stores and empty ranges
(R27,  R54,  R311,  R314,  R319,  R323,  R324,  R325,  R328,  R437). For a descriptor that may run (Safety.descReady),
each ends with its status, detail and result for the completion entry (Safety.endedAs): FENCE with status 0; TIMESTAMP
with the mint time as its result; CLEAN with its length, waiting for the dirty lines of the range, and no line is
changed; COPY, FILL, ZERO and PREFETCH of length 0 with status 0 and result 0, moving nothing; PREFETCH of one line
queues it where it is on media and not held, and changes no line; RESERVE_LOAD of an unprovisioned folio's word with
status 0, its result a free value (the model's, log entry 7), and the queue then holds a reservation of the line and
no other; COND_STORE with no reservation, to a line that need not wait (one that the correspondent owns, or whose
write is discarded), fails: status 8, and changes nothing but the queue and its outcome record. Other queues stay as
they were. -/
def Obligations.DescriptorsComplete : Prop :=
  (∀ (q idx : Nat) (x : Queue) (d : Desc) (s : State),
    (descReady s q idx 0x0A x d = true → ∃ t, exec (.fence q idx) s = .next t ∧ endedAs q d 0 0 0 t ∧ onlyQueue q s t) ∧
    (descReady s q idx 0x0B x d = true → ∃ t, exec (.timestamp q idx) s = .next t ∧ endedAs q d 0 0 s.tbs.mint.toNat t ∧ onlyQueue q s t) ∧
    (descReady s q idx 7 x d = true → ∃ t, exec (.clean q idx) s = .next t ∧ endedAs q d 0 0 d.len t ∧ onlyQueue q s t ∧
      ∀ l, d.src < l * 256 + 256 → l * 256 < d.src + d.len → inTill s l = true → 0 < d.len →
        ∃ y, queueAt t q = some y ∧ ∃ e ∈ y.descs, e.idx = d.idx ∧ e.stage = .done ∧
          (waitLine l ∈ e.waits ∨ ∃ o ∈ s.med.ops, o.purpose = .drain l ∧ waitOp o.id ∈ e.waits ∨ (s.med.ops.all fun o => o.purpose != .drain l) = true))) ∧
  (∀ (q idx units : Nat) (data : List Sector) (x : Queue) (d : Desc) (s : State), d.len = 0 →
    (descReady s q idx 1 x d = true → ∃ t, exec (.copy q idx units data) s = .next t ∧ endedAs q d 0 0 0 t ∧ onlyQueue q s t) ∧
    (descReady s q idx 2 x d = true → ∃ t, exec (.fill q idx units) s = .next t ∧ endedAs q d 0 0 0 t ∧ onlyQueue q s t) ∧
    (descReady s q idx 3 x d = true → ∃ t, exec (.zero q idx units) s = .next t ∧ endedAs q d 0 0 0 t ∧ onlyQueue q s t) ∧
    (descReady s q idx 6 x d = true → ∃ t, exec (.prefetch q idx units) s = .next t ∧ endedAs q d 0 0 0 t ∧ onlyQueue q s t)) ∧
  (∀ (q idx : Nat) (x : Queue) (d : Desc) (s : State), descReady s q idx 6 x d = true → d.len = 256 → d.src % 256 = 0 →
    provisioned (ent s (folioOf (d.src / 256))) = true →
    (s.pur.prefetchQ.filter fun e => e.1 == sliceOf s (d.src / 256)).length < 16384 →
    ∃ t, exec (.prefetch q idx 4) s = .next t ∧ endedAs q d 0 0 0 t ∧
      t.pur = (if cachedLine s (d.src / 256) = none ∧ hasMedia s (d.src / 256) = true ∧
          (sliceOf s (d.src / 256), d.src / 256) ∉ s.pur.prefetchQ
        then (s.modPur fun u => { u with prefetchQ := u.prefetchQ ++ [(sliceOf s (d.src / 256), d.src / 256)] }).pur else s.pur)) ∧
  ∀ (q idx : Nat) (x : Queue) (d : Desc) (s : State),
    (descReady s q idx 8 x d = true → provisioned (ent s (folioOf (d.src / 256))) = false →
      (s.mov.resv.filter fun r => r.slice == sliceOf s (d.src / 256) && r.lost == 0).length < 512 →
      ∃ t v, exec (.reserveLoad q idx) s = .next t ∧ endedAs q d 0 0 v t ∧ t.led = s.led ∧ t.pur = s.pur ∧ t.med = s.med ∧
        t.mov.resv.map (fun r => (r.q, r.lineNo, r.lost)) = (s.mov.resv.filter fun r => r.q != q).map (fun r => (r.q, r.lineNo, r.lost)) ++
          [(q, d.src / 256, 0)]) ∧
    (descReady s q idx 9 x d = true → x.outcome = none → (s.mov.resv.all fun r => r.q != q) = true →
      mustForward s (d.dst / 256) = true ∨ writeLost s (d.dst / 256) = true →
      ∃ t y, exec (.condStore q idx) s = .next t ∧ queueAt t q = some y ∧ endedAs q d 8 0 0 t ∧
        y.outcome = some { idx := idx, status := 8, detail := 0 } ∧ onlyQueue q s t)

/-- A host reads what the mover wrote to device memory, and the mover writes to host memory what device memory holds
(R44,  R50,  R201,  R202,  R255,  R256,  R314,  R323,  R340). For a line that is idle for a host (Safety.idleFor),
with no access waiting, and a descriptor that may run on it (Safety.descReady) under the line's key ID: FILL, ZERO and
COPY from host memory of the whole line, and a COND_STORE of a word under the queue's own reservation, complete with
status 0; a read by that host of an address in the line then answers exactly one message: the pattern's bytes, zeros,
the copied sector, or zeros with the stored word. COPY of the line to host memory, the line being blank-mapped,
completes with status 0 and sends its 256 zero bytes to the destination address. -/
def Obligations.MoverDataReachesTheHost : Prop :=
  ∀ (h : Head) (tag : Nat) (hpa : BitVec 64) (own : Bool) (g : Target) (q idx : Nat) (x : Queue) (d : Desc) (data : List Sector)
    (s : State), takesReads s h = true → decodeHpa s h hpa.toNat = some g → g.sbox = false → g.inside = true →
    ideBlocks s h = false → idleFor s h g.key (g.dpa / 256) = true → s.pur.waitQ = [] →
    (d.dstHost = false → d.dstSet = none → d.dstKey = g.key → d.dst = g.dpa / 256 * 256 → d.len = 256 →
      (descReady s q idx 2 x d = true → ∃ t, exec (.fill q idx 4) s = .next t ∧ endedAs q d 0 0 256 t ∧
        ∃ u, exec (.memRd h tag hpa own) t = .next u ∧
          u.said = .memData h tag (BitVec.ofNat 512 ((List.range 8).map fun i => d.get 32 8 * 2 ^ (64 * i)).sum) :: t.said) ∧
      (descReady s q idx 3 x d = true → ∃ t, exec (.zero q idx 4) s = .next t ∧ endedAs q d 0 0 256 t ∧
        ∃ u, exec (.memRd h tag hpa own) t = .next u ∧ u.said = .memData h tag 0 :: t.said) ∧
      (descReady s q idx 1 x d = true → d.srcHost = true → data.length = 4 →
        ∃ t, exec (.copy q idx 4 data) s = .next t ∧ endedAs q d 0 0 256 t ∧
          ∃ u, exec (.memRd h tag hpa own) t = .next u ∧ u.said = .memData h tag (data.getD (g.dpa / 64 % 4) 0) :: t.said)) ∧
    (descReady s q idx 9 x d = true → x.outcome = none → d.dstKey = g.key → d.dst / 64 = g.dpa / 64 →
      (∃ r, s.mov.resv = [r] ∧ r.q = q ∧ r.lineNo = g.dpa / 256 ∧ r.lost = 0 ∧ r.since = 0) →
      ∃ t, exec (.condStore q idx) s = .next t ∧ endedAs q d 0 0 0 t ∧ t.mov.resv = [] ∧
        ∃ u, exec (.memRd h tag hpa own) t = .next u ∧
          u.said = .memData h tag (BitVec.ofNat 512 (d.get 32 8 * 2 ^ (8 * (d.dst % 64)))) :: t.said) ∧
    (descReady s q idx 1 x d = true → d.dstHost = true → d.srcHost = false → d.srcSet = none → d.srcKey = g.key →
      d.src = g.dpa / 256 * 256 → d.len = 256 → ∃ t, exec (.copy q idx 4 data) s = .next t ∧ endedAs q d 0 0 256 t ∧
        .hostWrite x.head (queuePasid x) (BitVec.ofNat 64 d.dst) (List.replicate 256 0) false ∈ t.outbox)

/-- A principal loads, unloads and locks only through its own key page, and every vault request is answered once
(R245,  R246,  R247,  R297,  R298,  R299,  R300,  R301,  R387,  R388,  R389). For a vault port that takes a request
(Safety.vaultOpen): REG_WRITE of a key word of the principal's own page sets that word and marks it written; of
another page it is answered NOT_OWNER; of a binding word of a locked page, LOCKED; of a bad length, INVALID_FIELD:
each refusal changes nothing but the response. REG_READ of its own page or the shared space answers the words. LOAD
and UNLOAD act on the slot that SLOT_SEL names: where the page owns it, is not locked, and for a load is complete and
not refused, the domain or package slot holds the page's key, or none, and LOADED or UNLOADED is raised; else no slot
changes; either way the key words are zeroed and the result stands in the page. LOCK locks the page and raises
PAGE_LOCKED. SET_POLICY of an owned domain queues its page write and is answered by that write alone; GET_POLICY
answers the record. -/
def Obligations.VaultKeyPages : Prop :=
  (∀ (q tag n : Nat) (v : BitVec 32) (s : State), q < 8 → n < 8 → vaultOpen s = true →
    ∃ t, exec (.regWrite q tag (toLE 2 (0x1000 * q + 0x20 + 4 * n) ++ zeros 2 ++ toLE 4 v.toNat)) s = .next t ∧
      vaultAnswered 0x01 q tag 0 [] t ∧ (∀ i, i < 8 → (pageAt t q).key.extractLsb' (32 * i) 32 = if i = n then v else (pageAt s q).key.extractLsb' (32 * i) 32) ∧
      (pageAt t q).keyWritten = ((pageAt s q).keyWritten ||| (1 <<< n)) ∧ (∀ p, p ≠ q → pageAt t p = pageAt s p) ∧
      (t.modCry fun c => { c with pages := [] }).modCtl (fun _ => s.ctl) = s.modCry fun c => { c with pages := [] }) ∧
  (∀ (q tag p r : Nat) (v : BitVec 32) (b : List Byte) (s : State), q < 8 → p < 8 → r < 0x1000 → r % 4 = 0 → vaultOpen s = true →
    (p ≠ q → ∃ t, exec (.regWrite q tag (toLE 2 (0x1000 * p + r) ++ zeros 2 ++ toLE 4 v.toNat)) s = .next t ∧
      vaultAnswered 0x01 q tag 0x04 [] t ∧ t.modCtl (fun _ => s.ctl) = s) ∧
    ((pageAt s q).lock = true → 0x10 ≤ r → r ≤ 0x1C →
      ∃ t, exec (.regWrite q tag (toLE 2 (0x1000 * q + r) ++ zeros 2 ++ toLE 4 v.toNat)) s = .next t ∧
        vaultAnswered 0x01 q tag 0x05 [] t ∧ t.modCtl (fun _ => s.ctl) = s) ∧
    (b.length < 8 ∨ b.length % 4 ≠ 0 → ∃ t, exec (.regWrite q tag b) s = .next t ∧ vaultAnswered 0x01 q tag 0x03 [] t ∧
      t.modCtl (fun _ => s.ctl) = s) ∧
    ∃ t, exec (.regRead q tag (toLE 2 (0x1000 * q + r) ++ [1, 0])) s = .next t ∧
      vaultAnswered 0x02 q tag 0 (toLE 4 (wordRead s (0x1000 * q + r))) t ∧ t.modCtl (fun _ => s.ctl) = s) ∧
  (∀ (q tag k : Nat) (pkg : Bool) (s : State), q < 8 → vaultOpen s = true → pkg = (pageAt s q).slotSel.getLsbD 0 →
    k = bits (pageAt s q).slotSel.toNat 1 7 →
    (∃ t, exec (.loadKey q tag) s = .next t ∧ vaultAnswered 0x01 q tag 0 [] t ∧ (pageAt t q).result = keyResult s q true ∧
      (pageAt t q).key = 0 ∧ (pageAt t q).keyWritten = 0 ∧ (∀ j, j ≠ k → tget none t.cry.dom j = tget none s.cry.dom j) ∧
      (keyResult s q true ≠ 0 → Pends 6 6 0x04 t ∧ t.cry.dom = s.cry.dom ∧ t.cry.pkg = s.cry.pkg) ∧
      (keyResult s q true = 0 → pkg = false → tget none t.cry.dom k = some (pageAt s q).key ∧ Pends 6 3 0x01 t ∧ t.cry.pkg = s.cry.pkg) ∧
      (keyResult s q true = 0 → pkg = true → pkgSlotOf t k = slotBound (pageAt s q) ∧ Pends 6 6 0x01 t ∧ t.cry.dom = s.cry.dom)) ∧
    (∃ t, exec (.unloadKey q tag) s = .next t ∧ vaultAnswered 0x01 q tag 0 [] t ∧ (pageAt t q).result = keyResult s q false ∧
      (pageAt t q).key = 0 ∧ (∀ j, j ≠ k → tget none t.cry.dom j = tget none s.cry.dom j) ∧
      (keyResult s q false ≠ 0 → Pends 6 6 0x04 t ∧ t.cry.dom = s.cry.dom ∧ t.cry.pkg = s.cry.pkg) ∧
      (keyResult s q false = 0 → if pkg then (pkgSlotOf t k).loaded = false ∧ t.cry.dom = s.cry.dom
        else tget none t.cry.dom k = none ∧ t.cry.pkg = s.cry.pkg)) ∧
    ∃ t, exec (.lockPage q tag) s = .next t ∧ vaultAnswered 0x01 q tag 0 [] t ∧ (pageAt t q).lock = true ∧
      ((pageAt s q).lock = false → Pends 6 6 0x03 t) ∧ (∀ p, p ≠ q → pageAt t p = pageAt s p) ∧ t.cry.dom = s.cry.dom) ∧
  ∀ (q tag k fl : Nat) (b : List Byte) (s : State), q < 8 → vaultOpen s = true →
    (b.length = 16 → le b 0 1 = k → le b 1 1 = fl → 0 < k → k < 128 → fl < 128 → le b 2 2 = 0 → le b 8 8 = 0 →
      ownsSlot s q false k = true → policyRefused s k fl = false →
      ∃ t, exec (.setPolicy q tag b) s = .next t ∧ Queued s t ∧ t.ctl = s.ctl ∧
        { cls := 5, addr := recPolicy k, data := b, principal := vaultTag 0x03 q tag } ∈ t.pb.writing.toList ++ t.pb.writes) ∧
    (b.length = 16 → le b 0 1 = k → le b 1 1 = fl → 0 < k → k < 128 → fl < 128 → le b 2 2 = 0 → le b 8 8 = 0 →
      ownsSlot s q false k = false → ∃ t, exec (.setPolicy q tag b) s = .next t ∧ vaultAnswered 0x03 q tag 0x04 [] t ∧
        t.modCtl (fun _ => s.ctl) = s) ∧
    (k < 128 → ∃ t out, exec (.getPolicy q tag ([BitVec.ofNat 8 k, 0, 0, 0])) s = .next t ∧
      out = [BitVec.ofNat 8 k, policyFlags s k] ++ zeros 2 ++
        toLE 4 (if k ≠ 0 ∧ (tget policy0 s.cry.policy k).kcvSet = true then (tget policy0 s.cry.policy k).kcv.toNat else 0) ++ zeros 8 ∧
      vaultAnswered 0x04 q tag 0 out t ∧ t.modCtl (fun _ => s.ctl) = s)

/-- The sealed window, tree actions and protected ranges act for principal 0, and ranges for their principal (R276,
R282,  R283,  R284,  R303,  R387,  R388,  R389,  R455,  R456). For a vault port that takes a request: SEALED_WINDOW
from principal 0 of the setting in force is OK and changes nothing; a new one is refused where a sealed folio stands
under the old, or the population, strap or reserve do not allow it, and else is in force; another principal is
NOT_OWNER. RESEAL and DISCARD of a faulted node record the action, BUSY while one runs; TREE_RESEALED and
TREE_DISCARDED of the recorded action end it, unmark the node and what is beneath, and raise it; with none they change
nothing. PB_PROTECTED_READ answers the range's bytes; PB_PROTECTED_WRITE of unprotected words queues one page write,
which answers it, and of protected ones is LOCKED; PB_BLOCK_PROTECT by principal 0 raises a range's protection and
queues its record, and a lowering is refused outside MANUFACTURE and DEBUG_UNLOCKED. GET_STATUS and GET_LIFECYCLE
answer the loaded slots and the lifecycle state. -/
def Obligations.VaultTreeAndRanges : Prop :=
  (∀ (q tag v : Nat) (s : State), q < 8 → v < 64 → vaultOpen s = true →
    (q ≠ 0 → ∃ t, exec (.sealedWindow q tag [BitVec.ofNat 8 v, 0, 0, 0]) s = .next t ∧ vaultAnswered 0x05 q tag 0x04 [] t ∧
      t.modCtl (fun _ => s.ctl) = s) ∧
    (q = 0 → v = s.cry.sealedCfg.toNat → ∃ t, exec (.sealedWindow q tag [BitVec.ofNat 8 v, 0, 0, 0]) s = .next t ∧
      vaultAnswered 0x05 q tag 0 [] t ∧ t.modCtl (fun _ => s.ctl) = s) ∧
    (q = 0 → v ≠ s.cry.sealedCfg.toNat →
      (bit v 5 = true → sealAllowed s = true ∧ (s.led.treeDir = [] → floorF s + 265 ≤ reserveLeft s)) →
      (s.cry.sealedCfg.getLsbD 5 = true → ∀ x ∈ s.led.entries, x.2.sealed_ = false) →
      ∃ t, exec (.sealedWindow q tag [BitVec.ofNat 8 v, 0, 0, 0]) s = .next t ∧ vaultAnswered 0x05 q tag 0 [] t ∧
        t.cry.sealedCfg.toNat = v ∧ t.cry.tree = [] ∧ t.cry.treeMedia = [] ∧ t.cry.faults = [] ∧ t.led.entries = s.led.entries) ∧
    (q = 0 → v ≠ s.cry.sealedCfg.toNat → bit v 5 = true → sealAllowed s = false →
      ∃ t, exec (.sealedWindow q tag [BitVec.ofNat 8 v, 0, 0, 0]) s = .next t ∧ vaultAnswered 0x05 q tag 0x06 [] t ∧
        Pends 6 3 0x05 t ∧ t.cry = s.cry)) ∧
  (∀ (tag level n : Nat) (b : List Byte) (s : State), vaultOpen s = true → b.length = 8 → le b 1 1 = level → le b 2 2 = 0 →
    le b 4 4 = n → 1 ≤ level → level ≤ 5 →
    (s.cry.treeJob.isSome = true → ∃ t, exec (.resealNode 0 tag b) s = .next t ∧ vaultAnswered 0x06 0 tag 0x09 [] t ∧
      t.modCtl (fun _ => s.ctl) = s) ∧
    (s.cry.treeJob = none → nodeFaulted s level n = true →
      (∃ t, exec (.resealNode 0 tag b) s = .next t ∧ vaultAnswered 0x06 0 tag 0 [] t ∧
        t.modCtl (fun _ => s.ctl) = s.modCry fun c => { c with treeJob := some (1, level, n) }) ∧
      ∃ t, exec (.discardNode 0 tag b) s = .next t ∧ vaultAnswered 0x06 0 tag 0 [] t ∧
        t.modCtl (fun _ => s.ctl) = s.modCry fun c => { c with treeJob := some (2, level, n) })) ∧
  (∀ s : State, (s.cry.treeJob = none → exec .treeResealed s = .next s ∧ exec .treeDiscarded s = .next s) ∧
    ∀ level n, s.cry.treeJob = some (1, level, n) → level ≤ 5 →
      ∃ t, exec .treeResealed s = .next t ∧ t.cry.treeJob = none ∧ Pends 6 2 0x03 t ∧
        (∀ f ∈ t.cry.faults, ¬ (f.1 ≤ level ∧ f.2 / 32 ^ (level - f.1) = n)) ∧ t.led.entries = s.led.entries) ∧
  (∀ (s : State) (level n : Nat), s.cry.treeJob = some (2, level, n) → level ≤ 5 →
      ∃ t, exec .treeDiscarded s = .next t ∧ t.cry.treeJob = none ∧ Pends 6 2 0x04 t ∧
        (∀ f ∈ t.cry.faults, ¬ (f.1 ≤ level ∧ f.2 / 32 ^ (level - f.1) = n)) ∧ t.led.entries = s.led.entries ∧
        t.led.appends = s.led.appends ++ (s.led.entries.filter fun e => provisioned e.2 && inWindow s (e.1 * 8192) &&
          beneath level n (wIndex (e.1 * 128))).map fun e => jRemap e.1 0 e.2.media noFolio (e.2.gen + 1).toNat .blankMapped) ∧
  (∀ (q tag off n : Nat) (data : List Byte) (s : State), q < 8 → vaultOpen s = true → off % 4 = 0 → 4 ≤ n → n % 4 = 0 →
    (n ≤ 256 → data.length = n → off < 0x10000 →
      ((∀ a ∈ pageAddrs (0x130000 + 0x10000 * q + off) n, bpProtects s q (a - (0x130000 + 0x10000 * q)) = false) →
        ∃ t, exec (.pbProtectedWrite q tag (toLE 4 off ++ toLE 2 n ++ zeros 2 ++ data)) s = .next t ∧ Queued s t ∧ t.ctl = s.ctl ∧
          { cls := 5, addr := 0x130000 + 0x10000 * q + off, data := data, principal := vaultTag 0x07 q tag } ∈
            t.pb.writing.toList ++ t.pb.writes) ∧
      ((∃ a ∈ pageAddrs (0x130000 + 0x10000 * q + off) n, bpProtects s q (a - (0x130000 + 0x10000 * q)) = true) →
        ∃ t, exec (.pbProtectedWrite q tag (toLE 4 off ++ toLE 2 n ++ zeros 2 ++ data)) s = .next t ∧
          vaultAnswered 0x07 q tag 0x05 [] t ∧ Pends 8 3 0x05 t ∧ t.pb = s.pb)) ∧
    (n ≤ 1024 → off + n ≤ 0x10000 → ∃ t, exec (.pbProtectedRead q tag (toLE 4 off ++ toLE 2 n ++ zeros 2)) s = .next t ∧
      vaultAnswered 0x08 q tag 0 ((List.range n).map fun i => tget 0 s.pb.ranges (0x130000 + 0x10000 * q + off + i)) t ∧
      t.modCtl (fun _ => s.ctl) = s)) ∧
  ∀ (tag p v : Nat) (s : State), vaultOpen s = true → p < 8 → v < 4 →
    (tget 0 s.pb.bp p < v → (pageAt s 0).lock = false →
      ∃ t, exec (.pbBlockProtect 0 tag [BitVec.ofNat 8 p, BitVec.ofNat 8 v, 0, 0]) s = .next t ∧ tget 0 t.pb.bp p = v ∧
        Pends 8 3 0x04 t ∧ (∀ k, k ≠ p → tget 0 t.pb.bp k = tget 0 s.pb.bp k) ∧ (∃ f, f ∈ t.ctl.vaultResp.toList ++ t.ctl.vaultNext ∧ f = vaultFrame 0x09 0 tag 0 [])) ∧
    (v < tget 0 s.pb.bp p → (pageAt s 0).lock = false → s.ctl.life ≠ .manufacture → s.ctl.life ≠ .debugUnlocked →
      ∃ t, exec (.pbBlockProtect 0 tag [BitVec.ofNat 8 p, BitVec.ofNat 8 v, 0, 0]) s = .next t ∧ vaultAnswered 0x09 0 tag 0x07 [] t ∧
        t.modCtl (fun _ => s.ctl) = s) ∧
    (∃ t, exec (.getStatus p tag []) s = .next t ∧ vaultAnswered 0x20 p tag 0 ([0, 1, 2, 3].flatMap (fun n => toLE 4 (iceLoaded s n)) ++
      [0, 1].flatMap (fun n => toLE 4 (pkgLoaded s n)) ++ [BitVec.ofNat 8 (lifeCode s.ctl.life)]) t ∧ t.modCtl (fun _ => s.ctl) = s) ∧
    ∃ t, exec (.getLifecycle p tag []) s = .next t ∧ vaultAnswered 0x10 p tag 0
      ([BitVec.ofNat 8 (lifeCode s.ctl.life), BitVec.ofNat 8 (b2n s.ctl.lockout)] ++ zeros 6) t ∧ t.modCtl (fun _ => s.ctl) = s

/-- Debug unlock needs a fresh signed challenge, empties every key slot, and debug access shows only what its mode
allows (R252,  R253,  R387,  R388,  R389,  R390,  R391). For a vault port that takes a request from principal 0:
DEBUG_CHALLENGE answers a nonce with the serial number, the nonce then outstanding from now, unless debug is locked
out. DEBUG_RESPONSE in PROVISIONED uses the nonce up: with a signature that verifies within 60 s it enters
DEBUG_UNLOCKED with no domain or package key left; without one it answers AUTH_FAIL, the third locking debug out;
outside PROVISIONED it answers STATE. DEBUG_LOCK returns to PROVISIONED with debug access off; ENTER_RMA with a
verified signature is permanent and ends memory active; AUTHORISE_IMAGE in DEBUG_UNLOCKED takes the digest.
FRAME_ERROR of a whole frame with a bad CRC is answered and raised; REQUEST_FLUSHED while a response waits is flushed
and raised; VAULT_RESPONSE_READ of a whole response makes room for the next. DEBUG_MODE_SELECT takes a mode but the
reserved one outside PROVISIONED; DEBUG_ACCESS with mode OFF answers all ones and changes nothing but its marks; in
PROVISIONED it does nothing. -/
def Obligations.DebugAndLifecycle : Prop :=
  (∀ (tag : Nat) (s : State), vaultOpen s = true →
    (s.ctl.lockout = true → ∃ t, exec (.debugChallenge 0 tag []) s = .next t ∧ vaultAnswered 0x11 0 tag 0x07 [] t ∧
      t.modCtl (fun _ => s.ctl) = s) ∧
    (s.ctl.lockout = false → ∃ t n, exec (.debugChallenge 0 tag []) s = .next t ∧ n = Config.random s.cry.random ∧
      vaultAnswered 0x11 0 tag 0 (toLE 32 n.toNat ++ toLE 8 s.board.serial.toNat) t ∧ t.ctl.nonce = some (s.clock, n) ∧
      t.modCtl (fun _ => s.ctl) = s.modCry fun c => { c with random := c.random + 1 })) ∧
  (∀ (tag : Nat) (sig : List Byte) (good : Bool) (s : State), vaultOpen s = true → sig.length = 96 →
    good = (match s.ctl.nonce with
      | some (t, n) => decide (s.clock ≤ 60000000000 + t) && Config.ecdsaOk 1 (toLE 32 n.toNat ++ toLE 8 s.board.serial.toNat) sig
      | none => false) →
    (s.ctl.life ≠ .provisioned → ∃ t, exec (.debugResponse 0 tag sig) s = .next t ∧ vaultAnswered 0x12 0 tag 0x07 [] t ∧
      t.modCtl (fun _ => s.ctl) = s) ∧
    (s.ctl.life = .provisioned → good = true → ∃ t, exec (.debugResponse 0 tag sig) s = .next t ∧ vaultAnswered 0x12 0 tag 0 [] t ∧
      t.ctl.life = .debugUnlocked ∧ t.ctl.nonce = none ∧ (∀ k, k < 128 → tget none t.cry.dom k = none) ∧
      (∀ k, k < 64 → (pkgSlotOf t k).loaded = false) ∧ Pends 8 2 0x02 t) ∧
    (s.ctl.life = .provisioned → good = false → ∃ t, exec (.debugResponse 0 tag sig) s = .next t ∧
      vaultAnswered 0x12 0 tag 0x08 [] t ∧ t.ctl.life = .provisioned ∧ t.ctl.nonce = none ∧ t.ctl.authFails = s.ctl.authFails + 1 ∧
      t.cry = s.cry ∧ (s.ctl.authFails = 2 → t.ctl.lockout = true ∧ Pends 8 2 0x03 t) ∧
      (s.ctl.authFails ≠ 2 → t.ctl.lockout = s.ctl.lockout)) ∧
    (s.ctl.life ≠ .rma → good = true → ∃ t, exec (.enterRma 0 tag sig) s = .next t ∧ vaultAnswered 0x14 0 tag 0 [] t ∧
      t.ctl.life = .rma ∧ t.led.memActive = false ∧ Pends 8 2 0x04 t) ∧
    (s.ctl.life = .rma → ∃ t, exec (.enterRma 0 tag sig) s = .next t ∧ vaultAnswered 0x14 0 tag 0x07 [] t ∧ t.modCtl (fun _ => s.ctl) = s)) ∧
  (∀ (tag : Nat) (d : BitVec 384) (s : State), vaultOpen s = true →
    (s.ctl.life = .debugUnlocked →
      (∃ t, exec (.debugLock 0 tag []) s = .next t ∧ vaultAnswered 0x13 0 tag 0 [] t ∧ t.ctl.life = .provisioned ∧
        t.ctl.authDigest = none ∧ t.modCtl (fun _ => s.ctl) = s.modCry fun c => { c with dbgMode := 0, dbgSeen := false }) ∧
      ∃ t, exec (.authoriseImage 0 tag (toLE 48 d.toNat)) s = .next t ∧ vaultAnswered 0x15 0 tag 0 [] t ∧ t.ctl.authDigest = some d ∧
        t.modCtl (fun _ => s.ctl) = s) ∧
    (s.ctl.life ≠ .debugUnlocked →
      (∃ t, exec (.debugLock 0 tag []) s = .next t ∧ vaultAnswered 0x13 0 tag 0x07 [] t ∧ t.modCtl (fun _ => s.ctl) = s) ∧
      ∃ t, exec (.authoriseImage 0 tag (toLE 48 d.toNat)) s = .next t ∧ vaultAnswered 0x15 0 tag 0x07 [] t ∧
        t.modCtl (fun _ => s.ctl) = s)) ∧
  (∀ (b rest : List Byte) (c : Byte) (whole : Bool) (s : State),
    (s.ctl.vaultResp = none → b.length = 8 → b.headD 0 = 0x5A → le b 4 2 = 0 → le b 6 2 ≠ (crc16 (b.take 6)).toNat →
      ∃ t, exec (.frameError b) s = .next t ∧ vaultAnswered 0 0 0 0x02 [] t ∧ Pends 8 2 0x01 t ∧ Noted s (t.modCtl fun _ => s.ctl)) ∧
    (s.ctl.vaultResp.isSome = true → c ≠ 0 → ∃ t, exec (.requestFlushed (c :: rest)) s = .next t ∧ Pends 8 2 0x05 t ∧
      t.ctl.vaultResp = s.ctl.vaultResp ∧ Noted s (t.modCtl fun _ => s.ctl)) ∧
    ∃ t, exec (.vaultResponseRead whole) s = .next t ∧ t.modCtl (fun _ => s.ctl) = s ∧
      t.ctl = if whole then { s.ctl with vaultResp := s.ctl.vaultNext.head?, vaultNext := s.ctl.vaultNext.drop 1 } else s.ctl) ∧
  ∀ (m : BitVec 2) (hpa : BitVec 64) (w : Option Sector) (s : State),
    (s.ctl.life = .provisioned → exec (.debugModeSelect m) s = .next s ∧ exec (.debugAccess hpa w) s = .next s) ∧
    (s.ctl.life ≠ .provisioned → m ≠ 3 → ∃ t, exec (.debugModeSelect m) s = .next t ∧ t.cry.dbgMode = m ∧
      (t.modCry fun _ => s.cry) = s) ∧
    (s.ctl.life ≠ .provisioned → s.cry.dbgMode = 0 → ∀ g, decodeHpa s .a hpa.toNat = some g → g.sbox = false → g.inside = true →
      ∃ t, exec (.debugAccess hpa w) s = .next t ∧ t.cry.dbgSeen = true ∧ (rget t 0x300000).getLsbD 13 = true ∧
        t.said = (if w.isSome then s.said else .jtag (BitVec.allOnes 2048) (BitVec.allOnes 64) :: s.said) ∧
        t.pur = s.pur ∧ t.med = s.med ∧ t.led = s.led)

/-- A package chunk reaches memory only after its tag verifies, and an export is one sealed chunk under a fresh
counter (R289,  R290,  R291,  R292,  R293,  R294,  R295,  R296,  R303). For a descriptor that may run
(Safety.descReady) and has no chunk in hand, with an engine free: IMPORT whose header fails a check ends with status
0x07 and that check's code, and with poison from the host 0x09; else the chunk waits in the engine's hold buffer,
nothing of it in the purse. CHUNK_VERIFIED of an engine's oldest chunk whose tag fails ends its descriptor with 0x07
detail 0x07, raises TAG_FAIL and writes nothing; of a verified chunk of one line for an idle line (Safety.idleFor) it
ends with status 0 and result 256, the buffer is freed, and a read by the host then answers the plaintext. EXPORT of
length 0 ends with status 0; from a slot that refuses it with 0x07 and the code; of one blank-mapped idle line it
sends one chunk of 336 bytes to the destination, its header naming the package and its IV the counter, which advances
by one. -/
def Obligations.PackageChunks : Prop :=
  (∀ (q idx : Nat) (x : Queue) (d : Desc) (chunk : List Byte) (s : State), descReady s q idx 4 x d = true →
    (s.mov.chunks.all fun c => !(c.q == q && c.idx == idx)) = true → ∀ e, pkgEngine s = some e → ∀ st, st = headerStatus s x d chunk →
    (st ≠ 0 → ∃ t, exec (.importChunk q idx chunk false) s = .next t ∧ endedAs q d 7 st 0 t ∧ Pends 6 5 0x02 t ∧ t.pur = s.pur ∧
      t.mov.chunks = s.mov.chunks) ∧
    (st = 0 → ∃ t, exec (.importChunk q idx chunk true) s = .next t ∧ endedAs q d 7 9 0 t ∧ t.pur = s.pur ∧ t.mov.chunks = s.mov.chunks) ∧
    (st = 0 → ∃ t c, exec (.importChunk q idx chunk false) s = .next t ∧ c = chunkNew s e q idx d chunk ∧
      t.mov.chunks = s.mov.chunks ++ [c] ∧ c.engine = e ∧ c.stage = .verifying ∧ c.dpa = d.dst + le chunk 24 8 ∧ t.pur = s.pur ∧ t.led = s.led)) ∧
  (∀ (e : Nat) (c : Chunk) (d : Desc) (s : State), s.mov.chunks.find? (fun c => c.engine == e) = some c →
    workOf s c.q c.idx = some d → c.stage = .verifying →
    (c.tagOk = false → ∃ t, exec (.chunkVerified e) s = .next t ∧ endedAs c.q d 7 7 0 t ∧ Pends 6 5 0x01 t ∧ t.pur = s.pur ∧
      t.led = s.led ∧ t.med = s.med ∧ t.mov.chunks = s.mov.chunks.filter fun y => !(y.q == c.q && y.idx == c.idx)) ∧
    ∀ (h : Head) (tag : Nat) (hpa : BitVec 64) (own : Bool) (g : Target) (p : Line), takesReads s h = true →
      decodeHpa s h hpa.toNat = some g → g.sbox = false → g.inside = true → ideBlocks s h = false →
      idleFor s h g.key (g.dpa / 256) = true → s.pur.waitQ = [] → c.tagOk = true → c.escrow = 0 → c.plain = [p] → c.key = g.key →
      c.dpa = g.dpa / 256 * 256 → d.done = 0 → d.discarded = 0 → (policyFlags s c.key).getLsbD 3 = true →
      (∀ x, queueAt s c.q = some x → x.grants.getLsbD c.key = true) →
      ∃ t, exec (.chunkVerified e) s = .next t ∧ endedAs c.q d 0 0 256 t ∧
        (t.mov.chunks.all fun y => !(y.q == c.q && y.idx == c.idx)) = true ∧
        ∃ u, exec (.memRd h tag hpa own) t = .next u ∧ u.said = .memData h tag (lineSector p (g.dpa / 64 % 4)) :: t.said) ∧
  ∀ (q idx : Nat) (x : Queue) (d : Desc) (s : State), descReady s q idx 5 x d = true → ∀ slot, slot = pkgSlotOf s (d.get 36 1) →
    (d.len = 0 → ∃ t, exec (.exportChunk q idx) s = .next t ∧ endedAs q d 0 0 0 t ∧ onlyQueue q s t) ∧
    (d.len ≠ 0 → exportStatus s d ≠ 0 → exportStatus s d ≠ 0x0C → ∃ t, exec (.exportChunk q idx) s = .next t ∧
      endedAs q d 7 (exportStatus s d) 0 t ∧ Pends 6 5 0x02 t ∧ t.pb = s.pb) ∧
    (d.len = 256 → exportStatus s d = 0 → (pkgEngine s).isSome = true → d.srcSet = none →
      ∀ (h : Head), idleFor s h d.srcKey (d.src / 256) = true →
        ∃ t b, exec (.exportChunk q idx) s = .next t ∧ b = exportBytes slot d (exportTally s) (List.replicate 256 0) ∧
          endedAs q d 0 0 336 t ∧ .hostWrite x.head (queuePasid x) (BitVec.ofNat 64 d.dst) b false ∈ t.outbox ∧
          b.take 8 = toLE 4 0x43444E46 ++ [1, BitVec.ofNat 8 (d.get 37 1 % 2), 0, 0] ∧
          (b.drop 8).take 8 = toLE 8 slot.pkgId.toNat ∧
          (b.drop 32).take 12 = toLE 4 slot.fixed.toNat ++ toLE 4 (exportTally s) ++ toLE 4 (d.get 32 4) ∧
          exportTally t = exportTally s + 1)

/-- The pair link comes up step by step, keeps its key and its time, resolves barriers, and declares loss (R395,
R396,  R397,  R404,  R406,  R407,  R410). On a board with a correspondent link: HELLO in its step takes the
correspondent's data, runs the lower version and goes to authentication; PAIR_AUTHENTICATION with a good chain and
lifecycle starts a session key, else fails the step and refuses for 1 s; DEBT_MAP_EXCHANGE takes the peer's map,
joined where neither holds a folio, else waiting with LINK_READY where settlement is not automatic; PAIR_LINK_RETRY 10
ms after a failed step allows step 1. SESSION_KEY_RENEWAL after 2^32 packets changes key and count alone;
PAIR_TAG_FAIL counts, and the third in a row retrains; HEARTBEAT sends one packet after 10 us of silence. PAIR_BARRIER
with nothing unacknowledged resolves at once, with result 1 joined, and the local result when alone. PAIR_LOST after
64 us without a packet leaves the pair solo, empties the mirror buffer and counts the loss. PAIR_TIME_SEND sends the
mint time each millisecond; PAIR_TIME_EXCHANGE records the follower's error. -/
def Obligations.PairLink : Prop :=
  (∀ (x : PeerHello) (s : State), pairMode s = true → s.pair.step = .hello →
    ∃ t, exec (.hello x) s = .next t ∧ t.pair.step = .auth ∧ t.pair.v2 = (decide (2 ≤ x.version) && s.pair.v2InForce) ∧
      t.pair.peerSerial = x.serial ∧ t.pair.peerLife = x.life ∧ t.pair.peerSource = x.source ∧ t.pair.lastRx = s.clock ∧
      (t.pair.v2 = false → t.fe.portB.rate = min s.fe.portB.rate 2) ∧ t.fe.portA = s.fe.portA) ∧
  (∀ (ok : Bool) (s : State), pairMode s = true → s.pair.step = .auth →
    (peerOk ok s = true → ∃ t, exec (.pairAuthentication ok) s = .next t ∧ t = (s.modPair fun p =>
      { p with lastRx := s.clock, step := .exchange, session := p.session + 1, packets := 0, tagFails := 0 })) ∧
    (peerOk ok s = false → ∃ t, exec (.pairAuthentication ok) s = .next t ∧ t.pair.step = .phy ∧ t.pair.stepFailedAt = some s.clock ∧
      t.pair.refusedUntil = 1000000000 + s.clock ∧ t.fe.portB.width = 0 ∧ Pends 1 4 0x03 t)) ∧
  (∀ (x : PeerDebt) (s : State), pairMode s = true → s.led.memActive = true → s.pair.step = .exchange → s.pair.splitCmd = false →
    (debtAll s = [] → x.exact = [] → x.coarse = [] → ∃ t, exec (.debtMapExchange x) s = .next t ∧ t.pair.state = .joined ∧
      t.pair.step = .up ∧ t.pair.peerActive = x.active ∧ t.pair.peerAuth = x.authority ∧ Pends 1 4 0x01 t) ∧
    (debtAll s ≠ [] → s.pair.policy.getLsbD 1 = false → x.auto = false → ∃ t, exec (.debtMapExchange x) s = .next t ∧
      t.pair.state = .solo ∧ t.pair.linkReady = true ∧ t.pair.step = .up ∧ t.pair.debtPeer = (x.exact ++ x.coarse).dedup ∧
      t.pair.debtExact = s.pair.debtExact ∧ t.pair.debtCoarse = s.pair.debtCoarse)) ∧
  (∀ (a : Nat) (s : State), pairMode s = true →
    (s.pair.stepFailedAt = some a → 10000000 + a ≤ s.clock → s.pair.refusedUntil ≤ s.clock →
      exec .pairLinkRetry s = .next (s.modPair fun p => { p with stepFailedAt := none })) ∧
    (s.pair.stepFailedAt = some a → s.clock < 10000000 + a → exec .pairLinkRetry s = .next s) ∧
    (2 ^ 32 ≤ s.pair.packets → exec .sessionKeyRenewal s =
      .next (s.modPair fun p => { p with lastRx := s.clock, session := p.session + 1, packets := 0 })) ∧
    (s.pair.step = .up → (s.pair.tagFails < 2 → exec .pairTagFail s = .next (s.modPair fun p => { p with tagFails := p.tagFails + 1 })) ∧
      (2 ≤ s.pair.tagFails → ∃ t, exec .pairTagFail s = .next t ∧ t.pair.tagFails = 0 ∧ t.fe.portB.rate = 0)) ∧
    (s.pair.step = .up → 10000 + s.pair.lastTx ≤ s.clock → ∃ t, exec .heartbeat s = .next t ∧ t.outbox = .pairPkt 11 0 0 :: s.outbox ∧
      t.pair.lastTx = s.clock ∧ t.pair.packets = s.pair.packets + 1 ∧ t.pair.mirror = s.pair.mirror) ∧
    (s.pair.step = .up → s.tbs.source ≠ 2 → 1000000 + s.pair.lastTime ≤ s.clock → ∃ t, exec .pairTimeSend s = .next t ∧
      t.outbox = .pairPkt 14 s.tbs.mint.toNat 0 :: s.outbox ∧ t.pair.lastTime = s.clock ∧ t.tbs = s.tbs)) ∧
  (∀ (m : BitVec 64) (rt : Nat) (s : State), pairMode s = true → s.pair.step = .up → s.tbs.source = 2 → s.pair.peerSource ≠ 2 →
    ∃ t e, exec (.pairTimeExchange m rt) s = .next t ∧ e = (m + BitVec.ofNat 64 (rt / 2) - s.tbs.mint).toInt ∧
      t.pair.timeErr = BitVec.ofInt 32 (max (-2147483648) (min 2147483647 e)) ∧ t.tbs.mint = s.tbs.mint ∧ t.pair.lastRx = s.clock ∧
      (s.tbs.set = true → s.tbs.resync = false → 1000000 < e.natAbs → Pends 1 6 0x03 t ∨ Pends 1 6 0x02 t) ∧
      (s.tbs.set = true → s.tbs.resync = false → e.natAbs ≤ 5 → t.pair.lockRun = s.pair.lockRun + 1 ∧ t.tbs.slew = e)) ∧
  (∀ (h : Head) (v : BitVec 32) (s : State), domFree s domFAB = true → pairMode s = true → s.pair.mirror = [] →
    (s.pair.state = .joined → s.pair.barrier.all (fun b => !b.refused) = true → ∃ t, exec (.pairBarrier h v) s = .next t ∧
      t.pair.barrier = none ∧ t.pair.barrierDone.toNat = v.toNat % 65536 + 65536 ∧ (v.getLsbD 16 = true → Pends 1 5 0x02 t) ∧
      Noted ((s.modPair fun _ => t.pair).counted 67 1) t) ∧
    (s.pair.state = .solo → ∃ t, exec (.pairBarrier h v) s = .next t ∧ t.pair.barrier = none ∧
      t.pair.barrierDone.toNat = v.toNat % 65536 + 65536 * (if s.pair.policy.getLsbD 0 then 3 else 2) ∧
      (s.pair.policy.getLsbD 0 = true → Pends 1 5 0x03 t))) ∧
  ∀ s : State, pairMode s = true → 64000 + s.pair.lastRx ≤ s.clock →
    (s.pair.state = .joined → s.pair.barrier = none → s.pair.fwds = [] → s.pair.timeLocked = false →
      ∃ t, exec .pairLost s = .next t ∧ t.pair.state = .solo ∧ t.pair.mirror = [] ∧ t.pair.losses = s.pair.losses + 1 ∧
        t.pair.step = .phy ∧ Pends 1 4 0x02 t ∧ (rget t 0x500000).getLsbD 8 = true ∧
        (∀ e ∈ s.pair.mirror, e.sector / 32768 ∈ t.pair.debtExact) ∧ t.pur = s.pur ∧ t.med = s.med) ∧
    (s.pair.state = .solo → s.pair.step ≠ .phy → ∃ t, exec .pairLost s = .next t ∧ t.pair.step = .phy ∧
      t.pair.stepFailedAt = some s.clock ∧ t.pair.linkReady = false ∧ t.modPair (fun _ => s.pair) = s)

/-- Mirror entries are applied and answered once, acknowledged ones leave the buffer, forwards complete, splits part
the pair (R398,  R399,  R400,  R404,  R407,  R408,  R409,  R410,  R412,  R413,  R414,  R415). For a pair that mirrors:
MIRROR_ENTRY to an unprovisioned folio is answered REFUSED and discarded, and to a folio read-only for want of
overdraft likewise; MIRROR_ACK takes the entry out of the buffer and counts it; MIRROR_REFUSED does too, puts the
folio into the debt map and raises REFUSED. During settlement FORWARDED_ACCESS of a read from an unprovisioned folio
is answered poisoned; FORWARD_RESPONSE to a mover's read keeps the data for it and ends the forward;
SETTLEMENT_INSTANT_ZERO of a provisioned folio with contents queues the instant zero and acknowledges, and counts the
folio. START_SETTLEMENT is INVALID_INPUT off a pair or with no link ready, BUSY while settling, and else settles.
SPLIT_PAIR_PLANNED and _IMMEDIATE off a joined pair only record the split; of a joined pair the immediate one, and the
planned one with an empty buffer, declare loss: the pair is solo. -/
def Obligations.PairTraffic : Prop :=
  (∀ (e : MirrorMsg) (s : State), pairMode s = true → s.pair.state = .joined → s.pair.barrier = none → e.settle = false →
    provisioned (ent s (folioOf (e.sector / 4))) = false →
      ∃ t, exec (.mirrorEntry e) s = .next t ∧ t.said = .pairPkt 7 e.seq 0 :: s.said ∧ Pends 5 5 0x01 t ∧ t.pur = s.pur ∧ t.led = s.led) ∧
  (∀ (n : Nat) (e : MirrorEntry) (s : State), s.pair.mirror.find? (fun e => e.seq == n) = some e → s.pair.state = .joined →
    s.pair.barrier = none → s.pair.splitPlanned = false → e.settle = false →
    (∃ t, exec (.mirrorAck n) s = .next t ∧
      Noted ((s.modPair fun p => { p with lastRx := s.clock, mirror := p.mirror.erase e }).counted 65 1) t) ∧
    ∃ t, exec (.mirrorRefused n) s = .next t ∧ t.pair.mirror = s.pair.mirror.erase e ∧ e.sector / 32768 ∈ t.pair.debtExact ∧
      e.sector / 32768 ∈ t.pair.refusedFolios ∧ Pends 1 5 0x01 t ∧ (rget t 0x500000).getLsbD 9 = true ∧ t.pur = s.pur ∧ t.med = s.med) ∧
  (∀ (n : Nat) (s : State), (s.pair.mirror.find? fun e => e.seq == n) = none →
    exec (.mirrorAck n) s = .next s ∧ exec (.mirrorRefused n) s = .next s) ∧
  (∀ (f : ForwardMsg) (s : State), pairMode s = true → s.pair.state = .settling → f.write = false → f.key = 0 →
    (ent s (folioOf (f.sector / 4))) = entry0 →
      ∃ t, exec (.forwardedAccess f) s = .next t ∧ t.said = .pairPkt 9 f.id 0 :: s.said ∧ t.pur = s.pur ∧ t.med = s.med) ∧
  (∀ (n : Nat) (d : Option Sector) (f : Fwd) (s : State), s.pair.fwds.find? (fun f => f.id == n) = some f → f.mover = true →
    f.write = false → ∃ t, exec (.forwardResponse n d) s = .next t ∧ t.pair.fwds = s.pair.fwds.erase f ∧
      t.mov.fwdData = s.mov.fwdData ++ [(f.sector, d)] ∧ t.pur = s.pur) ∧
  (∀ (f : Nat) (s : State), pairMode s = true → s.pair.state = .settling → f ∈ s.pair.peerLeft → (∃ g ∈ s.pair.peerLeft, g ≠ f) →
    provisioned (ent s f) = true → (ent s f).media ≠ noFolio → s.pair.barrier = none →
      ∃ t, exec (.settlementInstantZero f) s = .next t ∧ f ∉ t.pair.peerLeft ∧
        t.said = .pairPkt 6 f 0 :: s.said ∧ t.pair.state = .settling ∧
        t.led.appends = s.led.appends ++ [jRemap f 0 (ent s f).media noFolio ((ent s f).gen + 1).toNat
          (if (ent s f).state = .escrow then .escrow else .blankMapped)]) ∧
  (∀ (p : MbxPort) (b : List Byte) (s : State), yciTaken 0xC602 p b s = true →
    (pairMode s = false → exec (.startSettlement p b) s = .next (answerOnly 0xC602 p b 0x2 [] s)) ∧
    (pairMode s = true → s.pair.state = .settling → exec (.startSettlement p b) s = .next (answerOnly 0xC602 p b 0x6 [] s)) ∧
    (pairMode s = true → s.pair.state = .solo → s.pair.linkReady = false →
      exec (.startSettlement p b) s = .next (answerOnly 0xC602 p b 0x2 [] s)) ∧
    (pairMode s = true → s.pair.state = .solo → s.pair.linkReady = true → s.pair.debtPeer = [] → debtAll s ≠ [] →
      (∀ f ∈ debtAll s, (ent s f).state = .live) →
      ∃ t, exec (.startSettlement p b) s = .next t ∧ t.pair.state = .settling ∧ t.pair.linkReady = false ∧ t.pair.settleBy = some p ∧
        t.pair.settleAt.isSome = true ∧ debtAll t = debtAll s ∧ Pends 1 7 0x01 t)) ∧
  ∀ (p : MbxPort) (b : List Byte) (s : State), pairMode s = true → le b 1 3 = 0 →
    (yciTaken 0xC603 p (withAction 1 b) s = true → s.pair.state = .solo →
      ∃ t, exec (.splitPairPlanned p b) s = .next t ∧ acted p 0xC603 0 [] s (s.modPair fun x => { x with splitCmd := true }) t) ∧
    (yciTaken 0xC603 p (withAction 2 b) s = true → s.pair.state = .solo →
      ∃ t, exec (.splitPairImmediate p b) s = .next t ∧ acted p 0xC603 0 [] s (s.modPair fun x => { x with splitCmd := true }) t) ∧
    (yciTaken 0xC603 p (withAction 1 b) s = true → s.pair.state = .joined → s.pair.mirror = [] → s.pair.barrier = none →
      ∃ t, exec (.splitPairPlanned p b) s = .next t ∧ t.pair.state = .solo ∧ t.pair.losses = s.pair.losses + 1 ∧
        t.pair.splitCmd = true ∧ Pends 1 4 0x02 t ∧ answered p 0xC603 0 [] s t) ∧
    (yciTaken 0xC603 p (withAction 1 b) s = true → s.pair.state = .joined → s.pair.mirror ≠ [] →
      ∃ t, exec (.splitPairPlanned p b) s = .next t ∧
        acted p 0xC603 0 [] s (s.modPair fun x => { x with splitCmd := true, splitPlanned := true }) t) ∧
    (yciTaken 0xC603 p (withAction 2 b) s = true → s.pair.state = .joined →
      ∃ t, exec (.splitPairImmediate p b) s = .next t ∧ t.pair.state = .solo ∧ t.pair.losses = s.pair.losses + 1 ∧
        t.pair.mirror = [] ∧ t.pair.splitCmd = true ∧ Pends 1 4 0x02 t ∧ answered p 0xC603 0 [] s t)

/-- The CXL commands that only read answer SUCCESS with what the device holds, and change nothing else (R46,  R188,
R377,  R424,  R482). For each of these commands that its port takes (Safety.cxlTaken), the answer is SUCCESS and the
state is s but for the answer (GET_EVENT_RECORDS also draws a free value): IDENTIFY gives the vendor and the serial
number, BACKGROUND_OPERATION_STATUS whether a background command runs and its opcode, GET_EVENT_RECORDS the number of
records of the log and the overflow, GET_EVENT_INTERRUPT_POLICY the policy, GET_FW_INFO two slots and the running one,
GET_TIMESTAMP the time since it was set or 0, GET_SUPPORTED_LOGS and GET_LOG the Command Effects Log,
IDENTIFY_MEMORY_DEVICE and GET_PARTITION_INFO the capacity, all of it persistent, GET_HEALTH_INFO the status bits, the
life used, the temperature and the dirty shutdowns, GET_ALERT_CONFIGURATION and GET_SHUTDOWN_STATE what was set,
GET_POISON_LIST the number of the listed lines in the range. The places of the fields are log entry 18's. -/
def Obligations.CxlReadCommands : Prop :=
  (∀ (p : MbxPort) (b : List Byte) (s : State),
    (cxlTaken true 0 false p b s = true →
      (∃ out, exec (.identify p b) s = .next (cxlAnswer 0x0001 p 0 out s) ∧
        out.length = 18 ∧ le out 0 2 = 0x1D9E ∧ le out 8 8 = s.board.serial.toNat) ∧
      (∃ out, exec (.backgroundOperationStatus p b) s = .next (cxlAnswer 0x0002 p 0 out s) ∧
        out.length = 8 ∧ le out 0 1 % 2 = (if (cxlOf s p).bg.isSome then 1 else 0) ∧ le out 2 2 = (cxlOf s p).bgOpcode % 2 ^ 16) ∧
      exec (.getEventInterruptPolicy p b) s = .next (cxlAnswer 0x0102 p 0 (toLE 4 (portOf s (headOf p)).evtPolicy.toNat) s) ∧
      (∃ out, exec (.getFwInfo p b) s = .next (cxlAnswer 0x0200 p 0 out s) ∧
        le out 0 1 = 2 ∧ le out 1 1 % 8 = (s.ctl.fwRunning + 1) % 8) ∧
      (∃ out, exec (.getSupportedLogs p b) s = .next (cxlAnswer 0x0400 p 0 out s) ∧
        le out 0 2 = 1 ∧ le out 8 16 = celUuid ∧ le out 24 4 = celBytes.length) ∧
      (∃ out, exec (.identifyMemoryDevice p b) s = .next (cxlAnswer 0x4000 p 0 out s) ∧
        le out 16 8 = (s.board.folios / 128) % 2 ^ 64 ∧ le out 24 8 = 0 ∧ le out 32 8 = (s.board.folios / 128) % 2 ^ 64) ∧
      (∃ out, exec (.getHealthInfo p b) s = .next (cxlAnswer 0x4200 p 0 out s) ∧
        out.length = 18 ∧ (le out 0 1).testBit 0 = (decide (reserveCount s ≤ floorF s) || decide (0 < readOnlyCount s)) ∧
        (le out 0 1).testBit 1 = (intDegraded s || decide (3 ≤ s.sup.step)) ∧
        (le out 0 1).testBit 2 = (decide (reserveCount s = 0 ∧ s.led.overdraft ≠ []) || s.led.lost) ∧
        le out 1 1 = (if s.led.lost then 3 else if s.led.memActive then 0 else 1) ∧ le out 3 1 = lifeUsed s % 256 ∧
        le out 4 2 = (BitVec.ofInt 16 (deviceTemp s)).toNat ∧ le out 6 4 = tallyVal s 3 % 2 ^ 32) ∧
      (∃ out, exec (.getAlertConfiguration p b) s = .next (cxlAnswer 0x4201 p 0 out s) ∧
        le out 0 1 = (portOf s (headOf p)).alertCfg.toNat % 4 ∧
        le out 3 1 = (portOf s (headOf p)).alertCfg.toNat / 2 ^ 8 % 2 ^ 8)) ∧
    (cxlTaken false 0 false p b s = true →
      exec (.getTimestamp p b) s = .next (cxlAnswer 0x0300 p 0 (toLE 8 (if (portOf s (headOf p)).cxlTime = 0 then 0
        else (portOf s (headOf p)).cxlTime + (s.clock - (portOf s (headOf p)).cxlTimeAt))) s) ∧
      exec (.getPartitionInfo p b) s =
        .next (cxlAnswer 0x4100 p 0 (toLE 8 0 ++ toLE 8 (s.board.folios / 128) ++ toLE 8 0 ++ toLE 8 0) s) ∧
      exec (.getShutdownState p b) s = .next (cxlAnswer 0x4203 p 0 [(portOf s (headOf p)).shutdown] s)) ∧
    (cxlTaken true 24 false p b s = true → exec (.getLog p b) s =
      .next (if le b 0 16 = celUuid ∧ le b 16 4 + le b 20 4 ≤ celBytes.length then
        cxlAnswer 0x0401 p 0 ((celBytes.drop (le b 16 4)).take (le b 20 4)) s else cxlAnswer 0x0401 p 0x2 [] s)) ∧
    (cxlTaken false 16 false p b s = true → ∃ n, n = (s.integ.poisonList.filter fun e =>
        le b 0 8 < e.1 * 256 + 256 && e.1 * 256 < le b 0 8 + 64 * le b 8 8).length ∧
      ∃ out, exec (.getPoisonList p b) s = .next (cxlAnswer 0x4300 p 0 out s) ∧
        le out 10 2 = min 254 n ∧ out.length = 32 + 16 * min 254 n) ∧
    (cxlTaken true 1 false p b s = true →
      (3 < le b 0 1 → exec (.getEventRecords p b) s = .next (cxlAnswer 0x0100 p 0x2 [] s)) ∧
      (le b 0 1 ≤ 3 → ∃ n, n = (tget [] (portOf s (headOf p)).logs (le b 0 1)).length ∧
        ∃ out, exec (.getEventRecords p b) s = .next (cxlAnswer 0x0100 p 0 out (takeFree 1024 s).2) ∧
        (le out 0 1).testBit 0 = decide (0 < tget 0 (portOf s (headOf p)).logLost (le b 0 1)) ∧
        le out 2 2 = min (tget 0 (portOf s (headOf p)).logLost (le b 0 1)) 0xFFFF ∧ le out 20 2 = min n 31)))

/-- The CXL commands that act have their effect, and nothing else (R26,  R27,  R49,  R128,  R195,  R377,  R383,  R384,
R424,  R529). For each of these commands that its port takes (Safety.cxlTaken) with an input in range:
CLEAR_EVENT_RECORDS clears the named records, or all, and the overflow of that log of that head;
SET_EVENT_INTERRUPT_POLICY, SET_TIMESTAMP (the mint time stays), SET_ALERT_CONFIGURATION and SET_SHUTDOWN_STATE hold
the value for that head; a set reserved field (R26) or another value out of range is answered INVALID_INPUT.
SCAN_MEDIA runs in the background, as an assay of every folio that a patrol reads unless its length is 0 (R27), and is
BUSY while one runs; REQUEST_ABORT_BACKGROUND_OP ends a Scan Media that runs, and no other command; SANITIZE leaves an
empty ledger and runs in the background. INJECT_POISON and CLEAR_POISON in a provisioned folio whose key is loaded
answer SUCCESS at once (log entry 104), and are refused elsewhere; on an idle line (Safety.idleFor) the first leaves
the line poisoned and listed, the second leaves it written, not poisoned and not listed. TRANSFER_FW of a full image
by the owner fills the staged slot; ACTIVATE_FW of a staged image that passes its checks runs in the background, and
else answers its refusal. -/
def Obligations.CxlActingCommands : Prop :=
  (∀ (p : MbxPort) (b : List Byte) (s : State),
    (cxlTaken true 6 true p b s = true →
      (le b 0 1 ≤ 3 ∧ le b 1 1 ≤ 1 ∧ le b 3 3 = 0 → ∃ t, exec (.clearEventRecords p b) s = .next t ∧ cxlGave 0x0101 p 0 [] t ∧
        (∀ l, tget [] (portOf t (headOf p)).logs l = if l = le b 0 1 then (tget [] (portOf s (headOf p)).logs l).filter fun r =>
          le b 1 1 = 0 ∧ ∀ i, i < le b 2 1 → le b (6 + 2 * i) 2 ≠ r.handle else tget [] (portOf s (headOf p)).logs l) ∧
        tget 0 (portOf t (headOf p)).logLost (le b 0 1) = 0 ∧
        portOf t (otherHead (headOf p)) = portOf s (otherHead (headOf p)) ∧ t.bare.sansCxl p = s.bare.sansCxl p ∧
        t.regs = s.regs ∧
        t.ev = s.ev) ∧
      (3 < le b 0 1 ∨ 1 < le b 1 1 ∨ le b 3 3 ≠ 0 → exec (.clearEventRecords p b) s = .next (cxlAnswer 0x0101 p 0x2 [] s))) ∧
    (cxlTaken false 4 true p b s = true →
      ((∀ i, i < 4 → le b i 1 / 4 % 4 = 0) → exec (.setEventInterruptPolicy p b) s = .next (cxlAnswer 0x0103 p 0 []
        (modPort (headOf p) (fun x => { x with evtPolicy := BitVec.ofNat 32 (le b 0 4) }) s))) ∧
      ((∃ i, i < 4 ∧ le b i 1 / 4 % 4 ≠ 0) → exec (.setEventInterruptPolicy p b) s = .next (cxlAnswer 0x0103 p 0x2 [] s))) ∧
    (cxlTaken false 8 false p b s = true → exec (.setTimestamp p b) s = .next (cxlAnswer 0x0301 p 0 []
      (modPort (headOf p) (fun x => { x with cxlTime := le b 0 8, cxlTimeAt := s.clock }) s))) ∧
    (cxlTaken false 12 false p b s = true →
      (le b 0 1 < 4 → le b 1 1 < 4 → le b 3 1 = 0 → ∃ t, exec (.setAlertConfiguration p b) s = .next t ∧
        ∃ v, v = (portOf t (headOf p)).alertCfg ∧
        t = cxlAnswer 0x4202 p 0 [] (modPort (headOf p) (fun x => { x with alertCfg := v }) s) ∧
        v.toNat % 4 = [0, 1].foldl (fun m i => m + if ((if (le b 0 1).testBit i then le b 1 1
          else (portOf s (headOf p)).alertCfg.toNat)).testBit i then 2 ^ i else 0) 0 ∧
        v.toNat / 2 ^ 8 % 2 ^ 8 = (if (le b 0 1).testBit 0 then le b 2 1 else (portOf s (headOf p)).alertCfg.toNat / 2 ^ 8 % 2 ^ 8) ∧
        v.toNat / 2 ^ 16 = (if (le b 0 1).testBit 1 then le b 4 2 else (portOf s (headOf p)).alertCfg.toNat / 2 ^ 16 % 2 ^ 16)) ∧
      (4 ≤ le b 0 1 ∨ 4 ≤ le b 1 1 ∨ le b 3 1 ≠ 0 → exec (.setAlertConfiguration p b) s = .next (cxlAnswer 0x4202 p 0x2 [] s))) ∧
    (cxlTaken false 1 false p b s = true → exec (.setShutdownState p b) s = .next (if le b 0 1 < 2 then
      cxlAnswer 0x4204 p 0 [] (modPort (headOf p) (fun x => { x with shutdown := BitVec.ofNat 8 (le b 0 1) }) s)
      else cxlAnswer 0x4204 p 0x2 [] s))) ∧
  (∀ (p : MbxPort) (b : List Byte) (s : State), cxlTaken false 17 true p b s = true →
    (2 ≤ le b 16 1 → exec (.scanMedia p b) s = .next (cxlAnswer 0x4304 p 0x2 [] s)) ∧
    (le b 16 1 < 2 → (cxlOf s p).bg.isSome = true ∨ (le b 8 8 ≠ 0 ∧ s.integ.assay = true) →
      exec (.scanMedia p b) s = .next (cxlAnswer 0x4304 p 0x6 [] s)) ∧
    (le b 16 1 < 2 → (cxlOf s p).bg = none → le b 8 8 = 0 ∨ s.integ.assay = false → ∃ t, exec (.scanMedia p b) s = .next t ∧
      t.integ = { s.integ with assay := decide (le b 8 8 ≠ 0) || s.integ.assay } ∧ cxlStarted 0x4304 p t ∧
      t.med.assays = s.med.assays ++ if le b 8 8 = 0 then []
        else (patrolFolios s).map fun f => { m := (ent s f).media, patrol := false, done := [] })) ∧
  (∀ (p : MbxPort) (b : List Byte) (s : State), cxlTaken false 0 false p b s = true →
    (cxlOf s p).bg = none ∨ (∃ c, (cxlOf s p).bg = some c ∧ c.opcode ≠ 0x4304) →
    exec (.requestAbortBackgroundOp p b) s = .next (cxlAnswer 0x0005 p 0x2 [] s)) ∧
  (∀ (p : MbxPort) (b : List Byte) (s : State), cxlTaken false 0 false p b s = true →
    ∀ c, (cxlOf s p).bg = some c → c.opcode = 0x4304 → ∃ t, exec (.requestAbortBackgroundOp p b) s = .next t ∧
      (cxlOf t p).bg = none ∧ t.integ = { s.integ with assay := decide (c.arg ≠ 0) && s.integ.assay } ∧ (cxlOf t p).ret = 0 ∧
      Pends 8 0 0x01 t) ∧
  (∀ (p : MbxPort) (b : List Byte) (s : State), cxlTaken false 0 false p b s = true →
    ((cxlOf s p).bg.isSome = true → exec (.sanitize p b) s = .next (cxlAnswer 0x4400 p 0x6 [] s)) ∧
    ((cxlOf s p).bg = none → ∃ t, exec (.sanitize p b) s = .next t ∧ t.led.lost = false ∧ t.led.entries = [] ∧
    t.led.extents = [] ∧
      t.esc.sets = [] ∧ t.cry.media = [] ∧ t.led.overdraft = [] ∧ t.integ.poisonList = [] ∧ cxlStarted 0x4400 p t)) ∧
  (∀ (p : MbxPort) (b : List Byte) (h : Head) (s : State),
    (cxlTaken false 8 false p b s = true →
      (poisonTarget s (le b 0 8) = false ∨ domKey s (ent s (le b 0 8 / 2 ^ 21)).key = none →
        exec (.injectPoison p b) s = .next (cxlAnswer 0x4301 p 0xF [] s)) ∧
      (poisonTarget s (le b 0 8) = true → (domKey s (ent s (le b 0 8 / 2 ^ 21)).key).isSome = true →
        ∃ t, exec (.injectPoison p b) s = .next t ∧ cxlGave 0x4301 p 0 [] t) ∧
      (poisonTarget s (le b 0 8) = true → idleFor s h (ent s (le b 0 8 / 2 ^ 21)).key (le b 0 8 / 256) = true → ∃ t,
        exec (.injectPoison p b) s = .next t ∧ cxlGave 0x4301 p 0 [] t ∧ ∃ x, cachedLine t (le b 0 8 / 256) = some x ∧
        x.poison = true ∧
        x.rewritten = 0 ∧ (le b 0 8 / 256, 0) ∈ t.integ.poisonList ∧ t.said = s.said ∧ t.led = s.led)) ∧
    (cxlTaken false 72 false p b s = true →
      (poisonTarget s (le b 0 8) = false ∨ domKey s (ent s (le b 0 8 / 2 ^ 21)).key = none →
        exec (.clearPoison p b) s = .next (cxlAnswer 0x4302 p 0xF [] s)) ∧
      (poisonTarget s (le b 0 8) = true → (domKey s (ent s (le b 0 8 / 2 ^ 21)).key).isSome = true →
        ∃ t, exec (.clearPoison p b) s = .next t ∧ cxlGave 0x4302 p 0 [] t) ∧
      (poisonTarget s (le b 0 8) = true → idleFor s h (ent s (le b 0 8 / 2 ^ 21)).key (le b 0 8 / 256) = true → ∃ t,
        exec (.clearPoison p b) s = .next t ∧ cxlGave 0x4302 p 0 [] t ∧ ∃ x, cachedLine t (le b 0 8 / 256) = some x ∧
        x.poison = false ∧
        (∀ e ∈ t.integ.poisonList, e.1 ≠ le b 0 8 / 256) ∧ t.said = s.said))) ∧
  (∀ (p : MbxPort) (b : List Byte) (s : State), cxlTaken true 128 true p b s = true →
    le b 2 2 ≠ 0 ∨ ((b.take 128).drop 8).all (· == 0) = false → exec (.transferFw p b) s = .next (cxlAnswer 0x0201 p 0x2 [] s)) ∧
  (∀ (p : MbxPort) (b : List Byte) (s : State), cxlTaken true 128 true p b s = true → le b 0 1 = 0 → le b 2 2 = 0 →
    ((b.take 128).drop 8).all (· == 0) = true → fwOwned s p = false → b.length - 128 ≤ 2 ^ 22 → ∃ t, exec (.transferFw p b) s = .next t ∧ t.ctl.fwOwner = some p ∧
      (fwStaged t).data = b.drop 128 ∧ (fwStaged t).state = (if b.length = 128 then .empty_ else .complete) ∧
      t.ctl.fwRunning = s.ctl.fwRunning ∧ fwRun t = fwRun s) ∧
  ∀ (p : MbxPort) (b : List Byte) (s : State), cxlTaken true 2 false p b s = true → le b 0 1 < 2 → le b 1 1 = 2 - s.ctl.fwRunning →
    (anyBg s = true ∨ s.ctl.fwActivating.isSome = true → exec (.activateFw p b) s = .next (cxlAnswer 0x0202 p 0x6 [] s)) ∧
    (anyBg s = false → s.ctl.fwActivating = none →
      (fwCheck s ≠ 0 → exec (.activateFw p b) s = .next (cxlAnswer 0x0202 p (fwCheck s) [] s)) ∧
      (fwCheck s = 0 → ∃ t, exec (.activateFw p b) s = .next t ∧ cxlStarted 0x0202 p t ∧
        (le b 0 1 = 0 → t.ctl.fwRunning = 1 - s.ctl.fwRunning ∧ t.ctl.cpuUp = false ∧ t.ctl.fwActivating = some s.clock) ∧
        (le b 0 1 = 1 → t.ctl.fwRunning = s.ctl.fwRunning ∧ t.ctl.cpuUp = s.ctl.cpuUp ∧ t.ctl.fwAtReset = true)))

/-- The inbound FIFOs keep complete packets and drop broken ones, and the MCTP endpoint answers its control commands
(R373,  R374,  R453). MCTP_PACKET on a powered management port, no packet being in part: without firmware, a packet
that ends well and fits the room joins the FIFO and is counted, one that fails a check or overflows leaves the FIFO as
it was, and bytes before a boundary are held to the room; with firmware, a packet that ends is taken at once. Without
power nothing changes. SET_ENDPOINT_ID with operation 0 or 1 takes an endpoint ID other than 0 and 0xFF and answers
code 0, and else changes nothing; GET_ENDPOINT_ID answers it; GET_MCTP_VERSION_SUPPORT, GET_MESSAGE_TYPE_SUPPORT
(types 0x00, 0x08, 0x7E) and GET_VENDOR_DEFINED_MSG_SUPPORT (vendor 0x1D9E) answer one message each. Without power
nothing answers; without firmware each is answered not ready. The layouts and codes are log entry 37's. -/
def Obligations.MctpEndpoint : Prop :=
  (∀ (f : FifoPort) (bytes : List Byte) (last ok : Bool) (s : State),
    (portPowered true s = false → exec (.mctpPacket f bytes last ok) s = .next s) ∧
    (portPowered true s = true → tget 0 s.ctl.fifoPart (fifoNo f) = 0 → tget 0 s.ctl.fifoPart (fifoNo f + 2) = 0 →
      (fifoOf s f).length ≤ 4096 → ∃ t, exec (.mctpPacket f bytes last ok) s = .next t ∧
        t.modCtl (fun _ => s.ctl) = s ∧ (fifoOf t f).length ≤ 4096 ∧
        (s.ctl.cpuUp = false ∨ s.sup.tripped = true ∨ s.sup.inReset = true →
          (last = true → ok = true → bytes.length ≤ 4096 - (fifoOf s f).length →
            fifoOf t f = fifoOf s f ++ bytes ∧ tget 0 t.ctl.fifoPkts (fifoNo f) = tget 0 s.ctl.fifoPkts (fifoNo f) + 1) ∧
          (last = true → ok = false ∨ 4096 - (fifoOf s f).length < bytes.length →
            fifoOf t f = fifoOf s f ∧ tget 0 t.ctl.fifoPkts (fifoNo f) = tget 0 s.ctl.fifoPkts (fifoNo f)) ∧
          (last = false → fifoOf t f = fifoOf s f ++ bytes.take (4096 - (fifoOf s f).length))) ∧
        (s.ctl.cpuUp = true → s.sup.tripped = false → s.sup.inReset = false → last = true → fifoOf t f = []))) ∧
  (∀ (b : List Byte) (s : State), portPowered true s = false →
    exec (.setEndpointId b) s = .next s ∧ exec (.getEndpointId b) s = .next s ∧ exec (.getMctpVersionSupport b) s = .next s ∧
    exec (.getMessageTypeSupport b) s = .next s ∧ exec (.getVendorDefinedMsgSupport b) s = .next s) ∧
  (∀ (b : List Byte) (s : State), portPowered true s = true → firmwareAway .board s = true →
    exec (.setEndpointId b) s = .next (send (.mctp [0, 1, 4]) s) ∧ exec (.getEndpointId b) s = .next (send (.mctp [0, 2, 4]) s) ∧
    exec (.getMctpVersionSupport b) s = .next (send (.mctp [0, 4, 4]) s) ∧
    exec (.getMessageTypeSupport b) s = .next (send (.mctp [0, 5, 4]) s) ∧
    exec (.getVendorDefinedMsgSupport b) s = .next (send (.mctp [0, 6, 4]) s)) ∧
  ∀ (b : List Byte) (e : Byte) (s : State), portPowered true s = true → firmwareAway .board s = false →
    (e ≠ 0 → e ≠ 0xFF → exec (.setEndpointId [0, e]) s = .next (send (.mctp [0, 1, 0, 0, e, 0]) (s.modCtl fun c => { c with eid := e })) ∧
      exec (.setEndpointId [1, e]) s = .next (send (.mctp [0, 1, 0, 0, e, 0]) (s.modCtl fun c => { c with eid := e }))) ∧
    (e = 0 ∨ e = 0xFF → exec (.setEndpointId [0, e]) s = .next (send (.mctp [0, 1, 2]) s)) ∧
    (b.length ≠ 2 → exec (.setEndpointId b) s = .next (send (.mctp [0, 1, 3]) s)) ∧
    exec (.getEndpointId b) s = .next (send (.mctp [0, 2, 0, s.ctl.eid, 0, 0]) s) ∧
    exec (.getMctpVersionSupport b) s = .next (send (.mctp [0, 4, 0, 1, 0x00, 0xF1, 0xF3, 0xF1]) s) ∧
    exec (.getMessageTypeSupport b) s = .next (send (.mctp [0, 5, 0, 3, 0x00, 0x08, 0x7E]) s) ∧
    (le b 0 1 = 0 → exec (.getVendorDefinedMsgSupport b) s = .next (send (.mctp [0, 6, 0, 0xFF, 0, 0x1D, 0x9E, 0, 0]) s)) ∧
    (le b 0 1 ≠ 0 → exec (.getVendorDefinedMsgSupport b) s = .next (send (.mctp [0, 6, 2]) s))

/-- Firmware is transferred in order by one port, checked before it runs, and the rollback floor only rises (R27,
R376,  R383,  R384,  R385,  R386,  R458,  R459). For a mailbox that takes the command (Safety.yciTaken):
TRANSFER_FIRMWARE is BUSY while another port owns the staged slot; at offset 0, with a length in range, it empties the
slot, takes it and holds the data (complete, FW_STAGED raised, when the data is the whole image; empty where the total
is 0); at a later offset it appends only for the owner at the slot's next byte, and else answers INVALID_INPUT and
keeps the slot. ACTIVATE_FIRMWARE of a staged image is BUSY while a background command or an activation runs, answers
the first failing check's refusal, and else runs in the background: online the processors restart into the other
image, at reset the image waits. FW_ACTIVATED within 2 s ends an activation: the firmware answers, serves the new
versions, and each mailbox's declared version is one that is served or lower. FW_REVERTED after 2 s runs the previous
image again and ends the command with INTERNAL_ERROR; before it, and without an activation, each changes nothing.
FW_SLOT_IDLE_TIMEOUT frees a slot idle for 60 s, and no other. COMMIT_ROLLBACK_FLOOR is INVALID_INPUT within 60 s of
an activation, SUCCESS with no effect at a floor that is already there, and else queues the tally's advance and
answers when it is written. -/
def Obligations.FirmwareCommands : Prop :=
  (∀ (p : MbxPort) (b : List Byte) (s : State), yciTaken 0xCA01 p b s = true →
    (fwOwned s p = true → exec (.transferFirmware p b) s = .next (answerOnly 0xCA01 p b 0x6 [] s)) ∧
    (fwOwned s p = false →
      (2 ^ 22 < le b 4 4 ∨ le b 0 4 % 256 ≠ 0 ∨ le b 4 4 < le b 0 4 + (b.length - 8) ∨
        ((b.length - 8) % 4 ≠ 0 ∧ le b 0 4 + (b.length - 8) ≠ le b 4 4) →
        exec (.transferFirmware p b) s = .next (answerOnly 0xCA01 p b 0x2 [] s)) ∧
      (le b 4 4 ≤ 2 ^ 22 → le b 0 4 % 256 = 0 → le b 0 4 + (b.length - 8) ≤ le b 4 4 →
        (b.length - 8) % 4 = 0 ∨ le b 0 4 + (b.length - 8) = le b 4 4 →
        (le b 0 4 = 0 → ∃ t, exec (.transferFirmware p b) s = .next t ∧ t.ctl.fwOwner = some p ∧ t.ctl.fwRunning = s.ctl.fwRunning ∧
          fwRun t = fwRun s ∧ (fwStaged t).data = b.drop 8 ∧
          (fwStaged t).state = (if le b 4 4 = 0 then .empty_ else if b.length - 8 = le b 4 4 then .complete else .partial_) ∧
          answered p 0xCA01 0 [] s t) ∧
        (le b 0 4 ≠ 0 → (s.ctl.fwOwner ≠ some p ∨ (fwStaged s).state ≠ .partial_ ∨ (fwStaged s).bytes ≠ le b 0 4 ∨
          (fwStaged s).total ≠ le b 4 4) → exec (.transferFirmware p b) s = .next (answerOnly 0xCA01 p b 0x2 [] s)) ∧
        (le b 0 4 ≠ 0 → s.ctl.fwOwner = some p → (fwStaged s).state = .partial_ → (fwStaged s).bytes = le b 0 4 →
          (fwStaged s).total = le b 4 4 → ∃ t, exec (.transferFirmware p b) s = .next t ∧ t.ctl.fwOwner = some p ∧
            (fwStaged t).data = (fwStaged s).data ++ b.drop 8 ∧ fwRun t = fwRun s ∧ t.ctl.fwLast = s.clock ∧
            (fwStaged t).state = (if le b 0 4 + (b.length - 8) = le b 4 4 then .complete else .partial_) ∧
            answered p 0xCA01 0 [] s t)))) ∧
  (∀ (p : MbxPort) (b : List Byte) (s : State), le b 1 3 = 0 →
    (yciTaken 0xCA02 p (withAction 0 b) s = true →
      (anyBg s = true ∨ s.ctl.fwActivating.isSome = true →
        exec (.activateFirmwareOnline p b) s = .next (answerOnly 0xCA02 p (withAction 0 b) 0x6 [] s)) ∧
      (anyBg s = false → s.ctl.fwActivating = none →
        (fwCheck s ≠ 0 → exec (.activateFirmwareOnline p b) s = .next (answerOnly 0xCA02 p (withAction 0 b) (fwCheck s) [] s)) ∧
        (fwCheck s = 0 → ∃ t, exec (.activateFirmwareOnline p b) s = .next t ∧ t.ctl.fwRunning = 1 - s.ctl.fwRunning ∧
          t.ctl.cpuUp = false ∧ t.ctl.fwActivating = some s.clock ∧ (mbxOf t p).bg.map (·.opcode) = some 0xCA02 ∧
          answered p 0xCA02 1 [] s t ∧ t.pur = s.pur ∧ t.led = s.led ∧ t.so = s.so ∧ t.mov = s.mov))) ∧
    (yciTaken 0xCA02 p (withAction 1 b) s = true →
      (anyBg s = true ∨ s.ctl.fwActivating.isSome = true →
        exec (.activateFirmwareAtReset p b) s = .next (answerOnly 0xCA02 p (withAction 1 b) 0x6 [] s)) ∧
      (anyBg s = false → s.ctl.fwActivating = none →
        (fwCheck s ≠ 0 → exec (.activateFirmwareAtReset p b) s = .next (answerOnly 0xCA02 p (withAction 1 b) (fwCheck s) [] s)) ∧
        (fwCheck s = 0 → ∃ t, exec (.activateFirmwareAtReset p b) s = .next t ∧ t.ctl.fwRunning = s.ctl.fwRunning ∧
          t.ctl.fwAtReset = true ∧ t.ctl.cpuUp = s.ctl.cpuUp ∧ (fwStaged t).state = .verified ∧ answered p 0xCA02 1 [] s t)))) ∧
  (∀ (s : State),
    (fwCheck s = 0 → (fwStaged s).forB1 = true ∧ tallyVal s 0 ≤ (fwStaged s).svn.toNat ∧
      ((fwStaged s).sigOk = true ∨ (s.ctl.life = .debugUnlocked ∧ s.ctl.authDigest = some (fwStaged s).digest)))) ∧
  (∀ (v : BitVec 3) (s : State),
    (s.ctl.fwActivating = none → exec (.fwActivated v) s = .next s ∧ exec .fwReverted s = .next s) ∧
    ∀ at_, s.ctl.fwActivating = some at_ →
      (s.clock < 2000000000 + at_ → exec .fwReverted s = .next s ∧ ∃ t, exec (.fwActivated v) s = .next t ∧ t.ctl.fwActivating = none ∧
        t.ctl.versions = v ∧ t.ctl.cpuUp = true ∧ t.ctl.fwRunning = s.ctl.fwRunning ∧ t.ctl.fwOwner = none ∧
        (∀ p, (mbxOf t p).declared ≤ (mbxOf s p).declared ∧ (v.getLsbD (mbxOf t p).declared = true ∨ (mbxOf t p).declared = 0) ∧
          (v.getLsbD (mbxOf s p).declared = true → (mbxOf t p).declared = (mbxOf s p).declared)) ∧
        t.pur = s.pur ∧ t.led = s.led ∧ t.med = s.med) ∧
      (2000000000 + at_ ≤ s.clock → exec (.fwActivated v) s = .next s ∧ ∃ t, exec .fwReverted s = .next t ∧ t.ctl.fwActivating = none ∧
        t.ctl.versions = s.ctl.versions ∧ t.ctl.cpuUp = true ∧ t.ctl.fwRunning = 1 - s.ctl.fwRunning ∧ Pends 8 1 0x03 t ∧
        (∀ p c, (mbxOf s p).bg = some c → c.opcode = 0xCA02 → c.arg = 0 → (mbxOf t p).bg = none ∧
          (mbxOf t p).bgResult = mapRc (mbxOf s p).declared 0x4) ∧ t.pur = s.pur ∧ t.led = s.led)) ∧
  (∀ (s : State), exec .fwSlotIdleTimeout s = .next (if s.ctl.fwOwner.isSome = true ∧ 60000000000 + s.ctl.fwLast ≤ s.clock then
    s.modCtl fun c => { c with fwOwner := none } else s)) ∧
  ∀ (p : MbxPort) (b : List Byte) (s : State), yciTaken 0xCA04 p b s = true →
    ((∃ a, s.ctl.fwActAt = some a ∧ s.clock < 60000000000 + a) →
      exec (.commitRollbackFloor p b) s = .next (answerOnly 0xCA04 p b 0x2 [] s)) ∧
    ((∀ a, s.ctl.fwActAt = some a → 60000000000 + a ≤ s.clock) →
      (tallyRefused s 0 (fwRun s).svn.toNat = true → exec (.commitRollbackFloor p b) s = .next (answerOnly 0xCA04 p b 0 [] s)) ∧
      (tallyRefused s 0 (fwRun s).svn.toNat = false → ∃ t, exec (.commitRollbackFloor p b) s = .next t ∧
        (mbxOf t p).busy.map (·.opcode) = some 0xCA04 ∧ tallyVal t 0 = tallyVal s 0 ∧
        (∃ w ∈ t.pb.writing.toList ++ t.pb.writes, w.addr = 0x110000 + 4 * ((fwRun s).svn.toNat % 512) ∧ le w.data 0 4 = (fwRun s).svn.toNat)))

/-- A link trains to the level that its rate, width and partner give, and a head's reset leaves memory and the other
head alone (R48,  R317,  R334,  R336,  R337,  R353,  R354,  R484,  R532). LINK_UP of a link that is down and may train
(Safety.linkFree): below x8 (Port A) or x4 (Port B) the link stays down with LINK_REFUSED; else its rate, width and
level are those of R334 and R336 (64 GT/s only with a CXL 3.1 partner, no CXL below 16 GT/s or with a PCIe partner),
and the only other effects are reasons: LINK_UP, WIDTH_DEGRADED below full width, MEM_UNAVAILABLE where CXL.mem is not
enabled, the last of these being pending. A link that is up, or that may not train, is left alone. LINK_RECOVERY
changes the rate of a link below CXL 3.1, and no link's width. LINK_DOWN, HOT_RESET and FUNCTION_LEVEL_RESET of a head
whose link is up delete its queues and no other's, return its mailboxes, configuration, MSI-X table, DOE sessions and
per-head registers to their reset values, raise HEAD_RESET, and leave the other head's port and, where no write waits
for room, the till's lines, media, ledger and coins as they were; LINK_DOWN takes the link down, the others keep it; a
Function Level Reset keeps the committed decoders, CXL.mem requests and the CXL.mem IDE stream, the other two drop
them. On a link that is down they do nothing. -/
def Obligations.LinksAndHeadResets : Prop :=
  (∀ (h : Head) (gts lanes : Nat) (x : Partner) (s : State),
    (linkMay h s = false ∨ (portOf s h).rate ≠ 0 → exec (.linkUp h gts lanes x) s = .next s) ∧
    (linkFree h s = true → headPresent s h = true → ∃ t, exec (.linkUp h gts lanes x) s = .next t ∧
      ∃ g, g = (if x = .cxl31 then gts else min gts 32) ∧ ∃ w, w = linkWidth h lanes ∧
        (w = 0 → Noted s t ∧ Pends (headNo h) 0 0x04 t) ∧
        (w ≠ 0 → (portOf t h).rate ≠ 0 ∧ (portOf t h).width = w ∧
          (64 ≤ g → (portOf t h).rate = 3) ∧ (32 ≤ g → g < 64 → (portOf t h).rate = 2) ∧ (16 ≤ g → g < 32 → (portOf t h).rate = 1) ∧
          (g < 16 ∨ x = .pcie → (portOf t h).level = .pcie) ∧ (16 ≤ g → x = .cxl11 → (portOf t h).level = .cxl11) ∧
          (16 ≤ g → x = .cxl20 ∨ (x = .cxl31 ∧ g < 64) → (portOf t h).level = .cxl20) ∧
          (64 ≤ g → x = .cxl31 → (portOf t h).level = .cxl31) ∧
          Noted (modPort h (fun y => { y with rate := (portOf t h).rate, width := w, level := (portOf t h).level }) s) t ∧
          Pends (headNo h) 0 (if memEnabled t h = false then 0x05
            else if (h = .a ∧ w < 3) ∨ (h = .b ∧ w < 2) then 0x03 else 0x01) t))) ∧
  (∀ (lanes : Nat) (x : Partner) (s : State), linkFree .b s = true → pairMode s = true → linkWidth .b lanes ≠ 0 →
    ∃ t, exec (.linkUp .b 32 lanes x) s = .next t ∧ (portOf t .b).rate = 2 ∧ (portOf t .b).width = linkWidth .b lanes ∧
      (portOf t .b).level = .pcie ∧ t.led = s.led ∧ t.med = s.med ∧ t.pur = s.pur) ∧
  (∀ (h : Head) (gts : Nat) (s : State),
    ((portOf s h).rate = 0 ∨ headPresent s h = false → exec (.linkRecovery h gts) s = .next s) ∧
    ((portOf s h).rate ≠ 0 → headPresent s h = true → ∃ t, exec (.linkRecovery h gts) s = .next t ∧
      (portOf t h).width = (portOf s h).width ∧ ((portOf s h).level = .cxl31 → portOf t h = portOf s h) ∧
      ((portOf s h).level ≠ .cxl31 → (portOf t h).rate = (if 32 ≤ gts then 2 else if 16 ≤ gts then 1 else 4) ∧
        (portOf t h).level = (if gts < 16 then .pcie else (portOf s h).level) ∧
        (gts < 16 → (portOf s h).level ≠ .pcie → Pends (headNo h) 0 0x05 t)) ∧
      Noted (modPort h (fun y => { y with rate := (portOf t h).rate, level := (portOf t h).level }) (s.counted (headCtr h + 10) 1)) t)) ∧
  ∀ (h : Head) (s : State),
    ((portOf s h).rate = 0 → exec (.linkDown h) s = .next s ∧ exec (.hotReset h) s = .next s ∧
      exec (.functionLevelReset h) s = .next s) ∧
    ((portOf s h).rate ≠ 0 → headPresent s h = true →
      (∃ t, exec (.linkDown h) s = .next t ∧ headWasReset false h s t ∧ (portOf t h).rate = 0 ∧ (portOf t h).width = 0 ∧
        (portOf t h).level = .pcie) ∧
      (∃ t, exec (.hotReset h) s = .next t ∧ headWasReset false h s t ∧ (portOf t h).rate = (portOf s h).rate ∧
        (portOf t h).level = (portOf s h).level) ∧
      (∃ t, exec (.functionLevelReset h) s = .next t ∧ headWasReset true h s t ∧ (portOf t h).rate = (portOf s h).rate ∧
        (portOf t h).level = (portOf s h).level ∧ (portOf t h).decoders = (portOf s h).decoders ∧
        (portOf t h).ideMem = (portOf s h).ideMem ∧
        (s.pur.waitQ = [] → t.fe.txns.map (fun y => (y.head, y.tag)) = s.fe.txns.map fun y => (y.head, y.tag))))

/-- A decoder is committed just where no cause refuses it, and configuration, DOE, SPDM and IDE requests act on their
head (R341,  R343,  R344,  R345,  R346,  R347,  R348,  R356,  R358,  R359,  R360,  R362). DECODER_COMMIT of a decoder
of a present head whose link is up uncommits the one that stood there; with no cause of R347 against it
(Machine.commitCause, the first that holds) the decoder stands committed at the DPA that R346 gives, its error bit
clear, raising DECODER_COMMIT; with a cause it stays uncommitted, its error bit is set, GC_HDM_ERR holds decoder and
cause, and DECODER_REJECT is pending; the head's other decoders and the other head's stay. Elsewhere it changes
nothing. IDE_SECURE at CXL 3.1 makes that stream secure and leaves the other; at other levels it does nothing;
IDE_KEY_EXPIRY ends that stream. With the link up, a configuration read answers one message: vendor and device ID in
dword 0, class code and revision in dword 2, no BAR above BAR2 in dwords 8 and 9, the subsystem in dword 11; and a
write of those dwords changes nothing; DOE_REQUEST answers one message, its discovery and CDAT as R349 and R360 give
them; SPDM_REQUEST answers one message: an error for a fifth session, a request outside a session, and else the
request's response code, a session opening at FINISH and closing at END_SESSION. With the link down nothing answers.
-/
def Obligations.HostPortRequests : Prop :=
  (∀ (h : Head) (n : Nat) (r : DecoderReq) (s : State),
    (headPresent s h = false ∨ 4 ≤ n ∨ (portOf s h).rate = 0 ∨ s.sup.inReset = true → exec (.decoderCommit h n r) s = .next s) ∧
    (headPresent s h = true → n < 4 → (portOf s h).rate ≠ 0 → s.sup.inReset = false →
      ∃ t, exec (.decoderCommit h n r) s = .next t ∧ (∀ m, m ≠ n → tget none (portOf t h).decoders m = tget none (portOf s h).decoders m) ∧
        (portOf t (otherHead h)).bare = (portOf s (otherHead h)).bare ∧ t.led = s.led ∧ t.pur = s.pur ∧
        ∃ u, u = modPort h (fun p => { p with decoders := tput none p.decoders n none }) s ∧ ∃ d, d = decoderOf u h n r ∧
          (d.dpaBase = prevEnd u h n + r.skip ∧ d.base = r.base ∧ d.size = r.size ∧ d.ways = r.iw ∧ d.gran = r.gran ∧ d.bi = r.bi) ∧
          (commitCause u h n d = 0 → tget none (portOf t h).decoders n = some d ∧ (portOf t h).decoderErr.getLsbD n = false ∧
            Pends (headNo h) 1 0x02 t) ∧
          (commitCause u h n d ≠ 0 → tget none (portOf t h).decoders n = none ∧ (portOf t h).decoderErr.getLsbD n = true ∧
            rval t 0x120 = n + 4 * headNo h + 8 + 16 * commitCause u h n d ∧ Pends (headNo h) 1 0x01 t))) ∧
  (∀ (h : Head) (x : IdeStream) (s : State),
    ((portOf s h).level ≠ .cxl31 ∨ headPresent s h = false → exec (.ideSecure h x) s = .next s) ∧
    ((portOf s h).level = .cxl31 → headPresent s h = true → ∃ t, exec (.ideSecure h x) s = .next t ∧ Pends (headNo h) 2 0x01 t ∧
      Noted (modPort h (fun p => { p with ideIo := p.ideIo || decide (x = .io), ideMem := p.ideMem || decide (x = .mem),
                                          ideMemOnce := p.ideMemOnce || decide (x = .mem) }) s) t) ∧
    exec (.ideKeyExpiry h x) s = .next (modPort h (fun p =>
      { p with ideIo := p.ideIo && decide (x ≠ .io), ideMem := p.ideMem && decide (x ≠ .mem) }) s)) ∧
  (∀ (h : Head) (s : State),
    (functionUp s h = false → (∀ r, exec (.configRequest h r) s = .next s) ∧ (∀ r, exec (.spdmRequest h r) s = .next s) ∧
      ∀ r, exec (.doeRequest h r) s = .next s) ∧
    (functionUp s h = true →
      (∀ n, exec (.configRequest h (.read n)) s = .next (send (.cfg h (cfgRead s h n)) s)) ∧
      (∀ n v, exec (.configRequest h (.write n v)) s = .next (cfgWriteOp h n v s)) ∧
      (cfgRead s h 0).toNat = 0x1D9E + (0x3200 + headNo h) * 2 ^ 16 ∧ (cfgRead s h 2).toNat / 2 ^ 8 = 0x050210 ∧
      cfgRead s h 8 = 0 ∧ cfgRead s h 9 = 0 ∧ (cfgRead s h 11).toNat = subsystemId s ∧
      (∀ n, n = 0 ∨ n = 2 ∨ n = 8 ∨ n = 9 ∨ n = 11 → ∀ v, cfgWriteOp h n v s = s) ∧
      (∀ n, exec (.doeRequest h (.discovery n)) s = .next (send (.doe h (doeDiscovery n)) s)) ∧
      (∀ n, exec (.doeRequest h (.cdat n)) s = .next (send (.doe h (cdatAnswer s n)) s)) ∧
      (∀ n, doeDiscovery n = toLE 2 (if n < 3 then 0x0001 else if n = 3 then 0x1E98 else 0xFFFF) ++
        (if n < 3 then [BitVec.ofNat 8 n, BitVec.ofNat 8 (n + 1)] else if n = 3 then [2, 0] else [0, 0])) ∧
      byteSum (cdatHeader s ++ (cdatEntries s).flatten) = 0 ∧
      (∀ q, exec (.doeRequest h (.spdm q)) s = exec (.spdmRequest h q) s) ∧
      ∀ q, ∃ t, exec (.spdmRequest h q) s = .next t ∧
        ((4 ≤ (portOf s h).sessions ∧ (q = .keyExchange ∨ q = .finish)) ∨
          ((portOf s h).sessions = 0 ∧ (q = .endSession ∨ q = .heartbeat ∨ q = .keyUpdate)) → t = send (.doe h [0x12, 0x7F]) s) ∧
        (spdmRefused (portOf s h) q = false → t.said.drop 1 = s.said ∧
          (∃ m, t.said.head? = some (.doe h m) ∧ m.take 2 = [0x12, BitVec.ofNat 8 (spdmCode q)]) ∧
          (portOf t h).sessions = (if q = .finish then (portOf s h).sessions + 1 else if q = .endSession then (portOf s h).sessions - 1
            else (portOf s h).sessions) ∧
          (portOf t (otherHead h)).bare = (portOf s (otherHead h)).bare ∧ t.led = s.led ∧ t.pur = s.pur)))

/-- A device reset keeps the till and what R486 keeps, and a reinit restarts its own function only (R48,  R327,  R329,
R351,  R353,  R354,  R391,  R476,  R483,  R484,  R485,  R486). A level 3 reset may begin in ON with no power-down,
trip or critical stop (Machine.resetTakes); by CXL_RESET at CXL 2.0 and above, PERST_A_N with one head, either PERST
with both low, MR_RESET, or DEVICE_RESET 1 ms after RESET_DEVICE, it leaves the device as Safety.deviceWasReset says:
dirty till lines, media, ledger entries, mint time, standing orders, escrow sets, package domains, daybook ring,
parameters, RWP and AON, MGT and TBS registers kept; queues, decoders, links, requests, audit counters and debug
unlock gone; memory inactive until recovery. Else these leave the state but for the pin. With two heads the first
PERST resets its head only; PERST_B_N with one head only moves its pin. PERST_RELEASE and MR_N_RELEASE end the reset
once nothing holds it. In ON, outside a reset, the reinit commands of slices, purse, package engines, mailboxes, key
pages and processors each leave that function busy, raise REINIT, and do only that and what R484 names: a slice's
reservations lost, DRAM in self-refresh, the engine's chunks reissued, INTERNAL_ERROR answered, key words zeroed,
firmware away. REINIT_COMPLETE ends it; a first failure is held, a second escalates: level 3, or within 60 s level 4;
package engine and mailbox as R484. Elsewhere they change nothing. -/
def Obligations.ResetsAndReinits : Prop :=
  (∀ (h : Head) (s : State),
    (resetTakes s = true → headPresent s h = true → (portOf s h).level = .cxl31 ∨ (portOf s h).level = .cxl20 →
      ∃ t, exec (.cxlReset h) s = .next t ∧ deviceWasReset 2 false s t) ∧
    ((portOf s h).level = .cxl11 ∨ (portOf s h).level = .pcie ∨ headPresent s h = false ∨ resetTakes s = false →
      exec (.cxlReset h) s = .next s)) ∧
  (∀ (s u : State), u = modPort .a (fun p => { p with perstLow := true }) s →
    (s.fe.portA.perstLow = true → exec .perstAN s = .next s) ∧
    (s.fe.portA.perstLow = false → resetTakes s = false → exec .perstAN s = .next u) ∧
    (s.fe.portA.perstLow = false → resetTakes s = true → twoHeads s = false ∨ s.fe.portB.perstLow = true →
      ∃ t, exec .perstAN s = .next t ∧ deviceWasReset 1 true u t) ∧
    (s.fe.portA.perstLow = false → resetTakes s = true → twoHeads s = true → s.fe.portB.perstLow = false →
      ∃ t, exec .perstAN s = .next t ∧ headWasReset false .a s t ∧ t.fe.portA.perstLow = true ∧ t.fe.portA.rate = 0)) ∧
  (∀ (s u : State), u = modPort .b (fun p => { p with perstLow := true }) s →
    (s.fe.portB.perstLow = true → exec .perstBN s = .next s) ∧
    (s.fe.portB.perstLow = false → twoHeads s = false ∨ resetTakes s = false → exec .perstBN s = .next u) ∧
    (s.fe.portB.perstLow = false → resetTakes s = true → twoHeads s = true → s.fe.portA.perstLow = true →
      ∃ t, exec .perstBN s = .next t ∧ deviceWasReset 1 true u t) ∧
    (s.fe.portB.perstLow = false → resetTakes s = true → twoHeads s = true → s.fe.portA.perstLow = false →
      ∃ t, exec .perstBN s = .next t ∧ headWasReset false .b s t ∧ t.fe.portB.perstLow = true ∧ t.fe.portB.rate = 0)) ∧
  (∀ (h : Head) (s u : State), u = modPort h (fun p => { p with perstLow := false }) s →
    exec (.perstRelease h) s = .next (if s.sup.inReset = true ∧ resetHeld u = false then
      (u.modSup fun x => { x with inReset := false }).modFe fun f => { f with restartAt := s.clock } else u)) ∧
  (∀ (s u : State), u = (s.modSup fun x => { x with mrLow := true }) →
    (resetTakes s = false ∨ s.sup.inReset = true → exec .mrReset s = .next u) ∧
    (resetTakes s = true → s.sup.inReset = false → ∃ t, exec .mrReset s = .next t ∧ deviceWasReset 4 true u t)) ∧
  (∀ (s u : State), u = (s.modSup fun x => { x with mrLow := false }) →
    exec .mrNRelease s = .next (if s.sup.inReset = true ∧ resetHeld u = false then
      (u.modSup fun x => { x with inReset := false }).modFe fun f => { f with restartAt := s.clock } else u)) ∧
  (∀ (s : State), exec (.deviceReset .cxlReset) s = .next s ∧ exec (.deviceReset .escalation) s = .next s ∧
    (s.ctl.rstPend = none → exec (.deviceReset .resetDevice) s = .next s) ∧
    ∀ at_, s.ctl.rstPend = some (at_, false) →
      (s.clock < 1000000 + at_ → exec (.deviceReset .resetDevice) s = .next s) ∧
      (1000000 + at_ ≤ s.clock → resetTakes s = true →
        ∃ t, exec (.deviceReset .resetDevice) s = .next t ∧ deviceWasReset 3 (resetHeld s) s t) ∧
      (1000000 + at_ ≤ s.clock → resetTakes s = false →
        exec (.deviceReset .resetDevice) s = .next (s.modCtl fun c => { c with rstPend := none }))) ∧
  (∀ (s : State) (n : Nat) (p : MbxPort),
    ((8 ≤ n ∨ reinitMay (.slice n) s = false) → exec (.homeSliceReinit n) s = .next s) ∧
    (n < 8 → reinitMay (.slice n) s = true → ∃ t, exec (.homeSliceReinit n) s = .next t ∧ reinitNoted (.slice n) t ∧
      (∀ r ∈ t.mov.resv, sliceOf s r.lineNo = n → r.lost ≠ 0) ∧ t.pur = s.pur ∧ t.led = s.led ∧ t.med = s.med ∧ t.fe.txns = s.fe.txns) ∧
    (reinitMay .purse s = false → exec .purseReinit s = .next s) ∧
    (reinitMay .purse s = true → ∃ t, exec .purseReinit s = .next t ∧ reinitNoted .purse t ∧ t.pur.ready = false ∧
      t.pur.selfRefresh = true ∧ t.pur.slots = s.pur.slots ∧ t.pur.evb = s.pur.evb ∧ t.led = s.led ∧ t.fe.txns = s.fe.txns) ∧
    ((2 ≤ n ∨ reinitMay (.package n) s = false ∨ n ∈ s.mov.pkgOut) → exec (.packageEngineReinit n) s = .next s) ∧
    (n < 2 → reinitMay (.package n) s = true → n ∉ s.mov.pkgOut → ∃ t, exec (.packageEngineReinit n) s = .next t ∧
      reinitNoted (.package n) t ∧ (∀ c ∈ t.mov.chunks, c.engine ≠ n) ∧ (∀ c ∈ s.mov.chunks, c.engine ≠ n → c ∈ t.mov.chunks) ∧
      t.pur = s.pur ∧ t.led = s.led) ∧
    (reinitMay (.mailbox p) s = false → exec (.mailboxReinit p) s = .next s) ∧
    (reinitMay (.mailbox p) s = true → ∃ t, exec (.mailboxReinit p) s = .next t ∧ (mbxOf t p).busy = none ∧
      reinitBusy (.mailbox p) t ∧ (∀ c, (mbxOf s p).busy = some c → answered p c.opcode 0x4 [] s t) ∧ t.pur = s.pur ∧ t.led = s.led) ∧
    ((8 ≤ n ∨ reinitMay (.keyPage n) s = false) → exec (.keyPageReinit n) s = .next s) ∧
    (n < 8 → reinitMay (.keyPage n) s = true → ∃ t, exec (.keyPageReinit n) s = .next t ∧ reinitNoted (.keyPage n) t ∧
      (tget default t.cry.pages n).key = 0 ∧ (∀ m, m ≠ n → tget default t.cry.pages m = tget default s.cry.pages m) ∧
      (s.modCry fun c => { c with pages := [] }).cry = (t.modCry fun c => { c with pages := [] }).cry) ∧
    (reinitMay .cpu s = false → exec .cpuReinit s = .next s) ∧
    (reinitMay .cpu s = true → ∃ t, exec .cpuReinit s = .next t ∧ reinitNoted .cpu t ∧ t.ctl.cpuUp = false ∧ t.pur = s.pur ∧
      t.led.entries = s.led.entries ∧ t.fe.txns = s.fe.txns ∧ t.ctl.fwRunning = s.ctl.fwRunning)) ∧
  ∀ (f : Function) (s : State), (∀ h, f ≠ .head h) → (∀ c, f ≠ .channel c) → (∀ e, f ≠ .engine e) →
    (f ∉ s.sup.fnBusy → ∀ ok, exec (.reinitComplete f ok) s = .next s) ∧
    (f ∈ s.sup.fnBusy → reinitReady f s = true →
      (∃ t, exec (.reinitComplete f true) s = .next t ∧ f ∉ t.sup.fnBusy ∧ (f = .cpu → t.ctl.cpuUp = true) ∧
        (f = .purse → t.pur.ready = true ∧ t.pur.selfRefresh = false)) ∧
      (tget 0 s.sup.fnFails (fnCode f) = 0 → ∃ t, exec (.reinitComplete f false) s = .next t ∧ f ∈ t.sup.fnBusy ∧
        tget 0 t.sup.fnFails (fnCode f) = 1 ∧ s.modSup (fun _ => t.sup) = t) ∧
      (tget 0 s.sup.fnFails (fnCode f) ≠ 0 → ∃ t, exec (.reinitComplete f false) s = .next t ∧ f ∉ t.sup.fnBusy ∧
        (∀ e, f = .package e → e ∈ t.mov.pkgOut ∧ Pends 9 6 0x03 t) ∧ (∀ p, f = .mailbox p → t.ctl.cpuUp = false ∧ .cpu ∈ t.sup.fnBusy) ∧
        ((∀ e, f ≠ .package e) → (∀ p, f ≠ .mailbox p) → resetTakes s = true →
          ((∀ a, s.sup.lastEscalated = some a → 60000000000 + a ≤ s.clock) → t.sup.level = 3 ∧ t.sup.source = 5 ∧
            t.sup.lastEscalated = some s.clock) ∧
          ((∃ a, s.sup.lastEscalated = some a ∧ s.clock < 60000000000 + a) → t.pur.drain = .level4 ∧ t.sup.down = 4 ∧
            t.sup.restartDue = true ∧ Pends 9 6 0x03 t))))

/-- Every power-down stops the engines, drains as its cause gives, and then takes the rails down (R210,  R211,  R462,
R473,  R474,  R475,  R476,  R477,  R481,  R486,  R487,  R533). PF_TRIP in ON with no drain running, POWER_CYCLE 1 ms
after its request, and PB_FORCE_OFF of a press held for LONG_S begin the drain of their cause (Safety.drainBegun:
credits withheld, engines and standing orders stopped, queues gone or stopped), with a restart due for the first two
only; a trip during a critical stop restarts the device once the supply is good, a long press cancels the restart of a
running drain, UP, DOWN or COOL. POWER_FAIL_DRAIN_DONE with nothing left to drain, DRAIN_CUT 150 ms after a forced off
is recognised, and CRITICAL_STOP_TIMEOUT 10 ms into a critical stop end the drain (Safety.drainEnded): the passbook's
record has the duration and whether it completed, the run mark, the mint time and the overdraft are written, the core
is off, and the supervisor leaves ON. PB_N_PRESS in OFF or FAULT powers on, subject to heat and supply; PB_PRESS of a
short press in ON only raises PB_PRESS; MR_RESET is the level 3 reset's. VDD_AON_LOSS takes everything but what R486
keeps: the media lines, the parameters and the fuses stay, every engine, queue, till line and link is gone. Each,
where it is not due, changes nothing. -/
def Obligations.PowerDowns : Prop :=
  (∀ (s : State), s.sup.state = .on →
    (s.sup.tripped = true → exec .pfTrip s = .next (s.modSup fun u => { u with supplyGood := false })) ∧
    (s.sup.tripped = false → ∃ t, exec .pfTrip s = .next t ∧ t.sup.tripped = true ∧ t.sup.supplyGood = false ∧
      t.sup.trips = min 0xFFFF (s.sup.trips + 1) ∧ Pends 9 2 0x01 t ∧
      (s.pur.drain = .none → drainBegun .powerFail 1 true s t ∧ t.fe.txns = [] ∧ (∀ q, queueAt t q = none) ∧ t.pur.waitQ = [] ∧
        t.pair.mirror = [] ∧ (portOf t .a).rate = 0 ∧ (portOf t .b).rate = 0) ∧
      (s.pur.drain = .critical → t.pur.drain = .critical ∧ t.sup.restartDue = true ∧ t.sup.down = s.sup.down) ∧
      (s.pur.drain ≠ .none → t.pur = s.pur ∧ t.mov = s.mov ∧ t.fe.txns = s.fe.txns))) ∧
  (∀ (s : State), s.sup.state = .up → s.sup.tripped = false → ∃ t, exec .pfTrip s = .next t ∧ t.sup.state ≠ .up ∧ t.sup.state ≠ .on ∧
    t.sup.seriesFaults = s.sup.seriesFaults ∧ t.sup.down = 1) ∧
  (∀ (s : State),
    (s.ctl.rstPend = none ∨ (∃ a, s.ctl.rstPend = some a ∧ (a.2 = false ∨ s.clock < 1000000 + a.1)) ∨ cycleTakes s = false →
      exec .powerCycle s = .next s) ∧
    ((∃ a, s.ctl.rstPend = some a ∧ a.2 = true ∧ 1000000 + a.1 ≤ s.clock) → cycleTakes s = true →
      ∃ t, exec .powerCycle s = .next t ∧ drainBegun .level4 3 true s t ∧ (∀ q, queueAt t q = none) ∧ t.ctl.rstPend = none)) ∧
  (∀ (s : State),
    (s.sup.pbPressed = false ∨ s.clock < s.sup.pbAt + longPress s → exec .pbForceOff s = .next s) ∧
    (s.sup.pbPressed = true → s.sup.pbAt + longPress s ≤ s.clock → s.sup.state = .on → s.sup.onAt ≤ s.sup.pbAt →
      ∃ t, exec .pbForceOff s = .next t ∧
        (s.pur.drain = .none → drainBegun .longPress 2 false s t ∧ Pends 9 3 0x02 t) ∧
        (s.pur.drain = .level4 → t.pur.drain = .longPress ∧ t.sup.restartDue = false ∧ t.sup.down = 2) ∧
        (s.pur.drain = .powerFail → t = s.modSup fun u => { u with restartDue := false })) ∧
    (s.sup.pbPressed = true → s.sup.pbAt + longPress s ≤ s.clock →
      (s.sup.state = .up ∨ s.sup.state = .down →
        exec .pbForceOff s = .next (s.modSup fun u => { u with restartDue := false })) ∧
      (s.sup.state = .cool → ∃ t, exec .pbForceOff s = .next t ∧ t.sup.state = .off ∧ t.sup.restartDue = false))) ∧
  (∀ (s : State),
    (drainIdle s = false → exec .powerFailDrainDone s = .next s) ∧
    (drainIdle s = true → s.sup.state = .on → ∃ t, exec .powerFailDrainDone s = .next t ∧
      drainEnded (decide (occupancy s = s.led.overdraft.length)) s t ∧
      (s.pur.drain = .critical → t.sup.thermTripN = true ∧ t.sup.faultN = true)) ∧
    (s.pur.drain ≠ .longPress ∨ s.clock < 150000000 + s.sup.pbAt + longPress s → exec .drainCut s = .next s) ∧
    (s.pur.drain = .longPress → 150000000 + s.sup.pbAt + longPress s ≤ s.clock → s.sup.state = .on →
      ∃ t, exec .drainCut s = .next t ∧ drainEnded false s t) ∧
    (s.sup.critStop = none ∨ s.pur.drain ≠ .critical ∨ (∃ a, s.sup.critStop = some a ∧ s.clock < 10000000 + a) →
      exec .criticalStopTimeout s = .next s) ∧
    (s.pur.drain = .critical → (∃ a, s.sup.critStop = some a ∧ 10000000 + a ≤ s.clock) → s.sup.state = .on →
      ∃ t, exec .criticalStopTimeout s = .next t ∧ drainEnded false s t ∧ t.sup.thermTripN = true)) ∧
  (∀ (s u : State), u = (s.modSup fun x => { x with pbPressed := true, pbAt := s.clock }) →
    (s.sup.pbPressed = true ∨ s.pur.drain = .longPress → exec .pbNPress s = .next s) ∧
    (s.sup.pbPressed = false → s.pur.drain ≠ .longPress →
      (s.sup.state ≠ .off → s.sup.state ≠ .fault → exec .pbNPress s = .next u) ∧
      (s.sup.state = .off ∨ s.sup.state = .fault →
        (tooHot s = true ∨ s.sup.aonOn = false → exec .pbNPress s = .next u) ∧
        (tooHot s = false → s.sup.aonOn = true → ∃ t, exec .pbNPress s = .next t ∧ t.sup.faultN = (s.board.testEn && s.sup.supplyGood) ∧
          (s.sup.supplyGood = false → t.sup.restartDue = true ∧ t.sup.state = s.sup.state) ∧
          (s.sup.supplyGood = true → s.board.testEn = false → t.sup.state = .up ∨ t.sup.state = .on))))) ∧
  (∀ (s : State), (s.sup.pbPressed = false → exec .pbPress s = .next s) ∧
    (s.sup.pbPressed = true → ∃ t, exec .pbPress s = .next t ∧
      Noted (s.modSup fun u => { u with pbPressed := false }) t ∧
      (s.sup.state = .on → s.clock < s.sup.pbAt + longPress s → s.sup.onAt ≤ s.sup.pbAt → Pends 9 3 0x01 t) ∧
      (s.sup.state ≠ .on ∨ s.sup.pbAt + longPress s ≤ s.clock → t = s.modSup fun u => { u with pbPressed := false }))) ∧
  ∀ (s : State), (s.sup.aonOn = false → exec .vddAonLoss s = .next s) ∧
    (s.sup.aonOn = true → ∃ t, exec .vddAonLoss s = .next t ∧ t.sup.state = .off ∧ t.sup.aonOn = false ∧ t.regs = [] ∧
      (∀ q, queueAt t q = none) ∧ t.fe.txns = [] ∧ t.pur.slots = [] ∧ t.pur.evb = [] ∧ t.pur.sbox = [] ∧ t.ev.ring = [] ∧
      t.pb.writes = [] ∧ t.pb.writing = none ∧ t.med.lines = s.med.lines ∧ t.med.ops = [] ∧
      (∀ h, (portOf t h).rate = 0 ∧ (portOf t h).decoders = []) ∧ t.so.entries = [] ∧ t.tbs.mint = State.reset.tbs.mint ∧
      t.board = s.board ∧ t.ctl.fw0 = s.ctl.fw0 ∧ t.ctl.fw1 = s.ctl.fw1 ∧ t.ctl.fwRunning = s.ctl.fwRunning ∧
      t.ctl.life = (if s.ctl.life = .debugUnlocked then .provisioned else s.ctl.life) ∧
      (s.pb.writing = none → t.pb.params = s.pb.params ∧ t.pb.tally = s.pb.tally) ∧
      t.pair.policy = s.pair.policy ∧ t.clock = s.clock ∧ t.pending = s.pending)

/-- Hold-up, budget, strongbox and passbook events have their effect when they are due (R204,  R205,  R206,  R213,
R214,  R449,  R450,  R452,  R453,  R454,  R458,  R462). HOLDUP_OK_FALL lowers both hold-up flags and, in ON with
hold-up declared, forces late acknowledgement and moves the write-back ring behind the express ring, keeping its
order; HOLDUP_OK_RISE notes the rise; HOLDUP_READY in ON after 10 ms of it ends the forcing. TIL_BUDGET_WRITE in a
running register block (Safety.rowAccess) stages its clamped budget, sets the clamp flag where it was clamped, and is
a page write; BUDGET_APPLY puts a staged budget in force at its boundary, and not before. SBOX_CLEAR_DONE ends a clear
that runs; a new size waits until the till holds nothing but the overdraft, and then the purse is empty. RECALL
without VDD_AON starts the supervisor in recall, raises one reason where words were corrected, and loses the
parameters of words that were not; RECALL_COMPLETE leaves recall for FAULT with a lost rail parameter, for OFF without
AUTO_ON or while hot, and else powers on or waits for the supply. PAGE_WRITE_DONE with no write running does nothing;
of a parameter's write it stores the written bytes; of a tally word's first step it puts the advance in force and
queues the second, of the same value. -/
def Obligations.SupplyAndPassbookEvents : Prop :=
  (∀ (s : State), ∃ t, exec .holdupOkFall s = .next t ∧ t.pur.holdupOk = false ∧ t.pur.holdupReady = false ∧
      (s.sup.state ≠ .on ∨ holdupActs s = false → t = s.modPur fun u => { u with holdupOk := false, holdupReady := false }) ∧
      (s.sup.state = .on → holdupActs s = true → t.pur.lateForced = true ∧ t.pur.exRing = s.pur.exRing ++ s.pur.wbRing ∧
        t.pur.wbRing = [] ∧ (rget t 0x80100).getLsbD 17 = true ∧ t.pur.slots = s.pur.slots ∧ t.pur.evb = s.pur.evb ∧ t.led = s.led)) ∧
  (∀ (s : State), exec .holdupOkRise s = .next (if s.pur.holdupOk then s
      else s.modPur fun u => { u with holdupOk := true, holdupSince := s.clock }) ∧
    exec .holdupReady s = .next (if s.pur.holdupOk = true ∧ 10000000 + s.pur.holdupSince ≤ s.clock ∧ s.sup.state = .on then
      s.modPur fun u => { u with holdupReady := true, lateForced := false } else s)) ∧
  (∀ (h : Head) (v : BitVec 32) (s : State), domFree s domPUR = true → ∃ t, exec (.tilBudgetWrite h v) s = .next t ∧
    t.pur.budget = s.pur.budget ∧ t.pur.budgetStaged = some ((clampBudget s (rval t 0x80104 % 128)).1 * 262144) ∧
    rval t 0x80104 % 128 = v.toNat % 128 ∧
    ((clampBudget s (v.toNat % 128)).2 = true → (rget t 0x80100).getLsbD 18 = true) ∧
    (∃ w ∈ t.pb.writing.toList ++ t.pb.writes, w.cls = 6 ∧ w.addr = 8 * 0x18 ∧ le w.data 0 8 % 128 = v.toNat % 128)) ∧
  (∀ (s : State),
    (s.pur.budgetStaged = none ∨ mintNow s < s.pur.budgetAt → exec .budgetApply s = .next s) ∧
    ∀ n, s.pur.budgetStaged = some n → s.pur.budgetAt ≤ mintNow s → ∃ t, exec .budgetApply s = .next t ∧ t.pur.budget = n ∧
      t.pur.budgetStaged = none ∧ (s.pur.waitQ = [] → t.pur.slots = s.pur.slots ∧ t.led = s.led)) ∧
  (∀ (s : State), s.pur.sboxClearing = false → exec .sboxClearDone s = .next s) ∧
  (∀ (s : State), s.pur.sboxClearing = true → ∃ g, g = sboxClamp s (rval s 0x80010 % 64) ∧
    (g = s.pur.sboxAct → exec .sboxClearDone s = .next (s.modPur fun u => { u with sboxClearing := false })) ∧
    (g ≠ s.pur.sboxAct → occupancy s ≠ s.led.overdraft.length → exec .sboxClearDone s = .next s) ∧
    (g ≠ s.pur.sboxAct → occupancy s = s.led.overdraft.length → ∃ t, exec .sboxClearDone s = .next t ∧ t.pur.sboxAct = g ∧
      t.pur.sboxClearing = false ∧ t.pur.slots = [] ∧ t.pur.wbRing = [] ∧ t.pur.exRing = [] ∧ t.led = s.led ∧ t.pur.sbox = s.pur.sbox)) ∧
  (∀ (fs : List RecallFault) (s : State), (s.sup.aonOn = true → exec (.recallRun fs) s = .next s) ∧
    (s.sup.aonOn = false → ∃ t, exec (.recallRun fs) s = .next t ∧ t.sup.aonOn = true ∧ t.sup.state = .recalling ∧ t.pb.recalling = true ∧
      (fs = [] → t.pb.params = s.pb.params ∧ t.pb.writes = s.pb.writes) ∧
      (∀ f ∈ fs, f.fatal = true → f.addr < 0x010000 → (∀ e ∈ t.pb.params, e.1 ≠ f.addr / 8) ∧ f.addr / 8 ∈ t.pb.faultIds) ∧
      ((∃ f ∈ fs, f.fatal = false) → Pends 8 3 0x01 t) ∧
      (fs ≠ [] → (∀ f ∈ fs, f.fatal = true) → Pends 8 3 0x02 t))) ∧
  (∀ (s : State), (s.sup.state ≠ .recalling → exec .recallComplete s = .next s) ∧
    (s.sup.state = .recalling → ∃ t, exec .recallComplete s = .next t ∧ t.pb.recalling = false ∧
      ∃ bad, bad = s.pb.faultIds.any (fun id => 0x100 ≤ id && id < 0x180) ∧
        (bad = true → t.sup.state = .fault ∧ t.sup.faultN = true ∧ t.sup.down = 9) ∧
        (bad = false → (supParam s 0x180).testBit 3 = false ∨ tooHot s = true ∨ s.sup.aonOn = false → t.sup.state = .off) ∧
        (bad = false → (supParam s 0x180).testBit 3 = true → tooHot s = false → s.sup.aonOn = true →
          (s.sup.supplyGood = false → t.sup.state = .off ∧ t.sup.restartDue = true) ∧
          (s.sup.supplyGood = true → s.board.testEn = true → t.sup.state = .fault) ∧
          (s.sup.supplyGood = true → s.board.testEn = false → t.sup.state = .up ∨ t.sup.state = .on)))) ∧
  ∀ (s : State), (s.pb.writing = none → exec .pageWriteDone s = .next s) ∧
    ∀ w, s.pb.writing = some w → ∃ t, exec .pageWriteDone s = .next t ∧
      (w.cls = 6 → w.addr < 0x010000 → w.data.length = 8 → w.principal = 0 →
        (tget (paramDefault (w.addr / 8)) t.pb.params (w.addr / 8)).toNat = le w.data 0 8 ∧
        (∀ k, k ≠ w.addr / 8 → tget (paramDefault k) t.pb.params k = tget (paramDefault k) s.pb.params k) ∧
        t.pb.tally = s.pb.tally ∧ t.led.entries = s.led.entries ∧ (s.pb.writes = [] → t.pb.writing = none)) ∧
      (w.cls = 3 → 0x110000 ≤ w.addr → w.addr < 0x116000 → w.addr % 4096 = 4 * (le w.data 0 4 % 512) → w.principal = 0 →
        tallyVal s ((w.addr - 0x110000) / 4096) < le w.data 0 4 →
        tallyVal t ((w.addr - 0x110000) / 4096) = le w.data 0 4 ∧
        (∃ x ∈ t.pb.writing.toList ++ t.pb.writes, x.cls = 3 ∧ x.addr = w.addr + 2048 ∧ x.data = w.data) ∧
        t.led.entries = s.led.entries ∧ t.pb.params = s.pb.params)

/-- Rails rise, fall and fail in the order of their table, and the sensors set the thermal step in force (R462,  R464,
R465,  R466,  R467,  R468,  R469,  R478,  R479,  R480,  R482,  R508). SCAN_END with VDD_AON, 100 us after the last
scan, takes the 20 codes; in UP a second code at or above GOOD makes a rising rail good, and a good rail below GOOD
less HYST is a sequence fault (Safety.railFault) whose retries are limited by SEQ_CFG; in ON two codes below it lose
the rail and begin a power-fail drain; in DOWN two codes below FALL make a falling rail fallen. RAIL_DELAY_EXPIRY
enables or disables its rail when due, RISE_TIMEOUT is a sequence fault of a rail that rises too long, RAIL_ABANDONED
abandons one that falls too long. SEQ_RETRY ends COOL 100 ms after it began, with the supply good and no sensor hot;
SUPPLY_GOOD starts a power-on that waits; PLL_LOCK_TIMEOUT 10 ms into ON without lock takes the rails down towards
FAULT; RTC_START_TIMEOUT falls back from the crystal and RTC_CRYSTAL_START takes it. SENSOR_CONVERSION of a working
sensor takes the reading; a reading out of range, 1,024 equal codes, or SENSOR_NO_CONVERSION after 4 ms break it
(cause 1, 2, 3), and a broken sensor reads 111 degrees; the step in force is at least the one that the hottest zone
enters, is never left from critical, and the highest temperatures only rise. TEMPERATURE_HISTORY_RECORD stores the
history each hour. Each, where it is not due, changes nothing. -/
def Obligations.RailsAndTemperatures : Prop :=
  (∀ (cs : List (BitVec 12)) (s : State),
    (s.sup.state = .recalling ∨ s.sup.aonOn = false ∨ s.clock < 100000 + s.sup.scanAt → exec (.scanEnd cs) s = .next s) ∧
    (s.sup.state ≠ .recalling → s.sup.aonOn = true → 100000 + s.sup.scanAt ≤ s.clock → ∃ t, exec (.scanEnd cs) s = .next t ∧
      t.sup.scanAt = s.clock ∧ (∀ i, i < 20 → tget 0 t.sup.inputs i = cs.getD i 0) ∧
      ∀ i, i < 16 → railUsed s i = true → ∃ c, c = (cs.getD (railSense s i) 0).toNat ∧
        (s.sup.state = .up → (railAt s i).state = .rising → t.sup.state = .up →
          (railGood s i ≤ c → (railAt s i).goodScans ≠ 0 → (railAt t i).state = .good ∧ (railAt t i).good = true) ∧
          (c < railGood s i → (railAt t i).state = .rising ∧ (railAt t i).goodScans = 0)) ∧
        (s.sup.state = .up → (railAt s i).good = true → (railAt s i).state ≠ .rising → c < railLow s i →
          t.sup.state ≠ .up ∧ t.sup.state ≠ .on) ∧
        (s.sup.state = .on → (railAt s i).good = true → c < railLow s i →
          ((railAt s i).badScans = 0 → (railAt t i).badScans = 1 ∨ t.pur.drain ≠ .none) ∧
          ((railAt s i).badScans = 1 → t.pur.drain ≠ .none)) ∧
        (s.sup.state = .down → (railAt s i).state = .falling → (railAt s i).enabled = false → c < railFall s i → (railAt s i).fallScans ≠ 0 →
          (railAt t i).state = .fallen))) ∧
  (∀ (i : Nat) (s : State),
    ((railAt s i).dueAt = 0 ∨ s.clock < (railAt s i).dueAt - 1 ∨ (s.sup.state ≠ .up ∧ s.sup.state ≠ .down) →
      exec (.railDelayExpiry i) s = .next s) ∧
    ((railAt s i).dueAt ≠ 0 → (railAt s i).dueAt - 1 ≤ s.clock →
      (s.sup.state = .up → exec (.railDelayExpiry i) s = .next (modRail i (fun r =>
        { r with state := .rising, enabled := true, enAt := s.clock, dueAt := 0, goodScans := 0, good := false }) s)) ∧
      (s.sup.state = .down → ∃ t, exec (.railDelayExpiry i) s = .next t ∧
        (t.sup.state = .down → (railAt t i).enabled = false ∧ (railAt t i).good = false ∧
          (railAt t i).state = (if (railAt s i).preFailed then .fallen else .falling)))) ∧
    (s.sup.state ≠ .up ∨ (railAt s i).state ≠ .rising ∨ s.clock < (railAt s i).enAt + railRiseTo s i →
      exec (.riseTimeout i) s = .next s) ∧
    (s.sup.state = .up → (railAt s i).state = .rising → (railAt s i).enAt + railRiseTo s i ≤ s.clock →
      ∃ t, exec (.riseTimeout i) s = .next t ∧ railFault i 1 s t) ∧
    (s.sup.state ≠ .down ∨ (railAt s i).state ≠ .falling ∨ s.clock < (railAt s i).disAt + railFallTo s i →
      exec (.railAbandoned i) s = .next s) ∧
    (s.sup.state = .down → (railAt s i).state = .falling → (railAt s i).enabled = false → (railAt s i).disAt + railFallTo s i ≤ s.clock →
      ∃ t, exec (.railAbandoned i) s = .next t ∧ (railAt t i).state = .abandoned ∧ (railAt t i).abandoned = true ∧
        (railAt t i).cnt.abandons = min 0xFFFF ((railAt s i).cnt.abandons + 1))) ∧
  (∀ (s : State),
    (s.sup.state ≠ .cool ∨ s.clock < 100000000 + s.sup.coolAt ∨ s.sup.supplyGood = false ∨ tooHot s = true →
      exec .seqRetry s = .next s) ∧
    (s.sup.state = .cool → 100000000 + s.sup.coolAt ≤ s.clock → s.sup.supplyGood = true → tooHot s = false → s.board.testEn = false →
      ∃ t, exec .seqRetry s = .next t ∧ (t.sup.state = .up ∨ t.sup.state = .on) ∧ t.sup.level = 4 ∧
        (s.sup.seriesOpen = true → Pends 9 0 0x03 t ∨ t.sup.state = .on)) ∧
    (∃ t, exec .supplyGood s = .next t ∧ t.sup.supplyGood = s.sup.aonOn ∧
      (s.sup.aonOn = false ∨ s.sup.restartDue = false ∨ (s.sup.state ≠ .off ∧ s.sup.state ≠ .fault) ∨ tooHot s = true →
        t = s.modSup fun u => { u with supplyGood := s.sup.aonOn }) ∧
      (s.sup.aonOn = true → s.sup.restartDue = true → s.sup.state = .off ∨ s.sup.state = .fault → tooHot s = false →
        t.sup.state = .up ∨ t.sup.state = .on ∨ (s.board.testEn = true ∧ t.sup.state = .fault))) ∧
    (s.sup.state ≠ .on ∨ s.sup.pllLocked = true ∨ s.clock < 10000000 + s.sup.onAt → exec .pllLockTimeout s = .next s) ∧
    (s.sup.state = .on → s.sup.pllLocked = false → 10000000 + s.sup.onAt ≤ s.clock → ∃ t, exec .pllLockTimeout s = .next t ∧
      (t.sup.state = .down ∨ t.sup.state = .fault) ∧ t.sup.down = 9 ∧ (t.sup.state = .down → t.sup.faultDue = true)) ∧
    exec .rtcStartTimeout s = .next (if 1000000000 + s.sup.aonAt ≤ s.clock then s.modSup fun u => { u with rtcCrystal := false } else s) ∧
    exec .rtcCrystalStart s = .next (s.modSup fun u => { u with rtcCrystal := true })) ∧
  (∀ (n : Nat) (raw : Int) (s : State),
    (12 ≤ n ∨ s.sup.aonOn = false → exec (.sensorConversion n raw) s = .next s) ∧
    (n < 12 → s.sup.aonOn = true → ∃ t, exec (.sensorConversion n raw) s = .next t ∧
      (sensorAt t n).raw = raw ∧ (sensorAt t n).last = s.clock ∧
      (∀ m, m ≠ n → sensorAt t m = sensorAt s m) ∧
      ((sensorAt s n).cause ≠ 0 → (sensorAt t n).cause = (sensorAt s n).cause) ∧
      ((sensorAt s n).cause = 0 → raw < -160 ∨ 600 < raw → (sensorAt t n).cause = 1) ∧
      ((sensorAt s n).cause = 0 → -160 ≤ raw → raw ≤ 600 → (sensorAt s n).raw ≠ raw →
        (sensorAt t n).cause = 0 ∧ (sensorAt t n).temp = raw) ∧
      ((sensorAt s n).cause = 0 → -160 ≤ raw → raw ≤ 600 → (sensorAt s n).raw = raw → 1023 ≤ (sensorAt s n).same →
        (sensorAt t n).cause = 2) ∧
      s.sup.sinceOn ≤ t.sup.sinceOn ∧ s.sup.ever ≤ t.sup.ever ∧ deviceTemp t ≤ t.sup.ever ∧
      (s.sup.step = 5 → t.sup.step = 5) ∧ stepOf (hottest t) ≤ t.sup.step ∧ t.led.entries = s.led.entries)) ∧
  (∀ (n : Nat) (s : State),
    (12 ≤ n ∨ s.sup.aonOn = false ∨ (sensorAt s n).cause ≠ 0 ∨ s.clock < 4000000 + (sensorAt s n).last →
      exec (.sensorNoConversion n) s = .next s) ∧
    (n < 12 → s.sup.aonOn = true → (sensorAt s n).cause = 0 → 4000000 + (sensorAt s n).last ≤ s.clock →
      ∃ t, exec (.sensorNoConversion n) s = .next t ∧ (sensorAt t n).cause = 3 ∧ sensorRead (sensorAt t n) = 444 ∧
        4 ≤ t.sup.step ∧ (∀ m, m ≠ n → sensorAt t m = sensorAt s m) ∧
        (s.sup.state = .on → s.pur.drain = .none → hottest s < 460 → (∃ m, m < 12 ∧ m ≠ n ∧ m / 3 = n / 3 ∧ (sensorAt s m).cause ≠ 0 ∧
          ∀ k, k < 12 → k ≠ n → k ≠ m → k / 3 = n / 3 → (sensorAt s k).cause = 0) → t.pur.drain = .critical ∧ t.sup.down = 6))) ∧
  ∀ (s : State), (s.clock < 3600000000000 + s.sup.histAt ∨ s.sup.aonOn = false → exec .temperatureHistoryRecord s = .next s) ∧
    (3600000000000 + s.sup.histAt ≤ s.clock → s.sup.aonOn = true → ∃ t, exec .temperatureHistoryRecord s = .next t ∧
      t.sup.histAt = s.clock ∧ t.sup.histStored = [s.sup.ever, (s.sup.min95 : Int), (s.sup.min105 : Int)] ∧
      t.pb.writing.toList ++ t.pb.writes ≠ [] ∧ t.led = s.led ∧ t.pur = s.pur)

/-- Every command completes: exec answers a next state for every command and state, and takes no time
(01_architecture.md,  20_command_index.md). For every command of the table and every state, exec answers a next state:
no command faults and none is refused, whatever its operands. That state has the same waiting commands, the same board
and the same clock, and keeps the board one that a board can be (Safety.boardOk). What each command does is stated of
it in the other statements; an event command whose condition does not hold answers the state unchanged (the model's
choice, log entry 3). -/
def Obligations.EveryCommandCompletes : Prop :=
  ∀ (i : Instr) (s : State), ∃ t, exec i s = .next t ∧ t.pending = s.pending ∧ t.board = s.board ∧ t.clock = s.clock ∧
    (boardOk s = true → boardOk t = true)

/-- The events of media, ledger, orders, mover, pair, heads and supply each have their main effect when they are due
(R86,  R104,  R112,  R180,  R181,  R225,  R239,  R287,  R410,  R463,  R475,  R486). Each event whose condition holds
answers a next state with its main effect, whatever else is so. DIE_TIME_UPDATE: the time is noted; BANK_RESUME: the
bank runs; SUSP_FAULT: the bank is stuck; ALERT: the alert is raised. MIGRATION_START: the destination's ALLOC is
queued; MIGRATION_SOURCE_QUIESCED: the migration ends; FOLIO_BLANK_DONE: BLANKED is queued. A firing of NOP, MARKER,
AUDIT, QUIET_BEGIN, QUIET_END, QUEUE_START, PREFETCH or RELEASE is taken from the firings that wait. SET_CLOSED,
SET_ABANDONED and RELEASE_DONE: the set is closed, or free. GATE_OPEN, GATE_CLOSE: the gate moves; ENGINE_REINIT and
its end: the engine is in, and out of, its reinit. HELLO, heartbeat, time, retry, MIRROR_ACK, MIRROR_REFUSED, forwards
and PAIR_LOST: the pair's step, buffer or state. LINK_DOWN: no rate; CXL_RESET, PERST, MR_RESET: the device is in its
reset, or restarts. PF_TRIP, POWER_CYCLE, PB_FORCE_OFF: the power-down is noted. VDD_AON_LOSS: off. Hold-up, budget,
recall, supply, rail and sensor events: their flag, state or code. -/
def Obligations.DueEventsHaveTheirEffect : Prop :=
  (∀ s : State, s.tbs.mint.toNat / 2 ^ 32 ≠ s.med.timeUpdated →
    ∃ t, exec .dieTimeUpdate s = .next t ∧ t.med.timeUpdated = s.tbs.mint.toNat / 2 ^ 32) ∧
  (∀ (c pos bank : Nat) (s : State), (bankAt s c pos bank).suspended = true →
    (readQueued s c pos bank = false → (bankAt s c pos bank).lastRead + 64 ≤ s.clock →
      ∃ t, exec (.bankResume c pos bank) s = .next t ∧ (bankAt t c pos bank).suspended = false) ∧
    (c < 32 → s.board.m2.getLsbD c = true → ∃ t, exec (.suspFault c pos bank) s = .next t ∧ (bankAt t c pos bank).stuck = true)) ∧
  (∀ (c pos op : Nat) (cause : BitVec 5) (s : State), c < 32 → populated s c = true → cause ≠ 0 → cause &&& 0b10011 = 0 →
    ∃ t, exec (.alert c pos cause op) s = .next t ∧ Pends 3 c 0x01 t) ∧
  (∀ (g : Mig) (m : Nat) (s : State), migRunning s < 16 → s.sup.tripped = false → s.led.lost = false → s.led.recovered = true →
    s.ctl.cpuUp = true → migNext s = some g → (ent s g.folio).media ≠ noFolio → allocFor (decide (3 ≤ g.prio)) s = some m →
    ∃ t, exec .migrationStart s = .next t ∧ t.led.appends = s.led.appends ++ [jAlloc m 3 g.folio (wearOf s m).wear]) ∧
  (∀ (f : Nat) (g : Mig) (s : State), s.led.migs.find? (fun g => g.folio == f) = some g → s.sup.tripped = false →
    migHeld s f = false → migIdle s f = true → (pendingAllocs s).contains g.dst = false → g.phase = .holding → g.todo = [] →
    migPending s f = [] → ∃ t, exec (.migrationPassDone f) s = .next t ∧
      t.led.migs = s.led.migs.map fun x => if x.folio = f then { x with phase := .remap } else x) ∧
  (∀ (f : Nat) (g : Mig) (s : State), s.led.migs.find? (fun g => g.folio == f && g.phase == .quiesce) = some g →
    quiesced s g.src = true → s.sup.tripped = false → ∃ t, exec (.migrationSourceQuiesced f) s = .next t ∧
      t.led.migs = s.led.migs.filter fun x => !(x.folio == f && x.phase == .quiesce)) ∧
  (∀ (m : Nat) (s : State), (∃ x ∈ s.led.blanking, x.1 = m) → s.sup.tripped = false → quiesced s m = true → blankOver s m = true →
    (∀ r ∈ s.led.appends, ¬ (r.type = 0x03 ∧ r.a = m)) → ∃ t, exec (.folioBlankDone m) s = .next t ∧
      t.led.appends = s.led.appends ++ [jBlanked m (satAdd 0x7FFFF (wearOf s m).wear 1)]) ∧
  (∀ (i a : Nat) (c : Instr) (f : Firing) (s : State),
    (a, c) ∈ [(0, Instr.nopOrder i), (2, .releaseOrder i), (3, .queueStart i), (4, .quietBegin i), (5, .quietEnd i), (6, .auditOrder i),
      (7, .markerOrder i)] → s.sup.tripped = false → s.so.halted = false → firingNow s i a = some f →
    ∃ t, exec c s = .next t ∧ t.so.firings = s.so.firings.erase f) ∧
  (∀ (i : Nat) (f : Firing) (s : State), s.sup.tripped = false → s.so.halted = false → firingNow s i 1 = some f →
    (∀ g ∈ s.so.firings, soAction g.bytes = 2 → f.frame < g.frame) →
    ∃ t, exec (.prefetchOrder i) s = .next t ∧ t.so.firings = s.so.firings.erase f) ∧
  (∀ (c : Nat) (s : State), tget 0 s.so.quiet c ≠ 0 → tget 0 s.so.quiet c - 1 + quietMax s ≤ s.tbs.mint.toNat →
    ∃ t, exec (.quietForcedEnd c) s = .next t ∧ tget 0 t.so.quiet c = 0) ∧
  (∀ (n : Nat) (s : State),
    ((escSet s n).state = .closing → (escSet s n).abandon = false → (escSet s n).pendingWrites = 0 → 2 ≤ (escSet s n).items →
      attrsPending s n = false → ∃ t, exec (.setClosed n) s = .next t ∧ (escSet t n).state = .closed) ∧
    ((escSet s n).abandon = true → (escSet s n).oldFolios = [] → (escSet s n).members = [] →
      ∃ t, exec (.setAbandoned n) s = .next t ∧ escSet t n = default) ∧
    ((escSet s n).state = .settling → (escSet s n).oldFolios = [] → ∃ t, exec (.releaseDone n) s = .next t ∧ escSet t n = default)) ∧
  (∀ (h : Head) (q : Nat) (x : Queue) (s : State), q < 4096 → domFree s domFAB = true → pageOf s h q = some x →
    (∃ t, exec (.gateOpen h q) s = .next t ∧ queueAt t q = some { x with gateClosed := false }) ∧
    ∃ t, exec (.gateClose h q) s = .next t ∧ queueAt t q = some { x with gateClosed := true }) ∧
  (∀ (e : Nat) (s : State), e < 8 →
    ((engineAt s e).inService = true → (engineAt s e).reinit = false →
      ∃ t, exec (.engineReinit e true) s = .next t ∧ (engineAt t e).reinit = true) ∧
    ((engineAt s e).reinit = true → ∃ t, exec (.engineReinitDone e true) s = .next t ∧ (engineAt t e).reinit = false)) ∧
  (∀ (x : PeerHello) (a : Nat) (s : State), pairMode s = true →
    (s.pair.step = .hello → ∃ t, exec (.hello x) s = .next t ∧ t.pair.step = .auth ∧ t.pair.peerSerial = x.serial) ∧
    (s.pair.stepFailedAt = some a → 10000000 + a ≤ s.clock → s.pair.refusedUntil ≤ s.clock →
      ∃ t, exec .pairLinkRetry s = .next t ∧ t.pair.stepFailedAt = none) ∧
    (s.pair.step = .up → 10000 + s.pair.lastTx ≤ s.clock → ∃ t, exec .heartbeat s = .next t ∧ t.pair.lastTx = s.clock) ∧
    (s.pair.step = .up → s.tbs.source ≠ 2 → 1000000 + s.pair.lastTime ≤ s.clock →
      ∃ t, exec .pairTimeSend s = .next t ∧ t.pair.lastTime = s.clock) ∧
    (64000 + s.pair.lastRx ≤ s.clock → s.pair.state = .joined → s.pair.barrier = none → s.pair.fwds = [] →
      s.pair.timeLocked = false → ∃ t, exec .pairLost s = .next t ∧ t.pair.state = .solo)) ∧
  (∀ (n : Nat) (e : MirrorEntry) (s : State), s.pair.mirror.find? (fun e => e.seq == n) = some e → s.pair.state = .joined →
    s.pair.barrier = none → s.pair.splitPlanned = false → e.settle = false →
    (∃ t, exec (.mirrorAck n) s = .next t ∧ t.pair.mirror = s.pair.mirror.erase e) ∧
    ∃ t, exec (.mirrorRefused n) s = .next t ∧ t.pair.mirror = s.pair.mirror.erase e) ∧
  (∀ (n : Nat) (d : Option Sector) (f : Fwd) (s : State), s.pair.fwds.find? (fun f => f.id == n) = some f → f.mover = true →
    f.write = false → ∃ t, exec (.forwardResponse n d) s = .next t ∧ t.pair.fwds = s.pair.fwds.erase f) ∧
  (∀ (h : Head) (s : State), headPresent s h = true → (portOf s h).rate ≠ 0 →
    (∃ t, exec (.linkDown h) s = .next t ∧ (portOf t h).rate = 0) ∧
    (∃ t, exec (.hotReset h) s = .next t ∧ (portOf t h).rate = (portOf s h).rate) ∧
    (∃ t, exec (.functionLevelReset h) s = .next t ∧ (portOf t h).decoders = (portOf s h).decoders) ∧
    ∀ gts, (portOf s h).level = .cxl31 → ∃ t, exec (.linkRecovery h gts) s = .next t ∧ portOf t h = portOf s h) ∧
  (∀ (h : Head) (s : State), resetTakes s = true → headPresent s h = true →
    (portOf s h).level = .cxl31 ∨ (portOf s h).level = .cxl20 → ∃ t, exec (.cxlReset h) s = .next t ∧ t.sup.level = 3 ∧ t.sup.source = 2) ∧
  (∀ s : State, resetTakes s = true → twoHeads s = false →
    (s.fe.portA.perstLow = false → ∃ t, exec .perstAN s = .next t ∧ t.sup.level = 3 ∧ t.fe.portA.perstLow = true) ∧
    (s.fe.portB.perstLow = false → ∃ t, exec .perstBN s = .next t ∧ t.fe.portB.perstLow = true) ∧
    (s.sup.inReset = false → ∃ t, exec .mrReset s = .next t ∧ t.sup.level = 3 ∧ t.sup.mrLow = true)) ∧
  (∀ (h : Head) (s : State), (∃ t, exec (.perstRelease h) s = .next t ∧ (portOf t h).perstLow = false) ∧
    ∃ t, exec .mrNRelease s = .next t ∧ t.sup.mrLow = false) ∧
  (∀ s : State, s.sup.state = .on →
    (s.sup.tripped = false → ∃ t, exec .pfTrip s = .next t ∧ t.sup.tripped = true ∧ Pends 9 2 0x01 t) ∧
    (s.sup.pbPressed = true → s.sup.pbAt + longPress s ≤ s.clock → s.sup.onAt ≤ s.sup.pbAt → s.pur.drain = .none →
      ∃ t, exec .pbForceOff s = .next t ∧ t.pur.drain = .longPress ∧ t.sup.down = 2) ∧
    ((∃ a, s.ctl.rstPend = some a ∧ a.2 = true ∧ 1000000 + a.1 ≤ s.clock) → cycleTakes s = true →
      ∃ t, exec .powerCycle s = .next t ∧ t.pur.drain = .level4 ∧ t.sup.down = 3) ∧
    (s.sup.pbPressed = true → ∃ t, exec .pbPress s = .next t ∧ t.sup.pbPressed = false) ∧
    (s.sup.pbPressed = false → s.pur.drain ≠ .longPress → ∃ t, exec .pbNPress s = .next t ∧ t.sup.pbPressed = true) ∧
    (s.sup.aonOn = true → ∃ t, exec .vddAonLoss s = .next t ∧ t.sup.state = .off ∧ t.sup.aonOn = false)) ∧
  (∀ s : State, (∃ t, exec .holdupOkFall s = .next t ∧ t.pur.holdupOk = false ∧ t.pur.holdupReady = false) ∧
    (∃ t, exec .holdupOkRise s = .next t ∧ t.pur.holdupOk = true) ∧
    (s.pur.holdupOk = true → 10000000 + s.pur.holdupSince ≤ s.clock → s.sup.state = .on →
      ∃ t, exec .holdupReady s = .next t ∧ t.pur.holdupReady = true ∧ t.pur.lateForced = false) ∧
    (∀ n, s.pur.budgetStaged = some n → s.pur.budgetAt ≤ mintNow s → ∃ t, exec .budgetApply s = .next t ∧ t.pur.budget = n)) ∧
  (∀ (fs : List RecallFault) (s : State), s.sup.aonOn = false →
    ∃ t, exec (.recallRun fs) s = .next t ∧ t.sup.aonOn = true ∧ t.sup.state = .recalling) ∧
  (∀ s : State, (s.sup.state = .recalling → ∃ t, exec .recallComplete s = .next t ∧ t.pb.recalling = false) ∧
    (∃ t, exec .supplyGood s = .next t ∧ t.sup.supplyGood = s.sup.aonOn) ∧
    (1000000000 + s.sup.aonAt ≤ s.clock → ∃ t, exec .rtcStartTimeout s = .next t ∧ t.sup.rtcCrystal = false) ∧
    (∃ t, exec .rtcCrystalStart s = .next t ∧ t.sup.rtcCrystal = true) ∧
    (3600000000000 + s.sup.histAt ≤ s.clock → s.sup.aonOn = true →
      ∃ t, exec .temperatureHistoryRecord s = .next t ∧ t.sup.histAt = s.clock)) ∧
  ∀ (i n : Nat) (raw : Int) (s : State),
    (s.sup.state = .up → (railAt s i).dueAt ≠ 0 → (railAt s i).dueAt - 1 ≤ s.clock →
      ∃ t, exec (.railDelayExpiry i) s = .next t ∧ (railAt t i).state = .rising) ∧
    (s.sup.state = .down → (railAt s i).state = .falling → (railAt s i).enabled = false →
      (railAt s i).disAt + railFallTo s i ≤ s.clock → ∃ t, exec (.railAbandoned i) s = .next t ∧ (railAt t i).abandoned = true) ∧
    (n < 12 → s.sup.aonOn = true → (∃ t, exec (.sensorConversion n raw) s = .next t ∧ (sensorAt t n).raw = raw) ∧
      ((sensorAt s n).cause = 0 → 4000000 + (sensorAt s n).last ≤ s.clock →
        ∃ t, exec (.sensorNoConversion n) s = .next t ∧ (sensorAt t n).cause = 3))
end

