-- ==== Sys2Proof/Laws/State.lean ====
section
/-! SUPPORT. One lemma per field per update of State, so that no later proof unfolds a record update. -/

namespace Sys2Proof.Machine

@[simp] theorem State.modBoard_board (s : State) (f : Board → Board) : (s.modBoard f).board = f s.board := rfl
@[simp] theorem State.modBoard_isl (s : State) (f : Board → Board) : (s.modBoard f).isl = s.isl := rfl
@[simp] theorem State.modBoard_med (s : State) (f : Board → Board) : (s.modBoard f).med = s.med := rfl
@[simp] theorem State.modBoard_integ (s : State) (f : Board → Board) : (s.modBoard f).integ = s.integ := rfl
@[simp] theorem State.modBoard_led (s : State) (f : Board → Board) : (s.modBoard f).led = s.led := rfl
@[simp] theorem State.modBoard_pur (s : State) (f : Board → Board) : (s.modBoard f).pur = s.pur := rfl
@[simp] theorem State.modBoard_tbs (s : State) (f : Board → Board) : (s.modBoard f).tbs = s.tbs := rfl
@[simp] theorem State.modBoard_so (s : State) (f : Board → Board) : (s.modBoard f).so = s.so := rfl
@[simp] theorem State.modBoard_esc (s : State) (f : Board → Board) : (s.modBoard f).esc = s.esc := rfl
@[simp] theorem State.modBoard_cry (s : State) (f : Board → Board) : (s.modBoard f).cry = s.cry := rfl
@[simp] theorem State.modBoard_mov (s : State) (f : Board → Board) : (s.modBoard f).mov = s.mov := rfl
@[simp] theorem State.modBoard_fe (s : State) (f : Board → Board) : (s.modBoard f).fe = s.fe := rfl
@[simp] theorem State.modBoard_ctl (s : State) (f : Board → Board) : (s.modBoard f).ctl = s.ctl := rfl
@[simp] theorem State.modBoard_pair (s : State) (f : Board → Board) : (s.modBoard f).pair = s.pair := rfl
@[simp] theorem State.modBoard_ev (s : State) (f : Board → Board) : (s.modBoard f).ev = s.ev := rfl
@[simp] theorem State.modBoard_pb (s : State) (f : Board → Board) : (s.modBoard f).pb = s.pb := rfl
@[simp] theorem State.modBoard_sup (s : State) (f : Board → Board) : (s.modBoard f).sup = s.sup := rfl
@[simp] theorem State.modBoard_clock (s : State) (f : Board → Board) : (s.modBoard f).clock = s.clock := rfl
@[simp] theorem State.modBoard_regs (s : State) (f : Board → Board) : (s.modBoard f).regs = s.regs := rfl
@[simp] theorem State.modBoard_outbox (s : State) (f : Board → Board) : (s.modBoard f).outbox = s.outbox := rfl
@[simp] theorem State.modBoard_pending (s : State) (f : Board → Board) : (s.modBoard f).pending = s.pending := rfl
@[simp] theorem State.modIsl_board (s : State) (f : Islands → Islands) : (s.modIsl f).board = s.board := rfl
@[simp] theorem State.modIsl_isl (s : State) (f : Islands → Islands) : (s.modIsl f).isl = f s.isl := rfl
@[simp] theorem State.modIsl_med (s : State) (f : Islands → Islands) : (s.modIsl f).med = s.med := rfl
@[simp] theorem State.modIsl_integ (s : State) (f : Islands → Islands) : (s.modIsl f).integ = s.integ := rfl
@[simp] theorem State.modIsl_led (s : State) (f : Islands → Islands) : (s.modIsl f).led = s.led := rfl
@[simp] theorem State.modIsl_pur (s : State) (f : Islands → Islands) : (s.modIsl f).pur = s.pur := rfl
@[simp] theorem State.modIsl_tbs (s : State) (f : Islands → Islands) : (s.modIsl f).tbs = s.tbs := rfl
@[simp] theorem State.modIsl_so (s : State) (f : Islands → Islands) : (s.modIsl f).so = s.so := rfl
@[simp] theorem State.modIsl_esc (s : State) (f : Islands → Islands) : (s.modIsl f).esc = s.esc := rfl
@[simp] theorem State.modIsl_cry (s : State) (f : Islands → Islands) : (s.modIsl f).cry = s.cry := rfl
@[simp] theorem State.modIsl_mov (s : State) (f : Islands → Islands) : (s.modIsl f).mov = s.mov := rfl
@[simp] theorem State.modIsl_fe (s : State) (f : Islands → Islands) : (s.modIsl f).fe = s.fe := rfl
@[simp] theorem State.modIsl_ctl (s : State) (f : Islands → Islands) : (s.modIsl f).ctl = s.ctl := rfl
@[simp] theorem State.modIsl_pair (s : State) (f : Islands → Islands) : (s.modIsl f).pair = s.pair := rfl
@[simp] theorem State.modIsl_ev (s : State) (f : Islands → Islands) : (s.modIsl f).ev = s.ev := rfl
@[simp] theorem State.modIsl_pb (s : State) (f : Islands → Islands) : (s.modIsl f).pb = s.pb := rfl
@[simp] theorem State.modIsl_sup (s : State) (f : Islands → Islands) : (s.modIsl f).sup = s.sup := rfl
@[simp] theorem State.modIsl_clock (s : State) (f : Islands → Islands) : (s.modIsl f).clock = s.clock := rfl
@[simp] theorem State.modIsl_regs (s : State) (f : Islands → Islands) : (s.modIsl f).regs = s.regs := rfl
@[simp] theorem State.modIsl_outbox (s : State) (f : Islands → Islands) : (s.modIsl f).outbox = s.outbox := rfl
@[simp] theorem State.modIsl_pending (s : State) (f : Islands → Islands) : (s.modIsl f).pending = s.pending := rfl
@[simp] theorem State.modMed_board (s : State) (f : Media → Media) : (s.modMed f).board = s.board := rfl
@[simp] theorem State.modMed_isl (s : State) (f : Media → Media) : (s.modMed f).isl = s.isl := rfl
@[simp] theorem State.modMed_med (s : State) (f : Media → Media) : (s.modMed f).med = f s.med := rfl
@[simp] theorem State.modMed_integ (s : State) (f : Media → Media) : (s.modMed f).integ = s.integ := rfl
@[simp] theorem State.modMed_led (s : State) (f : Media → Media) : (s.modMed f).led = s.led := rfl
@[simp] theorem State.modMed_pur (s : State) (f : Media → Media) : (s.modMed f).pur = s.pur := rfl
@[simp] theorem State.modMed_tbs (s : State) (f : Media → Media) : (s.modMed f).tbs = s.tbs := rfl
@[simp] theorem State.modMed_so (s : State) (f : Media → Media) : (s.modMed f).so = s.so := rfl
@[simp] theorem State.modMed_esc (s : State) (f : Media → Media) : (s.modMed f).esc = s.esc := rfl
@[simp] theorem State.modMed_cry (s : State) (f : Media → Media) : (s.modMed f).cry = s.cry := rfl
@[simp] theorem State.modMed_mov (s : State) (f : Media → Media) : (s.modMed f).mov = s.mov := rfl
@[simp] theorem State.modMed_fe (s : State) (f : Media → Media) : (s.modMed f).fe = s.fe := rfl
@[simp] theorem State.modMed_ctl (s : State) (f : Media → Media) : (s.modMed f).ctl = s.ctl := rfl
@[simp] theorem State.modMed_pair (s : State) (f : Media → Media) : (s.modMed f).pair = s.pair := rfl
@[simp] theorem State.modMed_ev (s : State) (f : Media → Media) : (s.modMed f).ev = s.ev := rfl
@[simp] theorem State.modMed_pb (s : State) (f : Media → Media) : (s.modMed f).pb = s.pb := rfl
@[simp] theorem State.modMed_sup (s : State) (f : Media → Media) : (s.modMed f).sup = s.sup := rfl
@[simp] theorem State.modMed_clock (s : State) (f : Media → Media) : (s.modMed f).clock = s.clock := rfl
@[simp] theorem State.modMed_regs (s : State) (f : Media → Media) : (s.modMed f).regs = s.regs := rfl
@[simp] theorem State.modMed_outbox (s : State) (f : Media → Media) : (s.modMed f).outbox = s.outbox := rfl
@[simp] theorem State.modMed_pending (s : State) (f : Media → Media) : (s.modMed f).pending = s.pending := rfl
@[simp] theorem State.modInteg_board (s : State) (f : Integrity → Integrity) : (s.modInteg f).board = s.board := rfl
@[simp] theorem State.modInteg_isl (s : State) (f : Integrity → Integrity) : (s.modInteg f).isl = s.isl := rfl
@[simp] theorem State.modInteg_med (s : State) (f : Integrity → Integrity) : (s.modInteg f).med = s.med := rfl
@[simp] theorem State.modInteg_integ (s : State) (f : Integrity → Integrity) : (s.modInteg f).integ = f s.integ := rfl
@[simp] theorem State.modInteg_led (s : State) (f : Integrity → Integrity) : (s.modInteg f).led = s.led := rfl
@[simp] theorem State.modInteg_pur (s : State) (f : Integrity → Integrity) : (s.modInteg f).pur = s.pur := rfl
@[simp] theorem State.modInteg_tbs (s : State) (f : Integrity → Integrity) : (s.modInteg f).tbs = s.tbs := rfl
@[simp] theorem State.modInteg_so (s : State) (f : Integrity → Integrity) : (s.modInteg f).so = s.so := rfl
@[simp] theorem State.modInteg_esc (s : State) (f : Integrity → Integrity) : (s.modInteg f).esc = s.esc := rfl
@[simp] theorem State.modInteg_cry (s : State) (f : Integrity → Integrity) : (s.modInteg f).cry = s.cry := rfl
@[simp] theorem State.modInteg_mov (s : State) (f : Integrity → Integrity) : (s.modInteg f).mov = s.mov := rfl
@[simp] theorem State.modInteg_fe (s : State) (f : Integrity → Integrity) : (s.modInteg f).fe = s.fe := rfl
@[simp] theorem State.modInteg_ctl (s : State) (f : Integrity → Integrity) : (s.modInteg f).ctl = s.ctl := rfl
@[simp] theorem State.modInteg_pair (s : State) (f : Integrity → Integrity) : (s.modInteg f).pair = s.pair := rfl
@[simp] theorem State.modInteg_ev (s : State) (f : Integrity → Integrity) : (s.modInteg f).ev = s.ev := rfl
@[simp] theorem State.modInteg_pb (s : State) (f : Integrity → Integrity) : (s.modInteg f).pb = s.pb := rfl
@[simp] theorem State.modInteg_sup (s : State) (f : Integrity → Integrity) : (s.modInteg f).sup = s.sup := rfl
@[simp] theorem State.modInteg_clock (s : State) (f : Integrity → Integrity) : (s.modInteg f).clock = s.clock := rfl
@[simp] theorem State.modInteg_regs (s : State) (f : Integrity → Integrity) : (s.modInteg f).regs = s.regs := rfl
@[simp] theorem State.modInteg_outbox (s : State) (f : Integrity → Integrity) : (s.modInteg f).outbox = s.outbox := rfl
@[simp] theorem State.modInteg_pending (s : State) (f : Integrity → Integrity) : (s.modInteg f).pending = s.pending := rfl
@[simp] theorem State.modLed_board (s : State) (f : Ledger → Ledger) : (s.modLed f).board = s.board := rfl
@[simp] theorem State.modLed_isl (s : State) (f : Ledger → Ledger) : (s.modLed f).isl = s.isl := rfl
@[simp] theorem State.modLed_med (s : State) (f : Ledger → Ledger) : (s.modLed f).med = s.med := rfl
@[simp] theorem State.modLed_integ (s : State) (f : Ledger → Ledger) : (s.modLed f).integ = s.integ := rfl
@[simp] theorem State.modLed_led (s : State) (f : Ledger → Ledger) : (s.modLed f).led = f s.led := rfl
@[simp] theorem State.modLed_pur (s : State) (f : Ledger → Ledger) : (s.modLed f).pur = s.pur := rfl
@[simp] theorem State.modLed_tbs (s : State) (f : Ledger → Ledger) : (s.modLed f).tbs = s.tbs := rfl
@[simp] theorem State.modLed_so (s : State) (f : Ledger → Ledger) : (s.modLed f).so = s.so := rfl
@[simp] theorem State.modLed_esc (s : State) (f : Ledger → Ledger) : (s.modLed f).esc = s.esc := rfl
@[simp] theorem State.modLed_cry (s : State) (f : Ledger → Ledger) : (s.modLed f).cry = s.cry := rfl
@[simp] theorem State.modLed_mov (s : State) (f : Ledger → Ledger) : (s.modLed f).mov = s.mov := rfl
@[simp] theorem State.modLed_fe (s : State) (f : Ledger → Ledger) : (s.modLed f).fe = s.fe := rfl
@[simp] theorem State.modLed_ctl (s : State) (f : Ledger → Ledger) : (s.modLed f).ctl = s.ctl := rfl
@[simp] theorem State.modLed_pair (s : State) (f : Ledger → Ledger) : (s.modLed f).pair = s.pair := rfl
@[simp] theorem State.modLed_ev (s : State) (f : Ledger → Ledger) : (s.modLed f).ev = s.ev := rfl
@[simp] theorem State.modLed_pb (s : State) (f : Ledger → Ledger) : (s.modLed f).pb = s.pb := rfl
@[simp] theorem State.modLed_sup (s : State) (f : Ledger → Ledger) : (s.modLed f).sup = s.sup := rfl
@[simp] theorem State.modLed_clock (s : State) (f : Ledger → Ledger) : (s.modLed f).clock = s.clock := rfl
@[simp] theorem State.modLed_regs (s : State) (f : Ledger → Ledger) : (s.modLed f).regs = s.regs := rfl
@[simp] theorem State.modLed_outbox (s : State) (f : Ledger → Ledger) : (s.modLed f).outbox = s.outbox := rfl
@[simp] theorem State.modLed_pending (s : State) (f : Ledger → Ledger) : (s.modLed f).pending = s.pending := rfl
@[simp] theorem State.modPur_board (s : State) (f : Purse → Purse) : (s.modPur f).board = s.board := rfl
@[simp] theorem State.modPur_isl (s : State) (f : Purse → Purse) : (s.modPur f).isl = s.isl := rfl
@[simp] theorem State.modPur_med (s : State) (f : Purse → Purse) : (s.modPur f).med = s.med := rfl
@[simp] theorem State.modPur_integ (s : State) (f : Purse → Purse) : (s.modPur f).integ = s.integ := rfl
@[simp] theorem State.modPur_led (s : State) (f : Purse → Purse) : (s.modPur f).led = s.led := rfl
@[simp] theorem State.modPur_pur (s : State) (f : Purse → Purse) : (s.modPur f).pur = f s.pur := rfl
@[simp] theorem State.modPur_tbs (s : State) (f : Purse → Purse) : (s.modPur f).tbs = s.tbs := rfl
@[simp] theorem State.modPur_so (s : State) (f : Purse → Purse) : (s.modPur f).so = s.so := rfl
@[simp] theorem State.modPur_esc (s : State) (f : Purse → Purse) : (s.modPur f).esc = s.esc := rfl
@[simp] theorem State.modPur_cry (s : State) (f : Purse → Purse) : (s.modPur f).cry = s.cry := rfl
@[simp] theorem State.modPur_mov (s : State) (f : Purse → Purse) : (s.modPur f).mov = s.mov := rfl
@[simp] theorem State.modPur_fe (s : State) (f : Purse → Purse) : (s.modPur f).fe = s.fe := rfl
@[simp] theorem State.modPur_ctl (s : State) (f : Purse → Purse) : (s.modPur f).ctl = s.ctl := rfl
@[simp] theorem State.modPur_pair (s : State) (f : Purse → Purse) : (s.modPur f).pair = s.pair := rfl
@[simp] theorem State.modPur_ev (s : State) (f : Purse → Purse) : (s.modPur f).ev = s.ev := rfl
@[simp] theorem State.modPur_pb (s : State) (f : Purse → Purse) : (s.modPur f).pb = s.pb := rfl
@[simp] theorem State.modPur_sup (s : State) (f : Purse → Purse) : (s.modPur f).sup = s.sup := rfl
@[simp] theorem State.modPur_clock (s : State) (f : Purse → Purse) : (s.modPur f).clock = s.clock := rfl
@[simp] theorem State.modPur_regs (s : State) (f : Purse → Purse) : (s.modPur f).regs = s.regs := rfl
@[simp] theorem State.modPur_outbox (s : State) (f : Purse → Purse) : (s.modPur f).outbox = s.outbox := rfl
@[simp] theorem State.modPur_pending (s : State) (f : Purse → Purse) : (s.modPur f).pending = s.pending := rfl
@[simp] theorem State.modTbs_board (s : State) (f : Timebase → Timebase) : (s.modTbs f).board = s.board := rfl
@[simp] theorem State.modTbs_isl (s : State) (f : Timebase → Timebase) : (s.modTbs f).isl = s.isl := rfl
@[simp] theorem State.modTbs_med (s : State) (f : Timebase → Timebase) : (s.modTbs f).med = s.med := rfl
@[simp] theorem State.modTbs_integ (s : State) (f : Timebase → Timebase) : (s.modTbs f).integ = s.integ := rfl
@[simp] theorem State.modTbs_led (s : State) (f : Timebase → Timebase) : (s.modTbs f).led = s.led := rfl
@[simp] theorem State.modTbs_pur (s : State) (f : Timebase → Timebase) : (s.modTbs f).pur = s.pur := rfl
@[simp] theorem State.modTbs_tbs (s : State) (f : Timebase → Timebase) : (s.modTbs f).tbs = f s.tbs := rfl
@[simp] theorem State.modTbs_so (s : State) (f : Timebase → Timebase) : (s.modTbs f).so = s.so := rfl
@[simp] theorem State.modTbs_esc (s : State) (f : Timebase → Timebase) : (s.modTbs f).esc = s.esc := rfl
@[simp] theorem State.modTbs_cry (s : State) (f : Timebase → Timebase) : (s.modTbs f).cry = s.cry := rfl
@[simp] theorem State.modTbs_mov (s : State) (f : Timebase → Timebase) : (s.modTbs f).mov = s.mov := rfl
@[simp] theorem State.modTbs_fe (s : State) (f : Timebase → Timebase) : (s.modTbs f).fe = s.fe := rfl
@[simp] theorem State.modTbs_ctl (s : State) (f : Timebase → Timebase) : (s.modTbs f).ctl = s.ctl := rfl
@[simp] theorem State.modTbs_pair (s : State) (f : Timebase → Timebase) : (s.modTbs f).pair = s.pair := rfl
@[simp] theorem State.modTbs_ev (s : State) (f : Timebase → Timebase) : (s.modTbs f).ev = s.ev := rfl
@[simp] theorem State.modTbs_pb (s : State) (f : Timebase → Timebase) : (s.modTbs f).pb = s.pb := rfl
@[simp] theorem State.modTbs_sup (s : State) (f : Timebase → Timebase) : (s.modTbs f).sup = s.sup := rfl
@[simp] theorem State.modTbs_clock (s : State) (f : Timebase → Timebase) : (s.modTbs f).clock = s.clock := rfl
@[simp] theorem State.modTbs_regs (s : State) (f : Timebase → Timebase) : (s.modTbs f).regs = s.regs := rfl
@[simp] theorem State.modTbs_outbox (s : State) (f : Timebase → Timebase) : (s.modTbs f).outbox = s.outbox := rfl
@[simp] theorem State.modTbs_pending (s : State) (f : Timebase → Timebase) : (s.modTbs f).pending = s.pending := rfl
@[simp] theorem State.modSo_board (s : State) (f : Orders → Orders) : (s.modSo f).board = s.board := rfl
@[simp] theorem State.modSo_isl (s : State) (f : Orders → Orders) : (s.modSo f).isl = s.isl := rfl
@[simp] theorem State.modSo_med (s : State) (f : Orders → Orders) : (s.modSo f).med = s.med := rfl
@[simp] theorem State.modSo_integ (s : State) (f : Orders → Orders) : (s.modSo f).integ = s.integ := rfl
@[simp] theorem State.modSo_led (s : State) (f : Orders → Orders) : (s.modSo f).led = s.led := rfl
@[simp] theorem State.modSo_pur (s : State) (f : Orders → Orders) : (s.modSo f).pur = s.pur := rfl
@[simp] theorem State.modSo_tbs (s : State) (f : Orders → Orders) : (s.modSo f).tbs = s.tbs := rfl
@[simp] theorem State.modSo_so (s : State) (f : Orders → Orders) : (s.modSo f).so = f s.so := rfl
@[simp] theorem State.modSo_esc (s : State) (f : Orders → Orders) : (s.modSo f).esc = s.esc := rfl
@[simp] theorem State.modSo_cry (s : State) (f : Orders → Orders) : (s.modSo f).cry = s.cry := rfl
@[simp] theorem State.modSo_mov (s : State) (f : Orders → Orders) : (s.modSo f).mov = s.mov := rfl
@[simp] theorem State.modSo_fe (s : State) (f : Orders → Orders) : (s.modSo f).fe = s.fe := rfl
@[simp] theorem State.modSo_ctl (s : State) (f : Orders → Orders) : (s.modSo f).ctl = s.ctl := rfl
@[simp] theorem State.modSo_pair (s : State) (f : Orders → Orders) : (s.modSo f).pair = s.pair := rfl
@[simp] theorem State.modSo_ev (s : State) (f : Orders → Orders) : (s.modSo f).ev = s.ev := rfl
@[simp] theorem State.modSo_pb (s : State) (f : Orders → Orders) : (s.modSo f).pb = s.pb := rfl
@[simp] theorem State.modSo_sup (s : State) (f : Orders → Orders) : (s.modSo f).sup = s.sup := rfl
@[simp] theorem State.modSo_clock (s : State) (f : Orders → Orders) : (s.modSo f).clock = s.clock := rfl
@[simp] theorem State.modSo_regs (s : State) (f : Orders → Orders) : (s.modSo f).regs = s.regs := rfl
@[simp] theorem State.modSo_outbox (s : State) (f : Orders → Orders) : (s.modSo f).outbox = s.outbox := rfl
@[simp] theorem State.modSo_pending (s : State) (f : Orders → Orders) : (s.modSo f).pending = s.pending := rfl
@[simp] theorem State.modEsc_board (s : State) (f : Escrows → Escrows) : (s.modEsc f).board = s.board := rfl
@[simp] theorem State.modEsc_isl (s : State) (f : Escrows → Escrows) : (s.modEsc f).isl = s.isl := rfl
@[simp] theorem State.modEsc_med (s : State) (f : Escrows → Escrows) : (s.modEsc f).med = s.med := rfl
@[simp] theorem State.modEsc_integ (s : State) (f : Escrows → Escrows) : (s.modEsc f).integ = s.integ := rfl
@[simp] theorem State.modEsc_led (s : State) (f : Escrows → Escrows) : (s.modEsc f).led = s.led := rfl
@[simp] theorem State.modEsc_pur (s : State) (f : Escrows → Escrows) : (s.modEsc f).pur = s.pur := rfl
@[simp] theorem State.modEsc_tbs (s : State) (f : Escrows → Escrows) : (s.modEsc f).tbs = s.tbs := rfl
@[simp] theorem State.modEsc_so (s : State) (f : Escrows → Escrows) : (s.modEsc f).so = s.so := rfl
@[simp] theorem State.modEsc_esc (s : State) (f : Escrows → Escrows) : (s.modEsc f).esc = f s.esc := rfl
@[simp] theorem State.modEsc_cry (s : State) (f : Escrows → Escrows) : (s.modEsc f).cry = s.cry := rfl
@[simp] theorem State.modEsc_mov (s : State) (f : Escrows → Escrows) : (s.modEsc f).mov = s.mov := rfl
@[simp] theorem State.modEsc_fe (s : State) (f : Escrows → Escrows) : (s.modEsc f).fe = s.fe := rfl
@[simp] theorem State.modEsc_ctl (s : State) (f : Escrows → Escrows) : (s.modEsc f).ctl = s.ctl := rfl
@[simp] theorem State.modEsc_pair (s : State) (f : Escrows → Escrows) : (s.modEsc f).pair = s.pair := rfl
@[simp] theorem State.modEsc_ev (s : State) (f : Escrows → Escrows) : (s.modEsc f).ev = s.ev := rfl
@[simp] theorem State.modEsc_pb (s : State) (f : Escrows → Escrows) : (s.modEsc f).pb = s.pb := rfl
@[simp] theorem State.modEsc_sup (s : State) (f : Escrows → Escrows) : (s.modEsc f).sup = s.sup := rfl
@[simp] theorem State.modEsc_clock (s : State) (f : Escrows → Escrows) : (s.modEsc f).clock = s.clock := rfl
@[simp] theorem State.modEsc_regs (s : State) (f : Escrows → Escrows) : (s.modEsc f).regs = s.regs := rfl
@[simp] theorem State.modEsc_outbox (s : State) (f : Escrows → Escrows) : (s.modEsc f).outbox = s.outbox := rfl
@[simp] theorem State.modEsc_pending (s : State) (f : Escrows → Escrows) : (s.modEsc f).pending = s.pending := rfl
@[simp] theorem State.modCry_board (s : State) (f : Crypto → Crypto) : (s.modCry f).board = s.board := rfl
@[simp] theorem State.modCry_isl (s : State) (f : Crypto → Crypto) : (s.modCry f).isl = s.isl := rfl
@[simp] theorem State.modCry_med (s : State) (f : Crypto → Crypto) : (s.modCry f).med = s.med := rfl
@[simp] theorem State.modCry_integ (s : State) (f : Crypto → Crypto) : (s.modCry f).integ = s.integ := rfl
@[simp] theorem State.modCry_led (s : State) (f : Crypto → Crypto) : (s.modCry f).led = s.led := rfl
@[simp] theorem State.modCry_pur (s : State) (f : Crypto → Crypto) : (s.modCry f).pur = s.pur := rfl
@[simp] theorem State.modCry_tbs (s : State) (f : Crypto → Crypto) : (s.modCry f).tbs = s.tbs := rfl
@[simp] theorem State.modCry_so (s : State) (f : Crypto → Crypto) : (s.modCry f).so = s.so := rfl
@[simp] theorem State.modCry_esc (s : State) (f : Crypto → Crypto) : (s.modCry f).esc = s.esc := rfl
@[simp] theorem State.modCry_cry (s : State) (f : Crypto → Crypto) : (s.modCry f).cry = f s.cry := rfl
@[simp] theorem State.modCry_mov (s : State) (f : Crypto → Crypto) : (s.modCry f).mov = s.mov := rfl
@[simp] theorem State.modCry_fe (s : State) (f : Crypto → Crypto) : (s.modCry f).fe = s.fe := rfl
@[simp] theorem State.modCry_ctl (s : State) (f : Crypto → Crypto) : (s.modCry f).ctl = s.ctl := rfl
@[simp] theorem State.modCry_pair (s : State) (f : Crypto → Crypto) : (s.modCry f).pair = s.pair := rfl
@[simp] theorem State.modCry_ev (s : State) (f : Crypto → Crypto) : (s.modCry f).ev = s.ev := rfl
@[simp] theorem State.modCry_pb (s : State) (f : Crypto → Crypto) : (s.modCry f).pb = s.pb := rfl
@[simp] theorem State.modCry_sup (s : State) (f : Crypto → Crypto) : (s.modCry f).sup = s.sup := rfl
@[simp] theorem State.modCry_clock (s : State) (f : Crypto → Crypto) : (s.modCry f).clock = s.clock := rfl
@[simp] theorem State.modCry_regs (s : State) (f : Crypto → Crypto) : (s.modCry f).regs = s.regs := rfl
@[simp] theorem State.modCry_outbox (s : State) (f : Crypto → Crypto) : (s.modCry f).outbox = s.outbox := rfl
@[simp] theorem State.modCry_pending (s : State) (f : Crypto → Crypto) : (s.modCry f).pending = s.pending := rfl
@[simp] theorem State.modMov_board (s : State) (f : Mover → Mover) : (s.modMov f).board = s.board := rfl
@[simp] theorem State.modMov_isl (s : State) (f : Mover → Mover) : (s.modMov f).isl = s.isl := rfl
@[simp] theorem State.modMov_med (s : State) (f : Mover → Mover) : (s.modMov f).med = s.med := rfl
@[simp] theorem State.modMov_integ (s : State) (f : Mover → Mover) : (s.modMov f).integ = s.integ := rfl
@[simp] theorem State.modMov_led (s : State) (f : Mover → Mover) : (s.modMov f).led = s.led := rfl
@[simp] theorem State.modMov_pur (s : State) (f : Mover → Mover) : (s.modMov f).pur = s.pur := rfl
@[simp] theorem State.modMov_tbs (s : State) (f : Mover → Mover) : (s.modMov f).tbs = s.tbs := rfl
@[simp] theorem State.modMov_so (s : State) (f : Mover → Mover) : (s.modMov f).so = s.so := rfl
@[simp] theorem State.modMov_esc (s : State) (f : Mover → Mover) : (s.modMov f).esc = s.esc := rfl
@[simp] theorem State.modMov_cry (s : State) (f : Mover → Mover) : (s.modMov f).cry = s.cry := rfl
@[simp] theorem State.modMov_mov (s : State) (f : Mover → Mover) : (s.modMov f).mov = f s.mov := rfl
@[simp] theorem State.modMov_fe (s : State) (f : Mover → Mover) : (s.modMov f).fe = s.fe := rfl
@[simp] theorem State.modMov_ctl (s : State) (f : Mover → Mover) : (s.modMov f).ctl = s.ctl := rfl
@[simp] theorem State.modMov_pair (s : State) (f : Mover → Mover) : (s.modMov f).pair = s.pair := rfl
@[simp] theorem State.modMov_ev (s : State) (f : Mover → Mover) : (s.modMov f).ev = s.ev := rfl
@[simp] theorem State.modMov_pb (s : State) (f : Mover → Mover) : (s.modMov f).pb = s.pb := rfl
@[simp] theorem State.modMov_sup (s : State) (f : Mover → Mover) : (s.modMov f).sup = s.sup := rfl
@[simp] theorem State.modMov_clock (s : State) (f : Mover → Mover) : (s.modMov f).clock = s.clock := rfl
@[simp] theorem State.modMov_regs (s : State) (f : Mover → Mover) : (s.modMov f).regs = s.regs := rfl
@[simp] theorem State.modMov_outbox (s : State) (f : Mover → Mover) : (s.modMov f).outbox = s.outbox := rfl
@[simp] theorem State.modMov_pending (s : State) (f : Mover → Mover) : (s.modMov f).pending = s.pending := rfl
@[simp] theorem State.modFe_board (s : State) (f : Front → Front) : (s.modFe f).board = s.board := rfl
@[simp] theorem State.modFe_isl (s : State) (f : Front → Front) : (s.modFe f).isl = s.isl := rfl
@[simp] theorem State.modFe_med (s : State) (f : Front → Front) : (s.modFe f).med = s.med := rfl
@[simp] theorem State.modFe_integ (s : State) (f : Front → Front) : (s.modFe f).integ = s.integ := rfl
@[simp] theorem State.modFe_led (s : State) (f : Front → Front) : (s.modFe f).led = s.led := rfl
@[simp] theorem State.modFe_pur (s : State) (f : Front → Front) : (s.modFe f).pur = s.pur := rfl
@[simp] theorem State.modFe_tbs (s : State) (f : Front → Front) : (s.modFe f).tbs = s.tbs := rfl
@[simp] theorem State.modFe_so (s : State) (f : Front → Front) : (s.modFe f).so = s.so := rfl
@[simp] theorem State.modFe_esc (s : State) (f : Front → Front) : (s.modFe f).esc = s.esc := rfl
@[simp] theorem State.modFe_cry (s : State) (f : Front → Front) : (s.modFe f).cry = s.cry := rfl
@[simp] theorem State.modFe_mov (s : State) (f : Front → Front) : (s.modFe f).mov = s.mov := rfl
@[simp] theorem State.modFe_fe (s : State) (f : Front → Front) : (s.modFe f).fe = f s.fe := rfl
@[simp] theorem State.modFe_ctl (s : State) (f : Front → Front) : (s.modFe f).ctl = s.ctl := rfl
@[simp] theorem State.modFe_pair (s : State) (f : Front → Front) : (s.modFe f).pair = s.pair := rfl
@[simp] theorem State.modFe_ev (s : State) (f : Front → Front) : (s.modFe f).ev = s.ev := rfl
@[simp] theorem State.modFe_pb (s : State) (f : Front → Front) : (s.modFe f).pb = s.pb := rfl
@[simp] theorem State.modFe_sup (s : State) (f : Front → Front) : (s.modFe f).sup = s.sup := rfl
@[simp] theorem State.modFe_clock (s : State) (f : Front → Front) : (s.modFe f).clock = s.clock := rfl
@[simp] theorem State.modFe_regs (s : State) (f : Front → Front) : (s.modFe f).regs = s.regs := rfl
@[simp] theorem State.modFe_outbox (s : State) (f : Front → Front) : (s.modFe f).outbox = s.outbox := rfl
@[simp] theorem State.modFe_pending (s : State) (f : Front → Front) : (s.modFe f).pending = s.pending := rfl
@[simp] theorem State.modCtl_board (s : State) (f : Control → Control) : (s.modCtl f).board = s.board := rfl
@[simp] theorem State.modCtl_isl (s : State) (f : Control → Control) : (s.modCtl f).isl = s.isl := rfl
@[simp] theorem State.modCtl_med (s : State) (f : Control → Control) : (s.modCtl f).med = s.med := rfl
@[simp] theorem State.modCtl_integ (s : State) (f : Control → Control) : (s.modCtl f).integ = s.integ := rfl
@[simp] theorem State.modCtl_led (s : State) (f : Control → Control) : (s.modCtl f).led = s.led := rfl
@[simp] theorem State.modCtl_pur (s : State) (f : Control → Control) : (s.modCtl f).pur = s.pur := rfl
@[simp] theorem State.modCtl_tbs (s : State) (f : Control → Control) : (s.modCtl f).tbs = s.tbs := rfl
@[simp] theorem State.modCtl_so (s : State) (f : Control → Control) : (s.modCtl f).so = s.so := rfl
@[simp] theorem State.modCtl_esc (s : State) (f : Control → Control) : (s.modCtl f).esc = s.esc := rfl
@[simp] theorem State.modCtl_cry (s : State) (f : Control → Control) : (s.modCtl f).cry = s.cry := rfl
@[simp] theorem State.modCtl_mov (s : State) (f : Control → Control) : (s.modCtl f).mov = s.mov := rfl
@[simp] theorem State.modCtl_fe (s : State) (f : Control → Control) : (s.modCtl f).fe = s.fe := rfl
@[simp] theorem State.modCtl_ctl (s : State) (f : Control → Control) : (s.modCtl f).ctl = f s.ctl := rfl
@[simp] theorem State.modCtl_pair (s : State) (f : Control → Control) : (s.modCtl f).pair = s.pair := rfl
@[simp] theorem State.modCtl_ev (s : State) (f : Control → Control) : (s.modCtl f).ev = s.ev := rfl
@[simp] theorem State.modCtl_pb (s : State) (f : Control → Control) : (s.modCtl f).pb = s.pb := rfl
@[simp] theorem State.modCtl_sup (s : State) (f : Control → Control) : (s.modCtl f).sup = s.sup := rfl
@[simp] theorem State.modCtl_clock (s : State) (f : Control → Control) : (s.modCtl f).clock = s.clock := rfl
@[simp] theorem State.modCtl_regs (s : State) (f : Control → Control) : (s.modCtl f).regs = s.regs := rfl
@[simp] theorem State.modCtl_outbox (s : State) (f : Control → Control) : (s.modCtl f).outbox = s.outbox := rfl
@[simp] theorem State.modCtl_pending (s : State) (f : Control → Control) : (s.modCtl f).pending = s.pending := rfl
@[simp] theorem State.modPair_board (s : State) (f : Pair → Pair) : (s.modPair f).board = s.board := rfl
@[simp] theorem State.modPair_isl (s : State) (f : Pair → Pair) : (s.modPair f).isl = s.isl := rfl
@[simp] theorem State.modPair_med (s : State) (f : Pair → Pair) : (s.modPair f).med = s.med := rfl
@[simp] theorem State.modPair_integ (s : State) (f : Pair → Pair) : (s.modPair f).integ = s.integ := rfl
@[simp] theorem State.modPair_led (s : State) (f : Pair → Pair) : (s.modPair f).led = s.led := rfl
@[simp] theorem State.modPair_pur (s : State) (f : Pair → Pair) : (s.modPair f).pur = s.pur := rfl
@[simp] theorem State.modPair_tbs (s : State) (f : Pair → Pair) : (s.modPair f).tbs = s.tbs := rfl
@[simp] theorem State.modPair_so (s : State) (f : Pair → Pair) : (s.modPair f).so = s.so := rfl
@[simp] theorem State.modPair_esc (s : State) (f : Pair → Pair) : (s.modPair f).esc = s.esc := rfl
@[simp] theorem State.modPair_cry (s : State) (f : Pair → Pair) : (s.modPair f).cry = s.cry := rfl
@[simp] theorem State.modPair_mov (s : State) (f : Pair → Pair) : (s.modPair f).mov = s.mov := rfl
@[simp] theorem State.modPair_fe (s : State) (f : Pair → Pair) : (s.modPair f).fe = s.fe := rfl
@[simp] theorem State.modPair_ctl (s : State) (f : Pair → Pair) : (s.modPair f).ctl = s.ctl := rfl
@[simp] theorem State.modPair_pair (s : State) (f : Pair → Pair) : (s.modPair f).pair = f s.pair := rfl
@[simp] theorem State.modPair_ev (s : State) (f : Pair → Pair) : (s.modPair f).ev = s.ev := rfl
@[simp] theorem State.modPair_pb (s : State) (f : Pair → Pair) : (s.modPair f).pb = s.pb := rfl
@[simp] theorem State.modPair_sup (s : State) (f : Pair → Pair) : (s.modPair f).sup = s.sup := rfl
@[simp] theorem State.modPair_clock (s : State) (f : Pair → Pair) : (s.modPair f).clock = s.clock := rfl
@[simp] theorem State.modPair_regs (s : State) (f : Pair → Pair) : (s.modPair f).regs = s.regs := rfl
@[simp] theorem State.modPair_outbox (s : State) (f : Pair → Pair) : (s.modPair f).outbox = s.outbox := rfl
@[simp] theorem State.modPair_pending (s : State) (f : Pair → Pair) : (s.modPair f).pending = s.pending := rfl
@[simp] theorem State.modEv_board (s : State) (f : Events → Events) : (s.modEv f).board = s.board := rfl
@[simp] theorem State.modEv_isl (s : State) (f : Events → Events) : (s.modEv f).isl = s.isl := rfl
@[simp] theorem State.modEv_med (s : State) (f : Events → Events) : (s.modEv f).med = s.med := rfl
@[simp] theorem State.modEv_integ (s : State) (f : Events → Events) : (s.modEv f).integ = s.integ := rfl
@[simp] theorem State.modEv_led (s : State) (f : Events → Events) : (s.modEv f).led = s.led := rfl
@[simp] theorem State.modEv_pur (s : State) (f : Events → Events) : (s.modEv f).pur = s.pur := rfl
@[simp] theorem State.modEv_tbs (s : State) (f : Events → Events) : (s.modEv f).tbs = s.tbs := rfl
@[simp] theorem State.modEv_so (s : State) (f : Events → Events) : (s.modEv f).so = s.so := rfl
@[simp] theorem State.modEv_esc (s : State) (f : Events → Events) : (s.modEv f).esc = s.esc := rfl
@[simp] theorem State.modEv_cry (s : State) (f : Events → Events) : (s.modEv f).cry = s.cry := rfl
@[simp] theorem State.modEv_mov (s : State) (f : Events → Events) : (s.modEv f).mov = s.mov := rfl
@[simp] theorem State.modEv_fe (s : State) (f : Events → Events) : (s.modEv f).fe = s.fe := rfl
@[simp] theorem State.modEv_ctl (s : State) (f : Events → Events) : (s.modEv f).ctl = s.ctl := rfl
@[simp] theorem State.modEv_pair (s : State) (f : Events → Events) : (s.modEv f).pair = s.pair := rfl
@[simp] theorem State.modEv_ev (s : State) (f : Events → Events) : (s.modEv f).ev = f s.ev := rfl
@[simp] theorem State.modEv_pb (s : State) (f : Events → Events) : (s.modEv f).pb = s.pb := rfl
@[simp] theorem State.modEv_sup (s : State) (f : Events → Events) : (s.modEv f).sup = s.sup := rfl
@[simp] theorem State.modEv_clock (s : State) (f : Events → Events) : (s.modEv f).clock = s.clock := rfl
@[simp] theorem State.modEv_regs (s : State) (f : Events → Events) : (s.modEv f).regs = s.regs := rfl
@[simp] theorem State.modEv_outbox (s : State) (f : Events → Events) : (s.modEv f).outbox = s.outbox := rfl
@[simp] theorem State.modEv_pending (s : State) (f : Events → Events) : (s.modEv f).pending = s.pending := rfl
@[simp] theorem State.modPb_board (s : State) (f : Passbook → Passbook) : (s.modPb f).board = s.board := rfl
@[simp] theorem State.modPb_isl (s : State) (f : Passbook → Passbook) : (s.modPb f).isl = s.isl := rfl
@[simp] theorem State.modPb_med (s : State) (f : Passbook → Passbook) : (s.modPb f).med = s.med := rfl
@[simp] theorem State.modPb_integ (s : State) (f : Passbook → Passbook) : (s.modPb f).integ = s.integ := rfl
@[simp] theorem State.modPb_led (s : State) (f : Passbook → Passbook) : (s.modPb f).led = s.led := rfl
@[simp] theorem State.modPb_pur (s : State) (f : Passbook → Passbook) : (s.modPb f).pur = s.pur := rfl
@[simp] theorem State.modPb_tbs (s : State) (f : Passbook → Passbook) : (s.modPb f).tbs = s.tbs := rfl
@[simp] theorem State.modPb_so (s : State) (f : Passbook → Passbook) : (s.modPb f).so = s.so := rfl
@[simp] theorem State.modPb_esc (s : State) (f : Passbook → Passbook) : (s.modPb f).esc = s.esc := rfl
@[simp] theorem State.modPb_cry (s : State) (f : Passbook → Passbook) : (s.modPb f).cry = s.cry := rfl
@[simp] theorem State.modPb_mov (s : State) (f : Passbook → Passbook) : (s.modPb f).mov = s.mov := rfl
@[simp] theorem State.modPb_fe (s : State) (f : Passbook → Passbook) : (s.modPb f).fe = s.fe := rfl
@[simp] theorem State.modPb_ctl (s : State) (f : Passbook → Passbook) : (s.modPb f).ctl = s.ctl := rfl
@[simp] theorem State.modPb_pair (s : State) (f : Passbook → Passbook) : (s.modPb f).pair = s.pair := rfl
@[simp] theorem State.modPb_ev (s : State) (f : Passbook → Passbook) : (s.modPb f).ev = s.ev := rfl
@[simp] theorem State.modPb_pb (s : State) (f : Passbook → Passbook) : (s.modPb f).pb = f s.pb := rfl
@[simp] theorem State.modPb_sup (s : State) (f : Passbook → Passbook) : (s.modPb f).sup = s.sup := rfl
@[simp] theorem State.modPb_clock (s : State) (f : Passbook → Passbook) : (s.modPb f).clock = s.clock := rfl
@[simp] theorem State.modPb_regs (s : State) (f : Passbook → Passbook) : (s.modPb f).regs = s.regs := rfl
@[simp] theorem State.modPb_outbox (s : State) (f : Passbook → Passbook) : (s.modPb f).outbox = s.outbox := rfl
@[simp] theorem State.modPb_pending (s : State) (f : Passbook → Passbook) : (s.modPb f).pending = s.pending := rfl
@[simp] theorem State.modSup_board (s : State) (f : Super → Super) : (s.modSup f).board = s.board := rfl
@[simp] theorem State.modSup_isl (s : State) (f : Super → Super) : (s.modSup f).isl = s.isl := rfl
@[simp] theorem State.modSup_med (s : State) (f : Super → Super) : (s.modSup f).med = s.med := rfl
@[simp] theorem State.modSup_integ (s : State) (f : Super → Super) : (s.modSup f).integ = s.integ := rfl
@[simp] theorem State.modSup_led (s : State) (f : Super → Super) : (s.modSup f).led = s.led := rfl
@[simp] theorem State.modSup_pur (s : State) (f : Super → Super) : (s.modSup f).pur = s.pur := rfl
@[simp] theorem State.modSup_tbs (s : State) (f : Super → Super) : (s.modSup f).tbs = s.tbs := rfl
@[simp] theorem State.modSup_so (s : State) (f : Super → Super) : (s.modSup f).so = s.so := rfl
@[simp] theorem State.modSup_esc (s : State) (f : Super → Super) : (s.modSup f).esc = s.esc := rfl
@[simp] theorem State.modSup_cry (s : State) (f : Super → Super) : (s.modSup f).cry = s.cry := rfl
@[simp] theorem State.modSup_mov (s : State) (f : Super → Super) : (s.modSup f).mov = s.mov := rfl
@[simp] theorem State.modSup_fe (s : State) (f : Super → Super) : (s.modSup f).fe = s.fe := rfl
@[simp] theorem State.modSup_ctl (s : State) (f : Super → Super) : (s.modSup f).ctl = s.ctl := rfl
@[simp] theorem State.modSup_pair (s : State) (f : Super → Super) : (s.modSup f).pair = s.pair := rfl
@[simp] theorem State.modSup_ev (s : State) (f : Super → Super) : (s.modSup f).ev = s.ev := rfl
@[simp] theorem State.modSup_pb (s : State) (f : Super → Super) : (s.modSup f).pb = s.pb := rfl
@[simp] theorem State.modSup_sup (s : State) (f : Super → Super) : (s.modSup f).sup = f s.sup := rfl
@[simp] theorem State.modSup_clock (s : State) (f : Super → Super) : (s.modSup f).clock = s.clock := rfl
@[simp] theorem State.modSup_regs (s : State) (f : Super → Super) : (s.modSup f).regs = s.regs := rfl
@[simp] theorem State.modSup_outbox (s : State) (f : Super → Super) : (s.modSup f).outbox = s.outbox := rfl
@[simp] theorem State.modSup_pending (s : State) (f : Super → Super) : (s.modSup f).pending = s.pending := rfl
@[simp] theorem State.setClock_board (s : State) (v : Nat) : (s.setClock v).board = s.board := rfl
@[simp] theorem State.setClock_isl (s : State) (v : Nat) : (s.setClock v).isl = s.isl := rfl
@[simp] theorem State.setClock_med (s : State) (v : Nat) : (s.setClock v).med = s.med := rfl
@[simp] theorem State.setClock_integ (s : State) (v : Nat) : (s.setClock v).integ = s.integ := rfl
@[simp] theorem State.setClock_led (s : State) (v : Nat) : (s.setClock v).led = s.led := rfl
@[simp] theorem State.setClock_pur (s : State) (v : Nat) : (s.setClock v).pur = s.pur := rfl
@[simp] theorem State.setClock_tbs (s : State) (v : Nat) : (s.setClock v).tbs = s.tbs := rfl
@[simp] theorem State.setClock_so (s : State) (v : Nat) : (s.setClock v).so = s.so := rfl
@[simp] theorem State.setClock_esc (s : State) (v : Nat) : (s.setClock v).esc = s.esc := rfl
@[simp] theorem State.setClock_cry (s : State) (v : Nat) : (s.setClock v).cry = s.cry := rfl
@[simp] theorem State.setClock_mov (s : State) (v : Nat) : (s.setClock v).mov = s.mov := rfl
@[simp] theorem State.setClock_fe (s : State) (v : Nat) : (s.setClock v).fe = s.fe := rfl
@[simp] theorem State.setClock_ctl (s : State) (v : Nat) : (s.setClock v).ctl = s.ctl := rfl
@[simp] theorem State.setClock_pair (s : State) (v : Nat) : (s.setClock v).pair = s.pair := rfl
@[simp] theorem State.setClock_ev (s : State) (v : Nat) : (s.setClock v).ev = s.ev := rfl
@[simp] theorem State.setClock_pb (s : State) (v : Nat) : (s.setClock v).pb = s.pb := rfl
@[simp] theorem State.setClock_sup (s : State) (v : Nat) : (s.setClock v).sup = s.sup := rfl
@[simp] theorem State.setClock_clock (s : State) (v : Nat) : (s.setClock v).clock = v := rfl
@[simp] theorem State.setClock_regs (s : State) (v : Nat) : (s.setClock v).regs = s.regs := rfl
@[simp] theorem State.setClock_outbox (s : State) (v : Nat) : (s.setClock v).outbox = s.outbox := rfl
@[simp] theorem State.setClock_pending (s : State) (v : Nat) : (s.setClock v).pending = s.pending := rfl
@[simp] theorem State.setRegs_board (s : State) (v : Tab (BitVec 32)) : (s.setRegs v).board = s.board := rfl
@[simp] theorem State.setRegs_isl (s : State) (v : Tab (BitVec 32)) : (s.setRegs v).isl = s.isl := rfl
@[simp] theorem State.setRegs_med (s : State) (v : Tab (BitVec 32)) : (s.setRegs v).med = s.med := rfl
@[simp] theorem State.setRegs_integ (s : State) (v : Tab (BitVec 32)) : (s.setRegs v).integ = s.integ := rfl
@[simp] theorem State.setRegs_led (s : State) (v : Tab (BitVec 32)) : (s.setRegs v).led = s.led := rfl
@[simp] theorem State.setRegs_pur (s : State) (v : Tab (BitVec 32)) : (s.setRegs v).pur = s.pur := rfl
@[simp] theorem State.setRegs_tbs (s : State) (v : Tab (BitVec 32)) : (s.setRegs v).tbs = s.tbs := rfl
@[simp] theorem State.setRegs_so (s : State) (v : Tab (BitVec 32)) : (s.setRegs v).so = s.so := rfl
@[simp] theorem State.setRegs_esc (s : State) (v : Tab (BitVec 32)) : (s.setRegs v).esc = s.esc := rfl
@[simp] theorem State.setRegs_cry (s : State) (v : Tab (BitVec 32)) : (s.setRegs v).cry = s.cry := rfl
@[simp] theorem State.setRegs_mov (s : State) (v : Tab (BitVec 32)) : (s.setRegs v).mov = s.mov := rfl
@[simp] theorem State.setRegs_fe (s : State) (v : Tab (BitVec 32)) : (s.setRegs v).fe = s.fe := rfl
@[simp] theorem State.setRegs_ctl (s : State) (v : Tab (BitVec 32)) : (s.setRegs v).ctl = s.ctl := rfl
@[simp] theorem State.setRegs_pair (s : State) (v : Tab (BitVec 32)) : (s.setRegs v).pair = s.pair := rfl
@[simp] theorem State.setRegs_ev (s : State) (v : Tab (BitVec 32)) : (s.setRegs v).ev = s.ev := rfl
@[simp] theorem State.setRegs_pb (s : State) (v : Tab (BitVec 32)) : (s.setRegs v).pb = s.pb := rfl
@[simp] theorem State.setRegs_sup (s : State) (v : Tab (BitVec 32)) : (s.setRegs v).sup = s.sup := rfl
@[simp] theorem State.setRegs_clock (s : State) (v : Tab (BitVec 32)) : (s.setRegs v).clock = s.clock := rfl
@[simp] theorem State.setRegs_regs (s : State) (v : Tab (BitVec 32)) : (s.setRegs v).regs = v := rfl
@[simp] theorem State.setRegs_outbox (s : State) (v : Tab (BitVec 32)) : (s.setRegs v).outbox = s.outbox := rfl
@[simp] theorem State.setRegs_pending (s : State) (v : Tab (BitVec 32)) : (s.setRegs v).pending = s.pending := rfl
@[simp] theorem State.setOutbox_board (s : State) (v : List Out) : (s.setOutbox v).board = s.board := rfl
@[simp] theorem State.setOutbox_isl (s : State) (v : List Out) : (s.setOutbox v).isl = s.isl := rfl
@[simp] theorem State.setOutbox_med (s : State) (v : List Out) : (s.setOutbox v).med = s.med := rfl
@[simp] theorem State.setOutbox_integ (s : State) (v : List Out) : (s.setOutbox v).integ = s.integ := rfl
@[simp] theorem State.setOutbox_led (s : State) (v : List Out) : (s.setOutbox v).led = s.led := rfl
@[simp] theorem State.setOutbox_pur (s : State) (v : List Out) : (s.setOutbox v).pur = s.pur := rfl
@[simp] theorem State.setOutbox_tbs (s : State) (v : List Out) : (s.setOutbox v).tbs = s.tbs := rfl
@[simp] theorem State.setOutbox_so (s : State) (v : List Out) : (s.setOutbox v).so = s.so := rfl
@[simp] theorem State.setOutbox_esc (s : State) (v : List Out) : (s.setOutbox v).esc = s.esc := rfl
@[simp] theorem State.setOutbox_cry (s : State) (v : List Out) : (s.setOutbox v).cry = s.cry := rfl
@[simp] theorem State.setOutbox_mov (s : State) (v : List Out) : (s.setOutbox v).mov = s.mov := rfl
@[simp] theorem State.setOutbox_fe (s : State) (v : List Out) : (s.setOutbox v).fe = s.fe := rfl
@[simp] theorem State.setOutbox_ctl (s : State) (v : List Out) : (s.setOutbox v).ctl = s.ctl := rfl
@[simp] theorem State.setOutbox_pair (s : State) (v : List Out) : (s.setOutbox v).pair = s.pair := rfl
@[simp] theorem State.setOutbox_ev (s : State) (v : List Out) : (s.setOutbox v).ev = s.ev := rfl
@[simp] theorem State.setOutbox_pb (s : State) (v : List Out) : (s.setOutbox v).pb = s.pb := rfl
@[simp] theorem State.setOutbox_sup (s : State) (v : List Out) : (s.setOutbox v).sup = s.sup := rfl
@[simp] theorem State.setOutbox_clock (s : State) (v : List Out) : (s.setOutbox v).clock = s.clock := rfl
@[simp] theorem State.setOutbox_regs (s : State) (v : List Out) : (s.setOutbox v).regs = s.regs := rfl
@[simp] theorem State.setOutbox_outbox (s : State) (v : List Out) : (s.setOutbox v).outbox = v := rfl
@[simp] theorem State.setOutbox_pending (s : State) (v : List Out) : (s.setOutbox v).pending = s.pending := rfl
@[simp] theorem State.setPending_board (s : State) (v : List Instr) : (s.setPending v).board = s.board := rfl
@[simp] theorem State.setPending_isl (s : State) (v : List Instr) : (s.setPending v).isl = s.isl := rfl
@[simp] theorem State.setPending_med (s : State) (v : List Instr) : (s.setPending v).med = s.med := rfl
@[simp] theorem State.setPending_integ (s : State) (v : List Instr) : (s.setPending v).integ = s.integ := rfl
@[simp] theorem State.setPending_led (s : State) (v : List Instr) : (s.setPending v).led = s.led := rfl
@[simp] theorem State.setPending_pur (s : State) (v : List Instr) : (s.setPending v).pur = s.pur := rfl
@[simp] theorem State.setPending_tbs (s : State) (v : List Instr) : (s.setPending v).tbs = s.tbs := rfl
@[simp] theorem State.setPending_so (s : State) (v : List Instr) : (s.setPending v).so = s.so := rfl
@[simp] theorem State.setPending_esc (s : State) (v : List Instr) : (s.setPending v).esc = s.esc := rfl
@[simp] theorem State.setPending_cry (s : State) (v : List Instr) : (s.setPending v).cry = s.cry := rfl
@[simp] theorem State.setPending_mov (s : State) (v : List Instr) : (s.setPending v).mov = s.mov := rfl
@[simp] theorem State.setPending_fe (s : State) (v : List Instr) : (s.setPending v).fe = s.fe := rfl
@[simp] theorem State.setPending_ctl (s : State) (v : List Instr) : (s.setPending v).ctl = s.ctl := rfl
@[simp] theorem State.setPending_pair (s : State) (v : List Instr) : (s.setPending v).pair = s.pair := rfl
@[simp] theorem State.setPending_ev (s : State) (v : List Instr) : (s.setPending v).ev = s.ev := rfl
@[simp] theorem State.setPending_pb (s : State) (v : List Instr) : (s.setPending v).pb = s.pb := rfl
@[simp] theorem State.setPending_sup (s : State) (v : List Instr) : (s.setPending v).sup = s.sup := rfl
@[simp] theorem State.setPending_clock (s : State) (v : List Instr) : (s.setPending v).clock = s.clock := rfl
@[simp] theorem State.setPending_regs (s : State) (v : List Instr) : (s.setPending v).regs = s.regs := rfl
@[simp] theorem State.setPending_outbox (s : State) (v : List Instr) : (s.setPending v).outbox = s.outbox := rfl
@[simp] theorem State.setPending_pending (s : State) (v : List Instr) : (s.setPending v).pending = v := rfl

end Sys2Proof.Machine
end

