-- ==== Sys2Proof/Laws/Notify.lean ====
section
/-! SUPPORT. What raising an event may change: stored registers, the event block, the record of what was sent, and of a
port its coalescing, its pending vectors and its CXL logs (R420-R432). Everything else stays, field by field. -/

namespace Sys2Proof.Machine

theorem rset_bare (s : State) (k : Nat) (v : BitVec 32) : (rset s k v).bare = s.bare := rfl
theorem rbit_bare (s : State) (k i : Nat) : (rbit s k i).bare = s.bare := rfl
theorem rinc_bare (s : State) (k n : Nat) : (rinc s k n).bare = s.bare := rfl
theorem send_bare (o : Out) (s : State) : (send o s).bare = s.bare := rfl
theorem modEv_bare (s : State) (f : Events → Events) : (s.modEv f).bare = s.bare := rfl

theorem groupNote_bare (c : Nat) (s : State) : (groupNote c s).bare = s.bare := rfl

theorem modPort_bare (h : Head) (f : Port → Port) (s : State) (hf : ∀ p, (f p).bare = p.bare) :
    (modPort h f s).bare = s.bare := by
  cases h <;> simp [modPort, State.bare, State.modFe, hf]

theorem incRaw_bare (i n : Nat) (s : State) : (incRaw i n s).1.bare = s.bare := by
  unfold incRaw; dsimp only; split <;> rfl

theorem signalVec_bare (h : Head) (v : Nat) (s : State) : (signalVec h v s).bare = s.bare := by
  have h1 := fun s => modPort_bare h (fun p => { p with coal := tmod coal0 p.coal v fun c => { c with acc := 0, first := 0 } }) s
    fun _ => rfl
  have h2 := fun s => modPort_bare h (fun p => { p with pba := if p.pba.contains v then p.pba else v :: p.pba }) s fun _ => rfl
  simp only [signalVec]
  repeat' split
  · rw [h1]
  · rw [h2, h1]
  · rw [send_bare, incRaw_bare, h1]

theorem notifyVec_bare (h : Head) (v : Nat) (s : State) : (notifyVec h v s).bare = s.bare := by
  unfold notifyVec
  split
  · rfl
  · dsimp only
    split
    · rw [signalVec_bare, modPort_bare]; intro; rfl
    · rw [modPort_bare]; intro; rfl

theorem cxlAppend_bare (h : Head) (sev code detail : Nat) (s : State) : (cxlAppend h sev code detail s).bare = s.bare := by
  refine modPort_bare _ _ _ fun p => ?_
  dsimp only; split <;> rfl

theorem rateCheck_bare (code : Nat) (s : State) : (rateCheck code s).1.bare = s.bare := by
  simp only [rateCheck]
  repeat' split
  all_goals rfl

theorem offer_bare (r : DbRec) (s : State) : (offer r s).1.bare = s.bare := by
  simp only [offer]
  split
  · rfl
  · rw [incRaw_bare]; rfl

theorem raiseF_bare (n code : Nat) (d : Det) (s : State) : (raiseF n code d s).bare = s.bare := by
  induction n generalizing code d s with
  | zero => rfl
  | succ n ih =>
    unfold raiseF
    grind [rset_bare, rbit_bare, incRaw_bare, rateCheck_bare, offer_bare, notifyVec_bare, cxlAppend_bare, groupNote_bare]

theorem raise_bare (g src n : Nat) (d : Det) (s : State) : (raise g src n d s).bare = s.bare := raiseF_bare _ _ _ _

theorem bump_bare (i n : Nat) (s : State) : (bump i n s).bare = s.bare := by
  simp only [bump]
  split
  · rw [raise_bare, incRaw_bare]
  · exact incRaw_bare _ _ _

/-! The fields, one lemma each. -/

theorem State.bare_board (s : State) : s.bare.board = s.board := rfl
theorem State.bare_isl (s : State) : s.bare.isl = s.isl := rfl
theorem State.bare_med (s : State) : s.bare.med = s.med := rfl
theorem State.bare_integ (s : State) : s.bare.integ = s.integ := rfl
theorem State.bare_led (s : State) : s.bare.led = s.led := rfl
theorem State.bare_pur (s : State) : s.bare.pur = s.pur := rfl
theorem State.bare_tbs (s : State) : s.bare.tbs = s.tbs := rfl
theorem State.bare_so (s : State) : s.bare.so = s.so := rfl
theorem State.bare_esc (s : State) : s.bare.esc = s.esc := rfl
theorem State.bare_cry (s : State) : s.bare.cry = s.cry := rfl
theorem State.bare_mov (s : State) : s.bare.mov = s.mov := rfl
theorem State.bare_ctl (s : State) : s.bare.ctl = s.ctl := rfl
theorem State.bare_pair (s : State) : s.bare.pair = s.pair := rfl
theorem State.bare_pb (s : State) : s.bare.pb = s.pb := rfl
theorem State.bare_sup (s : State) : s.bare.sup = s.sup := rfl
theorem State.bare_clock (s : State) : s.bare.clock = s.clock := rfl
theorem State.bare_pending (s : State) : s.bare.pending = s.pending := rfl
theorem State.bare_fe_txns (s : State) : s.bare.fe.txns = s.fe.txns := rfl
theorem State.bare_fe_sf (s : State) : s.bare.fe.sf = s.fe.sf := rfl
theorem State.bare_fe_bis (s : State) : s.bare.fe.bis = s.fe.bis := rfl
theorem State.bare_fe_ledgerCache (s : State) : s.bare.fe.ledgerCache = s.fe.ledgerCache := rfl
theorem State.bare_fe_memInfoValid (s : State) : s.bare.fe.memInfoValid = s.fe.memInfoValid := rfl
theorem State.bare_fe_restartAt (s : State) : s.bare.fe.restartAt = s.fe.restartAt := rfl
theorem State.bare_portA_rate (s : State) : s.bare.fe.portA.rate = s.fe.portA.rate := rfl
theorem State.bare_portA_level (s : State) : s.bare.fe.portA.level = s.fe.portA.level := rfl
theorem State.bare_portA_msixEn (s : State) : s.bare.fe.portA.msixEn = s.fe.portA.msixEn := rfl
theorem State.bare_portA_mbx (s : State) : s.bare.fe.portA.mbx = s.fe.portA.mbx := rfl
theorem State.bare_portA_cxl (s : State) : s.bare.fe.portA.cxl = s.fe.portA.cxl := rfl
theorem State.bare_portA_gpf (s : State) : s.bare.fe.portA.gpf = s.fe.portA.gpf := rfl
theorem State.bare_portA_decoders (s : State) : s.bare.fe.portA.decoders = s.fe.portA.decoders := rfl
theorem State.bare_portB_rate (s : State) : s.bare.fe.portB.rate = s.fe.portB.rate := rfl
theorem State.bare_portB_level (s : State) : s.bare.fe.portB.level = s.fe.portB.level := rfl
theorem State.bare_portB_msixEn (s : State) : s.bare.fe.portB.msixEn = s.fe.portB.msixEn := rfl
theorem State.bare_portB_mbx (s : State) : s.bare.fe.portB.mbx = s.fe.portB.mbx := rfl
theorem State.bare_portB_cxl (s : State) : s.bare.fe.portB.cxl = s.fe.portB.cxl := rfl
theorem State.bare_portB_gpf (s : State) : s.bare.fe.portB.gpf = s.fe.portB.gpf := rfl
theorem State.bare_portB_decoders (s : State) : s.bare.fe.portB.decoders = s.fe.portB.decoders := rfl

@[simp] theorem raise_board (g src n : Nat) (d : Det) (s : State) : (raise g src n d s).board = s.board :=
  by rw [← State.bare_board, raise_bare, State.bare_board]
@[simp] theorem raise_isl (g src n : Nat) (d : Det) (s : State) : (raise g src n d s).isl = s.isl :=
  by rw [← State.bare_isl, raise_bare, State.bare_isl]
@[simp] theorem raise_med (g src n : Nat) (d : Det) (s : State) : (raise g src n d s).med = s.med :=
  by rw [← State.bare_med, raise_bare, State.bare_med]
@[simp] theorem raise_integ (g src n : Nat) (d : Det) (s : State) : (raise g src n d s).integ = s.integ :=
  by rw [← State.bare_integ, raise_bare, State.bare_integ]
@[simp] theorem raise_led (g src n : Nat) (d : Det) (s : State) : (raise g src n d s).led = s.led :=
  by rw [← State.bare_led, raise_bare, State.bare_led]
@[simp] theorem raise_pur (g src n : Nat) (d : Det) (s : State) : (raise g src n d s).pur = s.pur :=
  by rw [← State.bare_pur, raise_bare, State.bare_pur]
@[simp] theorem raise_tbs (g src n : Nat) (d : Det) (s : State) : (raise g src n d s).tbs = s.tbs :=
  by rw [← State.bare_tbs, raise_bare, State.bare_tbs]
@[simp] theorem raise_so (g src n : Nat) (d : Det) (s : State) : (raise g src n d s).so = s.so :=
  by rw [← State.bare_so, raise_bare, State.bare_so]
@[simp] theorem raise_esc (g src n : Nat) (d : Det) (s : State) : (raise g src n d s).esc = s.esc :=
  by rw [← State.bare_esc, raise_bare, State.bare_esc]
@[simp] theorem raise_cry (g src n : Nat) (d : Det) (s : State) : (raise g src n d s).cry = s.cry :=
  by rw [← State.bare_cry, raise_bare, State.bare_cry]
@[simp] theorem raise_mov (g src n : Nat) (d : Det) (s : State) : (raise g src n d s).mov = s.mov :=
  by rw [← State.bare_mov, raise_bare, State.bare_mov]
@[simp] theorem raise_ctl (g src n : Nat) (d : Det) (s : State) : (raise g src n d s).ctl = s.ctl :=
  by rw [← State.bare_ctl, raise_bare, State.bare_ctl]
@[simp] theorem raise_pair (g src n : Nat) (d : Det) (s : State) : (raise g src n d s).pair = s.pair :=
  by rw [← State.bare_pair, raise_bare, State.bare_pair]
@[simp] theorem raise_pb (g src n : Nat) (d : Det) (s : State) : (raise g src n d s).pb = s.pb :=
  by rw [← State.bare_pb, raise_bare, State.bare_pb]
@[simp] theorem raise_sup (g src n : Nat) (d : Det) (s : State) : (raise g src n d s).sup = s.sup :=
  by rw [← State.bare_sup, raise_bare, State.bare_sup]
@[simp] theorem raise_clock (g src n : Nat) (d : Det) (s : State) : (raise g src n d s).clock = s.clock :=
  by rw [← State.bare_clock, raise_bare, State.bare_clock]
@[simp] theorem raise_pending (g src n : Nat) (d : Det) (s : State) : (raise g src n d s).pending = s.pending :=
  by rw [← State.bare_pending, raise_bare, State.bare_pending]
@[simp] theorem raise_fe_txns (g src n : Nat) (d : Det) (s : State) : (raise g src n d s).fe.txns = s.fe.txns :=
  by rw [← State.bare_fe_txns, raise_bare, State.bare_fe_txns]
@[simp] theorem raise_fe_sf (g src n : Nat) (d : Det) (s : State) : (raise g src n d s).fe.sf = s.fe.sf :=
  by rw [← State.bare_fe_sf, raise_bare, State.bare_fe_sf]
@[simp] theorem raise_fe_bis (g src n : Nat) (d : Det) (s : State) : (raise g src n d s).fe.bis = s.fe.bis :=
  by rw [← State.bare_fe_bis, raise_bare, State.bare_fe_bis]
@[simp] theorem raise_fe_ledgerCache (g src n : Nat) (d : Det) (s : State) : (raise g src n d s).fe.ledgerCache = s.fe.ledgerCache :=
  by rw [← State.bare_fe_ledgerCache, raise_bare, State.bare_fe_ledgerCache]
@[simp] theorem raise_fe_memInfoValid (g src n : Nat) (d : Det) (s : State) : (raise g src n d s).fe.memInfoValid = s.fe.memInfoValid :=
  by rw [← State.bare_fe_memInfoValid, raise_bare, State.bare_fe_memInfoValid]
@[simp] theorem raise_fe_restartAt (g src n : Nat) (d : Det) (s : State) : (raise g src n d s).fe.restartAt = s.fe.restartAt :=
  by rw [← State.bare_fe_restartAt, raise_bare, State.bare_fe_restartAt]
@[simp] theorem raise_portA_rate (g src n : Nat) (d : Det) (s : State) :
    (raise g src n d s).fe.portA.rate = s.fe.portA.rate :=
  by rw [← State.bare_portA_rate, raise_bare, State.bare_portA_rate]
@[simp] theorem raise_portA_level (g src n : Nat) (d : Det) (s : State) :
    (raise g src n d s).fe.portA.level = s.fe.portA.level :=
  by rw [← State.bare_portA_level, raise_bare, State.bare_portA_level]
@[simp] theorem raise_portA_msixEn (g src n : Nat) (d : Det) (s : State) :
    (raise g src n d s).fe.portA.msixEn = s.fe.portA.msixEn :=
  by rw [← State.bare_portA_msixEn, raise_bare, State.bare_portA_msixEn]
@[simp] theorem raise_portA_mbx (g src n : Nat) (d : Det) (s : State) :
    (raise g src n d s).fe.portA.mbx = s.fe.portA.mbx :=
  by rw [← State.bare_portA_mbx, raise_bare, State.bare_portA_mbx]
@[simp] theorem raise_portA_cxl (g src n : Nat) (d : Det) (s : State) :
    (raise g src n d s).fe.portA.cxl = s.fe.portA.cxl :=
  by rw [← State.bare_portA_cxl, raise_bare, State.bare_portA_cxl]
@[simp] theorem raise_portA_gpf (g src n : Nat) (d : Det) (s : State) :
    (raise g src n d s).fe.portA.gpf = s.fe.portA.gpf :=
  by rw [← State.bare_portA_gpf, raise_bare, State.bare_portA_gpf]
@[simp] theorem raise_portA_decoders (g src n : Nat) (d : Det) (s : State) :
    (raise g src n d s).fe.portA.decoders = s.fe.portA.decoders :=
  by rw [← State.bare_portA_decoders, raise_bare, State.bare_portA_decoders]
@[simp] theorem raise_portB_rate (g src n : Nat) (d : Det) (s : State) :
    (raise g src n d s).fe.portB.rate = s.fe.portB.rate :=
  by rw [← State.bare_portB_rate, raise_bare, State.bare_portB_rate]
@[simp] theorem raise_portB_level (g src n : Nat) (d : Det) (s : State) :
    (raise g src n d s).fe.portB.level = s.fe.portB.level :=
  by rw [← State.bare_portB_level, raise_bare, State.bare_portB_level]
@[simp] theorem raise_portB_msixEn (g src n : Nat) (d : Det) (s : State) :
    (raise g src n d s).fe.portB.msixEn = s.fe.portB.msixEn :=
  by rw [← State.bare_portB_msixEn, raise_bare, State.bare_portB_msixEn]
@[simp] theorem raise_portB_mbx (g src n : Nat) (d : Det) (s : State) :
    (raise g src n d s).fe.portB.mbx = s.fe.portB.mbx :=
  by rw [← State.bare_portB_mbx, raise_bare, State.bare_portB_mbx]
@[simp] theorem raise_portB_cxl (g src n : Nat) (d : Det) (s : State) :
    (raise g src n d s).fe.portB.cxl = s.fe.portB.cxl :=
  by rw [← State.bare_portB_cxl, raise_bare, State.bare_portB_cxl]
@[simp] theorem raise_portB_gpf (g src n : Nat) (d : Det) (s : State) :
    (raise g src n d s).fe.portB.gpf = s.fe.portB.gpf :=
  by rw [← State.bare_portB_gpf, raise_bare, State.bare_portB_gpf]
@[simp] theorem raise_portB_decoders (g src n : Nat) (d : Det) (s : State) :
    (raise g src n d s).fe.portB.decoders = s.fe.portB.decoders :=
  by rw [← State.bare_portB_decoders, raise_bare, State.bare_portB_decoders]

@[simp] theorem bump_board (i n : Nat) (s : State) : (bump i n s).board = s.board :=
  by rw [← State.bare_board, bump_bare, State.bare_board]
@[simp] theorem bump_isl (i n : Nat) (s : State) : (bump i n s).isl = s.isl :=
  by rw [← State.bare_isl, bump_bare, State.bare_isl]
@[simp] theorem bump_med (i n : Nat) (s : State) : (bump i n s).med = s.med :=
  by rw [← State.bare_med, bump_bare, State.bare_med]
@[simp] theorem bump_integ (i n : Nat) (s : State) : (bump i n s).integ = s.integ :=
  by rw [← State.bare_integ, bump_bare, State.bare_integ]
@[simp] theorem bump_led (i n : Nat) (s : State) : (bump i n s).led = s.led :=
  by rw [← State.bare_led, bump_bare, State.bare_led]
@[simp] theorem bump_pur (i n : Nat) (s : State) : (bump i n s).pur = s.pur :=
  by rw [← State.bare_pur, bump_bare, State.bare_pur]
@[simp] theorem bump_tbs (i n : Nat) (s : State) : (bump i n s).tbs = s.tbs :=
  by rw [← State.bare_tbs, bump_bare, State.bare_tbs]
@[simp] theorem bump_so (i n : Nat) (s : State) : (bump i n s).so = s.so :=
  by rw [← State.bare_so, bump_bare, State.bare_so]
@[simp] theorem bump_esc (i n : Nat) (s : State) : (bump i n s).esc = s.esc :=
  by rw [← State.bare_esc, bump_bare, State.bare_esc]
@[simp] theorem bump_cry (i n : Nat) (s : State) : (bump i n s).cry = s.cry :=
  by rw [← State.bare_cry, bump_bare, State.bare_cry]
@[simp] theorem bump_mov (i n : Nat) (s : State) : (bump i n s).mov = s.mov :=
  by rw [← State.bare_mov, bump_bare, State.bare_mov]
@[simp] theorem bump_ctl (i n : Nat) (s : State) : (bump i n s).ctl = s.ctl :=
  by rw [← State.bare_ctl, bump_bare, State.bare_ctl]
@[simp] theorem bump_pair (i n : Nat) (s : State) : (bump i n s).pair = s.pair :=
  by rw [← State.bare_pair, bump_bare, State.bare_pair]
@[simp] theorem bump_pb (i n : Nat) (s : State) : (bump i n s).pb = s.pb :=
  by rw [← State.bare_pb, bump_bare, State.bare_pb]
@[simp] theorem bump_sup (i n : Nat) (s : State) : (bump i n s).sup = s.sup :=
  by rw [← State.bare_sup, bump_bare, State.bare_sup]
@[simp] theorem bump_clock (i n : Nat) (s : State) : (bump i n s).clock = s.clock :=
  by rw [← State.bare_clock, bump_bare, State.bare_clock]
@[simp] theorem bump_pending (i n : Nat) (s : State) : (bump i n s).pending = s.pending :=
  by rw [← State.bare_pending, bump_bare, State.bare_pending]
@[simp] theorem bump_fe_txns (i n : Nat) (s : State) : (bump i n s).fe.txns = s.fe.txns :=
  by rw [← State.bare_fe_txns, bump_bare, State.bare_fe_txns]
@[simp] theorem bump_fe_sf (i n : Nat) (s : State) : (bump i n s).fe.sf = s.fe.sf :=
  by rw [← State.bare_fe_sf, bump_bare, State.bare_fe_sf]
@[simp] theorem bump_fe_bis (i n : Nat) (s : State) : (bump i n s).fe.bis = s.fe.bis :=
  by rw [← State.bare_fe_bis, bump_bare, State.bare_fe_bis]
@[simp] theorem bump_fe_ledgerCache (i n : Nat) (s : State) : (bump i n s).fe.ledgerCache = s.fe.ledgerCache :=
  by rw [← State.bare_fe_ledgerCache, bump_bare, State.bare_fe_ledgerCache]
@[simp] theorem bump_fe_memInfoValid (i n : Nat) (s : State) : (bump i n s).fe.memInfoValid = s.fe.memInfoValid :=
  by rw [← State.bare_fe_memInfoValid, bump_bare, State.bare_fe_memInfoValid]
@[simp] theorem bump_fe_restartAt (i n : Nat) (s : State) : (bump i n s).fe.restartAt = s.fe.restartAt :=
  by rw [← State.bare_fe_restartAt, bump_bare, State.bare_fe_restartAt]
@[simp] theorem bump_portA_rate (i n : Nat) (s : State) :
    (bump i n s).fe.portA.rate = s.fe.portA.rate :=
  by rw [← State.bare_portA_rate, bump_bare, State.bare_portA_rate]
@[simp] theorem bump_portA_level (i n : Nat) (s : State) :
    (bump i n s).fe.portA.level = s.fe.portA.level :=
  by rw [← State.bare_portA_level, bump_bare, State.bare_portA_level]
@[simp] theorem bump_portA_msixEn (i n : Nat) (s : State) :
    (bump i n s).fe.portA.msixEn = s.fe.portA.msixEn :=
  by rw [← State.bare_portA_msixEn, bump_bare, State.bare_portA_msixEn]
@[simp] theorem bump_portA_mbx (i n : Nat) (s : State) :
    (bump i n s).fe.portA.mbx = s.fe.portA.mbx :=
  by rw [← State.bare_portA_mbx, bump_bare, State.bare_portA_mbx]
@[simp] theorem bump_portA_cxl (i n : Nat) (s : State) :
    (bump i n s).fe.portA.cxl = s.fe.portA.cxl :=
  by rw [← State.bare_portA_cxl, bump_bare, State.bare_portA_cxl]
@[simp] theorem bump_portA_gpf (i n : Nat) (s : State) :
    (bump i n s).fe.portA.gpf = s.fe.portA.gpf :=
  by rw [← State.bare_portA_gpf, bump_bare, State.bare_portA_gpf]
@[simp] theorem bump_portA_decoders (i n : Nat) (s : State) :
    (bump i n s).fe.portA.decoders = s.fe.portA.decoders :=
  by rw [← State.bare_portA_decoders, bump_bare, State.bare_portA_decoders]
@[simp] theorem bump_portB_rate (i n : Nat) (s : State) :
    (bump i n s).fe.portB.rate = s.fe.portB.rate :=
  by rw [← State.bare_portB_rate, bump_bare, State.bare_portB_rate]
@[simp] theorem bump_portB_level (i n : Nat) (s : State) :
    (bump i n s).fe.portB.level = s.fe.portB.level :=
  by rw [← State.bare_portB_level, bump_bare, State.bare_portB_level]
@[simp] theorem bump_portB_msixEn (i n : Nat) (s : State) :
    (bump i n s).fe.portB.msixEn = s.fe.portB.msixEn :=
  by rw [← State.bare_portB_msixEn, bump_bare, State.bare_portB_msixEn]
@[simp] theorem bump_portB_mbx (i n : Nat) (s : State) :
    (bump i n s).fe.portB.mbx = s.fe.portB.mbx :=
  by rw [← State.bare_portB_mbx, bump_bare, State.bare_portB_mbx]
@[simp] theorem bump_portB_cxl (i n : Nat) (s : State) :
    (bump i n s).fe.portB.cxl = s.fe.portB.cxl :=
  by rw [← State.bare_portB_cxl, bump_bare, State.bare_portB_cxl]
@[simp] theorem bump_portB_gpf (i n : Nat) (s : State) :
    (bump i n s).fe.portB.gpf = s.fe.portB.gpf :=
  by rw [← State.bare_portB_gpf, bump_bare, State.bare_portB_gpf]
@[simp] theorem bump_portB_decoders (i n : Nat) (s : State) :
    (bump i n s).fe.portB.decoders = s.fe.portB.decoders :=
  by rw [← State.bare_portB_decoders, bump_bare, State.bare_portB_decoders]

@[simp] theorem notifyVec_board (h : Head) (v : Nat) (s : State) : (notifyVec h v s).board = s.board :=
  by rw [← State.bare_board, notifyVec_bare, State.bare_board]
@[simp] theorem notifyVec_isl (h : Head) (v : Nat) (s : State) : (notifyVec h v s).isl = s.isl :=
  by rw [← State.bare_isl, notifyVec_bare, State.bare_isl]
@[simp] theorem notifyVec_med (h : Head) (v : Nat) (s : State) : (notifyVec h v s).med = s.med :=
  by rw [← State.bare_med, notifyVec_bare, State.bare_med]
@[simp] theorem notifyVec_integ (h : Head) (v : Nat) (s : State) : (notifyVec h v s).integ = s.integ :=
  by rw [← State.bare_integ, notifyVec_bare, State.bare_integ]
@[simp] theorem notifyVec_led (h : Head) (v : Nat) (s : State) : (notifyVec h v s).led = s.led :=
  by rw [← State.bare_led, notifyVec_bare, State.bare_led]
@[simp] theorem notifyVec_pur (h : Head) (v : Nat) (s : State) : (notifyVec h v s).pur = s.pur :=
  by rw [← State.bare_pur, notifyVec_bare, State.bare_pur]
@[simp] theorem notifyVec_tbs (h : Head) (v : Nat) (s : State) : (notifyVec h v s).tbs = s.tbs :=
  by rw [← State.bare_tbs, notifyVec_bare, State.bare_tbs]
@[simp] theorem notifyVec_so (h : Head) (v : Nat) (s : State) : (notifyVec h v s).so = s.so :=
  by rw [← State.bare_so, notifyVec_bare, State.bare_so]
@[simp] theorem notifyVec_esc (h : Head) (v : Nat) (s : State) : (notifyVec h v s).esc = s.esc :=
  by rw [← State.bare_esc, notifyVec_bare, State.bare_esc]
@[simp] theorem notifyVec_cry (h : Head) (v : Nat) (s : State) : (notifyVec h v s).cry = s.cry :=
  by rw [← State.bare_cry, notifyVec_bare, State.bare_cry]
@[simp] theorem notifyVec_mov (h : Head) (v : Nat) (s : State) : (notifyVec h v s).mov = s.mov :=
  by rw [← State.bare_mov, notifyVec_bare, State.bare_mov]
@[simp] theorem notifyVec_ctl (h : Head) (v : Nat) (s : State) : (notifyVec h v s).ctl = s.ctl :=
  by rw [← State.bare_ctl, notifyVec_bare, State.bare_ctl]
@[simp] theorem notifyVec_pair (h : Head) (v : Nat) (s : State) : (notifyVec h v s).pair = s.pair :=
  by rw [← State.bare_pair, notifyVec_bare, State.bare_pair]
@[simp] theorem notifyVec_pb (h : Head) (v : Nat) (s : State) : (notifyVec h v s).pb = s.pb :=
  by rw [← State.bare_pb, notifyVec_bare, State.bare_pb]
@[simp] theorem notifyVec_sup (h : Head) (v : Nat) (s : State) : (notifyVec h v s).sup = s.sup :=
  by rw [← State.bare_sup, notifyVec_bare, State.bare_sup]
@[simp] theorem notifyVec_clock (h : Head) (v : Nat) (s : State) : (notifyVec h v s).clock = s.clock :=
  by rw [← State.bare_clock, notifyVec_bare, State.bare_clock]
@[simp] theorem notifyVec_pending (h : Head) (v : Nat) (s : State) : (notifyVec h v s).pending = s.pending :=
  by rw [← State.bare_pending, notifyVec_bare, State.bare_pending]
@[simp] theorem notifyVec_fe_txns (h : Head) (v : Nat) (s : State) : (notifyVec h v s).fe.txns = s.fe.txns :=
  by rw [← State.bare_fe_txns, notifyVec_bare, State.bare_fe_txns]
@[simp] theorem notifyVec_fe_sf (h : Head) (v : Nat) (s : State) : (notifyVec h v s).fe.sf = s.fe.sf :=
  by rw [← State.bare_fe_sf, notifyVec_bare, State.bare_fe_sf]
@[simp] theorem notifyVec_fe_bis (h : Head) (v : Nat) (s : State) : (notifyVec h v s).fe.bis = s.fe.bis :=
  by rw [← State.bare_fe_bis, notifyVec_bare, State.bare_fe_bis]
@[simp] theorem notifyVec_fe_ledgerCache (h : Head) (v : Nat) (s : State) : (notifyVec h v s).fe.ledgerCache = s.fe.ledgerCache :=
  by rw [← State.bare_fe_ledgerCache, notifyVec_bare, State.bare_fe_ledgerCache]
@[simp] theorem notifyVec_fe_memInfoValid (h : Head) (v : Nat) (s : State) : (notifyVec h v s).fe.memInfoValid = s.fe.memInfoValid :=
  by rw [← State.bare_fe_memInfoValid, notifyVec_bare, State.bare_fe_memInfoValid]
@[simp] theorem notifyVec_fe_restartAt (h : Head) (v : Nat) (s : State) : (notifyVec h v s).fe.restartAt = s.fe.restartAt :=
  by rw [← State.bare_fe_restartAt, notifyVec_bare, State.bare_fe_restartAt]
@[simp] theorem notifyVec_portA_rate (h : Head) (v : Nat) (s : State) :
    (notifyVec h v s).fe.portA.rate = s.fe.portA.rate :=
  by rw [← State.bare_portA_rate, notifyVec_bare, State.bare_portA_rate]
@[simp] theorem notifyVec_portA_level (h : Head) (v : Nat) (s : State) :
    (notifyVec h v s).fe.portA.level = s.fe.portA.level :=
  by rw [← State.bare_portA_level, notifyVec_bare, State.bare_portA_level]
@[simp] theorem notifyVec_portA_msixEn (h : Head) (v : Nat) (s : State) :
    (notifyVec h v s).fe.portA.msixEn = s.fe.portA.msixEn :=
  by rw [← State.bare_portA_msixEn, notifyVec_bare, State.bare_portA_msixEn]
@[simp] theorem notifyVec_portA_mbx (h : Head) (v : Nat) (s : State) :
    (notifyVec h v s).fe.portA.mbx = s.fe.portA.mbx :=
  by rw [← State.bare_portA_mbx, notifyVec_bare, State.bare_portA_mbx]
@[simp] theorem notifyVec_portA_cxl (h : Head) (v : Nat) (s : State) :
    (notifyVec h v s).fe.portA.cxl = s.fe.portA.cxl :=
  by rw [← State.bare_portA_cxl, notifyVec_bare, State.bare_portA_cxl]
@[simp] theorem notifyVec_portA_gpf (h : Head) (v : Nat) (s : State) :
    (notifyVec h v s).fe.portA.gpf = s.fe.portA.gpf :=
  by rw [← State.bare_portA_gpf, notifyVec_bare, State.bare_portA_gpf]
@[simp] theorem notifyVec_portA_decoders (h : Head) (v : Nat) (s : State) :
    (notifyVec h v s).fe.portA.decoders = s.fe.portA.decoders :=
  by rw [← State.bare_portA_decoders, notifyVec_bare, State.bare_portA_decoders]
@[simp] theorem notifyVec_portB_rate (h : Head) (v : Nat) (s : State) :
    (notifyVec h v s).fe.portB.rate = s.fe.portB.rate :=
  by rw [← State.bare_portB_rate, notifyVec_bare, State.bare_portB_rate]
@[simp] theorem notifyVec_portB_level (h : Head) (v : Nat) (s : State) :
    (notifyVec h v s).fe.portB.level = s.fe.portB.level :=
  by rw [← State.bare_portB_level, notifyVec_bare, State.bare_portB_level]
@[simp] theorem notifyVec_portB_msixEn (h : Head) (v : Nat) (s : State) :
    (notifyVec h v s).fe.portB.msixEn = s.fe.portB.msixEn :=
  by rw [← State.bare_portB_msixEn, notifyVec_bare, State.bare_portB_msixEn]
@[simp] theorem notifyVec_portB_mbx (h : Head) (v : Nat) (s : State) :
    (notifyVec h v s).fe.portB.mbx = s.fe.portB.mbx :=
  by rw [← State.bare_portB_mbx, notifyVec_bare, State.bare_portB_mbx]
@[simp] theorem notifyVec_portB_cxl (h : Head) (v : Nat) (s : State) :
    (notifyVec h v s).fe.portB.cxl = s.fe.portB.cxl :=
  by rw [← State.bare_portB_cxl, notifyVec_bare, State.bare_portB_cxl]
@[simp] theorem notifyVec_portB_gpf (h : Head) (v : Nat) (s : State) :
    (notifyVec h v s).fe.portB.gpf = s.fe.portB.gpf :=
  by rw [← State.bare_portB_gpf, notifyVec_bare, State.bare_portB_gpf]
@[simp] theorem notifyVec_portB_decoders (h : Head) (v : Nat) (s : State) :
    (notifyVec h v s).fe.portB.decoders = s.fe.portB.decoders :=
  by rw [← State.bare_portB_decoders, notifyVec_bare, State.bare_portB_decoders]

@[simp] theorem send_ev (o : Out) (s : State) : (send o s).ev = s.ev := rfl
@[simp] theorem send_regs (o : Out) (s : State) : (send o s).regs = s.regs := rfl
@[simp] theorem send_outbox (o : Out) (s : State) : (send o s).outbox = o :: s.outbox := rfl
@[simp] theorem send_board (o : Out) (s : State) : (send o s).board = s.board := rfl
@[simp] theorem send_isl (o : Out) (s : State) : (send o s).isl = s.isl := rfl
@[simp] theorem send_med (o : Out) (s : State) : (send o s).med = s.med := rfl
@[simp] theorem send_integ (o : Out) (s : State) : (send o s).integ = s.integ := rfl
@[simp] theorem send_led (o : Out) (s : State) : (send o s).led = s.led := rfl
@[simp] theorem send_pur (o : Out) (s : State) : (send o s).pur = s.pur := rfl
@[simp] theorem send_tbs (o : Out) (s : State) : (send o s).tbs = s.tbs := rfl
@[simp] theorem send_so (o : Out) (s : State) : (send o s).so = s.so := rfl
@[simp] theorem send_esc (o : Out) (s : State) : (send o s).esc = s.esc := rfl
@[simp] theorem send_cry (o : Out) (s : State) : (send o s).cry = s.cry := rfl
@[simp] theorem send_mov (o : Out) (s : State) : (send o s).mov = s.mov := rfl
@[simp] theorem send_ctl (o : Out) (s : State) : (send o s).ctl = s.ctl := rfl
@[simp] theorem send_pair (o : Out) (s : State) : (send o s).pair = s.pair := rfl
@[simp] theorem send_pb (o : Out) (s : State) : (send o s).pb = s.pb := rfl
@[simp] theorem send_sup (o : Out) (s : State) : (send o s).sup = s.sup := rfl
@[simp] theorem send_clock (o : Out) (s : State) : (send o s).clock = s.clock := rfl
@[simp] theorem send_pending (o : Out) (s : State) : (send o s).pending = s.pending := rfl
@[simp] theorem send_fe_txns (o : Out) (s : State) : (send o s).fe.txns = s.fe.txns := rfl
@[simp] theorem send_fe_sf (o : Out) (s : State) : (send o s).fe.sf = s.fe.sf := rfl
@[simp] theorem send_fe_bis (o : Out) (s : State) : (send o s).fe.bis = s.fe.bis := rfl
@[simp] theorem send_fe_ledgerCache (o : Out) (s : State) : (send o s).fe.ledgerCache = s.fe.ledgerCache := rfl
@[simp] theorem send_fe_memInfoValid (o : Out) (s : State) : (send o s).fe.memInfoValid = s.fe.memInfoValid := rfl
@[simp] theorem send_fe_restartAt (o : Out) (s : State) : (send o s).fe.restartAt = s.fe.restartAt := rfl
@[simp] theorem send_fe (o : Out) (s : State) : (send o s).fe = s.fe := rfl

@[simp] theorem rset_board (s : State) (k : Nat) (v : BitVec 32) : (rset s k v).board = s.board := rfl
@[simp] theorem rset_isl (s : State) (k : Nat) (v : BitVec 32) : (rset s k v).isl = s.isl := rfl
@[simp] theorem rset_med (s : State) (k : Nat) (v : BitVec 32) : (rset s k v).med = s.med := rfl
@[simp] theorem rset_integ (s : State) (k : Nat) (v : BitVec 32) : (rset s k v).integ = s.integ := rfl
@[simp] theorem rset_led (s : State) (k : Nat) (v : BitVec 32) : (rset s k v).led = s.led := rfl
@[simp] theorem rset_pur (s : State) (k : Nat) (v : BitVec 32) : (rset s k v).pur = s.pur := rfl
@[simp] theorem rset_tbs (s : State) (k : Nat) (v : BitVec 32) : (rset s k v).tbs = s.tbs := rfl
@[simp] theorem rset_so (s : State) (k : Nat) (v : BitVec 32) : (rset s k v).so = s.so := rfl
@[simp] theorem rset_esc (s : State) (k : Nat) (v : BitVec 32) : (rset s k v).esc = s.esc := rfl
@[simp] theorem rset_cry (s : State) (k : Nat) (v : BitVec 32) : (rset s k v).cry = s.cry := rfl
@[simp] theorem rset_mov (s : State) (k : Nat) (v : BitVec 32) : (rset s k v).mov = s.mov := rfl
@[simp] theorem rset_ctl (s : State) (k : Nat) (v : BitVec 32) : (rset s k v).ctl = s.ctl := rfl
@[simp] theorem rset_pair (s : State) (k : Nat) (v : BitVec 32) : (rset s k v).pair = s.pair := rfl
@[simp] theorem rset_pb (s : State) (k : Nat) (v : BitVec 32) : (rset s k v).pb = s.pb := rfl
@[simp] theorem rset_sup (s : State) (k : Nat) (v : BitVec 32) : (rset s k v).sup = s.sup := rfl
@[simp] theorem rset_clock (s : State) (k : Nat) (v : BitVec 32) : (rset s k v).clock = s.clock := rfl
@[simp] theorem rset_pending (s : State) (k : Nat) (v : BitVec 32) : (rset s k v).pending = s.pending := rfl
@[simp] theorem rset_fe_txns (s : State) (k : Nat) (v : BitVec 32) : (rset s k v).fe.txns = s.fe.txns := rfl
@[simp] theorem rset_fe_sf (s : State) (k : Nat) (v : BitVec 32) : (rset s k v).fe.sf = s.fe.sf := rfl
@[simp] theorem rset_fe_bis (s : State) (k : Nat) (v : BitVec 32) : (rset s k v).fe.bis = s.fe.bis := rfl
@[simp] theorem rset_fe_ledgerCache (s : State) (k : Nat) (v : BitVec 32) : (rset s k v).fe.ledgerCache = s.fe.ledgerCache := rfl
@[simp] theorem rset_fe_memInfoValid (s : State) (k : Nat) (v : BitVec 32) : (rset s k v).fe.memInfoValid = s.fe.memInfoValid := rfl
@[simp] theorem rset_fe_restartAt (s : State) (k : Nat) (v : BitVec 32) : (rset s k v).fe.restartAt = s.fe.restartAt := rfl
@[simp] theorem rset_fe (s : State) (k : Nat) (v : BitVec 32) : (rset s k v).fe = s.fe := rfl

@[simp] theorem rbit_board (s : State) (k i : Nat) : (rbit s k i).board = s.board := rfl
@[simp] theorem rbit_isl (s : State) (k i : Nat) : (rbit s k i).isl = s.isl := rfl
@[simp] theorem rbit_med (s : State) (k i : Nat) : (rbit s k i).med = s.med := rfl
@[simp] theorem rbit_integ (s : State) (k i : Nat) : (rbit s k i).integ = s.integ := rfl
@[simp] theorem rbit_led (s : State) (k i : Nat) : (rbit s k i).led = s.led := rfl
@[simp] theorem rbit_pur (s : State) (k i : Nat) : (rbit s k i).pur = s.pur := rfl
@[simp] theorem rbit_tbs (s : State) (k i : Nat) : (rbit s k i).tbs = s.tbs := rfl
@[simp] theorem rbit_so (s : State) (k i : Nat) : (rbit s k i).so = s.so := rfl
@[simp] theorem rbit_esc (s : State) (k i : Nat) : (rbit s k i).esc = s.esc := rfl
@[simp] theorem rbit_cry (s : State) (k i : Nat) : (rbit s k i).cry = s.cry := rfl
@[simp] theorem rbit_mov (s : State) (k i : Nat) : (rbit s k i).mov = s.mov := rfl
@[simp] theorem rbit_ctl (s : State) (k i : Nat) : (rbit s k i).ctl = s.ctl := rfl
@[simp] theorem rbit_pair (s : State) (k i : Nat) : (rbit s k i).pair = s.pair := rfl
@[simp] theorem rbit_pb (s : State) (k i : Nat) : (rbit s k i).pb = s.pb := rfl
@[simp] theorem rbit_sup (s : State) (k i : Nat) : (rbit s k i).sup = s.sup := rfl
@[simp] theorem rbit_clock (s : State) (k i : Nat) : (rbit s k i).clock = s.clock := rfl
@[simp] theorem rbit_pending (s : State) (k i : Nat) : (rbit s k i).pending = s.pending := rfl
@[simp] theorem rbit_fe_txns (s : State) (k i : Nat) : (rbit s k i).fe.txns = s.fe.txns := rfl
@[simp] theorem rbit_fe_sf (s : State) (k i : Nat) : (rbit s k i).fe.sf = s.fe.sf := rfl
@[simp] theorem rbit_fe_bis (s : State) (k i : Nat) : (rbit s k i).fe.bis = s.fe.bis := rfl
@[simp] theorem rbit_fe_ledgerCache (s : State) (k i : Nat) : (rbit s k i).fe.ledgerCache = s.fe.ledgerCache := rfl
@[simp] theorem rbit_fe_memInfoValid (s : State) (k i : Nat) : (rbit s k i).fe.memInfoValid = s.fe.memInfoValid := rfl
@[simp] theorem rbit_fe_restartAt (s : State) (k i : Nat) : (rbit s k i).fe.restartAt = s.fe.restartAt := rfl
@[simp] theorem rbit_fe (s : State) (k i : Nat) : (rbit s k i).fe = s.fe := rfl

@[simp] theorem rinc_board (s : State) (k n : Nat) : (rinc s k n).board = s.board := rfl
@[simp] theorem rinc_isl (s : State) (k n : Nat) : (rinc s k n).isl = s.isl := rfl
@[simp] theorem rinc_med (s : State) (k n : Nat) : (rinc s k n).med = s.med := rfl
@[simp] theorem rinc_integ (s : State) (k n : Nat) : (rinc s k n).integ = s.integ := rfl
@[simp] theorem rinc_led (s : State) (k n : Nat) : (rinc s k n).led = s.led := rfl
@[simp] theorem rinc_pur (s : State) (k n : Nat) : (rinc s k n).pur = s.pur := rfl
@[simp] theorem rinc_tbs (s : State) (k n : Nat) : (rinc s k n).tbs = s.tbs := rfl
@[simp] theorem rinc_so (s : State) (k n : Nat) : (rinc s k n).so = s.so := rfl
@[simp] theorem rinc_esc (s : State) (k n : Nat) : (rinc s k n).esc = s.esc := rfl
@[simp] theorem rinc_cry (s : State) (k n : Nat) : (rinc s k n).cry = s.cry := rfl
@[simp] theorem rinc_mov (s : State) (k n : Nat) : (rinc s k n).mov = s.mov := rfl
@[simp] theorem rinc_ctl (s : State) (k n : Nat) : (rinc s k n).ctl = s.ctl := rfl
@[simp] theorem rinc_pair (s : State) (k n : Nat) : (rinc s k n).pair = s.pair := rfl
@[simp] theorem rinc_pb (s : State) (k n : Nat) : (rinc s k n).pb = s.pb := rfl
@[simp] theorem rinc_sup (s : State) (k n : Nat) : (rinc s k n).sup = s.sup := rfl
@[simp] theorem rinc_clock (s : State) (k n : Nat) : (rinc s k n).clock = s.clock := rfl
@[simp] theorem rinc_pending (s : State) (k n : Nat) : (rinc s k n).pending = s.pending := rfl
@[simp] theorem rinc_fe_txns (s : State) (k n : Nat) : (rinc s k n).fe.txns = s.fe.txns := rfl
@[simp] theorem rinc_fe_sf (s : State) (k n : Nat) : (rinc s k n).fe.sf = s.fe.sf := rfl
@[simp] theorem rinc_fe_bis (s : State) (k n : Nat) : (rinc s k n).fe.bis = s.fe.bis := rfl
@[simp] theorem rinc_fe_ledgerCache (s : State) (k n : Nat) : (rinc s k n).fe.ledgerCache = s.fe.ledgerCache := rfl
@[simp] theorem rinc_fe_memInfoValid (s : State) (k n : Nat) : (rinc s k n).fe.memInfoValid = s.fe.memInfoValid := rfl
@[simp] theorem rinc_fe_restartAt (s : State) (k n : Nat) : (rinc s k n).fe.restartAt = s.fe.restartAt := rfl
@[simp] theorem rinc_fe (s : State) (k n : Nat) : (rinc s k n).fe = s.fe := rfl

end Sys2Proof.Machine
end

