-- ==== Sys2Proof/Laws/Table.lean ====
section
/-! SUPPORT. Sparse tables and stored registers: a read after a write, and the canonical form. -/

namespace Sys2Proof.Machine

variable {α : Type} [DecidableEq α]

omit [DecidableEq α] in
theorem tget_filter_ne (d : α) (t : Tab α) (k k' : Nat) (h : k' ≠ k) :
    tget d (t.filter fun e => e.1 != k) k' = tget d t k' := by
  induction t with
  | nil => rfl
  | cons e r ih =>
    obtain ⟨a, v⟩ := e
    rw [List.filter_cons]
    by_cases ha : a = k
    · subst ha; simp [tget, ih, h]
    · have : (a != k) = true := by simpa using ha
      simp only [this, if_true, tget, ih]

omit [DecidableEq α] in
theorem tget_filter_same (d : α) (t : Tab α) (k : Nat) : tget d (t.filter fun e => e.1 != k) k = d := by
  induction t with
  | nil => rfl
  | cons e r ih =>
    obtain ⟨a, v⟩ := e
    rw [List.filter_cons]
    by_cases ha : a = k
    · subst ha; simpa using ih
    · have : (a != k) = true := by simpa using ha
      simp only [this, if_true, tget, ih, if_neg (Ne.symm ha)]

omit [DecidableEq α] in
theorem tget_tins_ne (d : α) (t : Tab α) (k k' : Nat) (v : α) (h : k' ≠ k) : tget d (tins k v t) k' = tget d t k' := by
  induction t with
  | nil => simp [tins, tget, h]
  | cons e r ih =>
    obtain ⟨a, w⟩ := e
    simp only [tins]
    split <;> simp [tget, ih, h]

omit [DecidableEq α] in
theorem tget_tins_same (d : α) (t : Tab α) (k : Nat) (v : α) (h : ∀ e ∈ t, e.1 ≠ k) : tget d (tins k v t) k = v := by
  induction t with
  | nil => simp [tins, tget]
  | cons e r ih =>
    obtain ⟨a, w⟩ := e
    have ha : a ≠ k := h (a, w) (by simp)
    simp only [tins]
    split
    · simp [tget]
    · simp [tget, Ne.symm ha, ih fun e he => h e (by simp [he])]

/-- A read after a write of the same key. -/
@[simp] theorem tget_tput_same (d : α) (t : Tab α) (k : Nat) (v : α) : tget d (tput d t k v) k = v := by
  simp only [tput]
  split
  · rename_i h; rw [tget_filter_same, h]
  · exact tget_tins_same _ _ _ _ fun e he => by simpa using (List.mem_filter.mp he).2

/-- A read of another key, whatever the two defaults. -/
theorem tget_tput_ne (d d' : α) (t : Tab α) (k k' : Nat) (v : α) (h : k' ≠ k) : tget d' (tput d t k v) k' = tget d' t k' := by
  simp only [tput]
  split
  · exact tget_filter_ne _ _ _ _ h
  · rw [tget_tins_ne _ _ _ _ _ h, tget_filter_ne _ _ _ _ h]

theorem twf_tail (d : α) (e : Nat × α) (r : Tab α) (h : twf d (e :: r) = true) : twf d r = true := by
  obtain ⟨a, v⟩ := e
  cases r with
  | nil => rfl
  | cons f r => obtain ⟨b, w⟩ := f; simp [twf] at h ⊢; exact h.2

theorem twf_head (d : α) (a : Nat) (v : α) (r : Tab α) (h : twf d ((a, v) :: r) = true) : v ≠ d ∧ ∀ e ∈ r, a < e.1 := by
  induction r generalizing a v with
  | nil => simpa [twf] using h
  | cons f r ih =>
    obtain ⟨b, w⟩ := f
    have ht := twf_tail _ _ _ h
    simp [twf] at h
    refine ⟨h.1.1, fun e he => ?_⟩
    rcases List.mem_cons.mp he with rfl | he
    · exact h.1.2
    · exact h.1.2.trans ((ih _ _ ht).2 e he)

theorem twf_cons (d : α) (a : Nat) (v : α) (r : Tab α) (hv : v ≠ d) (hk : ∀ e ∈ r, a < e.1) (hr : twf d r = true) :
    twf d ((a, v) :: r) = true := by
  cases r with
  | nil => simpa [twf] using hv
  | cons f r => obtain ⟨b, w⟩ := f; simp [twf]; exact ⟨⟨hv, hk (b, w) (by simp)⟩, hr⟩

theorem twf_filter (d : α) (t : Tab α) (p : Nat × α → Bool) (h : twf d t = true) : twf d (t.filter p) = true := by
  induction t with
  | nil => rfl
  | cons e r ih =>
    obtain ⟨a, v⟩ := e
    have hh := twf_head _ _ _ _ h
    have hr := ih (twf_tail _ _ _ h)
    simp only [List.filter]
    split
    · exact twf_cons _ _ _ _ hh.1 (fun e he => hh.2 e (List.mem_filter.mp he).1) hr
    · exact hr

omit [DecidableEq α] in
theorem mem_tins (k : Nat) (v : α) (t : Tab α) (e : Nat × α) (h : e ∈ tins k v t) : e = (k, v) ∨ e ∈ t := by
  induction t with
  | nil => simpa [tins] using h
  | cons f r ih =>
    obtain ⟨a, w⟩ := f
    simp only [tins] at h
    split at h
    · simpa using h
    · rcases List.mem_cons.mp h with h | h
      · exact .inr (by simp [h])
      · rcases ih h with h | h
        · exact .inl h
        · exact .inr (by simp [h])

theorem twf_tins (d : α) (t : Tab α) (k : Nat) (v : α) (hv : v ≠ d) (hk : ∀ e ∈ t, e.1 ≠ k) (h : twf d t = true) :
    twf d (tins k v t) = true := by
  induction t with
  | nil => simpa [tins, twf] using hv
  | cons f r ih =>
    obtain ⟨a, w⟩ := f
    have hh := twf_head _ _ _ _ h
    have ha : a ≠ k := hk (a, w) (by simp)
    simp only [tins]
    split
    · rename_i hlt
      refine twf_cons _ _ _ _ hv (fun e he => ?_) h
      rcases List.mem_cons.mp he with rfl | he
      · exact hlt
      · exact hlt.trans (hh.2 e he)
    · refine twf_cons _ _ _ _ hh.1 (fun e he => ?_) (ih (fun e he => hk e (by simp [he])) (twf_tail _ _ _ h))
      rcases mem_tins _ _ _ _ he with rfl | he
      · omega
      · exact hh.2 e he

/-- A write keeps the canonical form. -/
theorem twf_tput (d : α) (t : Tab α) (k : Nat) (v : α) (h : twf d t = true) : twf d (tput d t k v) = true := by
  simp only [tput]
  split
  · exact twf_filter _ _ _ h
  · exact twf_tins _ _ _ _ ‹_› (fun e he => by simpa using (List.mem_filter.mp he).2) (twf_filter _ _ _ h)

/-! Stored registers. -/

@[simp] theorem rget_rset_same (s : State) (k : Nat) (v : BitVec 32) : rget (rset s k v) k = v := by simp [rget, rset]

theorem rget_rset_ne (s : State) (k k' : Nat) (v : BitVec 32) (h : k' ≠ k) : rget (rset s k v) k' = rget s k' := by
  simp only [rget, rset, State.setRegs_regs]; exact tget_tput_ne _ _ _ _ _ _ h

@[simp] theorem rget_rbit_same (s : State) (k i : Nat) : rget (rbit s k i) k = rget s k ||| (1 <<< i) := by simp [rbit]

theorem rget_rbit_ne (s : State) (k k' i : Nat) (h : k' ≠ k) : rget (rbit s k i) k' = rget s k' := rget_rset_ne _ _ _ _ h

/-! Updates of the blocks write no stored register. -/

@[simp] theorem rget_modIsl (s : State) (f : Islands → Islands) (k : Nat) : rget (s.modIsl f) k = rget s k := rfl
@[simp] theorem rval_modIsl (s : State) (f : Islands → Islands) (k : Nat) : rval (s.modIsl f) k = rval s k := rfl
@[simp] theorem rget_modMed (s : State) (f : Media → Media) (k : Nat) : rget (s.modMed f) k = rget s k := rfl
@[simp] theorem rval_modMed (s : State) (f : Media → Media) (k : Nat) : rval (s.modMed f) k = rval s k := rfl
@[simp] theorem rget_modInteg (s : State) (f : Integrity → Integrity) (k : Nat) : rget (s.modInteg f) k = rget s k := rfl
@[simp] theorem rval_modInteg (s : State) (f : Integrity → Integrity) (k : Nat) : rval (s.modInteg f) k = rval s k := rfl
@[simp] theorem rget_modLed (s : State) (f : Ledger → Ledger) (k : Nat) : rget (s.modLed f) k = rget s k := rfl
@[simp] theorem rval_modLed (s : State) (f : Ledger → Ledger) (k : Nat) : rval (s.modLed f) k = rval s k := rfl
@[simp] theorem rget_modPur (s : State) (f : Purse → Purse) (k : Nat) : rget (s.modPur f) k = rget s k := rfl
@[simp] theorem rval_modPur (s : State) (f : Purse → Purse) (k : Nat) : rval (s.modPur f) k = rval s k := rfl
@[simp] theorem rget_modTbs (s : State) (f : Timebase → Timebase) (k : Nat) : rget (s.modTbs f) k = rget s k := rfl
@[simp] theorem rval_modTbs (s : State) (f : Timebase → Timebase) (k : Nat) : rval (s.modTbs f) k = rval s k := rfl
@[simp] theorem rget_modSo (s : State) (f : Orders → Orders) (k : Nat) : rget (s.modSo f) k = rget s k := rfl
@[simp] theorem rval_modSo (s : State) (f : Orders → Orders) (k : Nat) : rval (s.modSo f) k = rval s k := rfl
@[simp] theorem rget_modEsc (s : State) (f : Escrows → Escrows) (k : Nat) : rget (s.modEsc f) k = rget s k := rfl
@[simp] theorem rval_modEsc (s : State) (f : Escrows → Escrows) (k : Nat) : rval (s.modEsc f) k = rval s k := rfl
@[simp] theorem rget_modCry (s : State) (f : Crypto → Crypto) (k : Nat) : rget (s.modCry f) k = rget s k := rfl
@[simp] theorem rval_modCry (s : State) (f : Crypto → Crypto) (k : Nat) : rval (s.modCry f) k = rval s k := rfl
@[simp] theorem rget_modMov (s : State) (f : Mover → Mover) (k : Nat) : rget (s.modMov f) k = rget s k := rfl
@[simp] theorem rval_modMov (s : State) (f : Mover → Mover) (k : Nat) : rval (s.modMov f) k = rval s k := rfl
@[simp] theorem rget_modFe (s : State) (f : Front → Front) (k : Nat) : rget (s.modFe f) k = rget s k := rfl
@[simp] theorem rval_modFe (s : State) (f : Front → Front) (k : Nat) : rval (s.modFe f) k = rval s k := rfl
@[simp] theorem rget_modCtl (s : State) (f : Control → Control) (k : Nat) : rget (s.modCtl f) k = rget s k := rfl
@[simp] theorem rval_modCtl (s : State) (f : Control → Control) (k : Nat) : rval (s.modCtl f) k = rval s k := rfl
@[simp] theorem rget_modPair (s : State) (f : Pair → Pair) (k : Nat) : rget (s.modPair f) k = rget s k := rfl
@[simp] theorem rval_modPair (s : State) (f : Pair → Pair) (k : Nat) : rval (s.modPair f) k = rval s k := rfl
@[simp] theorem rget_modEv (s : State) (f : Events → Events) (k : Nat) : rget (s.modEv f) k = rget s k := rfl
@[simp] theorem rval_modEv (s : State) (f : Events → Events) (k : Nat) : rval (s.modEv f) k = rval s k := rfl
@[simp] theorem rget_modPb (s : State) (f : Passbook → Passbook) (k : Nat) : rget (s.modPb f) k = rget s k := rfl
@[simp] theorem rval_modPb (s : State) (f : Passbook → Passbook) (k : Nat) : rval (s.modPb f) k = rval s k := rfl
@[simp] theorem rget_modSup (s : State) (f : Super → Super) (k : Nat) : rget (s.modSup f) k = rget s k := rfl
@[simp] theorem rval_modSup (s : State) (f : Super → Super) (k : Nat) : rval (s.modSup f) k = rval s k := rfl
@[simp] theorem rget_send (o : Out) (s : State) (k : Nat) : rget (send o s) k = rget s k := rfl
@[simp] theorem rval_send (o : Out) (s : State) (k : Nat) : rval (send o s) k = rval s k := rfl
@[simp] theorem rget_modPort (h : Head) (f : Port → Port) (s : State) (k : Nat) : rget (modPort h f s) k = rget s k := by cases h <;> rfl

end Sys2Proof.Machine
end

