-- ==== Sys2Proof/Laws/Raise.lean ====
section
/-! SUPPORT. Which stored registers raising an event may write: the pending bits and the routes of the event block
(R420, R441); every other stored register stays. -/

namespace Sys2Proof.Machine

theorem modPort_regs (h : Head) (f : Port → Port) (s : State) : (modPort h f s).regs = s.regs := by cases h <;> rfl

theorem incRaw_regs (i n : Nat) (s : State) : (incRaw i n s).1.regs = s.regs := by
  unfold incRaw; dsimp only; split <;> rfl

theorem signalVec_regs (h : Head) (v : Nat) (s : State) : (signalVec h v s).regs = s.regs := by
  simp only [signalVec]
  repeat' split
  · rw [modPort_regs]
  · rw [modPort_regs, modPort_regs]
  · exact (incRaw_regs _ _ _).trans (modPort_regs _ _ _)

@[simp] theorem notifyVec_regs (h : Head) (v : Nat) (s : State) : (notifyVec h v s).regs = s.regs := by
  unfold notifyVec
  split
  · rfl
  · dsimp only
    split
    · rw [signalVec_regs, modPort_regs]
    · rw [modPort_regs]

theorem cxlAppend_regs (h : Head) (sev code detail : Nat) (s : State) : (cxlAppend h sev code detail s).regs = s.regs :=
  modPort_regs _ _ _

theorem rateCheck_regs (code : Nat) (s : State) : (rateCheck code s).1.regs = s.regs := by
  simp only [rateCheck]
  repeat' split
  all_goals rfl

theorem offer_regs (r : DbRec) (s : State) : (offer r s).1.regs = s.regs := by
  simp only [offer]
  split
  · rfl
  · rw [incRaw_regs]; rfl

theorem rget_of_regs {s t : State} (h : t.regs = s.regs) (k : Nat) : rget t k = rget s k := by rw [rget, rget, h]

theorem groupNote_regs (c : Nat) (s : State) : (groupNote c s).regs = s.regs := rfl

theorem flatOf_lt (code : Nat) : flatOf code < 320 := by
  have h : bits code 7 5 < 32 := Nat.mod_lt _ (by decide)
  simp only [flatOf, groupBase]
  split <;> omega

theorem rget_event_key {s : State} {k k' : Nat} {v : BitVec 32} (hk : notEvent k) (h1 : 0x30000 ≤ k') (h2 : k' < 0x30600) :
    rget (rset s k' v) k = rget s k := rget_rset_ne _ _ _ _ (by rcases hk with h | h <;> omega)

theorem raiseF_rget (n code : Nat) (d : Det) (s : State) (k : Nat) (hk : notEvent k) :
    rget (raiseF n code d s) k = rget s k := by
  induction n generalizing code d s with
  | zero => rfl
  | succ n ih =>
    have hf := flatOf_lt code
    have h1 : ∀ s v, rget (rset s (0x30010 + 4 * (flatOf code / 32)) v) k = rget s k :=
      fun s v => rget_event_key hk (by omega) (by omega)
    have h1' : ∀ s i, rget (rbit s (0x30010 + 4 * (flatOf code / 32)) i) k = rget s k := fun s i => h1 _ _
    have h2 : ∀ s v, rget (rset s (0x30100 + 4 * flatOf code) v) k = rget s k :=
      fun s v => rget_event_key hk (by omega) (by omega)
    have a1 := fun i n s => rget_of_regs (incRaw_regs i n s) k
    have a2 := fun c s => rget_of_regs (rateCheck_regs c s) k
    have a3 := fun r s => rget_of_regs (offer_regs r s) k
    have a4 := fun h v s => rget_of_regs (notifyVec_regs h v s) k
    have a5 := fun h v c e s => rget_of_regs (cxlAppend_regs h v c e s) k
    have a6 := fun c s => rget_of_regs (groupNote_regs c s) k
    unfold raiseF
    grind

/-- Raising an event writes no stored register outside the event block. -/
theorem raise_rget (g src n : Nat) (d : Det) (s : State) (k : Nat) (hk : notEvent k) :
    rget (raise g src n d s) k = rget s k := raiseF_rget _ _ _ _ _ hk

/-- So does counting. -/
theorem bump_rget (i n : Nat) (s : State) (k : Nat) (hk : notEvent k) : rget (bump i n s) k = rget s k := by
  simp only [bump]
  split
  · rw [raise_rget _ _ _ _ _ _ hk]; exact rget_of_regs (incRaw_regs _ _ _) k
  · exact rget_of_regs (incRaw_regs _ _ _) k

end Sys2Proof.Machine
end

