-- ==== Sys2Proof/Laws/RaiseEv.lean ====
section
/-! SUPPORT. What raising an event leaves of the event block: the ring, the freeze, the trigger, the snapshots, the sampling
and the histograms; it may write the input queue, the loss counts, the tracked codes and the counters (R420-R432). -/

namespace Sys2Proof.Machine

theorem modPort_ev (h : Head) (f : Port → Port) (s : State) : (modPort h f s).ev = s.ev := by cases h <;> rfl

theorem incRaw_ev (i n : Nat) (s : State) : (incRaw i n s).1.ev.bare = s.ev.bare := by
  unfold incRaw; dsimp only; split <;> rfl

theorem signalVec_ev (h : Head) (v : Nat) (s : State) : (signalVec h v s).ev.bare = s.ev.bare := by
  simp only [signalVec]
  repeat' split
  · rw [modPort_ev]
  · rw [modPort_ev, modPort_ev]
  · rw [send_ev, incRaw_ev, modPort_ev]

theorem notifyVec_ev (h : Head) (v : Nat) (s : State) : (notifyVec h v s).ev.bare = s.ev.bare := by
  unfold notifyVec
  split
  · rfl
  · dsimp only
    split
    · rw [signalVec_ev, modPort_ev]
    · rw [modPort_ev]

theorem cxlAppend_ev (h : Head) (sev code detail : Nat) (s : State) : (cxlAppend h sev code detail s).ev.bare = s.ev.bare := by
  rw [cxlAppend, modPort_ev]

theorem rateCheck_ev (code : Nat) (s : State) : (rateCheck code s).1.ev.bare = s.ev.bare := by
  simp only [rateCheck]
  repeat' split
  all_goals rfl

theorem offer_ev (r : DbRec) (s : State) : (offer r s).1.ev.bare = s.ev.bare := by
  simp only [offer]
  split
  · rfl
  · rw [incRaw_ev]; rfl

theorem groupNote_ev (c : Nat) (s : State) : (groupNote c s).ev.bare = s.ev.bare := rfl

@[simp] theorem rset_ev (s : State) (k : Nat) (v : BitVec 32) : (rset s k v).ev = s.ev := rfl
@[simp] theorem rbit_ev (s : State) (k i : Nat) : (rbit s k i).ev = s.ev := rfl

theorem raiseF_ev (n code : Nat) (d : Det) (s : State) : (raiseF n code d s).ev.bare = s.ev.bare := by
  induction n generalizing code d s with
  | zero => rfl
  | succ n ih =>
    unfold raiseF
    grind [rset_ev, rbit_ev, incRaw_ev, rateCheck_ev, offer_ev, notifyVec_ev, cxlAppend_ev, groupNote_ev]

theorem raise_ev (g src n : Nat) (d : Det) (s : State) : (raise g src n d s).ev.bare = s.ev.bare := raiseF_ev _ _ _ _

theorem bump_ev (i n : Nat) (s : State) : (bump i n s).ev.bare = s.ev.bare := by
  simp only [bump]
  split
  · rw [raise_ev, incRaw_ev]
  · exact incRaw_ev _ _ _

theorem Events.bare_ring (e : Events) : e.bare.ring = e.ring := rfl
theorem Events.bare_next (e : Events) : e.bare.next = e.next := rfl
theorem Events.bare_cursor (e : Events) : e.bare.cursor = e.cursor := rfl
theorem Events.bare_freezeLost (e : Events) : e.bare.freezeLost = e.freezeLost := rfl
theorem Events.bare_frozen (e : Events) : e.bare.frozen = e.frozen := rfl
theorem Events.bare_trigCode (e : Events) : e.bare.trigCode = e.trigCode := rfl
theorem Events.bare_trigArmed (e : Events) : e.bare.trigArmed = e.trigArmed := rfl
theorem Events.bare_takenAt (e : Events) : e.bare.takenAt = e.takenAt := rfl
theorem Events.bare_limits (e : Events) : e.bare.limits = e.limits := rfl
theorem Events.bare_limitsNext (e : Events) : e.bare.limitsNext = e.limitsNext := rfl
theorem Events.bare_window (e : Events) : e.bare.window = e.window := rfl
theorem Events.bare_powerUps (e : Events) : e.bare.powerUps = e.powerUps := rfl
theorem Events.bare_pfDrains (e : Events) : e.bare.pfDrains = e.pfDrains := rfl
theorem Events.bare_pfBad (e : Events) : e.bare.pfBad = e.pfBad := rfl
theorem Events.bare_summary (e : Events) : e.bare.summary = e.summary := rfl
theorem Events.bare_clearAt (e : Events) : e.bare.clearAt = e.clearAt := rfl
theorem Events.bare_snaps (e : Events) : e.bare.snaps = e.snaps := rfl
theorem Events.bare_snapSeq (e : Events) : e.bare.snapSeq = e.snapSeq := rfl
theorem Events.bare_snapReqs (e : Events) : e.bare.snapReqs = e.snapReqs := rfl
theorem Events.bare_snapCopy (e : Events) : e.bare.snapCopy = e.snapCopy := rfl
theorem Events.bare_snapCopyAt (e : Events) : e.bare.snapCopyAt = e.snapCopyAt := rfl
theorem Events.bare_sampleBase (e : Events) : e.bare.sampleBase = e.sampleBase := rfl
theorem Events.bare_sampleK (e : Events) : e.bare.sampleK = e.sampleK := rfl
theorem Events.bare_histAct (e : Events) : e.bare.histAct = e.histAct := rfl
theorem Events.bare_histAt (e : Events) : e.bare.histAt = e.histAt := rfl

@[simp] theorem raise_ev_ring (g src n : Nat) (d : Det) (s : State) : (raise g src n d s).ev.ring = s.ev.ring := by
  rw [← Events.bare_ring, raise_ev, Events.bare_ring]
@[simp] theorem raise_ev_next (g src n : Nat) (d : Det) (s : State) : (raise g src n d s).ev.next = s.ev.next := by
  rw [← Events.bare_next, raise_ev, Events.bare_next]
@[simp] theorem raise_ev_cursor (g src n : Nat) (d : Det) (s : State) : (raise g src n d s).ev.cursor = s.ev.cursor := by
  rw [← Events.bare_cursor, raise_ev, Events.bare_cursor]
@[simp] theorem raise_ev_freezeLost (g src n : Nat) (d : Det) (s : State) : (raise g src n d s).ev.freezeLost = s.ev.freezeLost := by
  rw [← Events.bare_freezeLost, raise_ev, Events.bare_freezeLost]
@[simp] theorem raise_ev_frozen (g src n : Nat) (d : Det) (s : State) : (raise g src n d s).ev.frozen = s.ev.frozen := by
  rw [← Events.bare_frozen, raise_ev, Events.bare_frozen]
@[simp] theorem raise_ev_trigCode (g src n : Nat) (d : Det) (s : State) : (raise g src n d s).ev.trigCode = s.ev.trigCode := by
  rw [← Events.bare_trigCode, raise_ev, Events.bare_trigCode]
@[simp] theorem raise_ev_trigArmed (g src n : Nat) (d : Det) (s : State) : (raise g src n d s).ev.trigArmed = s.ev.trigArmed := by
  rw [← Events.bare_trigArmed, raise_ev, Events.bare_trigArmed]
@[simp] theorem raise_ev_takenAt (g src n : Nat) (d : Det) (s : State) : (raise g src n d s).ev.takenAt = s.ev.takenAt := by
  rw [← Events.bare_takenAt, raise_ev, Events.bare_takenAt]
@[simp] theorem raise_ev_limits (g src n : Nat) (d : Det) (s : State) : (raise g src n d s).ev.limits = s.ev.limits := by
  rw [← Events.bare_limits, raise_ev, Events.bare_limits]
@[simp] theorem raise_ev_limitsNext (g src n : Nat) (d : Det) (s : State) : (raise g src n d s).ev.limitsNext = s.ev.limitsNext := by
  rw [← Events.bare_limitsNext, raise_ev, Events.bare_limitsNext]
@[simp] theorem raise_ev_window (g src n : Nat) (d : Det) (s : State) : (raise g src n d s).ev.window = s.ev.window := by
  rw [← Events.bare_window, raise_ev, Events.bare_window]
@[simp] theorem raise_ev_powerUps (g src n : Nat) (d : Det) (s : State) : (raise g src n d s).ev.powerUps = s.ev.powerUps := by
  rw [← Events.bare_powerUps, raise_ev, Events.bare_powerUps]
@[simp] theorem raise_ev_pfDrains (g src n : Nat) (d : Det) (s : State) : (raise g src n d s).ev.pfDrains = s.ev.pfDrains := by
  rw [← Events.bare_pfDrains, raise_ev, Events.bare_pfDrains]
@[simp] theorem raise_ev_pfBad (g src n : Nat) (d : Det) (s : State) : (raise g src n d s).ev.pfBad = s.ev.pfBad := by
  rw [← Events.bare_pfBad, raise_ev, Events.bare_pfBad]
@[simp] theorem raise_ev_summary (g src n : Nat) (d : Det) (s : State) : (raise g src n d s).ev.summary = s.ev.summary := by
  rw [← Events.bare_summary, raise_ev, Events.bare_summary]
@[simp] theorem raise_ev_clearAt (g src n : Nat) (d : Det) (s : State) : (raise g src n d s).ev.clearAt = s.ev.clearAt := by
  rw [← Events.bare_clearAt, raise_ev, Events.bare_clearAt]
@[simp] theorem raise_ev_snaps (g src n : Nat) (d : Det) (s : State) : (raise g src n d s).ev.snaps = s.ev.snaps := by
  rw [← Events.bare_snaps, raise_ev, Events.bare_snaps]
@[simp] theorem raise_ev_snapSeq (g src n : Nat) (d : Det) (s : State) : (raise g src n d s).ev.snapSeq = s.ev.snapSeq := by
  rw [← Events.bare_snapSeq, raise_ev, Events.bare_snapSeq]
@[simp] theorem raise_ev_snapReqs (g src n : Nat) (d : Det) (s : State) : (raise g src n d s).ev.snapReqs = s.ev.snapReqs := by
  rw [← Events.bare_snapReqs, raise_ev, Events.bare_snapReqs]
@[simp] theorem raise_ev_snapCopy (g src n : Nat) (d : Det) (s : State) : (raise g src n d s).ev.snapCopy = s.ev.snapCopy := by
  rw [← Events.bare_snapCopy, raise_ev, Events.bare_snapCopy]
@[simp] theorem raise_ev_snapCopyAt (g src n : Nat) (d : Det) (s : State) : (raise g src n d s).ev.snapCopyAt = s.ev.snapCopyAt := by
  rw [← Events.bare_snapCopyAt, raise_ev, Events.bare_snapCopyAt]
@[simp] theorem raise_ev_sampleBase (g src n : Nat) (d : Det) (s : State) : (raise g src n d s).ev.sampleBase = s.ev.sampleBase := by
  rw [← Events.bare_sampleBase, raise_ev, Events.bare_sampleBase]
@[simp] theorem raise_ev_sampleK (g src n : Nat) (d : Det) (s : State) : (raise g src n d s).ev.sampleK = s.ev.sampleK := by
  rw [← Events.bare_sampleK, raise_ev, Events.bare_sampleK]
@[simp] theorem raise_ev_histAct (g src n : Nat) (d : Det) (s : State) : (raise g src n d s).ev.histAct = s.ev.histAct := by
  rw [← Events.bare_histAct, raise_ev, Events.bare_histAct]
@[simp] theorem raise_ev_histAt (g src n : Nat) (d : Det) (s : State) : (raise g src n d s).ev.histAt = s.ev.histAt := by
  rw [← Events.bare_histAt, raise_ev, Events.bare_histAt]

@[simp] theorem bump_ev_ring (i n : Nat) (s : State) : (bump i n s).ev.ring = s.ev.ring := by
  rw [← Events.bare_ring, bump_ev, Events.bare_ring]
@[simp] theorem bump_ev_next (i n : Nat) (s : State) : (bump i n s).ev.next = s.ev.next := by
  rw [← Events.bare_next, bump_ev, Events.bare_next]
@[simp] theorem bump_ev_cursor (i n : Nat) (s : State) : (bump i n s).ev.cursor = s.ev.cursor := by
  rw [← Events.bare_cursor, bump_ev, Events.bare_cursor]
@[simp] theorem bump_ev_freezeLost (i n : Nat) (s : State) : (bump i n s).ev.freezeLost = s.ev.freezeLost := by
  rw [← Events.bare_freezeLost, bump_ev, Events.bare_freezeLost]
@[simp] theorem bump_ev_frozen (i n : Nat) (s : State) : (bump i n s).ev.frozen = s.ev.frozen := by
  rw [← Events.bare_frozen, bump_ev, Events.bare_frozen]
@[simp] theorem bump_ev_trigCode (i n : Nat) (s : State) : (bump i n s).ev.trigCode = s.ev.trigCode := by
  rw [← Events.bare_trigCode, bump_ev, Events.bare_trigCode]
@[simp] theorem bump_ev_trigArmed (i n : Nat) (s : State) : (bump i n s).ev.trigArmed = s.ev.trigArmed := by
  rw [← Events.bare_trigArmed, bump_ev, Events.bare_trigArmed]
@[simp] theorem bump_ev_takenAt (i n : Nat) (s : State) : (bump i n s).ev.takenAt = s.ev.takenAt := by
  rw [← Events.bare_takenAt, bump_ev, Events.bare_takenAt]
@[simp] theorem bump_ev_limits (i n : Nat) (s : State) : (bump i n s).ev.limits = s.ev.limits := by
  rw [← Events.bare_limits, bump_ev, Events.bare_limits]
@[simp] theorem bump_ev_limitsNext (i n : Nat) (s : State) : (bump i n s).ev.limitsNext = s.ev.limitsNext := by
  rw [← Events.bare_limitsNext, bump_ev, Events.bare_limitsNext]
@[simp] theorem bump_ev_window (i n : Nat) (s : State) : (bump i n s).ev.window = s.ev.window := by
  rw [← Events.bare_window, bump_ev, Events.bare_window]
@[simp] theorem bump_ev_powerUps (i n : Nat) (s : State) : (bump i n s).ev.powerUps = s.ev.powerUps := by
  rw [← Events.bare_powerUps, bump_ev, Events.bare_powerUps]
@[simp] theorem bump_ev_pfDrains (i n : Nat) (s : State) : (bump i n s).ev.pfDrains = s.ev.pfDrains := by
  rw [← Events.bare_pfDrains, bump_ev, Events.bare_pfDrains]
@[simp] theorem bump_ev_pfBad (i n : Nat) (s : State) : (bump i n s).ev.pfBad = s.ev.pfBad := by
  rw [← Events.bare_pfBad, bump_ev, Events.bare_pfBad]
@[simp] theorem bump_ev_summary (i n : Nat) (s : State) : (bump i n s).ev.summary = s.ev.summary := by
  rw [← Events.bare_summary, bump_ev, Events.bare_summary]
@[simp] theorem bump_ev_clearAt (i n : Nat) (s : State) : (bump i n s).ev.clearAt = s.ev.clearAt := by
  rw [← Events.bare_clearAt, bump_ev, Events.bare_clearAt]
@[simp] theorem bump_ev_snaps (i n : Nat) (s : State) : (bump i n s).ev.snaps = s.ev.snaps := by
  rw [← Events.bare_snaps, bump_ev, Events.bare_snaps]
@[simp] theorem bump_ev_snapSeq (i n : Nat) (s : State) : (bump i n s).ev.snapSeq = s.ev.snapSeq := by
  rw [← Events.bare_snapSeq, bump_ev, Events.bare_snapSeq]
@[simp] theorem bump_ev_snapReqs (i n : Nat) (s : State) : (bump i n s).ev.snapReqs = s.ev.snapReqs := by
  rw [← Events.bare_snapReqs, bump_ev, Events.bare_snapReqs]
@[simp] theorem bump_ev_snapCopy (i n : Nat) (s : State) : (bump i n s).ev.snapCopy = s.ev.snapCopy := by
  rw [← Events.bare_snapCopy, bump_ev, Events.bare_snapCopy]
@[simp] theorem bump_ev_snapCopyAt (i n : Nat) (s : State) : (bump i n s).ev.snapCopyAt = s.ev.snapCopyAt := by
  rw [← Events.bare_snapCopyAt, bump_ev, Events.bare_snapCopyAt]
@[simp] theorem bump_ev_sampleBase (i n : Nat) (s : State) : (bump i n s).ev.sampleBase = s.ev.sampleBase := by
  rw [← Events.bare_sampleBase, bump_ev, Events.bare_sampleBase]
@[simp] theorem bump_ev_sampleK (i n : Nat) (s : State) : (bump i n s).ev.sampleK = s.ev.sampleK := by
  rw [← Events.bare_sampleK, bump_ev, Events.bare_sampleK]
@[simp] theorem bump_ev_histAct (i n : Nat) (s : State) : (bump i n s).ev.histAct = s.ev.histAct := by
  rw [← Events.bare_histAct, bump_ev, Events.bare_histAct]
@[simp] theorem bump_ev_histAt (i n : Nat) (s : State) : (bump i n s).ev.histAt = s.ev.histAt := by
  rw [← Events.bare_histAt, bump_ev, Events.bare_histAt]

@[simp] theorem notifyVec_ev_ring (h : Head) (v : Nat) (s : State) : (notifyVec h v s).ev.ring = s.ev.ring := by
  rw [← Events.bare_ring, notifyVec_ev, Events.bare_ring]
@[simp] theorem notifyVec_ev_next (h : Head) (v : Nat) (s : State) : (notifyVec h v s).ev.next = s.ev.next := by
  rw [← Events.bare_next, notifyVec_ev, Events.bare_next]
@[simp] theorem notifyVec_ev_cursor (h : Head) (v : Nat) (s : State) : (notifyVec h v s).ev.cursor = s.ev.cursor := by
  rw [← Events.bare_cursor, notifyVec_ev, Events.bare_cursor]
@[simp] theorem notifyVec_ev_freezeLost (h : Head) (v : Nat) (s : State) : (notifyVec h v s).ev.freezeLost = s.ev.freezeLost := by
  rw [← Events.bare_freezeLost, notifyVec_ev, Events.bare_freezeLost]
@[simp] theorem notifyVec_ev_frozen (h : Head) (v : Nat) (s : State) : (notifyVec h v s).ev.frozen = s.ev.frozen := by
  rw [← Events.bare_frozen, notifyVec_ev, Events.bare_frozen]
@[simp] theorem notifyVec_ev_trigCode (h : Head) (v : Nat) (s : State) : (notifyVec h v s).ev.trigCode = s.ev.trigCode := by
  rw [← Events.bare_trigCode, notifyVec_ev, Events.bare_trigCode]
@[simp] theorem notifyVec_ev_trigArmed (h : Head) (v : Nat) (s : State) : (notifyVec h v s).ev.trigArmed = s.ev.trigArmed := by
  rw [← Events.bare_trigArmed, notifyVec_ev, Events.bare_trigArmed]
@[simp] theorem notifyVec_ev_takenAt (h : Head) (v : Nat) (s : State) : (notifyVec h v s).ev.takenAt = s.ev.takenAt := by
  rw [← Events.bare_takenAt, notifyVec_ev, Events.bare_takenAt]
@[simp] theorem notifyVec_ev_limits (h : Head) (v : Nat) (s : State) : (notifyVec h v s).ev.limits = s.ev.limits := by
  rw [← Events.bare_limits, notifyVec_ev, Events.bare_limits]
@[simp] theorem notifyVec_ev_limitsNext (h : Head) (v : Nat) (s : State) : (notifyVec h v s).ev.limitsNext = s.ev.limitsNext := by
  rw [← Events.bare_limitsNext, notifyVec_ev, Events.bare_limitsNext]
@[simp] theorem notifyVec_ev_window (h : Head) (v : Nat) (s : State) : (notifyVec h v s).ev.window = s.ev.window := by
  rw [← Events.bare_window, notifyVec_ev, Events.bare_window]
@[simp] theorem notifyVec_ev_powerUps (h : Head) (v : Nat) (s : State) : (notifyVec h v s).ev.powerUps = s.ev.powerUps := by
  rw [← Events.bare_powerUps, notifyVec_ev, Events.bare_powerUps]
@[simp] theorem notifyVec_ev_pfDrains (h : Head) (v : Nat) (s : State) : (notifyVec h v s).ev.pfDrains = s.ev.pfDrains := by
  rw [← Events.bare_pfDrains, notifyVec_ev, Events.bare_pfDrains]
@[simp] theorem notifyVec_ev_pfBad (h : Head) (v : Nat) (s : State) : (notifyVec h v s).ev.pfBad = s.ev.pfBad := by
  rw [← Events.bare_pfBad, notifyVec_ev, Events.bare_pfBad]
@[simp] theorem notifyVec_ev_summary (h : Head) (v : Nat) (s : State) : (notifyVec h v s).ev.summary = s.ev.summary := by
  rw [← Events.bare_summary, notifyVec_ev, Events.bare_summary]
@[simp] theorem notifyVec_ev_clearAt (h : Head) (v : Nat) (s : State) : (notifyVec h v s).ev.clearAt = s.ev.clearAt := by
  rw [← Events.bare_clearAt, notifyVec_ev, Events.bare_clearAt]
@[simp] theorem notifyVec_ev_snaps (h : Head) (v : Nat) (s : State) : (notifyVec h v s).ev.snaps = s.ev.snaps := by
  rw [← Events.bare_snaps, notifyVec_ev, Events.bare_snaps]
@[simp] theorem notifyVec_ev_snapSeq (h : Head) (v : Nat) (s : State) : (notifyVec h v s).ev.snapSeq = s.ev.snapSeq := by
  rw [← Events.bare_snapSeq, notifyVec_ev, Events.bare_snapSeq]
@[simp] theorem notifyVec_ev_snapReqs (h : Head) (v : Nat) (s : State) : (notifyVec h v s).ev.snapReqs = s.ev.snapReqs := by
  rw [← Events.bare_snapReqs, notifyVec_ev, Events.bare_snapReqs]
@[simp] theorem notifyVec_ev_snapCopy (h : Head) (v : Nat) (s : State) : (notifyVec h v s).ev.snapCopy = s.ev.snapCopy := by
  rw [← Events.bare_snapCopy, notifyVec_ev, Events.bare_snapCopy]
@[simp] theorem notifyVec_ev_snapCopyAt (h : Head) (v : Nat) (s : State) : (notifyVec h v s).ev.snapCopyAt = s.ev.snapCopyAt := by
  rw [← Events.bare_snapCopyAt, notifyVec_ev, Events.bare_snapCopyAt]
@[simp] theorem notifyVec_ev_sampleBase (h : Head) (v : Nat) (s : State) : (notifyVec h v s).ev.sampleBase = s.ev.sampleBase := by
  rw [← Events.bare_sampleBase, notifyVec_ev, Events.bare_sampleBase]
@[simp] theorem notifyVec_ev_sampleK (h : Head) (v : Nat) (s : State) : (notifyVec h v s).ev.sampleK = s.ev.sampleK := by
  rw [← Events.bare_sampleK, notifyVec_ev, Events.bare_sampleK]
@[simp] theorem notifyVec_ev_histAct (h : Head) (v : Nat) (s : State) : (notifyVec h v s).ev.histAct = s.ev.histAct := by
  rw [← Events.bare_histAct, notifyVec_ev, Events.bare_histAct]
@[simp] theorem notifyVec_ev_histAt (h : Head) (v : Nat) (s : State) : (notifyVec h v s).ev.histAt = s.ev.histAt := by
  rw [← Events.bare_histAt, notifyVec_ev, Events.bare_histAt]

end Sys2Proof.Machine
end

