-- ==== Sys2Proof/Laws/Noted.lean ====
section
/-! SUPPORT. The relation `Noted`: raising a reason and counting an occurrence give a noted state, and every update carries
a noted pair to a noted pair. -/

namespace Sys2Proof.Machine

theorem Noted.refl (s : State) : Noted s s := ⟨rfl, rfl, rfl, fun _ _ => rfl, fun _ _ => rfl⟩

theorem Noted.trans {a b c : State} (h : Noted a b) (g : Noted b c) : Noted a c :=
  ⟨g.1.trans h.1, g.2.1.trans h.2.1, g.2.2.1.trans h.2.2.1, fun k hk => (g.2.2.2.1 k hk).trans (h.2.2.2.1 k hk),
    fun i hi => (g.2.2.2.2 i hi).trans (h.2.2.2.2 i hi)⟩

/-! What raising sends and counts. -/

theorem modPort_outbox (h : Head) (f : Port → Port) (s : State) : (modPort h f s).outbox = s.outbox := by cases h <;> rfl

theorem incRaw_said (i n : Nat) (s : State) : (incRaw i n s).1.said = s.said := by
  unfold incRaw; dsimp only; split <;> rfl

theorem said_of_outbox {s t : State} (h : t.outbox = s.outbox) : t.said = s.said := by rw [State.said, State.said, h]

theorem msi_said (h : Head) (v : Nat) (s : State) : (send (.msi h v) s).said = s.said := by simp [State.said, send]

theorem signalVec_said (h : Head) (v : Nat) (s : State) : (signalVec h v s).said = s.said := by
  simp only [signalVec]
  repeat' split
  · exact said_of_outbox (modPort_outbox _ _ _)
  · exact (said_of_outbox (modPort_outbox _ _ _)).trans (said_of_outbox (modPort_outbox _ _ _))
  · rw [msi_said, incRaw_said]; exact said_of_outbox (modPort_outbox _ _ _)

theorem notifyVec_said (h : Head) (v : Nat) (s : State) : (notifyVec h v s).said = s.said := by
  unfold notifyVec
  split
  · rfl
  · dsimp only
    split
    · rw [signalVec_said]; exact said_of_outbox (modPort_outbox _ _ _)
    · exact said_of_outbox (modPort_outbox _ _ _)

theorem cxlAppend_said (h : Head) (sev code detail : Nat) (s : State) : (cxlAppend h sev code detail s).said = s.said :=
  said_of_outbox (modPort_outbox _ _ _)

theorem rateCheck_said (code : Nat) (s : State) : (rateCheck code s).1.said = s.said := by
  simp only [rateCheck]
  repeat' split
  all_goals rfl

theorem offer_said (r : DbRec) (s : State) : (offer r s).1.said = s.said := by
  simp only [offer]
  split
  · rfl
  · rw [incRaw_said]; rfl

theorem rset_said (s : State) (k : Nat) (v : BitVec 32) : (rset s k v).said = s.said := rfl
theorem rbit_said (s : State) (k i : Nat) : (rbit s k i).said = s.said := rfl
theorem groupNote_said (c : Nat) (s : State) : (groupNote c s).said = s.said := rfl

theorem raiseF_said (n code : Nat) (d : Det) (s : State) : (raiseF n code d s).said = s.said := by
  induction n generalizing code d s with
  | zero => rfl
  | succ n ih =>
    unfold raiseF
    grind [rset_said, rbit_said, incRaw_said, rateCheck_said, offer_said, notifyVec_said, cxlAppend_said, groupNote_said]

theorem ctr_of_ctrs {s t : State} (h : t.ev.ctrs = s.ev.ctrs) (i : Nat) : ctr t i = ctr s i := by rw [ctr, ctr, h]

theorem incRaw_ctrs (i n : Nat) (s : State) :
    (incRaw i n s).1.ev.ctrs = tput 0 s.ev.ctrs i (BitVec.ofNat 48 ((tget 0 s.ev.ctrs i).toNat + n)) := by
  unfold incRaw; dsimp only; split <;> rfl

theorem incRaw_ctr_ne (i n j : Nat) (s : State) (h : j ≠ i) : ctr (incRaw i n s).1 j = ctr s j := by
  rw [ctr, ctr, incRaw_ctrs, tget_tput_ne _ _ _ _ _ _ h]

theorem incRaw_ctr_same (i n : Nat) (s : State) : ctr (incRaw i n s).1 i = ctr s i + BitVec.ofNat 48 n := by
  rw [ctr, incRaw_ctrs, tget_tput_same, ctr, BitVec.ofNat_add, BitVec.ofNat_toNat]; simp

theorem modPort_ctr (h : Head) (f : Port → Port) (s : State) (i : Nat) : ctr (modPort h f s) i = ctr s i :=
  ctr_of_ctrs (by rw [modPort_ev]) i

theorem send_ctr (o : Out) (s : State) (i : Nat) : ctr (send o s) i = ctr s i := rfl

theorem signalVec_ctr (h : Head) (v : Nat) (s : State) (i : Nat) (hi : noteCtr i = false) : ctr (signalVec h v s) i = ctr s i := by
  have h7 : i ≠ 711 := by rintro rfl; exact absurd hi (by decide)
  simp only [signalVec]
  repeat' split
  · exact modPort_ctr _ _ _ _
  · exact (modPort_ctr _ _ _ _).trans (modPort_ctr _ _ _ _)
  · exact (send_ctr _ _ _).trans ((incRaw_ctr_ne _ _ _ _ h7).trans (modPort_ctr _ _ _ _))

theorem notifyVec_ctr (h : Head) (v : Nat) (s : State) (i : Nat) (hi : noteCtr i = false) : ctr (notifyVec h v s) i = ctr s i := by
  unfold notifyVec
  split
  · rfl
  · dsimp only
    split
    · exact (signalVec_ctr _ _ _ _ hi).trans (modPort_ctr _ _ _ _)
    · exact modPort_ctr _ _ _ _

theorem cxlAppend_ctr (h : Head) (sev code detail : Nat) (s : State) (i : Nat) : ctr (cxlAppend h sev code detail s) i = ctr s i :=
  modPort_ctr _ _ _ _

theorem rateCheck_ctr (code : Nat) (s : State) (i : Nat) : ctr (rateCheck code s).1 i = ctr s i := by
  simp only [rateCheck]
  repeat' split
  all_goals rfl

theorem offer_ctr (r : DbRec) (s : State) (i : Nat) (hi : noteCtr i = false) : ctr (offer r s).1 i = ctr s i := by
  have h7 : i ≠ 710 := by rintro rfl; exact absurd hi (by decide)
  simp only [offer]
  split
  · rfl
  · exact incRaw_ctr_ne _ _ _ _ h7

theorem rset_ctr (s : State) (k : Nat) (v : BitVec 32) (i : Nat) : ctr (rset s k v) i = ctr s i := rfl
theorem rbit_ctr (s : State) (k j : Nat) (i : Nat) : ctr (rbit s k j) i = ctr s i := rfl
theorem groupNote_ctr (c : Nat) (s : State) (i : Nat) : ctr (groupNote c s) i = ctr s i := rfl

theorem raiseF_ctr (n code : Nat) (d : Det) (s : State) (i : Nat) (hi : noteCtr i = false) : ctr (raiseF n code d s) i = ctr s i := by
  induction n generalizing code d s with
  | zero => rfl
  | succ n ih =>
    have h1 : i ≠ 707 := by rintro rfl; exact absurd hi (by decide)
    have h2 : i ≠ 709 := by rintro rfl; exact absurd hi (by decide)
    have a1 := fun n s => incRaw_ctr_ne 707 n i s h1
    have a2 := fun n s => incRaw_ctr_ne 709 n i s h2
    have a3 := fun r s => offer_ctr r s i hi
    have a4 := fun h v s => notifyVec_ctr h v s i hi
    unfold raiseF
    grind [rset_ctr, rbit_ctr, rateCheck_ctr, cxlAppend_ctr, groupNote_ctr]

theorem raiseF_noted (n code : Nat) (d : Det) (s : State) : Noted s (raiseF n code d s) :=
  ⟨raiseF_bare _ _ _ _, raiseF_ev _ _ _ _, raiseF_said _ _ _ _, fun k hk => raiseF_rget _ _ _ _ k hk,
    fun i hi => raiseF_ctr _ _ _ _ i hi⟩

/-- Raising a reason is noted. -/
theorem raise_noted (g src n : Nat) (d : Det) (s : State) : Noted s (raise g src n d s) := raiseF_noted _ _ _ _

theorem State.counted_ctr_same (i n : Nat) (s : State) : ctr (s.counted i n) i = ctr s i + BitVec.ofNat 48 n := by
  simp [ctr, State.counted]

theorem State.counted_ctr_ne (i n j : Nat) (s : State) (h : j ≠ i) : ctr (s.counted i n) j = ctr s j := by
  simp only [ctr, State.counted, State.modEv_ev]; exact tget_tput_ne _ _ _ _ _ _ h

theorem incRaw_noted (i n : Nat) (s : State) : Noted (s.counted i n) (incRaw i n s).1 := by
  refine ⟨incRaw_bare _ _ _, incRaw_ev _ _ _, incRaw_said _ _ _, fun k _ => rget_of_regs (incRaw_regs _ _ _) k, fun j _ => ?_⟩
  by_cases h : j = i
  · subst h; rw [incRaw_ctr_same, State.counted_ctr_same]
  · rw [incRaw_ctr_ne _ _ _ _ h, State.counted_ctr_ne _ _ _ _ h]

/-- Counting an occurrence is noted. -/
theorem bump_noted (i n : Nat) (s : State) : Noted (s.counted i n) (bump i n s) := by
  simp only [bump]
  split
  · exact (incRaw_noted _ _ _).trans (raise_noted _ _ _ _ _)
  · exact incRaw_noted _ _ _

theorem bump_noted' (i n : Nat) (s : State) (h : noteCtr i = true) : Noted s (bump i n s) := by
  have h1 : Noted s (s.counted i n) := by
    refine ⟨rfl, rfl, rfl, fun _ _ => rfl, fun j hj => State.counted_ctr_ne _ _ _ _ ?_⟩
    rintro rfl; rw [h] at hj; cases hj
  exact h1.trans (bump_noted i n s)

/-! A notification is noted. -/

theorem notifyVec_noted (h : Head) (v : Nat) (s : State) : Noted s (notifyVec h v s) :=
  ⟨notifyVec_bare _ _ _, notifyVec_ev _ _ _, notifyVec_said _ _ _, fun k _ => rget_of_regs (notifyVec_regs _ _ _) k,
    fun i hi => notifyVec_ctr _ _ _ i hi⟩

/-! Congruence: an update of a block that notification leaves alone. -/

variable {s t : State}

theorem Noted.board (h : Noted s t) : t.board = s.board := show t.bare.board = s.bare.board by rw [h.1]
theorem Noted.isl (h : Noted s t) : t.isl = s.isl := show t.bare.isl = s.bare.isl by rw [h.1]
theorem Noted.med (h : Noted s t) : t.med = s.med := show t.bare.med = s.bare.med by rw [h.1]
theorem Noted.integ (h : Noted s t) : t.integ = s.integ := show t.bare.integ = s.bare.integ by rw [h.1]
theorem Noted.led (h : Noted s t) : t.led = s.led := show t.bare.led = s.bare.led by rw [h.1]
theorem Noted.pur (h : Noted s t) : t.pur = s.pur := show t.bare.pur = s.bare.pur by rw [h.1]
theorem Noted.tbs (h : Noted s t) : t.tbs = s.tbs := show t.bare.tbs = s.bare.tbs by rw [h.1]
theorem Noted.so (h : Noted s t) : t.so = s.so := show t.bare.so = s.bare.so by rw [h.1]
theorem Noted.esc (h : Noted s t) : t.esc = s.esc := show t.bare.esc = s.bare.esc by rw [h.1]
theorem Noted.cry (h : Noted s t) : t.cry = s.cry := show t.bare.cry = s.bare.cry by rw [h.1]
theorem Noted.mov (h : Noted s t) : t.mov = s.mov := show t.bare.mov = s.bare.mov by rw [h.1]
theorem Noted.ctl (h : Noted s t) : t.ctl = s.ctl := show t.bare.ctl = s.bare.ctl by rw [h.1]
theorem Noted.pair (h : Noted s t) : t.pair = s.pair := show t.bare.pair = s.bare.pair by rw [h.1]
theorem Noted.pb (h : Noted s t) : t.pb = s.pb := show t.bare.pb = s.bare.pb by rw [h.1]
theorem Noted.sup (h : Noted s t) : t.sup = s.sup := show t.bare.sup = s.bare.sup by rw [h.1]
theorem Noted.clock (h : Noted s t) : t.clock = s.clock := show t.bare.clock = s.bare.clock by rw [h.1]
theorem Noted.pending (h : Noted s t) : t.pending = s.pending := show t.bare.pending = s.bare.pending by rw [h.1]
theorem Noted.said (h : Noted s t) : t.said = s.said := h.2.2.1
theorem Noted.rget (h : Noted s t) (k : Nat) (hk : notEvent k) : rget t k = rget s k := h.2.2.2.1 k hk
theorem Noted.ctr (h : Noted s t) (i : Nat) (hi : noteCtr i = false) : ctr t i = ctr s i := h.2.2.2.2 i hi
theorem Noted.txns (h : Noted s t) : t.fe.txns = s.fe.txns := show t.bare.fe.txns = s.bare.fe.txns by rw [h.1]
theorem Noted.portBare (h : Noted s t) (d : Head) : (portOf t d).bare = (portOf s d).bare := by
  cases d
  · exact show t.bare.fe.portA = s.bare.fe.portA by rw [h.1]
  · exact show t.bare.fe.portB = s.bare.fe.portB by rw [h.1]

theorem Noted.modIsl (h : Noted s t) (f : Islands → Islands) : Noted (s.modIsl f) (t.modIsl f) :=
  ⟨show (t.bare.modIsl f) = (s.bare.modIsl f) by rw [h.1], h.2.1, h.2.2.1, h.2.2.2.1, h.2.2.2.2⟩
theorem Noted.modMed (h : Noted s t) (f : Media → Media) : Noted (s.modMed f) (t.modMed f) :=
  ⟨show (t.bare.modMed f) = (s.bare.modMed f) by rw [h.1], h.2.1, h.2.2.1, h.2.2.2.1, h.2.2.2.2⟩
theorem Noted.modInteg (h : Noted s t) (f : Integrity → Integrity) : Noted (s.modInteg f) (t.modInteg f) :=
  ⟨show (t.bare.modInteg f) = (s.bare.modInteg f) by rw [h.1], h.2.1, h.2.2.1, h.2.2.2.1, h.2.2.2.2⟩
theorem Noted.modLed (h : Noted s t) (f : Ledger → Ledger) : Noted (s.modLed f) (t.modLed f) :=
  ⟨show (t.bare.modLed f) = (s.bare.modLed f) by rw [h.1], h.2.1, h.2.2.1, h.2.2.2.1, h.2.2.2.2⟩
theorem Noted.modPur (h : Noted s t) (f : Purse → Purse) : Noted (s.modPur f) (t.modPur f) :=
  ⟨show (t.bare.modPur f) = (s.bare.modPur f) by rw [h.1], h.2.1, h.2.2.1, h.2.2.2.1, h.2.2.2.2⟩
theorem Noted.modTbs (h : Noted s t) (f : Timebase → Timebase) : Noted (s.modTbs f) (t.modTbs f) :=
  ⟨show (t.bare.modTbs f) = (s.bare.modTbs f) by rw [h.1], h.2.1, h.2.2.1, h.2.2.2.1, h.2.2.2.2⟩
theorem Noted.modSo (h : Noted s t) (f : Orders → Orders) : Noted (s.modSo f) (t.modSo f) :=
  ⟨show (t.bare.modSo f) = (s.bare.modSo f) by rw [h.1], h.2.1, h.2.2.1, h.2.2.2.1, h.2.2.2.2⟩
theorem Noted.modEsc (h : Noted s t) (f : Escrows → Escrows) : Noted (s.modEsc f) (t.modEsc f) :=
  ⟨show (t.bare.modEsc f) = (s.bare.modEsc f) by rw [h.1], h.2.1, h.2.2.1, h.2.2.2.1, h.2.2.2.2⟩
theorem Noted.modCry (h : Noted s t) (f : Crypto → Crypto) : Noted (s.modCry f) (t.modCry f) :=
  ⟨show (t.bare.modCry f) = (s.bare.modCry f) by rw [h.1], h.2.1, h.2.2.1, h.2.2.2.1, h.2.2.2.2⟩
theorem Noted.modMov (h : Noted s t) (f : Mover → Mover) : Noted (s.modMov f) (t.modMov f) :=
  ⟨show (t.bare.modMov f) = (s.bare.modMov f) by rw [h.1], h.2.1, h.2.2.1, h.2.2.2.1, h.2.2.2.2⟩
theorem Noted.modCtl (h : Noted s t) (f : Control → Control) : Noted (s.modCtl f) (t.modCtl f) :=
  ⟨show (t.bare.modCtl f) = (s.bare.modCtl f) by rw [h.1], h.2.1, h.2.2.1, h.2.2.2.1, h.2.2.2.2⟩
theorem Noted.modPair (h : Noted s t) (f : Pair → Pair) : Noted (s.modPair f) (t.modPair f) :=
  ⟨show (t.bare.modPair f) = (s.bare.modPair f) by rw [h.1], h.2.1, h.2.2.1, h.2.2.2.1, h.2.2.2.2⟩
theorem Noted.modPb (h : Noted s t) (f : Passbook → Passbook) : Noted (s.modPb f) (t.modPb f) :=
  ⟨show (t.bare.modPb f) = (s.bare.modPb f) by rw [h.1], h.2.1, h.2.2.1, h.2.2.2.1, h.2.2.2.2⟩
theorem Noted.modSup (h : Noted s t) (f : Super → Super) : Noted (s.modSup f) (t.modSup f) :=
  ⟨show (t.bare.modSup f) = (s.bare.modSup f) by rw [h.1], h.2.1, h.2.2.1, h.2.2.2.1, h.2.2.2.2⟩

theorem Noted.send (h : Noted s t) (o : Out) : Noted (send o s) (Machine.send o t) := by
  refine ⟨h.1, h.2.1, ?_, h.2.2.2.1, h.2.2.2.2⟩
  have := h.said
  simp only [State.said, Machine.send, State.setOutbox_outbox, List.filter_cons] at this ⊢
  rw [this]

theorem Noted.msi (h : Noted s t) (d : Head) (v : Nat) : Noted s (Machine.send (.msi d v) t) :=
  ⟨h.1, h.2.1, (msi_said _ _ _).trans h.2.2.1, h.2.2.2.1, h.2.2.2.2⟩

theorem Noted.rset (h : Noted s t) (k : Nat) (v : BitVec 32) : Noted (rset s k v) (Machine.rset t k v) := by
  refine ⟨h.1, h.2.1, h.2.2.1, fun j hj => ?_, h.2.2.2.2⟩
  by_cases e : j = k
  · subst e; simp
  · rw [rget_rset_ne _ _ _ _ e, rget_rset_ne _ _ _ _ e, h.rget _ hj]

theorem Noted.rbit (h : Noted s t) (k i : Nat) (hk : notEvent k) : Noted (rbit s k i) (Machine.rbit t k i) := by
  simp only [Machine.rbit, h.rget k hk]; exact h.rset k _

theorem Noted.rinc (h : Noted s t) (k n : Nat) (hk : notEvent k) : Noted (rinc s k n) (Machine.rinc t k n) := by
  simp only [Machine.rinc, Machine.rval, h.rget k hk]; exact h.rset k _

theorem Noted.counted (h : Noted s t) (i n : Nat) : Noted (s.counted i n) (t.counted i n) := by
  refine ⟨h.1, h.2.1, h.2.2.1, h.2.2.2.1, fun j hj => ?_⟩
  by_cases e : j = i
  · subst e; rw [State.counted_ctr_same, State.counted_ctr_same, h.ctr _ hj]
  · rw [State.counted_ctr_ne _ _ _ _ e, State.counted_ctr_ne _ _ _ _ e, h.ctr _ hj]

theorem Noted.raise (h : Noted s t) (g src n : Nat) (d : Det) : Noted s (raise g src n d t) := h.trans (raise_noted _ _ _ _ _)

theorem Noted.bump (h : Noted s t) (i n : Nat) : Noted (s.counted i n) (bump i n t) := (h.counted i n).trans (bump_noted i n t)

theorem Noted.bump' (h : Noted s t) (i n : Nat) (hi : noteCtr i = true) : Noted s (Machine.bump i n t) :=
  h.trans (bump_noted' i n t hi)

theorem Noted.notify (h : Noted s t) (d : Head) (v : Nat) : Noted s (notifyVec d v t) := h.trans (notifyVec_noted d v t)

theorem Noted.modPort (h : Noted s t) (d : Head) (f : Port → Port) (hf : ∀ p q : Port, p.bare = q.bare → (f p).bare = (f q).bare) :
    Noted (modPort d f s) (Machine.modPort d f t) := by
  refine ⟨?_, ?_, ?_, fun k hk => ?_, fun i hi => ?_⟩
  · have hb := h.1
    have ha := hf _ _ (h.portBare d)
    cases d <;> simp only [State.bare, Machine.modPort, State.modFe, State.mk.injEq, Front.mk.injEq] at hb ⊢ <;> simp only [hb, portOf] at ha ⊢ <;>
      simp [ha]
  · rw [modPort_ev, modPort_ev, h.2.1]
  · exact (said_of_outbox (modPort_outbox _ _ _)).trans (h.said.trans (said_of_outbox (modPort_outbox _ _ _)).symm)
  · exact (rget_of_regs (modPort_regs _ _ _) k).trans ((h.rget k hk).trans (rget_of_regs (modPort_regs _ _ _) k).symm)
  · exact (modPort_ctr _ _ _ _).trans ((h.ctr i hi).trans (modPort_ctr _ _ _ _).symm)

theorem Noted.ite {a b c d : State} (p : Prop) [Decidable p] (h : Noted a b) (g : Noted c d) :
    Noted (if p then a else c) (if p then b else d) := by split <;> assumption

/-! Pending reasons. -/

theorem Pends.of_regs {g src n : Nat} (h : t.regs = s.regs) (hp : Pends g src n s) : Pends g src n t := by
  simpa only [Pends, rval, rget_of_regs h] using hp

theorem Pends.of_rget {g src n : Nat} (h : ∀ k, 0x30000 ≤ k → k < 0x30600 → rget t k = rget s k) (hp : Pends g src n s) :
    Pends g src n t := by
  have hf := flatOf_lt (evCode g src n)
  simp only [Pends, rval] at hp ⊢
  rwa [h _ (by omega) (by omega), h _ (by omega) (by omega)]

theorem Pends.rset {g src n : Nat} (hp : Pends g src n s) (k : Nat) (v : BitVec 32) (hk : notEvent k) : Pends g src n (rset s k v) :=
  hp.of_rget fun j h1 h2 => rget_rset_ne _ _ _ _ (by rcases hk with h | h <;> omega)

/-- A pending bit that is set stays set when a reason is raised. -/
theorem raiseF_pending (n code : Nat) (d : Det) (s : State) (w b : Nat) (hw : w < 10) (hb : b < 32)
    (h : (rget s (0x30010 + 4 * w)).getLsbD b = true) : (rget (raiseF n code d s) (0x30010 + 4 * w)).getLsbD b = true := by
  induction n generalizing code d s with
  | zero => exact h
  | succ n ih =>
    have hf := flatOf_lt code
    have h1 : ∀ s : State, (rget s (0x30010 + 4 * w)).getLsbD b = true →
        (rget (rbit s (0x30010 + 4 * (flatOf code / 32)) (flatOf code % 32)) (0x30010 + 4 * w)).getLsbD b = true := by
      intro s h
      by_cases e : w = flatOf code / 32
      · subst e; rw [rget_rbit_same]; simp only [BitVec.getLsbD_or, h, Bool.true_or]
      · rw [rget_rbit_ne _ _ _ _ (by omega)]; exact h
    have h2 : ∀ (s : State) v, rget (rset s (0x30100 + 4 * flatOf code) v) (0x30010 + 4 * w) = rget s (0x30010 + 4 * w) :=
      fun s v => rget_rset_ne _ _ _ _ (by omega)
    have a1 := fun i n s => rget_of_regs (incRaw_regs i n s) (0x30010 + 4 * w)
    have a2 := fun c s => rget_of_regs (rateCheck_regs c s) (0x30010 + 4 * w)
    have a3 := fun r s => rget_of_regs (offer_regs r s) (0x30010 + 4 * w)
    have a4 := fun h v s => rget_of_regs (notifyVec_regs h v s) (0x30010 + 4 * w)
    have a5 := fun h v c e s => rget_of_regs (cxlAppend_regs h v c e s) (0x30010 + 4 * w)
    have a6 := fun c s => rget_of_regs (groupNote_regs c s) (0x30010 + 4 * w)
    unfold raiseF
    grind

theorem flatOf_A (src n : Nat) (hs : src < 32) (hn : n < 128) : flatOf (evCode 0xA src n) = 288 + src := by
  have h1 : evCode 0xA src n / 4096 = 10 := by simp only [evCode]; omega
  have h2 : bits (evCode 0xA src n) 7 5 = src := by simp only [bits, evCode]; omega
  rw [flatOf, h1, h2]; rfl

/-- The route of another source below group A stays when a reason is raised. -/
theorem raiseF_route (n code : Nat) (d : Det) (s : State) (i : Nat) (hi : i < 288) (hne : i ≠ flatOf code) :
    rget (raiseF n code d s) (0x30100 + 4 * i) = rget s (0x30100 + 4 * i) := by
  induction n generalizing code d s with
  | zero => rfl
  | succ n ih =>
    have hf := flatOf_lt code
    have i1 : i ≠ flatOf (evCode 0xA 0 0x04) := by rw [flatOf_A _ _ (by decide) (by decide)]; omega
    have i2 : i ≠ flatOf (evCode 0xA 0 0x03) := by rw [flatOf_A _ _ (by decide) (by decide)]; omega
    have i3 : i ≠ flatOf (evCode 0xA 1 0x03) := by rw [flatOf_A _ _ (by decide) (by decide)]; omega
    have h1 : ∀ (s : State) j, rget (rbit s (0x30010 + 4 * (flatOf code / 32)) j) (0x30100 + 4 * i) = rget s (0x30100 + 4 * i) :=
      fun s j => rget_rbit_ne _ _ _ _ (by omega)
    have h2 : ∀ (s : State) v, rget (rset s (0x30100 + 4 * flatOf code) v) (0x30100 + 4 * i) = rget s (0x30100 + 4 * i) :=
      fun s v => rget_rset_ne _ _ _ _ (by omega)
    have a1 := fun j n s => rget_of_regs (incRaw_regs j n s) (0x30100 + 4 * i)
    have a2 := fun c s => rget_of_regs (rateCheck_regs c s) (0x30100 + 4 * i)
    have a3 := fun r s => rget_of_regs (offer_regs r s) (0x30100 + 4 * i)
    have a4 := fun h v s => rget_of_regs (notifyVec_regs h v s) (0x30100 + 4 * i)
    have a5 := fun h v c e s => rget_of_regs (cxlAppend_regs h v c e s) (0x30100 + 4 * i)
    have a6 := fun c s => rget_of_regs (groupNote_regs c s) (0x30100 + 4 * i)
    unfold raiseF
    grind

/-- A reason that is pending stays so when a reason of another source below group A is raised. -/
theorem Pends.raise {g src n : Nat} (hp : Pends g src n s) (hg : flatOf (evCode g src n) < 288) (g' src' n' : Nat) (d : Det)
    (hne : flatOf (evCode g src n) ≠ flatOf (evCode g' src' n')) : Pends g src n (raise g' src' n' d s) := by
  refine ⟨raiseF_pending _ _ _ _ _ _ ?_ (Nat.mod_lt _ (by decide)) hp.1, ?_⟩
  · have := flatOf_lt (evCode g src n); omega
  · rw [rval, Machine.raise, raiseF_route _ _ _ _ _ hg hne]; exact hp.2

theorem Pends.bump {g src n : Nat} (hp : Pends g src n s) (hg : flatOf (evCode g src n) < 288) (i k : Nat) :
    Pends g src n (bump i k s) := by
  simp only [Machine.bump]
  split
  · refine Pends.raise (hp.of_regs (incRaw_regs _ _ _)) hg _ _ _ _ ?_
    rw [flatOf_A 1 3 (by decide) (by decide)]; omega
  · exact hp.of_regs (incRaw_regs _ _ _)

/-- A raised reason of a group below A is pending (R420). -/
theorem raise_pends (g src n : Nat) (d : Det) (s : State) (hg : flatOf (evCode g src n) < 288) (hn : evCode g src n % 128 = n) :
    Pends g src n (raise g src n d s) := by
  have hf := flatOf_lt (evCode g src n)
  have hn7 : n < 128 := by rw [← hn]; exact Nat.mod_lt _ (by decide)
  refine ⟨?_, ?_⟩
  · rw [Machine.raise]
    generalize evCode g src n = code at *
    have p : ∀ m c d s, _ → _ := fun m c d s => raiseF_pending m c d s (flatOf code / 32) (flatOf code % 32) (by omega)
      (Nat.mod_lt _ (by decide))
    have h1 : ∀ s : State, (rget (rbit s (0x30010 + 4 * (flatOf code / 32)) (flatOf code % 32))
        (0x30010 + 4 * (flatOf code / 32))).getLsbD (flatOf code % 32) = true := by
      intro s; rw [rget_rbit_same]
      have : flatOf code % 32 < 32 := Nat.mod_lt _ (by decide)
      rw [BitVec.getLsbD_or, BitVec.natCast_eq_ofNat, BitVec.getLsbD_ofNat, Nat.one_shiftLeft, Nat.testBit_two_pow_self]; simp [this]
    have h2 : ∀ (s : State) v, rget (rset s (0x30100 + 4 * flatOf code) v) (0x30010 + 4 * (flatOf code / 32)) =
        rget s (0x30010 + 4 * (flatOf code / 32)) := fun s v => rget_rset_ne _ _ _ _ (by omega)
    have a1 := fun i n s => rget_of_regs (incRaw_regs i n s) (0x30010 + 4 * (flatOf code / 32))
    have a2 := fun c s => rget_of_regs (rateCheck_regs c s) (0x30010 + 4 * (flatOf code / 32))
    have a3 := fun r s => rget_of_regs (offer_regs r s) (0x30010 + 4 * (flatOf code / 32))
    have a4 := fun h v s => rget_of_regs (notifyVec_regs h v s) (0x30010 + 4 * (flatOf code / 32))
    have a5 := fun h v c e s => rget_of_regs (cxlAppend_regs h v c e s) (0x30010 + 4 * (flatOf code / 32))
    have a6 := fun c s => rget_of_regs (groupNote_regs c s) (0x30010 + 4 * (flatOf code / 32))
    clear hn
    unfold raiseF
    grind
  · rw [Machine.raise, rval]
    have hc := hn
    generalize evCode g src n = code at *
    have i1 : flatOf code ≠ flatOf (evCode 0xA 0 0x04) := by rw [flatOf_A _ _ (by decide) (by decide)]; omega
    have i2 : flatOf code ≠ flatOf (evCode 0xA 0 0x03) := by rw [flatOf_A _ _ (by decide) (by decide)]; omega
    have i3 : flatOf code ≠ flatOf (evCode 0xA 1 0x03) := by rw [flatOf_A _ _ (by decide) (by decide)]; omega
    have p : ∀ m c d s, flatOf code ≠ flatOf c → rget (raiseF m c d s) (0x30100 + 4 * flatOf code) = rget s (0x30100 + 4 * flatOf code) :=
      fun m c d s h => raiseF_route m c d s _ hg h
    have h2 : ∀ (s : State) v, rget (rset s (0x30100 + 4 * flatOf code) v) (0x30100 + 4 * flatOf code) = v :=
      fun s v => rget_rset_same _ _ _
    have a1 := fun i n s => rget_of_regs (incRaw_regs i n s) (0x30100 + 4 * flatOf code)
    have a2 := fun c s => rget_of_regs (rateCheck_regs c s) (0x30100 + 4 * flatOf code)
    have a3 := fun r s => rget_of_regs (offer_regs r s) (0x30100 + 4 * flatOf code)
    have a4 := fun h v s => rget_of_regs (notifyVec_regs h v s) (0x30100 + 4 * flatOf code)
    have a5 := fun h v c e s => rget_of_regs (cxlAppend_regs h v c e s) (0x30100 + 4 * flatOf code)
    have a6 := fun c s => rget_of_regs (groupNote_regs c s) (0x30100 + 4 * flatOf code)
    have e : rget (raiseF 4 code d s) (0x30100 + 4 * flatOf code) =
        BitVec.ofNat 32 (rval s (0x30100 + 4 * flatOf code) % 2 ^ 25 + code % 128 * 2 ^ 25) := by
      unfold raiseF
      grind
    rw [e, hc, BitVec.toNat_ofNat]
    omega

/-- The sources of groups 0 to 9 stand below group A. -/
theorem flatOf_low (g src n : Nat) (hg : g ≤ 9) (hs : src < 32) (hn : n < 128) :
    flatOf (evCode g src n) < 288 ∧ evCode g src n % 128 = n := by
  have h1 : evCode g src n / 4096 = g := by simp only [evCode]; omega
  have h2 : bits (evCode g src n) 7 5 = src := by simp only [bits, evCode]; omega
  refine ⟨?_, by simp only [evCode]; omega⟩
  have hb : groupBase g ≤ 256 := by
    obtain rfl | rfl | rfl | rfl | rfl | rfl | rfl | rfl | rfl | rfl : g = 0 ∨ g = 1 ∨ g = 2 ∨ g = 3 ∨ g = 4 ∨ g = 5 ∨ g = 6 ∨ g = 7 ∨ g = 8 ∨ g = 9 := by omega
    all_goals decide
  rw [flatOf, h1, h2]; omega

/-- A raised reason of groups 0 to 9 is pending (R420). -/
theorem raise_pends_low (g src n : Nat) (d : Det) (s : State) (hg : g ≤ 9) (hs : src < 32) (hn : n < 128) :
    Pends g src n (raise g src n d s) :=
  raise_pends g src n d s (flatOf_low g src n hg hs hn).1 (flatOf_low g src n hg hs hn).2

end Sys2Proof.Machine
end

