-- ==== Sys2Proof/Laws/Access.lean ====
section
/-! SUPPORT. What an access to a domain that takes it does: a write lands, a read is answered (R19, R25). -/

namespace Sys2Proof.Machine

theorem domainOf_wr0 (h : Head) (off : Nat) (v : BitVec 32) : accDomain (wr0 h off v) = domainOf off := rfl

theorem low_setWidth (v : BitVec 32) : BitVec.extractLsb' 0 32 (BitVec.setWidth 64 v) = v := by
  apply BitVec.eq_of_getLsbD_eq; intro i hi
  simp [BitVec.getLsbD_extractLsb', BitVec.getLsbD_setWidth, hi]; omega

theorem accWords_wr0 (h : Head) (off : Nat) (v : BitVec 32) : accWords (wr0 h off v) = [(off, v)] := by
  simp [accWords, wr0, low_setWidth]

theorem accWords_wr2 (h : Head) (q off : Nat) (v : BitVec 32) : accWords (wr2 h q off v) = [(0x10000 * q + off, v)] := by
  simp [accWords, wr2, low_setWidth]

theorem apertureOf_none (a : BarAccess) (ho : a.off < 0x120000 ∨ 0x125000 ≤ a.off) : apertureOf a = none := by
  have h1 : ¬ (0x120000 ≤ a.off ∧ a.off < 0x121000) := by omega
  have h2 : ¬ (0x121000 ≤ a.off ∧ a.off < 0x125000) := by omega
  unfold apertureOf
  split
  · rfl
  · simp [h1, h2]

theorem apertureOf_wr0 (h : Head) (off : Nat) (v : BitVec 32) (ho : off < 0x120000 ∨ 0x125000 ≤ off) :
    apertureOf (wr0 h off v) = none := apertureOf_none _ ho

/-- A 32-bit write of BAR0 that its domain takes. -/
theorem accessOp_wr0 (h : Head) (off : Nat) (v : BitVec 32) (s : State) (hm : off % 4 = 0) (ho : off < 0x120000 ∨ 0x125000 ≤ off)
    (hf : domFree s (domainOf off) = true) : accessOp (wr0 h off v) s = bar0Write h off v s := by
  have ha : accAligned (wr0 h off v) = true := by simp [accAligned, wr0, hm]
  rw [accessOp, ha, apertureOf_wr0 h off v ho]
  show writeTo (wr0 h off v) (domainOf off) none s = _
  rw [writeTo, if_pos hf, writeLand, accWords_wr0]
  rfl

/-- A 32-bit write of a queue page that its domain takes. -/
theorem accessOp_wr2 (h : Head) (q off : Nat) (v : BitVec 32) (s : State) (hm : off % 4 = 0) (hf : domFree s domFAB = true) :
    accessOp (wr2 h q off v) s = bar2Write h (0x10000 * q + off) v s := by
  have ha : accAligned (wr2 h q off v) = true := by simp [accAligned, wr2]; omega
  rw [accessOp, ha]
  show writeTo (wr2 h q off v) domFAB none s = _
  rw [writeTo, if_pos hf, writeLand, accWords_wr2]
  rfl

/-- A write outside the apertures that its domain does not take waits, or is discarded while 16 are held. -/
theorem accessOp_stopped (a : BarAccess) (s : State) (ha : accAligned a = true) (hd : a.dir = .write) (hp : apertureOf a = none)
    (hf : domFree s (accDomain a) = false) :
    accessOp a s = if 16 ≤ (heldFor s (accDomain a)).length then heldOverflow a (accDomain a) s else waitFor a (accDomain a) none s := by
  rw [accessOp, ha, hp, hd]
  show writeTo a (accDomain a) none s = _
  rw [writeTo, if_neg (by simp [hf])]

/-- A read outside the apertures that its domain takes. -/
theorem accessOp_read (a : BarAccess) (s : State) (ha : accAligned a = true) (hd : a.dir = .read) (hp : apertureOf a = none)
    (hf : domFree s (accDomain a) = true) : accessOp a s = readLand a s := by
  simp [accessOp, ha, hp, hd, hf]

/-- R28: the boundary that a command takes effect at. -/
theorem boundaryAfter_spec (s : State) (n : Nat) :
    boundaryAfter s n % 1024 = 0 ∧ s.tbs.mint.toNat + n ≤ boundaryAfter s n ∧ boundaryAfter s n < s.tbs.mint.toNat + n + 1024 := by
  simp only [boundaryAfter, mintNow]; omega

/-- R6: what a write leaves in bit i. -/
theorem writeMasked_bit (rw w1c : Nat) (old v : BitVec 32) (i : Nat) (hi : i < 32) :
    (writeMasked rw w1c old v).getLsbD i =
      ((if rw.testBit i then v.getLsbD i else old.getLsbD i) && !(v.getLsbD i && w1c.testBit i)) := by
  simp only [writeMasked, BitVec.getLsbD_and, BitVec.getLsbD_or, BitVec.getLsbD_not, BitVec.getLsbD_ofNat, hi, decide_true, Bool.true_and]
  cases rw.testBit i <;> simp

/-- A register of n RW bits. -/
theorem writeMasked_low (n : Nat) (old v : BitVec 32) (i : Nat) (hi : i < 32) :
    (writeMasked (2 ^ n - 1) 0 old v).getLsbD i = if i < n then v.getLsbD i else old.getLsbD i := by
  rw [writeMasked_bit _ _ _ _ _ hi, Nat.testBit_two_pow_sub_one]; simp

/-! A word of one bit per unit. -/

theorem maskOf_succ (n : Nat) (p : Nat → Bool) : maskOf (n + 1) p = maskOf n p + b2n (p n) * 2 ^ n := by
  simp [maskOf, List.range_succ]

theorem maskOf_lt (n : Nat) (p : Nat → Bool) : maskOf n p < 2 ^ n := by
  induction n with
  | zero => simp [maskOf]
  | succ n ih =>
    rw [maskOf_succ, Nat.pow_succ]
    have : b2n (p n) ≤ 1 := by unfold b2n; split <;> omega
    have := Nat.mul_le_mul_right (2 ^ n) this
    omega

/-- Bit d of the word is the property of unit d. -/
theorem maskOf_testBit (n : Nat) (p : Nat → Bool) (d : Nat) : (maskOf n p).testBit d = (decide (d < n) && p d) := by
  induction n with
  | zero => simp [maskOf]
  | succ n ih =>
    rw [maskOf_succ, Nat.add_comm, Nat.mul_comm, Nat.testBit_two_pow_mul_add _ (maskOf_lt n p)]
    split
    · rename_i h; rw [ih]; simp [h, Nat.lt_succ_of_lt h]
    · rename_i h
      by_cases e : d = n
      · subst e; cases hp : p d <;> simp [b2n]
      · have h1 : 0 < d - n := by omega
        have h2 : ¬ d < n + 1 := by omega
        have : b2n (p n) < 2 ^ (d - n) := by
          have : b2n (p n) ≤ 1 := by unfold b2n; split <;> omega
          have := Nat.one_lt_two_pow (n := d - n) (by omega)
          omega
        rw [Nat.testBit_lt_two_pow this]; simp [h2]

/-- Setting stored registers of a list to zero. -/
theorem rget_zeros (ks : List Nat) (s : State) (k : Nat) :
    rget (forEach ks (fun k s => rset s k 0) s) k = if k ∈ ks then 0 else rget s k := by
  induction ks generalizing s with
  | nil => rfl
  | cons a r ih =>
    show rget (forEach r (fun k s => rset s k 0) (rset s a 0)) k = _
    rw [ih]
    by_cases e : k ∈ r
    · simp [e]
    · by_cases h : k = a
      · subst h; simp
      · rw [if_neg e, if_neg (by simp [h, e]), rget_rset_ne _ _ _ _ h]

theorem setRegs_zeros (ks : List Nat) (s : State) (v : Tab (BitVec 32)) :
    (forEach ks (fun k s => rset s k 0) s).setRegs v = s.setRegs v := by
  induction ks generalizing s with
  | nil => rfl
  | cons a r ih => exact ih (rset s a 0)

end Sys2Proof.Machine
end

