-- ==== Sys2Proof/Laws/Chan.lean ====
section
/-! SUPPORT. Channels and banks: what an update of one reads as, and folds over channels. -/

namespace Sys2Proof.Machine

@[simp] theorem chan_modChan_same (c : Nat) (f : Chan → Chan) (s : State) : chan (modChan c f s) c = f (chan s c) := by
  simp [chan, modChan, tmod]

theorem chan_modChan_ne (c d : Nat) (f : Chan → Chan) (s : State) (h : d ≠ c) : chan (modChan c f s) d = chan s d := by
  simp only [chan, modChan, tmod, State.modMed_med]; exact tget_tput_ne _ _ _ _ _ _ h

theorem chan_modChan (c d : Nat) (f : Chan → Chan) (s : State) :
    chan (modChan c f s) d = if d = c then f (chan s d) else chan s d := by
  split
  · rename_i h; subst h; exact chan_modChan_same _ _ _
  · rename_i h; exact chan_modChan_ne _ _ _ _ h

theorem chan_of_med {s t : State} (h : t.med = s.med) (c : Nat) : chan t c = chan s c := by rw [chan, chan, h]

theorem Noted.chan {s t : State} (h : Noted s t) (c : Nat) : chan t c = Machine.chan s c := chan_of_med h.med c

@[simp] theorem bankAt_modBank_same (c pos bank : Nat) (f : Bank → Bank) (s : State) :
    bankAt (modBank c pos bank f s) c pos bank = f (bankAt s c pos bank) := by
  simp [bankAt, modBank, tmod]

theorem bankAt_of_chan {s t : State} {c : Nat} (h : chan t c = chan s c) (pos bank : Nat) : bankAt t c pos bank = bankAt s c pos bank := by
  rw [bankAt, bankAt, h]

@[simp] theorem modBank_chans (c pos bank : Nat) (f : Bank → Bank) (g : Media → Tab Chan) (s : State) :
    (modBank c pos bank f s).modMed (fun m => { m with chans := s.med.chans }) = s := rfl

theorem chan_modBank_ne (c d pos bank : Nat) (f : Bank → Bank) (s : State) (h : d ≠ c) : chan (modBank c pos bank f s) d = chan s d :=
  chan_modChan_ne _ _ _ _ h

/-- Setting the channels back. -/
def unchan (t : Tab Chan) (s : State) : State := s.modMed fun m => { m with chans := t }

theorem unchan_modChan (t : Tab Chan) (c : Nat) (f : Chan → Chan) (s : State) : unchan t (modChan c f s) = unchan t s := rfl

/-- A fold that updates channels by members, each in the state before it. -/
theorem chan_forEach (xs : List Nat) (f : Nat → State → State) (g : Nat → State → Chan → Chan) (s : State) (nd : xs.Nodup)
    (hf : ∀ c ∈ xs, ∀ u, (∀ d ∈ xs, d = c → chan u d = chan s d) → unchan s.med.chans u = s →
      unchan s.med.chans (f c u) = s ∧ ∀ d, chan (f c u) d = if d = c then g c s (chan u d) else chan u d) :
    unchan s.med.chans (forEach xs f s) = s ∧ ∀ d, chan (forEach xs f s) d = if d ∈ xs then g d s (chan s d) else chan s d := by
  have main : ∀ (ys : List Nat) (u : State), ys.Nodup → (∀ c ∈ ys, c ∈ xs) → unchan s.med.chans u = s → (∀ c ∈ ys, chan u c = chan s c) →
      unchan s.med.chans (forEach ys f u) = s ∧ ∀ d, chan (forEach ys f u) d = if d ∈ ys then g d s (chan s d) else chan u d := by
    intro ys
    induction ys with
    | nil => intro u _ _ h1 _; exact ⟨h1, fun d => by simp [forEach]⟩
    | cons y r ih =>
      intro u hn hm h1 h2
      have hy := hf y (hm y (by simp)) u (fun d hd he => by subst he; exact h2 d (by simp)) h1
      have hr := List.nodup_cons.mp hn
      have := ih (f y u) hr.2 (fun c hc => hm c (by simp [hc])) hy.1 (fun c hc => by
        rw [hy.2, if_neg (by rintro rfl; exact hr.1 hc)]; exact h2 c (by simp [hc]))
      refine ⟨this.1, fun d => ?_⟩
      show chan (forEach r f (f y u)) d = _
      rw [this.2]
      by_cases hd : d ∈ r
      · rw [if_pos hd, if_pos (by simp [hd])]
      · rw [if_neg hd, hy.2]
        by_cases he : d = y
        · subst he; rw [if_pos rfl, if_pos (by simp), h2 d (by simp)]
        · rw [if_neg he, if_neg (by simp [hd, he])]
  exact main xs s nd (fun c h => h) rfl (fun c _ => rfl)

end Sys2Proof.Machine
end

