-- ==== Sys2Proof/Laws/Fields.lean ====
section
/-! SUPPORT. What the register, message and counter updates leave alone, one lemma per field per update. -/

namespace Sys2Proof.Machine

@[simp] theorem rset_outbox (k : Nat) (v : BitVec 32) (s : State) : (rset s k v).outbox = s.outbox := rfl

@[simp] theorem rbit_outbox (k i : Nat) (s : State) : (rbit s k i).outbox = s.outbox := rfl

@[simp] theorem rinc_ev (k n : Nat) (s : State) : (rinc s k n).ev = s.ev := rfl
@[simp] theorem rinc_outbox (k n : Nat) (s : State) : (rinc s k n).outbox = s.outbox := rfl

@[simp] theorem counted_board (i n : Nat) (s : State) : (s.counted i n).board = s.board := rfl
@[simp] theorem counted_isl (i n : Nat) (s : State) : (s.counted i n).isl = s.isl := rfl
@[simp] theorem counted_med (i n : Nat) (s : State) : (s.counted i n).med = s.med := rfl
@[simp] theorem counted_integ (i n : Nat) (s : State) : (s.counted i n).integ = s.integ := rfl
@[simp] theorem counted_led (i n : Nat) (s : State) : (s.counted i n).led = s.led := rfl
@[simp] theorem counted_pur (i n : Nat) (s : State) : (s.counted i n).pur = s.pur := rfl
@[simp] theorem counted_tbs (i n : Nat) (s : State) : (s.counted i n).tbs = s.tbs := rfl
@[simp] theorem counted_so (i n : Nat) (s : State) : (s.counted i n).so = s.so := rfl
@[simp] theorem counted_esc (i n : Nat) (s : State) : (s.counted i n).esc = s.esc := rfl
@[simp] theorem counted_cry (i n : Nat) (s : State) : (s.counted i n).cry = s.cry := rfl
@[simp] theorem counted_mov (i n : Nat) (s : State) : (s.counted i n).mov = s.mov := rfl
@[simp] theorem counted_fe (i n : Nat) (s : State) : (s.counted i n).fe = s.fe := rfl
@[simp] theorem counted_ctl (i n : Nat) (s : State) : (s.counted i n).ctl = s.ctl := rfl
@[simp] theorem counted_pair (i n : Nat) (s : State) : (s.counted i n).pair = s.pair := rfl
@[simp] theorem counted_pb (i n : Nat) (s : State) : (s.counted i n).pb = s.pb := rfl
@[simp] theorem counted_sup (i n : Nat) (s : State) : (s.counted i n).sup = s.sup := rfl
@[simp] theorem counted_clock (i n : Nat) (s : State) : (s.counted i n).clock = s.clock := rfl
@[simp] theorem counted_pending (i n : Nat) (s : State) : (s.counted i n).pending = s.pending := rfl
@[simp] theorem counted_regs (i n : Nat) (s : State) : (s.counted i n).regs = s.regs := rfl
@[simp] theorem counted_outbox (i n : Nat) (s : State) : (s.counted i n).outbox = s.outbox := rfl

@[simp] theorem modChan_board (c : Nat) (f : Chan → Chan) (s : State) : (modChan c f s).board = s.board := rfl
@[simp] theorem modChan_isl (c : Nat) (f : Chan → Chan) (s : State) : (modChan c f s).isl = s.isl := rfl
@[simp] theorem modChan_integ (c : Nat) (f : Chan → Chan) (s : State) : (modChan c f s).integ = s.integ := rfl
@[simp] theorem modChan_led (c : Nat) (f : Chan → Chan) (s : State) : (modChan c f s).led = s.led := rfl
@[simp] theorem modChan_pur (c : Nat) (f : Chan → Chan) (s : State) : (modChan c f s).pur = s.pur := rfl
@[simp] theorem modChan_tbs (c : Nat) (f : Chan → Chan) (s : State) : (modChan c f s).tbs = s.tbs := rfl
@[simp] theorem modChan_so (c : Nat) (f : Chan → Chan) (s : State) : (modChan c f s).so = s.so := rfl
@[simp] theorem modChan_esc (c : Nat) (f : Chan → Chan) (s : State) : (modChan c f s).esc = s.esc := rfl
@[simp] theorem modChan_cry (c : Nat) (f : Chan → Chan) (s : State) : (modChan c f s).cry = s.cry := rfl
@[simp] theorem modChan_mov (c : Nat) (f : Chan → Chan) (s : State) : (modChan c f s).mov = s.mov := rfl
@[simp] theorem modChan_fe (c : Nat) (f : Chan → Chan) (s : State) : (modChan c f s).fe = s.fe := rfl
@[simp] theorem modChan_ctl (c : Nat) (f : Chan → Chan) (s : State) : (modChan c f s).ctl = s.ctl := rfl
@[simp] theorem modChan_pair (c : Nat) (f : Chan → Chan) (s : State) : (modChan c f s).pair = s.pair := rfl
@[simp] theorem modChan_pb (c : Nat) (f : Chan → Chan) (s : State) : (modChan c f s).pb = s.pb := rfl
@[simp] theorem modChan_sup (c : Nat) (f : Chan → Chan) (s : State) : (modChan c f s).sup = s.sup := rfl
@[simp] theorem modChan_clock (c : Nat) (f : Chan → Chan) (s : State) : (modChan c f s).clock = s.clock := rfl
@[simp] theorem modChan_pending (c : Nat) (f : Chan → Chan) (s : State) : (modChan c f s).pending = s.pending := rfl
@[simp] theorem modChan_ev (c : Nat) (f : Chan → Chan) (s : State) : (modChan c f s).ev = s.ev := rfl
@[simp] theorem modChan_regs (c : Nat) (f : Chan → Chan) (s : State) : (modChan c f s).regs = s.regs := rfl
@[simp] theorem modChan_outbox (c : Nat) (f : Chan → Chan) (s : State) : (modChan c f s).outbox = s.outbox := rfl

@[simp] theorem modOp_board (i : Nat) (f : MOp → MOp) (s : State) : (modOp i f s).board = s.board := rfl
@[simp] theorem modOp_isl (i : Nat) (f : MOp → MOp) (s : State) : (modOp i f s).isl = s.isl := rfl
@[simp] theorem modOp_integ (i : Nat) (f : MOp → MOp) (s : State) : (modOp i f s).integ = s.integ := rfl
@[simp] theorem modOp_led (i : Nat) (f : MOp → MOp) (s : State) : (modOp i f s).led = s.led := rfl
@[simp] theorem modOp_pur (i : Nat) (f : MOp → MOp) (s : State) : (modOp i f s).pur = s.pur := rfl
@[simp] theorem modOp_tbs (i : Nat) (f : MOp → MOp) (s : State) : (modOp i f s).tbs = s.tbs := rfl
@[simp] theorem modOp_so (i : Nat) (f : MOp → MOp) (s : State) : (modOp i f s).so = s.so := rfl
@[simp] theorem modOp_esc (i : Nat) (f : MOp → MOp) (s : State) : (modOp i f s).esc = s.esc := rfl
@[simp] theorem modOp_cry (i : Nat) (f : MOp → MOp) (s : State) : (modOp i f s).cry = s.cry := rfl
@[simp] theorem modOp_mov (i : Nat) (f : MOp → MOp) (s : State) : (modOp i f s).mov = s.mov := rfl
@[simp] theorem modOp_fe (i : Nat) (f : MOp → MOp) (s : State) : (modOp i f s).fe = s.fe := rfl
@[simp] theorem modOp_ctl (i : Nat) (f : MOp → MOp) (s : State) : (modOp i f s).ctl = s.ctl := rfl
@[simp] theorem modOp_pair (i : Nat) (f : MOp → MOp) (s : State) : (modOp i f s).pair = s.pair := rfl
@[simp] theorem modOp_pb (i : Nat) (f : MOp → MOp) (s : State) : (modOp i f s).pb = s.pb := rfl
@[simp] theorem modOp_sup (i : Nat) (f : MOp → MOp) (s : State) : (modOp i f s).sup = s.sup := rfl
@[simp] theorem modOp_clock (i : Nat) (f : MOp → MOp) (s : State) : (modOp i f s).clock = s.clock := rfl
@[simp] theorem modOp_pending (i : Nat) (f : MOp → MOp) (s : State) : (modOp i f s).pending = s.pending := rfl
@[simp] theorem modOp_ev (i : Nat) (f : MOp → MOp) (s : State) : (modOp i f s).ev = s.ev := rfl
@[simp] theorem modOp_regs (i : Nat) (f : MOp → MOp) (s : State) : (modOp i f s).regs = s.regs := rfl
@[simp] theorem modOp_outbox (i : Nat) (f : MOp → MOp) (s : State) : (modOp i f s).outbox = s.outbox := rfl

@[simp] theorem modBank_board (c p b : Nat) (f : Bank → Bank) (s : State) : (modBank c p b f s).board = s.board := rfl
@[simp] theorem modBank_isl (c p b : Nat) (f : Bank → Bank) (s : State) : (modBank c p b f s).isl = s.isl := rfl
@[simp] theorem modBank_integ (c p b : Nat) (f : Bank → Bank) (s : State) : (modBank c p b f s).integ = s.integ := rfl
@[simp] theorem modBank_led (c p b : Nat) (f : Bank → Bank) (s : State) : (modBank c p b f s).led = s.led := rfl
@[simp] theorem modBank_pur (c p b : Nat) (f : Bank → Bank) (s : State) : (modBank c p b f s).pur = s.pur := rfl
@[simp] theorem modBank_tbs (c p b : Nat) (f : Bank → Bank) (s : State) : (modBank c p b f s).tbs = s.tbs := rfl
@[simp] theorem modBank_so (c p b : Nat) (f : Bank → Bank) (s : State) : (modBank c p b f s).so = s.so := rfl
@[simp] theorem modBank_esc (c p b : Nat) (f : Bank → Bank) (s : State) : (modBank c p b f s).esc = s.esc := rfl
@[simp] theorem modBank_cry (c p b : Nat) (f : Bank → Bank) (s : State) : (modBank c p b f s).cry = s.cry := rfl
@[simp] theorem modBank_mov (c p b : Nat) (f : Bank → Bank) (s : State) : (modBank c p b f s).mov = s.mov := rfl
@[simp] theorem modBank_fe (c p b : Nat) (f : Bank → Bank) (s : State) : (modBank c p b f s).fe = s.fe := rfl
@[simp] theorem modBank_ctl (c p b : Nat) (f : Bank → Bank) (s : State) : (modBank c p b f s).ctl = s.ctl := rfl
@[simp] theorem modBank_pair (c p b : Nat) (f : Bank → Bank) (s : State) : (modBank c p b f s).pair = s.pair := rfl
@[simp] theorem modBank_pb (c p b : Nat) (f : Bank → Bank) (s : State) : (modBank c p b f s).pb = s.pb := rfl
@[simp] theorem modBank_sup (c p b : Nat) (f : Bank → Bank) (s : State) : (modBank c p b f s).sup = s.sup := rfl
@[simp] theorem modBank_clock (c p b : Nat) (f : Bank → Bank) (s : State) : (modBank c p b f s).clock = s.clock := rfl
@[simp] theorem modBank_pending (c p b : Nat) (f : Bank → Bank) (s : State) : (modBank c p b f s).pending = s.pending := rfl
@[simp] theorem modBank_ev (c p b : Nat) (f : Bank → Bank) (s : State) : (modBank c p b f s).ev = s.ev := rfl
@[simp] theorem modBank_regs (c p b : Nat) (f : Bank → Bank) (s : State) : (modBank c p b f s).regs = s.regs := rfl
@[simp] theorem modBank_outbox (c p b : Nat) (f : Bank → Bank) (s : State) : (modBank c p b f s).outbox = s.outbox := rfl

end Sys2Proof.Machine
end

