-- ==== Sys2Proof/Laws/Fixed.lean ====
section
/-! SUPPORT. What no command changes: `State.fixed` shows the queue, the board, the clock and whether the lifecycle state
is RMA, and the files that import this one prove of every operation that it keeps them. -/

namespace Sys2Proof.Machine

/-- The queue, the board, the clock, and whether the lifecycle state is RMA. -/
def State.fixed (s : State) : List Instr × Board × Nat × Bool := (s.pending, s.board, s.clock, s.ctl.life == .rma)

@[simp] theorem State.modIsl_fixed (s : State) (f : Islands → Islands) : (s.modIsl f).fixed = s.fixed := rfl
@[simp] theorem State.modMed_fixed (s : State) (f : Media → Media) : (s.modMed f).fixed = s.fixed := rfl
@[simp] theorem State.modInteg_fixed (s : State) (f : Integrity → Integrity) : (s.modInteg f).fixed = s.fixed := rfl
@[simp] theorem State.modLed_fixed (s : State) (f : Ledger → Ledger) : (s.modLed f).fixed = s.fixed := rfl
@[simp] theorem State.modPur_fixed (s : State) (f : Purse → Purse) : (s.modPur f).fixed = s.fixed := rfl
@[simp] theorem State.modTbs_fixed (s : State) (f : Timebase → Timebase) : (s.modTbs f).fixed = s.fixed := rfl
@[simp] theorem State.modSo_fixed (s : State) (f : Orders → Orders) : (s.modSo f).fixed = s.fixed := rfl
@[simp] theorem State.modEsc_fixed (s : State) (f : Escrows → Escrows) : (s.modEsc f).fixed = s.fixed := rfl
@[simp] theorem State.modCry_fixed (s : State) (f : Crypto → Crypto) : (s.modCry f).fixed = s.fixed := rfl
@[simp] theorem State.modMov_fixed (s : State) (f : Mover → Mover) : (s.modMov f).fixed = s.fixed := rfl
@[simp] theorem State.modFe_fixed (s : State) (f : Front → Front) : (s.modFe f).fixed = s.fixed := rfl
@[simp] theorem State.modPair_fixed (s : State) (f : Pair → Pair) : (s.modPair f).fixed = s.fixed := rfl
@[simp] theorem State.modEv_fixed (s : State) (f : Events → Events) : (s.modEv f).fixed = s.fixed := rfl
@[simp] theorem State.modPb_fixed (s : State) (f : Passbook → Passbook) : (s.modPb f).fixed = s.fixed := rfl
@[simp] theorem State.modSup_fixed (s : State) (f : Super → Super) : (s.modSup f).fixed = s.fixed := rfl
@[simp] theorem State.setRegs_fixed (s : State) (v : Tab (BitVec 32)) : (s.setRegs v).fixed = s.fixed := rfl
@[simp] theorem State.setOutbox_fixed (s : State) (v : List Out) : (s.setOutbox v).fixed = s.fixed := rfl
theorem State.modCtl_fixed' (s : State) (f : Control → Control) (h : ((f s.ctl).life == .rma) = (s.ctl.life == .rma)) :
    (s.modCtl f).fixed = s.fixed := by simp [State.fixed, State.modCtl, h]
@[simp] theorem State.modCtl_fixed (s : State) (f : Control → Control) (h : (f s.ctl).life = s.ctl.life) :
    (s.modCtl f).fixed = s.fixed := s.modCtl_fixed' f (by rw [h])
theorem rma_of_fixed {s t : State} (h : t.fixed = s.fixed) : (t.ctl.life == .rma) = (s.ctl.life == .rma) := by
  simp only [State.fixed, Prod.mk.injEq] at h; exact h.2.2.2
def ResFixed (r : Res) (s : State) : Prop := ∀ t, r = .next t → t.fixed = s.fixed
@[simp] theorem ResFixed_next (t s : State) : ResFixed (.next t) s ↔ t.fixed = s.fixed := by simp [ResFixed]
@[simp] theorem ResFixed_fault (f : Fault) (s : State) : ResFixed (.fault f) s := by simp [ResFixed]
@[simp] theorem ResFixed_refused (f : Refusal) (s : State) : ResFixed (.refused f) s := by simp [ResFixed]
theorem ite_fixed (c : Prop) [Decidable c] (a b : State) : (if c then a else b).fixed = if c then a.fixed else b.fixed := by split <;> rfl
theorem foldl_fixed {α : Type} (xs : List α) (f : State → α → State) (s : State) (hf : ∀ s x, (f s x).fixed = s.fixed) :
    (xs.foldl f s).fixed = s.fixed := by
  induction xs generalizing s with
  | nil => rfl
  | cons x xs ih => simp [ih, hf]
theorem forEach_fixed {α : Type} (xs : List α) (f : α → State → State) (s : State) (hf : ∀ x s, (f x s).fixed = s.fixed) :
    (forEach xs f s).fixed = s.fixed := foldl_fixed _ _ _ fun s x => hf x s
theorem foldl2_fixed {α β : Type} (xs : List α) (f : β × State → α → β × State) (a : β × State)
    (hf : ∀ a x, (f a x).2.fixed = a.2.fixed) : (xs.foldl f a).2.fixed = a.2.fixed := by
  induction xs generalizing a with
  | nil => rfl
  | cons x xs ih => simp [ih, hf]
theorem foldl1_fixed {α β : Type} (xs : List α) (f : State × β → α → State × β) (a : State × β)
    (hf : ∀ a x, (f a x).1.fixed = a.1.fixed) : (xs.foldl f a).1.fixed = a.1.fixed := by
  induction xs generalizing a with
  | nil => rfl
  | cons x xs ih => simp [ih, hf]
end Sys2Proof.Machine
end

