-- ==== Sys2Proof/Laws/FixedOps.lean ====
section
/-! SUPPORT. The operations of the shared operations, events, the mailboxes and the purse keep what `State.fixed` shows: the queue, the board, the
clock, and whether the lifecycle state is RMA. -/

namespace Sys2Proof.Machine

theorem rset_fixed (s : State) (key : Nat) (v : BitVec 32) :
    (rset s key v).fixed = s.fixed := by
  simp [rset]

theorem rbit_fixed (s : State) (key : Nat) (i : Nat) :
    (rbit s key i).fixed = s.fixed := by
  simp [rbit, rset_fixed]

theorem rinc_fixed (s : State) (key : Nat) (n : Nat) :
    (rinc s key n).fixed = s.fixed := by
  simp [rinc, rset_fixed]

theorem msMark_fixed (s : State) (k : Nat) :
    (msMark s k).fixed = s.fixed := by
  simp [msMark]

theorem takeFree_fixed (w : Nat) (s : State) :
    (takeFree w s).2.fixed = s.fixed := by
  simp [takeFree]

theorem takeRandom_fixed (s : State) :
    (takeRandom s).2.fixed = s.fixed := by
  simp [takeRandom]

theorem send_fixed (o : Out) (s : State) :
    (send o s).fixed = s.fixed := by
  simp [send]

theorem modPort_fixed (h : Head) (f : Port → Port) (s : State) :
    (modPort h f s).fixed = s.fixed := by
  (simp only [modPort]; repeat' split) <;> simp

theorem incRaw_fixed (i : Nat) (n : Nat) (s : State) :
    (incRaw i n s).1.fixed = s.fixed := by
  (simp only [incRaw]; repeat' split) <;> simp

theorem signalVec_fixed (h : Head) (v : Nat) (s : State) :
    (signalVec h v s).fixed = s.fixed := by
  simp [signalVec, modPort_fixed, send_fixed, incRaw_fixed, ite_fixed]

theorem notifyVec_fixed (h : Head) (v : Nat) (s : State) :
    (notifyVec h v s).fixed = s.fixed := by
  simp [notifyVec, modPort_fixed, signalVec_fixed, ite_fixed]

theorem rateCheck_fixed (code : Nat) (s : State) :
    (rateCheck code s).1.fixed = s.fixed := by
  (simp only [rateCheck]; repeat' split) <;> simp

theorem offer_fixed (r : DbRec) (s : State) :
    (offer r s).1.fixed = s.fixed := by
  (simp only [offer]; repeat' split) <;> simp [incRaw_fixed]

theorem cxlAppend_fixed (h : Head) (sev : Nat) (code : Nat) (detail : Nat) (s : State) :
    (cxlAppend h sev code detail s).fixed = s.fixed := by
  simp [cxlAppend, modPort_fixed]

theorem groupNote_fixed (code : Nat) (s : State) :
    (groupNote code s).fixed = s.fixed := by
  rfl

theorem raiseF_fixed (x0 : Nat) (x1 : Nat) (x2 : Det) (x3 : State) :
    (raiseF x0 x1 x2 x3).fixed = x3.fixed := by
  induction x0 generalizing x1 x2 x3 with
  | zero => rfl
  | succ n ih =>
    unfold raiseF
    grind [rset_fixed, rbit_fixed, incRaw_fixed, rateCheck_fixed, offer_fixed, notifyVec_fixed, cxlAppend_fixed,
            groupNote_fixed]

theorem raise_fixed (group : Nat) (src : Nat) (reason : Nat) (d : Det) (s : State) :
    (raise group src reason d s).fixed = s.fixed := by
  simp [raise, raiseF_fixed]

theorem raiseMs_fixed (group : Nat) (src : Nat) (reason : Nat) (d : Det) (s : State) :
    (raiseMs group src reason d s).fixed = s.fixed := by
  simp [raiseMs, raise_fixed, msMark_fixed, ite_fixed]

theorem bump_fixed (i : Nat) (n : Nat) (s : State) :
    (bump i n s).fixed = s.fixed := by
  simp [bump, incRaw_fixed, raise_fixed, ite_fixed]

theorem pageStart_fixed (s : State) :
    (pageStart s).fixed = s.fixed := by
  (simp only [pageStart]; repeat' split) <;> simp

theorem pageQueue_fixed (cls : Nat) (addr : Nat) (data : List Byte) (principal : Nat) (s : State) :
    (pageQueue cls addr data principal s).fixed = s.fixed := by
  simp [pageQueue, pageStart_fixed]

theorem recordQueue_fixed (addr : Nat) (s : State) :
    (recordQueue addr s).fixed = s.fixed := by
  simp [recordQueue, pageQueue_fixed]

theorem paramQueue_fixed (id : Nat) (v : Nat) (s : State) :
    (paramQueue id v s).fixed = s.fixed := by
  simp [paramQueue, pageQueue_fixed]

theorem tallyWord_fixed (c : Nat) (half : Nat) (u : Nat) (s : State) :
    (tallyWord c half u s).fixed = s.fixed := by
  simp [tallyWord]

theorem tallyAdvance_fixed (c : Nat) (u : Nat) (s : State) :
    (tallyAdvance c u s).fixed = s.fixed := by
  simp [tallyAdvance, raise_fixed, pageQueue_fixed, ite_fixed]

theorem rangeStore_fixed (w : PageWrite) (s : State) :
    (rangeStore w s).fixed = s.fixed := by
  simp [rangeStore]

theorem ok_fixed (s : State) :
    (ok s).st.fixed = s.fixed := by
  simp [ok]

theorem okOut_fixed (out : List Byte) (s : State) :
    (okOut out s).st.fixed = s.fixed := by
  simp [okOut]

theorem errAns_fixed (code : Nat) (s : State) :
    (errAns code s).st.fixed = s.fixed := by
  simp [errAns]

theorem modMbx_fixed (p : MbxPort) (f : Mailbox → Mailbox) (s : State) :
    (modMbx p f s).fixed = s.fixed := by
  (simp only [modMbx]; repeat' split) <;> simp [modPort_fixed]

theorem mbxAnswer_fixed (p : MbxPort) (op : Nat) (rc : Nat) (out : List Byte) (s : State) :
    (mbxAnswer p op rc out s).fixed = s.fixed := by
  (simp only [mbxAnswer]; repeat' split) <;> simp [send_fixed, modMbx_fixed, rbit_fixed, notifyVec_fixed]

theorem bgStart_fixed (p : MbxPort) (op : Nat) (arg : Nat) (recs : Nat) (s : State) :
    (bgStart p op arg recs s).st.fixed = s.fixed := by
  simp [bgStart, modMbx_fixed]

theorem yciAnswer_fixed (op : Nat) (body : Body) (p : MbxPort) (payload : List Byte) (s : State) (hbody : ∀ p b s, (body
    p b s).st.fixed = s.fixed) :
    (yciAnswer op body p payload s).st.fixed = s.fixed := by
  (simp only [yciAnswer]; repeat' split) <;> simp [errAns_fixed, raise_fixed, hbody]

theorem yciRun_fixed (op : Nat) (body : Body) (p : MbxPort) (payload : List Byte) (s : State) (hbody : ∀ p b s, (body p
    b s).st.fixed = s.fixed) :
    (yciRun op body p payload s).fixed = s.fixed := by
  simp [yciRun, send_fixed, rset_fixed, yciAnswer_fixed, mbxAnswer_fixed, hbody, ite_fixed]

theorem bgFinish_fixed (p : MbxPort) (rc : Nat) (s : State) :
    (bgFinish p rc s).fixed = s.fixed := by
  (simp only [bgFinish]; repeat' split) <;> simp [modMbx_fixed, raise_fixed, rbit_fixed, notifyVec_fixed]

theorem modCxl_fixed (p : MbxPort) (f : Mailbox → Mailbox) (s : State) :
    (modCxl p f s).fixed = s.fixed := by
  (simp only [modCxl]; repeat' split) <;> simp [modPort_fixed]

theorem cxlRun_fixed (op : Nat) (board : Bool) (len : Nat) (open_ : Bool) (body : Body) (p : MbxPort) (payload : List
    Byte) (s : State) (hbody : ∀ p b s, (body p b s).st.fixed = s.fixed) :
    (cxlRun op board len open_ body p payload s).fixed = s.fixed := by
  (simp only [cxlRun]; repeat' split) <;> simp [errAns_fixed, raise_fixed, send_fixed, modCxl_fixed, hbody]

theorem cxlBgStart_fixed (p : MbxPort) (op : Nat) (arg : Nat) (s : State) :
    (cxlBgStart p op arg s).st.fixed = s.fixed := by
  (simp only [cxlBgStart]; repeat' split) <;> simp [errAns_fixed, modCxl_fixed]

theorem vOk_fixed (s : State) :
    (vOk s).st.fixed = s.fixed := by
  simp [vOk]

theorem vOut_fixed (out : List Byte) (s : State) :
    (vOut out s).st.fixed = s.fixed := by
  simp [vOut]

theorem vErr_fixed (st : Nat) (s : State) :
    (vErr st s).st.fixed = s.fixed := by
  simp [vErr]

theorem vaultRespond_fixed (op : Nat) (principal : Nat) (tag : Nat) (status : Nat) (out : List Byte) (s : State) :
    (vaultRespond op principal tag status out s).fixed = s.fixed := by
  simp only [vaultRespond]; apply State.modCtl_fixed; split <;> rfl

theorem vaultFlush_fixed (s : State) :
    (vaultFlush s).fixed = s.fixed := by
  simp [vaultFlush, raise_fixed]

theorem vaultRun_fixed (op : Nat) (body : Nat → List Byte → State → VAns) (principal : Nat) (tag : Nat) (payload : List
    Byte) (s : State) (hbody : ∀ y0 y1 s, (body y0 y1 s).st.fixed = s.fixed) :
    (vaultRun op body principal tag payload s).fixed = s.fixed := by
  (simp only [vaultRun]; repeat' split) <;> simp [vaultFlush_fixed, vaultRespond_fixed, hbody]

theorem regEvtPendingClear_fixed (_h : Head) (n : Nat) (value : BitVec 32) (s : State) :
    ResFixed (regEvtPendingClear _h n value s) s := by
  simp [regEvtPendingClear, rset_fixed, ite_fixed]

theorem execCoalesceHoldExpiry_fixed (h : Head) (vector : Nat) (s : State) :
    ResFixed (execCoalesceHoldExpiry h vector s) s := by
  simp [execCoalesceHoldExpiry, signalVec_fixed, ite_fixed]

theorem daybookFreezeOp_fixed (s : State) :
    (daybookFreezeOp s).fixed = s.fixed := by
  simp [daybookFreezeOp, raise_fixed, ite_fixed]

theorem daybookThawOp_fixed (s : State) :
    (daybookThawOp s).fixed = s.fixed := by
  simp [daybookThawOp, raise_fixed, ite_fixed]

theorem trigFire_fixed (code : BitVec 16) (s : State) :
    (trigFire code s).fixed = s.fixed := by
  (simp only [trigFire]; repeat' split) <;> simp [raise_fixed, daybookFreezeOp_fixed]

theorem ringTake_fixed (r : DbRec) (s : State) :
    (ringTake r s).fixed = s.fixed := by
  simp [ringTake, bump_fixed, raise_fixed, trigFire_fixed, ite_fixed]

theorem execDaybookRecordTake_fixed (s : State) :
    ResFixed (execDaybookRecordTake s) s := by
  (simp only [execDaybookRecordTake]; repeat' split) <;> simp [ringTake_fixed]

theorem regDaybookFreeze_fixed (_h : Head) (s : State) :
    ResFixed (regDaybookFreeze _h s) s := by
  simp [regDaybookFreeze, daybookFreezeOp_fixed]

theorem regDaybookThaw_fixed (_h : Head) (s : State) :
    ResFixed (regDaybookThaw _h s) s := by
  simp [regDaybookThaw, daybookThawOp_fixed]

theorem yReadDaybook_fixed (p : MbxPort) (b : List Byte) (s : State) :
    (yReadDaybook p b s).st.fixed = s.fixed := by
  (simp only [yReadDaybook]; repeat' split) <;> simp [errAns_fixed, okOut_fixed]

theorem execReadDaybook_fixed (p : MbxPort) (payload : List Byte) (s : State) :
    ResFixed (execReadDaybook p payload s) s := by
  simp [execReadDaybook, yciRun_fixed, yReadDaybook_fixed]

theorem yFreezeDaybook_fixed (p : MbxPort) (b : List Byte) (s : State) :
    (yFreezeDaybook p b s).st.fixed = s.fixed := by
  (simp only [yFreezeDaybook]; repeat' split) <;>
    simp [errAns_fixed, ok_fixed, daybookThawOp_fixed, daybookFreezeOp_fixed]

theorem execThaw_fixed (p : MbxPort) (payload : List Byte) (s : State) :
    ResFixed (execThaw p payload s) s := by
  simp [execThaw, yciRun_fixed, yFreezeDaybook_fixed]

theorem execFreeze_fixed (p : MbxPort) (payload : List Byte) (s : State) :
    ResFixed (execFreeze p payload s) s := by
  simp [execFreeze, yciRun_fixed, yFreezeDaybook_fixed]

theorem execArmTrigger_fixed (p : MbxPort) (payload : List Byte) (s : State) :
    ResFixed (execArmTrigger p payload s) s := by
  simp [execArmTrigger, yciRun_fixed, yFreezeDaybook_fixed]

theorem execDisarmTrigger_fixed (p : MbxPort) (payload : List Byte) (s : State) :
    ResFixed (execDisarmTrigger p payload s) s := by
  simp [execDisarmTrigger, yciRun_fixed, yFreezeDaybook_fixed]

theorem execRateLimitWindow_fixed (s : State) :
    ResFixed (execRateLimitWindow s) s := by
  (simp only [execRateLimitWindow]; repeat' split) <;> simp

theorem ySetDaybookRateLimit_fixed (p : MbxPort) (b : List Byte) (s : State) :
    (ySetDaybookRateLimit p b s).st.fixed = s.fixed := by
  (simp only [ySetDaybookRateLimit]; repeat' split) <;> simp [errAns_fixed, ok_fixed]

theorem execSetDaybookRateLimit_fixed (p : MbxPort) (payload : List Byte) (s : State) :
    ResFixed (execSetDaybookRateLimit p payload s) s := by
  simp [execSetDaybookRateLimit, yciRun_fixed, ySetDaybookRateLimit_fixed]

theorem summaryWrite_fixed (cls : Nat) (s : State) :
    (summaryWrite cls s).fixed = s.fixed := by
  simp [summaryWrite, pageQueue_fixed]

theorem yGetDaybookSummary_fixed (p : MbxPort) (b : List Byte) (s : State) :
    (yGetDaybookSummary p b s).st.fixed = s.fixed := by
  simp [yGetDaybookSummary, okOut_fixed]

theorem execGetDaybookSummary_fixed (p : MbxPort) (payload : List Byte) (s : State) :
    ResFixed (execGetDaybookSummary p payload s) s := by
  simp [execGetDaybookSummary, yciRun_fixed, yGetDaybookSummary_fixed]

theorem snapRequest_fixed (at_ : Nat) (tag : BitVec 16) (who : Nat) (s : State) :
    (snapRequest at_ tag who s).fixed = s.fixed := by
  simp [snapRequest]

theorem regSnap_fixed (_h : Head) (tag : BitVec 16) (s : State) :
    ResFixed (regSnap _h tag s) s := by
  simp [regSnap, snapRequest_fixed]

theorem yTakeAuditSnapshot_fixed (p : MbxPort) (b : List Byte) (s : State) :
    (yTakeAuditSnapshot p b s).st.fixed = s.fixed := by
  (simp only [yTakeAuditSnapshot]; repeat' split) <;> simp [errAns_fixed, ok_fixed, snapRequest_fixed]

theorem execTakeAuditSnapshot_fixed (p : MbxPort) (payload : List Byte) (s : State) :
    ResFixed (execTakeAuditSnapshot p payload s) s := by
  simp [execTakeAuditSnapshot, yciRun_fixed, yTakeAuditSnapshot_fixed]

theorem capture_fixed (now : Nat) (due : List SnapReq) (rest : List SnapReq) (s : State) :
    (capture now due rest s).fixed = s.fixed := by
  (simp only [capture]; repeat' split) <;> simp [raise_fixed]

theorem execSnapshotCapture_fixed (s : State) :
    ResFixed (execSnapshotCapture s) s := by
  (simp only [execSnapshotCapture]; repeat' split) <;> simp [capture_fixed]

theorem execSnapDone_fixed (s : State) :
    ResFixed (execSnapDone s) s := by
  (simp only [execSnapDone]; repeat' split) <;> simp [raise_fixed]

theorem yReadAuditSnapshot_fixed (p : MbxPort) (b : List Byte) (s : State) :
    (yReadAuditSnapshot p b s).st.fixed = s.fixed := by
  (simp only [yReadAuditSnapshot]; repeat' split) <;> simp [errAns_fixed, okOut_fixed]

theorem execReadAuditSnapshot_fixed (p : MbxPort) (payload : List Byte) (s : State) :
    ResFixed (execReadAuditSnapshot p payload s) s := by
  simp [execReadAuditSnapshot, yciRun_fixed, yReadAuditSnapshot_fixed]

theorem regClearCounters_fixed (_h : Head) (s : State) :
    ResFixed (regClearCounters _h s) s := by
  simp [regClearCounters]

theorem execCountersCleared_fixed (s : State) :
    ResFixed (execCountersCleared s) s := by
  (simp only [execCountersCleared]; repeat' split) <;> simp [raise_fixed]

theorem execSample_fixed (slot : Nat) (s : State) :
    ResFixed (execSample slot s) s := by
  (simp only [execSample]; repeat' split) <;> simp [raise_fixed, takeFree_fixed, snapRequest_fixed]

theorem regSampleCfgWrite_fixed (_h : Head) (slot : Nat) (period : Bool) (value : BitVec 32) (s : State) :
    ResFixed (regSampleCfgWrite _h slot period value s) s := by
  (simp only [regSampleCfgWrite]; repeat' split) <;> simp [rset_fixed]

theorem histRead_fixed (ns : Nat) (classes : List Nat) (req : Nat) (key : Nat) (s : State) :
    (histRead ns classes req key s).fixed = s.fixed := by
  simp [histRead, bump_fixed, ite_fixed, forEach_fixed]

theorem regHistCfgWrite_fixed (_h : Head) (hist : Nat) (value : BitVec 32) (s : State) :
    ResFixed (regHistCfgWrite _h hist value s) s := by
  (simp only [regHistCfgWrite]; repeat' split) <;> simp [rset_fixed]

theorem execHistogramRestart_fixed (hist : Nat) (s : State) :
    ResFixed (execHistogramRestart hist s) s := by
  (simp only [execHistogramRestart]; repeat' split) <;> simp

theorem yGetEventRecords_fixed (p : MbxPort) (b : List Byte) (s : State) :
    (yGetEventRecords p b s).st.fixed = s.fixed := by
  (simp only [yGetEventRecords]; repeat' split) <;> simp [errAns_fixed, takeFree_fixed, okOut_fixed]

theorem execGetEventRecords_fixed (p : MbxPort) (payload : List Byte) (s : State) :
    ResFixed (execGetEventRecords p payload s) s := by
  simp [execGetEventRecords, cxlRun_fixed, yGetEventRecords_fixed]

theorem yClearEventRecords_fixed (p : MbxPort) (b : List Byte) (s : State) :
    (yClearEventRecords p b s).st.fixed = s.fixed := by
  (simp only [yClearEventRecords]; repeat' split) <;> simp [errAns_fixed, ok_fixed, modPort_fixed]

theorem execClearEventRecords_fixed (p : MbxPort) (payload : List Byte) (s : State) :
    ResFixed (execClearEventRecords p payload s) s := by
  simp [execClearEventRecords, cxlRun_fixed, yClearEventRecords_fixed]

theorem modEnt_fixed (f : Nat) (g : LEntry → LEntry) (s : State) :
    (modEnt f g s).fixed = s.fixed := by
  simp [modEnt]

theorem setRev_fixed (m : Nat) (kind : Nat) (owner : Nat) (s : State) :
    (setRev m kind owner s).fixed = s.fixed := by
  simp [setRev]

theorem setWear_fixed (m : Nat) (w : Wear) (s : State) :
    (setWear m w s).fixed = s.fixed := by
  simp [setWear]

theorem reserveEvents_fixed (before : Nat) (s : State) :
    (reserveEvents before s).fixed = s.fixed := by
  simp [reserveEvents, raise_fixed, ite_fixed]

theorem ringCheck_fixed (s : State) :
    (ringCheck s).fixed = s.fixed := by
  simp [ringCheck, raise_fixed, ite_fixed]

theorem jAppend_fixed (rs : List JRec) (s : State) :
    (jAppend rs s).fixed = s.fixed := by
  simp [jAppend, pageStart_fixed, ringCheck_fixed]

theorem ringNext_fixed (s : State) :
    (ringNext s).fixed = s.fixed := by
  simp [ringNext, pageStart_fixed, ringCheck_fixed]

theorem ckptAppend_fixed (rs : List JRec) (s : State) :
    (ckptAppend rs s).fixed = s.fixed := by
  simp [ckptAppend, ringNext_fixed]

theorem takeFolio_fixed (m : Nat) (kind : Nat) (owner : Nat) (s : State) :
    (takeFolio m kind owner s).fixed = s.fixed := by
  simp [takeFolio, jAppend_fixed]

theorem queueMig_fixed (f : Nat) (prio : Nat) (retire : Nat) (bullion : Bool) (s : State) :
    (queueMig f prio retire bullion s).fixed = s.fixed := by
  simp [queueMig, ite_fixed]

theorem shelfMove_fixed (toFloor : Bool) (m : Nat) (s : State) :
    (shelfMove toFloor m s).fixed = s.fixed := by
  (simp only [shelfMove]; repeat' split) <;> simp [raise_fixed, jAppend_fixed, takeFolio_fixed]

theorem wearTriggers_fixed (m : Nat) (s : State) :
    (wearTriggers m s).fixed = s.fixed := by
  simp [wearTriggers, raise_fixed, shelfMove_fixed, queueMig_fixed, jAppend_fixed, ite_fixed]

theorem wearNear_fixed (before : Nat) (s : State) :
    (wearNear before s).fixed = s.fixed := by
  simp [wearNear, raise_fixed, ite_fixed]

theorem wearProgram_fixed (m : Nat) (s : State) :
    (wearProgram m s).fixed = s.fixed := by
  simp [wearProgram, setWear_fixed, wearTriggers_fixed, wearNear_fixed, ite_fixed]

theorem queueBlank_fixed (m : Nat) (set1 : Nat) (s : State) :
    (queueBlank m set1 s).fixed = s.fixed := by
  simp [queueBlank, ite_fixed]

theorem countRead_fixed (f : Nat) (s : State) :
    (countRead f s).1.fixed = s.fixed := by
  (simp only [countRead]; repeat' split) <;> simp [modEnt_fixed]

theorem overdraftUpdate_fixed (s : State) :
    (overdraftUpdate s).fixed = s.fixed := by
  simp [overdraftUpdate, raise_fixed, ite_fixed]

theorem overdraftPut_fixed (lineNo : Nat) (l : PLine) (s : State) :
    (overdraftPut lineNo l s).fixed = s.fixed := by
  simp [overdraftPut, bump_fixed, raise_fixed, overdraftUpdate_fixed, ite_fixed]

theorem writeDiscarded_fixed (dpa : Nat) (key : Nat) (s : State) :
    (writeDiscarded dpa key s).fixed = s.fixed := by
  simp [writeDiscarded, rbit_fixed, cxlAppend_fixed, raiseMs_fixed, ite_fixed]

theorem overdraftDrop_fixed (f : Nat) (s : State) :
    (overdraftDrop f s).fixed = s.fixed := by
  simp [overdraftDrop, overdraftUpdate_fixed]

theorem iceLast_fixed (dpa : Nat) (syn : Nat) (key : Nat) (write : Bool) (h : Option Head) (s : State) :
    (iceLast dpa syn key write h s).fixed = s.fixed := by
  simp [iceLast, rset_fixed]

theorem accessCount_fixed (f : AccessFail) (dpa key : Nat) (write : Bool) (h : Option Head) (s : State) :
    (accessCount f dpa key write h s).fixed = s.fixed := by
  (simp only [accessCount]; repeat' split) <;> simp [iceLast_fixed, rbit_fixed, rinc_fixed]

theorem accessFault_fixed (f : AccessFail) (dpa key : Nat) (write : Bool) (h : Option Head) (s : State) :
    (accessFault f dpa key write h s).fixed = s.fixed := by
  simp [accessFault, raiseMs_fixed, accessCount_fixed, ite_fixed]

theorem parentBump_fixed (level : Nat) (idx : Nat) (s : State) :
    (parentBump level idx s).fixed = s.fixed := by
  simp [parentBump, ite_fixed]

theorem nodeWrite_fixed (level : Nat) (n : Nat) (s : State) :
    (nodeWrite level n s).fixed = s.fixed := by
  simp [nodeWrite, parentBump_fixed, wearProgram_fixed]

theorem treeFlush_fixed (s : State) :
    (treeFlush s).fixed = s.fixed := by
  simp [treeFlush, nodeWrite_fixed, forEach_fixed]

theorem ccEvict_fixed (slot : Nat) (s : State) :
    (ccEvict slot s).fixed = s.fixed := by
  simp [ccEvict, wearProgram_fixed, bump_fixed, ite_fixed]

theorem nodeEvict_fixed (key : Nat) (s : State) :
    (nodeEvict key s).fixed = s.fixed := by
  simp [nodeEvict, nodeWrite_fixed, ccEvict_fixed, forEach_fixed, ite_fixed]

theorem treeRoom_fixed (level : Nat) (n : Nat) (s : State) :
    (treeRoom level n s).fixed = s.fixed := by
  (simp only [treeRoom]; repeat' split) <;> simp [nodeEvict_fixed]

theorem nodeFault_fixed (level : Nat) (n : Nat) (s : State) :
    (nodeFault level n s).fixed = s.fixed := by
  simp [nodeFault, rbit_fixed, rinc_fixed, raise_fixed, ite_fixed]

theorem nodeVerify_fixed (level : Nat) (n : Nat) (s : State) :
    (nodeVerify level n s).fixed = s.fixed := by
  (simp only [nodeVerify]; repeat' split) <;> simp [nodeFault_fixed, treeRoom_fixed, bump_fixed]

theorem treeFetch_fixed (w : Nat) (s : State) :
    (treeFetch w s).fixed = s.fixed := by
  simp [treeFetch, nodeVerify_fixed, forEach_fixed]

theorem ctrLose_fixed (b : Nat) (s : State) :
    (ctrLose b s).fixed = s.fixed := by
  simp [ctrLose, raise_fixed, rbit_fixed, rinc_fixed, ite_fixed]

theorem ccFill_fixed (sc : Nat) (b : Nat) (dirty : Bool) (ctr : CtrBlock) (s : State) :
    (ccFill sc b dirty ctr s).fixed = s.fixed := by
  simp [ccFill, ccEvict_fixed, ite_fixed]

theorem ctrFetch_fixed (sc : Nat) (b : Nat) (s : State) :
    (ctrFetch sc b s).2.fixed = s.fixed := by
  (simp only [ctrFetch]; repeat' split) <;> simp [bump_fixed, ctrLose_fixed, treeFetch_fixed, ccFill_fixed]

theorem ctrStore_fixed (sc : Nat) (b : Nat) (c : CtrBlock) (s : State) :
    (ctrStore sc b c s).fixed = s.fixed := by
  simp [ctrStore, parentBump_fixed, ccFill_fixed, ite_fixed]

theorem nextEpoch_fixed (s : State) :
    (nextEpoch s).2.fixed = s.fixed := by
  (simp only [nextEpoch]; repeat' split) <;> simp [raise_fixed, tallyAdvance_fixed]

theorem nextMajor_fixed (cur : BitVec 64) (inc : Nat) (s : State) :
    (nextMajor cur inc s).2.fixed = s.fixed := by
  (simp only [nextMajor]; repeat' split) <;> simp [nextEpoch_fixed]

theorem ctrReinit_fixed (b : Nat) (s : State) :
    (ctrReinit b s).2.fixed = s.fixed := by
  (simp only [ctrReinit]; repeat' split) <;>
    ((simp [raise_fixed]; grind [nextEpoch_fixed, raise_fixed, State.modCry_fixed]))

theorem derivedKey_fixed (k : Nat) (b : Nat) (major : BitVec 64) (s : State) :
    (derivedKey k b major s).fixed = s.fixed := by
  simp [derivedKey, bump_fixed, ite_fixed]

theorem derivedDrop_fixed (p : Nat × Nat × Nat → Bool) (s : State) :
    (derivedDrop p s).fixed = s.fixed := by
  simp [derivedDrop]

theorem setSlot_fixed (k : Nat) (p : PSlot) (s : State) :
    (setSlot k p s).fixed = s.fixed := by
  simp [setSlot]

theorem meterUpdate_fixed (s : State) :
    (meterUpdate s).fixed = s.fixed := by
  simp [meterUpdate, bump_fixed, ite_fixed]

theorem ringAppend_fixed (express : Bool) (lineNo : Nat) (g : BitVec 6) (s : State) :
    (ringAppend express lineNo g s).fixed = s.fixed := by
  simp [ringAppend]

theorem evictVictim_fixed (k : Nat) (v : PSlot) (s : State) :
    (evictVictim k v s).fixed = s.fixed := by
  simp [evictVictim, setSlot_fixed, bump_fixed]

theorem placeDirty_fixed (lineNo : Nat) (l : PLine) (s : State) :
    (placeDirty lineNo l s).fixed = s.fixed := by
  (simp only [placeDirty]; repeat' split) <;>
    simp [overdraftPut_fixed, evictVictim_fixed, ringAppend_fixed, setSlot_fixed, meterUpdate_fixed]

theorem fillClean_fixed (lineNo : Nat) (l : PLine) (s : State) :
    (fillClean lineNo l s).fixed = s.fixed := by
  simp [fillClean, evictVictim_fixed, bump_fixed, setSlot_fixed, ite_fixed]

theorem sweepRemap_fixed (f : Nat) (g : BitVec 24) (s : State) :
    (sweepRemap f g s).fixed = s.fixed := by
  simp [sweepRemap]

theorem sweepDrop_fixed (f : Nat) (s : State) :
    (sweepDrop f s).fixed = s.fixed := by
  simp [sweepDrop, overdraftDrop_fixed]

theorem ctrClean_fixed (b : Nat) (s : State) :
    (ctrClean b s).fixed = s.fixed := by
  simp [ctrClean, wearProgram_fixed, bump_fixed, ite_fixed]

theorem sboxWrite_fixed (tweak : Nat) (d : Sector) (s : State) :
    (sboxWrite tweak d s).fixed = s.fixed := by
  simp [sboxWrite]

end Sys2Proof.Machine
end

