-- ==== Sys2Proof/Laws/FixedMedia.lean ====
section
/-! SUPPORT. The operations of media, line access and the channels keep what `State.fixed` shows: the queue, the board, the
clock, and whether the lifecycle state is RMA. -/

namespace Sys2Proof.Machine

theorem setMline_fixed (key : Nat) (l : MLine) (s : State) :
    (setMline key l s).fixed = s.fixed := by
  simp [setMline]

theorem blankFolio_fixed (m : Nat) (s : State) :
    (blankFolio m s).fixed = s.fixed := by
  simp [blankFolio]

theorem parityRecompute_fixed (m : Nat) (c : Nat) (row : Nat) (f : Nat) (e : LEntry) (s : State) :
    (parityRecompute m c row f e s).fixed = s.fixed := by
  simp [parityRecompute, wearProgram_fixed, setMline_fixed]

theorem programOne_fixed (m key : Nat) (l : MLine) (s : State) :
    (programOne m key l s).fixed = s.fixed := by
  simp [programOne, wearProgram_fixed, setMline_fixed, ite_fixed]

theorem programLine_fixed (f : Nat) (e : LEntry) (m o : Nat) (l : MLine) (s : State) :
    (programLine f e m o l s).fixed = s.fixed := by
  simp [programLine, programOne_fixed, wearProgram_fixed, setMline_fixed, ite_fixed]

theorem countReread_fixed (f : Nat) (s : State) :
    (countReread f s).1.fixed = s.fixed := by
  simp [countReread]

theorem queueRestrike_fixed (m : Nat) (o : Nat) (s : State) :
    (queueRestrike m o s).fixed = s.fixed := by
  simp [queueRestrike]

theorem corrected_fixed (m : Nat) (o : Nat) (n : Nat) (bullion : Bool) (s : State) :
    (corrected m o n bullion s).fixed = s.fixed := by
  simp [corrected, bump_fixed, rinc_fixed, queueRestrike_fixed, ite_fixed]

theorem queueFolioRestrike_fixed (f : Nat) (s : State) :
    (queueFolioRestrike f s).fixed = s.fixed := by
  simp [queueFolioRestrike, queueRestrike_fixed, forEach_fixed]

theorem modChan_fixed (c : Nat) (f : Chan → Chan) (s : State) :
    (modChan c f s).fixed = s.fixed := by
  simp [modChan]

theorem modBank_fixed (c : Nat) (pos : Nat) (bank : Nat) (f : Bank → Bank) (s : State) :
    (modBank c pos bank f s).fixed = s.fixed := by
  simp [modBank, modChan_fixed]

theorem lateRead_fixed (c : Nat) (s : State) :
    (lateRead c s).fixed = s.fixed := by
  simp [lateRead, bump_fixed, rset_fixed, raise_fixed, ite_fixed]

theorem chanCount_fixed (off : Nat) (c : Nat) (high : Bool) (s : State) :
    (chanCount off c high s).fixed = s.fixed := by
  simp [chanCount, rset_fixed]

theorem sendDie_fixed (c die : Nat) (packet : BitVec 64) (s : State) :
    (sendDie c die packet s).fixed = s.fixed := by
  simp [sendDie, send_fixed, ite_fixed]

theorem sendCtl_fixed (c die : Nat) (packet : BitVec 64) (s : State) :
    (sendCtl c die packet s).fixed = s.fixed := by
  simp [sendCtl, sendDie_fixed, modChan_fixed, ite_fixed]

theorem suspendSend_fixed (c pos bank : Nat) (s : State) :
    (suspendSend c pos bank s).fixed = s.fixed := by
  simp [suspendSend, sendCtl_fixed, modBank_fixed, bump_fixed, chanCount_fixed, ite_fixed]

theorem reconSense_fixed (o : MOp) (bin p : Nat) (again : Bool) (s : State) :
    (reconSense o bin p again s).fixed = s.fixed := by
  simp [reconSense, suspendSend_fixed, modBank_fixed, sendDie_fixed, ite_fixed]

theorem reconSenses_fixed (o : MOp) (s : State) :
    (reconSenses o s).fixed = s.fixed := by
  simp [reconSenses, forEach_fixed, reconSense_fixed, forEach_fixed, ite_fixed]

theorem assayStart_fixed (m : Nat) (patrol : Bool) (s : State) :
    (assayStart m patrol s).fixed = s.fixed := by
  simp [assayStart, ite_fixed]

theorem readAssay_fixed (f : Nat) (s : State) :
    (readAssay f s).fixed = s.fixed := by
  simp [readAssay, assayStart_fixed, raise_fixed, modEnt_fixed, ite_fixed]

theorem countHostRead_fixed (f : Nat) (s : State) :
    (countHostRead f s).fixed = s.fixed := by
  simp [countHostRead, countRead_fixed, readAssay_fixed, ite_fixed]

theorem reconNext_fixed (c : Nat) (s : State) :
    (reconNext c s).fixed = s.fixed := by
  (simp only [reconNext]; repeat' split) <;> simp [modChan_fixed, forEach_fixed, countHostRead_fixed, reconSenses_fixed, bump_fixed, chanCount_fixed, forEach_fixed]

theorem reconStart_fixed (c op : Nat) (bypass : Bool) (s : State) :
    (reconStart c op bypass s).fixed = s.fixed := by
  simp [reconStart, reconNext_fixed, modChan_fixed, ite_fixed]

theorem senseSend_fixed (search : Bool) (o : MOp) (s : State) :
    (senseSend search o s).fixed = s.fixed := by
  simp [senseSend, modBank_fixed, sendDie_fixed, ite_fixed]

theorem opIssue_fixed (id : Nat) (sent : Bool) (s : State) :
    (opIssue id sent s).fixed = s.fixed := by
  simp [opIssue, ite_fixed]

theorem readArrives_fixed (search : Bool) (op : MOp) (s : State) :
    (readArrives search op s).fixed = s.fixed := by
  simp [readArrives, reconStart_fixed, opIssue_fixed, senseSend_fixed, suspendSend_fixed, ite_fixed]

theorem pushOp_fixed (op : MOp) (s : State) :
    (pushOp op s).fixed = s.fixed := by
  simp [pushOp, readArrives_fixed, ite_fixed]

theorem stripeStart_fixed (w : StripeWork) (s : State) :
    (stripeStart w s).fixed = s.fixed := by
  simp [stripeStart, forEach_fixed, pushOp_fixed, forEach_fixed, ite_fixed]

theorem queueOp_fixed (kind : OpKind) (purpose : Purpose) (m o : Nat) (e : LEntry) (l : MLine) (s : State) :
    (queueOp kind purpose m o e l s).fixed = s.fixed := by
  simp [queueOp, pushOp_fixed, stripeStart_fixed, ite_fixed]

theorem bankStart_fixed (o : MOp) (pos : Nat) (s : State) :
    (bankStart o pos s).fixed = s.fixed := by
  simp [bankStart, modBank_fixed, ite_fixed]

theorem bankEnd_fixed (o : MOp) (s : State) :
    (bankEnd o s).fixed = s.fixed := by
  simp [bankEnd, modChan_fixed, ite_fixed]

theorem dropOp_fixed (id : Nat) (s : State) :
    (dropOp id s).fixed = s.fixed := by
  simp [dropOp]

theorem modOp_fixed (id : Nat) (f : MOp → MOp) (s : State) :
    (modOp id f s).fixed = s.fixed := by
  simp [modOp]

theorem spareTake_fixed (c : Nat) (pos : Nat) (bank : Nat) (brow : Nat) (s : State) :
    ∀ t, spareTake c pos bank brow s = some t → t.fixed = s.fixed := by
  unfold spareTake
  repeat' split
  all_goals grind [recordQueue_fixed, bump_fixed, rinc_fixed, sendCtl_fixed, raise_fixed, State.modPur_fixed, State.modMed_fixed, State.modLed_fixed, State.modCry_fixed, State.modFe_fixed, State.modInteg_fixed]

theorem poisonListAdd_fixed (lineNo : Nat) (syn : Nat) (s : State) :
    (poisonListAdd lineNo syn s).fixed = s.fixed := by
  simp [poisonListAdd]

theorem poisonListDrop_fixed (lineNo : Nat) (s : State) :
    (poisonListDrop lineNo s).fixed = s.fixed := by
  simp [poisonListDrop]

theorem poisonInTill_fixed (lineNo : Nat) (s : State) :
    (poisonInTill lineNo s).fixed = s.fixed := by
  (simp only [poisonInTill]; repeat' split) <;> simp [setSlot_fixed]

theorem poisonStore_fixed (lineNo syn : Nat) (s : State) :
    (poisonStore lineNo syn s).fixed = s.fixed := by
  simp [poisonStore, poisonListAdd_fixed, poisonInTill_fixed, queueOp_fixed, ite_fixed]

theorem poisonReturn_fixed (lineNo : Nat) (sector : Nat) (syn : Nat) (key : Nat) (h : Option Head) (s : State) :
    (poisonReturn lineNo sector syn key h s).fixed = s.fixed := by
  simp [poisonReturn, cxlAppend_fixed, rset_fixed, rbit_fixed, rinc_fixed, iceLast_fixed, bump_fixed, poisonStore_fixed,
          raise_fixed, ite_fixed]

theorem hallmarkFail_fixed (lineNo : Nat) (key : Nat) (s : State) :
    (hallmarkFail lineNo key s).fixed = s.fixed := by
  simp [hallmarkFail, raiseMs_fixed, rbit_fixed, rinc_fixed, bump_fixed]

theorem press_fixed (lineNo : Nat) (ct : Line) (hm : BitVec 64) (s : State) :
    (press lineNo ct hm s).2.fixed = s.fixed := by
  (simp only [press]; repeat' split) <;> first
    | (simp [derivedKey_fixed, bump_fixed, hallmarkFail_fixed]; done)
    | (simp [derivedKey_fixed, bump_fixed, hallmarkFail_fixed]; grind [ctrFetch_fixed, derivedKey_fixed, bump_fixed,
            hallmarkFail_fixed])

theorem baseStored_fixed (lineNo : Nat) (ct : Line) (hm : BitVec 64) (poison : Bool) (rew : BitVec 4) (s : State) :
    (baseStored lineNo ct hm poison rew s).2.fixed = s.fixed := by
  (simp only [baseStored]; repeat' split) <;> first | (simp; done) | (simp; grind [press_fixed])

theorem baseFilled_fixed (lineNo : Nat) (r : LineRes) (s : State) :
    (baseFilled lineNo r s).2.fixed = s.fixed := by
  (simp only [baseFilled]; repeat' split) <;> simp [baseStored_fixed]

theorem slotInvalidate_fixed (lineNo : Nat) (s : State) :
    (slotInvalidate lineNo s).fixed = s.fixed := by
  simp [slotInvalidate, setSlot_fixed, ite_fixed]

theorem baseNow_fixed (lineNo : Nat) (fill : Option Filled) (s : State) :
    (baseNow lineNo fill s).2.fixed = s.fixed := by
  (simp only [baseNow]; repeat' split) <;> simp [baseFilled_fixed, baseStored_fixed, slotInvalidate_fixed]

theorem resvLose_fixed (p : Resv → Bool) (detail : Nat) (s : State) :
    (resvLose p detail s).fixed = s.fixed := by
  simp [resvLose, rinc_fixed, ite_fixed]

theorem resvWrite_fixed (q : Option Nat) (lineNo : Nat) (s : State) :
    (resvWrite q lineNo s).fixed = s.fixed := by
  simp [resvWrite, resvLose_fixed]

theorem resvTouch_fixed (p : Nat → Bool) (s : State) :
    (resvTouch p s).fixed = s.fixed := by
  simp [resvTouch, resvLose_fixed]

theorem encLine_fixed (lineNo : Nat) (plain : Line) (s : State) :
    (encLine lineNo plain s).2.fixed = s.fixed := by
  (simp only [encLine]; repeat' split) <;> first
    | (simp [ctrReinit_fixed, ctrStore_fixed, bump_fixed, derivedKey_fixed]; done)
    | (simp [ctrReinit_fixed, ctrStore_fixed, bump_fixed, derivedKey_fixed]; grind [ctrFetch_fixed, ctrReinit_fixed,
            ctrStore_fixed, bump_fixed, derivedKey_fixed])

theorem sliceCount_fixed (lineNo : Nat) (k : Nat) (s : State) :
    (sliceCount lineNo k s).fixed = s.fixed := by
  simp [sliceCount, bump_fixed]

theorem mergeLine_fixed (lineNo : Nat) (plain : Line) (poison : Bool) (rew : BitVec 4) (s : State) :
    (mergeLine lineNo plain poison rew s).2.fixed = s.fixed := by
  (simp only [mergeLine]; repeat' split) <;>
    ((simp [sliceCount_fixed, placeDirty_fixed]; grind [encLine_fixed, sliceCount_fixed, placeDirty_fixed]))

theorem mergePoison_fixed (lineNo : Nat) (b : Base) (s : State) :
    (mergePoison lineNo b s).2.fixed = s.fixed := by
  (simp only [mergePoison]; repeat' split) <;> simp [sliceCount_fixed, placeDirty_fixed, mergeLine_fixed]

theorem mergeSector_fixed (lineNo : Nat) (b : Base) (w : SecWrite) (s : State) :
    (mergeSector lineNo b w s).2.fixed = s.fixed := by
  (simp only [mergeSector]; repeat' split) <;> simp [mergePoison_fixed, mergeLine_fixed]

theorem takeStart_fixed (r : Taker) (count : Bool) (l : Nat) (s : State) :
    (takeStart r count l s).fixed = s.fixed := by
  (simp only [takeStart]; repeat' split) <;> simp [modOp_fixed, queueOp_fixed, countHostRead_fixed]

theorem takeReady_fixed (r : Taker) (count : Bool) (l : Nat) (s : State) :
    (takeReady r count l s).2.fixed = s.fixed := by
  (simp only [takeReady]; repeat' split) <;> simp [baseNow_fixed, takeStart_fixed]

theorem recoinReady_fixed (b : Nat) (x0 : List Nat) (s : State) :
    (recoinReady b x0 s).2.fixed = s.fixed := by
  induction x0 generalizing s with
  | nil => rfl
  | cons i r ih => simp [recoinReady, takeReady_fixed, ih]

theorem recoinStart_fixed (b : Nat) (s : State) :
    (recoinStart b s).fixed = s.fixed := by
  unfold recoinStart
  repeat' split
  all_goals grind [ctrFetch_fixed, recoinReady_fixed, pageQueue_fixed, State.modPur_fixed, State.modMed_fixed, State.modLed_fixed, State.modCry_fixed, State.modFe_fixed, State.modInteg_fixed]

theorem recoinPageTake_fixed (s : State) :
    (recoinPageTake s).fixed = s.fixed := by
  (simp only [recoinPageTake]; repeat' split) <;> simp [recoinStart_fixed]

theorem rereadNote_fixed (c f : Nat) (s : State) :
    (rereadNote c f s).fixed = s.fixed := by
  simp [rereadNote, bump_fixed, chanCount_fixed, countReread_fixed, raise_fixed, queueFolioRestrike_fixed, ite_fixed]

theorem takenDrop_fixed (p : Taken → Bool) (s : State) :
    (takenDrop p s).fixed = s.fixed := by
  simp [takenDrop, ite_fixed]

theorem takeBase_fixed (r : Taker) (l : Nat) (s : State) :
    (takeBase r l s).2.fixed = s.fixed := by
  unfold takeBase
  repeat' split
  all_goals grind [baseNow_fixed, takenDrop_fixed, baseFilled_fixed, State.modPur_fixed, State.modMed_fixed, State.modLed_fixed, State.modCry_fixed, State.modFe_fixed, State.modInteg_fixed]

theorem recoinPlain_fixed (lineNo : Nat) (s : State) :
    (recoinPlain lineNo s).2.fixed = s.fixed := by
  (simp only [recoinPlain]; repeat' split) <;> simp [takeBase_fixed]

theorem recoinLines_fixed (b : Nat) (x1 : List Nat) (x2 : State) :
    (recoinLines b x1 x2).2.fixed = x2.fixed := by
  induction x1 generalizing x2 with
  | nil => rfl
  | cons i r ih =>
    simp only [recoinLines]
    split <;> simp [recoinPlain_fixed, ih]

theorem slotCorrected_fixed (n : Nat) (s : State) :
    (slotCorrected n s).fixed = s.fixed := by
  simp [slotCorrected, rbit_fixed, rinc_fixed, ite_fixed]

theorem slotReread_fixed (k : Nat) (raw : BitVec 2304) (p : PSlot) (s : State) :
    (slotReread k raw p s).fixed = s.fixed := by
  simp [slotReread, ite_fixed]

theorem slotUncorr_fixed (s : State) :
    (slotUncorr s).fixed = s.fixed := by
  simp [slotUncorr, rbit_fixed, rinc_fixed, ite_fixed]

theorem slotLineBad_fixed (l : Nat) (s : State) :
    (slotLineBad l s).fixed = s.fixed := by
  simp [slotLineBad, slotUncorr_fixed, raise_fixed, cxlAppend_fixed, setSlot_fixed, ite_fixed]

theorem slotMetaBad_fixed (l : Nat) (s : State) :
    (slotMetaBad l s).2.fixed = s.fixed := by
  (simp only [slotMetaBad]; repeat' split) <;> simp [raise_fixed, rbit_fixed, slotUncorr_fixed]

theorem slotCheck_fixed (l : Nat) (s : State) :
    (slotCheck l s).2.fixed = s.fixed := by
  (simp only [slotCheck]; repeat' split) <;> simp [slotCorrected_fixed, slotReread_fixed, slotLineBad_fixed, slotMetaBad_fixed]

theorem recoinTo_fixed (b : Nat) (major : BitVec 64) (s : State) :
    (recoinTo b major s).fixed = s.fixed := by
  unfold recoinTo
  dsimp only
  repeat' split
  all_goals simp [recoinLines_fixed, resvTouch_fixed, derivedDrop_fixed, ctrStore_fixed, forEach_fixed, placeDirty_fixed, slotCheck_fixed, forEach_fixed]

theorem recoinFree_fixed (s : State) :
    (recoinFree s).fixed = s.fixed := by
  simp [recoinFree, recoinPageTake_fixed, ite_fixed]

theorem debtAdd_fixed (f : Nat) (s : State) :
    (debtAdd f s).fixed = s.fixed := by
  simp [debtAdd, recordQueue_fixed, ite_fixed]

theorem mirrorSend_fixed (settle : Bool) (key : Nat) (sector : Nat) (d : Sector) (s : State) :
    (mirrorSend settle key sector d s).fixed = s.fixed := by
  simp [mirrorSend, send_fixed, bump_fixed, ite_fixed]

theorem mirrorHook_fixed (lineNo : Nat) (sector : Nat) (key : Nat) (d : Sector) (s : State) :
    (mirrorHook lineNo sector key d s).fixed = s.fixed := by
  (simp only [mirrorHook]; repeat' split) <;> simp [mirrorSend_fixed, debtAdd_fixed]

theorem spillLine_fixed (lineNo : Nat) (p : PLine) (s : State) :
    (spillLine lineNo p s).fixed = s.fixed := by
  simp [spillLine, wearProgram_fixed, ite_fixed]

theorem toOverdraft_fixed (lineNo : Nat) (s : State) :
    (toOverdraft lineNo s).fixed = s.fixed := by
  (simp only [toOverdraft]; repeat' split) <;> simp [setSlot_fixed, overdraftPut_fixed, spillLine_fixed]

theorem writeBy_fixed (q : Option Nat) (lineNo : Nat) (key : Nat) (b : Base) (w : SecWrite) (mirror : Bool) (s : State)
    :
    (writeBy q lineNo key b w mirror s).2.fixed = s.fixed := by
  (simp only [writeBy]; repeat' split) <;>
    simp [rinc_fixed, writeDiscarded_fixed, mergeSector_fixed, resvWrite_fixed, toOverdraft_fixed, mirrorHook_fixed]

theorem writeNow_fixed (lineNo : Nat) (key : Nat) (b : Base) (w : SecWrite) (mirror : Bool) (s : State) :
    (writeNow lineNo key b w mirror s).2.fixed = s.fixed := by
  simp [writeNow, writeBy_fixed]

theorem readDone_fixed (tg : Txn) (r : Except Nat Sector) (classes : List Nat) (s : State) :
    (readDone tg r classes s).fixed = s.fixed := by
  (simp only [readDone]; repeat' split) <;> simp [histRead_fixed, send_fixed, bump_fixed, poisonReturn_fixed]

theorem writeDone_fixed (t : Txn) (s : State) :
    (writeDone t s).fixed = s.fixed := by
  simp [writeDone, send_fixed, ite_fixed]

theorem snoopSend_fixed (h : Head) (sector : Nat) (key : Nat) (inval : Bool) (s : State) :
    (snoopSend h sector key inval s).fixed = s.fixed := by
  simp [snoopSend, send_fixed, bump_fixed, ite_fixed]

theorem snoopNeed_fixed (h : Option Head) (own : Bool) (alloc : Bool) (sector : Nat) (s : State) :
    (snoopNeed h own alloc sector s).2.fixed = s.fixed := by
  (simp only [snoopNeed]; repeat' split) <;> simp [snoopSend_fixed, forEach_fixed]

theorem sfHold_fixed (h : Head) (own : Bool) (sector : Nat) (key : Nat) (s : State) :
    (sfHold h own sector key s).fixed = s.fixed := by
  simp [sfHold]

theorem forwardSend_fixed (tg : Txn) (s : State) :
    (forwardSend tg s).2.fixed = s.fixed := by
  simp [forwardSend, send_fixed, bump_fixed]

theorem missStart_fixed (t : Txn) (s : State) :
    (missStart t s).2.fixed = s.fixed := by
  (simp only [missStart]; repeat' split) <;> simp [modOp_fixed, countHostRead_fixed, sliceCount_fixed, queueOp_fixed]

theorem ringSnoop_fixed (by_ : Option Nat) (write : Bool) (l : Nat) (s : State) :
    (ringSnoop by_ write l s).fixed = s.fixed := by
  simp [ringSnoop, ite_fixed]

theorem serveSbox_fixed (bi : Bool) (t : Txn) (s : State) :
    (serveSbox bi t s).2.fixed = s.fixed := by
  (simp only [serveSbox]; repeat' split) <;> simp [snoopNeed_fixed, writeDone_fixed, sboxWrite_fixed, sfHold_fixed, readDone_fixed, ok_fixed]

theorem baseOrMiss_fixed (t : Txn) (fill : Option Filled) (s : State) :
    (baseOrMiss t fill s).2.fixed = s.fixed := by
  unfold baseOrMiss
  repeat' split
  all_goals grind [baseNow_fixed, ok_fixed, missStart_fixed, State.modPur_fixed, State.modMed_fixed, State.modLed_fixed, State.modCry_fixed, State.modFe_fixed, State.modInteg_fixed]

theorem stageCopy_fixed (agent l : Nat) (s : State) :
    (stageCopy agent l s).fixed = s.fixed := by
  simp [stageCopy, ite_fixed]

theorem writeTxn_fixed (t : Txn) (b : Base) (s : State) :
    (writeTxn t b s).2.fixed = s.fixed := by
  (simp only [writeTxn]; repeat' split) <;> simp [writeNow_fixed, stageCopy_fixed, poisonListAdd_fixed, poisonListDrop_fixed]

theorem writeAck_fixed (tg : Txn) (s : State) :
    (writeAck tg s).2.fixed = s.fixed := by
  (simp only [writeAck]; repeat' split) <;> simp [writeDone_fixed]

theorem expressLine_fixed (t : Txn) (s : State) :
    (expressLine t s).fixed = s.fixed := by
  simp [expressLine, ite_fixed]

theorem serveWrite_fixed (fill : Option Filled) (t : Txn) (s : State) :
    (serveWrite fill t s).2.fixed = s.fixed := by
  unfold serveWrite
  repeat' split
  all_goals grind [writeDone_fixed, rinc_fixed, writeDiscarded_fixed, recoinStart_fixed, baseOrMiss_fixed, ok_fixed, writeTxn_fixed, writeAck_fixed, expressLine_fixed, State.modPur_fixed, State.modMed_fixed, State.modLed_fixed, State.modCry_fixed, State.modFe_fixed, State.modInteg_fixed]

theorem serveRead_fixed (fill : Option Filled) (bi : Bool) (t : Txn) (s : State) :
    (serveRead fill bi t s).2.fixed = s.fixed := by
  unfold serveRead
  repeat' split
  all_goals grind [baseOrMiss_fixed, ok_fixed, snoopNeed_fixed, sliceCount_fixed, sfHold_fixed, readDone_fixed, State.modPur_fixed, State.modMed_fixed, State.modLed_fixed, State.modCry_fixed, State.modFe_fixed, State.modInteg_fixed]

theorem accessWait_fixed (t : Txn) (s : State) :
    (accessWait t s).2.fixed = s.fixed := by
  unfold accessWait
  repeat' split
  all_goals grind [forwardSend_fixed, slotCheck_fixed, snoopNeed_fixed, ringSnoop_fixed, State.modPur_fixed, State.modMed_fixed, State.modLed_fixed, State.modCry_fixed, State.modFe_fixed, State.modInteg_fixed]

theorem serve_fixed (fill : Option Filled) (bi : Bool) (t : Txn) (s : State) :
    (serve fill bi t s).2.fixed = s.fixed := by
  unfold serve
  repeat' split
  all_goals grind [serveSbox_fixed, accessWait_fixed, serveWrite_fixed, serveRead_fixed, State.modPur_fixed, State.modMed_fixed, State.modLed_fixed, State.modCry_fixed, State.modFe_fixed, State.modInteg_fixed]

theorem serveList_fixed (fill : Option Filled) (x1 : List Txn) (x2 : State) :
    (serveList fill x1 x2).2.fixed = x2.fixed := by
  induction x1 generalizing x2 with
  | nil => rfl
  | cons t r ih =>
    simp only [serveList]
    have h := fun b => serve_fixed fill b t x2
    repeat' split
    all_goals simp [ih]
    all_goals grind

theorem retryLine_fixed (fill : Option Filled) (lineNo : Nat) (s : State) :
    (retryLine fill lineNo s).fixed = s.fixed := by
  simp [retryLine, serveList_fixed]

theorem ownTxn_fixed (t : Txn) (front : Bool) (s : State) :
    (ownTxn t front s).fixed = s.fixed := by
  simp [ownTxn, retryLine_fixed, ite_fixed]

theorem writeBack_fixed (h : Head) (sector key : Nat) (d : Sector) (s : State) :
    (writeBack h sector key d s).fixed = s.fixed := by
  unfold writeBack
  dsimp only
  generalize (if sboxLine (sector / 4) = true then none else accessCheck s key (some h) (ent s (folioOf (sector / 4)))) = w
  cases w <;> (repeat' split) <;> simp_all [raise_fixed, ownTxn_fixed, accessFault_fixed]

theorem conflictNote_fixed (t : Txn) (s : State) :
    (conflictNote t s).fixed = s.fixed := by
  simp [conflictNote, send_fixed, ite_fixed]

theorem admitTxn_fixed (t : Txn) (s : State) :
    (admitTxn t s).fixed = s.fixed := by
  unfold admitTxn
  repeat' split
  all_goals grind [conflictNote_fixed, bump_fixed, serve_fixed, State.modPur_fixed, State.modMed_fixed, State.modLed_fixed, State.modCry_fixed, State.modFe_fixed, State.modInteg_fixed]

theorem retryWhere_fixed (p : TxnWait → Bool) (s : State) :
    (retryWhere p s).fixed = s.fixed := by
  simp [retryWhere, retryLine_fixed, forEach_fixed]

theorem unprovisionedAccess_fixed (h : Head) (tag : Nat) (dpa : Nat) (key : Nat) (write : Bool) (s : State) :
    (unprovisionedAccess h tag dpa key write s).fixed = s.fixed := by
  simp [unprovisionedAccess, raise_fixed, send_fixed, raiseMs_fixed, bump_fixed, ite_fixed]

theorem ideRefuse_fixed (h : Head) (tag : Nat) (write : Bool) (s : State) :
    (ideRefuse h tag write s).fixed = s.fixed := by
  simp [ideRefuse, bump_fixed, send_fixed, raiseMs_fixed, ite_fixed]

theorem sboxAccess_fixed (h : Head) (tag dpa : Nat) (own : Bool) (w : Option SecWrite) (s : State) :
    (sboxAccess h tag dpa own w s).fixed = s.fixed := by
  simp [sboxAccess, unprovisionedAccess_fixed, admitTxn_fixed, ite_fixed]

theorem ledgerLookup_fixed (h : Head) (f : Nat) (s : State) :
    (ledgerLookup h f s).fixed = s.fixed := by
  (simp only [ledgerLookup]; repeat' split) <;> simp [bump_fixed]

theorem hostAccess_fixed (h : Head) (tag hpa : Nat) (own : Bool) (w : Option SecWrite) (s : State) :
    (hostAccess h tag hpa own w s).fixed = s.fixed := by
  (simp only [hostAccess]; repeat' split) <;> simp [ideRefuse_fixed, ledgerLookup_fixed, sboxAccess_fixed, unprovisionedAccess_fixed, bump_fixed, accessFault_fixed, writeDone_fixed, histRead_fixed, poisonReturn_fixed, send_fixed, admitTxn_fixed, countHostRead_fixed]

theorem execMemRd_fixed (h : Head) (tag : Nat) (hpa : BitVec 64) (own : Bool) (s : State) :
    ResFixed (execMemRd h tag hpa own s) s := by
  simp [execMemRd, hostAccess_fixed, bump_fixed, ite_fixed]

theorem execMemRdData_fixed (h : Head) (tag : Nat) (hpa : BitVec 64) (own : Bool) (s : State) :
    ResFixed (execMemRdData h tag hpa own s) s := by
  simp [execMemRdData, hostAccess_fixed, bump_fixed, ite_fixed]

theorem execMemWr_fixed (h : Head) (tag : Nat) (hpa : BitVec 64) (data : Sector) (poison : Bool) (s : State) :
    ResFixed (execMemWr h tag hpa data poison s) s := by
  simp [execMemWr, hostAccess_fixed, bump_fixed, ite_fixed]

theorem execMemWrPtl_fixed (h : Head) (tag : Nat) (hpa : BitVec 64) (data : Sector) (enables : BitVec 64) (poison :
    Bool) (s : State) :
    ResFixed (execMemWrPtl h tag hpa data enables poison s) s := by
  simp [execMemWrPtl, hostAccess_fixed, bump_fixed, ite_fixed]

theorem prefetchQueue_fixed (lineNo : Nat) (s : State) :
    (prefetchQueue lineNo s).2.fixed = s.fixed := by
  (simp only [prefetchQueue]; repeat' split) <;> simp [bump_fixed]

theorem execMemSpecRd_fixed (h : Head) (hpa : BitVec 64) (s : State) :
    ResFixed (execMemSpecRd h hpa s) s := by
  (simp only [execMemSpecRd]; repeat' split) <;> simp [bump_fixed, ledgerLookup_fixed, prefetchQueue_fixed]

theorem sfClear_fixed (h : Head) (sector : Nat) (s : State) :
    (sfClear h sector s).fixed = s.fixed := by
  simp [sfClear]

theorem retryAfter_fixed (p : TxnWait → Bool) (s : State) :
    (retryAfter p s).fixed = s.fixed := by
  simp [retryAfter, retryWhere_fixed, ite_fixed]

theorem execBiSnoopResponse_fixed (h : Head) (sector : Nat) (wb : Option Sector) (s : State) :
    ResFixed (execBiSnoopResponse h sector wb s) s := by
  (simp only [execBiSnoopResponse]; repeat' split) <;> simp [sfClear_fixed, bump_fixed, writeBack_fixed, retryAfter_fixed]

theorem execBiTimeout_fixed (h : Head) (sector : Nat) (s : State) :
    ResFixed (execBiTimeout h sector s) s := by
  (simp only [execBiTimeout]; repeat' split) <;> simp [raise_fixed, sfClear_fixed, retryAfter_fixed]

theorem execLostSlotScanDone_fixed (slot : Nat) (s : State) :
    ResFixed (execLostSlotScanDone slot s) s := by
  (simp only [execLostSlotScanDone]; repeat' split) <;> simp [setSlot_fixed, cxlAppend_fixed, retryAfter_fixed, bump_fixed]

theorem execRecoined_fixed (b : Nat) (s : State) :
    ResFixed (execRecoined b s) s := by
  (simp only [execRecoined]; repeat' split) <;> simp [recoinReady_fixed, ctrFetch_fixed, nextMajor_fixed, retryAfter_fixed, forEach_fixed, writeDone_fixed, recoinTo_fixed, raise_fixed, rinc_fixed, bump_fixed, forEach_fixed]

theorem execGpfPhase1_fixed (h : Head) (s : State) :
    ResFixed (execGpfPhase1 h s) s := by
  simp [execGpfPhase1, modPort_fixed, ite_fixed]

theorem execGpfPhase2_fixed (h : Head) (s : State) :
    ResFixed (execGpfPhase2 h s) s := by
  simp [execGpfPhase2, modPort_fixed, ite_fixed]

theorem execGpfPhase2Complete_fixed (s : State) :
    ResFixed (execGpfPhase2Complete s) s := by
  (simp only [execGpfPhase2Complete]; repeat' split) <;> simp [send_fixed, modPort_fixed, forEach_fixed]

theorem sensesDue_fixed (c : Nat) (s : State) :
    (sensesDue c s).fixed = s.fixed := by
  simp [sensesDue, forEach_fixed, readArrives_fixed, forEach_fixed, ite_fixed]

theorem resense_fixed (o : MOp) (f : MOp → MOp) (s : State) :
    (resense o f s).fixed = s.fixed := by
  simp [resense, sensesDue_fixed, modOp_fixed, ite_fixed]

theorem reread_fixed (o : MOp) (bin : Nat) (s : State) :
    (reread o bin s).fixed = s.fixed := by
  simp [reread, resense_fixed, rereadNote_fixed, ite_fixed]

theorem dieUncorr_fixed (o : MOp) (s : State) :
    (dieUncorr o s).fixed = s.fixed := by
  simp [dieUncorr]

theorem uncorrEnter_fixed (o : MOp) (foreign : Bool) (s : State) :
    (uncorrEnter o foreign s).fixed = s.fixed := by
  simp [uncorrEnter, rbit_fixed, rinc_fixed, bump_fixed, raise_fixed, dieUncorr_fixed, ite_fixed]

theorem repairRun_fixed (o : MOp) (code : Nat) (s : State) :
    (repairRun o code s).fixed = s.fixed := by
  simp [repairRun, reconStart_fixed, modOp_fixed]

theorem repaired_fixed (o : MOp) (s : State) :
    (repaired o s).fixed = s.fixed := by
  simp [repaired, raise_fixed, rinc_fixed, bump_fixed, queueRestrike_fixed, ite_fixed]

theorem viaStripe_fixed (o : MOp) (scan : Bool) (fail : Nat) (repair : Bool) (s : State) :
    (viaStripe o scan fail repair s).2.fixed = s.fixed := by
  (simp only [viaStripe]; repeat' split) <;> simp [repaired_fixed]

theorem lineDecoded_fixed (o : MOp) (subst : Bool) (l : MLine) (n : Nat) (s : State) :
    (lineDecoded o subst l n s).2.fixed = s.fixed := by
  (simp only [lineDecoded]; repeat' split) <;> simp [corrected_fixed, uncorrEnter_fixed, repairRun_fixed]

theorem lineLost_fixed (o : MOp) (subst : Bool) (s : State) :
    (lineLost o subst s).2.fixed = s.fixed := by
  (simp only [lineLost]; repeat' split) <;> simp [uncorrEnter_fixed, repairRun_fixed]

theorem searchSense_fixed (o : MOp) (r : Sense) (subst : Bool) (l : MLine) (s : State) :
    (searchSense o r subst l s).2.fixed = s.fixed := by
  (simp only [searchSense]; repeat' split) <;> simp [lineDecoded_fixed, modChan_fixed, resense_fixed, lineLost_fixed]

theorem senseResult_fixed (o : MOp) (r : Sense) (s : State) :
    (senseResult o r s).2.fixed = s.fixed := by
  unfold senseResult
  repeat' split
  all_goals grind [reconNext_fixed, modChan_fixed, viaStripe_fixed, searchSense_fixed, reread_fixed, lineLost_fixed, lineDecoded_fixed, State.modPur_fixed, State.modMed_fixed, State.modLed_fixed, State.modCry_fixed, State.modFe_fixed, State.modInteg_fixed]

theorem strikeWrite_fixed (m off : Nat) (o : MOp) (res : LineRes) (s : State) :
    (strikeWrite m off o res s).fixed = s.fixed := by
  simp [strikeWrite, pushOp_fixed, ite_fixed]

theorem workDone_fixed (w : StripeWork) (s : State) :
    (workDone w s).fixed = s.fixed := by
  simp [workDone, ite_fixed]

theorem stripeWrite_fixed (w : StripeWork) (s : State) :
    (stripeWrite w s).fixed = s.fixed := by
  (simp only [stripeWrite]; repeat' split) <;> simp [pushOp_fixed]

theorem stripeGot_fixed (c m row p : Nat) (bad : Bool) (s : State) :
    (stripeGot c m row p bad s).fixed = s.fixed := by
  unfold stripeGot
  repeat' split
  all_goals grind [forEach_fixed, workDone_fixed, stripeWrite_fixed, State.modPur_fixed, State.modMed_fixed, State.modLed_fixed, State.modCry_fixed, State.modFe_fixed, State.modInteg_fixed]

theorem migStore_fixed (f off : Nat) (o : MOp) (res : LineRes) (s : State) :
    (migStore f off o res s).fixed = s.fixed := by
  (simp only [migStore]; repeat' split) <;> simp [queueOp_fixed]

theorem deliverRead_fixed (o : MOp) (res : LineRes) (s : State) :
    (deliverRead o res s).fixed = s.fixed := by
  unfold deliverRead
  repeat' split
  all_goals grind [slotCheck_fixed, fillClean_fixed, lateRead_fixed, retryLine_fixed, countHostRead_fixed, sliceCount_fixed, strikeWrite_fixed, stripeGot_fixed, migStore_fixed, State.modPur_fixed, State.modMed_fixed, State.modLed_fixed, State.modCry_fixed, State.modFe_fixed, State.modInteg_fixed]

theorem parityQueue_fixed (o : MOp) (s : State) :
    (parityQueue o s).fixed = s.fixed := by
  simp [parityQueue, modChan_fixed, stripeStart_fixed, ite_fixed]

theorem parityRead_fixed (o : MOp) (r : Sense) (s : State) :
    (parityRead o r s).2.fixed = s.fixed := by
  (simp only [parityRead]; repeat' split) <;> simp [reread_fixed, corrected_fixed, dieUncorr_fixed, parityQueue_fixed]

theorem ageCheck_fixed (o : MOp) (s : State) :
    (ageCheck o s).fixed = s.fixed := by
  (simp only [ageCheck]; repeat' split) <;> simp [queueRestrike_fixed]

theorem strikesNote_fixed (m : Nat) (s : State) :
    (strikesNote m s).fixed = s.fixed := by
  simp [strikesNote, modEnt_fixed, ite_fixed]

theorem execMediaReadDone_fixed (op : Nat) (r : Sense) (s : State) :
    ResFixed (execMediaReadDone op r s) s := by
  unfold execMediaReadDone
  repeat' split
  all_goals simp [retryWhere_fixed, sensesDue_fixed, deliverRead_fixed, dropOp_fixed, ageCheck_fixed]
  all_goals grind [parityRead_fixed, senseResult_fixed, strikesNote_fixed, sensesDue_fixed, deliverRead_fixed, dropOp_fixed, ageCheck_fixed]

theorem settlePoison_fixed (lineNo op : Nat) (s : State) :
    (settlePoison lineNo op s).fixed = s.fixed := by
  simp [settlePoison, poisonListDrop_fixed, ite_fixed]

theorem tillFree_fixed (lineNo op : Nat) (s : State) :
    (tillFree lineNo op s).fixed = s.fixed := by
  (simp only [tillFree]; repeat' split) <;> simp [setSlot_fixed]

theorem mapDescs_fixed (f : Desc → Desc) (s : State) :
    (mapDescs f s).fixed = s.fixed := by
  simp [mapDescs]

theorem rxAcks_fixed (p : Nat → Bool) (s : State) :
    (rxAcks p s).fixed = s.fixed := by
  simp [rxAcks, send_fixed, forEach_fixed]

theorem descDrop_fixed (p : Nat → Bool) (clean : Bool) (s : State) :
    (descDrop p clean s).fixed = s.fixed := by
  simp [descDrop, rxAcks_fixed, mapDescs_fixed]

theorem lateComplete_fixed (op : Nat) (s : State) :
    (lateComplete op s).fixed = s.fixed := by
  simp [lateComplete, descDrop_fixed, writeDone_fixed, forEach_fixed]

theorem admitWaiting_fixed (s : State) :
    (admitWaiting s).fixed = s.fixed := by
  (simp only [admitWaiting]; repeat' split) <;> simp [meterUpdate_fixed, retryLine_fixed]

theorem admitRoom_fixed (x0 : Nat) (s : State) :
    (admitRoom x0 s).fixed = s.fixed := by
  induction x0 generalizing s with
  | zero => rfl
  | succ n ih => simp [admitRoom, ite_fixed, ih, admitWaiting_fixed]

theorem lateDropped_fixed (f : Nat) (s : State) :
    (lateDropped f s).fixed = s.fixed := by
  simp [lateDropped, resvTouch_fixed, descDrop_fixed, forEach_fixed, writeDone_fixed, admitRoom_fixed, meterUpdate_fixed, forEach_fixed, ite_fixed]

theorem scrubNote_fixed (f : Nat) (s : State) :
    (scrubNote f s).fixed = s.fixed := by
  simp [scrubNote, recordQueue_fixed, ite_fixed]

theorem stripeClose_fixed (o : MOp) (s : State) :
    (stripeClose o s).fixed = s.fixed := by
  simp [stripeClose, modChan_fixed, ite_fixed]

theorem lineLanded_fixed (f : Nat) (e : LEntry) (o : MOp) (s : State) :
    (lineLanded f e o s).fixed = s.fixed := by
  simp [lineLanded, parityQueue_fixed, programOne_fixed, wearProgram_fixed, setMline_fixed, stripeClose_fixed, programLine_fixed, ite_fixed]

theorem migAsk_fixed (f m : Nat) (os : List Nat) (s : State) :
    (migAsk f m os s).fixed = s.fixed := by
  simp [migAsk, forEach_fixed, queueOp_fixed, forEach_fixed, ite_fixed]

theorem migFeed_fixed (s : State) :
    (migFeed s).fixed = s.fixed := by
  simp [migFeed, forEach_fixed, migAsk_fixed, forEach_fixed, ite_fixed]

theorem mendEnd_fixed (c : Nat) (s : State) :
    (mendEnd c s).fixed = s.fixed := by
  simp [mendEnd, sensesDue_fixed, modChan_fixed, ite_fixed]

theorem rebuildNext_fixed (m row : Nat) (s : State) :
    (rebuildNext m row s).fixed = s.fixed := by
  simp [rebuildNext, ite_fixed]

theorem writeLanded_fixed (o : MOp) (s : State) :
    (writeLanded o s).fixed = s.fixed := by
  (simp only [writeLanded]; repeat' split) <;> simp [bankEnd_fixed, dropOp_fixed, scrubNote_fixed, lineLanded_fixed, lateComplete_fixed, tillFree_fixed, settlePoison_fixed, recoinFree_fixed, retryAfter_fixed, migFeed_fixed, admitWaiting_fixed, mendEnd_fixed, stripeClose_fixed, wearProgram_fixed, setMline_fixed, rebuildNext_fixed, strikesNote_fixed, bump_fixed, rinc_fixed, descDrop_fixed]

theorem execMediaWriteDone_fixed (op : Nat) (s : State) :
    ResFixed (execMediaWriteDone op s) s := by
  (simp only [execMediaWriteDone]; repeat' split) <;> simp [sensesDue_fixed, writeLanded_fixed]

theorem ringTrim_fixed (s : State) :
    (ringTrim s).fixed = s.fixed := by
  simp [ringTrim]

theorem firstAlloc_fixed (f : Nat) (s : State) :
    (firstAlloc f s).fixed = s.fixed := by
  (simp only [firstAlloc]; repeat' split) <;> simp [jAppend_fixed, takeFolio_fixed]

theorem lateLine_fixed (l : Nat) (s : State) :
    (lateLine l s).fixed = s.fixed := by
  simp [lateLine, descDrop_fixed, writeDone_fixed, forEach_fixed]

theorem lineToOverdraft_fixed (l : Nat) (s : State) :
    (lineToOverdraft l s).fixed = s.fixed := by
  unfold lineToOverdraft
  repeat' split
  all_goals grind [slotCheck_fixed, lateLine_fixed, spillLine_fixed, setSlot_fixed, overdraftPut_fixed, State.modPur_fixed, State.modMed_fixed, State.modLed_fixed, State.modCry_fixed, State.modFe_fixed, State.modInteg_fixed]

theorem folioToOverdraft_fixed (f : Nat) (s : State) :
    (folioToOverdraft f s).fixed = s.fixed := by
  simp [folioToOverdraft, lineToOverdraft_fixed, forEach_fixed]

theorem waitsMove_fixed (a b : Nat) (s : State) :
    (waitsMove a b s).fixed = s.fixed := by
  simp [waitsMove, mapDescs_fixed, ite_fixed]

theorem waitsIssued_fixed (l op : Nat) (s : State) :
    (waitsIssued l op s).fixed = s.fixed := by
  simp [waitsIssued, waitsMove_fixed, ite_fixed]

theorem drainMark_fixed (w : DrainWork) (op : Nat) (s : State) :
    (drainMark w op s).fixed = s.fixed := by
  (simp only [drainMark]; repeat' split) <;> simp [waitsIssued_fixed, setSlot_fixed]

theorem ageReached_fixed (s : State) :
    (ageReached s).fixed = s.fixed := by
  simp [ageReached, ite_fixed]

theorem drainLineOut_fixed (w : DrainWork) (l : Nat) (p : PLine) (s : State) :
    (drainLineOut w l p s).fixed = s.fixed := by
  unfold drainLineOut
  extract_lets f e s1 s2 op s3 s4
  have h1 : s1.fixed = s.fixed := by
    simp only [s1]
    split
    · rw [ctrClean_fixed]; split
      · exact treeFlush_fixed _
      · rfl
    · rfl
  have h2 : s2.fixed = s.fixed := (State.modLed_fixed _ _).trans h1
  have h4 : s4.fixed = s.fixed := (bump_fixed _ _ _).trans ((drainMark_fixed _ _ _).trans h2)
  clear_value s1 s2 s3 s4
  simp only [ite_fixed, folioToOverdraft_fixed, raise_fixed, firstAlloc_fixed, lineToOverdraft_fixed, queueOp_fixed, h4,
          ite_self]

theorem drainSlot_fixed (w : DrainWork) (l : Nat) (s : State) :
    (drainSlot w l s).fixed = s.fixed := by
  unfold drainSlot
  repeat' split
  all_goals grind [slotCheck_fixed, drainLineOut_fixed, State.modPur_fixed, State.modMed_fixed, State.modLed_fixed, State.modCry_fixed, State.modFe_fixed, State.modInteg_fixed]

theorem execDrainIssue_fixed (s : State) :
    ResFixed (execDrainIssue s) s := by
  (simp only [execDrainIssue]; repeat' split) <;> simp [ageReached_fixed, ringTrim_fixed, recoinFree_fixed, ctrClean_fixed, drainLineOut_fixed, drainSlot_fixed]

theorem execDrainAgeCheck_fixed (s : State) :
    ResFixed (execDrainAgeCheck s) s := by
  (simp only [execDrainAgeCheck]; repeat' split) <;> simp [ringTrim_fixed]

theorem debtDrop_fixed (f : Nat) (s : State) :
    (debtDrop f s).fixed = s.fixed := by
  simp [debtDrop, recordQueue_fixed, ite_fixed]

theorem barrierResolve_fixed (result : Nat) (s : State) :
    (barrierResolve result s).fixed = s.fixed := by
  (simp only [barrierResolve]; repeat' split) <;> simp [bump_fixed, raise_fixed]

theorem barrierCheck_fixed (s : State) :
    (barrierCheck s).fixed = s.fixed := by
  (simp only [barrierCheck]; repeat' split) <;> simp [barrierResolve_fixed]

theorem settleRecord_fixed (done : Bool) (s : State) :
    (settleRecord done s).fixed = s.fixed := by
  simp [settleRecord, jAppend_fixed]

theorem settleGone_fixed (f : Nat) (s : State) :
    (settleGone f s).fixed = s.fixed := by
  simp [settleGone, debtDrop_fixed, settleRecord_fixed, ite_fixed]

theorem settleBegin_fixed (f : Nat) (s : State) :
    (settleBegin f s).fixed = s.fixed := by
  simp [settleBegin, settleGone_fixed, send_fixed, bump_fixed, ite_fixed]

theorem settleNext_fixed (s : State) :
    (settleNext s).fixed = s.fixed := by
  simp [settleNext, settleBegin_fixed, ite_fixed, foldl_fixed]

theorem settleSend_fixed (l : Nat) (b : Base) (s : State) :
    (settleSend l b s).fixed = s.fixed := by
  refine (bump_fixed _ _ _).trans (forEach_fixed _ _ _ fun i s => ?_)
  split
  · exact mirrorSend_fixed _ _ _ _ _
  · rfl

theorem settleFeed_fixed (c : Nat) (s : State) :
    (settleFeed c s).fixed = s.fixed := by
  (simp only [settleFeed]; repeat' split) <;> simp [takeReady_fixed, takeBase_fixed, ringSnoop_fixed, settleSend_fixed, settleNext_fixed, settleGone_fixed]

theorem settleDone_fixed (s : State) :
    (settleDone s).fixed = s.fixed := by
  (simp only [settleDone]; repeat' split) <;> simp [raise_fixed, settleRecord_fixed, bgFinish_fixed, barrierCheck_fixed]

theorem settleOverwrite_fixed (f : Nat) (s : State) :
    (settleOverwrite f s).fixed = s.fixed := by
  simp [settleOverwrite, raise_fixed, debtDrop_fixed]

theorem settleStart_fixed (s : State) :
    (settleStart s).fixed = s.fixed := by
  simp [settleStart, settleOverwrite_fixed, settleDone_fixed, settleNext_fixed, raise_fixed, forEach_fixed]

theorem reinitStart_fixed (f : Function) (s : State) :
    (reinitStart f s).fixed = s.fixed := by
  simp [reinitStart, raise_fixed]

theorem regCommitStaged_fixed (tg : ChTarget) (s : State) :
    ResFixed (regCommitStaged tg s) s := by
  simp [regCommitStaged, modChan_fixed, forEach_fixed]

theorem execCommitApply_fixed (c : Nat) (s : State) :
    ResFixed (execCommitApply c s) s := by
  (simp only [execCommitApply]; repeat' split) <;> simp [modChan_fixed, raise_fixed, rbit_fixed]

theorem regMchCntClear_fixed (tg : ChTarget) (s : State) :
    ResFixed (regMchCntClear tg s) s := by
  simp [regMchCntClear, rset_fixed, forEach_fixed]

theorem regIntCntClear_fixed (_h : Head) (s : State) :
    ResFixed (regIntCntClear _h s) s := by
  simp [regIntCntClear, rset_fixed, forEach_fixed]

theorem frameBegin_fixed (t c : Nat) (s : State) :
    (frameBegin t c s).fixed = s.fixed := by
  simp [frameBegin, raise_fixed, sendCtl_fixed, modChan_fixed, ite_fixed]

theorem frameCounts_fixed (k : Nat) (s : State) :
    (frameCounts k s).fixed = s.fixed := by
  (simp only [frameCounts]; repeat' split) <;> simp [bump_fixed]

theorem execFrameStart_fixed (k : Nat) (s : State) :
    ResFixed (execFrameStart k s) s := by
  unfold execFrameStart
  extract_lets due
  split
  · simp
  · rw [ResFixed_next, forEach_fixed]
    · exact frameCounts_fixed _ _
    · intro c s
      split
      · rfl
      · rw [frameBegin_fixed, modChan_fixed]

theorem execFrameLate_fixed (k : Nat) (s : State) :
    ResFixed (execFrameLate k s) s := by
  simp [execFrameLate, raise_fixed, frameBegin_fixed, forEach_fixed]

theorem prefetchFeed_fixed (c : Nat) (s : State) :
    (prefetchFeed c s).fixed = s.fixed := by
  (simp only [prefetchFeed]; repeat' split) <;> simp [queueOp_fixed]

theorem slotCounts_fixed (c : Nat) (kind : Nat) (o : MOp) (s : State) :
    (slotCounts c kind o s).fixed = s.fixed := by
  simp [slotCounts, bump_fixed, ite_fixed]

theorem intentBatch_fixed (o : MOp) (s : State) :
    (intentBatch o s).fixed = s.fixed := by
  simp [intentBatch, pageQueue_fixed, ite_fixed]

theorem slotRead_fixed (o : MOp) (s : State) :
    (slotRead o s).fixed = s.fixed := by
  simp [slotRead, modBank_fixed, sendDie_fixed, modOp_fixed, ite_fixed]

theorem slotMerge_fixed (o : MOp) (s : State) :
    (slotMerge o s).fixed = s.fixed := by
  simp [slotMerge, bankStart_fixed, sendDie_fixed, modOp_fixed, ite_fixed]

theorem sendLine_fixed (c : Nat) (l : MLine) (s : State) :
    (sendLine c l s).fixed = s.fixed := by
  simp [sendLine, send_fixed, ite_fixed]

theorem modDie_fixed (c : Nat) (pos : Nat) (f : Die → Die) (s : State) :
    (modDie c pos f s).fixed = s.fixed := by
  simp [modDie]

theorem slotProgram_fixed (o : MOp) (s : State) :
    (slotProgram o s).fixed = s.fixed := by
  unfold slotProgram
  dsimp only
  repeat' split
  all_goals first | rfl | simp [sendLine_fixed, sendDie_fixed, modDie_fixed, modChan_fixed, bankStart_fixed, modOp_fixed, ite_fixed]

theorem slotReg_fixed (o : MOp) (s : State) :
    (slotReg o s).fixed = s.fixed := by
  (simp only [slotReg]; repeat' split) <;> simp [sendDie_fixed, dropOp_fixed]

theorem slotGive_fixed (c kind : Nat) (o : MOp) (s : State) :
    (slotGive c kind o s).fixed = s.fixed := by
  simp [slotGive, intentBatch_fixed, slotCounts_fixed, slotRead_fixed, slotReg_fixed, slotMerge_fixed, slotProgram_fixed, ite_fixed]

theorem reconSlot_fixed (c : Nat) (r : ReconRun) (s : State) :
    (reconSlot c r s).fixed = s.fixed := by
  (simp only [reconSlot]; repeat' split) <;> simp [modChan_fixed, sendDie_fixed, modOp_fixed, forEach_fixed, reconSense_fixed, rereadNote_fixed, forEach_fixed]

theorem restrikesTrim_fixed (c : Nat) (s : State) :
    (restrikesTrim c s).fixed = s.fixed := by
  simp [restrikesTrim, forEach_fixed, strikesNote_fixed, dropOp_fixed, forEach_fixed, ite_fixed]

theorem rebuildReach_fixed (c pos m row : Nat) (s : State) :
    (rebuildReach c pos m row s).fixed = s.fixed := by
  simp [rebuildReach, recordQueue_fixed, ite_fixed]

theorem rebuildStep_fixed (c : Nat) (s : State) :
    (rebuildStep c s).fixed = s.fixed := by
  (simp only [rebuildStep]; repeat' split) <;> simp [rebuildReach_fixed, setMline_fixed, sendDie_fixed, stripeStart_fixed, stripeWrite_fixed]

theorem slotLeft_fixed (c kind : Nat) (s : State) :
    (slotLeft c kind s).fixed = s.fixed := by
  (simp only [slotLeft]; repeat' split) <;> simp [rebuildStep_fixed, slotGive_fixed, settleFeed_fixed]

theorem blankSend_fixed (o : MOp) (s : State) :
    (blankSend o s).fixed = s.fixed := by
  simp [blankSend, bankStart_fixed, sendDie_fixed, modOp_fixed]

theorem blankNext_fixed (c m p : Nat) (s : State) :
    (blankNext c m p s).fixed = s.fixed := by
  simp [blankNext, blankSend_fixed, modChan_fixed, ite_fixed]

theorem blankFeed_fixed (c : Nat) (s : State) :
    (blankFeed c s).fixed = s.fixed := by
  simp [blankFeed, blankSend_fixed, blankNext_fixed, forEach_fixed, ite_fixed]

theorem assayFeed_fixed (c : Nat) (s : State) :
    (assayFeed c s).fixed = s.fixed := by
  (simp only [assayFeed]; repeat' split) <;> simp [queueOp_fixed]

theorem execSlotStart_fixed (c : Nat) (s : State) :
    ResFixed (execSlotStart c s) s := by
  (simp only [execSlotStart]; repeat' split) <;> simp [modChan_fixed, blankFeed_fixed, reconNext_fixed, sensesDue_fixed, assayFeed_fixed, prefetchFeed_fixed, restrikesTrim_fixed, slotGive_fixed, modOp_fixed, reconSlot_fixed, slotLeft_fixed]

theorem dieTimeSend_fixed (n : Nat) (valid : Bool) (s : State) :
    (dieTimeSend n valid s).fixed = s.fixed := by
  simp [dieTimeSend, forEach_fixed, sendCtl_fixed, forEach_fixed, ite_fixed]

theorem execDieTimeUpdate_fixed (s : State) :
    ResFixed (execDieTimeUpdate s) s := by
  simp [execDieTimeUpdate, dieTimeSend_fixed, ite_fixed]

theorem execBankResume_fixed (c pos bank : Nat) (s : State) :
    ResFixed (execBankResume c pos bank s) s := by
  (simp only [execBankResume]; repeat' split) <;> simp [sendCtl_fixed, modBank_fixed]

theorem suspReport_fixed (c pos bank : Nat) (s : State) :
    (suspReport c pos bank s).fixed = s.fixed := by
  simp [suspReport, modDie_fixed, modChan_fixed, modBank_fixed, ite_fixed]

theorem execSuspFault_fixed (c pos bank : Nat) (s : State) :
    ResFixed (execSuspFault c pos bank s) s := by
  (simp only [execSuspFault]; repeat' split) <;> simp [raise_fixed, suspReport_fixed]

theorem tillRedrain_fixed (lineNo op : Nat) (s : State) :
    (tillRedrain lineNo op s).fixed = s.fixed := by
  (simp only [tillRedrain]; repeat' split) <;> simp [waitsMove_fixed, setSlot_fixed, ringAppend_fixed]

theorem spareEnds_fixed (o : MOp) (s : State) :
    (spareEnds o s).fixed = s.fixed := by
  (simp only [spareEnds]; repeat' split) <;> simp [tillRedrain_fixed, strikesNote_fixed, rebuildNext_fixed, descDrop_fixed]

theorem modMig_fixed (f : Nat) (g : Mig → Mig) (s : State) :
    (modMig f g s).fixed = s.fixed := by
  simp [modMig, ite_fixed]

theorem toExpress_fixed (f : Nat) (s : State) :
    (toExpress f s).fixed = s.fixed := by
  simp [toExpress, ite_fixed]

theorem opsDrop_fixed (p : MOp → Bool) (s : State) :
    (opsDrop p s).fixed = s.fixed := by
  simp [opsDrop, forEach_fixed, sensesDue_fixed, reconNext_fixed, dropOp_fixed, modChan_fixed, forEach_fixed, ite_fixed]

theorem migOpsDrop_fixed (f : Nat) (s : State) :
    (migOpsDrop f s).fixed = s.fixed := by
  simp [migOpsDrop, opsDrop_fixed, ite_fixed]

theorem migStop_fixed (g : Mig) (s : State) :
    (migStop g s).fixed = s.fixed := by
  simp [migStop, toExpress_fixed, modMig_fixed, migOpsDrop_fixed, ite_fixed]

theorem migAbandon_fixed (g : Mig) (s : State) :
    (migAbandon g s).fixed = s.fixed := by
  simp [migAbandon, queueBlank_fixed, migStop_fixed, ite_fixed]

theorem spareMigrate_fixed (o : MOp) (f : Nat) (s : State) :
    (spareMigrate o f s).fixed = s.fixed := by
  (simp only [spareMigrate]; repeat' split) <;> simp [forEach_fixed, modMig_fixed, migAbandon_fixed, raise_fixed, queueMig_fixed, forEach_fixed]

theorem spareOut_fixed (o : MOp) (none_ : Bool) (s : State) :
    (spareOut o none_ s).fixed = s.fixed := by
  simp [spareOut, raise_fixed, rbit_fixed, spareEnds_fixed, stripeClose_fixed, bankEnd_fixed, dropOp_fixed, shelfMove_fixed, spareMigrate_fixed, folioToOverdraft_fixed, jAppend_fixed, ite_fixed]

theorem wvFail_fixed (pos : Nat) (o : MOp) (s : State) :
    (wvFail pos o s).fixed = s.fixed := by
  unfold wvFail
  repeat' split
  all_goals grind [raise_fixed, wearProgram_fixed, spareOut_fixed, spareTake_fixed, modOp_fixed, modBank_fixed, State.modPur_fixed, State.modMed_fixed, State.modLed_fixed, State.modCry_fixed, State.modFe_fixed, State.modInteg_fixed]

theorem heldLose_fixed (dom : Nat → Bool) (s : State) :
    (heldLose dom s).fixed = s.fixed := by
  simp [heldLose, raise_fixed, rbit_fixed, forEach_fixed]

theorem channelReinitOp_fixed (c : Nat) (s : State) :
    (channelReinitOp c s).fixed = s.fixed := by
  unfold channelReinitOp
  repeat' split
  all_goals grind [heldLose_fixed, forEach_fixed, tillRedrain_fixed, queueRestrike_fixed, parityRecompute_fixed, modChan_fixed, State.modPur_fixed, State.modMed_fixed, State.modLed_fixed, State.modCry_fixed, State.modFe_fixed, State.modInteg_fixed]

theorem resendCtl_fixed (c pos : Nat) (s : State) :
    (resendCtl c pos s).fixed = s.fixed := by
  simp [resendCtl, forEach_fixed, sendDie_fixed, forEach_fixed, ite_fixed]

theorem caError_fixed (c pos : Nat) (o : Option MOp) (s : State) :
    (caError c pos o s).fixed = s.fixed := by
  (simp only [caError]; repeat' split) <;> simp [raise_fixed, rbit_fixed, resendCtl_fixed, modOp_fixed, modBank_fixed, bankEnd_fixed, reinitStart_fixed, channelReinitOp_fixed, sensesDue_fixed]

theorem internalReport_fixed (c pos : Nat) (o : Option MOp) (s : State) :
    (internalReport c pos o s).fixed = s.fixed := by
  (simp only [internalReport]; repeat' split) <;> simp [raise_fixed, modDie_fixed, modOp_fixed]

theorem mrrQueue_fixed (c pos reg : Nat) (s : State) :
    (mrrQueue c pos reg s).fixed = s.fixed := by
  simp [mrrQueue, pushOp_fixed, ite_fixed]

theorem alertRead_fixed (c pos : Nat) (cause : BitVec 5) (o : Option MOp) (s : State) :
    (alertRead c pos cause o s).fixed = s.fixed := by
  simp [alertRead, modDie_fixed, mrrQueue_fixed, ite_fixed]

theorem execAlert_fixed (c pos : Nat) (cause : BitVec 5) (op : Nat) (s : State) :
    ResFixed (execAlert c pos cause op s) s := by
  (simp only [execAlert]; repeat' split) <;> simp [raise_fixed, rbit_fixed, alertRead_fixed, internalReport_fixed, caError_fixed, wvFail_fixed]

theorem configSend_fixed (c : Nat) (pos : List Nat) (s : State) :
    (configSend c pos s).fixed = s.fixed := by
  simp [configSend, forEach_fixed, sendDie_fixed, forEach_fixed, ite_fixed]

theorem channelUp_fixed (c : Nat) (present : BitVec 18) (s : State) :
    (channelUp c present s).fixed = s.fixed := by
  simp [channelUp, modChan_fixed, configSend_fixed, forEach_fixed, stripeStart_fixed, forEach_fixed, ite_fixed]

theorem channelFail_fixed (c : Nat) (step : Nat) (s : State) :
    (channelFail c step s).fixed = s.fixed := by
  simp [channelFail, modChan_fixed, retryLine_fixed, forEach_fixed]

theorem bringupSend_fixed (c : Nat) (present : BitVec 18) (s : State) :
    (bringupSend c present s).fixed = s.fixed := by
  simp [bringupSend, send_fixed, forEach_fixed, sendDie_fixed, forEach_fixed, ite_fixed]

theorem execChannelBringup_fixed (c : Nat) (present m2 : BitVec 18) (s : State) :
    ResFixed (execChannelBringup c present m2 s) s := by
  (simp only [execChannelBringup]; repeat' split) <;> simp [bringupSend_fixed, channelFail_fixed, modChan_fixed, raise_fixed, channelUp_fixed, retryWhere_fixed]

theorem execBringupStepTimeout_fixed (c : Nat) (step : Nat) (s : State) :
    ResFixed (execBringupStepTimeout c step s) s := by
  (simp only [execBringupStepTimeout]; repeat' split) <;> simp [modChan_fixed, raise_fixed, channelFail_fixed]

theorem execChannelReinit_fixed (c : Nat) (s : State) :
    ResFixed (execChannelReinit c s) s := by
  simp [execChannelReinit, reinitStart_fixed, channelReinitOp_fixed, ite_fixed]

theorem rebuildStart_fixed (c : Nat) (pos : Nat) (s : State) :
    (rebuildStart c pos s).fixed = s.fixed := by
  simp [rebuildStart, raise_fixed, recordQueue_fixed, ite_fixed]

theorem execDieFailed_fixed (c : Nat) (pos : Nat) (why : DieFailure) (s : State) :
    ResFixed (execDieFailed c pos why s) s := by
  (simp only [execDieFailed]; repeat' split) <;> simp [recordQueue_fixed, raise_fixed, rebuildStart_fixed]

theorem retireFolios_fixed (s : State) :
    (retireFolios s).fixed = s.fixed := by
  simp [retireFolios, raise_fixed, queueMig_fixed, forEach_fixed]

theorem execRebuildDone_fixed (c : Nat) (s : State) :
    ResFixed (execRebuildDone c s) s := by
  (simp only [execRebuildDone]; repeat' split) <;> simp [recordQueue_fixed, raise_fixed, retireFolios_fixed, rebuildStart_fixed]

theorem execRestrike_fixed (c : Nat) (s : State) :
    ResFixed (execRestrike c s) s := by
  (simp only [execRestrike]; repeat' split) <;> simp [strikesNote_fixed, queueOp_fixed]

theorem execPatrolStart_fixed (s : State) :
    ResFixed (execPatrolStart s) s := by
  (simp only [execPatrolStart]; repeat' split) <;> simp [forEach_fixed, assayStart_fixed, forEach_fixed]

theorem execPatrolDone_fixed (s : State) :
    ResFixed (execPatrolDone s) s := by
  (simp only [execPatrolDone]; repeat' split) <;> simp [queueRestrike_fixed, raise_fixed, ite_fixed, forEach_fixed]

theorem execScrubDone_fixed (s : State) :
    ResFixed (execScrubDone s) s := by
  (simp only [execScrubDone]; repeat' split) <;> simp [forEach_fixed, modEnt_fixed, recordQueue_fixed, raise_fixed, dieTimeSend_fixed, forEach_fixed]

theorem execMintTimeRecord_fixed (s : State) :
    ResFixed (execMintTimeRecord s) s := by
  (simp only [execMintTimeRecord]; repeat' split) <;> simp [summaryWrite_fixed, recordQueue_fixed]

theorem fullStart_fixed (s : State) :
    (fullStart s).fixed = s.fixed := by
  simp [fullStart, forEach_fixed, assayStart_fixed, forEach_fixed, ite_fixed]

theorem yStartFullAssay_fixed (p : MbxPort) (b : List Byte) (s : State) :
    (yStartFullAssay p b s).st.fixed = s.fixed := by
  (simp only [yStartFullAssay]; repeat' split) <;> simp [errAns_fixed, bgStart_fixed, fullStart_fixed]

theorem execStartFullAssay_fixed (p : MbxPort) (payload : List Byte) (s : State) :
    ResFixed (execStartFullAssay p payload s) s := by
  simp [execStartFullAssay, yciRun_fixed, yStartFullAssay_fixed]

theorem yReadDieRegister_fixed (p : MbxPort) (b : List Byte) (s : State) :
    (yReadDieRegister p b s).st.fixed = s.fixed := by
  (simp only [yReadDieRegister]; repeat' split) <;> simp [errAns_fixed, mrrQueue_fixed, takeFree_fixed, okOut_fixed]

theorem execReadDieRegister_fixed (p : MbxPort) (payload : List Byte) (s : State) :
    ResFixed (execReadDieRegister p payload s) s := by
  simp [execReadDieRegister, yciRun_fixed, yReadDieRegister_fixed]

theorem yGetChannelStatus_fixed (p : MbxPort) (b : List Byte) (s : State) :
    (yGetChannelStatus p b s).st.fixed = s.fixed := by
  (simp only [yGetChannelStatus]; repeat' split) <;> simp [errAns_fixed, okOut_fixed]

theorem execGetChannelStatus_fixed (p : MbxPort) (payload : List Byte) (s : State) :
    ResFixed (execGetChannelStatus p payload s) s := by
  simp [execGetChannelStatus, yciRun_fixed, yGetChannelStatus_fixed]

end Sys2Proof.Machine
end

