-- ==== Sys2Proof/Laws/FixedLedger.lean ====
section
/-! SUPPORT. The operations of the journal, recovery, escrow, the timebase and the orders keep what `State.fixed` shows: the queue, the board, the
clock, and whether the lifecycle state is RMA. -/

namespace Sys2Proof.Machine

theorem bgRec_fixed (own : Nat) (s : State) :
    (bgRec own s).fixed = s.fixed := by
  (simp only [bgRec]; repeat' split) <;> simp [modMbx_fixed]

theorem jAppendFor_fixed (p : MbxPort) (rs : List JRec) (s : State) :
    (jAppendFor p rs s).fixed = s.fixed := by
  simp [jAppendFor, jAppend_fixed]

theorem itemApply_fixed (f : Nat) (new : Nat) (gen : Nat) (s : State) :
    (itemApply f new gen s).fixed = s.fixed := by
  simp [itemApply, modEnt_fixed, setRev_fixed, ite_fixed]

theorem recTables_fixed (r : JRec) (s : State) :
    (recTables r s).fixed = s.fixed := by
  (simp only [recTables]; repeat' split) <;> simp [setWear_fixed, setRev_fixed, modEnt_fixed]

theorem overdraftReturn_fixed (f : Nat) (s : State) :
    (overdraftReturn f s).fixed = s.fixed := by
  simp [overdraftReturn, overdraftUpdate_fixed, forEach_fixed, placeDirty_fixed, slotCheck_fixed, forEach_fixed, ite_fixed]

theorem reserveRise_fixed (before : Nat) (s : State) :
    (reserveRise before s).fixed = s.fixed := by
  simp [reserveRise, reserveEvents_fixed, forEach_fixed, overdraftReturn_fixed, queueMig_fixed, forEach_fixed, ite_fixed]

theorem overdraftAdmit_fixed (n : Nat) (s : State) : (overdraftAdmit n s).fixed = s.fixed := by
  induction n generalizing s with
  | zero => rfl
  | succ n ih => (simp only [overdraftAdmit]; repeat' split) <;> simp [ih, lineToOverdraft_fixed]

theorem becameReadOnly_fixed (f : Nat) (s : State) :
    (becameReadOnly f s).fixed = s.fixed := by
  simp [becameReadOnly, folioToOverdraft_fixed, raise_fixed, rbit_fixed]

theorem modSet_fixed (n : Nat) (f : Escrow → Escrow) (s : State) :
    (modSet n f s).fixed = s.fixed := by
  simp [modSet]

theorem escrowJoin_fixed (f : Nat) (s : State) :
    (escrowJoin f s).fixed = s.fixed := by
  (simp only [escrowJoin]; repeat' split) <;> simp [modSet_fixed]

theorem escrowLeave_fixed (f : Nat) (s : State) :
    (escrowLeave f s).fixed = s.fixed := by
  (simp only [escrowLeave]; repeat' split) <;> simp [modSet_fixed]

theorem oldFolio_fixed (old : LEntry) (s : State) :
    (oldFolio old s).fixed = s.fixed := by
  simp [oldFolio, jAppend_fixed, queueBlank_fixed, ite_fixed]

theorem allocCut_fixed (f : Nat) (s : State) :
    (allocCut f s).fixed = s.fixed := by
  simp [allocCut, forEach_fixed, queueBlank_fixed, forEach_fixed, ite_fixed]

theorem folioPoisonDrop_fixed (f : Nat) (s : State) :
    (folioPoisonDrop f s).fixed = s.fixed := by
  simp [folioPoisonDrop, ite_fixed]

theorem reinitLost_fixed (f : Nat) (s : State) :
    (reinitLost f s).fixed = s.fixed := by
  simp only [reinitLost]
  repeat' first
    | with_reducible rfl
    | assumption
    | split
    | with_reducible refine (ctrStore_fixed _ _ _ _ ).trans ?_
    | with_reducible refine (forEach_fixed _ _ _ fun _ _ => ?_).trans ?_
    | with_reducible refine (foldl_fixed _ _ _ fun _ _ => ?_).trans ?_
    | with_reducible refine (State.modCtl_fixed _ _ ?_).trans ?_
  all_goals first
    | (simp [ctrReinit_fixed, ctrStore_fixed, ite_fixed, forEach_fixed, foldl_fixed, foldl2_fixed, foldl1_fixed]; done)
    | grind [ctrReinit_fixed, ctrStore_fixed]

theorem classDone_fixed (own : Nat) (rc : Nat) (s : State) :
    (classDone own rc s).fixed = s.fixed := by
  (simp only [classDone]; repeat' split) <;> simp [modMbx_fixed]

theorem migCut_fixed (f : Nat) (s : State) :
    (migCut f s).fixed = s.fixed := by
  (simp only [migCut]; repeat' split) <;> simp [migOpsDrop_fixed, raise_fixed, jAppend_fixed, classDone_fixed, queueBlank_fixed]

theorem folioDrop_fixed (f : Nat) (s : State) :
    (folioDrop f s).fixed = s.fixed := by
  simp [folioDrop, reinitLost_fixed, migCut_fixed, folioPoisonDrop_fixed, lateDropped_fixed, sweepDrop_fixed]

theorem attrEffect_fixed (f : Nat) (old : LEntry) (s : State) :
    (attrEffect f old s).fixed = s.fixed := by
  simp [attrEffect, toExpress_fixed, oldFolio_fixed, allocCut_fixed, folioDrop_fixed, becameReadOnly_fixed, overdraftReturn_fixed, escrowJoin_fixed, escrowLeave_fixed, ite_fixed]

theorem remapEffect_fixed (r : JRec) (old : LEntry) (s : State) :
    (remapEffect r old s).fixed = s.fixed := by
  simp [remapEffect, folioDrop_fixed, sweepRemap_fixed, scrubNote_fixed, resvTouch_fixed, toExpress_fixed, jAppend_fixed, oldFolio_fixed, ite_fixed]

theorem settleBlanked_fixed (m : Nat) (s : State) :
    (settleBlanked m s).fixed = s.fixed := by
  (simp only [settleBlanked]; repeat' split) <;> simp [modSet_fixed]

theorem dirReplace_fixed (kind : Nat) (i : Nat) (s : State) :
    (dirReplace kind i s).fixed = s.fixed := by
  (simp only [dirReplace]; repeat' split) <;> simp [raise_fixed, takeFolio_fixed, recordQueue_fixed, queueBlank_fixed, reserveEvents_fixed]

theorem ckptTrigger_fixed (s : State) :
    (ckptTrigger s).fixed = s.fixed := by
  simp [ckptTrigger, forEach_fixed, dirReplace_fixed, ckptAppend_fixed, forEach_fixed, ite_fixed]

theorem ringFree_fixed (sq : Nat) (s : State) :
    (ringFree sq s).fixed = s.fixed := by
  simp [ringFree, pageStart_fixed, ringCheck_fixed, ckptTrigger_fixed, ite_fixed]

theorem ringHigh_fixed (s : State) :
    (ringHigh s).fixed = s.fixed := by
  simp [ringHigh, ckptTrigger_fixed, ite_fixed]

theorem dirEnter_fixed (r : JRec) (s : State) :
    (dirEnter r s).fixed = s.fixed := by
  simp [dirEnter, recordQueue_fixed, queueBlank_fixed, ite_fixed]

theorem migBegin_fixed (m : Nat) (s : State) :
    (migBegin m s).fixed = s.fixed := by
  exact forEach_fixed _ _ _ fun g s => by simp [migAsk_fixed, modMig_fixed]

theorem shelfOld_fixed (m : Nat) (s : State) :
    (shelfOld m s).fixed = s.fixed := by
  simp [shelfOld, jAppend_fixed, queueBlank_fixed, ite_fixed]

theorem txnSettle_fixed (cls : List Nat) (x : Base × State) (t : Txn) :
    (txnSettle cls x t).2.fixed = x.2.fixed := by
  unfold txnSettle
  dsimp only
  repeat' split
  all_goals simp [writeDone_fixed, resvWrite_fixed, mirrorHook_fixed, readDone_fixed, sfHold_fixed]

theorem lineSettle_fixed (ts : List Txn) (l : Nat) (s : State) :
    (lineSettle ts l s).fixed = s.fixed := by
  unfold lineSettle
  dsimp only
  rw [foldl2_fixed _ _ _ fun a x => txnSettle_fixed _ _ _]
  repeat' split
  all_goals grind [baseNow_fixed, baseFilled_fixed]

theorem readsSettle_fixed (f : Nat) (s : State) :
    (readsSettle f s).fixed = s.fixed := by
  simp [readsSettle, forEach_fixed, lineSettle_fixed, takenDrop_fixed, opsDrop_fixed, forEach_fixed, ite_fixed]

theorem applyRec_fixed (r : JRec) (s : State) :
    (applyRec r s).fixed = s.fixed := by
  (simp only [applyRec]; repeat' split) <;> simp [readsSettle_fixed, recTables_fixed, dirEnter_fixed, migBegin_fixed, reserveEvents_fixed, shelfOld_fixed, remapEffect_fixed, reserveRise_fixed, settleBlanked_fixed, wearNear_fixed, attrEffect_fixed, raise_fixed, modSet_fixed, ringFree_fixed, overdraftAdmit_fixed]

theorem appendLand_fixed (r : JRec) (rest : List JRec) (s : State) :
    (appendLand r rest s).fixed = s.fixed := by
  simp [appendLand]

theorem execJournalAppendComplete_fixed (s : State) :
    ResFixed (execJournalAppendComplete s) s := by
  (simp only [execJournalAppendComplete]; repeat' split) <;>
    simp [bump_fixed, appendLand_fixed, ringNext_fixed, bgRec_fixed, applyRec_fixed]

theorem execCheckpointTimer_fixed (s : State) :
    ResFixed (execCheckpointTimer s) s := by
  simp [execCheckpointTimer, ckptTrigger_fixed, ite_fixed]

theorem execCheckpointRingThreshold_fixed (s : State) :
    ResFixed (execCheckpointRingThreshold s) s := by
  simp [execCheckpointRingThreshold, ringHigh_fixed]

theorem regCkptReq_fixed (_h : Head) (s : State) :
    ResFixed (regCkptReq _h s) s := by
  simp [regCkptReq, ckptTrigger_fixed]

theorem wearPrograms_fixed (m n : Nat) (s : State) :
    (wearPrograms m n s).fixed = s.fixed := by
  simp [wearPrograms, setWear_fixed, wearTriggers_fixed, wearNear_fixed, ite_fixed]

theorem ckptFail_fixed (s : State) :
    (ckptFail s).fixed = s.fixed := by
  simp [ckptFail, raise_fixed, ite_fixed]

theorem copyWear_fixed (b : Bool) (s : State) :
    (copyWear b s).fixed = s.fixed := by
  simp [copyWear, forEach_fixed, wearNear_fixed, setWear_fixed, wearPrograms_fixed, forEach_fixed, ite_fixed]

theorem execCheckpointDone_fixed (s : State) :
    ResFixed (execCheckpointDone s) s := by
  (simp only [execCheckpointDone]; repeat' split) <;> simp [ckptFail_fixed, treeFlush_fixed, copyWear_fixed, ckptAppend_fixed, bump_fixed]

theorem stageTake_fixed (n : Nat) (owner : Nat) (s : State) :
    (stageTake n owner s).2.fixed = s.fixed := by
  (simp only [stageTake]; repeat' split) <;> simp [raise_fixed, takeFolio_fixed, modSet_fixed]

theorem stageFolio_fixed (n : Nat) (f : Nat) (s : State) :
    (stageFolio n f s).2.fixed = s.fixed := by
  (simp only [stageFolio]; repeat' split) <;> first
    | (simp [modSet_fixed]; done)
    | (simp [modSet_fixed]; grind [stageTake_fixed, modSet_fixed])

theorem stageCtrFolio_fixed (n : Nat) (f : Nat) (s : State) :
    (stageCtrFolio n f s).2.fixed = s.fixed := by
  (simp only [stageCtrFolio]; repeat' split) <;> first
    | (simp [modSet_fixed]; done)
    | (simp [modSet_fixed]; grind [stageTake_fixed, modSet_fixed])

theorem stageBlock_fixed (n : Nat) (f : Nat) (b : Nat) (s : State) :
    (stageBlock n f b s).2.fixed = s.fixed := by
  unfold stageBlock
  generalize (2 ^ 29 : Nat) = q
  have h0 := stageCtrFolio_fixed n f s
  split
  · rfl
  split
  · simp_all
  · rename_i s' heq
    rw [heq] at h0
    have h1 := ctrFetch_fixed (sc s') b s'
    have h2 := fun c k => nextMajor_fixed c k (ctrFetch (sc s') b s').2
    simp only []
    split <;> grind

theorem stageRecoin_fixed (n : Nat) (b : Nat) (c : CtrBlock) (s : State) :
    (stageRecoin n b c s).2.fixed = s.fixed := by
  simp only [stageRecoin]
  repeat' first
    | with_reducible rfl
    | assumption
    | split
    | with_reducible refine (programLine_fixed _ _ _ _ _ _ ).trans ?_
    | with_reducible refine (forEach_fixed _ _ _ fun _ _ => ?_).trans ?_
    | with_reducible refine (foldl_fixed _ _ _ fun _ _ => ?_).trans ?_
    | with_reducible refine (State.modCtl_fixed _ _ ?_).trans ?_
  all_goals first
    | (simp; done)
    | grind [nextMajor_fixed, programLine_fixed]

theorem stageLine_fixed (n : Nat) (l : Nat) (d : Line) (poison : Bool) (s : State) :
    (stageLine n l d poison s).2.fixed = s.fixed := by
  (simp only [stageLine]; repeat' split) <;>
    ((simp [stageRecoin_fixed, bump_fixed]; grind [stageFolio_fixed, stageBlock_fixed, stageRecoin_fixed, bump_fixed,
            State.modCry_fixed]))

theorem stageWrite_fixed (n : Nat) (l : Nat) (q : Nat) (idx : Nat) (d : Line) (poison : Bool) (s : State) :
    (stageWrite n l q idx d poison s).2.fixed = s.fixed := by
  (simp only [stageWrite]; repeat' split) <;>
    ((simp [modSet_fixed, queueOp_fixed]; grind [stageLine_fixed, modSet_fixed, queueOp_fixed]))

theorem inheritCopy_fixed (n l : Nat) (s : State) :
    (inheritCopy n l s).fixed = s.fixed := by
  simp [inheritCopy, takeBase_fixed, stageWrite_fixed, ite_fixed]

theorem inheritReady_fixed (x0 : List Nat) (s : State) :
    (inheritReady x0 s).2.fixed = s.fixed := by
  induction x0 generalizing s with
  | nil => rfl
  | cons l r ih => simp [inheritReady, takeReady_fixed, ih]

theorem closeCopy_fixed (n : Nat) (s : State) :
    (closeCopy n s).fixed = s.fixed := by
  simp [closeCopy, inheritReady_fixed, forEach_fixed, inheritCopy_fixed, modSet_fixed, forEach_fixed, ite_fixed]

theorem closeReturn_fixed (n : Nat) (s : State) :
    (closeReturn n s).fixed = s.fixed := by
  simp [closeReturn, jAppend_fixed, modSet_fixed, ite_fixed]

theorem execSetClosed_fixed (set : Nat) (s : State) :
    ResFixed (execSetClosed set s) s := by
  (simp only [execSetClosed]; repeat' split) <;> simp [closeCopy_fixed, closeReturn_fixed, raise_fixed, recordQueue_fixed, modSet_fixed]

theorem abandonRecoin_fixed (n : Nat) (s : State) :
    (abandonRecoin n s).fixed = s.fixed := by
  simp only [abandonRecoin, State.modCry_fixed]
  refine forEach_fixed _ _ _ fun e s => ?_
  have h := nextMajor_fixed e.2.major 1 s
  split <;> simp_all [recoinTo_fixed]

theorem abandonStart_fixed (n : Nat) (s : State) :
    (abandonStart n s).fixed = s.fixed := by
  simp [abandonStart, takenDrop_fixed, abandonRecoin_fixed, modSet_fixed, forEach_fixed, queueBlank_fixed, jAppend_fixed, forEach_fixed, ite_fixed]

theorem execSetAbandoned_fixed (set : Nat) (s : State) :
    ResFixed (execSetAbandoned set s) s := by
  (simp only [execSetAbandoned]; repeat' split) <;> simp [raise_fixed, recordQueue_fixed, modSet_fixed]

theorem settleCtrs_fixed (n : Nat) (s : State) :
    (settleCtrs n s).fixed = s.fixed := by
  simp [settleCtrs, derivedDrop_fixed, ctrStore_fixed, modSet_fixed, queueBlank_fixed, forEach_fixed]

theorem settleMember_fixed (n f : Nat) (s : State) :
    (settleMember n f s).fixed = s.fixed := by
  simp [settleMember, itemApply_fixed, migCut_fixed, folioPoisonDrop_fixed, lateDropped_fixed, sweepDrop_fixed, queueBlank_fixed, modSet_fixed, ite_fixed]

theorem releaseSwap_fixed (n : Nat) (s : State) :
    (releaseSwap n s).fixed = s.fixed := by
  simp [releaseSwap, modSet_fixed, forEach_fixed, readsSettle_fixed, settleMember_fixed, settleCtrs_fixed, forEach_fixed, ite_fixed]

theorem execReleaseDone_fixed (set : Nat) (s : State) :
    ResFixed (execReleaseDone set s) s := by
  (simp only [execReleaseDone]; repeat' split) <;> simp [raise_fixed, recordQueue_fixed, modSet_fixed]

theorem migHold_fixed (f : Nat) (s : State) :
    (migHold f s).fixed = s.fixed := by
  simp [migHold, toExpress_fixed, modMig_fixed, ite_fixed]

theorem releasePrepare_fixed (n entry : Nat) (fire : Nat) (s : State) :
    (releasePrepare n entry fire s).fixed = s.fixed := by
  simp [releasePrepare, forEach_fixed, migHold_fixed, modSet_fixed, jAppend_fixed, forEach_fixed, ite_fixed]

theorem releaseUnprepare_fixed (n : Nat) (s : State) :
    (releaseUnprepare n s).fixed = s.fixed := by
  simp [releaseUnprepare, pageStart_fixed, ringCheck_fixed, modSet_fixed, ite_fixed]

theorem replayOne_fixed (done : List JRec) (r : JRec) (s : State) :
    (replayOne done r s).fixed = s.fixed := by
  simp [replayOne, itemApply_fixed, setRev_fixed, recTables_fixed, ite_fixed, forEach_fixed]

theorem replay_fixed (x0 : List JRec) (x1 : List JRec) (x2 : State) :
    (replay x0 x1 x2).fixed = x2.fixed := by
  induction x1 generalizing x0 x2 with
  | nil => rfl
  | cons r rest ih => simp only [replay, ih, replayOne_fixed]

theorem ckptLoad_fixed (c : CkptCopy) (s : State) :
    (ckptLoad c s).fixed = s.fixed := by
  simp [ckptLoad, replay_fixed]

theorem settleOne_fixed (rs : List JRec) (m : Nat) (s : State) :
    (settleOne rs m s).fixed = s.fixed := by
  (simp only [settleOne]; repeat' split) <;> simp [queueBlank_fixed, jAppend_fixed, setRev_fixed]

theorem settleAll_fixed (rs : List JRec) (s : State) :
    (settleAll rs s).fixed = s.fixed := by
  simp [settleAll, settleOne_fixed, forEach_fixed]

theorem settleRecover_fixed (rs : List JRec) (n : Nat) (s : State) :
    (settleRecover rs n s).fixed = s.fixed := by
  simp [settleRecover, forEach_fixed, sweepDrop_fixed, modSet_fixed, settleCtrs_fixed, forEach_fixed, ite_fixed]

theorem escrowRecover_fixed (rs : List JRec) (n : Nat) (s : State) :
    (escrowRecover rs n s).fixed = s.fixed := by
  simp [escrowRecover, settleRecover_fixed, modSet_fixed, queueBlank_fixed, jAppend_fixed, ite_fixed, forEach_fixed]

theorem recoinCheckLine_fixed (pg : RecoinPage) (bad : List Nat) (i : Nat) (s : State) :
    (recoinCheckLine pg bad i s).fixed = s.fixed := by
  simp only [recoinCheckLine]
  repeat' first
    | with_reducible rfl
    | assumption
    | split
    | with_reducible refine (poisonStore_fixed _ _ _ ).trans ?_
    | with_reducible refine (placeDirty_fixed _ _ _ ).trans ?_
    | with_reducible refine (forEach_fixed _ _ _ fun _ _ => ?_).trans ?_
    | with_reducible refine (foldl_fixed _ _ _ fun _ _ => ?_).trans ?_
    | with_reducible refine (State.modCtl_fixed _ _ ?_).trans ?_
  all_goals first
    | (simp [ctrFetch_fixed, poisonStore_fixed, placeDirty_fixed, ite_fixed, forEach_fixed, foldl_fixed, foldl2_fixed,
            foldl1_fixed]; done)
    | grind [ctrFetch_fixed, poisonStore_fixed, placeDirty_fixed]

theorem recoinRecover_fixed (e : Nat × RecoinPage) (checks : List RecoinCheck) (s : State) :
    (recoinRecover e checks s).fixed = s.fixed := by
  simp [recoinRecover, recoinCheckLine_fixed, raise_fixed, ite_fixed, forEach_fixed]

theorem tornPoison_fixed (m : Nat) (o : Nat) (s : State) :
    (tornPoison m o s).fixed = s.fixed := by
  simp [tornPoison, programLine_fixed, poisonListAdd_fixed, ite_fixed]

theorem tornOne_fixed (all : List TornCheck) (t : TornCheck) (s : State) :
    (tornOne all t s).fixed = s.fixed := by
  (simp only [tornOne]; repeat' split) <;> simp [ok_fixed, raise_fixed, rbit_fixed, rinc_fixed, parityRecompute_fixed, tornPoison_fixed, wearProgram_fixed, setMline_fixed]

theorem overdraftReload_fixed (s : State) :
    (overdraftReload s).fixed = s.fixed := by
  simp [overdraftReload]

theorem ledgerLost_fixed (s : State) :
    (ledgerLost s).fixed = s.fixed := by
  simp [ledgerLost, raise_fixed]

theorem debtRebuild_fixed (s : State) :
    (debtRebuild s).fixed = s.fixed := by
  simp [debtRebuild, ite_fixed]

theorem startChecks_fixed (recoin : List RecoinCheck) (torn : List TornCheck) (s : State) :
    (startChecks recoin torn s).fixed = s.fixed := by
  simp [startChecks, forEach_fixed, recoinRecover_fixed, tornOne_fixed, debtRebuild_fixed, overdraftReload_fixed, forEach_fixed, ite_fixed]

theorem dramUp_fixed (s : State) :
    (dramUp s).fixed = s.fixed := by
  simp [dramUp]

theorem journalCut_fixed (c : CkptCopy) (s : State) :
    (journalCut c s).fixed = s.fixed := by
  simp [journalCut, ite_fixed]

theorem execRecovery_fixed (a b : CopyRead) (recoin : List RecoinCheck) (torn : List TornCheck) (s : State) :
    ResFixed (execRecovery a b recoin torn s) s := by
  (simp only [execRecovery]; repeat' split) <;> simp [dramUp_fixed, ledgerLost_fixed, settleAll_fixed, journalCut_fixed, ckptLoad_fixed, forEach_fixed, escrowRecover_fixed, raise_fixed, rbit_fixed, startChecks_fixed, forEach_fixed]

theorem execMemoryActive_fixed (s : State) :
    ResFixed (execMemoryActive s) s := by
  (simp only [execMemoryActive]; repeat' split) <;> simp [retireFolios_fixed]

theorem execScanDone_fixed (bad : List Nat) (s : State) :
    ResFixed (execScanDone bad s) s := by
  (simp only [execScanDone]; repeat' split) <;> simp [raise_fixed]

theorem ckptNow_fixed (s : State) :
    (ckptNow s).fixed = s.fixed := by
  simp [ckptNow, treeFlush_fixed, ringFree_fixed, bump_fixed, copyWear_fixed, ite_fixed]

theorem tillDrop_fixed (keep : Nat → Bool) (s : State) :
    (tillDrop keep s).fixed = s.fixed := by
  simp [tillDrop, lateDropped_fixed, sweepDrop_fixed, forEach_fixed]

theorem execScanCommitDone_fixed (s : State) :
    ResFixed (execScanCommitDone s) s := by
  (simp only [execScanCommitDone]; repeat' split) <;>
    simp [modSet_fixed, tillDrop_fixed, retireFolios_fixed, ckptNow_fixed, forEach_fixed]

theorem formatTake_fixed (kind : Nat) (x1 : Nat) (x2 : State) :
    (formatTake kind x1 x2).fixed = x2.fixed := by
  induction x1 generalizing x2 with
  | zero => rfl
  | succ n ih =>
    simp only [formatTake]
    split <;> simp [ih]

theorem formatOp_fixed (s : State) :
    (formatOp s).fixed = s.fixed := by
  simp [formatOp, forEach_fixed, readsSettle_fixed, tillDrop_fixed, formatTake_fixed, recordQueue_fixed, ckptNow_fixed, forEach_fixed, ite_fixed]

theorem dropMig_fixed (f : Nat) (s : State) :
    (dropMig f s).fixed = s.fixed := by
  simp [dropMig]

theorem migNoRoom_fixed (g : Mig) (s : State) :
    (migNoRoom g s).fixed = s.fixed := by
  simp [migNoRoom, raise_fixed, dropMig_fixed, classDone_fixed, jAppend_fixed, ite_fixed]

theorem execMigrationStart_fixed (s : State) :
    ResFixed (execMigrationStart s) s := by
  (simp only [execMigrationStart]; repeat' split) <;>
    simp [classDone_fixed, dropMig_fixed, migNoRoom_fixed, modMig_fixed, takeFolio_fixed, bump_fixed]

theorem migAfter_fixed (g : Mig) (s : State) :
    (migAfter g s).fixed = s.fixed := by
  simp [migAfter, migFeed_fixed, modMig_fixed, migAsk_fixed, ite_fixed]

theorem migRemap_fixed (g : Mig) (s : State) :
    (migRemap g s).fixed = s.fixed := by
  simp [migRemap, jAppend_fixed, modMig_fixed, ite_fixed]

theorem execMigrationPassDone_fixed (folio : Nat) (s : State) :
    ResFixed (execMigrationPassDone folio s) s := by
  (simp only [execMigrationPassDone]; repeat' split) <;> simp [migAfter_fixed, migRemap_fixed]

theorem execMigrationSourceQuiesced_fixed (folio : Nat) (s : State) :
    ResFixed (execMigrationSourceQuiesced folio s) s := by
  (simp only [execMigrationSourceQuiesced]; repeat' split) <;> simp [dropMig_fixed, queueBlank_fixed, jAppend_fixed]

theorem blankEnd_fixed (m : Nat) (s : State) :
    (blankEnd m s).fixed = s.fixed := by
  simp [blankEnd]

theorem execFolioBlankDone_fixed (m : Nat) (s : State) :
    ResFixed (execFolioBlankDone m s) s := by
  (simp only [execFolioBlankDone]; repeat' split) <;> simp [blankEnd_fixed, bump_fixed, blankFolio_fixed, jAppend_fixed]

theorem bgRecords_fixed (p : MbxPort) (op : Nat) (rs : List JRec) (s : State) :
    (bgRecords p op rs s).st.fixed = s.fixed := by
  simp [bgRecords, bgStart_fixed, jAppendFor_fixed]

theorem yGetCapacityInfo_fixed (p : MbxPort) (b : List Byte) (s : State) :
    (yGetCapacityInfo p b s).st.fixed = s.fixed := by
  simp [yGetCapacityInfo, okOut_fixed]

theorem execGetCapacityInfo_fixed (p : MbxPort) (payload : List Byte) (s : State) :
    ResFixed (execGetCapacityInfo p payload s) s := by
  simp [execGetCapacityInfo, yciRun_fixed, yGetCapacityInfo_fixed]

theorem extentPut_fixed (f : Nat) (e : LEntry) (s : State) :
    (extentPut f e s).fixed = s.fixed := by
  simp [extentPut]

theorem yProvisionFolios_fixed (p : MbxPort) (b : List Byte) (s : State) :
    (yProvisionFolios p b s).st.fixed = s.fixed := by
  (simp only [yProvisionFolios]; repeat' split) <;>
    simp [errAns_fixed, extentPut_fixed, bgRecords_fixed, recordQueue_fixed, forEach_fixed]

theorem execProvisionFolios_fixed (p : MbxPort) (payload : List Byte) (s : State) :
    ResFixed (execProvisionFolios p payload s) s := by
  simp [execProvisionFolios, yciRun_fixed, yProvisionFolios_fixed]

theorem yDeprovisionFolios_fixed (p : MbxPort) (b : List Byte) (s : State) :
    (yDeprovisionFolios p b s).st.fixed = s.fixed := by
  (simp only [yDeprovisionFolios]; repeat' split) <;>
    simp [errAns_fixed, extentPut_fixed, bgRecords_fixed, recordQueue_fixed, forEach_fixed]

theorem execDeprovisionFolios_fixed (p : MbxPort) (payload : List Byte) (s : State) :
    ResFixed (execDeprovisionFolios p payload s) s := by
  simp [execDeprovisionFolios, yciRun_fixed, yDeprovisionFolios_fixed]

theorem yZeroFolios_fixed (p : MbxPort) (b : List Byte) (s : State) :
    (yZeroFolios p b s).st.fixed = s.fixed := by
  (simp only [yZeroFolios]; repeat' split) <;> simp [errAns_fixed, bgRecords_fixed]

theorem execZeroFolios_fixed (p : MbxPort) (payload : List Byte) (s : State) :
    ResFixed (execZeroFolios p payload s) s := by
  simp [execZeroFolios, yciRun_fixed, yZeroFolios_fixed]

theorem ySetFolioAttributes_fixed (p : MbxPort) (b : List Byte) (s : State) :
    (ySetFolioAttributes p b s).st.fixed = s.fixed := by
  (simp only [ySetFolioAttributes]; repeat' split) <;> simp [errAns_fixed, bgRecords_fixed]

theorem execSetFolioAttributes_fixed (p : MbxPort) (payload : List Byte) (s : State) :
    ResFixed (execSetFolioAttributes p payload s) s := by
  simp [execSetFolioAttributes, yciRun_fixed, ySetFolioAttributes_fixed]

theorem classChange_fixed (p : MbxPort) (f : Nat) (s : State) :
    (classChange p f s).fixed = s.fixed := by
  simp [classChange, jAppendFor_fixed, ite_fixed]

theorem yChangeFolioClass_fixed (p : MbxPort) (b : List Byte) (s : State) :
    (yChangeFolioClass p b s).st.fixed = s.fixed := by
  (simp only [yChangeFolioClass]; repeat' split) <;>
    simp [errAns_fixed, bgStart_fixed, classChange_fixed, forEach_fixed]

theorem execChangeFolioClass_fixed (p : MbxPort) (payload : List Byte) (s : State) :
    ResFixed (execChangeFolioClass p payload s) s := by
  simp [execChangeFolioClass, yciRun_fixed, yChangeFolioClass_fixed]

theorem yGetFolioEntry_fixed (p : MbxPort) (b : List Byte) (s : State) :
    (yGetFolioEntry p b s).st.fixed = s.fixed := by
  (simp only [yGetFolioEntry]; repeat' split) <;> simp [errAns_fixed, okOut_fixed]

theorem execGetFolioEntry_fixed (p : MbxPort) (payload : List Byte) (s : State) :
    ResFixed (execGetFolioEntry p payload s) s := by
  simp [execGetFolioEntry, yciRun_fixed, yGetFolioEntry_fixed]

theorem execRequestCheckpoint_fixed (p : MbxPort) (payload : List Byte) (s : State) :
    ResFixed (execRequestCheckpoint p payload s) s := by
  simp [execRequestCheckpoint, yciRun_fixed, ok_fixed, ckptTrigger_fixed]

theorem yLedgerDecision_fixed (p : MbxPort) (b : List Byte) (s : State) :
    (yLedgerDecision p b s).st.fixed = s.fixed := by
  (simp only [yLedgerDecision]; repeat' split) <;> simp [errAns_fixed, bgStart_fixed, formatOp_fixed]

theorem execStartRebuildScan_fixed (p : MbxPort) (payload : List Byte) (s : State) :
    ResFixed (execStartRebuildScan p payload s) s := by
  simp [execStartRebuildScan, yciRun_fixed, yLedgerDecision_fixed]

theorem execCommitScanResult_fixed (p : MbxPort) (payload : List Byte) (s : State) :
    ResFixed (execCommitScanResult p payload s) s := by
  simp [execCommitScanResult, yciRun_fixed, yLedgerDecision_fixed]

theorem execFormat_fixed (p : MbxPort) (payload : List Byte) (s : State) :
    ResFixed (execFormat p payload s) s := by
  simp [execFormat, yciRun_fixed, yLedgerDecision_fixed]

theorem execGetScanReport_fixed (p : MbxPort) (payload : List Byte) (s : State) :
    ResFixed (execGetScanReport p payload s) s := by
  simp [execGetScanReport, yciRun_fixed, okOut_fixed]

theorem execGetWearAndReserveHealth_fixed (p : MbxPort) (payload : List Byte) (s : State) :
    ResFixed (execGetWearAndReserveHealth p payload s) s := by
  simp [execGetWearAndReserveHealth, yciRun_fixed, okOut_fixed]

theorem ySetTillLoss_fixed (p : MbxPort) (b : List Byte) (s : State) :
    (ySetTillLoss p b s).st.fixed = s.fixed := by
  (simp only [ySetTillLoss]; repeat' split) <;> simp [errAns_fixed, ok_fixed]

theorem execSetTillLossAcceptance_fixed (p : MbxPort) (payload : List Byte) (s : State) :
    ResFixed (execSetTillLossAcceptance p payload s) s := by
  simp [execSetTillLossAcceptance, yciRun_fixed, ySetTillLoss_fixed]

theorem setRefused_fixed (s : State) :
    (setRefused s).fixed = s.fixed := by
  simp [setRefused, raise_fixed, rbit_fixed]

theorem ptmUnlock_fixed (s : State) :
    (ptmUnlock s).fixed = s.fixed := by
  simp [ptmUnlock, raise_fixed, ite_fixed]

theorem sourceHostOp_fixed (s : State) :
    (sourceHostOp s).fixed = s.fixed := by
  simp [sourceHostOp, ptmUnlock_fixed]

theorem sourcePtmOp_fixed (s : State) :
    (sourcePtmOp s).fixed = s.fixed := by
  simp [sourcePtmOp, setRefused_fixed, ite_fixed]

theorem sourcePairOp_fixed (s : State) :
    (sourcePairOp s).fixed = s.fixed := by
  simp [sourcePairOp, setRefused_fixed, ptmUnlock_fixed, ite_fixed]

theorem regSourceHost_fixed (_h : Head) (s : State) :
    ResFixed (regSourceHost _h s) s := by
  simp [regSourceHost, sourceHostOp_fixed]

theorem regSourcePtm_fixed (_h : Head) (s : State) :
    ResFixed (regSourcePtm _h s) s := by
  simp [regSourcePtm, sourcePtmOp_fixed]

theorem regSourcePairLink_fixed (_h : Head) (s : State) :
    ResFixed (regSourcePairLink _h s) s := by
  simp [regSourcePairLink, sourcePairOp_fixed]

theorem ptmCfgOp_fixed (v : BitVec 32) (s : State) :
    (ptmCfgOp v s).fixed = s.fixed := by
  simp [ptmCfgOp, setRefused_fixed, ite_fixed]

theorem regTbsPtmCfgWrite_fixed (_h : Head) (value : BitVec 32) (s : State) :
    ResFixed (regTbsPtmCfgWrite _h value s) s := by
  simp [regTbsPtmCfgWrite, ptmCfgOp_fixed]

theorem tbsSetHiOp_fixed (v : BitVec 32) (s : State) :
    (tbsSetHiOp v s).fixed = s.fixed := by
  simp [tbsSetHiOp, setRefused_fixed, ite_fixed]

theorem regTbsSetHi_fixed (_h : Head) (value : BitVec 32) (s : State) :
    ResFixed (regTbsSetHi _h value s) s := by
  simp [regTbsSetHi, tbsSetHiOp_fixed]

theorem scrubStart_fixed (s : State) :
    (scrubStart s).fixed = s.fixed := by
  simp [scrubStart, queueFolioRestrike_fixed, ite_fixed, forEach_fixed]

theorem searchExit_fixed (s : State) :
    (searchExit s).fixed = s.fixed := by
  simp [searchExit, raise_fixed, ite_fixed]

theorem firstSet_fixed (v : Nat) (s : State) :
    (firstSet v s).fixed = s.fixed := by
  simp [firstSet, recordQueue_fixed, scrubStart_fixed, searchExit_fixed, dieTimeSend_fixed, ite_fixed]

theorem mintMove_fixed (bd : Nat) (v : Nat) (s : State) :
    (mintMove bd v s).fixed = s.fixed := by
  simp [mintMove]

theorem execMintTimeSet_fixed (s : State) :
    ResFixed (execMintTimeSet s) s := by
  (simp only [execMintTimeSet]; repeat' split) <;>
    simp [mintMove_fixed, raise_fixed, firstSet_fixed, setRefused_fixed, rbit_fixed]

theorem execPtmDialogue_fixed (s : State) :
    ResFixed (execPtmDialogue s) s := by
  (simp only [execPtmDialogue]; repeat' split) <;> simp [bump_fixed, raise_fixed, rbit_fixed]

theorem discipline_fixed (e : Int) (s : State) :
    (discipline e s).fixed = s.fixed := by
  simp [discipline, ite_fixed]

theorem ptmLockStep_fixed (e : Int) (s : State) :
    (ptmLockStep e s).fixed = s.fixed := by
  simp [ptmLockStep, raise_fixed, ptmUnlock_fixed, ite_fixed]

theorem execPtmResponse_fixed (master : BitVec 64) (s : State) :
    ResFixed (execPtmResponse master s) s := by
  (simp only [execPtmResponse]; repeat' split) <;> simp [discipline_fixed, ptmUnlock_fixed, ptmLockStep_fixed]

theorem modSo_fixed (i : Nat) (f : SoEntry → SoEntry) (s : State) :
    (modSo i f s).fixed = s.fixed := by
  simp [modSo]

theorem soWrite_fixed (i : Nat) (b : BitVec 256) (s : State) :
    (soWrite i b s).fixed = s.fixed := by
  simp [soWrite, rbit_fixed, modSo_fixed, ite_fixed]

theorem soArmOp_fixed (i : Nat) (s : State) :
    (soArmOp i s).fixed = s.fixed := by
  simp [soArmOp, modSo_fixed, raise_fixed, rbit_fixed, ite_fixed]

theorem soDisarmOp_fixed (i : Nat) (s : State) :
    (soDisarmOp i s).fixed = s.fixed := by
  (simp only [soDisarmOp]; repeat' split) <;> simp [modSo_fixed, rbit_fixed, releaseUnprepare_fixed]

theorem regSoArm_fixed (_h : Head) (value : BitVec 32) (s : State) :
    ResFixed (regSoArm _h value s) s := by
  simp [regSoArm, soArmOp_fixed]

theorem regSoDisarm_fixed (_h : Head) (value : BitVec 32) (s : State) :
    ResFixed (regSoDisarm _h value s) s := by
  simp [regSoDisarm, soDisarmOp_fixed]

theorem soIssue_fixed (frame : Nat) (x1 : Nat) (x2 : State) :
    (soIssue frame x1 x2).fixed = x2.fixed := by
  induction x1 generalizing x2 with
  | zero => rfl
  | succ n ih =>
    simp only [soIssue]
    split <;> simp [ih, modSo_fixed]

theorem execFrameToken_fixed (s : State) :
    ResFixed (execFrameToken s) s := by
  (simp only [execFrameToken]; repeat' split) <;> simp [modChan_fixed, soIssue_fixed, ite_fixed, forEach_fixed]

theorem fireCount_fixed (f : Firing) (s : State) :
    (fireCount f s).fixed = s.fixed := by
  simp [fireCount, bump_fixed, modSo_fixed, raise_fixed, rbit_fixed, ite_fixed]

theorem fireRun_fixed (entry : Nat) (action : Nat) (effect : Firing → State → State) (s : State) (heffect : ∀ y0 s,
    (effect y0 s).fixed = s.fixed) :
    ResFixed (fireRun entry action effect s) s := by
  (simp only [fireRun]; repeat' split) <;> simp [fireCount_fixed, heffect]

theorem execNopOrder_fixed (entry : Nat) (s : State) :
    ResFixed (execNopOrder entry s) s := by
  simp [execNopOrder, fireRun_fixed]

theorem prefetchLines_fixed (x0 : List Nat) (x1 : Bool) (x2 : State) :
    (prefetchLines x0 x1 x2).2.fixed = x2.fixed := by
  induction x0 generalizing x1 x2 with
  | nil => rfl
  | cons l r ih => simp [prefetchLines, ih, prefetchQueue_fixed]

theorem prefetchEffect_fixed (f : Firing) (s : State) :
    (prefetchEffect f s).fixed = s.fixed := by
  (simp only [prefetchEffect]; repeat' split) <;> simp [raise_fixed, accessCount_fixed, prefetchLines_fixed]

theorem releaseEffect_fixed (f : Firing) (s : State) :
    (releaseEffect f s).fixed = s.fixed := by
  simp [releaseEffect, raise_fixed, bump_fixed, releaseSwap_fixed, ite_fixed]

theorem releasesFirst_fixed (f : Firing) (s : State) :
    (releasesFirst f s).fixed = s.fixed := by
  exact forEach_fixed _ _ _ fun g s => by simp [releaseEffect_fixed, fireCount_fixed]

theorem execPrefetchOrder_fixed (entry : Nat) (s : State) :
    ResFixed (execPrefetchOrder entry s) s := by
  simp [execPrefetchOrder, fireRun_fixed, prefetchEffect_fixed, releasesFirst_fixed, ite_fixed]

theorem execReleaseOrder_fixed (entry : Nat) (s : State) :
    ResFixed (execReleaseOrder entry s) s := by
  simp [execReleaseOrder, fireRun_fixed, releaseEffect_fixed]

theorem gateOpenOp_fixed (q : Nat) (s : State) :
    (gateOpenOp q s).fixed = s.fixed := by
  simp [gateOpenOp]

theorem execQueueStart_fixed (entry : Nat) (s : State) :
    ResFixed (execQueueStart entry s) s := by
  simp only [execQueueStart]
  repeat' first
    | with_reducible rfl
    | assumption
    | split
    | with_reducible exact fireRun_fixed _ _ _ _
    | with_reducible refine (raise_fixed _ _ _ _ _ ).trans ?_
    | with_reducible refine (gateOpenOp_fixed _ _ ).trans ?_
    | with_reducible refine (forEach_fixed _ _ _ fun _ _ => ?_).trans ?_
    | with_reducible refine (foldl_fixed _ _ _ fun _ _ => ?_).trans ?_
    | with_reducible refine (State.modCtl_fixed _ _ ?_).trans ?_
  all_goals first
    | (simp [fireRun_fixed, raise_fixed, gateOpenOp_fixed, ite_fixed, forEach_fixed, foldl_fixed, foldl2_fixed,
            foldl1_fixed]; done)
    | grind [fireRun_fixed, raise_fixed, gateOpenOp_fixed]

theorem quietNow_fixed (c : Nat) (s : State) :
    (quietNow c s).fixed = s.fixed := by
  simp [quietNow, modChan_fixed, ite_fixed]

theorem execQuietBegin_fixed (entry : Nat) (s : State) :
    ResFixed (execQuietBegin entry s) s := by
  simp [execQuietBegin, fireRun_fixed, forEach_fixed, quietNow_fixed, forEach_fixed, ite_fixed]

theorem quietStop_fixed (c t : Nat) (s : State) :
    (quietStop c t s).fixed = s.fixed := by
  simp [quietStop, quietNow_fixed, ite_fixed]

theorem execQuietEnd_fixed (entry : Nat) (s : State) :
    ResFixed (execQuietEnd entry s) s := by
  simp [execQuietEnd, fireRun_fixed, quietStop_fixed, forEach_fixed]

theorem execAuditOrder_fixed (entry : Nat) (s : State) :
    ResFixed (execAuditOrder entry s) s := by
  simp [execAuditOrder, fireRun_fixed, snapRequest_fixed]

theorem execMarkerOrder_fixed (entry : Nat) (s : State) :
    ResFixed (execMarkerOrder entry s) s := by
  simp [execMarkerOrder, fireRun_fixed, raise_fixed]

theorem execQuietForcedEnd_fixed (c : Nat) (s : State) :
    ResFixed (execQuietForcedEnd c s) s := by
  (simp only [execQuietForcedEnd]; repeat' split) <;> simp [raise_fixed, quietStop_fixed]

theorem execReleasePreparationStart_fixed (entry : Nat) (s : State) :
    ResFixed (execReleasePreparationStart entry s) s := by
  (simp only [execReleasePreparationStart]; repeat' split) <;>
    simp [modSo_fixed, raise_fixed, bump_fixed, releasePrepare_fixed]

theorem execWriteStandingOrder_fixed (p : MbxPort) (payload : List Byte) (s : State) :
    ResFixed (execWriteStandingOrder p payload s) s := by
  (simp only [execWriteStandingOrder]; repeat' split) <;>
    ((simp; grind [yciRun_fixed, errAns_fixed, ok_fixed, soWrite_fixed]))

theorem execArmStandingOrder_fixed (p : MbxPort) (payload : List Byte) (s : State) :
    ResFixed (execArmStandingOrder p payload s) s := by
  (simp only [execArmStandingOrder]; repeat' split) <;>
    ((simp; grind [yciRun_fixed, errAns_fixed, soArmOp_fixed, okOut_fixed]))

theorem execDisarmStandingOrder_fixed (p : MbxPort) (payload : List Byte) (s : State) :
    ResFixed (execDisarmStandingOrder p payload s) s := by
  (simp only [execDisarmStandingOrder]; repeat' split) <;>
    ((simp; grind [yciRun_fixed, errAns_fixed, ok_fixed, soDisarmOp_fixed]))

theorem execReadStandingOrder_fixed (p : MbxPort) (payload : List Byte) (s : State) :
    ResFixed (execReadStandingOrder p payload s) s := by
  (simp only [execReadStandingOrder]; repeat' split) <;> ((simp; grind [yciRun_fixed, errAns_fixed, okOut_fixed]))

theorem createSet_fixed (p : MbxPort) (n : Nat) (key : Nat) (opts : Nat) (fs : List Nat) (s : State) :
    (createSet p n key opts fs s).st.fixed = s.fixed := by
  simp [createSet, modSet_fixed, extentPut_fixed, bgRecords_fixed, recordQueue_fixed, modMbx_fixed, forEach_fixed]

theorem yCreateEscrowSet_fixed (p : MbxPort) (b : List Byte) (s : State) :
    (yCreateEscrowSet p b s).st.fixed = s.fixed := by
  (simp only [yCreateEscrowSet]; repeat' split) <;> simp [errAns_fixed, createSet_fixed]

theorem execCreateEscrowSet_fixed (p : MbxPort) (payload : List Byte) (s : State) :
    ResFixed (execCreateEscrowSet p payload s) s := by
  simp [execCreateEscrowSet, yciRun_fixed, yCreateEscrowSet_fixed]

theorem yCloseEscrowSet_fixed (p : MbxPort) (b : List Byte) (s : State) :
    (yCloseEscrowSet p b s).st.fixed = s.fixed := by
  (simp only [yCloseEscrowSet]; repeat' split) <;> simp [errAns_fixed, recordQueue_fixed, modSet_fixed, bgStart_fixed, closeCopy_fixed]

theorem execCloseEscrowSet_fixed (p : MbxPort) (payload : List Byte) (s : State) :
    ResFixed (execCloseEscrowSet p payload s) s := by
  simp [execCloseEscrowSet, yciRun_fixed, yCloseEscrowSet_fixed]

theorem yAbandonEscrowSet_fixed (p : MbxPort) (b : List Byte) (s : State) :
    (yAbandonEscrowSet p b s).st.fixed = s.fixed := by
  (simp only [yAbandonEscrowSet]; repeat' split) <;>
    simp [errAns_fixed, bgStart_fixed, recordQueue_fixed, abandonStart_fixed]

theorem execAbandonEscrowSet_fixed (p : MbxPort) (payload : List Byte) (s : State) :
    ResFixed (execAbandonEscrowSet p payload s) s := by
  simp [execAbandonEscrowSet, yciRun_fixed, yAbandonEscrowSet_fixed]

theorem execGetEscrowSet_fixed (p : MbxPort) (payload : List Byte) (s : State) :
    ResFixed (execGetEscrowSet p payload s) s := by
  (simp only [execGetEscrowSet]; repeat' split) <;> ((simp; grind [yciRun_fixed, errAns_fixed, okOut_fixed]))

end Sys2Proof.Machine
end

