-- ==== Sys2Proof/Laws/FixedMover.lean ====
section
/-! SUPPORT. The operations of the mover, package engines, vault and pair keep what `State.fixed` shows: the queue, the board, the
clock, and whether the lifecycle state is RMA. -/

namespace Sys2Proof.Machine

theorem modQueue_fixed (q : Nat) (f : Queue → Queue) (s : State) :
    (modQueue q f s).fixed = s.fixed := by
  (simp only [modQueue]; repeat' split) <;> simp

theorem modEngine_fixed (e : Nat) (f : Engine → Engine) (s : State) :
    (modEngine e f s).fixed = s.fixed := by
  simp [modEngine]

theorem queueDelete_fixed (q : Nat) (s : State) :
    (queueDelete q s).fixed = s.fixed := by
  simp [queueDelete]

theorem queuesDelete_fixed (p : Queue → Bool) (s : State) :
    (queuesDelete p s).fixed = s.fixed := by
  simp [queuesDelete, queueDelete_fixed, forEach_fixed]

theorem modDesc_fixed (q : Nat) (idx : Nat) (f : Desc → Desc) (s : State) :
    (modDesc q idx f s).fixed = s.fixed := by
  simp [modDesc, modQueue_fixed]

theorem progressNote_fixed (q : Nat) (s : State) :
    (progressNote q s).fixed = s.fixed := by
  (simp only [progressNote]; repeat' split) <;> simp [modEngine_fixed]

theorem descEnd_fixed (q : Nat) (idx : Nat) (status : Nat) (detail : Nat) (result : Nat) (s : State) :
    (descEnd q idx status detail result s).fixed = s.fixed := by
  simp [descEnd, modDesc_fixed, progressNote_fixed]

theorem turnTake_fixed (q : Nat) (x : Queue) (s : State) :
    (turnTake q x s).fixed = s.fixed := by
  simp [turnTake, modEngine_fixed]

theorem startCheck_fixed (x : Queue) (d : Desc) (s : State) :
    ∀ y, startCheck x d s = some y → y.2.2.fixed = s.fixed := by
  (simp only [startCheck]; repeat' split) <;> first | (simp; done) | (simp; grind [accessFault_fixed])

theorem changedNow_fixed (x : Queue) (d : Desc) (s : State) : ∀ y, changedNow x d s = some y → y.2.fixed = s.fixed := by
  unfold changedNow
  repeat' split
  all_goals first | (simp; done) | (simp; grind [accessFault_fixed])

theorem descRun_fixed (q : Nat) (idx : Nat) (op : Nat) (s : State) :
    (∀ t, descRun q idx op s = .error t → t.fixed = s.fixed) ∧ ∀ y, descRun q idx op s = .ok y → y.2.2.fixed = s.fixed := by
  have h := fun x d s y => startCheck_fixed x d s y
  have h2 := fun x d s y => changedNow_fixed x d s y
  simp only [descRun]
  repeat' split
  all_goals simp [descEnd_fixed, modDesc_fixed, progressNote_fixed, turnTake_fixed]
  all_goals grind [turnTake_fixed]

theorem moverSnoops_fixed (own : Bool) (l : Nat) (x2 : List Nat) (x3 : State) :
    (moverSnoops own l x2 x3).2.fixed = x3.fixed := by
  induction x2 generalizing x3 with
  | nil => rfl
  | cons i r ih =>
    simp [moverSnoops, ih, snoopNeed_fixed]

theorem moverForward_fixed (write : Bool) (key : Nat) (sector : Nat) (d : Sector) (s : State) :
    (moverForward write key sector d s).2.fixed = s.fixed := by
  simp [moverForward, send_fixed, bump_fixed]

theorem forwardReady_fixed (key : Nat) (l : Nat) (x2 : List Nat) (x3 : State) :
    (forwardReady key l x2 x3).2.fixed = x3.fixed := by
  induction x2 generalizing x3 with
  | nil => rfl
  | cons i r ih =>
    simp only [forwardReady, ih]; split <;> simp [moverForward_fixed]

theorem readReady_fixed (key l : Nat) (secs : List Nat) (s : State) :
    (readReady key l secs s).2.fixed = s.fixed := by
  unfold readReady
  repeat' split
  all_goals grind [forwardReady_fixed, slotCheck_fixed, moverSnoops_fixed, takeReady_fixed, State.modPur_fixed, State.modMed_fixed, State.modLed_fixed, State.modCry_fixed, State.modFe_fixed, State.modInteg_fixed]

theorem moverReadCount_fixed (key : Nat) (cls : List Nat) (s : State) :
    (moverReadCount key cls s).fixed = s.fixed := by
  simp [moverReadCount, takeFree_fixed, histRead_fixed, ite_fixed]

theorem forwardTake_fixed (l : Nat) (i : Nat) (s : State) :
    (forwardTake l i s).2.fixed = s.fixed := by
  simp [forwardTake]

theorem forwardTakes_fixed (l : Nat) (x1 : List Nat) (x2 : State) :
    (forwardTakes l x1 x2).2.fixed = x2.fixed := by
  induction x1 generalizing x2 with
  | nil => rfl
  | cons i r ih =>
    simp [forwardTakes, ih, forwardTake_fixed]

theorem moverRead_fixed (key l : Nat) (secs : List Nat) (s : State) :
    (moverRead key l secs s).2.fixed = s.fixed := by
  (simp only [moverRead]; repeat' split) <;> simp [raiseMs_fixed, forwardTakes_fixed, takeBase_fixed, countHostRead_fixed, moverReadCount_fixed, ok_fixed, poisonReturn_fixed]

theorem writeReady_fixed (l : Nat) (secs : List Nat) (s : State) :
    (writeReady l secs s).2.fixed = s.fixed := by
  unfold writeReady
  repeat' split
  all_goals grind [recoinStart_fixed, slotCheck_fixed, moverSnoops_fixed, takeReady_fixed, State.modPur_fixed, State.modMed_fixed, State.modLed_fixed, State.modCry_fixed, State.modFe_fixed, State.modInteg_fixed]

theorem discardNote_fixed (l : Nat) (key : Nat) (s : State) :
    (discardNote l key s).fixed = s.fixed := by
  simp [discardNote, raise_fixed, rinc_fixed, writeDiscarded_fixed, ite_fixed]

theorem writeWhole_fixed (q : Nat) (key : Nat) (l : Nat) (d : Line) (poison : Bool) (claim : Bool) (s : State) :
    (writeWhole q key l d poison claim s).2.fixed = s.fixed := by
  (simp only [writeWhole]; repeat' split) <;>
    ((simp [sliceCount_fixed, placeDirty_fixed, poisonListDrop_fixed, resvWrite_fixed, toOverdraft_fixed,
            mirrorHook_fixed, forEach_fixed]; grind [encLine_fixed, sliceCount_fixed, placeDirty_fixed,
            poisonListDrop_fixed, resvWrite_fixed, toOverdraft_fixed, mirrorHook_fixed]))

theorem writePart_fixed (q : Nat) (key : Nat) (l : Nat) (en : BitVec 64) (poison : Bool) (x5 : List (Nat × Sector)) (x6
    : State) :
    (writePart q key l en poison x5 x6).2.fixed = x6.fixed := by
  induction x5 generalizing x6 with
  | nil => rfl
  | cons e r ih =>
    obtain ⟨i, d⟩ := e
    simp only [writePart]
    split <;> simp [ih, writeBy_fixed, takeBase_fixed]

theorem forwardWrites_fixed (key : Nat) (l : Nat) (x2 : List (Nat × Sector)) (x3 : State) :
    (forwardWrites key l x2 x3).2.fixed = x3.fixed := by
  induction x2 generalizing x3 with
  | nil => rfl
  | cons e r ih =>
    obtain ⟨i, d⟩ := e
    simp [forwardWrites, ih, moverForward_fixed]

theorem moverWrite_fixed (q key l : Nat) (xs : List (Nat × Sector)) (poison claim : Bool) (s : State) :
    (moverWrite q key l xs poison claim s).2.fixed = s.fixed := by
  (simp only [moverWrite]; repeat' split) <;> simp [forwardWrites_fixed, discardNote_fixed, ringSnoop_fixed, ok_fixed, writeWhole_fixed, writePart_fixed]

theorem srcReady_fixed (set : Option Nat) (key : Nat) (x2 : List (Nat × List Nat)) (x3 : State) :
    (srcReady set key x2 x3).2.fixed = x3.fixed := by
  induction x2 generalizing x3 with
  | nil => rfl
  | cons e r ih =>
    obtain ⟨l, secs⟩ := e
    simp only [srcReady, ih]
    repeat' split
    all_goals simp [readReady_fixed]

theorem stagedRead_fixed (n : Nat) (key : Nat) (l : Nat) (secs : List Nat) (s : State) :
    (stagedRead n key l secs s).2.fixed = s.fixed := by
  (simp only [stagedRead]; repeat' split) <;> simp [moverRead_fixed]

theorem srcRead_fixed (set : Option Nat) (key : Nat) (x2 : List (Nat × List Nat)) (x3 : State) :
    (srcRead set key x2 x3).2.fixed = x3.fixed := by
  induction x2 generalizing x3 with
  | nil => rfl
  | cons e r ih =>
    obtain ⟨l, secs⟩ := e
    simp only [srcRead, ih]; split <;> simp [stagedRead_fixed, moverRead_fixed]

theorem engineCount_fixed (q : Nat) (k : Nat) (n : Nat) (s : State) :
    (engineCount q k n s).fixed = s.fixed := by
  (simp only [engineCount]; repeat' split) <;> simp [bump_fixed]

theorem linesWritten_fixed (q : Nat) (s : State) :
    (linesWritten q s).fixed = s.fixed := by
  simp [linesWritten, engineCount_fixed, modQueue_fixed]

theorem hostMoved_fixed (q : Nat) (n : Nat) (s : State) :
    (hostMoved q n s).fixed = s.fixed := by
  simp [hostMoved, engineCount_fixed, modQueue_fixed]

theorem descStep_fixed (q : Nat) (idx : Nat) (n : Nat) (poisoned : Nat) (discarded : Nat) (waits : List Nat) (s : State)
    :
    (descStep q idx n poisoned discarded waits s).fixed = s.fixed := by
  simp [descStep, modDesc_fixed, progressNote_fixed]

theorem segWrite_fixed (q : Nat) (idx : Nat) (d : Desc) (n : Nat) (xs : List Sector) (poison : Bool) (claim : Bool) (s :
    State) :
    (segWrite q idx d n xs poison claim s).2.fixed = s.fixed := by
  (simp only [segWrite]; repeat' split) <;>
    ((simp [linesWritten_fixed, descStep_fixed, descEnd_fixed]; grind [stageWrite_fixed, linesWritten_fixed,
            descStep_fixed, descEnd_fixed, moverWrite_fixed]))

theorem dstReady_fixed (d : Desc) (n : Nat) (s : State) :
    (dstReady d n s).2.fixed = s.fixed := by
  (simp only [dstReady]; repeat' split) <;> simp [writeReady_fixed]

theorem hostFetch_fixed (q addr n : Nat) (s : State) :
    (hostFetch q addr n s).fixed = s.fixed := by
  (simp only [hostFetch]; repeat' split) <;> simp [send_fixed]

theorem stageLines_fixed (q : Nat) (src : List (Nat × List Nat)) (s : State) :
    (stageLines q src s).fixed = s.fixed := by
  (simp only [stageLines]; repeat' split) <;> simp [forEach_fixed, stageCopy_fixed, ringSnoop_fixed, forEach_fixed]

theorem copySeg_fixed (q idx left : Nat) (host : List Sector) (s : State) :
    (copySeg q idx left host s).2.fixed = s.fixed := by
  (simp only [copySeg]; repeat' split) <;> simp [hostFetch_fixed, srcReady_fixed, dstReady_fixed, srcRead_fixed, stageLines_fixed, engineCount_fixed, hostMoved_fixed, segWrite_fixed, descStep_fixed, send_fixed]

theorem fillSeg_fixed (q : Nat) (idx : Nat) (left : Nat) (x3 : List Sector) (s : State) :
    (fillSeg q idx left x3 s).2.fixed = s.fixed := by
  (simp only [fillSeg]; repeat' split) <;> simp [dstReady_fixed, segWrite_fixed]

theorem prefetchSeg_fixed (q : Nat) (idx : Nat) (left : Nat) (x3 : List Sector) (s : State) :
    (prefetchSeg q idx left x3 s).2.fixed = s.fixed := by
  (simp only [prefetchSeg]; repeat' split) <;> simp [prefetchQueue_fixed, descStep_fixed]

theorem runSegs_fixed (seg : Nat → List Sector → State → Nat × State) (x1 : Nat) (x2 : Nat) (x3 : List Sector) (x4 :
    State) (hseg : ∀ y0 y1 s, (seg y0 y1 s).2.fixed = s.fixed) :
    (runSegs seg x1 x2 x3 x4).fixed = x4.fixed := by
  ((induction x1 generalizing x2 x3 x4 <;> simp only [runSegs] <;> repeat' split) <;> first
    | (simp_all; done)
    | grind [hseg])

theorem rangeEnd_fixed (q : Nat) (idx : Nat) (s : State) :
    (rangeEnd q idx s).fixed = s.fixed := by
  (simp only [rangeEnd]; repeat' split) <;> simp [descEnd_fixed, raise_fixed]

theorem moveRun_fixed (op : Nat) (q : Nat) (idx : Nat) (units : Nat) (host : List Sector) (seg : Nat → Nat → Nat → List
    Sector → State → Nat × State) (s : State) (hseg : ∀ y0 y1 y2 y3 s, (seg y0 y1 y2 y3 s).2.fixed = s.fixed) :
    (moveRun op q idx units host seg s).fixed = s.fixed := by
  have h := descRun_fixed q idx op s
  simp only [moveRun]
  split
  · exact h.1 _ ‹_›
  · rw [rangeEnd_fixed, runSegs_fixed _ _ _ _ _ fun _ _ s => hseg _ _ _ _ s]; exact h.2 _ ‹_›

theorem execCopy_fixed (q : Nat) (idx : Nat) (units : Nat) (hostData : List Sector) (s : State) :
    ResFixed (execCopy q idx units hostData s) s := by
  simp [execCopy, moveRun_fixed, copySeg_fixed]

theorem execFill_fixed (q : Nat) (idx : Nat) (units : Nat) (s : State) :
    ResFixed (execFill q idx units s) s := by
  simp [execFill, moveRun_fixed, fillSeg_fixed]

theorem execZero_fixed (q : Nat) (idx : Nat) (units : Nat) (s : State) :
    ResFixed (execZero q idx units s) s := by
  simp [execZero, moveRun_fixed, fillSeg_fixed]

theorem execPrefetch_fixed (q : Nat) (idx : Nat) (units : Nat) (s : State) :
    ResFixed (execPrefetch q idx units s) s := by
  simp [execPrefetch, moveRun_fixed, prefetchSeg_fixed]

theorem execClean_fixed (q : Nat) (idx : Nat) (s : State) :
    ResFixed (execClean q idx s) s := by
  have h := fun o => descRun_fixed q idx o s
  simp only [execClean]
  split
  · rw [ResFixed_next]; exact (h _).1 _ ‹_›
  · have h2 := (h _).2 _ ‹_›
    repeat' split
    all_goals simp_all [descRun_fixed, descEnd_fixed, modDesc_fixed]

theorem execFence_fixed (q : Nat) (idx : Nat) (s : State) :
    ResFixed (execFence q idx s) s := by
  have h := fun o => descRun_fixed q idx o s
  simp only [execFence]
  split
  · rw [ResFixed_next]; exact (h _).1 _ ‹_›
  · have h2 := (h _).2 _ ‹_›
    repeat' split
    all_goals simp_all [descRun_fixed, descEnd_fixed]

theorem execTimestamp_fixed (q : Nat) (idx : Nat) (s : State) :
    ResFixed (execTimestamp q idx s) s := by
  have h := fun o => descRun_fixed q idx o s
  simp only [execTimestamp]
  split
  · rw [ResFixed_next]; exact (h _).1 _ ‹_›
  · have h2 := (h _).2 _ ‹_›
    repeat' split
    all_goals simp_all [descRun_fixed, descEnd_fixed]

theorem resvPlace_fixed (q : Nat) (l : Nat) (senior : Bool) (s : State) :
    (resvPlace q l senior s).fixed = s.fixed := by
  (simp only [resvPlace]; repeat' split) <;> simp [resvLose_fixed]

theorem execReserveLoad_fixed (q : Nat) (idx : Nat) (s : State) :
    ResFixed (execReserveLoad q idx s) s := by
  have h := fun o => descRun_fixed q idx o s
  simp only [execReserveLoad]
  split
  · rw [ResFixed_next]; exact (h _).1 _ ‹_›
  · have h2 := (h _).2 _ ‹_›
    repeat' split
    all_goals simp_all [descRun_fixed, readReady_fixed, moverRead_fixed, stageLines_fixed, engineCount_fixed, resvPlace_fixed,
            modQueue_fixed, descEnd_fixed, takeFree_fixed]

theorem loopNote_fixed (q : Nat) (idx : Nat) (d : Desc) (failed : Bool) (s : State) :
    (loopNote q idx d failed s).fixed = s.fixed := by
  simp [loopNote, modQueue_fixed]

theorem storeEnd_fixed (q : Nat) (idx : Nat) (status : Nat) (detail : Nat) (d : Desc) (result : Nat) (s : State) :
    (storeEnd q idx status detail d result s).fixed = s.fixed := by
  simp [storeEnd, rinc_fixed, loopNote_fixed, descEnd_fixed, modQueue_fixed, ite_fixed]

theorem execCondStore_fixed (q : Nat) (idx : Nat) (s : State) :
    ResFixed (execCondStore q idx s) s := by
  have h := fun o => descRun_fixed q idx o s
  simp only [execCondStore]
  split
  · rw [ResFixed_next]; exact (h _).1 _ ‹_›
  · have h2 := (h _).2 _ ‹_›
    repeat' split
    all_goals simp_all [descRun_fixed, descEnd_fixed, writeReady_fixed, storeEnd_fixed, moverForward_fixed,
            descStep_fixed, discardNote_fixed, takeBase_fixed, ringSnoop_fixed, writeBy_fixed, linesWritten_fixed]

theorem cqFullNote_fixed (q : Nat) (x : Queue) (s : State) :
    (cqFullNote q x s).fixed = s.fixed := by
  simp [cqFullNote, raise_fixed, modQueue_fixed, ite_fixed]

theorem execDescriptorFetch_fixed (q : Nat) (entries : List (BitVec 512)) (s : State) :
    ResFixed (execDescriptorFetch q entries s) s := by
  (simp only [execDescriptorFetch]; repeat' split) <;>
    simp [cqFullNote_fixed, modEngine_fixed, send_fixed, modQueue_fixed]

theorem drainDeleted_fixed (q : Nat) (s : State) :
    (drainDeleted q s).fixed = s.fixed := by
  unfold drainDeleted
  split
  · rfl
  split
  · refine (forEach_fixed _ _ _ fun p s => ?_).trans (queueDelete_fixed q s)
    repeat' split
    all_goals simp [mbxAnswer_fixed]
  · rfl

theorem completionWrite_fixed (q : Nat) (x : Queue) (d : Desc) (s : State) :
    (completionWrite q x d s).fixed = s.fixed := by
  simp [completionWrite, send_fixed, modQueue_fixed, rinc_fixed, bump_fixed, notifyVec_fixed, drainDeleted_fixed,
          ite_fixed]

theorem execCompletionEntryWrite_fixed (q : Nat) (idx : Nat) (s : State) :
    ResFixed (execCompletionEntryWrite q idx s) s := by
  (simp only [execCompletionEntryWrite]; repeat' split) <;> simp [completionWrite_fixed]

theorem hostErrorOp_fixed (q : Nat) (idx : Nat) (side : HostSide) (detail : Nat) (s : State) :
    (hostErrorOp q idx side detail s).fixed = s.fixed := by
  (simp only [hostErrorOp]; repeat' split) <;> simp [raise_fixed, modQueue_fixed, descEnd_fixed]

theorem execHostError_fixed (q : Nat) (idx : Nat) (side : HostSide) (detail : BitVec 8) (s : State) :
    ResFixed (execHostError q idx side detail s) s := by
  simp [execHostError, hostErrorOp_fixed]

theorem execReqTimeout_fixed (q : Nat) (idx : Nat) (side : HostSide) (s : State) :
    ResFixed (execReqTimeout q idx side s) s := by
  (simp only [execReqTimeout]; repeat' split) <;> simp [raise_fixed, hostErrorOp_fixed]

theorem doorbellBad_fixed (q : Nat) (x : Queue) (s : State) :
    (doorbellBad q x s).fixed = s.fixed := by
  simp [doorbellBad, raise_fixed, modQueue_fixed]

theorem sqTailOp_fixed (h : Head) (q : Nat) (v : BitVec 32) (s : State) :
    (sqTailOp h q v s).fixed = s.fixed := by
  (simp only [sqTailOp]; repeat' split) <;> simp [doorbellBad_fixed, modQueue_fixed]

theorem regSqTailDoorbell_fixed (h : Head) (q : Nat) (value : BitVec 32) (s : State) :
    ResFixed (regSqTailDoorbell h q value s) s := by
  simp [regSqTailDoorbell, sqTailOp_fixed]

theorem cqHeadOp_fixed (h : Head) (q : Nat) (v : BitVec 32) (s : State) :
    (cqHeadOp h q v s).fixed = s.fixed := by
  (simp only [cqHeadOp]; repeat' split) <;> simp [doorbellBad_fixed, modQueue_fixed]

theorem regCqHeadDoorbell_fixed (h : Head) (q : Nat) (value : BitVec 32) (s : State) :
    ResFixed (regCqHeadDoorbell h q value s) s := by
  simp [regCqHeadDoorbell, cqHeadOp_fixed]

theorem regGateOpen_fixed (h : Head) (q : Nat) (s : State) :
    ResFixed (regGateOpen h q s) s := by
  simp [regGateOpen, modQueue_fixed, ite_fixed]

theorem regGateClose_fixed (h : Head) (q : Nat) (s : State) :
    ResFixed (regGateClose h q s) s := by
  simp [regGateClose, modQueue_fixed, ite_fixed]

theorem regMovCntClear_fixed (x0 : Head) (s : State) :
    ResFixed (regMovCntClear x0 s) s := by
  simp [regMovCntClear, rset_fixed, forEach_fixed]

theorem queueRebind_fixed (q : Nat) (s : State) :
    (queueRebind q s).fixed = s.fixed := by
  (simp only [queueRebind]; repeat' split) <;> simp [modQueue_fixed, resvLose_fixed, bump_fixed, rinc_fixed, rbit_fixed]

theorem engineReinitOp_fixed (e : Nat) (s : State) :
    (engineReinitOp e s).fixed = s.fixed := by
  simp [engineReinitOp, raise_fixed, reinitStart_fixed, modEngine_fixed, queueRebind_fixed, ite_fixed, forEach_fixed]

theorem execEngineReinit_fixed (e : Nat) (fault : Bool) (s : State) :
    ResFixed (execEngineReinit e fault s) s := by
  simp [execEngineReinit, engineReinitOp_fixed, ite_fixed]

theorem engineDoneOp_fixed (e : Nat) (ok : Bool) (s : State) :
    (engineDoneOp e ok s).fixed = s.fixed := by
  simp [engineDoneOp, modEngine_fixed, raise_fixed, rbit_fixed, ite_fixed]

theorem engineFreed_fixed (e : Nat) (s : State) :
    (engineFreed e s).fixed = s.fixed := by
  simp [engineFreed, ite_fixed]

theorem execEngineReinitDone_fixed (e : Nat) (ok : Bool) (s : State) :
    ResFixed (execEngineReinitDone e ok s) s := by
  simp [execEngineReinitDone, engineFreed_fixed, engineDoneOp_fixed]

theorem yCreateQueuePair_fixed (p : MbxPort) (b : List Byte) (s : State) :
    (yCreateQueuePair p b s).st.fixed = s.fixed := by
  (simp only [yCreateQueuePair]; repeat' split) <;> simp [errAns_fixed, ok_fixed]

theorem execCreateQueuePair_fixed (p : MbxPort) (payload : List Byte) (s : State) :
    ResFixed (execCreateQueuePair p payload s) s := by
  simp [execCreateQueuePair, yciRun_fixed, yCreateQueuePair_fixed]

theorem abortOne_fixed (q : Nat) (d : Desc) (s : State) :
    (abortOne q d s).fixed = s.fixed := by
  (simp only [abortOne]; repeat' split) <;> simp [completionWrite_fixed]

theorem abortAll_fixed (q : Nat) (s : State) :
    (abortAll q s).fixed = s.fixed := by
  (simp only [abortAll]; repeat' split) <;> simp [modQueue_fixed, abortOne_fixed, forEach_fixed]

theorem yDeleteQueuePair_fixed (p : MbxPort) (b : List Byte) (s : State) :
    (yDeleteQueuePair p b s).st.fixed = s.fixed := by
  (simp only [yDeleteQueuePair]; repeat' split) <;>
    simp [errAns_fixed, ok_fixed, queueDelete_fixed, abortAll_fixed, modMbx_fixed, modQueue_fixed]

theorem execDeleteQueuePairDrain_fixed (p : MbxPort) (payload : List Byte) (s : State) :
    ResFixed (execDeleteQueuePairDrain p payload s) s := by
  simp [execDeleteQueuePairDrain, yciRun_fixed, yDeleteQueuePair_fixed]

theorem execDeleteQueuePairAbort_fixed (p : MbxPort) (payload : List Byte) (s : State) :
    ResFixed (execDeleteQueuePairAbort p payload s) s := by
  simp [execDeleteQueuePairAbort, yciRun_fixed, yDeleteQueuePair_fixed]

theorem ySetQueueGrants_fixed (p : MbxPort) (b : List Byte) (s : State) :
    (ySetQueueGrants p b s).st.fixed = s.fixed := by
  (simp only [ySetQueueGrants]; repeat' split) <;> simp [errAns_fixed, ok_fixed, modQueue_fixed]

theorem execSetQueueGrants_fixed (p : MbxPort) (payload : List Byte) (s : State) :
    ResFixed (execSetQueueGrants p payload s) s := by
  simp [execSetQueueGrants, yciRun_fixed, ySetQueueGrants_fixed]

theorem yReinitEngine_fixed (p : MbxPort) (b : List Byte) (s : State) :
    (yReinitEngine p b s).st.fixed = s.fixed := by
  (simp only [yReinitEngine]; repeat' split) <;> simp [errAns_fixed, ok_fixed, engineReinitOp_fixed]

theorem execReinitMoverEngine_fixed (p : MbxPort) (payload : List Byte) (s : State) :
    ResFixed (execReinitMoverEngine p payload s) s := by
  simp [execReinitMoverEngine, yciRun_fixed, yReinitEngine_fixed]

theorem yGetQueueInfo_fixed (p : MbxPort) (b : List Byte) (s : State) :
    (yGetQueueInfo p b s).st.fixed = s.fixed := by
  (simp only [yGetQueueInfo]; repeat' split) <;> simp [errAns_fixed, okOut_fixed]

theorem execGetQueueInfo_fixed (p : MbxPort) (payload : List Byte) (s : State) :
    ResFixed (execGetQueueInfo p payload s) s := by
  simp [execGetQueueInfo, yciRun_fixed, yGetQueueInfo_fixed]

theorem pkgRefuse_fixed (q : Nat) (idx : Nat) (st : Nat) (done : Nat) (s : State) :
    (pkgRefuse q idx st done s).fixed = s.fixed := by
  simp [pkgRefuse, raise_fixed, rbit_fixed, rinc_fixed, descEnd_fixed, ite_fixed]

theorem execImportChunk_fixed (q : Nat) (idx : Nat) (chunk : List Byte) (hostPoison : Bool) (s : State) :
    ResFixed (execImportChunk q idx chunk hostPoison s) s := by
  have h := descRun_fixed q idx 4 s
  simp only [execImportChunk]
  split
  · rw [ResFixed_next]; exact h.1 _ ‹_›
  · have h2 := h.2 _ ‹_›
    repeat' split
    all_goals simp_all [pkgRefuse_fixed, hostMoved_fixed, hostFetch_fixed]

theorem chunkLine_fixed (c : Chunk) (l : Nat) (d : Line) (s : State) :
    (chunkLine c l d s).2.fixed = s.fixed := by
  (simp only [chunkLine]; repeat' split) <;>
    ((simp [linesWritten_fixed, descStep_fixed, pkgRefuse_fixed]; grind [stageWrite_fixed, linesWritten_fixed,
            descStep_fixed, pkgRefuse_fixed, writeReady_fixed, moverWrite_fixed]))

theorem chunkLineFault_fixed (x : Queue) (c : Chunk) (l : Nat) (s : State) :
    (chunkLineFault x c l s).2.fixed = s.fixed := by
  unfold chunkLineFault
  dsimp only
  generalize (if provisioned (ent s (folioOf l)) = true then accessCheck s c.key none (ent s (folioOf l)) else none) = w
  cases w <;> (repeat' split) <;> simp_all [accessFault_fixed]

theorem chunkLines_fixed (c : Chunk) (x1 : List Line) (x2 : State) :
    (chunkLines c x1 x2).fixed = x2.fixed := by
  induction x1 generalizing x2 with
  | nil => rfl
  | cons d r ih =>
    simp only [chunkLines]
    repeat' split
    all_goals simp [ih, pkgRefuse_fixed, chunkLine_fixed, chunkLineFault_fixed]

theorem chunkEnd_fixed (c : Chunk) (s : State) :
    (chunkEnd c s).fixed = s.fixed := by
  (simp only [chunkEnd]; repeat' split) <;> simp [rinc_fixed, bump_fixed, descEnd_fixed]

theorem execChunkVerified_fixed (e : Nat) (s : State) :
    ResFixed (execChunkVerified e s) s := by
  (simp only [execChunkVerified]; repeat' split) <;>
    simp [pkgRefuse_fixed, raise_fixed, chunkEnd_fixed, chunkLines_fixed]

theorem execExportChunk_fixed (q : Nat) (idx : Nat) (s : State) :
    ResFixed (execExportChunk q idx s) s := by
  have h := descRun_fixed q idx 5 s
  simp only [execExportChunk]
  split
  · rw [ResFixed_next]; exact h.1 _ ‹_›
  · have h2 := h.2 _ ‹_›
    repeat' split
    all_goals simp_all [pkgRefuse_fixed, hostMoved_fixed, descEnd_fixed, tallyAdvance_fixed, raise_fixed, srcReady_fixed,
            srcRead_fixed, stageLines_fixed, engineCount_fixed, descStep_fixed, send_fixed, rinc_fixed, bump_fixed]

theorem modPage_fixed (p : Nat) (f : KeyPage → KeyPage) (s : State) :
    (modPage p f s).fixed = s.fixed := by
  simp [modPage]

theorem domUnload_fixed (k : Nat) (s : State) :
    (domUnload k s).fixed = s.fixed := by
  simp [domUnload, raise_fixed, derivedDrop_fixed, ite_fixed]

theorem pkgUnload_fixed (k : Nat) (s : State) :
    (pkgUnload k s).fixed = s.fixed := by
  simp [pkgUnload, raise_fixed, ite_fixed]

theorem domLoad_fixed (k : Nat) (key : BitVec 256) (s : State) :
    (domLoad k key s).fixed = s.fixed := by
  simp [domLoad, derivedDrop_fixed, recordQueue_fixed, raise_fixed, ite_fixed]

theorem keyCommand_fixed (p : Nat) (load : Bool) (s : State) :
    (keyCommand p load s).fixed = s.fixed := by
  simp [keyCommand, raise_fixed, domLoad_fixed, pkgUnload_fixed, domUnload_fixed, modPage_fixed, ite_fixed]

theorem wordWrite_fixed (off : Nat) (v : BitVec 32) (s : State) :
    (wordWrite off v s).fixed = s.fixed := by
  unfold wordWrite
  extract_lets p r n v1
  simp only [ite_fixed, raise_fixed, modPage_fixed, keyCommand_fixed, ite_self]
  rw [State.modCry_fixed, State.modCry_fixed, State.modCry_fixed]
  simp only [ite_self]

theorem vRegWrite_fixed (q : Nat) (b : List Byte) (s : State) :
    (vRegWrite q b s).st.fixed = s.fixed := by
  (simp only [vRegWrite]; repeat' split) <;> simp [vErr_fixed, raise_fixed, wordWrite_fixed, vOk_fixed, forEach_fixed]

theorem vRegRead_fixed (q : Nat) (b : List Byte) (s : State) :
    (vRegRead q b s).st.fixed = s.fixed := by
  (simp only [vRegRead]; repeat' split) <;> simp [vErr_fixed, vOut_fixed]

theorem execRegWrite_fixed (principal : Nat) (tag : Nat) (payload : List Byte) (s : State) :
    ResFixed (execRegWrite principal tag payload s) s := by
  simp [execRegWrite, vaultRun_fixed, vRegWrite_fixed]

theorem execRegRead_fixed (principal : Nat) (tag : Nat) (payload : List Byte) (s : State) :
    ResFixed (execRegRead principal tag payload s) s := by
  simp [execRegRead, vaultRun_fixed, vRegRead_fixed]

theorem execLoadKey_fixed (principal : Nat) (tag : Nat) (s : State) :
    ResFixed (execLoadKey principal tag s) s := by
  simp [execLoadKey, vaultRun_fixed, vRegWrite_fixed]

theorem execUnloadKey_fixed (principal : Nat) (tag : Nat) (s : State) :
    ResFixed (execUnloadKey principal tag s) s := by
  simp [execUnloadKey, vaultRun_fixed, vRegWrite_fixed]

theorem execLockPage_fixed (principal : Nat) (tag : Nat) (s : State) :
    ResFixed (execLockPage principal tag s) s := by
  simp [execLockPage, vaultRun_fixed, vRegWrite_fixed]

theorem vaultAnswer_fixed (v : Nat) (st : Nat) (s : State) :
    (vaultAnswer v st s).fixed = s.fixed := by
  simp [vaultAnswer, vaultRespond_fixed, ite_fixed]

theorem policyPut_fixed (k : Nat) (flags : BitVec 8) (s : State) :
    (policyPut k flags s).fixed = s.fixed := by
  simp [policyPut, raise_fixed]

theorem vSetPolicy_fixed (tag : Nat) (q : Nat) (b : List Byte) (s : State) :
    (vSetPolicy tag q b s).st.fixed = s.fixed := by
  (simp only [vSetPolicy]; repeat' split) <;> simp [vErr_fixed, raise_fixed, pageQueue_fixed]

theorem execSetPolicy_fixed (principal : Nat) (tag : Nat) (payload : List Byte) (s : State) :
    ResFixed (execSetPolicy principal tag payload s) s := by
  simp [execSetPolicy, vaultRun_fixed, vSetPolicy_fixed]

theorem vGetPolicy_fixed (x0 : Nat) (b : List Byte) (s : State) :
    (vGetPolicy x0 b s).st.fixed = s.fixed := by
  (simp only [vGetPolicy]; repeat' split) <;> simp [vErr_fixed, vOut_fixed]

theorem execGetPolicy_fixed (principal : Nat) (tag : Nat) (payload : List Byte) (s : State) :
    ResFixed (execGetPolicy principal tag payload s) s := by
  simp [execGetPolicy, vaultRun_fixed, vGetPolicy_fixed]

theorem treeTake_fixed (x0 : Nat) (x1 : State) :
    (treeTake x0 x1).fixed = x1.fixed := by
  induction x0 generalizing x1 with
  | zero => rfl
  | succ n ih =>
    simp only [treeTake]
    split <;> simp [ih, takeFolio_fixed]

theorem rehallmark_fixed (p : Nat → Bool) (s : State) :
    (rehallmark p s).fixed = s.fixed := by
  simp [rehallmark]

theorem windowPut_fixed (v : Nat) (s : State) :
    (windowPut v s).fixed = s.fixed := by
  simp [windowPut, treeTake_fixed, rehallmark_fixed, recordQueue_fixed, ite_fixed]

theorem vSealedWindow_fixed (q : Nat) (b : List Byte) (s : State) :
    (vSealedWindow q b s).st.fixed = s.fixed := by
  (simp only [vSealedWindow]; repeat' split) <;> simp [vErr_fixed, vOk_fixed, raise_fixed, windowPut_fixed]

theorem execSealedWindow_fixed (principal : Nat) (tag : Nat) (payload : List Byte) (s : State) :
    ResFixed (execSealedWindow principal tag payload s) s := by
  simp [execSealedWindow, vaultRun_fixed, vSealedWindow_fixed]

theorem vTreeAction_fixed (q : Nat) (b : List Byte) (s : State) :
    (vTreeAction q b s).st.fixed = s.fixed := by
  (simp only [vTreeAction]; repeat' split) <;> simp [vErr_fixed, vOk_fixed]

theorem execResealNode_fixed (principal : Nat) (tag : Nat) (payload : List Byte) (s : State) :
    ResFixed (execResealNode principal tag payload s) s := by
  simp [execResealNode, vaultRun_fixed, vTreeAction_fixed]

theorem execDiscardNode_fixed (principal : Nat) (tag : Nat) (payload : List Byte) (s : State) :
    ResFixed (execDiscardNode principal tag payload s) s := by
  simp [execDiscardNode, vaultRun_fixed, vTreeAction_fixed]

theorem blockReseal_fixed (b : Nat) (s : State) :
    (blockReseal b s).fixed = s.fixed := by
  simp [blockReseal, parentBump_fixed]

theorem subtreeRebuild_fixed (level : Nat) (n : Nat) (s : State) :
    (subtreeRebuild level n s).fixed = s.fixed := by
  simp [subtreeRebuild, nodeWrite_fixed, forEach_fixed]

theorem execTreeResealed_fixed (s : State) :
    ResFixed (execTreeResealed s) s := by
  (simp only [execTreeResealed]; repeat' split) <;>
    simp [blockReseal_fixed, raise_fixed, subtreeRebuild_fixed, forEach_fixed]

theorem blockDiscard_fixed (b : Nat) (s : State) :
    (blockDiscard b s).fixed = s.fixed := by
  (simp only [blockDiscard]; repeat' split) <;>
    ((simp [blockReseal_fixed]; grind [ctrReinit_fixed, blockReseal_fixed, State.modCry_fixed]))

theorem execTreeDiscarded_fixed (s : State) :
    ResFixed (execTreeDiscarded s) s := by
  (simp only [execTreeDiscarded]; repeat' split) <;>
    simp [jAppend_fixed, blockDiscard_fixed, raise_fixed, subtreeRebuild_fixed, forEach_fixed]

theorem protectRefused_fixed (p : Nat) (s : State) :
    (protectRefused p s).fixed = s.fixed := by
  simp [protectRefused, raise_fixed]

theorem vProtectedWrite_fixed (tag : Nat) (q : Nat) (b : List Byte) (s : State) :
    (vProtectedWrite tag q b s).st.fixed = s.fixed := by
  (simp only [vProtectedWrite]; repeat' split) <;> simp [vErr_fixed, protectRefused_fixed, pageQueue_fixed]

theorem execPbProtectedWrite_fixed (principal : Nat) (tag : Nat) (payload : List Byte) (s : State) :
    ResFixed (execPbProtectedWrite principal tag payload s) s := by
  simp [execPbProtectedWrite, vaultRun_fixed, vProtectedWrite_fixed]

theorem vProtectedRead_fixed (q : Nat) (b : List Byte) (s : State) :
    (vProtectedRead q b s).st.fixed = s.fixed := by
  (simp only [vProtectedRead]; repeat' split) <;> simp [vErr_fixed, vOut_fixed]

theorem execPbProtectedRead_fixed (principal : Nat) (tag : Nat) (payload : List Byte) (s : State) :
    ResFixed (execPbProtectedRead principal tag payload s) s := by
  simp [execPbProtectedRead, vaultRun_fixed, vProtectedRead_fixed]

theorem bpRecheck_fixed (p : Nat) (s : State) :
    (bpRecheck p s).fixed = s.fixed := by
  simp [bpRecheck, vaultAnswer_fixed, protectRefused_fixed, forEach_fixed]

theorem vBlockProtect_fixed (q : Nat) (b : List Byte) (s : State) :
    (vBlockProtect q b s).st.fixed = s.fixed := by
  (simp only [vBlockProtect]; repeat' split) <;>
    simp [vErr_fixed, vOk_fixed, bpRecheck_fixed, raise_fixed, pageQueue_fixed]

theorem execPbBlockProtect_fixed (principal : Nat) (tag : Nat) (payload : List Byte) (s : State) :
    ResFixed (execPbBlockProtect principal tag payload s) s := by
  simp [execPbBlockProtect, vaultRun_fixed, vBlockProtect_fixed]

theorem p0Only_fixed (len : Nat) (body : List Byte → State → VAns) (q : Nat) (b : List Byte) (s : State) (hbody : ∀ y0
    s, (body y0 s).st.fixed = s.fixed) :
    (p0Only len body q b s).st.fixed = s.fixed := by
  (simp only [p0Only]; repeat' split) <;> simp [vErr_fixed, hbody]

theorem execGetLifecycle_fixed (principal : Nat) (tag : Nat) (payload : List Byte) (s : State) :
    ResFixed (execGetLifecycle principal tag payload s) s := by
  (simp only [execGetLifecycle]; repeat' split) <;> ((simp; grind [vaultRun_fixed, vOut_fixed, vErr_fixed]))

theorem vChallenge_fixed (x0 : List Byte) (s : State) :
    (vChallenge x0 s).st.fixed = s.fixed := by
  (simp only [vChallenge]; repeat' split) <;> simp [vErr_fixed, takeRandom_fixed, vOut_fixed]

theorem execDebugChallenge_fixed (principal : Nat) (tag : Nat) (payload : List Byte) (s : State) :
    ResFixed (execDebugChallenge principal tag payload s) s := by
  simp [execDebugChallenge, vaultRun_fixed, p0Only_fixed, vChallenge_fixed]

theorem authCheck_fixed (sig : List Byte) (s : State) :
    (authCheck sig s).2.fixed = s.fixed ∧ ∀ t, (authCheck sig s).1 = some t → t.fixed = s.fixed := by
  simp only [authCheck]
  repeat' split
  all_goals simp [raise_fixed, apply_ite State.fixed]
  all_goals (rw [State.modCtl_fixed, State.modCtl_fixed] <;> rfl)

theorem debugEnter_fixed (s : State) (h : (s.ctl.life == .rma) = false) :
    (debugEnter s).fixed = s.fixed := by
  simp only [debugEnter]
  generalize List.range 128 = r; generalize List.range 64 = r'
  have h1 : (forEach r domUnload (forEach r' pkgUnload s)).fixed = s.fixed := by
    simp [forEach_fixed, domUnload_fixed, pkgUnload_fixed]
  rw [raise_fixed, tallyAdvance_fixed, State.modCtl_fixed', h1]
  rw [rma_of_fixed h1, h]; rfl

theorem vDebugResponse_fixed (b : List Byte) (s : State) :
    (vDebugResponse b s).st.fixed = s.fixed := by
  have h := authCheck_fixed b s
  simp only [vDebugResponse]
  split
  · rfl
  · rename_i hl
    split
    · rename_i heq; rw [heq] at h; exact h.1
    · rename_i t _ heq
      rw [heq] at h
      have h3 := h.2 t rfl
      have h4 : (t.ctl.life == .rma) = false := by
        rw [rma_of_fixed h3]; cases hh : s.ctl.life <;> simp_all
      rw [vOk_fixed, debugEnter_fixed _ h4]; exact h3

theorem execDebugResponse_fixed (principal : Nat) (tag : Nat) (payload : List Byte) (s : State) :
    ResFixed (execDebugResponse principal tag payload s) s := by
  simp [execDebugResponse, vaultRun_fixed, p0Only_fixed, vDebugResponse_fixed]

theorem debugLeave_fixed (s : State) :
    (debugLeave s).fixed = s.fixed := by
  simp only [debugLeave]
  split
  · rfl
  · rw [State.modCry_fixed, State.modCtl_fixed']
    cases hh : s.ctl.life <;> simp_all

theorem execDebugLock_fixed (principal : Nat) (tag : Nat) (payload : List Byte) (s : State) :
    ResFixed (execDebugLock principal tag payload s) s := by
  (simp only [execDebugLock]; repeat' split) <;>
    ((simp; grind [vaultRun_fixed, p0Only_fixed, vErr_fixed, vOk_fixed, debugLeave_fixed]))

theorem execAuthoriseImage_fixed (principal : Nat) (tag : Nat) (payload : List Byte) (s : State) :
    ResFixed (execAuthoriseImage principal tag payload s) s := by
  rw [execAuthoriseImage, ResFixed_next]
  refine vaultRun_fixed _ _ _ _ _ _ fun _ _ s => p0Only_fixed _ _ _ _ _ fun _ s => ?_
  split <;> simp [vErr_fixed, vOk_fixed]

theorem execGetStatus_fixed (principal : Nat) (tag : Nat) (payload : List Byte) (s : State) :
    ResFixed (execGetStatus principal tag payload s) s := by
  (simp only [execGetStatus]; repeat' split) <;> ((simp; grind [vaultRun_fixed, vErr_fixed, vOut_fixed]))

theorem frameErrorOp_fixed (bs : List Byte) (s : State) :
    (frameErrorOp bs s).fixed = s.fixed := by
  (simp only [frameErrorOp]; repeat' split) <;> simp [vaultFlush_fixed, raise_fixed, vaultRespond_fixed]

theorem execFrameError_fixed (bytes : List Byte) (s : State) :
    ResFixed (execFrameError bytes s) s := by
  simp [execFrameError, frameErrorOp_fixed]

theorem execRequestFlushed_fixed (bytes : List Byte) (s : State) :
    ResFixed (execRequestFlushed bytes s) s := by
  simp [execRequestFlushed, vaultFlush_fixed, ite_fixed]

theorem execVaultResponseRead_fixed (whole : Bool) (s : State) :
    ResFixed (execVaultResponseRead whole s) s := by
  simp [execVaultResponseRead, ite_fixed]

theorem execDebugModeSelect_fixed (mode : BitVec 2) (s : State) :
    ResFixed (execDebugModeSelect mode s) s := by
  simp [execDebugModeSelect, ite_fixed]

theorem debugPlain_fixed (g : Target) (wdata : Option Sector) (s : State) :
    (debugPlain g wdata s).fixed = s.fixed := by
  (simp only [debugPlain]; repeat' split) <;> simp [readReady_fixed, moverRead_fixed, ringSnoop_fixed, send_fixed, writeReady_fixed, discardNote_fixed, takeBase_fixed, writeNow_fixed]

theorem execDebugAccess_fixed (hpa : BitVec 64) (wdata : Option Sector) (s : State) :
    ResFixed (execDebugAccess hpa wdata s) s := by
  (simp only [execDebugAccess]; repeat' split) <;> simp [raise_fixed, rbit_fixed, send_fixed, raiseMs_fixed, accessFault_fixed, debugPlain_fixed]

theorem regIceCntClear_fixed (x0 : Head) (s : State) :
    ResFixed (regIceCntClear x0 s) s := by
  simp [regIceCntClear, rset_fixed, forEach_fixed]

theorem yGetDomainInfo_fixed (p : MbxPort) (b : List Byte) (s : State) :
    (yGetDomainInfo p b s).st.fixed = s.fixed := by
  (simp only [yGetDomainInfo]; repeat' split) <;> simp [errAns_fixed, okOut_fixed]

theorem execGetDomainInfo_fixed (p : MbxPort) (payload : List Byte) (s : State) :
    ResFixed (execGetDomainInfo p payload s) s := by
  simp [execGetDomainInfo, yciRun_fixed, yGetDomainInfo_fixed]

theorem execGetSealedWindow_fixed (p : MbxPort) (payload : List Byte) (s : State) :
    ResFixed (execGetSealedWindow p payload s) s := by
  simp [execGetSealedWindow, yciRun_fixed, okOut_fixed]

theorem pairSend_fixed (kind : Nat) (arg : Nat) (d : Sector) (s : State) :
    (pairSend kind arg d s).fixed = s.fixed := by
  simp [pairSend, send_fixed]

theorem pairHeard_fixed (s : State) :
    (pairHeard s).fixed = s.fixed := by
  simp [pairHeard]

theorem pairPhyUp_fixed (s : State) :
    (pairPhyUp s).fixed = s.fixed := by
  simp [pairPhyUp, pairHeard_fixed, ite_fixed]

theorem pairStepFail_fixed (s : State) :
    (pairStepFail s).fixed = s.fixed := by
  simp [pairStepFail]

theorem execPairLinkRetry_fixed (s : State) :
    ResFixed (execPairLinkRetry s) s := by
  (simp only [execPairLinkRetry]; repeat' split) <;> simp

theorem execHello_fixed (peer : PeerHello) (s : State) :
    ResFixed (execHello peer s) s := by
  (simp only [execHello]; repeat' split) <;> simp [pairHeard_fixed, pairSend_fixed, modPort_fixed]

theorem execPairAuthentication_fixed (chainOk : Bool) (s : State) :
    ResFixed (execPairAuthentication chainOk s) s := by
  (simp only [execPairAuthentication]; repeat' split) <;>
    simp [pairHeard_fixed, pairStepFail_fixed, raise_fixed, modPort_fixed]

theorem pairJoin_fixed (auto : Bool) (s : State) :
    (pairJoin auto s).fixed = s.fixed := by
  simp [pairJoin, barrierCheck_fixed, settleStart_fixed, ite_fixed]

theorem execDebtMapExchange_fixed (peer : PeerDebt) (s : State) :
    ResFixed (execDebtMapExchange peer s) s := by
  (simp only [execDebtMapExchange]; repeat' split) <;>
    simp [pairHeard_fixed, pairSend_fixed, pairJoin_fixed, raise_fixed]

theorem execSessionKeyRenewal_fixed (s : State) :
    ResFixed (execSessionKeyRenewal s) s := by
  simp [execSessionKeyRenewal, pairHeard_fixed, ite_fixed]

theorem execPairTagFail_fixed (s : State) :
    ResFixed (execPairTagFail s) s := by
  simp [execPairTagFail, modPort_fixed, ite_fixed]

theorem rxReady_fixed (l i : Nat) (s : State) :
    (rxReady l i s).2.fixed = s.fixed := by
  (simp only [rxReady]; repeat' split) <;> simp [recoinStart_fixed, moverSnoops_fixed, takeReady_fixed]

theorem rxWrite_fixed (key sector : Nat) (d : Sector) (en : BitVec 64) (mirror : Bool) (s : State) :
    (rxWrite key sector d en mirror s).2.fixed = s.fixed := by
  (simp only [rxWrite]; repeat' split) <;> simp [discardNote_fixed, accessFault_fixed, takeBase_fixed, ringSnoop_fixed, writeBy_fixed]

theorem rxAnswer_fixed (n : Nat) (l : Nat) (s : State) :
    (rxAnswer n l s).fixed = s.fixed := by
  simp [rxAnswer, pairSend_fixed, ite_fixed]

theorem rxSettle_fixed (e : MirrorMsg) (s : State) :
    (rxSettle e s).fixed = s.fixed := by
  simp [rxSettle, bump_fixed, ite_fixed]

theorem execMirrorEntry_fixed (e : MirrorMsg) (s : State) :
    ResFixed (execMirrorEntry e s) s := by
  (simp only [execMirrorEntry]; repeat' split) <;>
    simp [rxReady_fixed, rxWrite_fixed, pairHeard_fixed, rxSettle_fixed, rxAnswer_fixed, pairSend_fixed,
            barrierCheck_fixed, settleDone_fixed]

theorem execSettlementInstantZero_fixed (folio : Nat) (s : State) :
    ResFixed (execSettlementInstantZero folio s) s := by
  (simp only [execSettlementInstantZero]; repeat' split) <;>
    simp [pairHeard_fixed, pairSend_fixed, raise_fixed, jAppend_fixed, barrierCheck_fixed, settleDone_fixed, bump_fixed]

theorem settleAnswered_fixed (e : MirrorEntry) (s : State) :
    (settleAnswered e s).fixed = s.fixed := by
  simp [settleAnswered, settleDone_fixed, settleNext_fixed, settleGone_fixed, ite_fixed]

theorem forwardsHostLost_fixed (s : State) :
    (forwardsHostLost s).fixed = s.fixed := by
  simp [forwardsHostLost, forEach_fixed, readDone_fixed, retryAfter_fixed, forEach_fixed, ite_fixed]

theorem forwardMoverLost_fixed (f : Fwd) (s : State) :
    (forwardMoverLost f s).fixed = s.fixed := by
  simp [forwardMoverLost, rxWrite_fixed, debtAdd_fixed, descDrop_fixed, ite_fixed]

theorem settleAbort_fixed (s : State) :
    (settleAbort s).fixed = s.fixed := by
  (simp only [settleAbort]; repeat' split) <;> simp [raise_fixed, rbit_fixed, bgFinish_fixed]

theorem pairLostOp_fixed (result : Nat) (s : State) :
    (pairLostOp result s).fixed = s.fixed := by
  simp [pairLostOp, debtAdd_fixed, settleAbort_fixed, barrierResolve_fixed, forwardMoverLost_fixed,
          forwardsHostLost_fixed, raise_fixed, bump_fixed, rbit_fixed, ite_fixed, forEach_fixed]

theorem splitCheck_fixed (s : State) :
    (splitCheck s).fixed = s.fixed := by
  simp [splitCheck, pairLostOp_fixed, ite_fixed]

theorem execMirrorAck_fixed (seq : Nat) (s : State) :
    ResFixed (execMirrorAck seq s) s := by
  (simp only [execMirrorAck]; repeat' split) <;>
    simp [bump_fixed, pairHeard_fixed, splitCheck_fixed, barrierCheck_fixed, settleAnswered_fixed]

theorem execMirrorRefused_fixed (seq : Nat) (s : State) :
    ResFixed (execMirrorRefused seq s) s := by
  (simp only [execMirrorRefused]; repeat' split) <;>
    simp [pairHeard_fixed, debtAdd_fixed, bump_fixed, rbit_fixed, raise_fixed, splitCheck_fixed, barrierCheck_fixed,
            settleDone_fixed, settleNext_fixed]

theorem regPairBarrier_fixed (_h : Head) (value : BitVec 32) (s : State) :
    ResFixed (regPairBarrier _h value s) s := by
  (simp only [regPairBarrier]; repeat' split) <;> simp [barrierCheck_fixed, barrierResolve_fixed]

theorem execHeartbeat_fixed (s : State) :
    ResFixed (execHeartbeat s) s := by
  simp [execHeartbeat, pairSend_fixed, ite_fixed]

theorem execPairLost_fixed (s : State) :
    ResFixed (execPairLost s) s := by
  simp [execPairLost, pairLostOp_fixed, pairStepFail_fixed, ite_fixed]

theorem execPairTimeSend_fixed (s : State) :
    ResFixed (execPairTimeSend s) s := by
  simp [execPairTimeSend, pairSend_fixed, ite_fixed]

theorem pairLockStep_fixed (e : Int) (s : State) :
    (pairLockStep e s).fixed = s.fixed := by
  simp [pairLockStep, raise_fixed, ite_fixed]

theorem execPairTimeExchange_fixed (lead : BitVec 64) (roundTrip : Nat) (s : State) :
    ResFixed (execPairTimeExchange lead roundTrip s) s := by
  (simp only [execPairTimeExchange]; repeat' split) <;>
    simp [discipline_fixed, pairHeard_fixed, raise_fixed, rbit_fixed, pairLockStep_fixed]

theorem execForwardedAccess_fixed (f : ForwardMsg) (s : State) :
    ResFixed (execForwardedAccess f s) s := by
  (simp only [execForwardedAccess]; repeat' split) <;> simp [rxReady_fixed, rxWrite_fixed, pairHeard_fixed, rxAnswer_fixed, readReady_fixed, pairSend_fixed, accessFault_fixed, raiseMs_fixed, takeBase_fixed, countHostRead_fixed, ringSnoop_fixed, ok_fixed]

theorem execForwardResponse_fixed (id : Nat) (data : Option Sector) (s : State) :
    ResFixed (execForwardResponse id data s) s := by
  unfold execForwardResponse
  repeat' split
  all_goals simp [pairHeard_fixed, descDrop_fixed, forEach_fixed, writeDone_fixed, readDone_fixed, ok_fixed, retryWhere_fixed, retryLine_fixed, forEach_fixed, ite_fixed]

theorem yGetPairStatus_fixed (p : MbxPort) (b : List Byte) (s : State) :
    (yGetPairStatus p b s).st.fixed = s.fixed := by
  (simp only [yGetPairStatus]; repeat' split) <;> simp [errAns_fixed, okOut_fixed]

theorem execGetPairStatus_fixed (p : MbxPort) (payload : List Byte) (s : State) :
    ResFixed (execGetPairStatus p payload s) s := by
  simp [execGetPairStatus, yciRun_fixed, yGetPairStatus_fixed]

theorem ySetPairPolicy_fixed (p : MbxPort) (b : List Byte) (s : State) :
    (ySetPairPolicy p b s).st.fixed = s.fixed := by
  (simp only [ySetPairPolicy]; repeat' split) <;> simp [errAns_fixed, ok_fixed, paramQueue_fixed]

theorem execSetPairPolicy_fixed (p : MbxPort) (payload : List Byte) (s : State) :
    ResFixed (execSetPairPolicy p payload s) s := by
  simp [execSetPairPolicy, yciRun_fixed, ySetPairPolicy_fixed]

theorem yStartSettlement_fixed (p : MbxPort) (b : List Byte) (s : State) :
    (yStartSettlement p b s).st.fixed = s.fixed := by
  (simp only [yStartSettlement]; repeat' split) <;> simp [errAns_fixed, bgStart_fixed, settleStart_fixed]

theorem execStartSettlement_fixed (p : MbxPort) (payload : List Byte) (s : State) :
    ResFixed (execStartSettlement p payload s) s := by
  simp [execStartSettlement, yciRun_fixed, yStartSettlement_fixed]

theorem ySplitPair_fixed (p : MbxPort) (b : List Byte) (s : State) :
    (ySplitPair p b s).st.fixed = s.fixed := by
  (simp only [ySplitPair]; repeat' split) <;> simp [errAns_fixed, ok_fixed, splitCheck_fixed, pairLostOp_fixed]

theorem execSplitPairPlanned_fixed (p : MbxPort) (payload : List Byte) (s : State) :
    ResFixed (execSplitPairPlanned p payload s) s := by
  simp [execSplitPairPlanned, yciRun_fixed, ySplitPair_fixed]

theorem execSplitPairImmediate_fixed (p : MbxPort) (payload : List Byte) (s : State) :
    ResFixed (execSplitPairImmediate p payload s) s := by
  simp [execSplitPairImmediate, yciRun_fixed, ySplitPair_fixed]

end Sys2Proof.Machine
end

