-- ==== Sys2Proof/Laws/FixedSupply.lean ====
section
/-! SUPPORT. The operations of resets, ports, supervision, the mailbox classes and the registers keep what `State.fixed` shows: the queue, the board, the
clock, and whether the lifecycle state is RMA. -/

namespace Sys2Proof.Machine

theorem hdmCfgReset_fixed (flr : Bool) (h : Head) (s : State) :
    (hdmCfgReset flr h s).fixed = s.fixed := by
  simp [hdmCfgReset, rset_fixed, ite_fixed, forEach_fixed]

theorem headRegsReset_fixed (h : Head) (s : State) :
    (headRegsReset h s).fixed = s.fixed := by
  simp [headRegsReset]

theorem headTxnsDrop_fixed (h : Head) (s : State) :
    (headTxnsDrop h s).fixed = s.fixed := by
  simp [headTxnsDrop]

theorem headReset_fixed (flr : Bool) (h : Head) (s : State) :
    (headReset flr h s).fixed = s.fixed := by
  simp [headReset, hdmCfgReset_fixed, queuesDelete_fixed, modPort_fixed, headRegsReset_fixed, headTxnsDrop_fixed,
          reinitStart_fixed, admitWaiting_fixed, raise_fixed, ite_fixed]

theorem linkOff_fixed (h : Head) (s : State) :
    (linkOff h s).fixed = s.fixed := by
  simp [linkOff, modPort_fixed]

theorem linkDownNote_fixed (h : Head) (s : State) :
    (linkDownNote h s).fixed = s.fixed := by
  simp [linkDownNote, raise_fixed, linkOff_fixed, ite_fixed]

theorem rwpReload_fixed (s : State) :
    (rwpReload s).fixed = s.fixed := by
  refine forEach_fixed _ _ _ fun e s => ?_
  split <;> exact rset_fixed _ _ _

theorem tillKeep_fixed (s : State) :
    (tillKeep s).fixed = s.fixed := by
  simp [tillKeep, ringAppend_fixed, setSlot_fixed, meterUpdate_fixed, forEach_fixed]

theorem sboxRestart_fixed (s : State) :
    (sboxRestart s).fixed = s.fixed := by
  simp [sboxRestart, takeRandom_fixed]

theorem heldDiscard_fixed (dom : Nat → Bool) (s : State) :
    (heldDiscard dom s).fixed = s.fixed := by
  simp [heldDiscard, heldLose_fixed]

theorem reset3Begin_fixed (src : Nat) (s : State) :
    (reset3Begin src s).fixed = s.fixed := by
  simp [reset3Begin, pairLostOp_fixed, linkDownNote_fixed, raise_fixed, heldDiscard_fixed, treeFlush_fixed,
          ringTake_fixed, ite_fixed, forEach_fixed]

theorem recSweep_fixed (r : JRec) (s : State) :
    (recSweep r s).fixed = s.fixed := by
  simp [recSweep, sweepDrop_fixed, sweepRemap_fixed, ite_fixed]

theorem appendsDrop_fixed (s : State) :
    (appendsDrop s).fixed = s.fixed := by
  (simp only [appendsDrop]; repeat' split) <;> simp [recSweep_fixed, appendLand_fixed]

theorem rebuildResume_fixed (s : State) :
    (rebuildResume s).fixed = s.fixed := by
  (simp only [rebuildResume]; repeat' split) <;> simp []

theorem reset3Memory_fixed (s : State) :
    (reset3Memory s).fixed = s.fixed := by
  simp [reset3Memory, rebuildResume_fixed, appendsDrop_fixed, ite_fixed]

theorem reset3Front_fixed (s : State) :
    (reset3Front s).fixed = s.fixed := by
  simp only [reset3Front]
  repeat' first
    | with_reducible rfl
    | assumption
    | split
    | with_reducible refine (queuesDelete_fixed _ _ ).trans ?_
    | with_reducible refine (forEach_fixed _ _ _ fun _ _ => ?_).trans ?_
    | with_reducible refine (foldl_fixed _ _ _ fun _ _ => ?_).trans ?_
    | with_reducible refine (State.modCtl_fixed _ _ ?_).trans ?_
  all_goals first
    | (simp [queuesDelete_fixed]; done)
    | grind [queuesDelete_fixed, State.modMov_fixed, State.modFe_fixed, State.modEv_fixed]

theorem fwAtResetRun_fixed (s : State) :
    (fwAtResetRun s).fixed = s.fixed := by
  simp [fwAtResetRun, ite_fixed]

theorem deviceResetOp_fixed (src : Nat) (hold : Bool) (s : State) :
    (deviceResetOp src hold s).fixed = s.fixed := by
  simp [deviceResetOp, reset3Front_fixed, reset3Memory_fixed, tillKeep_fixed, reset3Begin_fixed, sboxRestart_fixed,
          fwAtResetRun_fixed, debugLeave_fixed, ite_fixed]

theorem coreOff_fixed (s : State) :
    (coreOff s).fixed = s.fixed := by
  have h : ∀ (c : Control) , ((if c.life == .debugUnlocked then Life.provisioned else c.life) == .rma) = (c.life == .rma) := by
    intro c; cases c.life <;> rfl
  simp only [coreOff, State.modEv_fixed, State.modPair_fixed]
  rw [State.modCtl_fixed' _ _ (h _)]
  simp only [State.modFe_fixed, State.modMov_fixed, State.modCry_fixed, State.modEsc_fixed, State.modSo_fixed,
          State.modTbs_fixed, State.modPur_fixed, State.modLed_fixed, rebuildResume_fixed, State.modInteg_fixed,
          State.modMed_fixed, State.modIsl_fixed, State.setRegs_fixed]

theorem summaryLoad_fixed (s : State) :
    (summaryLoad s).fixed = s.fixed := by
  (simp only [summaryLoad]; repeat' split) <;> simp

theorem runMarkWrite_fixed (s : State) :
    (runMarkWrite s).fixed = s.fixed := by
  simp [runMarkWrite, recordQueue_fixed, tallyAdvance_fixed, rbit_fixed, ite_fixed]

theorem corePowerUp_fixed (s : State) :
    (corePowerUp s).fixed = s.fixed := by
  unfold corePowerUp
  extract_lets s1 s2 s3
  have h3 : s3.fixed = s.fixed := by simp only [s3, s2, s1, State.modPur_fixed, State.modTbs_fixed, State.modIsl_fixed,
          rwpReload_fixed]
  clear_value s3
  generalize clampBudget s3 _ = cb
  obtain ⟨b, cl⟩ := cb
  dsimp -zeta only
  extract_lets clamped s4 s5 g u1 u2 u3 u4
  have h5 : s5.fixed = s.fixed := by
    simp only [s5, s4]; split <;> simp only [State.modPur_fixed, rbit_fixed, h3]
  clear_value s5 g
  have h6 := takeRandom_fixed s5
  have h9 : u4.fixed = s.fixed := by
    simp only [u4, u3, u2, State.modEv_fixed, State.modPair_fixed, State.modFe_fixed]
    rw [State.modCtl_fixed _ _ rfl]
    simp only [u1, State.modPur_fixed]
    exact h6.trans h5
  clear_value u4
  rw [fwAtResetRun_fixed, raise_fixed, runMarkWrite_fixed]; exact h9

theorem drainStart_fixed (mode : DrainMode) (cause : Nat) (restart : Bool) (s : State) :
    (drainStart mode cause restart s).fixed = s.fixed := by
  simp [drainStart, forEach_fixed, migStop_fixed, modSo_fixed, forEach_fixed, ite_fixed]

theorem tripStart_fixed (cause : Nat) (s : State) :
    (tripStart cause s).fixed = s.fixed := by
  simp [tripStart, queuesDelete_fixed, drainStart_fixed, debtAdd_fixed, linkOff_fixed, forEach_fixed]

theorem drainFinish_fixed (s : State) :
    (drainFinish s).fixed = s.fixed := by
  simp [drainFinish, writeLanded_fixed, forEach_fixed]

theorem overdraftSpill_fixed (s : State) :
    (overdraftSpill s).fixed = s.fixed := by
  simp [overdraftSpill, forEach_fixed, wearPrograms_fixed, forEach_fixed, ite_fixed]

theorem countersOut_fixed (s : State) :
    (countersOut s).fixed = s.fixed := by
  simp [countersOut, ctrClean_fixed, treeFlush_fixed, ite_fixed, forEach_fixed]

theorem drainRecords_fixed (complete : Bool) (s : State) :
    (drainRecords complete s).fixed = s.fixed := by
  simp [drainRecords, summaryWrite_fixed, pageQueue_fixed]

theorem drainEnd_fixed (cut : Bool) (s : State) :
    (drainEnd cut s).fixed = s.fixed := by
  simp [drainEnd, raise_fixed, drainFinish_fixed, overdraftSpill_fixed, countersOut_fixed, ckptNow_fixed,
          appendsDrop_fixed, drainRecords_fixed, ite_fixed]

theorem linkUpOp_fixed (h : Head) (gts : Nat) (lanes : Nat) (p : Partner) (s : State) :
    (linkUpOp h gts lanes p s).fixed = s.fixed := by
  simp [linkUpOp, raise_fixed, modPort_fixed, ite_fixed]

theorem pairLinkUp_fixed (gts : Nat) (lanes : Nat) (s : State) :
    (pairLinkUp gts lanes s).fixed = s.fixed := by
  simp [pairLinkUp, raise_fixed, pairPhyUp_fixed, modPort_fixed, ite_fixed]

theorem execLinkUp_fixed (h : Head) (rate : Nat) (width : Nat) (partner : Partner) (s : State) :
    ResFixed (execLinkUp h rate width partner s) s := by
  simp [execLinkUp, linkUpOp_fixed, pairLinkUp_fixed, ite_fixed]

theorem execLinkDown_fixed (h : Head) (s : State) :
    ResFixed (execLinkDown h s) s := by
  simp [execLinkDown, headReset_fixed, linkDownNote_fixed, linkOff_fixed, pairStepFail_fixed, ite_fixed]

theorem execLinkRecovery_fixed (h : Head) (rate : Nat) (s : State) :
    ResFixed (execLinkRecovery h rate s) s := by
  (simp only [execLinkRecovery]; repeat' split) <;> simp [bump_fixed, modPort_fixed, raise_fixed]

theorem execHotReset_fixed (h : Head) (s : State) :
    ResFixed (execHotReset h s) s := by
  simp [execHotReset, headReset_fixed, ite_fixed]

theorem execFunctionLevelReset_fixed (h : Head) (s : State) :
    ResFixed (execFunctionLevelReset h s) s := by
  simp [execFunctionLevelReset, headReset_fixed, ite_fixed]

theorem perstTwo_fixed (h : Head) (s : State) :
    (perstTwo h s).fixed = s.fixed := by
  simp [perstTwo, deviceResetOp_fixed, headReset_fixed, linkDownNote_fixed, ite_fixed]

theorem execPerstAN_fixed (s : State) :
    ResFixed (execPerstAN s) s := by
  simp [execPerstAN, modPort_fixed, perstTwo_fixed, deviceResetOp_fixed, ite_fixed]

theorem execPerstBN_fixed (s : State) :
    ResFixed (execPerstBN s) s := by
  simp [execPerstBN, modPort_fixed, perstTwo_fixed, ite_fixed]

theorem resetRelease_fixed (s : State) :
    (resetRelease s).fixed = s.fixed := by
  simp [resetRelease, ite_fixed]

theorem execPerstRelease_fixed (h : Head) (s : State) :
    ResFixed (execPerstRelease h s) s := by
  simp [execPerstRelease, resetRelease_fixed, modPort_fixed]

theorem execCxlReset_fixed (h : Head) (s : State) :
    ResFixed (execCxlReset h s) s := by
  (simp only [execCxlReset]; repeat' split) <;> simp [deviceResetOp_fixed]

theorem commitOp_fixed (h : Head) (n : Nat) (r : DecoderReq) (s : State) :
    (commitOp h n r s).fixed = s.fixed := by
  simp [commitOp, modPort_fixed, raise_fixed, rset_fixed, ite_fixed]

theorem execDecoderCommit_fixed (h : Head) (n : Nat) (req : DecoderReq) (s : State) :
    ResFixed (execDecoderCommit h n req s) s := by
  simp [execDecoderCommit, commitOp_fixed, ite_fixed]

theorem execIdeSecure_fixed (h : Head) (x : IdeStream) (s : State) :
    ResFixed (execIdeSecure h x s) s := by
  simp [execIdeSecure, modPort_fixed, raise_fixed, ite_fixed]

theorem execIdeKeyExpiry_fixed (h : Head) (x : IdeStream) (s : State) :
    ResFixed (execIdeKeyExpiry h x s) s := by
  simp [execIdeKeyExpiry, modPort_fixed]

theorem spdmAnswer_fixed (h : Head) (r : SpdmReq) (s : State) :
    (spdmAnswer h r s).fixed = s.fixed := by
  (simp only [spdmAnswer]; repeat' split) <;> simp [send_fixed, takeFree_fixed, raise_fixed, modPort_fixed]

theorem execSpdmRequest_fixed (h : Head) (r : SpdmReq) (s : State) :
    ResFixed (execSpdmRequest h r s) s := by
  simp [execSpdmRequest, spdmAnswer_fixed, ite_fixed]

theorem execDoeRequest_fixed (h : Head) (r : DoeReq) (s : State) :
    ResFixed (execDoeRequest h r s) s := by
  (simp only [execDoeRequest]; repeat' split) <;> simp [send_fixed, spdmAnswer_fixed]

theorem pbaFlush_fixed (h : Head) (s : State) :
    (pbaFlush h s).fixed = s.fixed := by
  simp [pbaFlush, modPort_fixed, send_fixed, incRaw_fixed, ite_fixed, forEach_fixed]

theorem cfgWriteOp_fixed (h : Head) (n : Nat) (v : BitVec 32) (s : State) :
    (cfgWriteOp h n v s).fixed = s.fixed := by
  simp [cfgWriteOp, modPort_fixed, pbaFlush_fixed, ite_fixed]

theorem execConfigRequest_fixed (h : Head) (r : ConfigReq) (s : State) :
    ResFixed (execConfigRequest h r s) s := by
  (simp only [execConfigRequest]; repeat' split) <;> simp [send_fixed, cfgWriteOp_fixed]

theorem modRail_fixed (i : Nat) (f : Rail → Rail) (s : State) :
    (modRail i f s).fixed = s.fixed := by
  simp [modRail]

theorem faultEnter_fixed (s : State) :
    (faultEnter s).fixed = s.fixed := by
  simp [faultEnter, raise_fixed]

theorem onEnter_fixed (s : State) :
    (onEnter s).fixed = s.fixed := by
  simp [onEnter, raise_fixed, corePowerUp_fixed]

theorem railOn_fixed (i : Nat) (s : State) :
    (railOn i s).fixed = s.fixed := by
  simp [railOn, modRail_fixed]

theorem railRise_fixed (i : Nat) (s : State) :
    (railRise i s).fixed = s.fixed := by
  simp [railRise, railOn_fixed, modRail_fixed, ite_fixed]

theorem upAdvance_fixed (s : State) :
    (upAdvance s).fixed = s.fixed := by
  simp [upAdvance, railRise_fixed, onEnter_fixed, ite_fixed, forEach_fixed]

theorem upSample_fixed (s : State) :
    (upSample s).fixed = s.fixed := by
  simp [upSample]

theorem upEnter_fixed (cycle : Bool) (s : State) :
    (upEnter cycle s).fixed = s.fixed := by
  (simp only [upEnter]; repeat' split) <;> simp [upSample_fixed, faultEnter_fixed, upAdvance_fixed]

theorem upAsk_fixed (s : State) :
    (upAsk s).fixed = s.fixed := by
  simp [upAsk, upEnter_fixed, ite_fixed]

theorem downDone_fixed (s : State) :
    (downDone s).fixed = s.fixed := by
  (simp only [downDone]; repeat' split) <;> simp [faultEnter_fixed]

theorem railOff_fixed (i : Nat) (s : State) :
    (railOff i s).fixed = s.fixed := by
  simp [railOff, modRail_fixed]

theorem railDrop_fixed (i : Nat) (s : State) :
    (railDrop i s).fixed = s.fixed := by
  simp [railDrop, railOff_fixed, modRail_fixed, ite_fixed]

theorem railsDrop_fixed (x0 : Nat) (x1 : State) :
    (railsDrop x0 x1).fixed = x1.fixed := by
  induction x0 generalizing x1 with
  | zero => rfl
  | succ n ih => simp only [railsDrop, ih, forEach_fixed _ _ _ fun _ _ => railDrop_fixed _ _]

theorem downAdvance_fixed (s : State) :
    (downAdvance s).fixed = s.fixed := by
  simp [downAdvance, railsDrop_fixed, downDone_fixed, ite_fixed]

theorem downStart_fixed (s : State) :
    (downStart s).fixed = s.fixed := by
  simp [downStart, coreOff_fixed, downAdvance_fixed, ite_fixed]

theorem seqFault_fixed (slot : Nat) (cause : Nat) (s : State) :
    (seqFault slot cause s).fixed = s.fixed := by
  simp [seqFault, modRail_fixed, raise_fixed, downStart_fixed]

theorem railLost_fixed (slot : Nat) (s : State) :
    (railLost slot s).fixed = s.fixed := by
  simp [railLost, modRail_fixed, raise_fixed, tripStart_fixed, ite_fixed]

theorem scanUp_fixed (i : Nat) (code : Nat) (s : State) :
    (scanUp i code s).1.fixed = s.fixed := by
  (simp only [scanUp]; repeat' split) <;> simp [modRail_fixed]

theorem scanOn_fixed (i : Nat) (code : Nat) (s : State) :
    (scanOn i code s).1.fixed = s.fixed := by
  (simp only [scanOn]; repeat' split) <;> simp [modRail_fixed]

theorem scanDown_fixed (i : Nat) (code : Nat) (s : State) :
    (scanDown i code s).fixed = s.fixed := by
  simp [scanDown, modRail_fixed, raise_fixed, ite_fixed]

theorem scanNote_fixed (i : Nat) (code : Nat) (s : State) :
    (scanNote i code s).fixed = s.fixed := by
  simp [scanNote, modRail_fixed]

theorem scanAll_fixed (f : Nat → Nat → State → State × Bool) (x1 : List (Nat × Nat)) (x2 : State) (hf : ∀ y0 y1 s, (f y0
    y1 s).1.fixed = s.fixed) :
    (scanAll f x1 x2).2.fixed = x2.fixed := by
  (induction x1 generalizing x2 <;> simp_all [scanAll])

theorem execScanEnd_fixed (codes : List (BitVec 12)) (s : State) :
    ResFixed (execScanEnd codes s) s := by
  (simp only [execScanEnd]; repeat' split) <;>
    simp [scanNote_fixed, scanAll_fixed, scanUp_fixed, seqFault_fixed, upAdvance_fixed, scanOn_fixed, railLost_fixed,
            downAdvance_fixed, scanDown_fixed, forEach_fixed]

theorem execRailDelayExpiry_fixed (slot : Nat) (s : State) :
    ResFixed (execRailDelayExpiry slot s) s := by
  (simp only [execRailDelayExpiry]; repeat' split) <;> simp [railOn_fixed, downAdvance_fixed, railOff_fixed]

theorem execRiseTimeout_fixed (slot : Nat) (s : State) :
    ResFixed (execRiseTimeout slot s) s := by
  simp [execRiseTimeout, seqFault_fixed, ite_fixed]

theorem execRailAbandoned_fixed (slot : Nat) (s : State) :
    ResFixed (execRailAbandoned slot s) s := by
  simp [execRailAbandoned, modRail_fixed, downAdvance_fixed, raise_fixed, ite_fixed]

theorem execSeqRetry_fixed (s : State) :
    ResFixed (execSeqRetry s) s := by
  simp [execSeqRetry, raise_fixed, upEnter_fixed, ite_fixed]

theorem execSupplyGood_fixed (s : State) :
    ResFixed (execSupplyGood s) s := by
  simp [execSupplyGood, upEnter_fixed, ite_fixed]

theorem execPllLockTimeout_fixed (s : State) :
    ResFixed (execPllLockTimeout s) s := by
  simp [execPllLockTimeout, downStart_fixed, ite_fixed]

theorem execRtcStartTimeout_fixed (s : State) :
    ResFixed (execRtcStartTimeout s) s := by
  simp [execRtcStartTimeout, ite_fixed]

theorem execRtcCrystalStart_fixed (s : State) :
    ResFixed (execRtcCrystalStart s) s := by
  simp [execRtcCrystalStart]

theorem execHoldupOkFall_fixed (s : State) :
    ResFixed (execHoldupOkFall s) s := by
  simp [execHoldupOkFall, rbit_fixed, ite_fixed]

theorem execHoldupOkRise_fixed (s : State) :
    ResFixed (execHoldupOkRise s) s := by
  simp [execHoldupOkRise, ite_fixed]

theorem execHoldupReady_fixed (s : State) :
    ResFixed (execHoldupReady s) s := by
  simp [execHoldupReady, ite_fixed]

theorem budgetStage_fixed (u : Nat) (s : State) :
    (budgetStage u s).fixed = s.fixed := by
  simp [budgetStage, rbit_fixed, ite_fixed]

theorem rwpWrite_fixed (i : Nat) (v : BitVec 32) (s : State) :
    (rwpWrite i v s).fixed = s.fixed := by
  (simp only [rwpWrite]; repeat' split) <;> simp [rset_fixed, paramQueue_fixed, budgetStage_fixed]

theorem regTilBudgetWrite_fixed (_h : Head) (value : BitVec 32) (s : State) :
    ResFixed (regTilBudgetWrite _h value s) s := by
  simp [regTilBudgetWrite, rwpWrite_fixed]

theorem execBudgetApply_fixed (s : State) :
    ResFixed (execBudgetApply s) s := by
  (simp only [execBudgetApply]; repeat' split) <;> simp [meterUpdate_fixed]

theorem regPurCntClear_fixed (_h : Head) (s : State) :
    ResFixed (regPurCntClear _h s) s := by
  simp [regPurCntClear, rset_fixed]

theorem execSboxClearDone_fixed (s : State) :
    ResFixed (execSboxClearDone s) s := by
  (simp only [execSboxClearDone]; repeat' split) <;> simp

theorem critPins_fixed (s : State) :
    (critPins s).fixed = s.fixed := by
  simp [critPins]

theorem drainOver_fixed (cut : Bool) (s : State) :
    (drainOver cut s).fixed = s.fixed := by
  simp [drainOver, drainEnd_fixed, critPins_fixed, downStart_fixed, ite_fixed]

theorem execPowerFailDrainDone_fixed (s : State) :
    ResFixed (execPowerFailDrainDone s) s := by
  simp [execPowerFailDrainDone, drainOver_fixed, ite_fixed]

theorem tripNote_fixed (latch : Bool) (s : State) :
    (tripNote latch s).fixed = s.fixed := by
  simp [tripNote, raise_fixed]

theorem execPfTrip_fixed (s : State) :
    ResFixed (execPfTrip s) s := by
  (simp only [execPfTrip]; repeat' split) <;> simp [tripNote_fixed, tripStart_fixed, downStart_fixed]

theorem level4Start_fixed (cause : Nat) (s : State) :
    (level4Start cause s).fixed = s.fixed := by
  simp [level4Start, drainStart_fixed, queuesDelete_fixed]

theorem execPowerCycle_fixed (s : State) :
    ResFixed (execPowerCycle s) s := by
  (simp only [execPowerCycle]; repeat' split) <;> simp [level4Start_fixed]

theorem execDeviceReset_fixed (src : ResetSource) (s : State) :
    ResFixed (execDeviceReset src s) s := by
  (simp only [execDeviceReset]; repeat' split) <;> simp [deviceResetOp_fixed]

theorem execPbNPress_fixed (s : State) :
    ResFixed (execPbNPress s) s := by
  (simp only [execPbNPress]; repeat' split) <;> simp [upAsk_fixed]

theorem execPbPress_fixed (s : State) :
    ResFixed (execPbPress s) s := by
  (simp only [execPbPress]; repeat' split) <;> simp [raise_fixed]

theorem forceOff_fixed (s : State) :
    (forceOff s).fixed = s.fixed := by
  (simp only [forceOff]; repeat' split) <;> simp [drainStart_fixed, raise_fixed]

theorem execPbForceOff_fixed (s : State) :
    ResFixed (execPbForceOff s) s := by
  (simp only [execPbForceOff]; repeat' split) <;> simp [forceOff_fixed]

theorem execDrainCut_fixed (s : State) :
    ResFixed (execDrainCut s) s := by
  simp [execDrainCut, drainOver_fixed, ite_fixed]

theorem execMrReset_fixed (s : State) :
    ResFixed (execMrReset s) s := by
  simp [execMrReset, deviceResetOp_fixed, raise_fixed, ite_fixed]

theorem execMrNRelease_fixed (s : State) :
    ResFixed (execMrNRelease s) s := by
  simp [execMrNRelease, resetRelease_fixed]

theorem belowCount_fixed (n : Nat) (tg : Int) (s : State) :
    (belowCount n tg s).fixed = s.fixed := by
  simp [belowCount]

theorem critStart_fixed (cause : Nat) (s : State) :
    (critStart cause s).fixed = s.fixed := by
  (simp only [critStart]; repeat' split) <;> simp [raise_fixed, drainStart_fixed, downStart_fixed, critPins_fixed]

theorem stepChange_fixed (s : State) :
    (stepChange s).fixed = s.fixed := by
  simp [stepChange, raise_fixed, critStart_fixed, ite_fixed]

theorem tempNote_fixed (s : State) :
    (tempNote s).fixed = s.fixed := by
  simp [tempNote]

theorem sensorBreak_fixed (n : Nat) (cause : Nat) (s : State) :
    (sensorBreak n cause s).fixed = s.fixed := by
  simp [sensorBreak, raise_fixed, stepChange_fixed, critStart_fixed, ite_fixed]

theorem execSensorConversion_fixed (sensor : Nat) (raw : Int) (s : State) :
    ResFixed (execSensorConversion sensor raw s) s := by
  (simp only [execSensorConversion]; repeat' split) <;>
    simp [sensorBreak_fixed, stepChange_fixed, tempNote_fixed, belowCount_fixed]

theorem execSensorNoConversion_fixed (sensor : Nat) (s : State) :
    ResFixed (execSensorNoConversion sensor s) s := by
  simp [execSensorNoConversion, tempNote_fixed, sensorBreak_fixed, ite_fixed]

theorem execCriticalStopTimeout_fixed (s : State) :
    ResFixed (execCriticalStopTimeout s) s := by
  (simp only [execCriticalStopTimeout]; repeat' split) <;> simp [drainOver_fixed]

theorem execTemperatureHistoryRecord_fixed (s : State) :
    ResFixed (execTemperatureHistoryRecord s) s := by
  simp [execTemperatureHistoryRecord, recordQueue_fixed, ite_fixed]

theorem yGetSupervisionStatus_fixed (p : MbxPort) (b : List Byte) (s : State) :
    (yGetSupervisionStatus p b s).st.fixed = s.fixed := by
  simp [yGetSupervisionStatus, okOut_fixed]

theorem execGetSupervisionStatus_fixed (p : MbxPort) (payload : List Byte) (s : State) :
    ResFixed (execGetSupervisionStatus p payload s) s := by
  simp [execGetSupervisionStatus, yciRun_fixed, yGetSupervisionStatus_fixed]

theorem yGetRailCounters_fixed (p : MbxPort) (b : List Byte) (s : State) :
    (yGetRailCounters p b s).st.fixed = s.fixed := by
  (simp only [yGetRailCounters]; repeat' split) <;> simp [errAns_fixed, okOut_fixed]

theorem execGetRailCounters_fixed (p : MbxPort) (payload : List Byte) (s : State) :
    ResFixed (execGetRailCounters p payload s) s := by
  simp [execGetRailCounters, yciRun_fixed, yGetRailCounters_fixed]

theorem ySetSupervisionParameter_fixed (p : MbxPort) (b : List Byte) (s : State) :
    (ySetSupervisionParameter p b s).st.fixed = s.fixed := by
  (simp only [ySetSupervisionParameter]; repeat' split) <;> simp [errAns_fixed, ok_fixed, paramQueue_fixed]

theorem execSetSupervisionParameter_fixed (p : MbxPort) (payload : List Byte) (s : State) :
    ResFixed (execSetSupervisionParameter p payload s) s := by
  simp [execSetSupervisionParameter, yciRun_fixed, ySetSupervisionParameter_fixed]

theorem execResetDevice_fixed (p : MbxPort) (payload : List Byte) (s : State) :
    ResFixed (execResetDevice p payload s) s := by
  simp [execResetDevice, yciRun_fixed, ok_fixed]

theorem execRequestPowerCycle_fixed (p : MbxPort) (payload : List Byte) (s : State) :
    ResFixed (execRequestPowerCycle p payload s) s := by
  simp [execRequestPowerCycle, yciRun_fixed, ok_fixed]

theorem escalate_fixed (f : Function) (s : State) :
    (escalate f s).fixed = s.fixed := by
  simp [escalate, raise_fixed, level4Start_fixed, deviceResetOp_fixed, ite_fixed]

theorem execHomeSliceReinit_fixed (n : Nat) (s : State) :
    ResFixed (execHomeSliceReinit n s) s := by
  simp [execHomeSliceReinit, reinitStart_fixed, resvLose_fixed, ite_fixed]

theorem execPurseReinit_fixed (s : State) :
    ResFixed (execPurseReinit s) s := by
  simp [execPurseReinit, reinitStart_fixed, ite_fixed]

theorem chunksReissue_fixed (e : Nat) (s : State) :
    (chunksReissue e s).fixed = s.fixed := by
  simp [chunksReissue, modDesc_fixed, forEach_fixed]

theorem execPackageEngineReinit_fixed (e : Nat) (s : State) :
    ResFixed (execPackageEngineReinit e s) s := by
  simp [execPackageEngineReinit, reinitStart_fixed, chunksReissue_fixed, ite_fixed]

theorem execMailboxReinit_fixed (p : MbxPort) (s : State) :
    ResFixed (execMailboxReinit p s) s := by
  (simp only [execMailboxReinit]; repeat' split) <;> simp [reinitStart_fixed, mbxAnswer_fixed]

theorem execKeyPageReinit_fixed (page : Nat) (s : State) :
    ResFixed (execKeyPageReinit page s) s := by
  simp [execKeyPageReinit, reinitStart_fixed, ite_fixed]

theorem cpuReinitOp_fixed (s : State) :
    (cpuReinitOp s).fixed = s.fixed := by
  simp [cpuReinitOp, reinitStart_fixed, migAbandon_fixed, forEach_fixed]

theorem execCpuReinit_fixed (s : State) :
    ResFixed (execCpuReinit s) s := by
  simp [execCpuReinit, cpuReinitOp_fixed, ite_fixed]

theorem reinitEnd_fixed (f : Function) (s : State) :
    (reinitEnd f s).fixed = s.fixed := by
  unfold reinitEnd
  dsimp only
  repeat' split
  all_goals first | rfl | simp [admitWaiting_fixed, retryAfter_fixed, ite_fixed]

theorem reinitFailed_fixed (f : Function) (s : State) :
    (reinitFailed f s).fixed = s.fixed := by
  (simp only [reinitFailed]; repeat' split) <;> simp [raise_fixed, cpuReinitOp_fixed, escalate_fixed]

theorem reinitCompleteOp_fixed (f : Function) (ok : Bool) (s : State) :
    (reinitCompleteOp f ok s).fixed = s.fixed := by
  simp [reinitCompleteOp, reinitEnd_fixed, reinitFailed_fixed, ite_fixed]

theorem execReinitComplete_fixed (f : Function) (ok : Bool) (s : State) :
    ResFixed (execReinitComplete f ok s) s := by
  (simp only [execReinitComplete]; repeat' split) <;>
    simp [engineFreed_fixed, engineDoneOp_fixed, reinitCompleteOp_fixed]

theorem cxlBgFinish_fixed (p : MbxPort) (rc : Nat) (s : State) :
    (cxlBgFinish p rc s).fixed = s.fixed := by
  (simp only [cxlBgFinish]; repeat' split) <;> simp [raise_fixed, modCxl_fixed]

theorem assayEnd_fixed (retire : Bool) (s : State) :
    (assayEnd retire s).fixed = s.fixed := by
  simp [assayEnd, retireFolios_fixed, ite_fixed]

theorem bgDoneOp_fixed (p : MbxPort) (s : State) :
    (bgDoneOp p s).fixed = s.fixed := by
  (simp only [bgDoneOp]; repeat' split) <;> simp [bgFinish_fixed, assayEnd_fixed]

theorem cxlBgDoneOp_fixed (p : MbxPort) (s : State) :
    (cxlBgDoneOp p s).fixed = s.fixed := by
  (simp only [cxlBgDoneOp]; repeat' split) <;> simp [cxlBgFinish_fixed, assayEnd_fixed]

theorem execBgDone_fixed (p : MbxPort) (cxl : Bool) (s : State) :
    ResFixed (execBgDone p cxl s) s := by
  simp [execBgDone, cxlBgDoneOp_fixed, bgDoneOp_fixed, ite_fixed]

theorem setFifo_fixed (f : FifoPort) (bs : List Byte) (s : State) :
    (setFifo f bs s).fixed = s.fixed := by
  (simp only [setFifo]; repeat' split) <;> simp

theorem fifoTake_fixed (f : FifoPort) (s : State) :
    (fifoTake f s).fixed = s.fixed := by
  simp [fifoTake, setFifo_fixed, ite_fixed]

theorem fifoPut_fixed (f : FifoPort) (bytes : List Byte) (last : Bool) (ok : Bool) (s : State) :
    (fifoPut f bytes last ok s).fixed = s.fixed := by
  simp [fifoPut, setFifo_fixed, ite_fixed]

theorem execMctpPacket_fixed (port : FifoPort) (bytes : List Byte) (last : Bool) (ok : Bool) (s : State) :
    ResFixed (execMctpPacket port bytes last ok s) s := by
  simp [execMctpPacket, fifoTake_fixed, fifoPut_fixed, ite_fixed]

theorem mctpControl_fixed (cmd : Nat) (cc : Nat) (out : List Byte) (s : State) :
    (mctpControl cmd cc out s).fixed = s.fixed := by
  simp [mctpControl, send_fixed]

theorem mctpRun_fixed (cmd : Nat) (body : List Byte → State → Nat × List Byte × State) (payload : List Byte) (s : State)
    (hbody : ∀ y0 s, (body y0 s).2.2.fixed = s.fixed) :
    (mctpRun cmd body payload s).fixed = s.fixed := by
  simp [mctpRun, mctpControl_fixed, hbody, ite_fixed]

theorem execSetEndpointId_fixed (payload : List Byte) (s : State) :
    ResFixed (execSetEndpointId payload s) s := by
  rw [execSetEndpointId, ResFixed_next]
  refine mctpRun_fixed _ _ _ _ fun b s => ?_
  dsimp only
  (repeat' split) <;> simp

theorem execGetEndpointId_fixed (payload : List Byte) (s : State) :
    ResFixed (execGetEndpointId payload s) s := by
  rw [execGetEndpointId, ResFixed_next]
  refine mctpRun_fixed _ _ _ _ fun b s => ?_
  first | rfl | (split <;> rfl)

theorem execGetMctpVersionSupport_fixed (payload : List Byte) (s : State) :
    ResFixed (execGetMctpVersionSupport payload s) s := by
  rw [execGetMctpVersionSupport, ResFixed_next]
  refine mctpRun_fixed _ _ _ _ fun b s => ?_
  first | rfl | (split <;> rfl)

theorem execGetMessageTypeSupport_fixed (payload : List Byte) (s : State) :
    ResFixed (execGetMessageTypeSupport payload s) s := by
  rw [execGetMessageTypeSupport, ResFixed_next]
  refine mctpRun_fixed _ _ _ _ fun b s => ?_
  first | rfl | (split <;> rfl)

theorem execGetVendorDefinedMsgSupport_fixed (payload : List Byte) (s : State) :
    ResFixed (execGetVendorDefinedMsgSupport payload s) s := by
  rw [execGetVendorDefinedMsgSupport, ResFixed_next]
  refine mctpRun_fixed _ _ _ _ fun b s => ?_
  first | rfl | (split <;> rfl)

theorem execIdentify_fixed (p : MbxPort) (payload : List Byte) (s : State) :
    ResFixed (execIdentify p payload s) s := by
  simp [execIdentify, cxlRun_fixed, okOut_fixed]

theorem execBackgroundOperationStatus_fixed (p : MbxPort) (payload : List Byte) (s : State) :
    ResFixed (execBackgroundOperationStatus p payload s) s := by
  simp [execBackgroundOperationStatus, cxlRun_fixed, okOut_fixed]

theorem execRequestAbortBackgroundOp_fixed (p : MbxPort) (payload : List Byte) (s : State) :
    ResFixed (execRequestAbortBackgroundOp p payload s) s := by
  (simp only [execRequestAbortBackgroundOp]; repeat' split) <;>
    ((simp; grind [cxlRun_fixed, ok_fixed, cxlBgFinish_fixed, assayEnd_fixed, errAns_fixed]))

theorem execGetEventInterruptPolicy_fixed (p : MbxPort) (payload : List Byte) (s : State) :
    ResFixed (execGetEventInterruptPolicy p payload s) s := by
  simp [execGetEventInterruptPolicy, cxlRun_fixed, okOut_fixed]

theorem execSetEventInterruptPolicy_fixed (p : MbxPort) (payload : List Byte) (s : State) :
    ResFixed (execSetEventInterruptPolicy p payload s) s := by
  simp only [execSetEventInterruptPolicy, ResFixed_next]
  apply cxlRun_fixed
  intro p b s
  split <;> simp [errAns_fixed, ok_fixed, modPort_fixed]

theorem execGetTimestamp_fixed (p : MbxPort) (payload : List Byte) (s : State) :
    ResFixed (execGetTimestamp p payload s) s := by
  simp [execGetTimestamp, cxlRun_fixed, okOut_fixed]

theorem execSetTimestamp_fixed (p : MbxPort) (payload : List Byte) (s : State) :
    ResFixed (execSetTimestamp p payload s) s := by
  simp [execSetTimestamp, cxlRun_fixed, ok_fixed, modPort_fixed]

theorem execGetSupportedLogs_fixed (p : MbxPort) (payload : List Byte) (s : State) :
    ResFixed (execGetSupportedLogs p payload s) s := by
  simp [execGetSupportedLogs, cxlRun_fixed, okOut_fixed]

theorem execGetLog_fixed (p : MbxPort) (payload : List Byte) (s : State) :
    ResFixed (execGetLog p payload s) s := by
  (simp only [execGetLog]; repeat' split) <;> ((simp; grind [cxlRun_fixed, errAns_fixed, okOut_fixed]))

theorem execIdentifyMemoryDevice_fixed (p : MbxPort) (payload : List Byte) (s : State) :
    ResFixed (execIdentifyMemoryDevice p payload s) s := by
  simp [execIdentifyMemoryDevice, cxlRun_fixed, okOut_fixed]

theorem execGetPartitionInfo_fixed (p : MbxPort) (payload : List Byte) (s : State) :
    ResFixed (execGetPartitionInfo p payload s) s := by
  simp [execGetPartitionInfo, cxlRun_fixed, okOut_fixed]

theorem execGetHealthInfo_fixed (p : MbxPort) (payload : List Byte) (s : State) :
    ResFixed (execGetHealthInfo p payload s) s := by
  simp [execGetHealthInfo, cxlRun_fixed, okOut_fixed]

theorem execGetAlertConfiguration_fixed (p : MbxPort) (payload : List Byte) (s : State) :
    ResFixed (execGetAlertConfiguration p payload s) s := by
  simp [execGetAlertConfiguration, cxlRun_fixed, okOut_fixed]

theorem execSetAlertConfiguration_fixed (p : MbxPort) (payload : List Byte) (s : State) :
    ResFixed (execSetAlertConfiguration p payload s) s := by
  (simp only [execSetAlertConfiguration]; repeat' split) <;>
    ((simp; grind [cxlRun_fixed, errAns_fixed, ok_fixed, modPort_fixed]))

theorem execGetShutdownState_fixed (p : MbxPort) (payload : List Byte) (s : State) :
    ResFixed (execGetShutdownState p payload s) s := by
  simp [execGetShutdownState, cxlRun_fixed, okOut_fixed]

theorem execSetShutdownState_fixed (p : MbxPort) (payload : List Byte) (s : State) :
    ResFixed (execSetShutdownState p payload s) s := by
  (simp only [execSetShutdownState]; repeat' split) <;>
    ((simp; grind [cxlRun_fixed, errAns_fixed, ok_fixed, modPort_fixed]))

theorem execGetPoisonList_fixed (p : MbxPort) (payload : List Byte) (s : State) :
    ResFixed (execGetPoisonList p payload s) s := by
  simp [execGetPoisonList, cxlRun_fixed, okOut_fixed]

theorem poisonAccess_fixed (by_ : TxnBy) (p : MbxPort) (dpa : Nat) (d : Sector) (s : State) :
    (poisonAccess by_ p dpa d s).st.fixed = s.fixed := by
  unfold poisonAccess; dsimp only; split <;> simp [errAns_fixed, ok_fixed, ownTxn_fixed]

theorem execInjectPoison_fixed (p : MbxPort) (payload : List Byte) (s : State) :
    ResFixed (execInjectPoison p payload s) s := by
  rw [execInjectPoison, ResFixed_next]
  refine cxlRun_fixed _ _ _ _ _ _ _ _ fun p b s => ?_
  split <;> simp [errAns_fixed, poisonAccess_fixed]

theorem execClearPoison_fixed (p : MbxPort) (payload : List Byte) (s : State) :
    ResFixed (execClearPoison p payload s) s := by
  rw [execClearPoison, ResFixed_next]
  refine cxlRun_fixed _ _ _ _ _ _ _ _ fun p b s => ?_
  split <;> simp [errAns_fixed, poisonAccess_fixed]

theorem execScanMedia_fixed (p : MbxPort) (payload : List Byte) (s : State) :
    ResFixed (execScanMedia p payload s) s := by
  rw [execScanMedia, ResFixed_next]
  refine cxlRun_fixed _ _ _ _ _ _ _ _ fun p b s => ?_
  repeat' split
  all_goals simp [errAns_fixed, cxlBgStart_fixed, fullStart_fixed]

theorem execSanitize_fixed (p : MbxPort) (payload : List Byte) (s : State) :
    ResFixed (execSanitize p payload s) s := by
  (simp only [execSanitize]; repeat' split) <;>
    ((simp; grind [cxlRun_fixed, errAns_fixed, cxlBgStart_fixed, formatOp_fixed]))

theorem modStaged_fixed (f : FwSlot → FwSlot) (s : State) :
    (modStaged f s).fixed = s.fixed := by
  refine State.modCtl_fixed _ _ ?_
  split <;> rfl

theorem fwPages_fixed (off : Nat) (x1 : Nat) (x2 : List Byte) (x3 : State) :
    (fwPages off x1 x2 x3).fixed = x3.fixed := by
  induction x1 generalizing off x2 x3 with
  | zero => rfl
  | succ n ih =>
    simp only [fwPages]
    split <;> simp [ih, pageQueue_fixed]

theorem fwAppend_fixed (off : Nat) (total : Nat) (data : List Byte) (s : State) :
    (fwAppend off total data s).fixed = s.fixed := by
  simp [fwAppend, fwPages_fixed, modStaged_fixed, raise_fixed, ite_fixed]

theorem fwTransfer_fixed (p : MbxPort) (off : Nat) (total : Nat) (data : List Byte) (s : State) :
    (fwTransfer p off total data s).st.fixed = s.fixed := by
  (simp only [fwTransfer]; repeat' split) <;> simp [errAns_fixed, modStaged_fixed, ok_fixed, fwAppend_fixed]

theorem fwActivate_fixed (online : Bool) (p : MbxPort) (s : State) :
    (fwActivate online p s).fixed = s.fixed := by
  simp [fwActivate, modStaged_fixed, ite_fixed]

theorem yActivateFirmware_fixed (p : MbxPort) (b : List Byte) (s : State) :
    (yActivateFirmware p b s).st.fixed = s.fixed := by
  (simp only [yActivateFirmware]; repeat' split) <;> simp [errAns_fixed, bgStart_fixed, fwActivate_fixed]

theorem execActivateFirmwareOnline_fixed (p : MbxPort) (payload : List Byte) (s : State) :
    ResFixed (execActivateFirmwareOnline p payload s) s := by
  simp [execActivateFirmwareOnline, yciRun_fixed, yActivateFirmware_fixed]

theorem execActivateFirmwareAtReset_fixed (p : MbxPort) (payload : List Byte) (s : State) :
    ResFixed (execActivateFirmwareAtReset p payload s) s := by
  simp [execActivateFirmwareAtReset, yciRun_fixed, yActivateFirmware_fixed]

theorem yTransferFirmware_fixed (p : MbxPort) (b : List Byte) (s : State) :
    (yTransferFirmware p b s).st.fixed = s.fixed := by
  simp [yTransferFirmware, fwTransfer_fixed]

theorem execTransferFirmware_fixed (p : MbxPort) (payload : List Byte) (s : State) :
    ResFixed (execTransferFirmware p payload s) s := by
  simp [execTransferFirmware, yciRun_fixed, yTransferFirmware_fixed]

theorem yGetFirmwareInfo_fixed (p : MbxPort) (b : List Byte) (s : State) :
    (yGetFirmwareInfo p b s).st.fixed = s.fixed := by
  simp [yGetFirmwareInfo, okOut_fixed]

theorem execGetFirmwareInfo_fixed (p : MbxPort) (payload : List Byte) (s : State) :
    ResFixed (execGetFirmwareInfo p payload s) s := by
  simp [execGetFirmwareInfo, yciRun_fixed, yGetFirmwareInfo_fixed]

theorem execGetFwInfo_fixed (p : MbxPort) (payload : List Byte) (s : State) :
    ResFixed (execGetFwInfo p payload s) s := by
  simp [execGetFwInfo, cxlRun_fixed, okOut_fixed]

theorem cTransferFw_fixed (p : MbxPort) (b : List Byte) (s : State) :
    (cTransferFw p b s).st.fixed = s.fixed := by
  (simp only [cTransferFw]; repeat' split) <;>
    simp [fwTransfer_fixed, errAns_fixed, ok_fixed, fwAppend_fixed, modStaged_fixed]

theorem execTransferFw_fixed (p : MbxPort) (payload : List Byte) (s : State) :
    ResFixed (execTransferFw p payload s) s := by
  simp [execTransferFw, cxlRun_fixed, cTransferFw_fixed]

theorem cActivateFw_fixed (p : MbxPort) (b : List Byte) (s : State) :
    (cActivateFw p b s).st.fixed = s.fixed := by
  (simp only [cActivateFw]; repeat' split) <;> simp [errAns_fixed, cxlBgStart_fixed, fwActivate_fixed]

theorem execActivateFw_fixed (p : MbxPort) (payload : List Byte) (s : State) :
    ResFixed (execActivateFw p payload s) s := by
  simp [execActivateFw, cxlRun_fixed, cActivateFw_fixed]

theorem fwBgFinish_fixed (rc : Nat) (s : State) :
    (fwBgFinish rc s).fixed = s.fixed := by
  simp [fwBgFinish, bgFinish_fixed, cxlBgFinish_fixed, ite_fixed, forEach_fixed]

theorem versionCheck_fixed (p : MbxPort) (s : State) :
    (versionCheck p s).fixed = s.fixed := by
  simp [versionCheck, modMbx_fixed, rbit_fixed, raise_fixed, ite_fixed]

theorem driftStore_fixed (image : List Byte) (s : State) :
    (driftStore image s).fixed = s.fixed := by
  simp [driftStore, ite_fixed]

theorem execFwActivated_fixed (versions : BitVec 3) (s : State) :
    ResFixed (execFwActivated versions s) s := by
  (simp only [execFwActivated]; repeat' split) <;> simp [driftStore_fixed, forEach_fixed, versionCheck_fixed, fwBgFinish_fixed, raise_fixed, forEach_fixed]

theorem execFwReverted_fixed (s : State) :
    ResFixed (execFwReverted s) s := by
  (simp only [execFwReverted]; repeat' split) <;> simp [fwBgFinish_fixed, raise_fixed]

theorem execFwSlotIdleTimeout_fixed (s : State) :
    ResFixed (execFwSlotIdleTimeout s) s := by
  simp [execFwSlotIdleTimeout, ite_fixed]

theorem yCommitRollbackFloor_fixed (p : MbxPort) (b : List Byte) (s : State) :
    (yCommitRollbackFloor p b s).st.fixed = s.fixed := by
  (simp only [yCommitRollbackFloor]; repeat' split) <;> simp [errAns_fixed, ok_fixed, tallyAdvance_fixed, modMbx_fixed]

theorem execCommitRollbackFloor_fixed (p : MbxPort) (payload : List Byte) (s : State) :
    ResFixed (execCommitRollbackFloor p payload s) s := by
  simp [execCommitRollbackFloor, yciRun_fixed, yCommitRollbackFloor_fixed]

theorem floorAnswer_fixed (s : State) :
    (floorAnswer s).fixed = s.fixed := by
  refine forEach_fixed _ _ _ fun p s => ?_
  repeat' split
  all_goals simp [mbxAnswer_fixed]

theorem execGetLifecycleState_fixed (p : MbxPort) (payload : List Byte) (s : State) :
    ResFixed (execGetLifecycleState p payload s) s := by
  simp [execGetLifecycleState, yciRun_fixed, okOut_fixed]

theorem execGetInterfaceVersions_fixed (p : MbxPort) (payload : List Byte) (s : State) :
    ResFixed (execGetInterfaceVersions p payload s) s := by
  simp [execGetInterfaceVersions, yciRun_fixed, okOut_fixed]

theorem yDeclareInterfaceVersion_fixed (p : MbxPort) (b : List Byte) (s : State) :
    (yDeclareInterfaceVersion p b s).st.fixed = s.fixed := by
  (simp only [yDeclareInterfaceVersion]; repeat' split) <;> simp [errAns_fixed, okOut_fixed, modMbx_fixed]

theorem execDeclareInterfaceVersion_fixed (p : MbxPort) (payload : List Byte) (s : State) :
    ResFixed (execDeclareInterfaceVersion p payload s) s := by
  simp [execDeclareInterfaceVersion, yciRun_fixed, yDeclareInterfaceVersion_fixed]

theorem yReadPassbookParameter_fixed (p : MbxPort) (b : List Byte) (s : State) :
    (yReadPassbookParameter p b s).st.fixed = s.fixed := by
  (simp only [yReadPassbookParameter]; repeat' split) <;> simp [errAns_fixed, okOut_fixed]

theorem execReadPassbookParameter_fixed (p : MbxPort) (payload : List Byte) (s : State) :
    ResFixed (execReadPassbookParameter p payload s) s := by
  simp [execReadPassbookParameter, yciRun_fixed, yReadPassbookParameter_fixed]

theorem yWritePassbookParameter_fixed (p : MbxPort) (b : List Byte) (s : State) :
    (yWritePassbookParameter p b s).st.fixed = s.fixed := by
  (simp only [yWritePassbookParameter]; repeat' split) <;>
    simp [errAns_fixed, ok_fixed, rwpWrite_fixed, paramQueue_fixed]

theorem execWritePassbookParameter_fixed (p : MbxPort) (payload : List Byte) (s : State) :
    ResFixed (execWritePassbookParameter p payload s) s := by
  simp [execWritePassbookParameter, yciRun_fixed, yWritePassbookParameter_fixed]

theorem execGetTallyCounter_fixed (p : MbxPort) (payload : List Byte) (s : State) :
    ResFixed (execGetTallyCounter p payload s) s := by
  (simp only [execGetTallyCounter]; repeat' split) <;> ((simp; grind [yciRun_fixed, errAns_fixed, okOut_fixed]))

theorem paramStore_fixed (w : PageWrite) (n : Nat) (s : State) :
    (paramStore w n s).fixed = s.fixed := by
  simp [paramStore]

theorem tallyStep_fixed (w : PageWrite) (s : State) :
    (tallyStep w s).fixed = s.fixed := by
  simp [tallyStep, pageQueue_fixed, tallyWord_fixed, raise_fixed, floorAnswer_fixed, ite_fixed]

theorem recoinValid_fixed (p : Nat) (s : State) :
    (recoinValid p s).fixed = s.fixed := by
  simp [recoinValid, recoinFree_fixed]

theorem pageApply_fixed (w : PageWrite) (s : State) :
    (pageApply w s).fixed = s.fixed := by
  simp [pageApply, paramStore_fixed, tallyStep_fixed, rangeStore_fixed, recoinValid_fixed, policyPut_fixed, ite_fixed]

theorem execPageWriteDone_fixed (s : State) :
    ResFixed (execPageWriteDone s) s := by
  (simp only [execPageWriteDone]; repeat' split) <;> simp [pageStart_fixed, vaultAnswer_fixed, pageApply_fixed]

theorem recallFault_fixed (addr : Nat) (s : State) :
    (recallFault addr s).fixed = s.fixed := by
  simp [recallFault, raise_fixed, takeFree_fixed, rangeStore_fixed, ite_fixed]

theorem recallRewrite_fixed (addr : Nat) (s : State) :
    (recallRewrite addr s).fixed = s.fixed := by
  simp [recallRewrite, pageQueue_fixed]

theorem execRecallRun_fixed (faults : List RecallFault) (s : State) :
    ResFixed (execRecallRun faults s) s := by
  (simp only [execRecallRun]; repeat' split) <;>
    simp [summaryLoad_fixed, recallFault_fixed, recallRewrite_fixed, raise_fixed, forEach_fixed]

theorem execRecallComplete_fixed (s : State) :
    ResFixed (execRecallComplete s) s := by
  (simp only [execRecallComplete]; repeat' split) <;> simp [pageStart_fixed, faultEnter_fixed, upAsk_fixed]

theorem pageTorn_fixed (w : PageWrite) (words : Nat) (s : State) :
    (pageTorn w words s).fixed = s.fixed := by
  simp [pageTorn, paramStore_fixed, rangeStore_fixed, tallyWord_fixed, ite_fixed]

theorem appendTorn_fixed (words : Nat) (s : State) :
    (appendTorn words s).fixed = s.fixed := by
  (simp only [appendTorn]; repeat' split) <;> simp [appendLand_fixed]

theorem drainUnwritten_fixed (s : State) :
    (drainUnwritten s).fixed = s.fixed := by
  simp [drainUnwritten, ite_fixed]

theorem passbookOff_fixed (s : State) :
    (passbookOff s).fixed = s.fixed := by
  (simp only [passbookOff]; repeat' split) <;> simp [takeFree_fixed, drainUnwritten_fixed, pageTorn_fixed, appendsDrop_fixed, appendTorn_fixed]

theorem supOff_fixed (s : State) :
    (supOff s).fixed = s.fixed := by
  simp [supOff]

theorem execVddAonLoss_fixed (s : State) :
    ResFixed (execVddAonLoss s) s := by
  (simp only [execVddAonLoss]; repeat' split) <;> simp [passbookOff_fixed, supOff_fixed, coreOff_fixed]

theorem stOf_fixed (r : Res) (s : State) (h : ResFixed r s) :
    (stOf r s).fixed = s.fixed := by
  unfold stOf
  split
  · exact h _ rfl
  · rfl

theorem yciSubmit1_fixed (op : Nat) (p : MbxPort) (b : List Byte) (s : State) :
    ∀ t, yciSubmit1 op p b s = some t → t.fixed = s.fixed := by
  (simp only [yciSubmit1]; repeat' split) <;>
    simp [yciRun_fixed, yGetCapacityInfo_fixed, yProvisionFolios_fixed, yDeprovisionFolios_fixed, yZeroFolios_fixed,
            ySetFolioAttributes_fixed, yChangeFolioClass_fixed, yGetFolioEntry_fixed, stOf_fixed,
            execRequestCheckpoint_fixed, yLedgerDecision_fixed, execGetScanReport_fixed,
            execGetWearAndReserveHealth_fixed, ySetTillLoss_fixed, yStartFullAssay_fixed, yReadDieRegister_fixed,
            yGetChannelStatus_fixed, yGetDomainInfo_fixed, execGetSealedWindow_fixed, execWriteStandingOrder_fixed,
            execArmStandingOrder_fixed, execDisarmStandingOrder_fixed, execReadStandingOrder_fixed,
            yCreateEscrowSet_fixed, yCloseEscrowSet_fixed, yAbandonEscrowSet_fixed, execGetEscrowSet_fixed]

theorem yciSubmit2_fixed (op : Nat) (p : MbxPort) (b : List Byte) (s : State) :
    ∀ t, yciSubmit2 op p b s = some t → t.fixed = s.fixed := by
  (simp only [yciSubmit2]; repeat' split) <;>
    simp [yciRun_fixed, yCreateQueuePair_fixed, yDeleteQueuePair_fixed, ySetQueueGrants_fixed, yReinitEngine_fixed,
            yGetQueueInfo_fixed, yGetPairStatus_fixed, ySetPairPolicy_fixed, yStartSettlement_fixed, ySplitPair_fixed,
            yReadPassbookParameter_fixed, yWritePassbookParameter_fixed, stOf_fixed, execGetTallyCounter_fixed,
            yGetSupervisionStatus_fixed, yGetRailCounters_fixed, ySetSupervisionParameter_fixed, execResetDevice_fixed,
            execRequestPowerCycle_fixed, yReadDaybook_fixed, yFreezeDaybook_fixed, yGetDaybookSummary_fixed,
            yTakeAuditSnapshot_fixed, yReadAuditSnapshot_fixed, ySetDaybookRateLimit_fixed, yGetFirmwareInfo_fixed,
            yTransferFirmware_fixed, yActivateFirmware_fixed, execGetLifecycleState_fixed, yCommitRollbackFloor_fixed,
            execGetInterfaceVersions_fixed, yDeclareInterfaceVersion_fixed]

theorem yciSubmit_fixed (op : Nat) (p : MbxPort) (b : List Byte) (s : State) :
    (yciSubmit op p b s).fixed = s.fixed := by
  simp only [yciSubmit]
  repeat' first
    | with_reducible rfl
    | assumption
    | split
    | with_reducible refine (yciRun_fixed _ _ _ _ _ (fun _ _ _ => ?_)).trans ?_
    | with_reducible refine (forEach_fixed _ _ _ fun _ _ => ?_).trans ?_
    | with_reducible refine (foldl_fixed _ _ _ fun _ _ => ?_).trans ?_
    | with_reducible refine (State.modCtl_fixed _ _ ?_).trans ?_
  all_goals first
    | (simp [errAns_fixed]; done)
    | grind [yciSubmit1_fixed, yciSubmit2_fixed, yciRun_fixed, errAns_fixed]

theorem doorbell_fixed (h : Head) (s : State) :
    (doorbell h s).fixed = s.fixed := by
  simp [doorbell, yciRun_fixed, errAns_fixed, yciSubmit_fixed, ite_fixed]

theorem stored_fixed (h : Head) (off : Nat) (v : BitVec 32) (s : State) :
    (stored h off v s).fixed = s.fixed := by
  (simp only [stored]; repeat' split) <;> simp [rset_fixed]

theorem writeGc_fixed (h : Head) (off : Nat) (v : BitVec 32) (s : State) :
    (writeGc h off v s).fixed = s.fixed := by
  simp [writeGc, stored_fixed, ite_fixed]

theorem writeMbx_fixed (h : Head) (off : Nat) (v : BitVec 32) (s : State) :
    (writeMbx h off v s).fixed = s.fixed := by
  simp [writeMbx, stored_fixed, doorbell_fixed, modMbx_fixed, ite_fixed]

theorem writeCoal_fixed (v : BitVec 32) (s : State) :
    (writeCoal v s).fixed = s.fixed := by
  simp [writeCoal, modPort_fixed]

theorem writeMsix_fixed (h : Head) (w : Nat) (v : BitVec 32) (s : State) :
    (writeMsix h w v s).fixed = s.fixed := by
  simp [writeMsix, pbaFlush_fixed, modPort_fixed]

theorem writeEvt_fixed (h : Head) (off : Nat) (v : BitVec 32) (s : State) :
    (writeEvt h off v s).fixed = s.fixed := by
  simp [writeEvt, stOf_fixed, regEvtPendingClear_fixed, writeCoal_fixed, writeMsix_fixed, stored_fixed, ite_fixed]

theorem writeDbk_fixed (h : Head) (off : Nat) (v : BitVec 32) (s : State) :
    (writeDbk h off v s).fixed = s.fixed := by
  simp [writeDbk, stOf_fixed, regDaybookFreeze_fixed, regDaybookThaw_fixed, ite_fixed]

theorem writeQperm_fixed (v : BitVec 32) (s : State) :
    (writeQperm v s).fixed = s.fixed := by
  simp [writeQperm, modQueue_fixed]

theorem writeAud_fixed (h : Head) (off : Nat) (v : BitVec 32) (s : State) :
    (writeAud h off v s).fixed = s.fixed := by
  simp [writeAud, stOf_fixed, regSnap_fixed, regClearCounters_fixed, regSampleCfgWrite_fixed, regHistCfgWrite_fixed,
          writeQperm_fixed, stored_fixed, ite_fixed]

theorem writeSource_fixed (h : Head) (v : BitVec 32) (s : State) :
    (writeSource h v s).fixed = s.fixed := by
  (simp only [writeSource]; repeat' split) <;>
    simp [stOf_fixed, regSourceHost_fixed, regSourcePtm_fixed, regSourcePairLink_fixed, setRefused_fixed]

theorem writeTbs_fixed (h : Head) (off : Nat) (v : BitVec 32) (s : State) :
    (writeTbs h off v s).fixed = s.fixed := by
  simp [writeTbs, writeSource_fixed, stOf_fixed, regTbsSetHi_fixed, regTbsPtmCfgWrite_fixed, stored_fixed, ite_fixed]

theorem writeEntry_fixed (w : Nat) (v : BitVec 32) (s : State) :
    (writeEntry w v s).fixed = s.fixed := by
  simp [writeEntry, soWrite_fixed]

theorem writeSo_fixed (h : Head) (off : Nat) (v : BitVec 32) (s : State) :
    (writeSo h off v s).fixed = s.fixed := by
  simp [writeSo, stOf_fixed, regSoArm_fixed, regSoDisarm_fixed, writeEntry_fixed, stored_fixed, ite_fixed]

theorem writeMch_fixed (h : Head) (c : Nat) (off : Nat) (v : BitVec 32) (s : State) :
    (writeMch h c off v s).fixed = s.fixed := by
  simp [writeMch, stOf_fixed, regCommitStaged_fixed, regMchCntClear_fixed, stored_fixed, ite_fixed]

theorem writeMcl_fixed (off : Nat) (v : BitVec 32) (s : State) :
    (writeMcl off v s).fixed = s.fixed := by
  simp [writeMcl, ite_fixed]

theorem writeHigh_fixed (h : Head) (off : Nat) (v : BitVec 32) (s : State) :
    (writeHigh h off v s).fixed = s.fixed := by
  (simp only [writeHigh]; repeat' split) <;>
    simp [rwpWrite_fixed, stOf_fixed, regPurCntClear_fixed, regIntCntClear_fixed, regCkptReq_fixed, regIceCntClear_fixed,
            regMovCntClear_fixed, regPairBarrier_fixed, stored_fixed]

theorem bar0Write_fixed (h : Head) (off : Nat) (v : BitVec 32) (s : State) :
    (bar0Write h off v s).fixed = s.fixed := by
  simp [bar0Write, writeGc_fixed, writeMbx_fixed, writeEvt_fixed, writeDbk_fixed, writeAud_fixed, writeTbs_fixed,
          writeSo_fixed, writeMch_fixed, writeMcl_fixed, writeHigh_fixed, ite_fixed]

theorem bar2Write_fixed (h : Head) (off : Nat) (v : BitVec 32) (s : State) :
    (bar2Write h off v s).fixed = s.fixed := by
  simp [bar2Write, stOf_fixed, regSqTailDoorbell_fixed, regCqHeadDoorbell_fixed, modQueue_fixed, regGateClose_fixed,
          regGateOpen_fixed, ite_fixed]

theorem writeMember_fixed (a : BarAccess) (c : Nat) (s : State) :
    (writeMember a c s).fixed = s.fixed := by
  simp [writeMember, writeMch_fixed, forEach_fixed]

theorem writeLand_fixed (a : BarAccess) (member : Option Nat) (s : State) :
    (writeLand a member s).fixed = s.fixed := by
  (simp only [writeLand]; repeat' split) <;> simp [writeMember_fixed, bar2Write_fixed, bar0Write_fixed, forEach_fixed]

theorem heldOverflow_fixed (a : BarAccess) (d : Nat) (s : State) :
    (heldOverflow a d s).fixed = s.fixed := by
  simp [heldOverflow, raise_fixed, rbit_fixed]

theorem waitFor_fixed (a : BarAccess) (d : Nat) (member : Option Nat) (s : State) :
    (waitFor a d member s).fixed = s.fixed := by
  simp [waitFor]

theorem writeTo_fixed (a : BarAccess) (d : Nat) (member : Option Nat) (s : State) :
    (writeTo a d member s).fixed = s.fixed := by
  simp [writeTo, writeLand_fixed, heldOverflow_fixed, waitFor_fixed, ite_fixed]

theorem readAnswer_fixed (a : BarAccess) (v : BitVec 64) (s : State) :
    (readAnswer a v s).fixed = s.fixed := by
  simp [readAnswer, send_fixed]

theorem readLand_fixed (a : BarAccess) (s : State) :
    (readLand a s).fixed = s.fixed := by
  (simp only [readLand]; repeat' split) <;> simp [readAnswer_fixed]

theorem apertureLand_fixed (a : BarAccess) (tg : ChTarget) (s : State) :
    (apertureLand a tg s).fixed = s.fixed := by
  unfold apertureLand
  split
  · rw [readAnswer_fixed, State.modMed_fixed]
  · exact (readAnswer_fixed _ _ _).trans (State.modMed_fixed _ _)

theorem commitTogether_fixed (a : BarAccess) (cs : List Nat) (s u : State) :
    (commitTogether a cs s u).fixed = u.fixed := by
  simp [commitTogether, forEach_fixed, modChan_fixed, forEach_fixed, ite_fixed]

theorem apertureAccess_fixed (a : BarAccess) (t : ChTarget) (s : State) :
    (apertureAccess a t s).fixed = s.fixed := by
  (simp only [apertureAccess]; repeat' split) <;> simp [commitTogether_fixed, forEach_fixed, writeTo_fixed, waitFor_fixed, apertureLand_fixed, forEach_fixed]

theorem accessError_fixed (a : BarAccess) (s : State) :
    (accessError a s).fixed = s.fixed := by
  simp [accessError, raise_fixed, rbit_fixed, readAnswer_fixed, ite_fixed]

theorem accessOp_fixed (a : BarAccess) (s : State) :
    (accessOp a s).fixed = s.fixed := by
  (simp only [accessOp]; repeat' split) <;>
    simp [accessError_fixed, apertureAccess_fixed, writeTo_fixed, readLand_fixed, waitFor_fixed]

theorem execRegisterWrite_fixed (a : BarAccess) (s : State) :
    ResFixed (execRegisterWrite a s) s := by
  simp [execRegisterWrite, accessOp_fixed]

theorem execMisalignedAccess_fixed (a : BarAccess) (s : State) :
    ResFixed (execMisalignedAccess a s) s := by
  simp [execMisalignedAccess, accessOp_fixed]

theorem execLatchingLowWordRead_fixed (a : BarAccess) (s : State) :
    ResFixed (execLatchingLowWordRead a s) s := by
  simp [execLatchingLowWordRead, accessOp_fixed]

theorem execApertureRead_fixed (a : BarAccess) (s : State) :
    ResFixed (execApertureRead a s) s := by
  simp [execApertureRead, accessOp_fixed]

theorem timeoutNote_fixed (a : BarAccess) (d : Nat) (s : State) :
    (timeoutNote a d s).fixed = s.fixed := by
  simp [timeoutNote, rset_fixed, rbit_fixed, raise_fixed]

theorem timeoutRead_fixed (a : BarAccess) (s : State) :
    (timeoutRead a s).fixed = s.fixed := by
  (simp only [timeoutRead]; repeat' split) <;> simp [apertureLand_fixed, readAnswer_fixed]

theorem timeoutWrite_fixed (w : WaitAcc) (s : State) :
    (timeoutWrite w s).fixed = s.fixed := by
  simp [timeoutWrite, heldOverflow_fixed, ite_fixed]

theorem execIslandTimeout_fixed (a : BarAccess) (s : State) :
    ResFixed (execIslandTimeout a s) s := by
  (simp only [execIslandTimeout]; repeat' split) <;> simp [timeoutNote_fixed, timeoutWrite_fixed, timeoutRead_fixed]

theorem readRelease_fixed (w : WaitAcc) (s : State) :
    (readRelease w s).fixed = s.fixed := by
  (simp only [readRelease]; repeat' split) <;> simp [readLand_fixed, apertureLand_fixed]

theorem execIslandClockReturn_fixed (d : Nat) (s : State) :
    ResFixed (execIslandClockReturn d s) s := by
  simp only [execIslandClockReturn]
  split
  · simp
  · rw [ResFixed_next, forEach_fixed, State.modIsl_fixed]
    intro w s
    split
    exacts [writeLand_fixed _ _ _, readRelease_fixed _ _]

theorem execCommitStaged_fixed (tg : ChTarget) (s : State) :
    ResFixed (execCommitStaged tg s) s := by
  simp [execCommitStaged, accessOp_fixed, ite_fixed]

theorem execMchCntClear_fixed (tg : ChTarget) (s : State) :
    ResFixed (execMchCntClear tg s) s := by
  simp [execMchCntClear, accessOp_fixed, ite_fixed]

theorem execIntCntClear_fixed (h : Head) (s : State) :
    ResFixed (execIntCntClear h s) s := by
  simp [execIntCntClear, accessOp_fixed]

theorem execPurCntClear_fixed (h : Head) (s : State) :
    ResFixed (execPurCntClear h s) s := by
  simp [execPurCntClear, accessOp_fixed]

theorem execIceCntClear_fixed (h : Head) (s : State) :
    ResFixed (execIceCntClear h s) s := by
  simp [execIceCntClear, accessOp_fixed]

theorem execMovCntClear_fixed (h : Head) (s : State) :
    ResFixed (execMovCntClear h s) s := by
  simp [execMovCntClear, accessOp_fixed]

theorem execTilBudgetWrite_fixed (h : Head) (value : BitVec 32) (s : State) :
    ResFixed (execTilBudgetWrite h value s) s := by
  simp [execTilBudgetWrite, accessOp_fixed]

theorem execTbsSetHi_fixed (h : Head) (value : BitVec 32) (s : State) :
    ResFixed (execTbsSetHi h value s) s := by
  simp [execTbsSetHi, accessOp_fixed]

theorem execSourceHost_fixed (h : Head) (s : State) :
    ResFixed (execSourceHost h s) s := by
  simp [execSourceHost, accessOp_fixed]

theorem execSourcePtm_fixed (h : Head) (s : State) :
    ResFixed (execSourcePtm h s) s := by
  simp [execSourcePtm, accessOp_fixed]

theorem execSourcePairLink_fixed (h : Head) (s : State) :
    ResFixed (execSourcePairLink h s) s := by
  simp [execSourcePairLink, accessOp_fixed]

theorem execTbsPtmCfgWrite_fixed (h : Head) (value : BitVec 32) (s : State) :
    ResFixed (execTbsPtmCfgWrite h value s) s := by
  simp [execTbsPtmCfgWrite, accessOp_fixed]

theorem execSoArm_fixed (h : Head) (value : BitVec 32) (s : State) :
    ResFixed (execSoArm h value s) s := by
  simp [execSoArm, accessOp_fixed]

theorem execSoDisarm_fixed (h : Head) (value : BitVec 32) (s : State) :
    ResFixed (execSoDisarm h value s) s := by
  simp [execSoDisarm, accessOp_fixed]

theorem execCkptReq_fixed (h : Head) (s : State) :
    ResFixed (execCkptReq h s) s := by
  simp [execCkptReq, accessOp_fixed]

theorem execSqTailDoorbell_fixed (h : Head) (q : Nat) (value : BitVec 32) (s : State) :
    ResFixed (execSqTailDoorbell h q value s) s := by
  simp [execSqTailDoorbell, accessOp_fixed]

theorem execCqHeadDoorbell_fixed (h : Head) (q : Nat) (value : BitVec 32) (s : State) :
    ResFixed (execCqHeadDoorbell h q value s) s := by
  simp [execCqHeadDoorbell, accessOp_fixed]

theorem execGateOpen_fixed (h : Head) (q : Nat) (s : State) :
    ResFixed (execGateOpen h q s) s := by
  simp [execGateOpen, accessOp_fixed]

theorem execGateClose_fixed (h : Head) (q : Nat) (s : State) :
    ResFixed (execGateClose h q s) s := by
  simp [execGateClose, accessOp_fixed]

theorem execPairBarrier_fixed (h : Head) (value : BitVec 32) (s : State) :
    ResFixed (execPairBarrier h value s) s := by
  simp [execPairBarrier, accessOp_fixed]

theorem execEvtPendingClear_fixed (h : Head) (n : Nat) (value : BitVec 32) (s : State) :
    ResFixed (execEvtPendingClear h n value s) s := by
  simp [execEvtPendingClear, accessOp_fixed, ite_fixed]

theorem execDaybookFreeze_fixed (h : Head) (s : State) :
    ResFixed (execDaybookFreeze h s) s := by
  simp [execDaybookFreeze, accessOp_fixed]

theorem execDaybookThaw_fixed (h : Head) (s : State) :
    ResFixed (execDaybookThaw h s) s := by
  simp [execDaybookThaw, accessOp_fixed]

theorem execSnap_fixed (h : Head) (tag : BitVec 16) (s : State) :
    ResFixed (execSnap h tag s) s := by
  simp [execSnap, accessOp_fixed]

theorem execClearCounters_fixed (h : Head) (s : State) :
    ResFixed (execClearCounters h s) s := by
  simp [execClearCounters, accessOp_fixed]

theorem execSampleCfgWrite_fixed (h : Head) (slot : Nat) (period : Bool) (value : BitVec 32) (s : State) :
    ResFixed (execSampleCfgWrite h slot period value s) s := by
  simp [execSampleCfgWrite, accessOp_fixed, ite_fixed]

theorem execHistCfgWrite_fixed (h : Head) (hist : Nat) (value : BitVec 32) (s : State) :
    ResFixed (execHistCfgWrite h hist value s) s := by
  simp [execHistCfgWrite, accessOp_fixed, ite_fixed]

end Sys2Proof.Machine
end

