-- ==== Sys2Proof/Laws/Kept.lean ====
section
/-! SUPPORT. What every command keeps, ENTER_RMA among them: the queue, the board and the clock stay, and a state in RMA
stays in RMA (R390). -/

namespace Sys2Proof.Machine

/-- The queue, the board and the clock are the same, and RMA is not left. -/
def Kept (s t : State) : Prop :=
  t.pending = s.pending ∧ t.board = s.board ∧ t.clock = s.clock ∧ (s.ctl.life = .rma → t.ctl.life = .rma)

theorem kept_of_fixed {s t : State} (h : t.fixed = s.fixed) : Kept s t := by
  simp only [State.fixed, Prod.mk.injEq] at h
  exact ⟨h.1, h.2.1, h.2.2.1, fun hr => by simpa [hr] using h.2.2.2⟩

theorem Kept.trans {s t u : State} (h : Kept s t) (h' : Kept t u) : Kept s u :=
  ⟨h'.1.trans h.1, h'.2.1.trans h.2.1, h'.2.2.1.trans h.2.2.1, fun hr => h'.2.2.2 (h.2.2.2 hr)⟩

/-- A vault frame keeps what its body keeps. -/
theorem vaultRun_kept (op : Nat) (body : Nat → List Byte → State → VAns) (principal tag : Nat) (payload : List Byte) (s : State)
    (h : ∀ p b, Kept s (body p b s).st) : Kept s (vaultRun op body principal tag payload s) := by
  simp only [vaultRun]
  repeat' split
  · exact kept_of_fixed rfl
  · exact kept_of_fixed (vaultFlush_fixed _)
  · exact kept_of_fixed (vaultRespond_fixed _ _ _ _ _ _)
  · exact h _ _
  · exact (h _ _).trans (kept_of_fixed (vaultRespond_fixed _ _ _ _ _ _))

/-- R390: ENTER_RMA in RMA changes nothing; elsewhere it keeps the queue, the board and the clock. -/
theorem vEnterRma_kept (b : List Byte) (s : State) : Kept s (vEnterRma b s).st := by
  have h := authCheck_fixed b s
  simp only [vEnterRma]
  split
  · exact kept_of_fixed rfl
  · rename_i hl
    have hn : s.ctl.life ≠ .rma := by simpa using hl
    split
    · rename_i heq; rw [heq] at h; exact kept_of_fixed h.1
    · rename_i t _ heq
      rw [heq] at h
      have h3 := kept_of_fixed (h.2 t rfl)
      show Kept s (raise 8 2 0x04 det0 _)
      refine Kept.trans ?_ (kept_of_fixed ((raise_fixed _ _ _ _ _).trans (derivedDrop_fixed _ _)))
      exact ⟨h3.1, h3.2.1, h3.2.2.1, fun hr => absurd hr hn⟩

end Sys2Proof.Machine
end

