-- ==== Sys2Proof/Laws/Queued.lean ====
section
/-! SUPPORT. The relation `Queued`: raising, counting, queueing page writes and appending records give a queued state, and
every update carries a queued pair to a queued pair. -/

namespace Sys2Proof.Machine

variable {s t : State}

theorem Queued.refl (s : State) : Queued s s := Noted.refl _

theorem Queued.trans {a b c : State} (h : Queued a b) (g : Queued b c) : Queued a c := Noted.trans (a := a.idle) (b := b.idle) (c := c.idle) h g

theorem Noted.queued (h : Noted s t) : Queued s t := by
  refine ⟨?_, h.2.1, h.2.2.1, h.2.2.2.1, h.2.2.2.2⟩
  show { t.bare with pb := t.pb.idle, led := t.led.idle } = { s.bare with pb := s.pb.idle, led := s.led.idle }
  rw [h.1, h.pb, h.led]

theorem Queued.of_idle {a b : State} (h : a.idle = b.idle) : Queued a b := by rw [Queued, h]; exact Noted.refl _

theorem Queued.board (h : Queued s t) : t.board = s.board := Noted.board (s := s.idle) (t := t.idle) h
theorem Queued.isl (h : Queued s t) : t.isl = s.isl := Noted.isl (s := s.idle) (t := t.idle) h
theorem Queued.med (h : Queued s t) : t.med = s.med := Noted.med (s := s.idle) (t := t.idle) h
theorem Queued.integ (h : Queued s t) : t.integ = s.integ := Noted.integ (s := s.idle) (t := t.idle) h
theorem Queued.pur (h : Queued s t) : t.pur = s.pur := Noted.pur (s := s.idle) (t := t.idle) h
theorem Queued.tbs (h : Queued s t) : t.tbs = s.tbs := Noted.tbs (s := s.idle) (t := t.idle) h
theorem Queued.so (h : Queued s t) : t.so = s.so := Noted.so (s := s.idle) (t := t.idle) h
theorem Queued.esc (h : Queued s t) : t.esc = s.esc := Noted.esc (s := s.idle) (t := t.idle) h
theorem Queued.cry (h : Queued s t) : t.cry = s.cry := Noted.cry (s := s.idle) (t := t.idle) h
theorem Queued.mov (h : Queued s t) : t.mov = s.mov := Noted.mov (s := s.idle) (t := t.idle) h
theorem Queued.ctl (h : Queued s t) : t.ctl = s.ctl := Noted.ctl (s := s.idle) (t := t.idle) h
theorem Queued.pair (h : Queued s t) : t.pair = s.pair := Noted.pair (s := s.idle) (t := t.idle) h
theorem Queued.sup (h : Queued s t) : t.sup = s.sup := Noted.sup (s := s.idle) (t := t.idle) h
theorem Queued.clock (h : Queued s t) : t.clock = s.clock := Noted.clock (s := s.idle) (t := t.idle) h
theorem Queued.said (h : Queued s t) : t.said = s.said := Noted.said (s := s.idle) (t := t.idle) h
theorem Queued.rget (h : Queued s t) (k : Nat) (hk : notEvent k) : rget t k = rget s k := Noted.rget (s := s.idle) (t := t.idle) h k hk
theorem Queued.ctr (h : Queued s t) (i : Nat) (hi : noteCtr i = false) : ctr t i = ctr s i := Noted.ctr (s := s.idle) (t := t.idle) h i hi
theorem Queued.txns (h : Queued s t) : t.fe.txns = s.fe.txns := Noted.txns (s := s.idle) (t := t.idle) h
theorem Queued.led (h : Queued s t) : t.led.idle = s.led.idle := Noted.led (s := s.idle) (t := t.idle) h
theorem Queued.pb (h : Queued s t) : t.pb.idle = s.pb.idle := Noted.pb (s := s.idle) (t := t.idle) h

theorem Queued.modIsl (h : Queued s t) (f : Islands → Islands) : Queued (s.modIsl f) (t.modIsl f) := Noted.modIsl (s := s.idle) (t := t.idle) h f
theorem Queued.modMed (h : Queued s t) (f : Media → Media) : Queued (s.modMed f) (t.modMed f) := Noted.modMed (s := s.idle) (t := t.idle) h f
theorem Queued.modInteg (h : Queued s t) (f : Integrity → Integrity) : Queued (s.modInteg f) (t.modInteg f) := Noted.modInteg (s := s.idle) (t := t.idle) h f
theorem Queued.modPur (h : Queued s t) (f : Purse → Purse) : Queued (s.modPur f) (t.modPur f) := Noted.modPur (s := s.idle) (t := t.idle) h f
theorem Queued.modTbs (h : Queued s t) (f : Timebase → Timebase) : Queued (s.modTbs f) (t.modTbs f) := Noted.modTbs (s := s.idle) (t := t.idle) h f
theorem Queued.modSo (h : Queued s t) (f : Orders → Orders) : Queued (s.modSo f) (t.modSo f) := Noted.modSo (s := s.idle) (t := t.idle) h f
theorem Queued.modEsc (h : Queued s t) (f : Escrows → Escrows) : Queued (s.modEsc f) (t.modEsc f) := Noted.modEsc (s := s.idle) (t := t.idle) h f
theorem Queued.modCry (h : Queued s t) (f : Crypto → Crypto) : Queued (s.modCry f) (t.modCry f) := Noted.modCry (s := s.idle) (t := t.idle) h f
theorem Queued.modMov (h : Queued s t) (f : Mover → Mover) : Queued (s.modMov f) (t.modMov f) := Noted.modMov (s := s.idle) (t := t.idle) h f
theorem Queued.modCtl (h : Queued s t) (f : Control → Control) : Queued (s.modCtl f) (t.modCtl f) := Noted.modCtl (s := s.idle) (t := t.idle) h f
theorem Queued.modPair (h : Queued s t) (f : Pair → Pair) : Queued (s.modPair f) (t.modPair f) := Noted.modPair (s := s.idle) (t := t.idle) h f
theorem Queued.modSup (h : Queued s t) (f : Super → Super) : Queued (s.modSup f) (t.modSup f) := Noted.modSup (s := s.idle) (t := t.idle) h f

theorem Queued.modPb (h : Queued s t) (f : Passbook → Passbook) (hf : ∀ p q : Passbook, p.idle = q.idle → (f p).idle = (f q).idle) :
    Queued (s.modPb f) (t.modPb f) := by
  have := Noted.modPb (s := s.idle) (t := t.idle) h fun _ => (f s.pb).idle
  rwa [show t.idle.modPb (fun _ => (f s.pb).idle) = (t.modPb f).idle by
    rw [← hf _ _ h.pb]; rfl] at this

theorem Queued.modLed (h : Queued s t) (f : Ledger → Ledger) (hf : ∀ p q : Ledger, p.idle = q.idle → (f p).idle = (f q).idle) :
    Queued (s.modLed f) (t.modLed f) := by
  have := Noted.modLed (s := s.idle) (t := t.idle) h fun _ => (f s.led).idle
  rwa [show t.idle.modLed (fun _ => (f s.led).idle) = (t.modLed f).idle by
    rw [← hf _ _ h.led]; rfl] at this

theorem Queued.send (h : Queued s t) (o : Out) : Queued (send o s) (Machine.send o t) := Noted.send (s := s.idle) (t := t.idle) h o
theorem Queued.rset (h : Queued s t) (k : Nat) (v : BitVec 32) : Queued (rset s k v) (Machine.rset t k v) := Noted.rset (s := s.idle) (t := t.idle) h k v
theorem Queued.rbit (h : Queued s t) (k i : Nat) (hk : notEvent k) : Queued (rbit s k i) (Machine.rbit t k i) := Noted.rbit (s := s.idle) (t := t.idle) h k i hk
theorem Queued.rinc (h : Queued s t) (k n : Nat) (hk : notEvent k) : Queued (rinc s k n) (Machine.rinc t k n) := Noted.rinc (s := s.idle) (t := t.idle) h k n hk
theorem Queued.counted (h : Queued s t) (i n : Nat) : Queued (s.counted i n) (t.counted i n) := Noted.counted (s := s.idle) (t := t.idle) h i n
theorem Queued.raise (h : Queued s t) (g src n : Nat) (d : Det) : Queued s (raise g src n d t) :=
  h.trans (raise_noted _ _ _ _ _).queued
theorem Queued.bump (h : Queued s t) (i n : Nat) : Queued (s.counted i n) (bump i n t) := (h.counted i n).trans (bump_noted i n t).queued
theorem Queued.modPort (h : Queued s t) (d : Head) (f : Port → Port) (hf : ∀ p q : Port, p.bare = q.bare → (f p).bare = (f q).bare) :
    Queued (modPort d f s) (Machine.modPort d f t) := by
  have := Noted.modPort (s := s.idle) (t := t.idle) h d f hf
  cases d <;> exact this

/-! The passbook store. -/

theorem pageStart_queued (s : State) : Queued s (pageStart s) := by
  unfold pageStart
  dsimp only
  repeat' split
  all_goals exact .of_idle rfl

theorem pageQueue_queued (c a : Nat) (d : List Byte) (p : Nat) (s : State) : Queued s (pageQueue c a d p s) :=
  Queued.trans (.of_idle rfl) (pageStart_queued _)

theorem recordQueue_queued (a : Nat) (s : State) : Queued s (recordQueue a s) := pageQueue_queued _ _ _ _ _

theorem Queued.pageQueue (h : Queued s t) (c a : Nat) (d : List Byte) (p : Nat) : Queued s (pageQueue c a d p t) :=
  h.trans (pageQueue_queued _ _ _ _ _)

theorem Queued.recordQueue (h : Queued s t) (a : Nat) : Queued s (recordQueue a t) := h.trans (recordQueue_queued _ _)

theorem ringCheck_queued (s : State) : Queued s (ringCheck s) := by
  unfold ringCheck
  split
  · exact .of_idle rfl
  · split
    · exact .refl _
    · exact Queued.trans (.of_idle rfl) (raise_noted _ _ _ _ _).queued

theorem jAppend_queued (rs : List JRec) (s : State) : Queued s (jAppend rs s) :=
  Queued.trans (b := s.modLed fun l => { l with appends := l.appends ++ rs }) (.of_idle rfl)
    (Queued.trans (ringCheck_queued _) (pageStart_queued _))

theorem Queued.jAppend (h : Queued s t) (rs : List JRec) : Queued s (jAppend rs t) := h.trans (jAppend_queued _ _)

theorem pageStart_appends (s : State) : (pageStart s).led.appends = s.led.appends := by
  unfold pageStart
  dsimp only
  repeat' split
  all_goals rfl

theorem ringCheck_appends (s : State) : (ringCheck s).led.appends = s.led.appends := by
  unfold ringCheck
  split
  · rfl
  · split
    · rfl
    · rw [raise_led]; rfl

/-- R169: records are queued in order behind those that wait. -/
theorem jAppend_appends (rs : List JRec) (s : State) : (jAppend rs s).led.appends = s.led.appends ++ rs := by
  rw [jAppend, pageStart_appends, ringCheck_appends]; rfl

theorem pageQueue_appends (c a : Nat) (d : List Byte) (p : Nat) (s : State) : (pageQueue c a d p s).led.appends = s.led.appends :=
  pageStart_appends _

theorem pageStart_regs (s : State) : (pageStart s).regs = s.regs := by
  unfold pageStart
  dsimp only
  repeat' split
  all_goals rfl

theorem pageQueue_regs (c a : Nat) (d : List Byte) (p : Nat) (s : State) : (pageQueue c a d p s).regs = s.regs := pageStart_regs _

theorem Pends.pageQueue {g src n : Nat} (hp : Pends g src n s) (c a : Nat) (d : List Byte) (p : Nat) :
    Pends g src n (pageQueue c a d p s) := hp.of_regs (pageQueue_regs _ _ _ _ _)

theorem Pends.recordQueue {g src n : Nat} (hp : Pends g src n s) (a : Nat) : Pends g src n (recordQueue a s) := hp.pageQueue _ _ _ _

/-! Operations of the ledger. -/

/-- A state without the ledger and the page writes. -/
def State.noLed (s : State) : State := { s with pb := s.pb.idle, led := State.reset.led }

/-- t is s after operations of the ledger alone, whose page writes and records are queued and whose reasons are raised. -/
def Ledgered (s t : State) : Prop := Noted s.noLed t.noLed

theorem Ledgered.refl (s : State) : Ledgered s s := Noted.refl _
theorem Ledgered.trans {a b c : State} (h : Ledgered a b) (g : Ledgered b c) : Ledgered a c :=
  Noted.trans (a := a.noLed) (b := b.noLed) (c := c.noLed) h g
theorem Queued.ledgered (h : Queued s t) : Ledgered s t := by
  have := Noted.modLed (s := s.idle) (t := t.idle) h fun _ => State.reset.led
  exact this
theorem Noted.ledgered (h : Noted s t) : Ledgered s t := h.queued.ledgered
theorem Ledgered.modLed (f : Ledger → Ledger) (s : State) : Ledgered s (s.modLed f) := Noted.refl _
theorem Ledgered.board (h : Ledgered s t) : t.board = s.board := Noted.board (s := s.noLed) (t := t.noLed) h
theorem Ledgered.isl (h : Ledgered s t) : t.isl = s.isl := Noted.isl (s := s.noLed) (t := t.noLed) h
theorem Ledgered.med (h : Ledgered s t) : t.med = s.med := Noted.med (s := s.noLed) (t := t.noLed) h
theorem Ledgered.integ (h : Ledgered s t) : t.integ = s.integ := Noted.integ (s := s.noLed) (t := t.noLed) h
theorem Ledgered.pur (h : Ledgered s t) : t.pur = s.pur := Noted.pur (s := s.noLed) (t := t.noLed) h
theorem Ledgered.tbs (h : Ledgered s t) : t.tbs = s.tbs := Noted.tbs (s := s.noLed) (t := t.noLed) h
theorem Ledgered.so (h : Ledgered s t) : t.so = s.so := Noted.so (s := s.noLed) (t := t.noLed) h
theorem Ledgered.esc (h : Ledgered s t) : t.esc = s.esc := Noted.esc (s := s.noLed) (t := t.noLed) h
theorem Ledgered.cry (h : Ledgered s t) : t.cry = s.cry := Noted.cry (s := s.noLed) (t := t.noLed) h
theorem Ledgered.mov (h : Ledgered s t) : t.mov = s.mov := Noted.mov (s := s.noLed) (t := t.noLed) h
theorem Ledgered.ctl (h : Ledgered s t) : t.ctl = s.ctl := Noted.ctl (s := s.noLed) (t := t.noLed) h
theorem Ledgered.pair (h : Ledgered s t) : t.pair = s.pair := Noted.pair (s := s.noLed) (t := t.noLed) h
theorem Ledgered.sup (h : Ledgered s t) : t.sup = s.sup := Noted.sup (s := s.noLed) (t := t.noLed) h
theorem Ledgered.clock (h : Ledgered s t) : t.clock = s.clock := Noted.clock (s := s.noLed) (t := t.noLed) h
theorem Ledgered.said (h : Ledgered s t) : t.said = s.said := Noted.said (s := s.noLed) (t := t.noLed) h
theorem Ledgered.txns (h : Ledgered s t) : t.fe.txns = s.fe.txns := Noted.txns (s := s.noLed) (t := t.noLed) h
theorem Ledgered.pb (h : Ledgered s t) : t.pb.idle = s.pb.idle := Noted.pb (s := s.noLed) (t := t.noLed) h
theorem Ledgered.rget (h : Ledgered s t) (k : Nat) (hk : notEvent k) : rget t k = rget s k :=
  Noted.rget (s := s.noLed) (t := t.noLed) h k hk
theorem Ledgered.ctr (h : Ledgered s t) (i : Nat) (hi : noteCtr i = false) : ctr t i = ctr s i :=
  Noted.ctr (s := s.noLed) (t := t.noLed) h i hi

theorem queueMig_ledgered (f p r : Nat) (b : Bool) (s : State) : Ledgered s (queueMig f p r b s) := by
  unfold queueMig; split <;> exact .modLed _ _

theorem shelfMove_ledgered (b : Bool) (m : Nat) (s : State) : Ledgered s (shelfMove b m s) := by
  unfold shelfMove takeFolio
  dsimp only
  repeat' split
  all_goals first
    | exact .refl _
    | exact (raise_noted _ _ _ _ _).ledgered
    | exact (jAppend_queued _ _).ledgered.trans (jAppend_queued _ _).ledgered

/-- R191: what the highest WEAR raises. -/
theorem wearNear_ledgered (n : Nat) (s : State) : Ledgered s (wearNear n s) := by
  unfold wearNear; split
  exacts [(raise_noted _ _ _ _ _).ledgered, .refl _]

theorem wearTriggers_ledgered (m : Nat) (s : State) : Ledgered s (wearTriggers m s) := by
  unfold wearTriggers
  dsimp only
  repeat' split
  all_goals first
    | exact .refl _
    | exact shelfMove_ledgered _ _ _
    | exact queueMig_ledgered _ _ _ _ _
    | exact (jAppend_queued _ _).ledgered

/-- R158: a program counts in the wear table, which may queue a migration or a record. -/
theorem wearProgram_ledgered (m : Nat) (s : State) : Ledgered s (wearProgram m s) := by
  unfold wearProgram
  dsimp only
  repeat' split
  · exact .refl _
  · exact .modLed _ _
  · exact ((Ledgered.modLed _ _).trans (wearNear_ledgered _ _)).trans (wearTriggers_ledgered _ _)

end Sys2Proof.Machine
end

