-- ==== Sys2Proof/Tests/Slice0.lean ====
section
/-! SUPPORT. Small checks of the model by evaluation: every well-formedness check refuses a term, and every statement
with hypotheses has states and operands that meet them. -/

namespace Sys2Proof.Tests

open Sys2Proof.Machine

set_option Elab.async false

/-! Every check of WellFormed refuses an ill-formed command, and takes one at the boundary. -/

theorem test_wf_channel : (Instr.slotStart 32).wellFormed = false := by decide
theorem test_wf_cluster : (Instr.frameStart 8).wellFormed = false := by decide
theorem test_wf_die : (Instr.alert 0 18 1 0).wellFormed = false := by decide
theorem test_wf_bank : (Instr.bankResume 0 0 40).wellFormed = false := by decide
theorem test_wf_sector : (Instr.memRd .a 0 1 false).wellFormed = false := by decide
theorem test_wf_host_sector : (Instr.biTimeout .a (2 ^ 39)).wellFormed = false := by decide
theorem test_wf_entry : (Instr.nopOrder 1024).wellFormed = false := by decide
theorem test_wf_set_number : (Instr.releaseDone 64).wellFormed = false := by decide
theorem test_wf_queue : (Instr.sqTailDoorbell .a 4096 0).wellFormed = false := by decide
theorem test_wf_page : (Instr.keyPageReinit 8).wellFormed = false := by decide
theorem test_wf_histogram : (Instr.histogramRestart 8).wellFormed = false := by decide
theorem test_wf_sensor : (Instr.sensorConversion 12 0).wellFormed = false := by decide
theorem test_wf_principal : (Instr.loadKey 8 0).wellFormed = false := by decide
theorem test_wf_vector : (Instr.coalesceHoldExpiry .a 2048).wellFormed = false := by decide
theorem test_wf_media_folio : (Instr.folioBlankDone (2 ^ 25)).wellFormed = false := by decide
theorem test_wf_folio : (Instr.migrationPassDone (2 ^ 24)).wellFormed = false := by decide
theorem test_wf_block : (Instr.recoined (2 ^ 31)).wellFormed = false := by decide
theorem test_wf_domain : (Instr.islandClockReturn 18).wellFormed = false := by decide
theorem test_wf_slot : (Instr.sample 16).wellFormed = false := by decide
theorem test_wf_event_word : (Instr.evtPendingClear .a 10 0).wellFormed = false := by decide
theorem test_wf_decoder : (Instr.decoderCommit .a 4 default).wellFormed = false := by decide
theorem test_wf_engine : (Instr.chunkVerified 8).wellFormed = false := by decide
theorem test_wf_slice : (Instr.homeSliceReinit 8).wellFormed = false := by decide
theorem test_wf_fetch : (Instr.descriptorFetch 0 [0, 0, 0, 0, 0]).wellFormed = false := by decide
theorem test_wf_codes : (Instr.scanEnd (List.replicate 21 0)).wellFormed = false := by decide
theorem test_wf_target : (Instr.commitStaged (.channel 32)).wellFormed = false := by decide
theorem test_wf_boundary :
    ([.slotStart 31, .alert 31 17 1 0, .biTimeout .a (2 ^ 39 - 1), .folioBlankDone (2 ^ 25 - 1), .scanEnd (List.replicate 20 0),
      .commitStaged (.group 3)] : List Instr).all (·.wellFormed) = true := by decide

/-! States for the witnesses, each the one before with a few fields changed. -/

/-- A command answers a next state. -/
def goes (c : Instr) (s : State) : Bool := match exec c s with | .next _ => true | _ => false

/-- A step answers a next state. -/
def stepGoes (s : State) : Bool := match step s with | .next _ => true | _ => false

/-- In service: recovered, memory active, the timebase set, every mailbox at interface 2.0. -/
def st1 : State :=
  let s := State.reset.modLed fun l => { l with recovered := true, memActive := true }
  let s := s.modCtl fun c => { c with board := { c.board with declared := 2 } }
  let s := s.modFe fun f =>
    { f with portA := { f.portA with mbx := { f.portA.mbx with declared := 2 }, level := .cxl31, rate := 6, width := 16 },
             portB := { f.portB with mbx := { f.portB.mbx with declared := 2 } } }
  let s := s.modTbs fun t => { t with mint := 5000000123, set := true }
  let s := s.modSup fun u => { u with state := .on, inReset := false }
  let s := s.modIsl fun i => { i with on := 0x3FFFF }
  (s.modCtl fun c => { c with cpuUp := true }).setClock 90000000000

/-- Two heads. -/
def st2 : State := st1.modSup fun u => { u with portbMode := 1 }

/-- A correspondent pair, joined. -/
def st3 : State := (st1.modSup fun u => { u with portbMode := 2 }).modPair fun p => { p with state := .joined, v2 := true }

/-- A ledger entry on media folio m. -/
def mkE (m k : Nat) (st : FolioState) : LEntry := { entry0 with media := m, key := k, state := st, gen := 3, stamp := 1 }

/-- Folio 5 live, 6 blank-mapped, 7 in escrow, 8 read-only. -/
def st4 : State :=
  st2.modLed fun l =>
    { l with entries := [(5, mkE 9000 0 .live), (6, mkE noFolio 0 .blankMapped), (7, mkE 9001 0 .escrow), (8, mkE 9002 0 .readOnly)],
             rev := [(9000, { kind := 1, owner := 5 }), (9001, { kind := 1, owner := 7 }), (9002, { kind := 1, owner := 8 })] }

/-- The island of a domain is stopped. -/
def stopped (d : Nat) (s : State) : State := s.modIsl fun i => { i with on := i.on &&& ~~~ BitVec.ofNat 18 (2 ^ d) }

/-- A 32-bit access of BAR0. -/
def acc (dir : Dir) (off : Nat) : BarAccess := { head := .a, bar2 := false, off := off, size := 4, dir := dir, value := 0 }

/-- Decoder 0 of Port A over the whole device, and folio 6's first counter block in the counter cache: memory idle for line 49155. -/
def stMem : State :=
  let bl := blockOf 49155
  let s := st4.modFe fun f => { f with portA := { f.portA with decoders :=
    [(0, some { base := 0, size := 2 ^ 40, ways := 1, gran := 256, target := 0, kpos := 40, dpaBase := 0, dpaSize := 2 ^ 39, bi := false, sbox := false })] } }
  let s := s.modPur fun u => { u with ready := true, lossAccepted := true }
  s.modCry fun c => { c with cache := [(bl % max 1 (sc s), { block := bl, valid := true, dirty := false, sealed_ := false, ctr := ctr0 })] }

/-- The same with a strongbox decoder instead. -/
def stBox : State :=
  (stMem.modFe fun f => { f with portA := { f.portA with decoders :=
    [(0, some { base := 0, size := 2 ^ 30, ways := 1, gran := 256, target := 0, kpos := 40, dpaBase := 2 ^ 45, dpaSize := 2 ^ 30, bi := false, sbox := true })] } }).modPur
    fun u => { u with sboxAct := 2 }

/-- Channel 0 is up in the frame of now, with a data read queued for die 2. -/
def stCh : State :=
  let s := modChan 0 (fun c => { c with state := .active, frame := 5000000123 / 1024 * 1024 - 1024, map := 0x84448444, sched := 7 }) st4
  s.modMed fun m => { m with ops := [{ (default : MOp) with id := 3, ch := 0, kind := .read, pos := 2, m := 9000, issued := true, purpose := .prefetch 40960 }] }

/-- Every data die of channel 0 has answered a bring-up. -/
def dies0 : BitVec 18 := expected st1 0

/-- A read operation of channel 0 that has been sensed and given its slot, for host line 40960. -/
def rd0 : MOp := { (default : MOp) with id := 3, ch := 0, kind := .read, purpose := .prefetch 40960, pos := 2, m := 9000, issued := true, sent := true, gen := 3 }

/-- A state whose one media operation is o. -/
def stOp (o : MOp) : State := st4.modMed fun m => { m with ops := [o] }

/-- A written line of folio 5 that is good. -/
def ln0 : MLine := { hallmark := 1, stamp := 0, flags := lineFlags st4 0 false false false false, gen := 3, data := 0 }

/-- The read of line 0 of media folio 9000 for a purpose, under a bin. -/
def op0 (p : Purpose) (bin : Nat) : MOp := { rd0 with purpose := p, bin := bin, ch := chOf st4 9000 0, pos := dieOf st4 0 }

/-- A state whose one media operation is o, that line written, no search mode. -/
def stLine (o : MOp) : State :=
  (setMline (lineKey 9000 0) ln0 ((stOp o).modMed fun m => { m with diesTimeValid := true })).modInteg fun i => { i with search := false }

/-- Ledger-lost mode with the scan done. -/
def stLost : State := st1.modLed fun l => { l with lost := true, memActive := false, scanDone := true }

/-- A standing order's bytes. -/
def mkOrder (fire per cnt act flags tag arg : Nat) : BitVec 256 :=
  BitVec.ofNat 256 (fire + per * 2 ^ 64 + cnt * 2 ^ 96 + act * 2 ^ 128 + flags * 2 ^ 136 + tag * 2 ^ 144 + arg * 2 ^ 160)

/-- One issued firing of entry 0 with an action and an argument. -/
def stFire (act arg : Nat) : State :=
  st4.modSo fun o => { o with firings := [{ entry := 0, frame := 8192, fireTime := 4096, bytes := mkOrder 4096 0 1 act 1 7 arg }] }

/-- Escrow set 1 in a state, with members. -/
def stSet (x : EscState) (ms : List Nat) (y : State) : State :=
  y.modEsc fun e => { e with sets := [(1, { (default : Escrow) with state := x, members := ms })] }

/-- Standing order 0 with bytes, armed. -/
def stArmed (b : BitVec 256) (y : State) : State :=
  y.modSo fun o => { o with entries := [(0, { (default : SoEntry) with bytes := b, state := .armed })] }

/-- The append of r is in progress, another waits. -/
def stApp (r : JRec) : State := st4.modLed fun l => { l with appends := [r, jrec 0x06 1 0 0 0 0], appending := true, journalFull := false }

/-- Before recovery, every channel up, both checkpoint copies of sequence 2. -/
def stRec : State :=
  let s := forEach (List.range 32) (fun c s => modChan c (fun x => { x with state := .active }) s) st4
  let c : CkptCopy := { seq := 2, begin_ := 40, body := { ledger := [(3, mkE 777 0 .live)], wear := [], rev := [], wearBase := 0 } }
  s.modLed fun l => { l with recovered := false, memActive := false, copyA := c, copyB := c, ring := [{ jrec 0x09 2 0 0 0 0 with seq := 40 }, { jrec 0x0A 2 0 0 0 0 with seq := 41 }] }

/-- Migrations in a state. -/
def stMig (p : MigPhase) (pass : Nat) : State :=
  st4.modLed fun l => { l with migs := [{ folio := 5, prio := 3, retire := 0, bullion := true, src := 9000, dst := 300, phase := p, pass := pass, marked := [], todo := [], own := 1 }] }

/-- A fetched descriptor at index 2, its bytes given as offset, length, value. -/
def mkDesc (op : Nat) (fields : List (Nat × Nat × Nat)) : Desc :=
  { (default : Desc) with idx := 2, raw := BitVec.ofNat 512 (fields.foldl (fun a e => a + e.2.2 % 2 ^ (8 * e.2.1) * 2 ^ (8 * e.1)) op), stage := .fetched }

/-- A running queue of Port A with these descriptors. -/
def mkQueue (d : List Desc) : Queue :=
  { (default : Queue) with head := .a, sqLog2 := 4, cqLog2 := 4, sqTail := 3, cqUsed := 2, cqTail := 5, cqHead := 3, cqBase := 0x1000,
                           engine := 0, grants := BitVec.allOnes 128, descs := d, state := .running, phase := true }

/-- The device address of line 49155. -/
def dA : Nat := 49155 * 256

/-- Queue 1 with these descriptors, memory idle for line 49155. -/
def stQ (d : List Desc) : State := stMem.modMov fun m => { m with queues := [(1, some (mkQueue d))] }

/-- The descriptor may run from queue 1. -/
def ready (op : Nat) (d : Desc) (s : State) : Bool := descReady s 1 2 op (mkQueue [d]) d

def dFill : Desc := mkDesc 2 [(16, 8, dA), (24, 4, 256), (32, 8, 0x0123456789ABCDEF)]
def dZero : Desc := mkDesc 3 [(16, 8, dA), (24, 4, 256)]
def dIn : Desc := mkDesc 1 [(4, 1, 0x80), (16, 8, dA), (24, 4, 256), (8, 8, 0x4000)]
def dOut : Desc := mkDesc 1 [(5, 1, 0x80), (8, 8, dA), (24, 4, 256), (16, 8, 0x4000)]
def dStore : Desc := mkDesc 9 [(16, 8, dA + 72), (32, 8, 5)]
def dLost : Desc := mkDesc 9 [(16, 8, 200 * 2 ^ 21 + 72), (32, 8, 5)]
def dLoad : Desc := mkDesc 8 [(8, 8, 200 * 2 ^ 21 + 72)]
def dPre : Desc := mkDesc 6 [(8, 8, 5 * 2 ^ 21 + 512), (24, 4, 256)]
def dClean : Desc := mkDesc 7 [(8, 8, dA), (24, 4, 512)]
def dDone : Desc := { mkDesc 0x0B [] with stage := .done, status := 0 }

/-- Queue 1 holds a reservation of line 49155. -/
def withResv (s : State) : State :=
  s.modMov fun m => { m with resv := [{ q := 1, lineNo := 49155, slice := 0, since := 0, senior := false, lost := 0 }] }

/-- Payload of Create Queue Pair for queue 7. -/
def mkCreate : List Byte := toLE 2 7 ++ toLE 1 4 ++ toLE 1 5 ++ toLE 4 0 ++ toLE 8 0x2000 ++ toLE 8 0x3000 ++ toLE 2 0x8001 ++ toLE 1 4 ++ zeros 5 ++ toLE 16 1

/-- A key page that is complete, with its slot selection. -/
def mkPage (sel : Nat) (lock : Bool) : KeyPage :=
  { (default : KeyPage) with slotSel := BitVec.ofNat 32 sel, lock := lock, keyWritten := 0xFF, key := 77, bind := 3, idLo := 5 }

/-- Vault state: pages 0 to 2 open, 3 locked, two domain slots loaded. -/
def stV : State :=
  st4.modCry fun c => { c with pages := [(0, mkPage 2 false), (1, mkPage 5 false), (2, mkPage 4 false), (3, mkPage 2 true)],
                               dom := [(2, some 9), (1, some 5)] }

/-- A pair, its link up. -/
def stP (f : Pair → Pair) : State :=
  (st4.modSup fun u => { u with portbMode := 2 }).modPair fun p => f { p with state := .joined, step := .up, v2 := true, lastRx := 0, lastTx := 0 }

/-- A mirror entry of folio 5. -/
def mkMir (n : Nat) : MirrorEntry := { seq := n, key := 0, sector := 5 * 32768 + 5, data := 3, settle := false, acked := false, refused := false }

/-- A package slot loaded as slot 1, for export or for import. -/
def withPkg (ex : Bool) (s : State) : State :=
  s.modCry fun c => { c with pkg := [(1, { (default : PkgSlot) with loaded := true, export_ := ex, pkgId := 0x1234, keyId := 0, fixed := 6 })] }

def dImp : Desc := mkDesc 4 [(4, 1, 0x80), (16, 8, dA), (8, 8, 0x4000), (32, 4, 9), (36, 1, 1), (40, 8, 4096)]
def dExp : Desc := mkDesc 5 [(5, 1, 0x80), (8, 8, dA), (24, 4, 256), (16, 8, 0x4000), (32, 4, 9), (36, 1, 1), (37, 1, 1)]

/-- The only chunk of package 0x1234 for that descriptor. -/
def mkChunk : List Byte :=
  toLE 4 0x43444E46 ++ [1, 1] ++ zeros 2 ++ toLE 8 0x1234 ++ toLE 4 9 ++ toLE 4 256 ++ toLE 8 0 ++ zeros 12 ++ zeros 20 ++ zeros 256 ++ zeros 16

/-- A chunk being verified for that descriptor on engine 1. -/
def inHand (ok : Bool) (s : State) : State :=
  s.modMov fun m => { m with chunks := [{ engine := 1, q := 1, idx := 2, stage := .verifying, slot := 1, dpa := dA, key := 0, escrow := 0,
                                          last := true, plain := [5], tagOk := ok, captured := 0 }] }

/-- Both links up at CXL 3.1, a queue of each head, a dirty line held for power. -/
def stUp : State :=
  let f (p : Port) : Port := { p with rate := 2, width := 3, level := .cxl31, sessions := 2 }
  let s := st4.modFe fun x => { x with portA := f x.portA, portB := f x.portB }
  s.modMov fun m => { m with queues := [(1, some { (default : Queue) with head := .a }), (4, some { (default : Queue) with head := .b })] }

/-- The links down. -/
def stDown : State := st4.modFe fun x => { x with portA := { x.portA with rate := 0 }, portB := { x.portB with rate := 0 } }

/-- A function in reinit, with failures. -/
def stBusy (f : Function) (n : Nat) : State := stUp.modSup fun u => { u with fnBusy := [f], fnFails := [(fnCode f, n)] }

/-- A staged image that passes its checks. -/
def stFw : State :=
  st4.modCtl fun c => { c with fw1 := { FwSlot.init with state := .complete, forB1 := true, sigOk := true, data := [1, 2, 3, 4], svn := 7,
                                                         version := 3, bytes := 256, total := 512 } }

/-- Rail 0 in use, in a state of the supervisor. -/
def stRail (f : Rail → Rail) (x : SupState) : State :=
  let t : List (Nat × BitVec 64) := [(0x100, 3), (0x101, BitVec.ofNat 64 (1000 + 100 * 4096 + 20 * 2 ^ 24)), (0x102, BitVec.ofNat 64 (10 + 10 * 65536)),
                                     (0x103, BitVec.ofNat 64 (5 + 7 * 65536))]
  stUp.modSup fun u => { u with state := x, railInForce := t, railCfg := t, rails := [(0, f default)] }

/-- The button held since 50 s. -/
def pressed (s : State) : State := s.modSup fun u => { u with pbPressed := true, pbAt := 50000000000, onAt := 5 }

/-- A power-down drain in a state, nothing left to drain. -/
def draining (d : DrainMode) (s : State) : State := s.modPur fun u => { u with drain := d, drainSince := 89999000000, slots := [], evb := [], exRing := [], wbRing := [] }

/-- A page write runs. -/
def writing (c a : Nat) (d : List Byte) (s : State) : State := s.modPb fun p => { p with writing := some { cls := c, addr := a, data := d, principal := 0 } }

/-- The hypotheses of StepRunsFront can be met, each clause at its own states and operands. -/
theorem witness_StepRunsFront :
    State.reset.pending = [] := by
  decide +kernel

/-- The hypotheses of StepTakesOneCommand can be met, each clause at its own states and operands. -/
theorem witness_StepTakesOneCommand :
    (stepGoes State.reset = true) ∧
    (stepGoes (st1.setPending [.frameToken, .drainIssue]) = true) ∧
    (boardOk State.reset = true) := by
  refine ⟨?_, ?_, ?_⟩ <;> decide +kernel

/-- The hypotheses of RmaIsPermanent can be met, each clause at its own states and operands. -/
theorem witness_RmaIsPermanent :
    ((st1.modCtl fun c => { c with life := .rma }).ctl.life = .rma) ∧
    (stepGoes ((st1.modCtl fun c => { c with life := .rma }).setPending [.vddAonLoss]) = true) := by
  refine ⟨?_, ?_⟩ <;> decide +kernel

/-- The hypotheses of RegisterWriteSetsFields can be met, each clause at its own states and operands. -/
theorem witness_RegisterWriteSetsFields :
    (plainReg 0x40 = true ∧ domFree State.reset (domainOf 0x40) = true) ∧
    (plainReg 0x305FC = true ∧ domFree st1 (domainOf 0x305FC) = true) ∧
    (plainReg 0x500000 = true ∧ domFree st1 (domainOf 0x500000) = true) := by
  refine ⟨?_, ?_, ?_⟩ <;> decide +kernel

/-- The hypotheses of MisalignedAndLatchingAccesses can be met, each clause at its own states and operands. -/
theorem witness_MisalignedAndLatchingAccesses :
    (accAligned (acc .read 0x41) = false) ∧
    (accAligned { acc .write 0x42 with size := 2 } = false) ∧
    (latches (acc .read 0x60008) = true ∧ apertureOf (acc .read 0x60008) = none ∧
      domFree st1 (accDomain (acc .read 0x60008)) = true ∧
      domFree st1 (accDomain { acc .read 0x60008 with off := 0x6000C }) = true) ∧
    (latches (acc .read 0x55FF8) = true ∧ domFree st1 (accDomain (acc .read 0x55FF8)) = true) := by
  refine ⟨?_, ?_, ?_, ?_⟩ <;> decide +kernel

/-- The hypotheses of ApertureReadAnswersLowestMember can be met, each clause at its own states and operands. -/
theorem witness_ApertureReadAnswersLowestMember :
    (accAligned (acc .read 0x120000) = true ∧ apertureOf (acc .read 0x120000) = some .broadcast ∧
      (∀ c ∈ members st1 .broadcast, domFree st1 (chDomain c) = true) ∧ members st1 .broadcast ≠ []) ∧
    (apertureOf (acc .read 0x124FFC) = some (.group 3) ∧
      members (st1.modMed fun m => { m with groupMask := [] }) (.group 3) = []) := by
  refine ⟨?_, ?_⟩ <;> decide +kernel

/-- The hypotheses of StoppedIslandHoldsAccesses can be met, each clause at its own states and operands. -/
theorem witness_StoppedIslandHoldsAccesses :
    (rowAccess (.intCntClear .a) = some (wr0 .a 0x200004 1) ∧ domFree (stopped domECC st1) domECC = false ∧
      (heldFor (stopped domECC st1) domECC).length < 16 ∧ accDomain (wr0 .a 0x200004 1) = domECC) ∧
    (16 ≤ (heldFor ((stopped domECC st1).modIsl fun i => { i with held := List.replicate 16 { dom := domECC, acc := wr0 .a 0x200004 1, member := none } }) domECC).length) ∧
    (100000 + 89999900000 ≤ st1.clock ∧ domRuns (stopped domECC st1) domECC = false) ∧
    (domRuns st1 domECC = true ∧ (st1.isl.waiting.any fun w => w.dom == domECC) = false ∧
      (heldFor st1 domECC).Pairwise (fun a b => a.seq ≤ b.seq)) ∧
    (let s := st1.modIsl fun i => { i with held := [1, 4].map fun n => { dom := domECC, acc := wr0 .a 0x200004 1, member := none, seq := n } };
      domRuns s domECC = true ∧ (heldFor s domECC).length = 2 ∧ (heldFor s domECC).Pairwise (fun a b => a.seq ≤ b.seq)) := by
  refine ⟨?_, ?_, ?_, ?_, ?_⟩ <;> decide +kernel

/-- The hypotheses of WideWriteOfPairIsOneCheck can be met, each clause at its own states and operands. -/
theorem witness_WideWriteOfPairIsOneCheck :
    domFree st1 domTBS = true := by
  decide +kernel

/-- The hypotheses of AuditControlsAndCounterClears can be met, each clause at its own states and operands. -/
theorem witness_AuditControlsAndCounterClears :
    (domFree st1 domFAB = true ∧ domFree st1 domMGT = true) ∧
    (st1.ev.frozen = false ∧ (st1.modEv fun e => { e with frozen := true }).ev.frozen = true) ∧
    (domFree st1 domECC = true ∧ domFree st1 domPUR = true ∧ domFree st1 domCIP = true ∧ domFree st1 domFAB = true) ∧
    (populated st1 0 = true ∧ domFree st1 (chDomain 0) = true) := by
  refine ⟨?_, ?_, ?_, ?_⟩ <;> decide +kernel

/-- The hypotheses of TimebaseWrites can be met, each clause at its own states and operands. -/
theorem witness_TimebaseWrites :
    (domFree st1 domTBS = true ∧ st1.tbs.locked = false ∧ (st1.modTbs fun t => { t with locked := true }).tbs.locked = true) ∧
    ((st1.modTbs fun t => { t with ptmCfg := 0x10000 }).tbs.ptmCfg.getLsbD 16 = true ∧ twoHeads st1 = false ∧
      twoHeads st2 = true) ∧
    (pairMode st3 = true ∧ domFree st3 domTBS = true ∧ pairMode st1 = false) ∧
    (st1.tbs.source = 0 ∧ st1.tbs.setLoHeld.toNat % 1024 = 0) ∧
    ((st1.modTbs fun t => { t with setLoHeld := 5 }).tbs.setLoHeld.toNat % 1024 ≠ 0 ∧
      (st1.modTbs fun t => { t with source := 2 }).tbs.source ≠ 0) := by
  refine ⟨?_, ?_, ?_, ?_, ?_⟩ <;> decide +kernel

/-- The hypotheses of RaisedReasonIsPending can be met, each clause at its own states and operands. -/
theorem witness_RaisedReasonIsPending :
    (flatOf (evCode 8 4 0x02) < 288 ∧ evCode 8 4 0x02 % 128 = 0x02) ∧
    (flatOf (evCode 0 0 0) < 288 ∧ evCode 0 0 0 % 128 = 0) ∧
    (flatOf (evCode 2 31 0x7F) < 288 ∧ evCode 2 31 0x7F % 128 = 0x7F) := by
  refine ⟨?_, ?_, ?_⟩ <;> decide +kernel

/-- The hypotheses of DaybookEvents can be met, each clause at its own states and operands. -/
theorem witness_DaybookEvents :
    (let c := tget coal0 [(2047, { coal0 with acc := 1, holdUs := 5, first := 7 })] 2047; 0 < c.acc ∧
      1000 * c.holdUs + c.first ≤ st1.clock) ∧
    ((tget coal0 (portOf st1 .a).coal 0).acc = 0) ∧
    (st1.ev.takenAt ≤ st1.clock ∧ (st1.modEv fun e => { e with inq := [default] }).ev.inq = default :: []) ∧
    (st1.tbs.mint.toNat / 2 ^ 30 * 2 ^ 30 ≠ st1.ev.window) ∧
    (State.reset.tbs.mint.toNat / 2 ^ 30 * 2 ^ 30 = State.reset.ev.window) := by
  refine ⟨?_, ?_, ?_, ?_, ?_⟩ <;> decide +kernel

/-- The hypotheses of AuditEvents can be met, each clause at its own states and operands. -/
theorem witness_AuditEvents :
    ((st1.modEv fun e => { e with clearAt := some 4096 }).ev.clearAt = some 4096 ∧ 4096 ≤ st1.tbs.mint.toNat) ∧
    (st1.ev.snapCopy = none ∧
      [({ at_ := 4096, tag := 5, who := 2 } : SnapReq)].filter (fun q => q.at_ ≤ st1.tbs.mint.toNat / 1024 * 1024) = { at_ := 4096, tag := 5, who := 2 } :: []) ∧
    ((st1.modEv fun e => { e with snapCopy := some default }).ev.snapCopy = some default) ∧
    (let s := (rset (rset st1 0x50040 0x401) 0x50044 3).modEv fun e => { e with ctrs := [(1, 9)] };
      (rget s 0x50040).getLsbD 10 = true ∧ tget 0 s.ev.sampleBase 0 < 2 ^ 48 ∧
      tget 0 s.ev.sampleK 0 < (ctr s (bits (rval s 0x50040) 0 10) - BitVec.ofNat 48 (tget 0 s.ev.sampleBase 0)).toNat / max 1 (rval s 0x50044)) ∧
    (tget 0 (st1.modEv fun e => { e with histAt := [(7, 4097)] }).ev.histAt 7 = 4096 + 1 ∧ 4096 ≤ st1.tbs.mint.toNat) := by
  refine ⟨?_, ?_, ?_, ?_, ?_⟩ <;> decide +kernel

/-- The hypotheses of TableReadsLastWrite can be met, each clause at its own states and operands. -/
theorem witness_TableReadsLastWrite :
    twf 0 [(1, 5), (4, 6)] = true := by
  decide +kernel

/-- The hypotheses of HostReadsBackWhatItWrote can be met, each clause at its own states and operands. -/
theorem witness_HostReadsBackWhatItWrote :
    takesWrites stMem .a = true ∧ ideBlocks stMem .a = false ∧
      ((decodeHpa stMem .a (6 * 2 ^ 21 + 3 * 256)).any fun g => !g.sbox && g.inside && idleFor stMem .a g.key (g.dpa / 256)) = true := by
  decide +kernel

/-- The hypotheses of StrongboxAccess can be met, each clause at its own states and operands. -/
theorem witness_StrongboxAccess :
    takesReads stBox .a = true ∧ takesWrites stBox .a = true ∧ ideBlocks stBox .a = false ∧
      ((decodeHpa stBox .a (2 ^ 30 - 64)).any fun g => g.sbox && Nat.ble (2 ^ 45) g.dpa && Nat.blt (g.dpa - 2 ^ 45) (stBox.pur.sboxAct * 2 ^ 30) && !reinitHolds stBox (g.dpa / 256) && (sfFind stBox (g.dpa / 64)).isNone) = true ∧
      stBox.fe.txns = [] ∧ stBox.fe.bis = [] ∧ stBox.fe.sf = [] := by
  decide +kernel

/-- The hypotheses of BeyondDpaSizeIsUnprovisioned can be met, each clause at its own states and operands. -/
theorem witness_BeyondDpaSizeIsUnprovisioned :
    ((portOf stMem .a).level ≠ .cxl11 ∧ takesReads stMem .a = true ∧ takesWrites stMem .a = true ∧ ideBlocks stMem .a = false ∧
      ((portOf stMem .a).decoders.all fun e => e.1 == 0 && e.2.any fun d => !d.sbox && Nat.ble d.base (2 ^ 39) && Nat.blt (2 ^ 39) (d.base + d.size) && Nat.ble d.dpaSize (deinterleave d.ways d.gran (2 ^ 39 - d.base) % 2 ^ d.kpos)) = true) ∧
    (provisioned (ent stMem (folioOf (2 ^ 38 / 256))) = false ∧
      ((decodeHpa stMem .a (2 ^ 38)).any fun g => !g.sbox && g.inside && g.dpa == 2 ^ 38 && g.key == 0) = true) := by
  refine ⟨?_, ?_⟩ <;> decide +kernel

/-- The hypotheses of MemoryEventsComplete can be met, each clause at its own states and operands. -/
theorem witness_MemoryEventsComplete :
    (takesReads stMem .a = true ∧ provisioned (ent stMem 5) = true ∧ (cachedLine stMem (5 * 8192)).isNone = true ∧
      hasMedia stMem (5 * 8192) = true ∧ accessCheck stMem 0 (some .a) (ent stMem 5) = none ∧ stMem.pur.prefetchQ = [] ∧
      ((decodeHpa stMem .a (5 * 2 ^ 21)).any fun g => !g.sbox && g.inside && g.dpa == 5 * 2 ^ 21 && g.key == 0) = true) ∧
    (let x : BiSnoop := { (default : BiSnoop) with head := .a, sector := 12, since := 7 };
      let s := st1.modFe fun f => { f with bis := [x] }; s.fe.bis = [x] ∧ x.head = .a ∧
      (s.fe.txns.any fun t => t.wait == .snoop || t.wait.polled) = false ∧ 2000000 + x.since ≤ s.clock) ∧
    (let s := st1.modPur fun u => { u with lostSlots := [(9, 1, 0)] }; (s.pur.lostSlots.any fun e => e.1 == 9) = true ∧
      (s.fe.txns.any fun t => t.wait == .slotScan 9) = false ∧
      (s.pur.exRing ++ s.pur.wbRing).filter (fun r => r.lineNo % purseSlots s == 9) = []) ∧
    (let s := stMem.modCry fun c => { c with recoins := [blockOf 49155], pagesRc := [(0, { (default : RecoinPage) with block := blockOf 49155 })] };
      s.cry.recoins.contains (blockOf 49155) = true ∧ (s.cry.pagesRc.any fun e => e.2.block == blockOf 49155) = true ∧
      ((ctrFetch (sc s) (blockOf 49155) s).1.any fun c => Nat.blt c.major.toNat (epochEnd c.major.toNat)) = true ∧
      (s.fe.txns.any fun t => t.wait == .recoin (blockOf 49155)) = false) := by
  refine ⟨?_, ?_, ?_, ?_⟩ <;> decide +kernel

/-- The hypotheses of GlobalPersistentFlush can be met, each clause at its own states and operands. -/
theorem witness_GlobalPersistentFlush :
    (memEnabled st1 .a = true ∧ 1 ≤ (portOf (modPort .a (fun p => { p with gpf := 1 }) st1) .a).gpf) ∧
    (gpfReady st1 = true ∧ (modPort .a (fun p => { p with gpf := 2 }) st1).fe.portA.gpf = 2) ∧
    (gpfReady (st1.modPur fun u => { u with waitQ := [default] }) = false) := by
  refine ⟨?_, ?_, ?_⟩ <;> decide +kernel

/-- The hypotheses of ChannelCommits can be met, each clause at its own states and operands. -/
theorem witness_ChannelCommits :
    (boardOk st1 = true ∧ Machine.targetOk .broadcast = true ∧ (∀ c, c < 32 → domFree st1 (chDomain c) = true)) ∧
    ((chan st1 0).commitBuf = none) ∧
    (let s := modChan 0 (fun c => { c with commitBuf := some (0x84448444, 7), commitAt := 4096 }) st1;
      (chan s 0).commitBuf = some (0x84448444, 7) ∧ (chan s 0).commitAt ≤ s.tbs.mint.toNat ∧
      mapValid (s.board.m2.getLsbD 0) 0x84448444 = true ∧ mapValid (s.board.m2.getLsbD 0) 0 = false) := by
  refine ⟨?_, ?_, ?_⟩ <;> decide +kernel

/-- The hypotheses of FramesAndSlots can be met, each clause at its own states and operands. -/
theorem witness_FramesAndSlots :
    (let s := st1.modTbs fun t => { t with tokenFrame := (5000000123 / 1024 + 1) * 1024 };
      (s.tbs.mint.toNat / 1024 + 1) * 1024 = s.tbs.tokenFrame) ∧
    ((st1.tbs.mint.toNat / 1024 + 1) * 1024 ≠ st1.tbs.tokenFrame ∧ boardOk st1 = true ∧ soDue st1 4096 = []) ∧
    (let s := modChan 0 (fun c => { c with token := [4096] }) stCh; 0 ∈ clusterChans s 0 ∧ (chan s 0).token = 4096 :: [] ∧
      (∃ x ∈ (chan s 0).token, x ≤ s.tbs.mint.toNat)) ∧
    (0 ∈ clusterChans stCh 0 ∧ (chan stCh 0).joining = false ∧ 1024 + (chan stCh 0).frame ≤ stCh.tbs.mint.toNat ∧
      (∀ x ∈ (chan stCh 0).token, 1024 + (chan stCh 0).frame < x)) ∧
    ((chan st1 0).state ≠ .active) ∧
    ((chan stCh 0).state = .active ∧ (chan stCh 0).slot < slotCount stCh 0 ∧
      (chan stCh 0).frame + (chan stCh 0).slot * slotLen stCh 0 ≤ stCh.tbs.mint.toNat ∧ stCh.pur.prefetchQ = [] ∧
      (chan stCh 0).recon = none ∧ (chan stCh 0).reconQ = [] ∧ stCh.pair.state ≠ .settling ∧ stCh.integ.rebuildCh = none ∧
      stCh.pur.drain = .none ∧ stCh.led.blanking = [] ∧ stCh.med.assays = [] ∧ slotSpare stCh 0 = none ∧
      (∀ o ∈ stCh.med.ops, o.issued = true)) ∧
    (let q : MOp := { (default : MOp) with id := 4, ch := 0, kind := .write, pos := 2, m := 9000, purpose := .drain 40961 };
      let s := stCh.modMed fun m => { m with ops := [q] };
      ((List.range 8).any fun k => (slotServes s 0 k).bind (slotPick s 0) == some q) = true ∧ readsLine q = false ∧
      readsReg q = false ∧ q.updated = false) ∧
    (let q : MOp := { (default : MOp) with id := 4, ch := 0, kind := .read, pos := 2, m := 9000, issued := true, purpose := .prefetch 40961 };
      let s := stCh.modMed fun m => { m with ops := [q] };
      ((List.range 8).any fun k => (slotServes s 0 k).bind (slotPick s 0) == some q) = true ∧ readsLine q = true) ∧
    (let q : MOp := { (default : MOp) with id := 4, ch := 0, kind := .write, pos := 2, m := 9000, bullion := true, updated := true, purpose := .drain 40961 };
      let s := stCh.modMed fun m => { m with ops := [q] };
      ((List.range 8).any fun k => (slotServes s 0 k).bind (slotPick s 0) == some q) = true ∧ readsLine q = false) ∧
    (soDue (stCh.modSo fun o => { o with entries := [(3, { (default : SoEntry) with state := .armed, bytes := 4096 })] }) 8192 = [(3, { (default : SoEntry) with state := .armed, bytes := 4096 })] ∧
      soRunning stCh = true ∧ stCh.led.memActive = true) ∧
    (let s := (stCh.modMed fun m => { m with ops := [] }).modLed fun l => { l with blanking := [(300, 0)] };
      s.led.blanking = [(300, 0)] ∧ s.med.ops = [] ∧ s.med.assays = [] ∧ (chan s 0).banks = [] ∧ 0 ∈ linePositions s 0 ∧
      0 < rowCount s ∧ dieDead s 0 0 300 = false ∧ tget 0 (chan s 0).blankAt (300 * 18) = 0) ∧
    (let s := modChan 0 (fun c => { c with token := [4096], joining := true }) stCh; 0 ∈ clusterChans s 0 ∧
      (chan s 0).token = [4096] ∧ 4096 ≤ s.tbs.mint.toNat ∧ (chan s 0).joining = true) ∧
    (let q : MOp := { (default : MOp) with id := 4, ch := 0, kind := .maint, pos := 2, m := noFolio, ready := true, purpose := .mrr 2 5 };
      let s := stCh.modMed fun m => { m with ops := [q] };
      ((List.range 8).any fun k => (slotServes s 0 k).bind (slotPick s 0) == some q) = true ∧ readsLine q = false ∧
      blanks q = false) := by
  refine ⟨?_, ?_, ?_, ?_, ?_, ?_, ?_, ?_, ?_, ?_, ?_, ?_, ?_⟩ <;> decide +kernel

/-- The hypotheses of DieEvents can be met, each clause at its own states and operands. -/
theorem witness_DieEvents :
    (let s := st1.modMed fun m => { m with timeUpdated := 1 }; s.tbs.mint.toNat / 2 ^ 32 = s.med.timeUpdated) ∧
    (let s := st1.modMed fun m => { m with timeUpdated := 0 }; s.tbs.mint.toNat / 2 ^ 32 ≠ s.med.timeUpdated) ∧
    (let s := modChan 0 (fun c => { c with banks := [(2 * 64 + 1, { (default : Bank) with suspended := true })] }) st1;
      (bankAt s 0 2 1).suspended = true ∧ readQueued s 0 2 1 = false ∧ (bankAt s 0 2 1).lastRead + 64 ≤ s.clock) ∧
    (let s := { modChan 0 (fun c => { c with banks := [(2 * 64 + 1, { (default : Bank) with suspended := true })] }) st1 with board := { st1.board with m2 := 1 } };
      s.board.m2.getLsbD 0 = true ∧ (bankAt s 0 2 1).suspended = true) ∧
    ((bankAt st1 0 2 1).suspended = false) ∧
    (populated st1 1 = false ∧ populated st1 0 = true) ∧
    ((0b00100 : BitVec 5) ≠ 0 ∧ (0b00100 : BitVec 5) &&& 0b10011 = 0) ∧
    (let s := stOp rd0; findOp s 3 = some rd0 ∧ rd0.ch = 0 ∧ rd0.issued = true ∧ readsLine rd0 = true ∧ rd0.tries < 3 ∧
      populated s 0 = true) ∧
    (let o := { rd0 with kind := .write, purpose := .drain 40960 }; let s := stOp o; findOp s 3 = some o ∧ o.issued = true ∧
      readsLine o = false ∧ readsReg o = false ∧ blanks o = false ∧ o.merged = false ∧
      progPos s { o with updated := false } = o.pos ∧ o.spares < 2 ∧
      (List.range 256).find? (fun i => !(sparesUsed s 0 o.pos).any fun e => e.1 % 256 == i) = some 0 ∧
      ((sparesUsed s 0 o.pos).filter fun e => bits e.2.toNat 23 6 == bankOf s 0 o.m).length < 8) := by
  refine ⟨?_, ?_, ?_, ?_, ?_, ?_, ?_, ?_, ?_⟩ <;> decide +kernel

/-- The hypotheses of ChannelBringup can be met, each clause at its own states and operands. -/
theorem witness_ChannelBringup :
    (populated st1 1 = false) ∧
    (populated st1 0 = true ∧ (chan st1 0).state ≠ .active ∧ (chan st1 0).state ≠ .failed ∧ st1.sup.state = .on ∧
      st1.sup.inReset = false ∧ st1.fe.txns = [] ∧ (let m2 := if st1.board.m2.getLsbD 0 then dies0 else 0;
      oneGen dies0 m2 = true ∧ dies0 &&& m2 = (if st1.board.m2.getLsbD 0 then dies0 else 0)) ∧
      dies0 &&& expected st1 0 = expected st1 0 ∧ dies0 &&& ~~~allowedDies st1 = 0) ∧
    (0 &&& expected st1 0 ≠ expected st1 0) ∧
    (let s := { st1 with board := { st1.board with dieCount := 8 } }; (512 : BitVec 18) &&& ~~~allowedDies s ≠ 0) ∧
    (oneGen 3 1 = false ∧ dies0 &&& 0 ≠ (if st1.board.m2.getLsbD 0 then dies0 else 0)) ∧
    ((chan st1 0).attempts = 0 ∧ (chan (modChan 0 (fun c => { c with attempts := 1 }) st1) 0).attempts ≠ 0) ∧
    (populated stCh 0 = true ∧ (chan stCh 0).state = .active) := by
  refine ⟨?_, ?_, ?_, ?_, ?_, ?_, ?_⟩ <;> decide +kernel

/-- The hypotheses of DieFailureAndRebuild can be met, each clause at its own states and operands. -/
theorem witness_DieFailureAndRebuild :
    (dieMeets st1 0 2 .uncorrectableLines = false ∧ (failedDies st1 0).getLsbD 2 = false) ∧
    (populated st1 0 = true ∧ dieMeets st1 0 17 .mrrSilent = true ∧ (failedDies st1 0).getLsbD 17 = false) ∧
    (let s := st1.modInteg fun i => { i with rebuildCh := some 0, rebuildPos := 2 }; s.integ.rebuildCh = some 0 ∧
      s.integ.rebuildCh ≠ some 1 ∧ rebuildBusy s 0 = false ∧ rebuildLeft s 0 = []) := by
  refine ⟨?_, ?_, ?_⟩ <;> decide +kernel

/-- The hypotheses of RestrikePatrolScrub can be met, each clause at its own states and operands. -/
theorem witness_RestrikePatrolScrub :
    (let s := st4.modInteg fun i => { i with restrikes := [(9000, 0)] }; s.integ.restrikes = [] ++ (9000, 0) :: [] ∧
      keyCh s 9000 0 = 0 ∧ isBlank (mline s (lineKey 9000 0)) = true) ∧
    ((∀ x ∈ st4.integ.restrikes, keyCh st4 x.1 x.2 ≠ 0)) ∧
    (let s := st4.modInteg fun i => { i with restrikes := [(9000, 0)] }; let s := setMline (lineKey 9000 0) default s;
      isBlank (mline s (lineKey 9000 0)) = false ∧ inTill s (hostLine s 9000 0) = false) ∧
    (let s := st4.modInteg fun i => { i with restrikes := [(9000, 16385)] }; let s := setMline (lineKey 9000 16385) default s;
      isBlank (mline s (lineKey 9000 16385)) = false ∧ keyCh s 9000 16385 < 32) ∧
    (st1.integ.patrolling = false ∧ st1.led.memActive = true ∧ (rget st1 0x200008).getLsbD 0 = true ∧
      st1.integ.patrolAt + rval st1 0x200008 / 65536 * 3600000000000 ≤ (st1.setClock 9000000000000000).clock) ∧
    (let s := st1.modInteg fun i => { i with patrolling := true }; s.integ.patrolling = true ∧ patrolLeft s = false) ∧
    (let s := (stOp (op0 (.assay 9000 0 true) 0)).modInteg fun i => { i with patrolling := true }; patrolLeft s = true) ∧
    (let o := { op0 (.assay 9000 0 true) (binOf st4 0) with kind := .maint }; let s := stLine o; findOp s 3 = some o ∧
      o.sent = true ∧ o.m = 9000 ∧ opLine s o = 0 ∧ inRecon s o = false ∧ dieDead s o.ch o.pos 9000 = false ∧
      o.rereads = 0 ∧ opSearch s o = false ∧ mline s (lineKey 9000 0) = ln0 ∧ isBlank ln0 = false ∧
      binOf s ln0.stamp = o.bin ∧ (revOf s 9000).kind = 1 ∧ (revOf s 9000).owner = 5 ∧ (ent s 5).media = 9000 ∧
      checkLine s o.ch (ent s 5) o.gen ln0 = some (.good ln0) ∧ (ent s 5).readSub < 255 ∧ s.fe.txns = []) ∧
    (let s := st4.modInteg fun i => { i with scrub := [5], scrubbing := true }; s.integ.scrubbing = true ∧
      s.integ.scrub.all (folioStruck s) = true) ∧
    (st1.integ.scrubbing = false) ∧
    (st1.tbs.mint.toNat / 2 ^ 36 = st1.tbs.recordedAt / 2 ^ 36 ∧ (2 ^ 37 : Nat) / 2 ^ 36 ≠ st1.tbs.recordedAt / 2 ^ 36) := by
  refine ⟨?_, ?_, ?_, ?_, ?_, ?_, ?_, ?_, ?_, ?_, ?_⟩ <;> decide +kernel

/-- The hypotheses of MediaOperations can be met, each clause at its own states and operands. -/
theorem witness_MediaOperations :
    (findOp st1 3 = none) ∧
    (let o := op0 (.prefetch 40960) (binOf st4 0); let s := stLine o; findOp s 3 = some o ∧ o.kind = .read ∧ o.sent = true ∧
      opLine s o = 40960 % 8192 ∧ inRecon s o = false ∧ dieDead s o.ch o.pos o.m = false ∧ o.rereads = 0 ∧
      folioOf 40960 = 5 ∧ opSearch s o = false ∧ isBlank ln0 = false ∧ (ent s 5).readSub < 255 ∧
      mline s (lineKey o.m (opLine s o)) = ln0 ∧ binOf s ln0.stamp = o.bin ∧
      checkLine s o.ch (ent s 5) o.gen ln0 = some (.good ln0) ∧ (ent s 5).gen = o.gen ∧
      (cachedLine s 40960).isNone = true ∧ (slotOf s 40960).valid = false ∧ s.fe.txns = []) ∧
    (let o := op0 (.hostRead 40960) 25; let s := stLine o; let s := { s with board := { s.board with m2 := 0 } };
      findOp s 3 = some o ∧ o.kind = .read ∧ o.sent = true ∧ inRecon s o = false ∧ dieDead s o.ch o.pos o.m = false ∧
      o.rereads = 0 ∧ opSearch s o = false ∧ isBlank (mline s (lineKey o.m (opLine s o))) = false ∧
      s.board.m2.getLsbD o.ch = false ∧ binOf s (mline s (lineKey o.m (opLine s o))).stamp ≠ o.bin) ∧
    (let o := { op0 (.drain 40960) 0 with kind := .write };
      let s := (stOp o).modPur fun u => { u with slots := [(slotNo st4 40960, { pslot0 with quot := 40960 / purseSlots st4, valid := true, dirty := true, draining := true, op := 3 })] };
      findOp s 3 = some o ∧ o.sent = true ∧ opLine s o = 40960 % 8192 ∧ o.bullion = false ∧ o.merged = false ∧
      o.noMerge = false ∧ o.setOnly = false ∧ dieDead s (chOf s 9000 0) (dieOf s 0) 9000 = false ∧ s.tbs.set = true ∧
      s.fe.txns = [] ∧ s.pur.waitQ = [] ∧ s.pur.evb = [] ∧ s.cry.pagesRc = [] ∧ s.pair.rxLate = [] ∧
      (slotOf s 40960).valid = true ∧ (slotOf s 40960).draining = true ∧ (slotOf s 40960).op = 3 ∧
      (slotOf s 40960).quot = 40960 / purseSlots s ∧ (slotOf s 40960).line.poison = false) ∧
    ((st1.modLed fun l => { l with lost := true }).led.lost = true) ∧
    (let x : EvLine := { (default : EvLine) with lineNo := 40960 };
      let s := ((modChan (chOf st4 9000 0) (fun c => { c with state := .active }) st4).modSup fun u => { u with holdupDecl := 5 }).modPur fun u => { u with evb := [x], holdupOk := true, holdupReady := true };
      s.pur.evb = x :: [] ∧ x.draining = false ∧ s.led.lost = false ∧ s.led.recovered = true ∧ s.sup.fnBusy = [] ∧
      s.led.migs = [] ∧ s.pair.rxLate = [] ∧ s.fe.txns = [] ∧ s.mov.queues = [] ∧ drainable s 40960 = true ∧
      (ent s 5).media ≠ noFolio ∧ (ent s 5).state ≠ .readOnly ∧ cannotStore s 9000 0 = false ∧
      lateFor s (ent s 5) = false ∧ holdupActs s = true) ∧
    (st1.pur.ageChecked + 1000000000 ≤ st1.clock ∧ State.reset.clock < State.reset.pur.ageChecked + 1000000000) ∧
    (let s := st4.modPur fun u => { u with wbRing := [{ (default : RingEntry) with lineNo := 40960, time := 3 }], slots := [(slotNo st4 40960, { pslot0 with quot := 40960 / purseSlots st4, valid := true, dirty := true, queued := true })] };
      (s.pur.wbRing.dropWhile fun r => !ringLive s r).isEmpty = false) ∧
    (let o : MOp := { rd0 with kind := .maint, purpose := .blank }; let s := stOp o; findOp s 3 = some o ∧ o.sent = true) := by
  refine ⟨?_, ?_, ?_, ?_, ?_, ?_, ?_, ?_, ?_⟩ <;> decide +kernel

/-- The hypotheses of MailboxProtocol can be met, each clause at its own states and operands. -/
theorem witness_MailboxProtocol :
    (yciCmd (.freeze .a []) = some (0xC901, .a, withAction 1 []) ∧ portPowered (MbxPort.a == .board) st1 = true) ∧
    (twoHeads st1 = false ∧ portPowered (MbxPort.a == .board) (st1.modSup fun u => { u with state := .off }) = false) ∧
    (let s := modMbx .a (fun m => { m with busy := some { opcode := 0xC901, result := 0, recs := 0, arg := 0 } }) st1;
      (mbxOf s .a).busy.isSome = true) ∧
    ((mbxOf st1 .a).busy = none ∧ firmwareAway .a st1 = false ∧
      firmwareAway .a (st1.modCtl fun c => { c with cpuUp := false }) = true) ∧
    ((yciRow 0xC901).any (fun r => Nat.ble r.since (mbxOf st1 .a).declared && r.host && r.lenOk 4 && !r.lenOk 5) = true) ∧
    (∀ op ∈ [0xC100, 0xC106, 0xC108, 0xC109, 0xC10A], (yciRow op).isSome = true) ∧
    ((yciRow 0xC101).any (fun r => r.bg && r.lenOk 16) = true) ∧
    ((yciRow 0xC804).any (fun r => !r.host || !r.board) = true) ∧
    (let b : BgCmd := { opcode := 0xC101, result := 0, recs := 0, arg := 0 };
      let s := modMbx .a (fun m => { m with bg := some b }) st1; firmwareAway .a s = false ∧ (mbxOf s .a).bg = some b ∧
      bgReady s b = some 0 ∧ b.opcode ≠ 0xC200) ∧
    (let b : BgCmd := { opcode := 0xC101, result := 0, recs := 1, arg := 0 };
      let s := modMbx .a (fun m => { m with bg := some b }) st1; bgReady s b = none) := by
  refine ⟨?_, ?_, ?_, ?_, ?_, ?_, ?_, ?_, ?_, ?_⟩ <;> decide +kernel

/-- The hypotheses of ReadCommandsAnswer can be met, each clause at its own states and operands. -/
theorem witness_ReadCommandsAnswer :
    (yciTaken 0xC100 .a [] st4 = true ∧ yciTaken 0xC10A .b [] st4 = true) ∧
    (yciTaken 0xC109 .b [] st4 = true) ∧
    (yciTaken 0xC106 .a [0xFF, 0, 0, 0] st4 = true ∧ le [0xFF, 0, 0, 0] 3 1 = 0 ∧ le [0xFF, 0, 0, 0] 0 3 < st4.board.folios) ∧
    (yciTaken 0xC201 .a [0, 2, 0, 0] st4 = true ∧ populated st4 0 = true ∧
      (chan (modChan 0 (fun c => { c with present := 4 }) st4) 0).present.getLsbD 2 = true) ∧
    (yciTaken 0xC202 .a [31, 0, 0, 0] st4 = true ∧ le [31, 0, 0, 0] 0 4 < 32) ∧
    (yciTaken 0xC300 .a [127, 0, 0, 0] st4 = true ∧ le [127, 0, 0, 0] 0 1 < 128 ∧ le [127, 0, 0, 0] 1 3 = 0) ∧
    (yciTaken 0xC301 .a [] st4 = true ∧ yciTaken 0xC600 .a [] st4 = true ∧ pairMode st4 = false ∧
      yciTaken 0xC600 .a [] st3 = true ∧ pairMode st3 = true) ∧
    (yciTaken 0xC403 .a [0xFF, 3, 0, 0] st4 = true ∧ le [0xFF, 3, 0, 0] 0 2 < 1024) ∧
    (yciTaken 0xC407 .a [63, 0, 0, 0] st4 = true ∧ le [63, 0, 0, 0] 0 1 < 64) ∧
    (yciTaken 0xC504 .a [5, 0, 0, 0] st4 = true ∧ queueAt st4 5 = none) := by
  refine ⟨?_, ?_, ?_, ?_, ?_, ?_, ?_, ?_, ?_, ?_⟩ <;> decide +kernel

/-- The hypotheses of StatusCommandsAnswer can be met, each clause at its own states and operands. -/
theorem witness_StatusCommandsAnswer :
    (yciTaken 0xC700 .a [0x20, 0, 0, 0] st4 = true ∧ paramKnown 0x20 = true ∧ paramKnown 0x10 = true ∧ paramKnown 0x100 = true) ∧
    (yciTaken 0xC702 .a [4, 0, 0, 0] st4 = true ∧ yciTaken 0xC801 .board [15, 0, 0, 0] st4 = true) ∧
    (yciTaken 0xC800 .a [] st4 = true ∧ yciTaken 0xC902 .a [] st4 = true ∧ yciTaken 0xCA00 .a [] st4 = true ∧
      yciTaken 0xCA03 .a [] st4 = true ∧ yciTaken 0xCB00 .a [] st4 = true) ∧
    (yciTaken 0xC900 .a [1, 0, 0, 0, 128, 0, 0, 0] st4 = true ∧ le [1, 0, 0, 0, 128, 0, 0, 0] 4 2 ≤ 128 ∧
      (∀ q ∈ st4.ev.ring, q.seq.toNat ≠ 1)) ∧
    (yciTaken 0xC904 .a [0xFF, 0, 4, 2, 0xFC, 1, 0, 0] st4 = true ∧
      le [0xFF, 0, 4, 2, 0xFC, 1, 0, 0] 2 2 + le [0xFF, 0, 4, 2, 0xFC, 1, 0, 0] 4 2 ≤ 1024) := by
  refine ⟨?_, ?_, ?_, ?_, ?_⟩ <;> decide +kernel

/-- The hypotheses of SettingCommandsApply can be met, each clause at its own states and operands. -/
theorem witness_SettingCommandsApply :
    (yciTaken 0xC901 .a (withAction 1 [0, 0, 0, 0]) st4 = true ∧ yciTaken 0xC901 .a (withAction 0 [0, 0, 0, 0]) st4 = true ∧
      yciTaken 0xC901 .a (withAction 2 [0, 0, 0, 0]) st4 = true) ∧
    (yciTaken 0xC903 .a [7, 0, 0, 0] st4 = true ∧ le [7, 0, 0, 0] 2 2 = 0) ∧
    (yciTaken 0xC905 .a [31, 0, 1, 0, 2, 0, 3, 0] st4 = true) ∧
    (yciTaken 0xCB01 .a [2, 0, 0, 0] st4 = true ∧ st4.ctl.versions.getLsbD 2 = true) ∧
    (yciTaken 0xC10B .a [1, 0, 0, 0] st4 = true ∧ holdupActs st4 = false) ∧
    (yciTaken 0xC701 .a [1, 0, 0, 0, 1, 0, 0, 0, 0, 0, 0, 0] st4 = true ∧ paramOk 1 1 = true ∧ paramKnown 0x20 = true) ∧
    (yciTaken 0xC601 .a [7, 2, 0, 0] st3 = true ∧ pairMode st3 = true) ∧
    (yciTaken 0xC802 .board [0x80, 1, 0, 0, 9, 0, 0, 0] st4 = true ∧ supIdOk 0x180 9 = true ∧
      railTableOk (tput (supReset 0x180) st4.sup.railCfg 0x180 9) = true) ∧
    (yciTaken 0xC803 .a [] st4 = true ∧ yciTaken 0xC804 .board [] st4 = true) ∧
    (let s := (st4.modSup fun u => { u with holdupDecl := 5 }).modPur fun u => { u with holdupOk := true, holdupReady := true };
      yciTaken 0xC10B .a [1, 0, 0, 0] s = true ∧ holdupActs s = true) ∧
    (yciTaken 0xC701 .a (toLE 4 1 ++ toLE 8 (2 ^ 16)) st4 = true ∧ paramKnown 1 = true ∧ paramOk 1 (2 ^ 16) = false) ∧
    (yciTaken 0xC701 .a (toLE 4 0x18 ++ toLE 8 40) st4 = true ∧ paramKnown 0x18 = true ∧ paramOk 0x18 40 = true) := by
  refine ⟨?_, ?_, ?_, ?_, ?_, ?_, ?_, ?_, ?_, ?_, ?_, ?_⟩ <;> decide +kernel

/-- The hypotheses of FolioCommands can be met, each clause at its own states and operands. -/
theorem witness_FolioCommands :
    (yciTaken 0xC101 .a (toLE 16 (20 + 3 * 2 ^ 32)) st4 = true ∧ extentOk st4 (toLE 16 (20 + 3 * 2 ^ 32)) 0 = true ∧
      (∀ f ∈ [20, 21, 22], provisioned (ent st4 f) = false) ∧ mayProvision st4 0 .a [20, 21, 22] = true) ∧
    (3 ≤ provisionable st4) ∧
    (provisionable (st4.modLed fun l => { l with rev := l.rev }) < 2 ^ 26 ∧ provisioned (ent st4 5) = true) ∧
    (yciTaken 0xC102 .a (toLE 8 (5 + 1 * 2 ^ 32)) st4 = true ∧ extentOk st4 (toLE 8 (5 + 1 * 2 ^ 32)) 0 = true ∧
      (ent st4 5).state ≠ .escrow ∧ (ent st4 7).state = .escrow) ∧
    (yciTaken 0xC103 .a (toLE 8 (5 + 2 * 2 ^ 32)) st4 = true ∧ (∀ f ∈ [5, 6], (ent st4 f).state ≠ .escrow ∧
      provisioned (ent st4 f) = true)) ∧
    (yciTaken 0xC104 .a (toLE 12 (5 + 1 * 2 ^ 32 + 0xE * 2 ^ 64 + 0xE * 2 ^ 72)) st4 = true ∧ provisioned (ent st4 5) = true) ∧
    (yciTaken 0xC105 .a (toLE 8 (5 + 1 * 2 ^ 32)) st4 = true ∧ (ent st4 5).sealed_ = false ∧
      allocLimit st4 true + 1 ≤ reserveLeft st4) ∧
    (yciTaken 0xC107 .a [] st4 = true ∧ domFree st4 (domainOf 0x280004) = true) ∧
    (stLost.led.lost = true ∧ yciTaken 0xC108 .a (withAction 1 [0, 0, 0, 0]) stLost = true ∧
      yciTaken 0xC108 .a (withAction 2 [0, 0, 0, 0]) stLost = true ∧
      yciTaken 0xC108 .a (withAction 3 [0, 0, 0, 0]) stLost = true) ∧
    (yciTaken 0xC200 .a [1, 0, 0, 0] st4 = true) := by
  refine ⟨?_, ?_, ?_, ?_, ?_, ?_, ?_, ?_, ?_, ?_⟩ <;> decide +kernel

/-- The hypotheses of StandingOrderCommands can be met, each clause at its own states and operands. -/
theorem witness_StandingOrderCommands :
    (domFree st1 (domainOf 0x61004) = true ∧ domFree st1 (domainOf 0x61008) = true) ∧
    (armError { (default : SoEntry) with bytes := mkOrder 4096 0 1 0 1 7 0 } = 0 ∧
      armError { (default : SoEntry) with bytes := mkOrder 4097 0 1 0 1 7 0 } = 1) ∧
    (soFire (mkOrder 4096 0 1 9 1 7 0) % 1024 = 0 ∧ 7 < soAction (mkOrder 4096 0 1 9 1 7 0)) ∧
    (let s := (stArmed (mkOrder 5000 5 1 2 0 7 1) st4).modEsc fun e => { e with sets := [(1, { (default : Escrow) with state := .preparing, members := [30], entry := 1 })] };
      (setPreparedBy s 0).any (fun x => x.1 == 1 && x.2.state != .committed) = true ∧ setPreparedBy st4 0 = none) ∧
    (yciTaken 0xC400 .a (zeros 36) st4 = true ∧ yciTaken 0xC401 .a [0, 0, 0, 0] st4 = true ∧
      yciTaken 0xC402 .a [0xFF, 3, 0, 0] st4 = true) ∧
    (let s := (stArmed (mkOrder 5000 5 1 2 0 7 1) st4).modEsc fun e => { e with sets := [(1, { (default : Escrow) with state := .committed, members := [30], entry := 1 })] };
      (setPreparedBy s 0).any (fun x => x.1 == 1 && x.2.state == .committed) = true) := by
  refine ⟨?_, ?_, ?_, ?_, ?_, ?_⟩ <;> decide +kernel

/-- The hypotheses of OrderFirings can be met, each clause at its own states and operands. -/
theorem witness_OrderFirings :
    ((stFire 0 0).sup.tripped = false ∧ (stFire 0 0).so.halted = false ∧ (firingNow (stFire 0 0) 0 0).isSome = true ∧
      firingNow st4 0 0 = none ∧ (firingNow (stFire 7 0) 0 7).isSome = true ∧ (firingNow (stFire 6 0) 0 6).isSome = true) ∧
    ((firingNow (stFire 4 0x10) 0 4).isSome = true ∧ (firingNow (stFire 5 0x10) 0 5).isSome = true ∧ boardOk st4 = true) ∧
    ((firingNow (stFire 3 3) 0 3).any (fun f => soArg f.bytes 0 2 == 3) = true ∧
      (queueAt ((stFire 3 3).modMov fun m => { m with queues := [(3, some { (default : Queue) with gateClosed := true })] }) 3).any (·.gateClosed) = true) ∧
    ((firingNow (stFire 1 50) 0 1).any (fun f => !provisioned (ent st4 (soArg f.bytes 0 3))) = true ∧
      (firingNow (stFire 1 5) 0 1).any (fun f => provisioned (ent st4 (soArg f.bytes 0 3)) && (ent st4 (soArg f.bytes 0 3)).key == soArg f.bytes 7 1) = true) ∧
    (let s := (stFire 2 1).modEsc fun e => { e with sets := [(1, { (default : Escrow) with state := .committed, members := [7], entry := 1 })] };
      (firingNow s 0 2).any (fun f => soArg f.bytes 0 1 == 1) = true ∧ (escSet s 1).state = .committed ∧
      (escSet s 1).entry = 0 + 1 ∧ (escSet s 1).members.Nodup) ∧
    (let s := st4.modSo fun o => { o with quiet := [(4, 5)] }; tget 0 s.so.quiet 4 ≠ 0 ∧
      5 - 1 + quietMax s ≤ s.tbs.mint.toNat ∧ tget 0 s.so.quiet 3 = 0) ∧
    (let s := (stFire 1 5).modSo fun o => { o with firings := o.firings ++ [{ entry := 1, frame := 4096, fireTime := 4096, bytes := mkOrder 4096 0 1 2 1 7 1 }] };
      (firingNow s 0 1).isSome = true ∧ (s.so.firings.any fun g => soAction g.bytes == 2 && Nat.ble g.frame 8192) = true) ∧
    (((stFire 1 5).so.firings.all fun g => soAction g.bytes != 2) = true) := by
  refine ⟨?_, ?_, ?_, ?_, ?_, ?_, ?_, ?_⟩ <;> decide +kernel

/-- The hypotheses of EscrowSets can be met, each clause at its own states and operands. -/
theorem witness_EscrowSets :
    (yciTaken 0xC404 .a ([1, 0, 0, 1, 0, 0, 0, 0] ++ toLE 8 (20 + 2 * 2 ^ 32)) st4 = true ∧ (escSet st4 1).state = .free ∧
      extentOk st4 ([1, 0, 0, 1, 0, 0, 0, 0] ++ toLE 8 (20 + 2 * 2 ^ 32)) 8 = true ∧
      (∀ f ∈ [20, 21], memberOk st4 0 f = true) ∧ (domKey st4 0).isSome = true ∧ domSealed st4 0 = false ∧
      headAllowed st4 0 .a = true ∧ floorF st4 + escReserved st4 + 2 + 1 ≤ reserveLeft st4 ∧ 2 ≤ provisionable st4) ∧
    ((escSet (stSet .closed [7] st4) 1).state ≠ .free) ∧
    (yciTaken 0xC405 .a [1, 0, 0, 0] st4 = true ∧ (escSet (stSet .open_ [7] st4) 1).state = .open_ ∧
      (escSet (stSet .open_ [7] st4) 1).inherit = false ∧ (escSet (stSet .open_ [7] st4) 1).abandon = false) ∧
    (yciTaken 0xC406 .a [1, 0, 0, 0] st4 = true ∧ (escSet (stSet .preparing [7] st4) 1).state = .preparing) ∧
    (let s := (stSet .closing [] st4).modEsc fun e => { e with sets := e.sets.map fun x => (x.1, { x.2 with items := 2 }) };
      (escSet s 1).state = .closing ∧ (escSet s 1).abandon = false ∧ (escSet s 1).pendingWrites = 0 ∧
      2 ≤ (escSet s 1).items ∧ attrsPending s 1 = false) ∧
    (let s := (stSet .open_ [] st4).modEsc fun e => { e with sets := e.sets.map fun x => (x.1, { x.2 with abandon := true }) };
      (escSet s 1).abandon = true ∧ (escSet s 1).oldFolios = [] ∧ (escSet s 1).members = []) ∧
    ((escSet (stSet .settling [] st4) 1).state = .settling ∧ (escSet (stSet .settling [] st4) 1).oldFolios = []) ∧
    (let s := stArmed (mkOrder 4096 5 1 2 0 7 1) (stSet .closed [7] st4); (soEnt s 0).state = .armed ∧
      soAction (soEnt s 0).bytes = 2 ∧ (soEnt s 0).prepared = false ∧ soRunning s = true ∧ s.led.memActive = true ∧
      s.ctl.cpuUp = true ∧ soFire (soEnt s 0).bytes ≤ s.tbs.mint.toNat + prepLead (escSet s 1).members.length ∧
      (escSet s 1).state = .closed ∧ (escSet s 1).abandon = false) ∧
    (let s := (stSet .closing [7] st4).modEsc fun e => { e with sets := e.sets.map fun x => (x.1, { x.2 with items := 1, inherit := true }) };
      (escSet s 1).state = .closing ∧ (escSet s 1).abandon = false ∧ (escSet s 1).pendingWrites = 0 ∧
      (escSet s 1).items = 1 ∧ (escSet s 1).inherit = true ∧
      ((escSet s 1).members.filter fun f => (stagedFolio s 1 f).isNone) ≠ []) ∧
    (let s := stArmed (mkOrder 4096 5 1 2 0 7 1) (stSet .open_ [7] st4); (soEnt s 0).state = .armed ∧
      (escSet s 1).state ≠ .closed ∧ soFire (soEnt s 0).bytes ≤ s.tbs.mint.toNat + prepLead (escSet s 1).members.length) := by
  refine ⟨?_, ?_, ?_, ?_, ?_, ?_, ?_, ?_, ?_, ?_⟩ <;> decide +kernel

/-- The hypotheses of MintTimeKeeping can be met, each clause at its own states and operands. -/
theorem witness_MintTimeKeeping :
    (st1.tbs.pendSet = none) ∧
    (let s := st1.modTbs fun t => { t with pendSet := some (4999999488, 5000000512), set := false };
      4999999488 ≤ s.tbs.mint.toNat ∧ s.tbs.mint.toNat - 4999999488 + (5000000512 : BitVec 64).toNat < 2 ^ 64 ∧
      s.tbs.set = false) ∧
    ((4999999400 : BitVec 64).toNat / 1024 * 1024 < 4999999488 ∧ 4999999488 ≤ (5000000512 : BitVec 64).toNat / 1024 * 1024 ∧
      (5000000512 : BitVec 64).toNat ≤ 2 ^ 32 + 4999999488) ∧
    (let s := st1.modTbs fun t => { t with source := 1, dialogueOpen := true, unanswered := 2 }; s.tbs.source = 1 ∧
      s.tbs.dialogueAt + max 1 (s.tbs.ptmCfg.toNat % 65536) * 1000000 ≤ s.clock ∧ s.tbs.lostRaised = false) ∧
    (let s := modPort .a (fun p => { p with ptmEn := true }) (st1.modTbs fun t => { t with source := 1, dialogueOpen := true, lockRun := 7 });
      (portOf s (ptmHead s)).width ≠ 0 ∧ (portOf s (ptmHead s)).ptmEn = true ∧
      ((5000000100 : BitVec 64) + s.tbs.offset - s.tbs.mint).toInt.natAbs ≤ 64 ∧ 8 ≤ s.tbs.lockRun + 1 ∧
      s.tbs.locked = false) ∧
    (1000000 < ((5002000000 : BitVec 64) + st1.tbs.offset - st1.tbs.mint).toInt.natAbs ∧
      128 < ((5000000323 : BitVec 64) + st1.tbs.offset - st1.tbs.mint).toInt.natAbs) := by
  refine ⟨?_, ?_, ?_, ?_, ?_, ?_⟩ <;> decide +kernel

/-- The hypotheses of JournalAndCheckpoints can be met, each clause at its own states and operands. -/
theorem witness_JournalAndCheckpoints :
    (st4.led.appends = []) ∧
    ((stApp (jrec 0x01 9005 2 4 77 0)).led.appending = true ∧ (stApp (jrec 0x01 9005 2 4 77 0)).led.overdraftWait = [] ∧
      inDirs (stApp (jrec 0x01 9005 2 4 77 0)) 9005 = false ∧ (jrec 0x01 9005 2 4 77 0).b = 2) ∧
    (let r := jrec 0x04 6 3 (0x19 + 64) 9 0; stateOf ((recNow (stApp r) r).c / 32) = (ent (stApp r) 6).state ∧
      (ent st4 6).state ≠ .unprovisioned ∧ bit (0x19 + 64) 1 = false) ∧
    (({ jrec 0x0A 1 0 0 0 0 with part := 2 } : JRec).part = 2 ∧ (stApp (jrec 0x0A 1 0 0 0 0)).led.ckptQueued = false) ∧
    (st4.led.ckptActive = false ∧ st4.sup.tripped = false ∧ st4.led.lost = false ∧ st4.led.recovered = true ∧
      600000000000 + st4.led.ckptBegan ≤ (st4.setClock 600000000000).clock) ∧
    (49152 ≤ (st4.modLed fun l => { l with ring := List.replicate 49152 (jrec 0x06 0 0 0 0 0) }).led.ring.length) ∧
    (let s := st4.modLed fun l => { l with ckptActive := true, ckptPhase := .body, ckptNext := 3 }; s.led.ckptActive = true ∧
      s.led.ckptPhase = .body ∧ s.sup.tripped = false ∧ dirPending s = false ∧
      (∀ c ∈ popChans s, (chan s c).state ≠ .failed) ∧ s.led.copyA.seq ≠ s.led.ckptNext - 1) ∧
    (let s := st4.modLed fun l => { l with ckptActive := true, ckptPhase := .body, ckptNext := 3, copyA := { l.copyA with seq := 2 } };
      s.led.ckptPhase = .body ∧ dirPending s = false ∧ s.led.copyA.seq = s.led.ckptNext - 1) ∧
    (let s := modChan 0 (fun c => { c with state := .failed }) (st4.modLed fun l => { l with ckptActive := true, ckptPhase := .body, ckptNext := 3 });
      (∃ c ∈ popChans s, (chan s c).state = .failed) ∧ dirPending s = false) ∧
    ((st4.modLed fun l => { l with ckptActive := true }).led.ckptActive = true ∧ st4.led.recovered = true) := by
  refine ⟨?_, ?_, ?_, ?_, ?_, ?_, ?_, ?_, ?_, ?_⟩ <;> decide +kernel

/-- The hypotheses of RecoveryAndScan can be met, each clause at its own states and operands. -/
theorem witness_RecoveryAndScan :
    (st4.led.recovered = true) ∧
    (stRec.led.recovered = false ∧ stRec.sup.state = .on ∧ stRec.sup.inReset = false ∧ stRec.pb.recalling = false ∧
      channelsUp stRec = true ∧ stRec.led.copyA.seq = stRec.led.copyB.seq ∧ beginInRing stRec stRec.led.copyA = true ∧
      (∀ r ∈ stRec.led.ring, r.type = 0x09 ∨ r.type = 0x0A) ∧ stRec.esc.sets = [] ∧ stRec.cry.pagesRc = []) ∧
    (let s := (st4.modLed fun l => { l with memActive := false }).modPur fun u => { u with ready := true, sboxClearing := false };
      s.led.recovered = true ∧ s.led.memActive = false ∧ s.ctl.life ≠ .rma ∧ s.pur.sboxClearing = false ∧
      s.pur.ready = true ∧ s.pb.recalling = false ∧ s.sup.inReset = false) ∧
    (let s := (stLost.modLed fun l => { l with scanActive := true, scanDone := false, extents := [(5, mkE 0 1 .live)] }).modMed fun d => { d with lines := [(lineKey 9070 0, { blankLine with gen := 3, flags := 5 }), (parityKey 9070 0 0, { blankLine with gen := 5 + 3 * 2 ^ 24, flags := 0x25 })] };
      s.led.scanActive = true ∧ s.led.scanDone = false ∧ (scanClaims s []).length = 1 ∧
      (scanClaims s []).all (scanStands s) = true) ∧
    (let s := stLost.modLed fun l => { l with scanActive := true }; s.led.lost = true ∧ s.led.scanActive = true ∧
      s.led.scanDone = true ∧ s.sup.tripped = false) := by
  refine ⟨?_, ?_, ?_, ?_, ?_⟩ <;> decide +kernel

/-- The hypotheses of MigrationSteps can be met, each clause at its own states and operands. -/
theorem witness_MigrationSteps :
    (migNext st4 = none) ∧
    (let s := stMig .queued 0; migRunning s < 16 ∧ s.sup.tripped = false ∧ s.led.lost = false ∧ s.led.recovered = true ∧
      s.ctl.cpuUp = true ∧
      ((migNext s).any fun g => (ent s g.folio).media != noFolio && (allocFor (decide (3 ≤ g.prio)) s).isSome) = true) ∧
    ((stMig .copying 0).led.migs.find? (fun g => g.folio == 5) = (stMig .copying 0).led.migs.head? ∧
      migPending (stMig .holding 6) 5 = [] ∧ (pendingAllocs (stMig .copying 0)).contains 300 = false ∧
      migHeld (stMig .copying 0) 5 = false ∧ migIdle (stMig .copying 0) 5 = true ∧ (stMig .copying 0).sup.tripped = false) ∧
    (quiesced (stMig .quiesce 6) 9000 = true ∧ migrating st4 5 = false ∧
      ((stMig .quiesce 6).led.migs.find? fun g => g.folio == 5 && g.phase == .quiesce).isSome = true ∧
      (stMig .quiesce 6).sup.tripped = false) ∧
    (let s := st4.modLed fun l => { l with blanking := [(9000, 0)] }; (∃ x ∈ s.led.blanking, x.1 = 9000) ∧
      s.sup.tripped = false ∧ quiesced s 9000 = true ∧ blankOver s 9000 = true ∧ (∀ r ∈ s.led.appends, ¬ (r.type = 0x03 ∧
      r.a = 9000))) := by
  refine ⟨?_, ?_, ?_, ?_, ?_⟩ <;> decide +kernel

/-- The hypotheses of QueueAdministration can be met, each clause at its own states and operands. -/
theorem witness_QueueAdministration :
    (yciTaken 0xC500 .a mkCreate st4 = true ∧ createOk mkCreate st4 = true ∧ engineFewest st4 = some 0 ∧
      createOk (zeros 48) st4 = false) ∧
    (adminQueue .a 1 (stQ []) = some (mkQueue []) ∧ adminQueue .a 9 (stQ []) = none ∧
      yciTaken 0xC501 .a (withMode 1 [1, 0, 0, 0]) (stQ []) = true ∧
      yciTaken 0xC501 .a (withMode 0 [1, 0, 0, 0]) (stQ []) = true ∧ yciTaken 0xC502 .a (toLE 20 1) (stQ []) = true) ∧
    (yciTaken 0xC503 .a [7, 0, 0, 0] st4 = true ∧ (engineAt st4 7).inService = true ∧ (engineAt st4 7).reinit = false) := by
  refine ⟨?_, ?_, ?_⟩ <;> decide +kernel

/-- The hypotheses of QueueProgress can be met, each clause at its own states and operands. -/
theorem witness_QueueProgress :
    (domFree (stQ []) domFAB = true ∧ pageOf (stQ []) .a 1 = some (mkQueue []) ∧ (pageOf (stQ []) .a 4095).isNone = true) ∧
    (mayFetch (stQ []) (mkQueue []) = true ∧ 0 < cqRoom (mkQueue []) ∧ engineFlight (stQ []) 0 < 256 ∧
      (mkQueue []).sqHead < 2 ^ (mkQueue []).sqLog2) ∧
    (cqRoom { mkQueue [] with cqUsed := 16 } = 0 ∧ (mkQueue []).cqFull = false) ∧
    ((mkQueue [dDone]).descs.find? (fun d => d.idx == 2 && d.stage == .done) = some dDone ∧
      mayComplete (stQ [dDone]) (mkQueue [dDone]) dDone = true) ∧
    (let d := { dIn with stage := .started }; workOf (stQ [d]) 1 2 = some d ∧ d.srcHost = true ∧ d.op ≠ 4) ∧
    ((engineAt st4 0).inService = true ∧ (engineAt (modEngine 0 (fun e => { e with reinit := true }) st4) 0).reinit = true) := by
  refine ⟨?_, ?_, ?_, ?_, ?_, ?_⟩ <;> decide +kernel

/-- The hypotheses of DescriptorsComplete can be met, each clause at its own states and operands. -/
theorem witness_DescriptorsComplete :
    (ready 0x0A (mkDesc 0x0A []) (stQ [mkDesc 0x0A []]) = true ∧ ready 0x0B (mkDesc 0x0B []) (stQ [mkDesc 0x0B []]) = true) ∧
    (ready 7 dClean (stQ [dClean]) = true ∧ dClean.src < 49155 * 256 + 256 ∧ 49155 * 256 < dClean.src + dClean.len) ∧
    (ready 2 (mkDesc 2 []) (stQ [mkDesc 2 []]) = true ∧ ready 3 (mkDesc 3 []) (stQ [mkDesc 3 []]) = true ∧
      ready 6 (mkDesc 6 []) (stQ [mkDesc 6 []]) = true ∧
      ready 1 (mkDesc 1 [(4, 1, 0x80)]) (stQ [mkDesc 1 [(4, 1, 0x80)]]) = true ∧ (mkDesc 1 [(4, 1, 0x80)]).len = 0) ∧
    (ready 6 dPre (stQ [dPre]) = true ∧ dPre.len = 256 ∧ dPre.src % 256 = 0 ∧
      provisioned (ent (stQ [dPre]) (folioOf (dPre.src / 256))) = true) ∧
    (ready 8 dLoad (stQ [dLoad]) = true ∧ provisioned (ent (stQ [dLoad]) (folioOf (dLoad.src / 256))) = false) ∧
    (ready 9 dLost (stQ [dLost]) = true ∧ (mkQueue []).outcome = none ∧ writeLost (stQ [dLost]) (dLost.dst / 256) = true) := by
  refine ⟨?_, ?_, ?_, ?_, ?_, ?_⟩ <;> decide +kernel

/-- The hypotheses of MoverDataReachesTheHost can be met, each clause at its own states and operands. -/
theorem witness_MoverDataReachesTheHost :
    (takesReads (stQ [dFill]) .a = true ∧
      ((decodeHpa (stQ [dFill]) .a dA).any fun g => !g.sbox && g.inside && idleFor (stQ [dFill]) .a g.key (g.dpa / 256) && g.key == dFill.dstKey && g.dpa / 256 * 256 == dFill.dst) = true ∧
      ideBlocks (stQ [dFill]) .a = false ∧ (stQ [dFill]).pur.waitQ = []) ∧
    (dFill.dstHost = false ∧ dFill.dstSet = none ∧ dFill.len = 256 ∧ ready 2 dFill (stQ [dFill]) = true ∧
      ready 3 dZero (stQ [dZero]) = true ∧ ready 1 dIn (stQ [dIn]) = true ∧ dIn.srcHost = true) ∧
    (ready 9 dStore (withResv (stQ [dStore])) = true ∧ dStore.dst / 64 = dA / 64 + 1 ∧ dStore.dstKey = 0) ∧
    (ready 1 dOut (stQ [dOut]) = true ∧ dOut.dstHost = true ∧ dOut.srcHost = false ∧ dOut.srcSet = none ∧ dOut.srcKey = 0 ∧
      dOut.src = dA ∧ dOut.len = 256) := by
  refine ⟨?_, ?_, ?_, ?_⟩ <;> decide +kernel

/-- The hypotheses of VaultKeyPages can be met, each clause at its own states and operands. -/
theorem witness_VaultKeyPages :
    (vaultOpen stV = true) ∧
    ((pageAt stV 3).lock = true ∧ 0x10 ≤ 0x1C ∧ (toLE 6 0).length < 8) ∧
    ((pageAt stV 0).slotSel.getLsbD 0 = false ∧ (pageAt stV 1).slotSel.getLsbD 0 = true ∧
      bits (pageAt stV 0).slotSel.toNat 1 7 = 1) ∧
    (keyResult stV 3 true ≠ 0 ∧ keyResult stV 0 true ≠ 0) ∧
    (keyResult (stV.modCry fun c => { c with pages := [(0, { mkPage 2 false with bind := 0, idLo := 0 })], domOwner := [(0, BitVec.ofNat 32 (0x80 + 0xC0000))] }) 0 true = 0) ∧
    (ownsSlot stV 7 false 1 = false) ∧
    (let s := stV.modCry fun c => { c with domOwner := [(0, BitVec.ofNat 32 0x80)] }; ownsSlot s 0 false 1 = true ∧
      policyRefused s 1 0 = false) := by
  refine ⟨?_, ?_, ?_, ?_, ?_, ?_, ?_⟩ <;> decide +kernel

/-- The hypotheses of VaultTreeAndRanges can be met, each clause at its own states and operands. -/
theorem witness_VaultTreeAndRanges :
    (vaultOpen stV = true ∧ stV.cry.sealedCfg.toNat ≠ 0x3F ∧ (∀ x ∈ stV.led.entries, x.2.sealed_ = false)) ∧
    (let s := ({ stV with board := { stV.board with m2 := BitVec.allOnes 32 } }).modSup fun u => { u with holdupDecl := 9 };
      bit 0x20 5 = true ∧ vaultOpen s = true ∧ sealAllowed stV = false ∧ sealAllowed s = true) ∧
    (let s := stV.modCry fun c => { c with faults := [(1, 3), (2, 0)], sealedCfg := 0x20 }; s.cry.treeJob = none ∧
      nodeFaulted s 2 0 = true ∧ ([0, 2, 0, 0, 0, 0, 0, 0] : List Byte).length = 8) ∧
    ((stV.modCry fun c => { c with treeJob := some (1, 2, 0) }).cry.treeJob = some (1, 2, 0)) ∧
    ((∀ a ∈ pageAddrs (0x130000 + 0x10000 * 7 + 0xFFFC) 4, bpProtects stV 7 (a - (0x130000 + 0x10000 * 7)) = false)) ∧
    (let s := stV.modPb fun p => { p with bp := [(7, 3)] };
      (∃ a ∈ pageAddrs (0x130000 + 0x10000 * 7) 4, bpProtects s 7 (a - (0x130000 + 0x10000 * 7)) = true)) ∧
    (tget 0 stV.pb.bp 7 < 3 ∧ (pageAt stV 0).lock = false ∧ 1 < tget 0 (stV.modPb fun p => { p with bp := [(7, 3)] }).pb.bp 7) := by
  refine ⟨?_, ?_, ?_, ?_, ?_, ?_, ?_⟩ <;> decide +kernel

/-- The hypotheses of DebugAndLifecycle can be met, each clause at its own states and operands. -/
theorem witness_DebugAndLifecycle :
    (stV.ctl.lockout = false ∧ (stV.modCtl fun c => { c with lockout := true }).ctl.lockout = true ∧
      vaultOpen (stV.modCtl fun c => { c with lockout := true }) = true) ∧
    (let s := stV.modCtl fun c => { c with life := .provisioned, authFails := 2, nonce := none }; vaultOpen s = true ∧
      s.ctl.life = .provisioned ∧ (zeros 96).length = 96 ∧ s.ctl.authFails = 2 ∧ s.ctl.nonce = none) ∧
    (let s := stV.modCtl fun c => { c with life := .debugUnlocked }; vaultOpen s = true ∧ s.ctl.life = .debugUnlocked ∧
      s.ctl.life ≠ .provisioned) ∧
    (stV.ctl.vaultResp = none ∧ ([0x5A, 1, 0, 0, 0, 0, 1, 1] : List Byte).length = 8 ∧ le [0x5A, 1, 0, 0, 0, 0, 1, 1] 4 2 = 0 ∧
      le [0x5A, 1, 0, 0, 0, 0, 1, 1] 6 2 ≠ (crc16 [0x5A, 1, 0, 0, 0, 0]).toNat) ∧
    ((stV.modCtl fun c => { c with vaultResp := some [1] }).ctl.vaultResp.isSome = true) ∧
    (let s := stMem.modCtl fun c => { c with life := .debugUnlocked }; s.cry.dbgMode = 0 ∧
      ((decodeHpa s .a 64).any fun g => !g.sbox && g.inside) = true) := by
  refine ⟨?_, ?_, ?_, ?_, ?_, ?_⟩ <;> decide +kernel

/-- The hypotheses of PackageChunks can be met, each clause at its own states and operands. -/
theorem witness_PackageChunks :
    (ready 4 dImp (withPkg false (stQ [dImp])) = true ∧ (withPkg false (stQ [dImp])).mov.chunks = [] ∧
      pkgEngine (withPkg false (stQ [dImp])) = some 0 ∧
      headerStatus (withPkg false (stQ [dImp])) (mkQueue [dImp]) dImp mkChunk = 0 ∧
      headerStatus (withPkg false (stQ [dImp])) (mkQueue [dImp]) dImp (zeros 336) ≠ 0) ∧
    (let d := { dImp with stage := .started }; let s := inHand true (withPkg false (stQ [d]));
      ((s.mov.chunks.find? fun c => c.engine == 1).any fun c => c.stage == .verifying && c.tagOk && c.escrow == 0 && c.key == 0 && c.dpa == dA) = true ∧
      workOf s 1 2 = some d ∧ d.done = 0 ∧ d.discarded = 0 ∧ idleFor s .a 0 49155 = true) ∧
    ((policyFlags (stQ []) 0).getLsbD 3 = true) ∧
    (((inHand false (withPkg false (stQ [{ dImp with stage := .started }]))).mov.chunks.all fun c => !c.tagOk) = true) ∧
    (ready 5 dExp (withPkg true (stQ [dExp])) = true ∧ dExp.len = 256 ∧ exportStatus (withPkg true (stQ [dExp])) dExp = 0 ∧
      (pkgEngine (withPkg true (stQ [dExp]))).isSome = true ∧ dExp.srcSet = none ∧
      idleFor (withPkg true (stQ [dExp])) .a dExp.srcKey (dExp.src / 256) = true) ∧
    (ready 5 dExp (stQ [dExp]) = true ∧ exportStatus (stQ [dExp]) dExp ≠ 0 ∧ exportStatus (stQ [dExp]) dExp ≠ 0x0C) := by
  refine ⟨?_, ?_, ?_, ?_, ?_, ?_⟩ <;> decide +kernel

/-- The hypotheses of PairLink can be met, each clause at its own states and operands. -/
theorem witness_PairLink :
    (pairMode (stP fun p => { p with step := .hello }) = true ∧ (stP fun p => { p with step := .hello }).pair.step = .hello) ∧
    (peerOk true (stP fun p => { p with step := .auth, peerLife := 1 }) = true ∧
      peerOk false (stP fun p => { p with step := .auth }) = false) ∧
    (let s := stP fun p => { p with step := .exchange, state := .solo }; pairMode s = true ∧ s.led.memActive = true ∧
      s.pair.step = .exchange ∧ s.pair.splitCmd = false ∧ debtAll s = []) ∧
    (let s := stP fun p => { p with step := .exchange, state := .solo, debtExact := [5], policy := 0 }; debtAll s ≠ [] ∧
      s.pair.policy.getLsbD 1 = false) ∧
    (let s := stP fun p => { p with stepFailedAt := some 5, step := .phy, state := .solo, packets := 2 ^ 32 };
      s.pair.stepFailedAt = some 5 ∧ 10000000 + 5 ≤ s.clock ∧ s.pair.refusedUntil ≤ s.clock ∧ 2 ^ 32 ≤ s.pair.packets) ∧
    ((stP id).pair.step = .up ∧ 10000 + (stP id).pair.lastTx ≤ (stP id).clock ∧ (stP id).tbs.source ≠ 2 ∧
      1000000 + (stP id).pair.lastTime ≤ (stP id).clock ∧ (stP id).pair.tagFails < 2) ∧
    (((stP fun p => { p with peerSource := 0 }).modTbs fun t => { t with source := 2 }).tbs.source = 2) ∧
    (domFree (stP id) domFAB = true ∧ (stP id).pair.mirror = [] ∧ (stP id).pair.barrier.all (fun b => !b.refused) = true ∧
      (stP fun p => { p with state := .solo }).pair.state = .solo) ∧
    (64000 + (stP id).pair.lastRx ≤ (stP id).clock ∧ (stP id).pair.barrier = none ∧ (stP id).pair.fwds = [] ∧
      (stP id).pair.timeLocked = false) := by
  refine ⟨?_, ?_, ?_, ?_, ?_, ?_, ?_, ?_, ?_⟩ <;> decide +kernel

/-- The hypotheses of PairTraffic can be met, each clause at its own states and operands. -/
theorem witness_PairTraffic :
    ((stP id).pair.state = .joined ∧ (stP id).pair.barrier = none ∧
      provisioned (ent (stP id) (folioOf ((50 * 32768 + 3) / 4))) = false) ∧
    (let s := stP fun p => { p with mirror := [mkMir 3] }; s.pair.mirror.find? (fun e => e.seq == 3) = some (mkMir 3) ∧
      s.pair.splitPlanned = false ∧ (mkMir 3).settle = false ∧ (s.pair.mirror.find? fun e => e.seq == 4) = none) ∧
    (let s := stP fun p => { p with state := .settling, peerLeft := [5, 6] }; pairMode s = true ∧ s.pair.state = .settling ∧
      5 ∈ s.pair.peerLeft ∧ (∃ g ∈ s.pair.peerLeft, g ≠ 5) ∧ provisioned (ent s 5) = true ∧ (ent s 5).media ≠ noFolio ∧
      ent s 50 = entry0) ∧
    (let f : Fwd := { id := 4, mover := true, head := .a, tag := 0, write := false, sector := 9, key := 0, data := 0, enables := 0 };
      (stP fun p => { p with fwds := [f] }).pair.fwds.find? (fun f => f.id == 4) = some f) ∧
    (yciTaken 0xC602 .a [] (stP id) = true ∧ yciTaken 0xC602 .a [] st4 = true ∧ pairMode st4 = false) ∧
    (let s := stP fun p => { p with state := .solo, linkReady := true, debtExact := [5], debtPeer := [] };
      s.pair.linkReady = true ∧ debtAll s ≠ [] ∧ (∀ f ∈ debtAll s, (ent s f).state = .live)) ∧
    (yciTaken 0xC603 .a (withAction 1 [0, 0, 0, 0]) (stP id) = true ∧
      yciTaken 0xC603 .a (withAction 2 [0, 0, 0, 0]) (stP id) = true ∧ le [0, 0, 0, 0] 1 3 = 0) := by
  refine ⟨?_, ?_, ?_, ?_, ?_, ?_, ?_⟩ <;> decide +kernel

/-- The hypotheses of CxlReadCommands can be met, each clause at its own states and operands. -/
theorem witness_CxlReadCommands :
    (cxlTaken true 0 false .a [] st4 = true ∧ cxlTaken false 0 false .b [] st4 = true ∧
      cxlTaken true 0 false .board [] st4 = true) ∧
    (cxlTaken true 24 false .a (toLE 16 celUuid ++ toLE 4 3 ++ toLE 4 5) st4 = true ∧
      cxlTaken false 16 false .a (zeros 16) st4 = true ∧ cxlTaken true 1 false .a [3] st4 = true) := by
  refine ⟨?_, ?_⟩ <;> decide +kernel

/-- The hypotheses of CxlActingCommands can be met, each clause at its own states and operands. -/
theorem witness_CxlActingCommands :
    (cxlTaken true 6 true .a [3, 0, 9, 0, 0, 0] st4 = true ∧ le [3, 0, 9, 0, 0, 0] 3 3 = 0 ∧ 3 < le [4, 0, 0, 0, 0, 0] 0 1) ∧
    (cxlTaken false 4 true .a [2, 2, 2, 2] st4 = true ∧ (∀ i, i < 4 → le [2, 2, 2, 2] i 1 / 4 % 4 = 0) ∧
      le [4, 0, 0, 0] 0 1 / 4 % 4 ≠ 0) ∧
    (cxlTaken false 8 false .a (toLE 8 77) st4 = true ∧ cxlTaken false 12 false .a (toLE 12 0x0303) st4 = true ∧
      cxlTaken false 1 false .a [1] st4 = true) ∧
    (cxlTaken false 17 true .a (toLE 8 0 ++ toLE 8 1 ++ [0]) st4 = true ∧
      cxlTaken false 17 true .a (toLE 16 0 ++ [2]) st4 = true ∧ (cxlOf st4 .a).bg = none ∧ st4.integ.assay = false) ∧
    (let c : BgCmd := { opcode := 0x4304, result := 0, recs := 0, arg := 1 };
      let s := st4.modFe fun f => { f with portA := { f.portA with cxl := { f.portA.cxl with bg := some c } } };
      cxlTaken false 0 false .a [] s = true ∧ (cxlOf s .a).bg = some c ∧ c.opcode = 0x4304) ∧
    (cxlTaken false 8 false .a (toLE 8 dA) stMem = true ∧ poisonTarget stMem dA = true ∧
      idleFor stMem .a (ent stMem (dA / 2 ^ 21)).key (dA / 256) = true ∧ poisonTarget stMem (50 * 2 ^ 21) = false ∧
      (domKey stMem (ent stMem (dA / 2 ^ 21)).key).isSome = true ∧
      cxlTaken false 72 false .a (toLE 8 dA ++ zeros 64) stMem = true) ∧
    (cxlTaken true 128 true .a (zeros 132) st4 = true ∧ fwOwned st4 .a = false ∧ (zeros 132).length - 128 ≤ 2 ^ 22 ∧
      (((zeros 132).take 128).drop 8).all (· == 0) = true ∧ cxlTaken true 128 true .a ([0, 0, 1] ++ zeros 129) st4 = true) ∧
    (cxlTaken true 2 false .a [0, 2] stFw = true ∧ stFw.ctl.fwRunning = 0 ∧ anyBg stFw = false ∧ stFw.ctl.fwActivating = none ∧
      fwCheck stFw = 0 ∧ fwCheck st4 ≠ 0) := by
  refine ⟨?_, ?_, ?_, ?_, ?_, ?_, ?_, ?_⟩ <;> decide +kernel

/-- The hypotheses of MctpEndpoint can be met, each clause at its own states and operands. -/
theorem witness_MctpEndpoint :
    (portPowered true (st4.modSup fun u => { u with aonOn := false, state := .off }) = false) ∧
    (portPowered true st4 = true ∧ tget 0 st4.ctl.fifoPart (fifoNo .boardFifo) = 0 ∧
      tget 0 st4.ctl.fifoPart (fifoNo .boardFifo + 2) = 0 ∧ (fifoOf st4 .boardFifo).length ≤ 4096) ∧
    (firmwareAway .board (st4.modCtl fun c => { c with cpuUp := false }) = true ∧ firmwareAway .board st4 = false) := by
  refine ⟨?_, ?_, ?_⟩ <;> decide +kernel

/-- The hypotheses of FirmwareCommands can be met, each clause at its own states and operands. -/
theorem witness_FirmwareCommands :
    (yciTaken 0xCA01 .a (toLE 8 (4 * 2 ^ 32) ++ zeros 4) st4 = true ∧ fwOwned st4 .a = false ∧
      fwOwned (st4.modCtl fun c => { c with fwOwner := some .b, fwLast := 89999999999 }) .a = true) ∧
    (let s := st4.modCtl fun c => { c with fwOwner := some .a, fw1 := { FwSlot.init with state := .partial_, bytes := 256, total := 512 } };
      s.ctl.fwOwner = some .a ∧ (fwStaged s).state = .partial_ ∧ (fwStaged s).bytes = 256 ∧ (fwStaged s).total = 512 ∧
      yciTaken 0xCA01 .a (toLE 8 (256 + 512 * 2 ^ 32) ++ zeros 4) s = true) ∧
    (yciTaken 0xCA02 .a (withAction 0 [0, 0, 0, 0]) stFw = true ∧ yciTaken 0xCA02 .a (withAction 1 [0, 0, 0, 0]) stFw = true ∧
      anyBg stFw = false ∧ fwCheck stFw = 0) ∧
    (let s := st4.modCtl fun c => { c with fwActivating := some 89000000000 }; s.clock < 2000000000 + 89000000000 ∧
      s.ctl.fwActivating = some 89000000000) ∧
    ((st4.modCtl fun c => { c with fwActivating := some 5 }).ctl.fwActivating = some 5 ∧ 2000000000 + 5 ≤ st4.clock) ∧
    (yciTaken 0xCA04 .a [] st4 = true ∧ st4.ctl.fwActAt = none ∧ tallyRefused st4 0 (fwRun st4).svn.toNat = true) ∧
    (let s := st4.modCtl fun c => { c with fw0 := { c.fw0 with svn := 3 } }; tallyRefused s 0 (fwRun s).svn.toNat = false ∧
      yciTaken 0xCA04 .a [] s = true) := by
  refine ⟨?_, ?_, ?_, ?_, ?_, ?_, ?_⟩ <;> decide +kernel

/-- The hypotheses of LinksAndHeadResets can be met, each clause at its own states and operands. -/
theorem witness_LinksAndHeadResets :
    (linkFree .a stDown = true ∧ headPresent stDown .a = true ∧ linkWidth .a 7 = 0 ∧ linkWidth .a 8 ≠ 0 ∧ linkWidth .b 3 = 0 ∧
      linkWidth .b 4 ≠ 0) ∧
    (linkMay .a (stDown.modSup fun u => { u with tripped := true }) = false ∧ (portOf stUp .a).rate ≠ 0) ∧
    (let s := stDown.modSup fun u => { u with portbMode := 2 }; linkFree .b s = true ∧ pairMode s = true) ∧
    (headPresent stUp .a = true ∧ headPresent stUp .b = true ∧ stUp.pur.waitQ = []) ∧
    ((portOf stDown .a).rate = 0) := by
  refine ⟨?_, ?_, ?_, ?_, ?_⟩ <;> decide +kernel

/-- The hypotheses of HostPortRequests can be met, each clause at its own states and operands. -/
theorem witness_HostPortRequests :
    (headPresent stUp .a = true ∧ (portOf stUp .a).rate ≠ 0 ∧ stUp.sup.inReset = false) ∧
    (let r : DecoderReq := { (default : DecoderReq) with base := 2 ^ 40, size := 2 ^ 52, iw := 1, gran := 256 };
      commitCause stUp .a 3 (decoderOf stUp .a 3 r) = 0 ∧
      commitCause stUp .a 3 (decoderOf stUp .a 3 { r with size := 2 ^ 30 }) ≠ 0) ∧
    ((portOf stUp .a).level = .cxl31 ∧ (portOf st4 .b).level ≠ .cxl31) ∧
    (functionUp stUp .a = true ∧ functionUp stDown .a = false ∧ spdmRefused (portOf stUp .a) .heartbeat = false) ∧
    (4 ≤ (portOf (modPort .a (fun p => { p with sessions := 4 }) stUp) .a).sessions) := by
  refine ⟨?_, ?_, ?_, ?_, ?_⟩ <;> decide +kernel

/-- The hypotheses of ResetsAndReinits can be met, each clause at its own states and operands. -/
theorem witness_ResetsAndReinits :
    (resetTakes stUp = true ∧ headPresent stUp .a = true ∧ (portOf stUp .a).level = .cxl31 ∧
      resetTakes (stUp.modSup fun u => { u with tripped := true }) = false) ∧
    (stUp.fe.portA.perstLow = false ∧ twoHeads stUp = true ∧ stUp.fe.portB.perstLow = false ∧
      (modPort .b (fun p => { p with perstLow := true }) stUp).fe.portB.perstLow = true ∧
      resetTakes (modPort .b (fun p => { p with perstLow := true }) stUp) = true) ∧
    (twoHeads st1 = false ∧ st1.fe.portA.perstLow = false ∧ resetTakes st1 = true) ∧
    (stUp.sup.inReset = false) ∧
    (let s := stUp.modCtl fun c => { c with rstPend := some (5, false) }; s.ctl.rstPend = some (5, false) ∧
      1000000 + 5 ≤ s.clock ∧ resetTakes s = true) ∧
    (reinitMay (.slice 7) stUp = true ∧ reinitMay .purse stUp = true ∧ reinitMay (.package 1) stUp = true ∧
      1 ∉ stUp.mov.pkgOut ∧ reinitMay (.mailbox .a) stUp = true ∧ reinitMay (.keyPage 7) stUp = true ∧
      reinitMay .cpu stUp = true ∧ reinitMay .cpu (stUp.modSup fun u => { u with state := .off }) = false) ∧
    (Function.cpu ∈ (stBusy .cpu 0).sup.fnBusy ∧ reinitReady .cpu (stBusy .cpu 0) = true ∧
      tget 0 (stBusy .cpu 0).sup.fnFails (fnCode .cpu) = 0 ∧ tget 0 (stBusy .purse 1).sup.fnFails (fnCode .purse) ≠ 0 ∧
      reinitReady .purse (stBusy .purse 1) = true ∧ resetTakes (stBusy .purse 1) = true) := by
  refine ⟨?_, ?_, ?_, ?_, ?_, ?_, ?_⟩ <;> decide +kernel

/-- The hypotheses of PowerDowns can be met, each clause at its own states and operands. -/
theorem witness_PowerDowns :
    (stUp.sup.state = .on ∧ stUp.sup.tripped = false ∧ stUp.pur.drain = .none ∧ (draining .critical stUp).pur.drain = .critical) ∧
    ((stUp.modSup fun u => { u with state := .up }).sup.state = .up) ∧
    (let s := stUp.modCtl fun c => { c with rstPend := some (5, true) }; (∃ a, s.ctl.rstPend = some a ∧ a.2 = true ∧
      1000000 + a.1 ≤ s.clock) ∧ cycleTakes s = true) ∧
    (let s := pressed stUp; s.sup.pbPressed = true ∧ s.sup.pbAt + longPress s ≤ s.clock ∧ s.sup.state = .on ∧
      s.sup.onAt ≤ s.sup.pbAt ∧ s.pur.drain = .none) ∧
    (drainIdle (draining .powerFail stUp) = true ∧ (draining .powerFail stUp).sup.state = .on ∧ drainIdle stUp = false) ∧
    (let s := draining .longPress (pressed stUp); s.pur.drain = .longPress ∧ 150000000 + s.sup.pbAt + longPress s ≤ s.clock) ∧
    (let s := draining .critical (stUp.modSup fun u => { u with critStop := some 5 }); s.pur.drain = .critical ∧
      (∃ a, s.sup.critStop = some a ∧ 10000000 + a ≤ s.clock)) ∧
    (let s := stUp.modSup fun u => { u with state := .off }; s.sup.pbPressed = false ∧ tooHot s = false ∧ s.sup.aonOn = true) ∧
    (let s := stUp.modSup fun u => { u with pbPressed := true, pbAt := 89999999999 }; s.sup.pbPressed = true ∧
      s.clock < s.sup.pbAt + longPress s ∧ s.sup.onAt ≤ s.sup.pbAt) ∧
    (stUp.sup.aonOn = true ∧ stUp.ctl.life ≠ .debugUnlocked ∧ stUp.pb.writing = none) := by
  refine ⟨?_, ?_, ?_, ?_, ?_, ?_, ?_, ?_, ?_, ?_⟩ <;> decide +kernel

/-- The hypotheses of SupplyAndPassbookEvents can be met, each clause at its own states and operands. -/
theorem witness_SupplyAndPassbookEvents :
    (stUp.sup.state = .on ∧ holdupActs (stUp.modSup fun u => { u with holdupDecl := 5 }) = true ∧ holdupActs stUp = false) ∧
    (let s := stUp.modPur fun u => { u with holdupOk := true, holdupSince := 3 }; s.pur.holdupOk = true ∧
      10000000 + s.pur.holdupSince ≤ s.clock) ∧
    (domFree stUp domPUR = true ∧ (clampBudget stUp 127).2 = true) ∧
    (let s := stUp.modPur fun u => { u with budgetStaged := some 5, budgetAt := 5 }; s.pur.budgetStaged = some 5 ∧
      s.pur.budgetAt ≤ mintNow s ∧ s.pur.waitQ = []) ∧
    (sboxClamp stUp (rval stUp 0x80010 % 64) ≠ (stUp.modPur fun u => { u with sboxAct := 3 }).pur.sboxAct ∧
      occupancy stUp = stUp.led.overdraft.length ∧
      (stUp.modPur fun u => { u with sboxClearing := true }).pur.sboxClearing = true ∧ stUp.pur.sboxClearing = false) ∧
    ((stUp.modSup fun u => { u with aonOn := false }).sup.aonOn = false) ∧
    (let s := (stUp.modSup fun u => { u with state := .recalling }).modPb fun p => { p with recalling := true };
      s.sup.state = .recalling ∧ s.pb.faultIds = [] ∧ (supParam s 0x180).testBit 3 = true ∧ tooHot s = false ∧
      s.sup.supplyGood = true ∧ s.board.testEn = false) ∧
    (let s := writing 6 16 (toLE 8 0x33) stUp;
      s.pb.writing = some { cls := 6, addr := 16, data := toLE 8 0x33, principal := 0 } ∧ (toLE 8 0x33).length = 8 ∧
      s.pb.writes = []) ∧
    (tallyVal stUp 0 < le (toLE 4 9) 0 4 ∧ (0x110000 + 4 * 9) % 4096 = 4 * (le (toLE 4 9) 0 4 % 512)) := by
  refine ⟨?_, ?_, ?_, ?_, ?_, ?_, ?_, ?_, ?_⟩ <;> decide +kernel

/-- The hypotheses of RailsAndTemperatures can be met, each clause at its own states and operands. -/
theorem witness_RailsAndTemperatures :
    (stUp.sup.state ≠ .recalling ∧ stUp.sup.aonOn = true ∧ 100000 + stUp.sup.scanAt ≤ stUp.clock) ∧
    (let s := stRail (fun r => { r with state := .rising, enabled := true, enAt := 89999999999, goodScans := 1 }) .up;
      railUsed s 0 = true ∧ s.sup.state = .up ∧ (railAt s 0).state = .rising ∧ railGood s 0 ≤ 1000 ∧
      (railAt s 0).goodScans ≠ 0) ∧
    (let s := stRail (fun r => { r with state := .good, enabled := true, good := true, badScans := 1 }) .on;
      (railAt s 0).good = true ∧ 0 < railLow s 0 ∧ (railAt s 0).badScans = 1 ∧ s.sup.state = .on) ∧
    (let s := stRail (fun r => { r with state := .falling, fallScans := 1, disAt := 5 }) .down; (railAt s 0).state = .falling ∧
      (railAt s 0).enabled = false ∧ 0 < railFall s 0 ∧ (railAt s 0).fallScans ≠ 0 ∧
      (railAt s 0).disAt + railFallTo s 0 ≤ s.clock) ∧
    (let s := stRail (fun r => { r with dueAt := 7 }) .up; (railAt s 0).dueAt ≠ 0 ∧ (railAt s 0).dueAt - 1 ≤ s.clock) ∧
    (let s := stRail (fun r => { r with state := .rising, enAt := 5 }) .up; (railAt s 0).enAt + railRiseTo s 0 ≤ s.clock) ∧
    (let s := stUp.modSup fun u => { u with state := .cool, coolAt := 5 }; s.sup.state = .cool ∧
      100000000 + s.sup.coolAt ≤ s.clock ∧ s.sup.supplyGood = true ∧ tooHot s = false ∧ s.board.testEn = false) ∧
    (let s := stUp.modSup fun u => { u with state := .off, restartDue := true }; s.sup.aonOn = true ∧ s.sup.restartDue = true ∧
      tooHot s = false) ∧
    (let s := stUp.modSup fun u => { u with pllLocked := false, onAt := 5 }; s.sup.state = .on ∧ s.sup.pllLocked = false ∧
      10000000 + s.sup.onAt ≤ s.clock) ∧
    ((sensorAt stUp 11).cause = 0 ∧ (sensorAt stUp 11).raw ≠ 600 ∧ 4000000 + (sensorAt stUp 11).last ≤ stUp.clock ∧
      hottest stUp < 460) ∧
    (let s := stUp.modSup fun u => { u with sensors := [(0, { (default : Sensor) with cause := 1 })] };
      (∃ m ∈ List.range 12, m ≠ 1 ∧ m / 3 = 1 / 3 ∧ (sensorAt s m).cause ≠ 0) ∧ (sensorAt s 2).cause = 0) ∧
    (3600000000000 + stUp.sup.histAt ≤ (stUp.setClock 3600000000000).clock ∧ stUp.clock < 3600000000000 + stUp.sup.histAt) := by
  refine ⟨?_, ?_, ?_, ?_, ?_, ?_, ?_, ?_, ?_, ?_, ?_, ?_⟩ <;> decide +kernel

/-- The hypotheses of EveryCommandCompletes can be met, each clause at its own states and operands. -/
theorem witness_EveryCommandCompletes :
    boardOk State.reset = true := by
  decide +kernel

/-- The hypotheses of DueEventsHaveTheirEffect can be met, each clause at its own states and operands. -/
theorem witness_DueEventsHaveTheirEffect :
    (let s := st1.modMed fun m => { m with timeUpdated := 0 }; s.tbs.mint.toNat / 2 ^ 32 ≠ s.med.timeUpdated) ∧
    (let s := modChan 0 (fun c => { c with banks := [(2 * 64 + 1, { (default : Bank) with suspended := true })] }) st1;
      (bankAt s 0 2 1).suspended = true ∧ readQueued s 0 2 1 = false ∧ (bankAt s 0 2 1).lastRead + 64 ≤ s.clock) ∧
    (let s := { modChan 0 (fun c => { c with banks := [(2 * 64 + 1, { (default : Bank) with suspended := true })] }) st1 with board := { st1.board with m2 := 1 } };
      s.board.m2.getLsbD 0 = true ∧ (bankAt s 0 2 1).suspended = true) ∧
    (populated st1 1 = false ∧ populated st1 0 = true) ∧
    ((0b00100 : BitVec 5) ≠ 0 ∧ (0b00100 : BitVec 5) &&& 0b10011 = 0) ∧
    (let s := stMig .queued 0; migRunning s < 16 ∧ s.sup.tripped = false ∧ s.led.lost = false ∧ s.led.recovered = true ∧
      s.ctl.cpuUp = true ∧
      ((migNext s).any fun g => (ent s g.folio).media != noFolio && (allocFor (decide (3 ≤ g.prio)) s).isSome) = true) ∧
    ((stMig .copying 0).led.migs.find? (fun g => g.folio == 5) = (stMig .copying 0).led.migs.head? ∧
      migPending (stMig .holding 6) 5 = [] ∧ (pendingAllocs (stMig .copying 0)).contains 300 = false ∧
      migHeld (stMig .copying 0) 5 = false ∧ migIdle (stMig .copying 0) 5 = true ∧ (stMig .copying 0).sup.tripped = false) ∧
    (quiesced (stMig .quiesce 6) 9000 = true ∧ migrating st4 5 = false ∧
      ((stMig .quiesce 6).led.migs.find? fun g => g.folio == 5 && g.phase == .quiesce).isSome = true ∧
      (stMig .quiesce 6).sup.tripped = false) ∧
    (let s := st4.modLed fun l => { l with blanking := [(9000, 0)] }; (∃ x ∈ s.led.blanking, x.1 = 9000) ∧
      s.sup.tripped = false ∧ quiesced s 9000 = true ∧ blankOver s 9000 = true ∧ (∀ r ∈ s.led.appends, ¬ (r.type = 0x03 ∧
      r.a = 9000))) ∧
    ((stFire 0 0).sup.tripped = false ∧ (stFire 0 0).so.halted = false ∧ (firingNow (stFire 0 0) 0 0).isSome = true ∧
      firingNow st4 0 0 = none ∧ (firingNow (stFire 7 0) 0 7).isSome = true ∧ (firingNow (stFire 6 0) 0 6).isSome = true) ∧
    ((firingNow (stFire 4 0x10) 0 4).isSome = true ∧ (firingNow (stFire 5 0x10) 0 5).isSome = true ∧ boardOk st4 = true) ∧
    ((firingNow (stFire 3 3) 0 3).any (fun f => soArg f.bytes 0 2 == 3) = true ∧
      (queueAt ((stFire 3 3).modMov fun m => { m with queues := [(3, some { (default : Queue) with gateClosed := true })] }) 3).any (·.gateClosed) = true) ∧
    ((firingNow (stFire 1 50) 0 1).any (fun f => !provisioned (ent st4 (soArg f.bytes 0 3))) = true ∧
      (firingNow (stFire 1 5) 0 1).any (fun f => provisioned (ent st4 (soArg f.bytes 0 3)) && (ent st4 (soArg f.bytes 0 3)).key == soArg f.bytes 7 1) = true) ∧
    (let s := st4.modSo fun o => { o with quiet := [(4, 5)] }; tget 0 s.so.quiet 4 ≠ 0 ∧
      5 - 1 + quietMax s ≤ s.tbs.mint.toNat ∧ tget 0 s.so.quiet 3 = 0) ∧
    (((stFire 1 5).so.firings.all fun g => soAction g.bytes != 2) = true) ∧
    (let s := (stSet .open_ [] st4).modEsc fun e => { e with sets := e.sets.map fun x => (x.1, { x.2 with abandon := true }) };
      (escSet s 1).abandon = true ∧ (escSet s 1).oldFolios = [] ∧ (escSet s 1).members = []) ∧
    ((escSet (stSet .settling [] st4) 1).state = .settling ∧ (escSet (stSet .settling [] st4) 1).oldFolios = []) ∧
    (let s := stArmed (mkOrder 4096 5 1 2 0 7 1) (stSet .closed [7] st4); (soEnt s 0).state = .armed ∧
      soAction (soEnt s 0).bytes = 2 ∧ (soEnt s 0).prepared = false ∧ soRunning s = true ∧ s.led.memActive = true ∧
      s.ctl.cpuUp = true ∧ soFire (soEnt s 0).bytes ≤ s.tbs.mint.toNat + prepLead (escSet s 1).members.length ∧
      (escSet s 1).state = .closed ∧ (escSet s 1).abandon = false) ∧
    (domFree (stQ []) domFAB = true ∧ pageOf (stQ []) .a 1 = some (mkQueue []) ∧ (pageOf (stQ []) .a 4095).isNone = true) ∧
    ((engineAt st4 0).inService = true ∧ (engineAt (modEngine 0 (fun e => { e with reinit := true }) st4) 0).reinit = true) ∧
    (pairMode (stP fun p => { p with step := .hello }) = true ∧ (stP fun p => { p with step := .hello }).pair.step = .hello) ∧
    (let s := stP fun p => { p with stepFailedAt := some 5, step := .phy, state := .solo, packets := 2 ^ 32 };
      s.pair.stepFailedAt = some 5 ∧ 10000000 + 5 ≤ s.clock ∧ s.pair.refusedUntil ≤ s.clock ∧ 2 ^ 32 ≤ s.pair.packets) ∧
    ((stP id).pair.step = .up ∧ 10000 + (stP id).pair.lastTx ≤ (stP id).clock ∧ (stP id).tbs.source ≠ 2 ∧
      1000000 + (stP id).pair.lastTime ≤ (stP id).clock ∧ (stP id).pair.tagFails < 2) ∧
    (64000 + (stP id).pair.lastRx ≤ (stP id).clock ∧ (stP id).pair.barrier = none ∧ (stP id).pair.fwds = [] ∧
      (stP id).pair.timeLocked = false) ∧
    (let s := stP fun p => { p with mirror := [mkMir 3] }; s.pair.mirror.find? (fun e => e.seq == 3) = some (mkMir 3) ∧
      s.pair.splitPlanned = false ∧ (mkMir 3).settle = false ∧ (s.pair.mirror.find? fun e => e.seq == 4) = none) ∧
    (let f : Fwd := { id := 4, mover := true, head := .a, tag := 0, write := false, sector := 9, key := 0, data := 0, enables := 0 };
      (stP fun p => { p with fwds := [f] }).pair.fwds.find? (fun f => f.id == 4) = some f) ∧
    (headPresent stUp .a = true ∧ headPresent stUp .b = true ∧ stUp.pur.waitQ = []) ∧
    (resetTakes stUp = true ∧ headPresent stUp .a = true ∧ (portOf stUp .a).level = .cxl31 ∧
      resetTakes (stUp.modSup fun u => { u with tripped := true }) = false) ∧
    (twoHeads st1 = false ∧ st1.fe.portA.perstLow = false ∧ resetTakes st1 = true) ∧
    (stUp.sup.inReset = false) ∧
    (stUp.sup.state = .on ∧ stUp.sup.tripped = false ∧ stUp.pur.drain = .none ∧ (draining .critical stUp).pur.drain = .critical) ∧
    (let s := stUp.modCtl fun c => { c with rstPend := some (5, true) }; (∃ a, s.ctl.rstPend = some a ∧ a.2 = true ∧
      1000000 + a.1 ≤ s.clock) ∧ cycleTakes s = true) ∧
    (let s := pressed stUp; s.sup.pbPressed = true ∧ s.sup.pbAt + longPress s ≤ s.clock ∧ s.sup.state = .on ∧
      s.sup.onAt ≤ s.sup.pbAt ∧ s.pur.drain = .none) ∧
    (let s := stUp.modSup fun u => { u with state := .off }; s.sup.pbPressed = false ∧ tooHot s = false ∧ s.sup.aonOn = true) ∧
    (let s := stUp.modSup fun u => { u with pbPressed := true, pbAt := 89999999999 }; s.sup.pbPressed = true ∧
      s.clock < s.sup.pbAt + longPress s ∧ s.sup.onAt ≤ s.sup.pbAt) ∧
    (stUp.sup.aonOn = true ∧ stUp.ctl.life ≠ .debugUnlocked ∧ stUp.pb.writing = none) ∧
    (let s := stUp.modPur fun u => { u with holdupOk := true, holdupSince := 3 }; s.pur.holdupOk = true ∧
      10000000 + s.pur.holdupSince ≤ s.clock) ∧
    (let s := stUp.modPur fun u => { u with budgetStaged := some 5, budgetAt := 5 }; s.pur.budgetStaged = some 5 ∧
      s.pur.budgetAt ≤ mintNow s ∧ s.pur.waitQ = []) ∧
    ((stUp.modSup fun u => { u with aonOn := false }).sup.aonOn = false) ∧
    (let s := (stUp.modSup fun u => { u with state := .recalling }).modPb fun p => { p with recalling := true };
      s.sup.state = .recalling ∧ s.pb.faultIds = [] ∧ (supParam s 0x180).testBit 3 = true ∧ tooHot s = false ∧
      s.sup.supplyGood = true ∧ s.board.testEn = false) ∧
    (let s := stUp.modSup fun u => { u with state := .off, restartDue := true }; s.sup.aonOn = true ∧ s.sup.restartDue = true ∧
      tooHot s = false) ∧
    (let s := stRail (fun r => { r with state := .falling, fallScans := 1, disAt := 5 }) .down; (railAt s 0).state = .falling ∧
      (railAt s 0).enabled = false ∧ 0 < railFall s 0 ∧ (railAt s 0).fallScans ≠ 0 ∧
      (railAt s 0).disAt + railFallTo s 0 ≤ s.clock) ∧
    (let s := stRail (fun r => { r with dueAt := 7 }) .up; (railAt s 0).dueAt ≠ 0 ∧ (railAt s 0).dueAt - 1 ≤ s.clock) ∧
    ((sensorAt stUp 11).cause = 0 ∧ (sensorAt stUp 11).raw ≠ 600 ∧ 4000000 + (sensorAt stUp 11).last ≤ stUp.clock ∧
      hottest stUp < 460) ∧
    (3600000000000 + stUp.sup.histAt ≤ (stUp.setClock 3600000000000).clock ∧ stUp.clock < 3600000000000 + stUp.sup.histAt) ∧
    ((portOf stUp .a).rate ≠ 0 ∧ (portOf stUp .a).level = .cxl31) ∧
    (st1.sup.aonOn = true ∧ 1000000000 + st1.sup.aonAt ≤ st1.clock) := by
  refine ⟨?_, ?_, ?_, ?_, ?_, ?_, ?_, ?_, ?_, ?_, ?_, ?_, ?_, ?_, ?_, ?_, ?_, ?_, ?_, ?_, ?_, ?_, ?_, ?_, ?_, ?_, ?_,
    ?_, ?_, ?_, ?_, ?_, ?_, ?_, ?_, ?_, ?_, ?_, ?_, ?_, ?_, ?_, ?_, ?_, ?_, ?_, ?_⟩ <;> decide +kernel

/-! One step each, its result from the spec's own numbers. -/

/-- A property of the state that a command answers. -/
def after (c : Instr) (s : State) (p : State → Bool) : Bool := match exec c s with | .next t => p t | _ => false

/-- R1: GC_ID of B1 silicon is 0x320000B1. -/
theorem test_gc_id : after (.registerWrite (acc .read 0x0)) st1 (fun _ => true) = true ∧ gcReg st1 0 = 0x320000B1 := by decide +kernel

/-- R25: a misaligned read answers all ones. -/
theorem test_misaligned : after (.misalignedAccess (acc .read 0x41)) st1 (fun t => t.isl.lastRead == 0xFFFFFFFF) = true := by decide +kernel

/-- R219: SOURCE_PTM selects source 1. -/
theorem test_source_ptm : after (.sourcePtm .a) st1 (fun t => t.tbs.source == 1) = true := by decide +kernel

/-- R28: a write of TBS_SET_HI at mint time 5000000123 waits for the boundary 5000000512 (5000000123 + 32 rounded up to 1,024). -/
theorem test_set_boundary : after (.tbsSetHi .a 1) st1 (fun t => t.tbs.pendSet == some (5000000512, 0x100000000)) = true := by decide +kernel

/-- R428: FREEZE sets FROZEN and THAW clears it. -/
theorem test_freeze : after (.daybookFreeze .a) st1 (·.ev.frozen) = true := by decide +kernel

/-- R441: clearing bit 3 of EVT_PENDING0 leaves bit 2. -/
theorem test_pending_clear :
    after (.evtPendingClear .a 0 0x8) (rset st1 0x30010 0xC) (fun t => rget t 0x30010 == 0x4) = true := by decide +kernel

/-- R436: the sample period of slot 15 is written. -/
theorem test_sample_cfg : after (.sampleCfgWrite .a 15 true 7) st1 (fun t => rget t 0x500BC == 7) = true := by decide +kernel

/-- R478: a sensor reading above 600 quarter degrees of range breaks the sensor with cause 1. -/
theorem test_sensor_range : after (.sensorConversion 3 601) stUp (fun t => (sensorAt t 3).cause == 1) = true := by decide +kernel

/-- R388: a request of another page's register is answered NOT_OWNER (0x04). -/
theorem test_not_owner :
    after (.regWrite 1 9 (toLE 2 0x20 ++ zeros 2 ++ toLE 4 5)) stV (fun t => t.ctl.vaultResp == some (vaultFrame 0x01 1 9 0x04 [])) = true := by
  decide +kernel

/-- R473: POWER-FAIL: a trip in ON begins the power-fail drain. -/
theorem test_trip : after .pfTrip stUp (fun t => t.sup.tripped && t.pur.drain == .powerFail && t.pur.creditsHeld) = true := by decide +kernel

/-- R340: a read of an unprovisioned folio answers poison. -/
theorem test_unprovisioned : after (.memRd .a 7 (50 * 2 ^ 21) false) stMem (fun t => t.said == [.memPoison .a 7]) = true := by decide +kernel

/-- R373: an MCTP Get Endpoint ID is answered with the endpoint ID. -/
theorem test_eid : after (.setEndpointId [0, 9]) st4 (fun t => t.ctl.eid == 9 && t.said == [.mctp [0, 1, 0, 0, 9, 0]]) = true := by decide +kernel

end Sys2Proof.Tests
end

section
/-! PROOFS. A sparse table reads what was written last, and the write of a plain register sets its fields (R6). -/

namespace Sys2Proof.Machine

/-- Settles O14: the second half is the first at the table `State.regs`. -/
theorem tableReadsLastWrite : Obligations.TableReadsLastWrite := by
  unfold Obligations.TableReadsLastWrite
  constructor
  · intro α _ d v t k
    exact ⟨tget_tput_same d t k v, fun j hj => tget_tput_ne d d t k j v hj, twf_tput d t k v⟩
  · intro s k v
    exact ⟨rget_rset_same s k v, fun j hj => rget_rset_ne s k j v hj, rfl⟩

/-- No register mixes RW and W1C bits (R6). -/
theorem regRows_rw_or_w1c_zero : ∀ r ∈ regRows, r.rw = 0 ∨ r.w1c = 0 := by decide

/-- R6, bit by bit, for a register of the row table. -/
theorem writeMasked_bit_of_row (r : RegRow) (hr : r ∈ regRows) (old v : BitVec 32) (i : Nat) (hi : i < 32) :
    (writeMasked r.rw r.w1c old v).getLsbD i =
      if r.rw.testBit i then v.getLsbD i
      else if r.w1c.testBit i && v.getLsbD i then false
      else old.getLsbD i := by
  rw [writeMasked_bit _ _ _ _ _ hi]
  rcases regRows_rw_or_w1c_zero r hr with hrw | hw1c
  · rw [hrw]
    cases r.w1c.testBit i <;> cases v.getLsbD i <;> simp
  · simp [hw1c]

theorem mem_regRows_of_rowOf {off : Nat} {r : RegRow} (h : rowOf off = some r) : r ∈ regRows :=
  List.mem_of_find?_eq_some h

/-- The plain registers (`plainReg`) outside the EVT_ROUTE array. -/
def plainSingles : List Nat :=
  [0x40, 0x20020, 0x2001C, 0x30600, 0x50008, 0x500E0, 0x60000, 0x61000, 0x6100C, 0x80004, 0x80100, 0x200000, 0x280000, 0x300000,
   0x300100, 0x400000, 0x500000]

/-- The plain registers: single ones, and EVT_ROUTE0 to EVT_ROUTE319 (R441). -/
theorem plainReg_iff (off : Nat) :
    plainReg off = true ↔ off ∈ plainSingles ∨ (0x30100 ≤ off ∧ off < 0x30600 ∧ off % 4 = 0) := by
  simp only [plainReg, plainSingles, Bool.or_eq_true, List.contains_iff_mem, Bool.and_eq_true, decide_eq_true_eq, beq_iff_eq, and_assoc]

theorem plainReg_aligned {off : Nat} (h : plainReg off = true) : off % 4 = 0 := by
  rcases (plainReg_iff off).mp h with hmem | ⟨-, -, h4⟩
  · exact (by decide : ∀ o ∈ plainSingles, o % 4 = 0) off hmem
  · exact h4

theorem plainReg_not_aperture {off : Nat} (h : plainReg off = true) : off < 0x120000 ∨ 0x125000 ≤ off := by
  rcases (plainReg_iff off).mp h with hmem | ⟨-, hhi, -⟩
  · exact (by decide : ∀ o ∈ plainSingles, o < 0x120000 ∨ 0x125000 ≤ o) off hmem
  · omega

theorem plainReg_has_row {off : Nat} (h : plainReg off = true) : ∃ r, rowOf off = some r := by
  rw [← Option.isSome_iff_exists]
  rcases (plainReg_iff off).mp h with hmem | ⟨hlo, hhi, h4⟩
  · exact (by decide : ∀ o ∈ plainSingles, (rowOf o).isSome = true) off hmem
  · have hcov : RegRow.covers ⟨0x30100, 320, 4, 0xFFFF, 0, 0⟩ off = true := by
      simp only [RegRow.covers, Bool.and_eq_true, decide_eq_true_eq, beq_iff_eq]
      omega
    exact List.find?_isSome.mpr ⟨_, by decide, hcov⟩

/-- A word of EVT_ROUTE is stored: it lies in none of the ranges of the event block whose write acts (R441). -/
theorem bar0Write_evtRoute (h : Head) (off : Nat) (v : BitVec 32) (s : State) (hlo : 0x30100 ≤ off) (hhi : off < 0x30600) :
    bar0Write h off v s = stored h off v s := by
  have hblock : bar0Write h off v s = writeEvt h off v s := by
    rw [bar0Write, if_neg (by omega), if_neg (by omega), if_neg (by omega), if_pos (by omega)]
  have hpend : ¬ off < 0x30038 := by omega
  have hcoal : off ≠ 0x30604 := by omega
  have hmsix : ¬ 0x38000 ≤ off := by omega
  rw [hblock]
  simp [writeEvt, hpend, hcoal, hmsix]

/-- Each single plain register lies in its block outside the offsets whose write acts; its offset decides the branches. -/
theorem bar0Write_plainSingle (h : Head) (off : Nat) (v : BitVec 32) (s : State) (hmem : off ∈ plainSingles) :
    bar0Write h off v s = stored h off v s := by
  rw [plainSingles] at hmem
  fin_cases hmem <;> rfl

/-- The write of a plain register reaches no register with an effect of its own: it stores (R6). -/
theorem bar0Write_plainReg (h : Head) (off : Nat) (v : BitVec 32) (s : State) (hp : plainReg off = true) :
    bar0Write h off v s = stored h off v s := by
  rcases (plainReg_iff off).mp hp with hmem | ⟨hlo, hhi, -⟩
  · exact bar0Write_plainSingle h off v s hmem
  · exact bar0Write_evtRoute h off v s hlo hhi

/-- R6: the write of a register of the row table. -/
theorem stored_of_row {off : Nat} {r : RegRow} (hr : rowOf off = some r) (h : Head) (v : BitVec 32) (s : State) :
    stored h off v s = rset s (regKey h off) (writeMasked r.rw r.w1c (rget s (regKey h off)) v) := by
  simp only [stored, hr]

/-- REGISTER_WRITE of a plain register that its domain takes: one write of the register table. -/
theorem exec_registerWrite_plainReg {off : Nat} {r : RegRow} (hr : rowOf off = some r) (h : Head) (v : BitVec 32) (s : State)
    (hp : plainReg off = true) (hf : domFree s (domainOf off) = true) :
    exec (.registerWrite (wr0 h off v)) s =
      .next (rset s (regKey h off) (writeMasked r.rw r.w1c (rget s (regKey h off)) v)) := by
  show Host.Outcome.next (accessOp (wr0 h off v) s) = _
  rw [accessOp_wr0 h off v s (plainReg_aligned hp) (plainReg_not_aperture hp) hf, bar0Write_plainReg h off v s hp,
    stored_of_row hr]

/-- Settles O4: the access is one write of the register table, and R6 gives the word written. -/
theorem registerWriteSetsFields : Obligations.RegisterWriteSetsFields := by
  unfold Obligations.RegisterWriteSetsFields
  intro h off v s hp hf
  obtain ⟨r, hr⟩ := plainReg_has_row hp
  refine ⟨r, _, hr, exec_registerWrite_plainReg hr h v s hp hf, fun i hi => ?_, fun k hk => ?_, rfl⟩
  · rw [rget_rset_same, writeMasked_bit_of_row r (mem_regRows_of_rowOf hr) _ v i hi]
  · exact rget_rset_ne s (regKey h off) k _ hk

end Sys2Proof.Machine
end

section
/-! Every step takes at most one command: what `exec` keeps, command by command, and what the empty queue's nanosecond keeps. -/

namespace Sys2Proof.Machine

open Sys2Proof

/-- Every next state that an outcome answers keeps what no command changes (Kept). -/
def ResKept (r : Res) (s : State) : Prop := ∀ t, r = .next t → Kept s t

theorem ResFixed.kept {r : Res} {s : State} (h : ResFixed r s) : ResKept r s := fun t ht => kept_of_fixed (h t ht)

/-- A vault command for principal 0 alone keeps what its body keeps. -/
theorem p0Only_kept (len : Nat) (body : List Byte → State → VAns) (q : Nat) (b : List Byte) (s : State)
    (h : ∀ b, Kept s (body b s).st) : Kept s (p0Only len body q b s).st := by
  simp only [p0Only]
  repeat' split
  exacts [kept_of_fixed rfl, kept_of_fixed rfl, h b]

/-- ENTER_RMA is the one command that changes whether the lifecycle state is RMA. -/
theorem execEnterRma_kept (principal tag : Nat) (payload : List Byte) (s : State) :
    ResKept (execEnterRma principal tag payload s) s := by
  rintro t ⟨⟩
  exact vaultRun_kept _ _ _ _ _ _ fun _ _ => p0Only_kept _ _ _ _ _ fun b => vEnterRma_kept b s

/-- No command changes the queue, the board or the clock, and none leaves RMA; one arm a row of the opcode table. -/
theorem exec_kept : ∀ (c : Instr) (s : State), ResKept (exec c s) s
  | .registerWrite a, s => (execRegisterWrite_fixed a s).kept
  | .misalignedAccess a, s => (execMisalignedAccess_fixed a s).kept
  | .latchingLowWordRead a, s => (execLatchingLowWordRead_fixed a s).kept
  | .apertureRead a, s => (execApertureRead_fixed a s).kept
  | .islandTimeout a, s => (execIslandTimeout_fixed a s).kept
  | .islandClockReturn d, s => (execIslandClockReturn_fixed d s).kept
  | .commitStaged t, s => (execCommitStaged_fixed t s).kept
  | .commitApply c, s => (execCommitApply_fixed c s).kept
  | .frameToken, s => (execFrameToken_fixed s).kept
  | .frameStart k, s => (execFrameStart_fixed k s).kept
  | .frameLate k, s => (execFrameLate_fixed k s).kept
  | .slotStart c, s => (execSlotStart_fixed c s).kept
  | .memRd h tag hpa own, s => (execMemRd_fixed h tag hpa own s).kept
  | .memRdData h tag hpa own, s => (execMemRdData_fixed h tag hpa own s).kept
  | .memWr h tag hpa data poison, s => (execMemWr_fixed h tag hpa data poison s).kept
  | .memWrPtl h tag hpa data enables poison, s => (execMemWrPtl_fixed h tag hpa data enables poison s).kept
  | .memSpecRd h hpa, s => (execMemSpecRd_fixed h hpa s).kept
  | .recoined b, s => (execRecoined_fixed b s).kept
  | .mediaReadDone op r, s => (execMediaReadDone_fixed op r s).kept
  | .mediaWriteDone op, s => (execMediaWriteDone_fixed op s).kept
  | .drainIssue, s => (execDrainIssue_fixed s).kept
  | .drainAgeCheck, s => (execDrainAgeCheck_fixed s).kept
  | .gpfPhase1 h, s => (execGpfPhase1_fixed h s).kept
  | .gpfPhase2 h, s => (execGpfPhase2_fixed h s).kept
  | .gpfPhase2Complete, s => (execGpfPhase2Complete_fixed s).kept
  | .biSnoopResponse h sector wb, s => (execBiSnoopResponse_fixed h sector wb s).kept
  | .biTimeout h sector, s => (execBiTimeout_fixed h sector s).kept
  | .lostSlotScanDone slot, s => (execLostSlotScanDone_fixed slot s).kept
  | .alert c pos cause op, s => (execAlert_fixed c pos cause op s).kept
  | .suspFault c pos bank, s => (execSuspFault_fixed c pos bank s).kept
  | .bankResume c pos bank, s => (execBankResume_fixed c pos bank s).kept
  | .dieTimeUpdate, s => (execDieTimeUpdate_fixed s).kept
  | .channelBringup c present m2, s => (execChannelBringup_fixed c present m2 s).kept
  | .bringupStepTimeout c step, s => (execBringupStepTimeout_fixed c step s).kept
  | .channelReinit c, s => (execChannelReinit_fixed c s).kept
  | .dieFailed c pos why, s => (execDieFailed_fixed c pos why s).kept
  | .rebuildDone c, s => (execRebuildDone_fixed c s).kept
  | .restrike c, s => (execRestrike_fixed c s).kept
  | .patrolStart, s => (execPatrolStart_fixed s).kept
  | .patrolDone, s => (execPatrolDone_fixed s).kept
  | .scrubDone, s => (execScrubDone_fixed s).kept
  | .mintTimeRecord, s => (execMintTimeRecord_fixed s).kept
  | .journalAppendComplete, s => (execJournalAppendComplete_fixed s).kept
  | .checkpointTimer, s => (execCheckpointTimer_fixed s).kept
  | .checkpointRingThreshold, s => (execCheckpointRingThreshold_fixed s).kept
  | .ckptReq h, s => (execCkptReq_fixed h s).kept
  | .checkpointDone, s => (execCheckpointDone_fixed s).kept
  | .recovery a b recoin torn, s => (execRecovery_fixed a b recoin torn s).kept
  | .memoryActive, s => (execMemoryActive_fixed s).kept
  | .scanDone bad, s => (execScanDone_fixed bad s).kept
  | .scanCommitDone, s => (execScanCommitDone_fixed s).kept
  | .migrationStart, s => (execMigrationStart_fixed s).kept
  | .migrationPassDone folio, s => (execMigrationPassDone_fixed folio s).kept
  | .migrationSourceQuiesced folio, s => (execMigrationSourceQuiesced_fixed folio s).kept
  | .folioBlankDone m, s => (execFolioBlankDone_fixed m s).kept
  | .holdupOkFall, s => (execHoldupOkFall_fixed s).kept
  | .holdupOkRise, s => (execHoldupOkRise_fixed s).kept
  | .holdupReady, s => (execHoldupReady_fixed s).kept
  | .tilBudgetWrite h value, s => (execTilBudgetWrite_fixed h value s).kept
  | .budgetApply, s => (execBudgetApply_fixed s).kept
  | .pfTrip, s => (execPfTrip_fixed s).kept
  | .powerFailDrainDone, s => (execPowerFailDrainDone_fixed s).kept
  | .sboxClearDone, s => (execSboxClearDone_fixed s).kept
  | .tbsSetHi h value, s => (execTbsSetHi_fixed h value s).kept
  | .mintTimeSet, s => (execMintTimeSet_fixed s).kept
  | .sourceHost h, s => (execSourceHost_fixed h s).kept
  | .sourcePtm h, s => (execSourcePtm_fixed h s).kept
  | .sourcePairLink h, s => (execSourcePairLink_fixed h s).kept
  | .tbsPtmCfgWrite h value, s => (execTbsPtmCfgWrite_fixed h value s).kept
  | .ptmDialogue, s => (execPtmDialogue_fixed s).kept
  | .ptmResponse master, s => (execPtmResponse_fixed master s).kept
  | .soArm h value, s => (execSoArm_fixed h value s).kept
  | .soDisarm h value, s => (execSoDisarm_fixed h value s).kept
  | .nopOrder entry, s => (execNopOrder_fixed entry s).kept
  | .prefetchOrder entry, s => (execPrefetchOrder_fixed entry s).kept
  | .releaseOrder entry, s => (execReleaseOrder_fixed entry s).kept
  | .queueStart entry, s => (execQueueStart_fixed entry s).kept
  | .quietBegin entry, s => (execQuietBegin_fixed entry s).kept
  | .quietEnd entry, s => (execQuietEnd_fixed entry s).kept
  | .auditOrder entry, s => (execAuditOrder_fixed entry s).kept
  | .markerOrder entry, s => (execMarkerOrder_fixed entry s).kept
  | .quietForcedEnd c, s => (execQuietForcedEnd_fixed c s).kept
  | .releasePreparationStart entry, s => (execReleasePreparationStart_fixed entry s).kept
  | .releaseDone set, s => (execReleaseDone_fixed set s).kept
  | .setClosed set, s => (execSetClosed_fixed set s).kept
  | .setAbandoned set, s => (execSetAbandoned_fixed set s).kept
  | .chunkVerified e, s => (execChunkVerified_fixed e s).kept
  | .sqTailDoorbell h q value, s => (execSqTailDoorbell_fixed h q value s).kept
  | .cqHeadDoorbell h q value, s => (execCqHeadDoorbell_fixed h q value s).kept
  | .gateOpen h q, s => (execGateOpen_fixed h q s).kept
  | .gateClose h q, s => (execGateClose_fixed h q s).kept
  | .descriptorFetch q entries, s => (execDescriptorFetch_fixed q entries s).kept
  | .copy q idx units hostData, s => (execCopy_fixed q idx units hostData s).kept
  | .fill q idx units, s => (execFill_fixed q idx units s).kept
  | .zero q idx units, s => (execZero_fixed q idx units s).kept
  | .importChunk q idx chunk hostPoison, s => (execImportChunk_fixed q idx chunk hostPoison s).kept
  | .exportChunk q idx, s => (execExportChunk_fixed q idx s).kept
  | .prefetch q idx units, s => (execPrefetch_fixed q idx units s).kept
  | .clean q idx, s => (execClean_fixed q idx s).kept
  | .reserveLoad q idx, s => (execReserveLoad_fixed q idx s).kept
  | .condStore q idx, s => (execCondStore_fixed q idx s).kept
  | .fence q idx, s => (execFence_fixed q idx s).kept
  | .timestamp q idx, s => (execTimestamp_fixed q idx s).kept
  | .completionEntryWrite q idx, s => (execCompletionEntryWrite_fixed q idx s).kept
  | .hostError q idx side detail, s => (execHostError_fixed q idx side detail s).kept
  | .reqTimeout q idx side, s => (execReqTimeout_fixed q idx side s).kept
  | .engineReinit e fault, s => (execEngineReinit_fixed e fault s).kept
  | .engineReinitDone e ok, s => (execEngineReinitDone_fixed e ok s).kept
  | .linkUp h rate width partner, s => (execLinkUp_fixed h rate width partner s).kept
  | .linkDown h, s => (execLinkDown_fixed h s).kept
  | .hotReset h, s => (execHotReset_fixed h s).kept
  | .functionLevelReset h, s => (execFunctionLevelReset_fixed h s).kept
  | .perstAN, s => (execPerstAN_fixed s).kept
  | .perstBN, s => (execPerstBN_fixed s).kept
  | .cxlReset h, s => (execCxlReset_fixed h s).kept
  | .decoderCommit h n req, s => (execDecoderCommit_fixed h n req s).kept
  | .ideSecure h is, s => (execIdeSecure_fixed h is s).kept
  | .spdmRequest h r, s => (execSpdmRequest_fixed h r s).kept
  | .doeRequest h r, s => (execDoeRequest_fixed h r s).kept
  | .deviceReset src, s => (execDeviceReset_fixed src s).kept
  | .powerCycle, s => (execPowerCycle_fixed s).kept
  | .reinitComplete f ok, s => (execReinitComplete_fixed f ok s).kept
  | .homeSliceReinit is, s => (execHomeSliceReinit_fixed is s).kept
  | .purseReinit, s => (execPurseReinit_fixed s).kept
  | .packageEngineReinit e, s => (execPackageEngineReinit_fixed e s).kept
  | .mailboxReinit p, s => (execMailboxReinit_fixed p s).kept
  | .keyPageReinit page, s => (execKeyPageReinit_fixed page s).kept
  | .cpuReinit, s => (execCpuReinit_fixed s).kept
  | .mchCntClear t, s => (execMchCntClear_fixed t s).kept
  | .intCntClear h, s => (execIntCntClear_fixed h s).kept
  | .purCntClear h, s => (execPurCntClear_fixed h s).kept
  | .iceCntClear h, s => (execIceCntClear_fixed h s).kept
  | .movCntClear h, s => (execMovCntClear_fixed h s).kept
  | .bgDone p cxl, s => (execBgDone_fixed p cxl s).kept
  | .mctpPacket port bytes last ok, s => (execMctpPacket_fixed port bytes last ok s).kept
  | .setEndpointId payload, s => (execSetEndpointId_fixed payload s).kept
  | .getEndpointId payload, s => (execGetEndpointId_fixed payload s).kept
  | .getMctpVersionSupport payload, s => (execGetMctpVersionSupport_fixed payload s).kept
  | .getMessageTypeSupport payload, s => (execGetMessageTypeSupport_fixed payload s).kept
  | .getVendorDefinedMsgSupport payload, s => (execGetVendorDefinedMsgSupport_fixed payload s).kept
  | .identify p payload, s => (execIdentify_fixed p payload s).kept
  | .backgroundOperationStatus p payload, s => (execBackgroundOperationStatus_fixed p payload s).kept
  | .requestAbortBackgroundOp p payload, s => (execRequestAbortBackgroundOp_fixed p payload s).kept
  | .getEventRecords p payload, s => (execGetEventRecords_fixed p payload s).kept
  | .clearEventRecords p payload, s => (execClearEventRecords_fixed p payload s).kept
  | .getEventInterruptPolicy p payload, s => (execGetEventInterruptPolicy_fixed p payload s).kept
  | .setEventInterruptPolicy p payload, s => (execSetEventInterruptPolicy_fixed p payload s).kept
  | .getFwInfo p payload, s => (execGetFwInfo_fixed p payload s).kept
  | .transferFw p payload, s => (execTransferFw_fixed p payload s).kept
  | .activateFw p payload, s => (execActivateFw_fixed p payload s).kept
  | .getTimestamp p payload, s => (execGetTimestamp_fixed p payload s).kept
  | .setTimestamp p payload, s => (execSetTimestamp_fixed p payload s).kept
  | .getSupportedLogs p payload, s => (execGetSupportedLogs_fixed p payload s).kept
  | .getLog p payload, s => (execGetLog_fixed p payload s).kept
  | .identifyMemoryDevice p payload, s => (execIdentifyMemoryDevice_fixed p payload s).kept
  | .getPartitionInfo p payload, s => (execGetPartitionInfo_fixed p payload s).kept
  | .getHealthInfo p payload, s => (execGetHealthInfo_fixed p payload s).kept
  | .getAlertConfiguration p payload, s => (execGetAlertConfiguration_fixed p payload s).kept
  | .setAlertConfiguration p payload, s => (execSetAlertConfiguration_fixed p payload s).kept
  | .getShutdownState p payload, s => (execGetShutdownState_fixed p payload s).kept
  | .setShutdownState p payload, s => (execSetShutdownState_fixed p payload s).kept
  | .getPoisonList p payload, s => (execGetPoisonList_fixed p payload s).kept
  | .injectPoison p payload, s => (execInjectPoison_fixed p payload s).kept
  | .clearPoison p payload, s => (execClearPoison_fixed p payload s).kept
  | .scanMedia p payload, s => (execScanMedia_fixed p payload s).kept
  | .sanitize p payload, s => (execSanitize_fixed p payload s).kept
  | .getCapacityInfo p payload, s => (execGetCapacityInfo_fixed p payload s).kept
  | .provisionFolios p payload, s => (execProvisionFolios_fixed p payload s).kept
  | .deprovisionFolios p payload, s => (execDeprovisionFolios_fixed p payload s).kept
  | .zeroFolios p payload, s => (execZeroFolios_fixed p payload s).kept
  | .setFolioAttributes p payload, s => (execSetFolioAttributes_fixed p payload s).kept
  | .changeFolioClass p payload, s => (execChangeFolioClass_fixed p payload s).kept
  | .getFolioEntry p payload, s => (execGetFolioEntry_fixed p payload s).kept
  | .requestCheckpoint p payload, s => (execRequestCheckpoint_fixed p payload s).kept
  | .startRebuildScan p payload, s => (execStartRebuildScan_fixed p payload s).kept
  | .commitScanResult p payload, s => (execCommitScanResult_fixed p payload s).kept
  | .format p payload, s => (execFormat_fixed p payload s).kept
  | .getScanReport p payload, s => (execGetScanReport_fixed p payload s).kept
  | .getWearAndReserveHealth p payload, s => (execGetWearAndReserveHealth_fixed p payload s).kept
  | .setTillLossAcceptance p payload, s => (execSetTillLossAcceptance_fixed p payload s).kept
  | .startFullAssay p payload, s => (execStartFullAssay_fixed p payload s).kept
  | .readDieRegister p payload, s => (execReadDieRegister_fixed p payload s).kept
  | .getChannelStatus p payload, s => (execGetChannelStatus_fixed p payload s).kept
  | .getDomainInfo p payload, s => (execGetDomainInfo_fixed p payload s).kept
  | .getSealedWindow p payload, s => (execGetSealedWindow_fixed p payload s).kept
  | .writeStandingOrder p payload, s => (execWriteStandingOrder_fixed p payload s).kept
  | .armStandingOrder p payload, s => (execArmStandingOrder_fixed p payload s).kept
  | .disarmStandingOrder p payload, s => (execDisarmStandingOrder_fixed p payload s).kept
  | .readStandingOrder p payload, s => (execReadStandingOrder_fixed p payload s).kept
  | .createEscrowSet p payload, s => (execCreateEscrowSet_fixed p payload s).kept
  | .closeEscrowSet p payload, s => (execCloseEscrowSet_fixed p payload s).kept
  | .abandonEscrowSet p payload, s => (execAbandonEscrowSet_fixed p payload s).kept
  | .getEscrowSet p payload, s => (execGetEscrowSet_fixed p payload s).kept
  | .createQueuePair p payload, s => (execCreateQueuePair_fixed p payload s).kept
  | .deleteQueuePairDrain p payload, s => (execDeleteQueuePairDrain_fixed p payload s).kept
  | .deleteQueuePairAbort p payload, s => (execDeleteQueuePairAbort_fixed p payload s).kept
  | .setQueueGrants p payload, s => (execSetQueueGrants_fixed p payload s).kept
  | .reinitMoverEngine p payload, s => (execReinitMoverEngine_fixed p payload s).kept
  | .getQueueInfo p payload, s => (execGetQueueInfo_fixed p payload s).kept
  | .getPairStatus p payload, s => (execGetPairStatus_fixed p payload s).kept
  | .setPairPolicy p payload, s => (execSetPairPolicy_fixed p payload s).kept
  | .startSettlement p payload, s => (execStartSettlement_fixed p payload s).kept
  | .splitPairPlanned p payload, s => (execSplitPairPlanned_fixed p payload s).kept
  | .splitPairImmediate p payload, s => (execSplitPairImmediate_fixed p payload s).kept
  | .readPassbookParameter p payload, s => (execReadPassbookParameter_fixed p payload s).kept
  | .writePassbookParameter p payload, s => (execWritePassbookParameter_fixed p payload s).kept
  | .getTallyCounter p payload, s => (execGetTallyCounter_fixed p payload s).kept
  | .getSupervisionStatus p payload, s => (execGetSupervisionStatus_fixed p payload s).kept
  | .getRailCounters p payload, s => (execGetRailCounters_fixed p payload s).kept
  | .setSupervisionParameter p payload, s => (execSetSupervisionParameter_fixed p payload s).kept
  | .resetDevice p payload, s => (execResetDevice_fixed p payload s).kept
  | .requestPowerCycle p payload, s => (execRequestPowerCycle_fixed p payload s).kept
  | .readDaybook p payload, s => (execReadDaybook_fixed p payload s).kept
  | .thaw p payload, s => (execThaw_fixed p payload s).kept
  | .freeze p payload, s => (execFreeze_fixed p payload s).kept
  | .armTrigger p payload, s => (execArmTrigger_fixed p payload s).kept
  | .disarmTrigger p payload, s => (execDisarmTrigger_fixed p payload s).kept
  | .getDaybookSummary p payload, s => (execGetDaybookSummary_fixed p payload s).kept
  | .takeAuditSnapshot p payload, s => (execTakeAuditSnapshot_fixed p payload s).kept
  | .readAuditSnapshot p payload, s => (execReadAuditSnapshot_fixed p payload s).kept
  | .setDaybookRateLimit p payload, s => (execSetDaybookRateLimit_fixed p payload s).kept
  | .getFirmwareInfo p payload, s => (execGetFirmwareInfo_fixed p payload s).kept
  | .transferFirmware p payload, s => (execTransferFirmware_fixed p payload s).kept
  | .activateFirmwareOnline p payload, s => (execActivateFirmwareOnline_fixed p payload s).kept
  | .activateFirmwareAtReset p payload, s => (execActivateFirmwareAtReset_fixed p payload s).kept
  | .fwActivated versions, s => (execFwActivated_fixed versions s).kept
  | .fwReverted, s => (execFwReverted_fixed s).kept
  | .fwSlotIdleTimeout, s => (execFwSlotIdleTimeout_fixed s).kept
  | .getLifecycleState p payload, s => (execGetLifecycleState_fixed p payload s).kept
  | .commitRollbackFloor p payload, s => (execCommitRollbackFloor_fixed p payload s).kept
  | .getInterfaceVersions p payload, s => (execGetInterfaceVersions_fixed p payload s).kept
  | .declareInterfaceVersion p payload, s => (execDeclareInterfaceVersion_fixed p payload s).kept
  | .regWrite principal tag payload, s => (execRegWrite_fixed principal tag payload s).kept
  | .loadKey principal tag, s => (execLoadKey_fixed principal tag s).kept
  | .unloadKey principal tag, s => (execUnloadKey_fixed principal tag s).kept
  | .lockPage principal tag, s => (execLockPage_fixed principal tag s).kept
  | .regRead principal tag payload, s => (execRegRead_fixed principal tag payload s).kept
  | .setPolicy principal tag payload, s => (execSetPolicy_fixed principal tag payload s).kept
  | .getPolicy principal tag payload, s => (execGetPolicy_fixed principal tag payload s).kept
  | .sealedWindow principal tag payload, s => (execSealedWindow_fixed principal tag payload s).kept
  | .resealNode principal tag payload, s => (execResealNode_fixed principal tag payload s).kept
  | .discardNode principal tag payload, s => (execDiscardNode_fixed principal tag payload s).kept
  | .treeResealed, s => (execTreeResealed_fixed s).kept
  | .treeDiscarded, s => (execTreeDiscarded_fixed s).kept
  | .pbProtectedWrite principal tag payload, s => (execPbProtectedWrite_fixed principal tag payload s).kept
  | .pbProtectedRead principal tag payload, s => (execPbProtectedRead_fixed principal tag payload s).kept
  | .pbBlockProtect principal tag payload, s => (execPbBlockProtect_fixed principal tag payload s).kept
  | .getLifecycle principal tag payload, s => (execGetLifecycle_fixed principal tag payload s).kept
  | .debugChallenge principal tag payload, s => (execDebugChallenge_fixed principal tag payload s).kept
  | .debugResponse principal tag payload, s => (execDebugResponse_fixed principal tag payload s).kept
  | .debugLock principal tag payload, s => (execDebugLock_fixed principal tag payload s).kept
  | .enterRma principal tag payload, s => execEnterRma_kept principal tag payload s
  | .authoriseImage principal tag payload, s => (execAuthoriseImage_fixed principal tag payload s).kept
  | .getStatus principal tag payload, s => (execGetStatus_fixed principal tag payload s).kept
  | .frameError bytes, s => (execFrameError_fixed bytes s).kept
  | .requestFlushed bytes, s => (execRequestFlushed_fixed bytes s).kept
  | .vaultResponseRead whole, s => (execVaultResponseRead_fixed whole s).kept
  | .debugModeSelect mode, s => (execDebugModeSelect_fixed mode s).kept
  | .debugAccess hpa wdata, s => (execDebugAccess_fixed hpa wdata s).kept
  | .pairLinkRetry, s => (execPairLinkRetry_fixed s).kept
  | .hello peer, s => (execHello_fixed peer s).kept
  | .pairAuthentication chainOk, s => (execPairAuthentication_fixed chainOk s).kept
  | .debtMapExchange peer, s => (execDebtMapExchange_fixed peer s).kept
  | .sessionKeyRenewal, s => (execSessionKeyRenewal_fixed s).kept
  | .mirrorEntry e, s => (execMirrorEntry_fixed e s).kept
  | .mirrorAck seq, s => (execMirrorAck_fixed seq s).kept
  | .mirrorRefused seq, s => (execMirrorRefused_fixed seq s).kept
  | .pairBarrier h value, s => (execPairBarrier_fixed h value s).kept
  | .heartbeat, s => (execHeartbeat_fixed s).kept
  | .pairLost, s => (execPairLost_fixed s).kept
  | .pairTimeSend, s => (execPairTimeSend_fixed s).kept
  | .pairTimeExchange lead roundTrip, s => (execPairTimeExchange_fixed lead roundTrip s).kept
  | .forwardedAccess f, s => (execForwardedAccess_fixed f s).kept
  | .forwardResponse id data, s => (execForwardResponse_fixed id data s).kept
  | .settlementInstantZero folio, s => (execSettlementInstantZero_fixed folio s).kept
  | .evtPendingClear h n value, s => (execEvtPendingClear_fixed h n value s).kept
  | .coalesceHoldExpiry h vector, s => (execCoalesceHoldExpiry_fixed h vector s).kept
  | .daybookRecordTake, s => (execDaybookRecordTake_fixed s).kept
  | .daybookFreeze h, s => (execDaybookFreeze_fixed h s).kept
  | .daybookThaw h, s => (execDaybookThaw_fixed h s).kept
  | .rateLimitWindow, s => (execRateLimitWindow_fixed s).kept
  | .snap h tag, s => (execSnap_fixed h tag s).kept
  | .clearCounters h, s => (execClearCounters_fixed h s).kept
  | .countersCleared, s => (execCountersCleared_fixed s).kept
  | .snapshotCapture, s => (execSnapshotCapture_fixed s).kept
  | .snapDone, s => (execSnapDone_fixed s).kept
  | .sample slot, s => (execSample_fixed slot s).kept
  | .sampleCfgWrite h slot period value, s => (execSampleCfgWrite_fixed h slot period value s).kept
  | .histCfgWrite h hist value, s => (execHistCfgWrite_fixed h hist value s).kept
  | .histogramRestart hist, s => (execHistogramRestart_fixed hist s).kept
  | .recallRun faults, s => (execRecallRun_fixed faults s).kept
  | .recallComplete, s => (execRecallComplete_fixed s).kept
  | .pageWriteDone, s => (execPageWriteDone_fixed s).kept
  | .scanEnd codes, s => (execScanEnd_fixed codes s).kept
  | .railDelayExpiry slot, s => (execRailDelayExpiry_fixed slot s).kept
  | .riseTimeout slot, s => (execRiseTimeout_fixed slot s).kept
  | .railAbandoned slot, s => (execRailAbandoned_fixed slot s).kept
  | .seqRetry, s => (execSeqRetry_fixed s).kept
  | .supplyGood, s => (execSupplyGood_fixed s).kept
  | .pbNPress, s => (execPbNPress_fixed s).kept
  | .pbPress, s => (execPbPress_fixed s).kept
  | .pbForceOff, s => (execPbForceOff_fixed s).kept
  | .drainCut, s => (execDrainCut_fixed s).kept
  | .mrReset, s => (execMrReset_fixed s).kept
  | .mrNRelease, s => (execMrNRelease_fixed s).kept
  | .sensorConversion sensor raw, s => (execSensorConversion_fixed sensor raw s).kept
  | .criticalStopTimeout, s => (execCriticalStopTimeout_fixed s).kept
  | .pllLockTimeout, s => (execPllLockTimeout_fixed s).kept
  | .rtcStartTimeout, s => (execRtcStartTimeout_fixed s).kept
  | .perstRelease h, s => (execPerstRelease_fixed h s).kept
  | .vddAonLoss, s => (execVddAonLoss_fixed s).kept
  | .sensorNoConversion sensor, s => (execSensorNoConversion_fixed sensor s).kept
  | .rtcCrystalStart, s => (execRtcCrystalStart_fixed s).kept
  | .configRequest h r, s => (execConfigRequest_fixed h r s).kept
  | .ideKeyExpiry h is, s => (execIdeKeyExpiry_fixed h is s).kept
  | .pairTagFail, s => (execPairTagFail_fixed s).kept
  | .linkRecovery h rate, s => (execLinkRecovery_fixed h rate s).kept
  | .temperatureHistoryRecord, s => (execTemperatureHistoryRecord_fixed s).kept

/-- The nanosecond of an empty queue moves the clock, the mint time and DRAM cells alone (log entry 4). -/
theorem tick_frame (s : State) : (tick s).pending = s.pending ∧ (tick s).board = s.board ∧ (tick s).clock = s.clock + 1 := by
  simp only [tick]
  split
  · exact ⟨rfl, rfl, rfl⟩
  · exact ⟨rfl, rfl, rfl⟩

theorem boardOk_of_board {s t : State} (h : t.board = s.board) : boardOk t = boardOk s := by simp only [boardOk, h]

/-- Settles O2: the front command keeps the queue's rest, the board and the clock, and an empty queue lets a nanosecond pass. -/
theorem stepTakesOneCommand : Obligations.StepTakesOneCommand := by
  unfold Obligations.StepTakesOneCommand
  intro s t hst
  cases hq : s.pending with
  | nil =>
    rw [step, hq] at hst
    cases hst
    obtain ⟨hp, hb, hc⟩ := tick_frame s
    exact ⟨by rw [hp, hq]; rfl, hb, fun h => (boardOk_of_board hb).trans h, hc⟩
  | cons c rest =>
    rw [step, hq] at hst
    obtain ⟨hp, hb, hc, -⟩ := exec_kept c (s.setPending rest) t hst
    exact ⟨hp, hb, fun h => (boardOk_of_board hb).trans h, hc⟩

end Sys2Proof.Machine
end

section
/-! Misaligned and latching accesses (R25, R242, R433), 64-bit writes of pairs (R30), and the timebase writes (R219, R220). -/

namespace Sys2Proof.Machine

open Sys2Proof

/-- R25: the misaligned access is recorded, and a read of it answered with all ones. -/
theorem accessError_spec (a : BarAccess) (s : State) :
    Pends 8 4 0x04 (accessError a s) ∧
    Noted (if a.dir == .read then readAnswer a (allOnes a) (rbit s 0x40 3) else rbit s 0x40 3) (accessError a s) := by
  have hp := raise_pends_low 8 4 0x04 (det3 a.off (accDomain a)) (rbit s 0x40 3) (by decide) (by decide) (by decide)
  have hn := raise_noted 8 4 0x04 (det3 a.off (accDomain a)) (rbit s 0x40 3)
  simp only [accessError]
  split
  · exact ⟨hp.of_regs rfl, (hn.modIsl _).send _⟩
  · exact ⟨hp, hn⟩

theorem accAligned_word {a : BarAccess} (hs : a.size = 4) (ho : a.off % 4 = 0) : accAligned a = true := by
  simp [accAligned, hs, ho]

/-- R242, R433, R439: the latching low words stand at multiples of 8, outside the apertures. -/
theorem latches_iff (a : BarAccess) :
    latches a = true ↔ if a.bar2 then 0x1000 ≤ a.off % 0x10000 ∧ a.off % 0x10000 < 0x2000 ∧ a.off % 8 = 0
      else a.off = 0x60008 ∨ (0x54000 ≤ a.off ∧ a.off < 0x56000 ∧ a.off % 8 = 0) := by
  simp only [latches]
  split <;> simp [and_assoc]

/-- The high word of a latching low word latches nothing itself. -/
theorem latches_highWord {a : BarAccess} (hl : latches a = true) : latches { a with off := a.off + 4 } = false := by
  rw [latches_iff] at hl
  rw [Bool.eq_false_iff, Ne, latches_iff]
  split at hl
  · simp only [*, if_true]; omega
  · simp only [*]; simp only [Bool.false_eq_true, if_false]; omega

theorem apertureOf_highWord {a : BarAccess} (hl : latches a = true) : apertureOf { a with off := a.off + 4 } = none := by
  rw [latches_iff] at hl
  split at hl
  · simp [apertureOf, *]
  · exact apertureOf_none _ (by simp only; omega)

theorem latchKey_highWord (a : BarAccess) : latchKey { a with off := a.off + 4 } = latchKey a + 4 := by
  simp only [latchKey]; omega

/-- A 32-bit read of a latching low word. -/
theorem readLand_latching {a : BarAccess} (hs : a.size = 4) (hl : latches a = true) (s : State) :
    readLand a s = readAnswer a ((wordView s a a.off).setWidth 64) (s.modIsl fun i =>
      { i with latchLo := tput none i.latchLo (latchKey a + 4) (some (wordView s a (a.off + 4))) }) := by
  simp [readLand, hs, hl]

/-- A 32-bit read of a word whose value is latched answers that value and empties the latch. -/
theorem readLand_latched {a : BarAccess} (hs : a.size = 4) (hl : latches a = false) {v : BitVec 32} {s : State}
    (hv : tget none s.isl.latchLo (latchKey a) = some v) :
    readLand a s = readAnswer a (v.setWidth 64) (s.modIsl fun i => { i with latchLo := tput none i.latchLo (latchKey a) none }) := by
  simp [readLand, hs, hl, hv]

/-- Settles O5: the low word's read fills the latch at the high word's key, and the high word's read takes it from there. -/
theorem misalignedAndLatchingAccesses : Obligations.MisalignedAndLatchingAccesses := by
  unfold Obligations.MisalignedAndLatchingAccesses
  constructor
  · intro a s ha
    refine ⟨accessError a s, ?_, accessError_spec a s⟩
    show Host.Outcome.next (accessOp a s) = _
    rw [accessOp, ha]; rfl
  · intro a s hs hr ho hp hl hf
    refine ⟨readLand a s, congrArg Host.Outcome.next (accessOp_read a s (accAligned_word hs ho) hr hp hf), readLand_latching hs hl s, ?_⟩
    intro u hu hfu
    have hv : tget none u.isl.latchLo (latchKey { a with off := a.off + 4 }) = some (wordView s a (a.off + 4)) := by
      rw [latchKey_highWord, hu, readLand_latching hs hl s]
      exact tget_tput_same none s.isl.latchLo (latchKey a + 4) (some (wordView s a (a.off + 4)))
    have hal : accAligned { a with off := a.off + 4 } = true := accAligned_word hs (by simp only; omega)
    refine ⟨_, congrArg Host.Outcome.next (accessOp_read _ u hal hr (apertureOf_highWord hl) hfu), ?_⟩
    rw [readLand_latched (a := { a with off := a.off + 4 }) hs (latches_highWord hl) hv, latchKey_highWord]
    exact ⟨rfl, rfl, tget_tput_same none u.isl.latchLo (latchKey a + 4) none⟩

/-- R25: a 64-bit write outside the apertures that its domain takes writes its low word, then its high word. -/
theorem accessOp_write8 (h : Head) (off : Nat) (lo hi : BitVec 32) (s : State) (hm : off % 8 = 0)
    (ho : off < 0x120000 ∨ 0x125000 ≤ off) (hf : domFree s (domainOf off) = true) :
    accessOp { head := h, bar2 := false, off := off, size := 8, dir := .write, value := hi ++ lo } s =
      bar0Write h (off + 4) hi (bar0Write h off lo s) := by
  have ha : accAligned { head := h, bar2 := false, off := off, size := 8, dir := .write, value := hi ++ lo } = true := by
    simp [accAligned, hm]
  have hl : (hi ++ lo).extractLsb' 0 32 = lo := by
    rw [BitVec.extractLsb'_append_eq_of_add_le (by decide), BitVec.extractLsb'_eq_self]
  have hh : (hi ++ lo).extractLsb' 32 32 = hi := by
    rw [BitVec.extractLsb'_append_eq_of_le (by decide), BitVec.extractLsb'_eq_self]
  rw [accessOp, ha, apertureOf_none _ ho]
  show writeTo _ (domainOf off) none s = _
  rw [writeTo, if_pos hf]
  simp [writeLand, accWords, forEach, hl, hh]

/-- Settles O8: the access's low word is written first, and the second field is checked with it. -/
theorem wideWriteOfPairIsOneCheck : Obligations.WideWriteOfPairIsOneCheck := by
  unfold Obligations.WideWriteOfPairIsOneCheck
  intro h lo hi s hf
  constructor
  · refine ⟨_, congrArg Host.Outcome.next (accessOp_write8 h 0x60010 lo hi s (by decide) (by decide) hf), ?_⟩
    exact congrArg Host.Outcome.next (accessOp_wr0 h 0x60014 hi _ (by decide) (by decide) hf)
  · exact ⟨_, congrArg Host.Outcome.next (accessOp_write8 h 0x60020 lo hi s (by decide) (by decide) hf), rfl⟩

/-- A refused set or SOURCE write (R219, R220). -/
theorem setRefused_spec (s : State) : Pends 7 0 0x03 (setRefused s) ∧ Noted (rbit s 0x60000 8) (setRefused s) :=
  ⟨raise_pends_low _ _ _ _ _ (by decide) (by decide) (by decide), raise_noted _ _ _ _ _⟩

theorem setRefused_tbs (s : State) : (setRefused s).tbs = s.tbs := raise_tbs _ _ _ _ _

/-- R222: PTM_LOCKED is clear, and a lock that was held raises PTM_UNLOCK. -/
theorem ptmUnlock_spec (s : State) :
    (s.tbs.locked = true → Pends 7 0 0x05 (ptmUnlock s)) ∧
    Noted (s.modTbs fun x => { x with locked := false, lockRun := 0 }) (ptmUnlock s) := by
  simp only [ptmUnlock]
  split
  · exact ⟨fun _ => raise_pends_low _ _ _ _ _ (by decide) (by decide) (by decide), raise_noted _ _ _ _ _⟩
  · next hl => exact ⟨fun h => absurd h hl, Noted.refl _⟩

theorem ptmUnlock_locked (s : State) : (ptmUnlock s).tbs.locked = false := by
  rw [(ptmUnlock_spec s).2.tbs]; rfl

/-- SOURCE_HOST (R219). -/
theorem sourceHostOp_spec (s : State) :
    (s.tbs.locked = true → Pends 7 0 0x05 (sourceHostOp s)) ∧
    Noted (s.modTbs fun x => { x with source := 0, slew := 0, slewing := false, resync := false, dialogueOpen := false,
                                      pendSet := none, locked := false, lockRun := 0 }) (sourceHostOp s) := by
  obtain ⟨hp, hn⟩ := ptmUnlock_spec s
  exact ⟨fun h => (hp h).of_regs rfl, hn.modTbs _⟩

/-- SOURCE_PTM (R219). -/
theorem sourcePtmOp_spec (s : State) :
    if s.tbs.ptmCfg.getLsbD 16 && !twoHeads s then
      Pends 7 0 0x03 (sourcePtmOp s) ∧ Noted (rbit s 0x60000 8) (sourcePtmOp s)
    else (sourcePtmOp s).tbs.source = 1 ∧ (sourcePtmOp s).tbs.resync = true ∧ (sourcePtmOp s).tbs.pendSet = none ∧
      ((sourcePtmOp s).modTbs fun _ => s.tbs) = s := by
  simp only [sourcePtmOp]
  split
  · exact setRefused_spec s
  · exact ⟨rfl, rfl, rfl, rfl⟩

/-- SOURCE_PAIR_LINK (R219, R406). -/
theorem sourcePairOp_spec (s : State) :
    if pairMode s then (sourcePairOp s).tbs.source = 2 ∧ (sourcePairOp s).tbs.resync = true ∧ (sourcePairOp s).tbs.locked = false ∧
      Noted s ((sourcePairOp s).modTbs fun _ => s.tbs)
    else Pends 7 0 0x03 (sourcePairOp s) ∧ Noted (rbit s 0x60000 8) (sourcePairOp s) := by
  simp only [sourcePairOp]
  cases pairMode s with
  | true => exact ⟨rfl, rfl, ptmUnlock_locked s, (ptmUnlock_spec s).2.modTbs fun _ => s.tbs⟩
  | false => exact setRefused_spec s

/-- TBS_PTM_CFG_WRITE (R219): the bits outside PORT are written, and PORT unless it is refused. -/
theorem ptmCfgOp_spec (v : BitVec 32) (s : State) :
    if v.getLsbD 16 && s.tbs.source == 1 && !twoHeads s then
      Pends 7 0 0x03 (ptmCfgOp v s) ∧
        Noted (rbit (s.modTbs fun x => { x with ptmCfg := (v &&& 0xFFFF) ||| (x.ptmCfg &&& 0x10000) }) 0x60000 8) (ptmCfgOp v s)
    else ptmCfgOp v s = s.modTbs fun x => { x with ptmCfg := v &&& 0x1FFFF } := by
  simp only [ptmCfgOp]
  split
  · exact setRefused_spec _
  · rw [← BitVec.and_or_distrib_left]; rfl

/-- TBS_SET_HI (R220): refused, or a pending set for the next boundary. -/
theorem tbsSetHiOp_spec (v : BitVec 32) (s : State) :
    (tbsSetHiOp v s).tbs.setHi = v ∧
    if s.tbs.source = 0 ∧ s.tbs.setLoHeld.toNat % 1024 = 0 then
      tbsSetHiOp v s = s.modTbs fun x =>
        { x with setHi := v, setLoForce := x.setLoHeld, pendSet := some (nextBoundary s, v ++ x.setLoHeld) }
    else Pends 7 0 0x03 (tbsSetHiOp v s) ∧ (tbsSetHiOp v s).tbs.pendSet = s.tbs.pendSet ∧ (tbsSetHiOp v s).tbs.source = s.tbs.source ∧
      (s.tbs.setLoHeld.toNat % 1024 ≠ 0 → (tbsSetHiOp v s).tbs.setLoHeld = s.tbs.setLoForce) ∧
      Noted (rbit s 0x60000 8) ((tbsSetHiOp v s).modTbs fun _ => s.tbs) := by
  by_cases hlo : s.tbs.setLoHeld.toNat % 1024 = 0
  · by_cases hsrc : s.tbs.source = 0
    · rw [if_pos ⟨hsrc, hlo⟩]
      have heq : tbsSetHiOp v s = s.modTbs fun x =>
          { x with setHi := v, setLoForce := x.setLoHeld, pendSet := some (nextBoundary s, v ++ x.setLoHeld) } := by
        simp [tbsSetHiOp, hlo, hsrc]; rfl
      exact ⟨by rw [heq]; rfl, heq⟩
    · rw [if_neg fun h => hsrc h.1]
      have heq : tbsSetHiOp v s = setRefused (s.modTbs fun x => { x with setHi := v }) := by
        simp only [tbsSetHiOp]
        exact (if_neg (by simpa using hlo)).trans (if_pos (bne_iff_ne.mpr hsrc))
      obtain ⟨hp, hn⟩ := setRefused_spec (s.modTbs fun x => { x with setHi := v })
      have ht := setRefused_tbs (s.modTbs fun x => { x with setHi := v })
      rw [heq, ht]
      exact ⟨rfl, hp, rfl, rfl, fun h => absurd hlo h, hn.modTbs fun _ => s.tbs⟩
  · rw [if_neg fun h => hlo h.2]
    have heq : tbsSetHiOp v s = setRefused (s.modTbs fun x => { x with setHi := v, setLoHeld := x.setLoForce }) := by
      simp [tbsSetHiOp, hlo]; rfl
    obtain ⟨hp, hn⟩ := setRefused_spec (s.modTbs fun x => { x with setHi := v, setLoHeld := x.setLoForce })
    have ht := setRefused_tbs (s.modTbs fun x => { x with setHi := v, setLoHeld := x.setLoForce })
    rw [heq, ht]
    exact ⟨rfl, hp, rfl, rfl, fun _ => rfl, hn.modTbs fun _ => s.tbs⟩

/-- Settles O10: each write reaches its operation of the timebase. -/
theorem timebaseWrites : Obligations.TimebaseWrites := by
  unfold Obligations.TimebaseWrites
  refine ⟨fun h s hf => ?_, fun h s hf => ?_, fun h s hf => ?_, fun h v s hf => ?_, fun h v s hf => ?_⟩
  · exact ⟨_, congrArg Host.Outcome.next (accessOp_wr0 h 0x60004 0 s (by decide) (by decide) hf), sourceHostOp_spec s⟩
  · exact ⟨_, congrArg Host.Outcome.next (accessOp_wr0 h 0x60004 1 s (by decide) (by decide) hf), sourcePtmOp_spec s⟩
  · exact ⟨_, congrArg Host.Outcome.next (accessOp_wr0 h 0x60004 2 s (by decide) (by decide) hf), sourcePairOp_spec s⟩
  · exact ⟨_, congrArg Host.Outcome.next (accessOp_wr0 h 0x60018 v s (by decide) (by decide) hf), ptmCfgOp_spec v s⟩
  · refine ⟨_, congrArg Host.Outcome.next (accessOp_wr0 h 0x60014 v s (by decide) (by decide) hf), (tbsSetHiOp_spec v s).1, ?_⟩
    have hspec := (tbsSetHiOp_spec v s).2
    obtain ⟨hmod, hlow, hhigh⟩ := boundaryAfter_spec s 32
    split at hspec
    · next hc => exact (if_pos hc).mpr ⟨nextBoundary s, hmod, hlow, hhigh, hspec⟩
    · next hc => exact (if_neg hc).mpr hspec

end Sys2Proof.Machine
end

section
/-! COMMIT through a channel's register and through an aperture, and its boundary (R28, R91, R110, R111). -/

namespace Sys2Proof.Machine

open Sys2Proof

/-- R10: a board has 4 to 32 channels. -/
theorem boardOk_channels {s : State} (h : boardOk s = true) : 0 < s.board.channels ∧ s.board.channels ≤ 32 := by
  simp only [boardOk, Bool.and_eq_true, List.contains_iff_mem, List.mem_cons, List.not_mem_nil, or_false] at h
  omega

theorem popChans_nodup {s : State} (h : boardOk s = true) : (popChans s).Nodup := by
  obtain ⟨hpos, hle⟩ := boardOk_channels h
  have hstride : 0 < 32 / s.board.channels := Nat.div_pos hle hpos
  exact List.nodup_range.map fun a b hab => Nat.eq_of_mul_eq_mul_right hstride hab

theorem popChans_lt {s : State} (h : boardOk s = true) : ∀ c ∈ popChans s, c < 32 := by
  obtain ⟨hpos, hle⟩ := boardOk_channels h
  intro c hc
  obtain ⟨k, hk, rfl⟩ := List.mem_map.mp hc
  calc k * (32 / s.board.channels) < s.board.channels * (32 / s.board.channels) :=
        Nat.mul_lt_mul_of_pos_right (List.mem_range.mp hk) (Nat.div_pos hle hpos)
    _ ≤ 32 := Nat.mul_div_le 32 _

theorem commitMembers_nodup {s : State} (h : boardOk s = true) : ∀ g, (commitMembers s g).Nodup
  | .channel _ => List.nodup_singleton _
  | .broadcast => popChans_nodup h
  | .group _ => (popChans_nodup h).filter _

theorem commitMembers_lt {s : State} (h : boardOk s = true) : ∀ g, Machine.targetOk g = true → ∀ c ∈ commitMembers s g, c < 32
  | .channel _, hg, _, hc => by rw [List.mem_singleton.mp hc]; exact of_decide_eq_true hg
  | .broadcast, _, c, hc => popChans_lt h c hc
  | .group _, _, c, hc => popChans_lt h c (List.mem_of_mem_filter hc)

/-- Two folds agree whose steps agree wherever an invariant holds that the steps keep. -/
theorem forEach_congr_of_inv {α : Type} (P : State → Prop) (xs : List α) (f g : α → State → State) (s : State) (hs : P s)
    (hfg : ∀ c ∈ xs, ∀ u, P u → f c u = g c u ∧ P (g c u)) : forEach xs f s = forEach xs g s := by
  induction xs generalizing s with
  | nil => rfl
  | cons x r ih =>
    obtain ⟨heq, hP⟩ := hfg x (by simp) s hs
    show forEach r f (f x s) = forEach r g (g x s)
    rw [heq]
    exact ih (g x s) hP fun c hc => hfg c (List.mem_cons_of_mem _ hc)

/-- An update that keeps a channel's state keeps what a domain takes. -/
theorem domFree_modChan (c d : Nat) (f : Chan → Chan) (s : State) (hf : ∀ x, (f x).state = x.state) :
    domFree (modChan c f s) d = domFree s d := by
  have hr : ∀ k, clusterReinit (modChan c f s) k = clusterReinit s k := fun k => by
    simp only [clusterReinit]
    congr 1; funext i
    rw [chan_modChan]
    split
    · rw [hf]
    · rfl
  show (domRuns (modChan c f s) d && _ && _) = (domRuns s d && _ && _)
  have : domRuns (modChan c f s) d = domRuns s d := by
    simp only [domRuns, hr]; rfl
  rw [this]; rfl

/-- R28: a channel's staged values go to its commit buffer, for a boundary. -/
def stage (c at_ : Nat) (s : State) : State :=
  modChan c (fun x => { x with commitBuf := some (stagedMap s c, (rget s (mch c 0x20)).setWidth 3), commitAt := at_ }) s

/-- COMMIT of one channel (R28). -/
theorem writeMch_commit (h : Head) (c : Nat) (s : State) : writeMch h c 0x24 1 s = stage c (commitBoundary s [c]) s := rfl

theorem domFree_stage (c at_ d : Nat) (s : State) : domFree (stage c at_ s) d = domFree s d :=
  domFree_modChan _ _ _ _ fun _ => rfl

/-- COMMIT through a channel's register (R28). -/
theorem accessOp_commitChannel (c : Nat) (s : State) (hc : c < 32) (hf : domFree s (chDomain c) = true) :
    accessOp (wr0 .a (mch c 0x24) 1) s = stage c (commitBoundary s [c]) s := by
  have hlo : 0x100000 ≤ mch c 0x24 := by simp only [mch]; omega
  have hhi : mch c 0x24 < 0x120000 := by simp only [mch]; omega
  have hd : domainOf (mch c 0x24) = chDomain c := by
    have : (mch c 0x24 - 0x100000) / 0x1000 / 4 = c / 4 := by simp only [mch]; omega
    simp [domainOf, chDomain, this, hlo, hhi, show ¬ mch c 0x24 < 0x90000 by omega, show ¬ mch c 0x24 < 0x80000 by omega,
      show ¬ mch c 0x24 < 0x70000 by omega, show ¬ mch c 0x24 < 0x60000 by omega, show ¬ mch c 0x24 < 0x50000 by omega,
      show ¬ mch c 0x24 < 0x40000 by omega]
  have hch : (mch c 0x24 - 0x100000) / 0x1000 = c := by simp only [mch]; omega
  have hoff : mch c 0x24 % 0x1000 = 0x24 := by simp only [mch]; omega
  rw [accessOp_wr0 .a _ 1 s (by simp only [mch]; omega) (.inl hhi) (hd ▸ hf)]
  rw [bar0Write, if_neg (by omega), if_neg (by omega), if_neg (by omega), if_neg (by omega), if_neg (by omega), if_neg (by omega),
    if_neg (by omega), if_neg (by omega), if_neg (by omega), if_pos (by simp [hlo, hhi]), hch, hoff, writeMch_commit]

/-- A COMMIT through an aperture as it reaches member c. -/
theorem writeMember_commit (off c : Nat) (hoff : off % 0x1000 = 0x24) (s : State) :
    writeMember (wr0 .a off 1) c s = stage c (commitBoundary s [c]) s := by
  rw [writeMember, accWords_wr0]
  show writeMch .a c (off % 0x1000) 1 s = _
  rw [hoff, writeMch_commit]

/-- R111: the two passes of an aperture's COMMIT, with every member's domain taking accesses. -/
theorem apertureAccess_commit (off : Nat) (hoff : off % 0x1000 = 0x24) (g : ChTarget) (s : State)
    (hlt : ∀ c ∈ members s g, c < 32) (hf : ∀ c, c < 32 → domFree s (chDomain c) = true) :
    apertureAccess (wr0 .a off 1) g s =
      forEach (members s g) (fun c u => modChan c (fun x => { x with commitAt := commitBoundary s (members s g) }) u)
        (forEach (members s g) (fun c u => stage c (commitBoundary u [c]) u) s) := by
  have hwrites : forEach (members s g) (fun c u => writeTo (wr0 .a off 1) (chDomain c) (some c) u) s =
      forEach (members s g) (fun c u => stage c (commitBoundary u [c]) u) s := by
    refine forEach_congr_of_inv (fun u => ∀ c, c < 32 → domFree u (chDomain c) = true) _ _ _ s hf fun c hc u hu => ⟨?_, fun d hd => ?_⟩
    · rw [writeTo, if_pos (hu c (hlt c hc)), writeLand, writeMember_commit off c hoff]
    · rw [domFree_stage]; exact hu d hd
  have hall : (members s g).filter (fun c => domFree s (chDomain c)) = members s g :=
    List.filter_eq_self.mpr fun c hc => hf c (hlt c hc)
  have hbit : ((accWords (wr0 .a off 1)).any fun w => w.1 % 0x1000 == 0x24 && w.2.getLsbD 0) = true := by
    rw [accWords_wr0]; simp [hoff]
  show commitTogether (wr0 .a off 1) (members s g) s _ = _
  rw [commitTogether, if_pos hbit, hall, hwrites]

/-- The two passes leave each member's staged values in its buffer for the one boundary. -/
theorem commitPasses_spec (cs : List Nat) (at_ : Nat) (s : State) (nd : cs.Nodup) :
    let t := forEach cs (fun c u => modChan c (fun x => { x with commitAt := at_ }) u)
      (forEach cs (fun c u => stage c (commitBoundary u [c]) u) s)
    unchan s.med.chans t = s ∧ ∀ c, chan t c = if c ∈ cs then
      { chan s c with commitBuf := some (stagedMap s c, (rget s (mch c 0x20)).setWidth 3), commitAt := at_ } else chan s c := by
  obtain ⟨hs1, hc1⟩ := chan_forEach cs (fun c u => stage c (commitBoundary u [c]) u)
    (fun c s x => { x with commitBuf := some (stagedMap s c, (rget s (mch c 0x20)).setWidth 3), commitAt := commitBoundary s [c] }) s nd
    (fun c hc u hcu hu => by
      have hb : commitBoundary u [c] = commitBoundary s [c] := by
        have hm : nextBoundary u = nextBoundary s := by rw [← hu]; rfl
        simp [commitBoundary, hcu c hc rfl, hm]
      have hst : stagedMap u c = stagedMap s c := by rw [← hu]; rfl
      have hrg : rget u (mch c 0x20) = rget s (mch c 0x20) := by rw [← hu]; rfl
      refine ⟨hu, fun d => ?_⟩
      rw [stage, chan_modChan, hb, hst, hrg])
  generalize forEach cs (fun c u => stage c (commitBoundary u [c]) u) s = v at *
  obtain ⟨hs2, hc2⟩ := chan_forEach cs (fun c u => modChan c (fun x => { x with commitAt := at_ }) u)
    (fun _ _ x => { x with commitAt := at_ }) v nd (fun c _ u _ hu => ⟨hu, fun d => chan_modChan _ _ _ _⟩)
  refine ⟨?_, fun c => ?_⟩
  · calc unchan s.med.chans _ = unchan s.med.chans (unchan v.med.chans _) := rfl
      _ = unchan s.med.chans v := by rw [hs2]
      _ = s := hs1
  · rw [hc2, hc1]
    split <;> rfl

/-- R110: the group apertures. -/
theorem apertureOf_group (a : BarAccess) (g : Nat) (hb : a.bar2 = false) (hg : g < 4) (hlo : 0x121000 + 0x1000 * g ≤ a.off)
    (hhi : a.off < 0x122000 + 0x1000 * g) : apertureOf a = some (.group g) := by
  have hidx : (a.off - 0x121000) / 0x1000 = g := by omega
  simp [apertureOf, hb, hidx, show 0x121000 ≤ a.off by omega, show a.off < 0x125000 by omega, show ¬ a.off < 0x121000 by omega]

/-- COMMIT through any target (R28, R111): the members' staged values, for the one boundary. -/
theorem commitStaged_spec (g : ChTarget) (s : State) (hb : boardOk s = true) (hg : Machine.targetOk g = true)
    (hf : ∀ c, c < 32 → domFree s (chDomain c) = true) :
    ∃ t, exec (.commitStaged g) s = .next t ∧ unchan s.med.chans t = s ∧ ∀ c, chan t c = if c ∈ commitMembers s g then
      { chan s c with commitBuf := some (stagedMap s c, (rget s (mch c 0x20)).setWidth 3),
                      commitAt := commitBoundary s (commitMembers s g) } else chan s c := by
  have hlt := commitMembers_lt hb g hg
  have hexec : exec (.commitStaged g) s = .next (accessOp (wr0 .a (targetOff g 0x24) 1) s) :=
    congrArg Host.Outcome.next (if_pos hg)
  refine ⟨_, hexec, ?_⟩
  cases g with
  | channel c =>
    have hc : c < 32 := of_decide_eq_true hg
    rw [show targetOff (.channel c) 0x24 = mch c 0x24 from rfl, accessOp_commitChannel c s hc (hf c hc)]
    refine ⟨rfl, fun d => ?_⟩
    rw [stage, chan_modChan]
    by_cases hd : d = c
    · subst hd; simp [commitMembers]
    · simp [commitMembers, hd]
  | broadcast =>
    have happ : accessOp (wr0 .a 0x120024 1) s = apertureAccess (wr0 .a 0x120024 1) .broadcast s := rfl
    rw [show targetOff .broadcast 0x24 = 0x120024 from rfl, happ, apertureAccess_commit 0x120024 (by decide) .broadcast s hlt hf]
    exact commitPasses_spec _ _ s (commitMembers_nodup hb .broadcast)
  | group g =>
    have hg4 : g < 4 := of_decide_eq_true hg
    have hap : apertureOf (wr0 .a (targetOff (.group g) 0x24) 1) = some (.group g) :=
      apertureOf_group _ g rfl hg4 (by simp only [wr0, targetOff]; omega) (by simp only [wr0, targetOff]; omega)
    have hal : accAligned (wr0 .a (targetOff (.group g) 0x24) 1) = true := by
      simp only [accAligned, wr0, targetOff]; simp; omega
    have happ : accessOp (wr0 .a (targetOff (.group g) 0x24) 1) s = apertureAccess (wr0 .a (targetOff (.group g) 0x24) 1) (.group g) s := by
      rw [accessOp, hal, hap]; rfl
    rw [happ, apertureAccess_commit _ (by simp only [targetOff]; omega) (.group g) s hlt hf]
    exact commitPasses_spec _ _ s (commitMembers_nodup hb (.group g))

/-- R28: the one boundary of a COMMIT is the pending one of every member, or the first at least 32 ns away. -/
theorem commitBoundary_spec (s : State) (cs : List Nat) :
    (∀ c, c ∈ cs → (chan s c).commitBuf.isSome = true ∧ (chan s c).commitAt = commitBoundary s cs) ∨
    (commitBoundary s cs % 1024 = 0 ∧ s.tbs.mint.toNat + 32 ≤ commitBoundary s cs ∧ commitBoundary s cs < s.tbs.mint.toNat + 32 + 1024) := by
  simp only [commitBoundary]
  split
  · next hall =>
    left
    intro c hc
    simpa using List.all_eq_true.mp hall c hc
  · exact .inr (boundaryAfter_spec s 32)

/-- COMMIT_APPLY with no commit, or before its boundary (R28). -/
theorem commitApply_waits (c : Nat) (s : State) (h : (chan s c).commitBuf = none ∨ s.tbs.mint.toNat < (chan s c).commitAt) :
    exec (.commitApply c) s = .next s := by
  show execCommitApply c s = _
  rw [execCommitApply]
  cases hb : (chan s c).commitBuf with
  | none => rfl
  | some buf =>
    rw [hb] at h
    exact if_pos (h.resolve_left nofun)

/-- R28, R91: what a commit's boundary leaves in the channel. -/
def applied (s : State) (c : Nat) (map : BitVec 64) (sched : BitVec 3) : State :=
  modChan c (fun x => { x with commitBuf := none, sched := sched, map := if mapValid (s.board.m2.getLsbD c) map then map else x.map }) s

/-- COMMIT_APPLY at its boundary (R28, R91). -/
theorem commitApply_at (c : Nat) (map : BitVec 64) (sched : BitVec 3) (s : State) (hb : (chan s c).commitBuf = some (map, sched))
    (hat : (chan s c).commitAt ≤ s.tbs.mint.toNat) :
    exec (.commitApply c) s = .next (if mapValid (s.board.m2.getLsbD c) map then applied s c map sched
      else raise 2 c 0x01 (det2 c 0 0 0 0) (rbit (applied s c map sched) (0x100004 + 0x1000 * c) 8)) := by
  show execCommitApply c s = _
  rw [execCommitApply, hb]
  have hoff : mch c 0x4 = 0x100004 + 0x1000 * c := by simp only [mch]; omega
  simp only [hoff]
  exact if_neg (Nat.not_lt.mpr hat)

/-- Settles O20: COMMIT reaches each member once, and its boundary is the one that all of them wait for. -/
theorem channelCommits : Obligations.ChannelCommits := by
  unfold Obligations.ChannelCommits
  refine ⟨fun g s hb hg hf => ?_, commitApply_waits, fun c map sched s hc hbuf hat => ?_⟩
  · obtain ⟨t, he, hs, hch⟩ := commitStaged_spec g s hb hg hf
    refine ⟨t, _, he, commitBoundary_spec s (commitMembers s g), hs, fun c => ?_⟩
    rw [hch, show mch c 0x20 = 0x100020 + 0x1000 * c by simp only [mch]; omega]
  · refine ⟨_, commitApply_at c map sched s hbuf hat, ?_⟩
    by_cases hv : mapValid (s.board.m2.getLsbD c) map = true
    · rw [if_pos hv, if_pos hv, if_pos hv]
      refine ⟨?_, fun d hd => chan_modChan_ne _ _ _ _ hd, rfl⟩
      rw [applied, chan_modChan_same, if_pos hv]
    · rw [if_neg hv, if_neg hv, if_neg hv]
      have hn := raise_noted 2 c 0x01 (det2 c 0 0 0 0) (rbit (applied s c map sched) (0x100004 + 0x1000 * c) 8)
      refine ⟨?_, fun d hd => ?_, raise_pends_low _ _ _ _ _ (by decide) hc (by decide), hn.modMed _⟩
      · rw [hn.chan, chan_of_med (t := rbit _ _ _) (s := applied s c map sched) rfl, applied, chan_modChan_same, if_neg hv]
      · rw [hn.chan, chan_of_med (t := rbit _ _ _) (s := applied s c map sched) rfl, applied, chan_modChan_ne _ _ _ _ hd]

end Sys2Proof.Machine
end

section
/-! A held access that is a read (R19, R20): the model answers it when the clock returns, the statement would write it. -/

namespace Sys2Proof.Machine

open Sys2Proof

/-- A 32-bit read that stands among the held writes of the always-on domain. -/
def heldRead : HeldWrite := { dom := domAON, acc := rd0 .a 0x10000, member := none }

/-- The reset state with the always-on domain's clock on, and that read held for it. -/
def heldReadState : State := State.reset.modIsl fun i => { i with on := BitVec.allOnes _, held := [heldRead] }

/-- The hypotheses of the statement's fourth clause hold of it. -/
theorem heldReadState_returns :
    domRuns heldReadState domAON = true ∧ (heldReadState.isl.waiting.any fun w => w.dom == domAON) = false ∧
    (heldFor heldReadState domAON).Pairwise (fun a b => a.seq ≤ b.seq) := by
  refine ⟨?_, ?_, ?_⟩ <;> decide +kernel

/-- ISLAND_CLOCK_RETURN answers the held read. -/
theorem heldReadState_answered :
    (stOf (exec (.islandClockReturn domAON) heldReadState) heldReadState).outbox.length = 1 := by decide +kernel

/-- Written instead, it would answer nothing. -/
theorem heldReadState_written :
    ((heldFor heldReadState domAON).foldl (fun x w => writeLand w.acc w.member x)
      (heldReadState.modIsl fun i => { i with held := i.held.filter fun w => w.dom != domAON,
                                              waiting := heldReadState.isl.waiting })).outbox.length = 0 := by decide +kernel

/-- Refutes O7: its fourth clause lets any access stand among the held writes, and a held read is answered, not written.
It fails for want of the hypothesis that the domain's held accesses are writes. -/
theorem not_stoppedIslandHoldsAccesses : ¬ Obligations.StoppedIslandHoldsAccesses := by
  unfold Obligations.StoppedIslandHoldsAccesses
  rintro ⟨-, -, -, hreturn⟩
  obtain ⟨hruns, hwait, hsorted⟩ := heldReadState_returns
  obtain ⟨t, hexec, hfold⟩ := hreturn domAON heldReadState hruns hwait hsorted
  have hone : t.outbox.length = 1 := by
    have h := heldReadState_answered
    rwa [hexec] at h
  have hzero : t.outbox.length = 0 := by
    rw [hfold]; exact heldReadState_written
  omega

end Sys2Proof.Machine
end

section
/-! SLOT_START with no operation for its slot: a BLANK whose packet was dropped is sent again beside the slot (R79, R102). -/

namespace Sys2Proof.Machine

open Sys2Proof

/-- A BLANK of channel 0 whose packet a die has dropped: it was issued, and is not sent. -/
def droppedBlank : MOp := { (default : MOp) with id := 1, kind := .maint, purpose := .blank, ready := true, issued := true }

/-- The reset state with channel 0 active at slot 0 of its frame, and that BLANK its one operation. -/
def droppedBlankState : State :=
  modChan 0 (fun x => { x with state := .active }) (State.reset.modMed fun m => { m with ops := [droppedBlank] })

theorem droppedBlankState_ops : ∀ o ∈ droppedBlankState.med.ops, o.issued = true :=
  fun o ho => by rw [List.mem_singleton.mp (show o ∈ [droppedBlank] from ho)]; rfl

/-- Channel 0's slot is due and serves no operation. -/
theorem droppedBlankState_slot :
    (chan droppedBlankState 0).state = .active ∧ (chan droppedBlankState 0).slot < slotCount droppedBlankState 0 ∧
    (chan droppedBlankState 0).frame + (chan droppedBlankState 0).slot * slotLen droppedBlankState 0 ≤ droppedBlankState.tbs.mint.toNat ∧
    (slotServes droppedBlankState 0 (chan droppedBlankState 0).slot).bind (slotPick droppedBlankState 0) = none ∧
    slotSpare droppedBlankState 0 = none := by
  refine ⟨?_, ?_, ?_, ?_, ?_⟩ <;> decide +kernel

/-- Nothing else stands between the channel and its slot. -/
theorem droppedBlankState_quiet :
    droppedBlankState.pur.prefetchQ = [] ∧ (chan droppedBlankState 0).recon = none ∧ (chan droppedBlankState 0).reconQ = [] ∧
    droppedBlankState.pair.state ≠ .settling ∧ droppedBlankState.integ.rebuildCh = none ∧ droppedBlankState.pur.drain = .none ∧
    droppedBlankState.led.blanking = [] ∧ droppedBlankState.med.assays = [] := by
  refine ⟨?_, ?_, ?_, ?_, ?_, ?_, ?_, ?_⟩ <;> decide +kernel

/-- SLOT_START sends the BLANK's command again. -/
theorem droppedBlankState_sent :
    (stOf (exec (.slotStart 0) droppedBlankState) droppedBlankState).outbox.length = droppedBlankState.outbox.length + 1 := by
  decide +kernel

/-- Refutes O21: its last clause says that a slot which no operation takes sends nothing, and the model sends a BLANK
again whose packet was dropped (R102). It fails for want of the hypothesis that no such BLANK waits on the channel. -/
theorem not_framesAndSlots : ¬ Obligations.FramesAndSlots := by
  unfold Obligations.FramesAndSlots
  rintro ⟨-, -, -, -, -, -, hslot⟩
  obtain ⟨hact, hlt, hdue, hpick, hspare⟩ := droppedBlankState_slot
  obtain ⟨hpf, hrec, hrecQ, hpair, hreb, hdrain, hbl, has⟩ := droppedBlankState_quiet
  obtain ⟨t, hexec, -, -, hidle, -⟩ := hslot 0 droppedBlankState hact hlt hdue hpf hrec hrecQ hpair hreb hdrain hbl has
    fun o ho _ => .inl (droppedBlankState_ops o ho)
  have hsent := droppedBlankState_sent
  rw [hexec] at hsent
  have hkept : t.outbox = droppedBlankState.outbox := (hidle hpick hspare).1
  rw [show stOf (.next t) droppedBlankState = t from rfl, hkept] at hsent
  omega

end Sys2Proof.Machine
end

section
/-! Device memory addresses at and above 2^45, where the model serves the strongbox and not the till (R34, R213): a state in which
a device-memory decoder and a device-memory folio stand there. -/

namespace Sys2Proof.Machine

open Sys2Proof

/-- A decoder of Port A that is no strongbox decoder, over addresses from 2^45 up. -/
def highDecoder : Decoder :=
  { base := 0, size := 2 ^ 30, ways := 1, gran := 256, target := 0, kpos := 40, dpaBase := 2 ^ 45, dpaSize := 2 ^ 30, bi := false, sbox := false }

/-- A blank-mapped folio. -/
def blankMapped : LEntry := { entry0 with media := noFolio, state := .blankMapped, gen := 3, stamp := 1 }

/-- Memory active on a head at CXL 3.1 with that decoder, the firmware up, folio 2^24 blank-mapped on a board that has it, and line
2^37's counter block in the counter cache. -/
def highState : State :=
  let s := { State.reset with board := { State.reset.board with folios := 2 ^ 24 + 1 } }
  let s := s.modCtl fun c => { c with cpuUp := true }
  let s := s.modLed fun l => { l with recovered := true, memActive := true, entries := [(2 ^ 24, blankMapped)] }
  let s := s.modSup fun u => { u with state := .on, inReset := false }
  let s := s.modPur fun u => { u with ready := true, lossAccepted := true }
  let s := s.modFe fun f => { f with portA := { f.portA with level := .cxl31, rate := 6, width := 16, decoders := [(0, some highDecoder)] } }
  s.modCry fun c => { c with cache := [(blockOf (2 ^ 37) % max 1 (sc s),
    { block := blockOf (2 ^ 37), valid := true, dirty := false, sealed_ := false, ctr := ctr0 })] }

/-- Where host address 0 leads. -/
def highTarget : Target := { dpa := 2 ^ 45, key := 0, inside := true, sbox := false, bi := false }

/-- The statement's hypotheses hold of a write of host address 0. -/
theorem highState_takes :
    takesWrites highState .a = true ∧ decodeHpa highState .a 0 = some highTarget ∧ ideBlocks highState .a = false ∧
    idleFor highState .a 0 (2 ^ 37) = true := by
  refine ⟨?_, ?_, ?_, ?_⟩ <;> decide +kernel

/-- After the write, the till does not hold the line. -/
theorem highState_written :
    inTill (stOf (exec (.memWr .a 0 0 0 false) highState) highState) (2 ^ 37) = false := by decide +kernel

/-- Refutes O15: a decoder that is no strongbox decoder may lead to the strongbox's addresses, whose writes bypass the till.
It fails for want of the hypothesis that the line lies below them. -/
theorem not_hostReadsBackWhatItWrote : ¬ Obligations.HostReadsBackWhatItWrote := by
  unfold Obligations.HostReadsBackWhatItWrote
  intro hreads
  obtain ⟨htakes, hdecode, hide, hidle⟩ := highState_takes
  obtain ⟨t, hexec, -, htill, -⟩ := hreads .a 0 0 0 0 (BitVec.allOnes 64) false true false highTarget highState htakes hdecode rfl rfl hide
    hidle fun _ => rfl
  have hnot := highState_written
  rw [show exec (.memWr .a 0 0 0 false) highState = .next t from hexec] at hnot
  exact Bool.false_ne_true (hnot.symm.trans htill)

/-- INJECT_POISON's payload for the first line of folio 2^24. -/
def highPoison : List Byte := toLE 8 (2 ^ 45)

/-- The statement's hypotheses hold of that command. -/
theorem highState_takesPoison :
    cxlTaken false 8 false .a highPoison highState = true ∧ poisonTarget highState (le highPoison 0 8) = true ∧
    idleFor highState .a (ent highState (le highPoison 0 8 / 2 ^ 21)).key (le highPoison 0 8 / 256) = true := by
  refine ⟨?_, ?_, ?_⟩ <;> decide +kernel

/-- After INJECT_POISON, the purse does not hold the line. -/
theorem highState_poisoned :
    cachedLine (stOf (exec (.injectPoison .a highPoison) highState) highState) (le highPoison 0 8 / 256) = none := by decide +kernel

/-- Refutes O50: a device-memory folio of a board may stand at the strongbox's addresses, where INJECT_POISON leaves no line in
the purse. It fails for want of the hypothesis that the line lies below them. -/
theorem not_cxlActingCommands : ¬ Obligations.CxlActingCommands := by
  unfold Obligations.CxlActingCommands
  rintro ⟨-, -, -, -, -, hpoison, -⟩
  obtain ⟨htaken, htarget, hidle⟩ := highState_takesPoison
  obtain ⟨-, -, hidleLine⟩ := (hpoison .a highPoison .a highState).1 htaken
  obtain ⟨t, hexec, -, x, hline, -⟩ := hidleLine htarget hidle
  have hnone := highState_poisoned
  rw [hexec] at hnone
  exact Option.some_ne_none x (hline.symm.trans hnone)

end Sys2Proof.Machine
end

section
/-! The Yargen mailboxes: what an answer, a background command's end and an update of one leave alone (R365-R374). -/

namespace Sys2Proof.Machine

open Sys2Proof

/-- The control block without the board mailbox. -/
def Control.sansBoard (c : Control) : Control := { c with board := default }

/-- t differs from s in mailboxes, ports, registers, the passbook, events and messages at most. -/
def MbxOnly (s t : State) : Prop :=
  t.ctl.sansBoard = s.ctl.sansBoard ∧ t.med = s.med ∧ t.led = s.led ∧ t.pur = s.pur ∧ t.so = s.so ∧ t.mov = s.mov

theorem MbxOnly.refl (s : State) : MbxOnly s s := ⟨rfl, rfl, rfl, rfl, rfl, rfl⟩

theorem MbxOnly.trans {a b c : State} (h : MbxOnly a b) (g : MbxOnly b c) : MbxOnly a c := by
  obtain ⟨h1, h2, h3, h4, h5, h6⟩ := h
  obtain ⟨g1, g2, g3, g4, g5, g6⟩ := g
  exact ⟨g1.trans h1, g2.trans h2, g3.trans h3, g4.trans h4, g5.trans h5, g6.trans h6⟩

theorem Noted.mbxOnly {s t : State} (h : Noted s t) : MbxOnly s t := ⟨by rw [h.ctl], h.med, h.led, h.pur, h.so, h.mov⟩

theorem modMbx_mbxOnly (p : MbxPort) (f : Mailbox → Mailbox) (s : State) : MbxOnly s (modMbx p f s) := by
  cases p <;> exact ⟨rfl, rfl, rfl, rfl, rfl, rfl⟩

theorem modCxl_mbxOnly (p : MbxPort) (f : Mailbox → Mailbox) (s : State) : MbxOnly s (modCxl p f s) := by
  cases p <;> exact ⟨rfl, rfl, rfl, rfl, rfl, rfl⟩

theorem MbxOnly.of_ctl {s t : State} (h : MbxOnly s t) {α : Type} (f : Control → α) (hf : ∀ c, f c.sansBoard = f c := by intro; rfl) :
    f t.ctl = f s.ctl := by
  rw [← hf t.ctl, h.1, hf]

/-! What a mailbox reads as after an update. -/

@[simp] theorem mbxOf_modMbx_same (p : MbxPort) (f : Mailbox → Mailbox) (s : State) : mbxOf (modMbx p f s) p = f (mbxOf s p) := by
  cases p <;> rfl

theorem mbxOf_modMbx_ne {p q : MbxPort} (h : q ≠ p) (f : Mailbox → Mailbox) (s : State) : mbxOf (modMbx p f s) q = mbxOf s q :=
  match p, q, h with
  | .a, .b, _ | .a, .board, _ | .b, .a, _ | .b, .board, _ | .board, .a, _ | .board, .b, _ => rfl
  | .a, .a, h | .b, .b, h | .board, .board, h => absurd rfl h

theorem mbxOf_modCxl_ne {p q : MbxPort} (h : q ≠ p) (f : Mailbox → Mailbox) (s : State) : mbxOf (modCxl p f s) q = mbxOf s q :=
  match p, q, h with
  | .a, .b, _ | .a, .board, _ | .b, .a, _ | .b, .board, _ | .board, .a, _ | .board, .b, _ => rfl
  | .a, .a, h | .b, .b, h | .board, .board, h => absurd rfl h

theorem Noted.mbxOf {s t : State} (h : Noted s t) (p : MbxPort) : mbxOf t p = Machine.mbxOf s p := by
  cases p
  · show (portOf t .a).bare.mbx = (portOf s .a).bare.mbx
    rw [h.portBare]
  · show (portOf t .b).bare.mbx = (portOf s .b).bare.mbx
    rw [h.portBare]
  · exact congrArg Control.board h.ctl

theorem Queued.mbxOf {s t : State} (h : Queued s t) (p : MbxPort) : mbxOf t p = Machine.mbxOf s p :=
  Noted.mbxOf (s := s.idle) (t := t.idle) h p

theorem mbxOf_rbit (s : State) (k i : Nat) (p : MbxPort) : mbxOf (rbit s k i) p = mbxOf s p := by cases p <;> rfl

/-! Answers (R367, R368, R374). -/

/-- What an answer leaves in its mailbox: a host mailbox holds the output, the board's is sent. -/
def Mailbox.answer (p : MbxPort) (rc : Nat) (out : List Byte) (free : Nat) (m : Mailbox) : Mailbox :=
  match p with
  | .board => { m with ret := mapRc m.declared rc, busy := none }
  | _ => { m with ret := mapRc m.declared rc, out := out, written := [], answered := free + 1, busy := none }

/-- An answer is an update of its mailbox, with a message of the board's, or a host mailbox's DONE, a free value and notification. -/
theorem mbxAnswer_cases (p : MbxPort) (op rc : Nat) (out : List Byte) (s : State) :
    let u := modMbx p (Mailbox.answer p rc out s.cry.free) s
    (p = .board ∧ mbxAnswer p op rc out s = send (.mctp (toLE 2 op ++ toLE 2 (mapRc (mbxOf s p).declared rc) ++ out)) u) ∨
    (p ≠ .board ∧ Noted (rbit (u.modCry fun c => { c with free := c.free + 1 }) (regKey (headOf p) 0x2001C) 0) (mbxAnswer p op rc out s)) := by
  cases p with
  | board => exact .inl ⟨rfl, rfl⟩
  | a => exact .inr ⟨nofun, by simp only [mbxAnswer]; split; exacts [notifyVec_noted _ _ _, Noted.refl _]⟩
  | b => exact .inr ⟨nofun, by simp only [mbxAnswer]; split; exacts [notifyVec_noted _ _ _, Noted.refl _]⟩

theorem mbxAnswer_mbxOnly (p : MbxPort) (op rc : Nat) (out : List Byte) (s : State) : MbxOnly s (mbxAnswer p op rc out s) := by
  rcases mbxAnswer_cases p op rc out s with ⟨-, h⟩ | ⟨-, h⟩
  · rw [h]; exact modMbx_mbxOnly p _ s
  · exact (modMbx_mbxOnly p _ s).trans h.mbxOnly

theorem mbxOf_mbxAnswer (p : MbxPort) (op rc : Nat) (out : List Byte) (s : State) :
    mbxOf (mbxAnswer p op rc out s) p = (mbxOf s p).answer p rc out s.cry.free := by
  rcases mbxAnswer_cases p op rc out s with ⟨rfl, h⟩ | ⟨-, h⟩
  · rfl
  · rw [h.mbxOf, mbxOf_rbit]
    cases p <;> rfl

/-- The mailbox that answers has answered, its declared version standing. -/
theorem mbxAnswer_answered (p : MbxPort) (op rc : Nat) (out : List Byte) {s t : State}
    (hd : (mbxOf t p).declared = (mbxOf s p).declared) : answered p op rc out s (mbxAnswer p op rc out t) := by
  have hm := mbxOf_mbxAnswer p op rc out t
  cases p with
  | board => exact ⟨t.outbox, by rw [← show t.ctl.board.declared = s.ctl.board.declared from hd]; rfl⟩
  | a => simp only [answered, hm, Mailbox.answer, hd, and_self]
  | b => simp only [answered, hm, Mailbox.answer, hd, and_self]

/-! Commands that a mailbox takes (R365-R371). -/

theorem yciNoted_setRegs (op : Nat) (p : MbxPort) (b : List Byte) (s : State) : ∃ r, yciNoted op p b s = s.setRegs r := by
  unfold yciNoted
  split
  · exact ⟨s.regs, rfl⟩
  · exact ⟨_, rfl⟩

/-- A command that is taken is answered by its body. -/
theorem yciRun_taken {op : Nat} {p : MbxPort} {b : List Byte} {s : State} (h : yciTaken op p b s = true) (body : Body) :
    yciRun op body p b s =
      if (body p b (yciNoted op p b s)).ret == rcNone then (body p b (yciNoted op p b s)).st
      else mbxAnswer p op (body p b (yciNoted op p b s)).ret (body p b (yciNoted op p b s)).out (body p b (yciNoted op p b s)).st := by
  simp only [yciTaken, Bool.and_eq_true, Bool.not_eq_true', Option.any_eq_true, decide_eq_true_eq] at h
  obtain ⟨⟨⟨⟨hport, hpow⟩, hbusy⟩, haway⟩, r, hrow, ⟨⟨⟨hver, hright⟩, hlost⟩, hlen⟩, hbg⟩ := h
  have hans : yciAnswer op body p b (yciNoted op p b s) = body p b (yciNoted op p b s) := by
    obtain ⟨k, hk⟩ := yciNoted_setRegs op p b s
    have hm : mbxOf (s.setRegs k) p = mbxOf s p := by cases p <;> rfl
    rw [hk, yciAnswer, show firmwareAway p (s.setRegs k) = firmwareAway p s from rfl, haway, hrow]
    simp only [hm, show (s.setRegs k).led = s.led from rfl]
    rw [if_neg (by decide), if_neg (Nat.not_lt.mpr hver), if_neg (by rw [hright]; decide), if_neg (ne_true_of_eq_false hlost),
      if_neg (by rw [hlen]; decide), if_neg (ne_true_of_eq_false hbg)]
  rw [yciRun, if_neg (by simp [hport, hpow]), if_neg (by simp [Option.isNone_iff_eq_none.mp hbusy])]
  rw [← hans]
  rfl

/-- A command that is taken and refused is answered, and that is all. -/
theorem yciRun_err {op : Nat} {p : MbxPort} {b : List Byte} {s : State} (h : yciTaken op p b s = true) {body : Body} {rc : Nat}
    (hrc : rc ≠ rcNone) (hb : body p b (yciNoted op p b s) = errAns rc (yciNoted op p b s)) :
    yciRun op body p b s = answerOnly op p b rc [] s := by
  rw [yciRun_taken h, hb]
  exact if_neg (by simpa [errAns] using hrc)

/-- A command that is taken and answers at once. -/
theorem yciRun_answers {op : Nat} {p : MbxPort} {b : List Byte} {s t : State} (h : yciTaken op p b s = true) {body : Body} {rc : Nat}
    {out : List Byte} (hrc : rc ≠ rcNone) (hb : body p b (yciNoted op p b s) = ⟨rc, out, t⟩) :
    yciRun op body p b s = mbxAnswer p op rc out t := by
  rw [yciRun_taken h, hb]
  exact if_neg (by simpa using hrc)

/-- A command that is taken and answers later. -/
theorem yciRun_later {op : Nat} {p : MbxPort} {b : List Byte} {s t : State} (h : yciTaken op p b s = true) {body : Body}
    {out : List Byte} (hb : body p b (yciNoted op p b s) = ⟨rcNone, out, t⟩) : yciRun op body p b s = t := by
  rw [yciRun_taken h, hb]
  exact if_pos (by simp)

/-! The end of a background command (R369), and the versions that a mailbox may declare (R376). -/

/-- What the end of a background command leaves in its mailbox. -/
def Mailbox.ended (rc : Nat) (m : Mailbox) : Mailbox := { m with bg := none, bgResult := mapRc m.declared rc, bgPercent := 100 }

theorem notEvent_mbxStatus (h : Head) : notEvent (regKey h 0x2001C) := by
  cases h
  · exact .inl (by decide)
  · exact .inr (by decide)

/-- The end of a background command: its mailbox and its event, and for a host mailbox BG_DONE and its interrupt. -/
theorem bgFinish_forms {p : MbxPort} {s : State} {c : BgCmd} (hbg : (mbxOf s p).bg = some c) (rc : Nat) :
    ∃ d u, u = raise 8 0 0x01 d (modMbx p (Mailbox.ended rc) s) ∧
      (bgFinish p rc s = u ∨ bgFinish p rc s = rbit u (regKey (headOf p) 0x2001C) 1 ∨
        ∃ v, bgFinish p rc s = notifyVec (headOf p) v (rbit u (regKey (headOf p) 0x2001C) 1)) := by
  refine ⟨(det3 c.opcode (mapRc (mbxOf s p).declared rc)).on (headOf p), _, rfl, ?_⟩
  rw [bgFinish, hbg]
  cases p with
  | board => exact .inl rfl
  | a =>
    right
    dsimp only
    split
    exacts [.inr ⟨_, rfl⟩, .inl rfl]
  | b =>
    right
    dsimp only
    split
    exacts [.inr ⟨_, rfl⟩, .inl rfl]

/-- What the end of a background command changes but for notification. -/
theorem bgFinish_cases {p : MbxPort} {s : State} {c : BgCmd} (hbg : (mbxOf s p).bg = some c) (rc : Nat) :
    Noted (modMbx p (Mailbox.ended rc) s) (bgFinish p rc s) ∨
    Noted (rbit (modMbx p (Mailbox.ended rc) s) (regKey (headOf p) 0x2001C) 1) (bgFinish p rc s) := by
  obtain ⟨d, u, rfl, h⟩ := bgFinish_forms hbg rc
  have hn := raise_noted 8 0 0x01 d (modMbx p (Mailbox.ended rc) s)
  have hb := hn.rbit _ 1 (notEvent_mbxStatus (headOf p))
  rcases h with h | h | ⟨v, h⟩
  · exact .inl (h ▸ hn)
  · exact .inr (h ▸ hb)
  · exact .inr (h ▸ hb.notify _ _)

theorem bgFinish_mbxOnly (p : MbxPort) (rc : Nat) (s : State) : MbxOnly s (bgFinish p rc s) := by
  cases hbg : (mbxOf s p).bg with
  | none => rw [bgFinish, hbg]; exact .refl s
  | some c =>
    rcases bgFinish_cases hbg rc with h | h
    · exact (modMbx_mbxOnly p _ s).trans h.mbxOnly
    · exact (modMbx_mbxOnly p _ s).trans h.mbxOnly

theorem mbxOf_bgFinish_same {p : MbxPort} {s : State} {c : BgCmd} (hbg : (mbxOf s p).bg = some c) (rc : Nat) :
    mbxOf (bgFinish p rc s) p = (mbxOf s p).ended rc := by
  rcases bgFinish_cases hbg rc with h | h
  · rw [h.mbxOf, mbxOf_modMbx_same]
  · rw [h.mbxOf, mbxOf_rbit, mbxOf_modMbx_same]

theorem mbxOf_bgFinish_ne {p q : MbxPort} (hq : q ≠ p) (rc : Nat) (s : State) : mbxOf (bgFinish p rc s) q = mbxOf s q := by
  cases hbg : (mbxOf s p).bg with
  | none => rw [bgFinish, hbg]
  | some c =>
    rcases bgFinish_cases hbg rc with h | h
    · rw [h.mbxOf, mbxOf_modMbx_ne hq]
    · rw [h.mbxOf, mbxOf_rbit, mbxOf_modMbx_ne hq]

/-- A raised FW_REVERTED stays pending when an ended command raises its own reason. -/
theorem revertedPends_raise {s t : State} (hp : Pends 8 1 0x03 s) (hr : t.regs = s.regs) (d : Det) :
    Pends 8 1 0x03 (raise 8 0 0x01 d t) :=
  Pends.raise (hp.of_regs hr) (by decide) _ _ _ _ (by decide)

theorem modMbx_regs (p : MbxPort) (f : Mailbox → Mailbox) (s : State) : (modMbx p f s).regs = s.regs := by cases p <;> rfl

theorem bgFinish_revertedPends (p : MbxPort) (rc : Nat) {s : State} (hp : Pends 8 1 0x03 s) : Pends 8 1 0x03 (bgFinish p rc s) := by
  cases hbg : (mbxOf s p).bg with
  | none => rw [bgFinish, hbg]; exact hp
  | some c =>
    obtain ⟨d, u, rfl, h⟩ := bgFinish_forms hbg rc
    have hr := revertedPends_raise hp (modMbx_regs p (Mailbox.ended rc) s) d
    have hb : Pends 8 1 0x03 (rbit _ (regKey (headOf p) 0x2001C) 1) := hr.rset _ _ (notEvent_mbxStatus (headOf p))
    rcases h with h | h | ⟨v, h⟩
    · exact h ▸ hr
    · exact h ▸ hb
    · exact h ▸ hb.of_regs (notifyVec_regs _ _ _)

/-! The versions that a mailbox declares (R376). -/

theorem versionFall_le (served : BitVec 3) (d : Nat) : versionFall served d ≤ d := by
  simp only [versionFall, List.foldl_cons, List.foldl_nil]
  grind

theorem versionFall_served (served : BitVec 3) (d : Nat) :
    served.getLsbD (versionFall served d) = true ∨ versionFall served d = 0 := by
  simp only [versionFall, List.foldl_cons, List.foldl_nil]
  grind

/-- R376: the version that a mailbox declares once the firmware serves others. -/
def declaredUnder (served : BitVec 3) (d : Nat) : Nat := if served.getLsbD d then d else versionFall served d

theorem declaredUnder_spec (served : BitVec 3) (d : Nat) :
    declaredUnder served d ≤ d ∧ (served.getLsbD (declaredUnder served d) = true ∨ declaredUnder served d = 0) ∧
    (served.getLsbD d = true → declaredUnder served d = d) := by
  rw [declaredUnder]
  split
  · next h => exact ⟨Nat.le_refl d, .inl h, fun _ => rfl⟩
  · next h => exact ⟨versionFall_le served d, versionFall_served served d, fun hd => absurd hd h⟩

/-- An update of a mailbox is what it makes of that mailbox. -/
theorem modMbx_congr (p : MbxPort) {f g : Mailbox → Mailbox} (s : State) (h : f (mbxOf s p) = g (mbxOf s p)) : modMbx p f s = modMbx p g s := by
  cases p with
  | a => simp only [mbxOf] at h; simp only [modMbx, modPort, State.modFe, h]
  | b => simp only [mbxOf] at h; simp only [modMbx, modPort, State.modFe, h]
  | board => simp only [mbxOf] at h; simp only [modMbx, State.modCtl, h]

/-- A mailbox whose declared version is served is left alone, and another's falls, with VERSION_CHANGED. -/
theorem versionCheck_cases (p : MbxPort) (s : State) :
    (s.ctl.versions.getLsbD (mbxOf s p).declared = true ∧ versionCheck p s = s) ∨
    let u := modMbx p (fun m => { m with declared := declaredUnder s.ctl.versions m.declared }) s
    Noted u (versionCheck p s) ∨ Noted (rbit u (regKey (headOf p) 0x2001C) 2) (versionCheck p s) := by
  by_cases hv : s.ctl.versions.getLsbD (mbxOf s p).declared = true
  · exact .inl ⟨hv, if_pos hv⟩
  · right
    have hu : modMbx p (fun m => { m with declared := declaredUnder s.ctl.versions m.declared }) s =
        modMbx p (fun m => { m with declared := versionFall s.ctl.versions (mbxOf s p).declared }) s :=
      modMbx_congr p s (by rw [declaredUnder, if_neg hv])
    rw [hu]
    simp only [versionCheck, if_neg hv]
    split
    · exact .inl (raise_noted _ _ _ _ _)
    · exact .inr (raise_noted _ _ _ _ _)

theorem versionCheck_mbxOnly (p : MbxPort) (s : State) : MbxOnly s (versionCheck p s) := by
  rcases versionCheck_cases p s with ⟨-, h⟩ | h | h
  · rw [h]; exact .refl s
  · exact (modMbx_mbxOnly p _ s).trans h.mbxOnly
  · exact (modMbx_mbxOnly p _ s).trans h.mbxOnly

theorem mbxOf_versionCheck_ne {p q : MbxPort} (hq : q ≠ p) (s : State) : mbxOf (versionCheck p s) q = mbxOf s q := by
  rcases versionCheck_cases p s with ⟨-, h⟩ | h | h
  · rw [h]
  · rw [h.mbxOf, mbxOf_modMbx_ne hq]
  · rw [h.mbxOf, mbxOf_rbit, mbxOf_modMbx_ne hq]

theorem versionCheck_declared (p : MbxPort) (s : State) :
    (mbxOf (versionCheck p s) p).declared = declaredUnder s.ctl.versions (mbxOf s p).declared := by
  rcases versionCheck_cases p s with ⟨hv, h⟩ | h | h
  · rw [h, declaredUnder, if_pos hv]
  · rw [h.mbxOf, mbxOf_modMbx_same]
  · rw [h.mbxOf, mbxOf_rbit, mbxOf_modMbx_same]

/-- What is done for each mailbox in turn. -/
theorem forEach_allMbx (f : MbxPort → State → State) (s : State) : forEach allMbx f s = f .board (f .b (f .a s)) := rfl

/-- A step for each mailbox in turn that leaves the others alone has its effect on each. -/
theorem mbxOf_forEach_allMbx {α : Type} (f : MbxPort → State → State) (look : Mailbox → α) (g : State → α → α)
    (hne : ∀ p q, q ≠ p → ∀ s, mbxOf (f p s) q = mbxOf s q) (hg : ∀ p s, g (f p s) = g s)
    (hsame : ∀ p s, look (mbxOf (f p s) p) = g s (look (mbxOf s p))) (s : State) (p : MbxPort) :
    look (mbxOf (forEach allMbx f s) p) = g s (look (mbxOf s p)) := by
  rw [forEach_allMbx]
  cases p with
  | a => rw [hne _ _ (by decide), hne _ _ (by decide), hsame]
  | b => rw [hne _ _ (by decide), hsame, hne _ _ (by decide), hg]
  | board => rw [hsame, hne _ _ (by decide), hne _ _ (by decide), hg, hg]

theorem forEach_allMbx_mbxOnly {f : MbxPort → State → State} (hf : ∀ p s, MbxOnly s (f p s)) (s : State) :
    MbxOnly s (forEach allMbx f s) := ((hf _ _).trans (hf _ _)).trans (hf _ _)

/-! The end of an online activation's command (R385). -/

/-- The background command of an online activation ends on one mailbox. -/
def fwEnd (rc : Nat) (p : MbxPort) (s : State) : State :=
  let s := if (mbxOf s p).bg.elim false (fun b => b.opcode == 0xCA02 && b.arg == 0) then bgFinish p rc s else s
  if (cxlOf s p).bg.elim false (fun b => b.opcode == 0x0202 && b.arg == 0) then cxlBgFinish p rc s else s

theorem fwBgFinish_eq (rc : Nat) (s : State) : fwBgFinish rc s = forEach allMbx (fwEnd rc) s := rfl

/-- The end of a CXL background command changes its CXL mailbox but for notification. -/
theorem cxlBgFinish_cases (p : MbxPort) (rc : Nat) (s : State) :
    cxlBgFinish p rc s = s ∨
      ∃ d, cxlBgFinish p rc s = raise 8 0 0x01 d (modCxl p (fun m => { m with bg := none, bgResult := rc, bgPercent := 100 }) s) := by
  rw [cxlBgFinish]
  cases (cxlOf s p).bg with
  | none => exact .inl rfl
  | some c => exact .inr ⟨_, rfl⟩

theorem cxlBgFinish_mbxOnly (p : MbxPort) (rc : Nat) (s : State) : MbxOnly s (cxlBgFinish p rc s) := by
  rcases cxlBgFinish_cases p rc s with h | ⟨d, h⟩
  · rw [h]; exact .refl s
  · rw [h]; exact (modCxl_mbxOnly p _ s).trans (raise_noted _ _ _ _ _).mbxOnly

theorem modCxl_regs (p : MbxPort) (f : Mailbox → Mailbox) (s : State) : (modCxl p f s).regs = s.regs := by cases p <;> rfl

theorem cxlBgFinish_revertedPends (p : MbxPort) (rc : Nat) {s : State} (hp : Pends 8 1 0x03 s) :
    Pends 8 1 0x03 (cxlBgFinish p rc s) := by
  rcases cxlBgFinish_cases p rc s with h | ⟨d, h⟩
  · rw [h]; exact hp
  · rw [h]; exact revertedPends_raise hp (modCxl_regs _ _ _) d

theorem mbxOf_cxlBgFinish_ne {p q : MbxPort} (hq : q ≠ p) (rc : Nat) (s : State) : mbxOf (cxlBgFinish p rc s) q = mbxOf s q := by
  rcases cxlBgFinish_cases p rc s with h | ⟨d, h⟩
  · rw [h]
  · rw [h, (raise_noted _ _ _ _ _).mbxOf, mbxOf_modCxl_ne hq]

theorem cxlBgFinish_declared (p : MbxPort) (rc : Nat) (s : State) : (mbxOf (cxlBgFinish p rc s) p).declared = (mbxOf s p).declared := by
  rcases cxlBgFinish_cases p rc s with h | ⟨d, h⟩
  · rw [h]
  · rw [h, (raise_noted _ _ _ _ _).mbxOf]
    cases p <;> rfl

/-- Where the port's own command has ended, the end of a CXL command leaves its mailbox alone. -/
theorem mbxOf_cxlBgFinish_same {p : MbxPort} {s : State} (h : (mbxOf s p).bg = none) (rc : Nat) : mbxOf (cxlBgFinish p rc s) p = mbxOf s p := by
  rcases cxlBgFinish_cases p rc s with hc | ⟨d, hc⟩
  · rw [hc]
  · cases p with
    | a => rw [hc, (raise_noted _ _ _ _ _).mbxOf]; rfl
    | b => rw [hc, (raise_noted _ _ _ _ _).mbxOf]; rfl
    | board => rw [cxlBgFinish, show (cxlOf s .board).bg = none from h]

theorem fwEnd_mbxOnly (rc : Nat) (p : MbxPort) (s : State) : MbxOnly s (fwEnd rc p s) := by
  simp only [fwEnd]
  split <;> split
  · exact (bgFinish_mbxOnly _ _ _).trans (cxlBgFinish_mbxOnly _ _ _)
  · exact bgFinish_mbxOnly _ _ _
  · exact cxlBgFinish_mbxOnly _ _ _
  · exact .refl s

theorem mbxOf_fwEnd_ne {p q : MbxPort} (hq : q ≠ p) (rc : Nat) (s : State) : mbxOf (fwEnd rc p s) q = mbxOf s q := by
  simp only [fwEnd]
  split <;> split
  · rw [mbxOf_cxlBgFinish_ne hq, mbxOf_bgFinish_ne hq]
  · rw [mbxOf_bgFinish_ne hq]
  · rw [mbxOf_cxlBgFinish_ne hq]
  · rfl

theorem bgFinish_declared (p : MbxPort) (rc : Nat) (s : State) : (mbxOf (bgFinish p rc s) p).declared = (mbxOf s p).declared := by
  cases hbg : (mbxOf s p).bg with
  | none => rw [bgFinish, hbg]
  | some c => rw [mbxOf_bgFinish_same hbg]; rfl

theorem fwEnd_declared (rc : Nat) (p : MbxPort) (s : State) : (mbxOf (fwEnd rc p s) p).declared = (mbxOf s p).declared := by
  simp only [fwEnd]
  split <;> split
  · rw [cxlBgFinish_declared, bgFinish_declared]
  · rw [bgFinish_declared]
  · rw [cxlBgFinish_declared]
  · rfl

theorem fwEnd_revertedPends (rc : Nat) (p : MbxPort) {s : State} (hp : Pends 8 1 0x03 s) : Pends 8 1 0x03 (fwEnd rc p s) := by
  simp only [fwEnd]
  split <;> split
  · exact cxlBgFinish_revertedPends _ _ (bgFinish_revertedPends _ _ hp)
  · exact bgFinish_revertedPends _ _ hp
  · exact cxlBgFinish_revertedPends _ _ hp
  · exact hp

/-- The online activation that a mailbox runs ends with the return code. -/
theorem fwEnd_ended {p : MbxPort} {s : State} {c : BgCmd} (hbg : (mbxOf s p).bg = some c) (hop : c.opcode = 0xCA02) (harg : c.arg = 0)
    (rc : Nat) : mbxOf (fwEnd rc p s) p = (mbxOf s p).ended rc := by
  have hsame := mbxOf_bgFinish_same hbg rc
  have hnone : (mbxOf (bgFinish p rc s) p).bg = none := by rw [hsame]; rfl
  simp only [fwEnd, hbg, Option.elim_some, hop, harg, beq_self_eq_true, Bool.and_self, if_true]
  split
  · rw [mbxOf_cxlBgFinish_same hnone, hsame]
  · exact hsame

end Sys2Proof.Machine
end

section
/-! Firmware: the staged slot, the activation and the rollback floor (R383-R386, R458). -/

namespace Sys2Proof.Machine

open Sys2Proof

/-! The slots. -/

theorem modStaged_eq (f : FwSlot → FwSlot) (s : State) : modStaged f s = s.modCtl fun c =>
    { c with fw0 := if c.fwRunning == 0 then c.fw0 else f c.fw0, fw1 := if c.fwRunning == 0 then f c.fw1 else c.fw1 } := by
  simp only [modStaged, State.modCtl]
  split <;> rfl

@[simp] theorem fwStaged_modStaged (f : FwSlot → FwSlot) (s : State) : fwStaged (modStaged f s) = f (fwStaged s) := by
  rw [modStaged_eq]
  rcases h : s.ctl.fwRunning with _ | n <;> simp [fwStaged, fwSlotAt, h]

@[simp] theorem fwRun_modStaged (f : FwSlot → FwSlot) (s : State) : fwRun (modStaged f s) = fwRun s := by
  rw [modStaged_eq]
  rcases h : s.ctl.fwRunning with _ | n <;> simp [fwRun, fwSlotAt, h]

@[simp] theorem modStaged_fwOwner (f : FwSlot → FwSlot) (s : State) : (modStaged f s).ctl.fwOwner = s.ctl.fwOwner := by rw [modStaged_eq]; rfl
@[simp] theorem modStaged_fwRunning (f : FwSlot → FwSlot) (s : State) : (modStaged f s).ctl.fwRunning = s.ctl.fwRunning := by
  rw [modStaged_eq]; rfl
@[simp] theorem mbxOf_modStaged (f : FwSlot → FwSlot) (s : State) (p : MbxPort) : mbxOf (modStaged f s) p = mbxOf s p := by
  rw [modStaged_eq]; cases p <;> rfl

theorem fwStaged_of_ctl {s t : State} (h : t.ctl = s.ctl) : fwStaged t = fwStaged s := by simp only [fwStaged, fwSlotAt, h]
theorem fwRun_of_ctl {s t : State} (h : t.ctl = s.ctl) : fwRun t = fwRun s := by simp only [fwRun, fwSlotAt, h]

theorem MbxOnly.fwStaged {s t : State} (h : MbxOnly s t) : fwStaged t = Machine.fwStaged s :=
  h.of_ctl fun c => if 1 - c.fwRunning == 0 then c.fw0 else c.fw1
theorem MbxOnly.fwRun {s t : State} (h : MbxOnly s t) : fwRun t = Machine.fwRun s :=
  h.of_ctl fun c => if c.fwRunning == 0 then c.fw0 else c.fw1

/-! Transfers (R383). -/

theorem fwPages_queued (n off : Nat) (data : List Byte) (s : State) : Queued s (fwPages off n data s) := by
  induction n generalizing off data s with
  | zero => exact Queued.refl s
  | succ n ih =>
    simp only [fwPages]
    split
    · exact Queued.refl s
    · exact (pageQueue_queued _ _ _ _ s).trans (ih _ _ _)

/-- The slot once data has joined it. -/
def fwHeld (off total : Nat) (data : List Byte) (s : State) : State :=
  (modStaged (fun f => { f with data := f.data ++ data, bytes := off + data.length, total := total, state := .partial_ })
    (fwPages off 17 data s)).modCtl fun c => { c with fwLast := (fwPages off 17 data s).clock }

/-- A slot that holds its whole image. -/
def FwSlot.completed (d : List Byte) (f : FwSlot) : FwSlot :=
  { f with state := .complete, version := Config.imageVersion d, svn := Config.imageSvn d, forB1 := Config.imageForB1 d,
           digest := Config.sha384 d, sigOk := Config.ecdsaOk 0 (toLE 48 (Config.sha384 d).toNat) (Config.imageSignature d) }

/-- What a transfer leaves alone: the running image and the mailboxes; and the owner stays. -/
def FwKept (s t : State) : Prop :=
  fwRun t = fwRun s ∧ t.ctl.fwOwner = s.ctl.fwOwner ∧ t.ctl.fwRunning = s.ctl.fwRunning ∧ ∀ p, mbxOf t p = mbxOf s p

theorem FwKept.trans {a b c : State} (h : FwKept a b) (g : FwKept b c) : FwKept a c := by
  obtain ⟨h1, h2, h3, h4⟩ := h
  obtain ⟨g1, g2, g3, g4⟩ := g
  exact ⟨g1.trans h1, g2.trans h2, g3.trans h3, fun p => (g4 p).trans (h4 p)⟩

theorem Queued.fwKept {s t : State} (h : Queued s t) : FwKept s t := ⟨fwRun_of_ctl h.ctl, by rw [h.ctl], by rw [h.ctl], h.mbxOf⟩

theorem modStaged_fwKept (f : FwSlot → FwSlot) (s : State) : FwKept s (modStaged f s) :=
  ⟨fwRun_modStaged f s, modStaged_fwOwner f s, modStaged_fwRunning f s, mbxOf_modStaged f s⟩

theorem fwLast_fwKept (n : Nat) (s : State) : FwKept s (s.modCtl fun c => { c with fwLast := n }) :=
  ⟨rfl, rfl, rfl, fun p => by cases p <;> rfl⟩

theorem fwHeld_fwKept (off total : Nat) (data : List Byte) (s : State) : FwKept s (fwHeld off total data s) :=
  ((fwPages_queued 17 off data s).fwKept.trans (modStaged_fwKept _ _)).trans (fwLast_fwKept _ _)

theorem fwStaged_fwHeld (off total : Nat) (data : List Byte) (s : State) : fwStaged (fwHeld off total data s) =
    { fwStaged s with data := (fwStaged s).data ++ data, bytes := off + data.length, total := total, state := .partial_ } := by
  rw [← fwStaged_of_ctl (fwPages_queued 17 off data s).ctl]
  exact fwStaged_modStaged _ _

theorem fwHeld_fwLast (off total : Nat) (data : List Byte) (s : State) : (fwHeld off total data s).ctl.fwLast = s.clock :=
  (fwPages_queued 17 off data s).clock

theorem fwAppend_eq (off total : Nat) (data : List Byte) (s : State) : fwAppend off total data s =
    if off + data.length < total then fwHeld off total data s
    else raise 8 1 0x01 (det3 total 0) (modStaged (FwSlot.completed (fwStaged (fwHeld off total data s)).data) (fwHeld off total data s)) := rfl

theorem fwAppend_fwKept (off total : Nat) (data : List Byte) (s : State) : FwKept s (fwAppend off total data s) := by
  rw [fwAppend_eq]
  split
  · exact fwHeld_fwKept off total data s
  · exact ((fwHeld_fwKept off total data s).trans (modStaged_fwKept _ _)).trans (raise_noted _ _ _ _ _).queued.fwKept

/-- Data joins the staged image, which is complete at its full length. -/
theorem fwAppend_staged (off total : Nat) (data : List Byte) (s : State) :
    (fwStaged (fwAppend off total data s)).data = (fwStaged s).data ++ data ∧
    (fwStaged (fwAppend off total data s)).state = (if off + data.length < total then .partial_ else .complete) ∧
    (fwAppend off total data s).ctl.fwLast = s.clock := by
  rw [fwAppend_eq]
  split
  · rw [fwStaged_fwHeld, fwHeld_fwLast]; exact ⟨rfl, rfl, rfl⟩
  · rw [(raise_noted _ _ _ _ _).mbxOnly.fwStaged, (raise_noted _ _ _ _ _).ctl, fwStaged_modStaged, fwStaged_fwHeld, modStaged_eq]
    exact ⟨rfl, rfl, fwHeld_fwLast off total data s⟩

/-- R383: an offset, a total length and a data length within range. -/
def FwInRange (off total len : Nat) : Prop :=
  total ≤ 2 ^ 22 ∧ off % 256 = 0 ∧ off + len ≤ total ∧ (len % 4 = 0 ∨ off + len = total)

theorem fwTransfer_owned {p : MbxPort} {off total : Nat} {data : List Byte} {s : State} (h : fwOwned s p = true) :
    fwTransfer p off total data s = errAns rcBusy s := if_pos h

theorem fwTransfer_outOfRange {p : MbxPort} {off total : Nat} {data : List Byte} {s : State} (hown : fwOwned s p = false)
    (h : 2 ^ 22 < total ∨ off % 256 ≠ 0 ∨ total < off + data.length ∨ (data.length % 4 ≠ 0 ∧ off + data.length ≠ total)) :
    fwTransfer p off total data s = errAns rcInvalid s := by
  rw [fwTransfer, if_neg (ne_true_of_eq_false hown), if_pos]
  simp only [Bool.or_eq_true, Bool.and_eq_true, bne_iff_ne, decide_eq_true_eq]
  tauto

theorem fwTransfer_inRange {p : MbxPort} {off total : Nat} {data : List Byte} {s : State} (hown : fwOwned s p = false)
    (h : FwInRange off total data.length) : fwTransfer p off total data s =
      if off == 0 then
        ok (if total == 0 then modStaged (fun _ => FwSlot.init) (s.modCtl fun c => { c with fwOwner := some p, fwAtReset := false })
          else fwAppend 0 total data (modStaged (fun _ => FwSlot.init) (s.modCtl fun c => { c with fwOwner := some p, fwAtReset := false })))
      else if s.ctl.fwOwner != some p || (fwStaged s).state != .partial_ || (fwStaged s).bytes != off || (fwStaged s).total != total then
        errAns rcInvalid s
      else ok (fwAppend off total data s) := by
  obtain ⟨htotal, hoff, hend, hlen⟩ := h
  rw [fwTransfer, if_neg (ne_true_of_eq_false hown), if_neg]
  simp only [Bool.or_eq_true, Bool.and_eq_true, bne_iff_ne, decide_eq_true_eq]
  omega

/-- A transfer at offset 0 takes the slot, empties it and holds the data. -/
theorem fwTransfer_first {p : MbxPort} {total : Nat} {data : List Byte} {s : State} (hown : fwOwned s p = false)
    (h : FwInRange 0 total data.length) : ∃ u, fwTransfer p 0 total data s = ok u ∧ u.ctl.fwOwner = some p ∧
      u.ctl.fwRunning = s.ctl.fwRunning ∧ fwRun u = fwRun s ∧ (fwStaged u).data = data ∧
      (fwStaged u).state = (if total = 0 then .empty_ else if data.length = total then .complete else .partial_) ∧
      ∀ q, mbxOf u q = mbxOf s q := by
  have htake : ∀ q, mbxOf (s.modCtl fun c => { c with fwOwner := some p, fwAtReset := false }) q = mbxOf s q := fun q => by cases q <;> rfl
  obtain ⟨hrun, howner, hrunning, hmbx⟩ := modStaged_fwKept (fun _ => FwSlot.init)
    (s.modCtl fun c => { c with fwOwner := some p, fwAtReset := false })
  have hinit : fwStaged (modStaged (fun _ => FwSlot.init) (s.modCtl fun c => { c with fwOwner := some p, fwAtReset := false })) = FwSlot.init :=
    fwStaged_modStaged _ _
  rw [fwTransfer_inRange hown h, if_pos (by decide)]
  refine ⟨_, rfl, ?_⟩
  generalize modStaged (fun _ => FwSlot.init) (s.modCtl fun c => { c with fwOwner := some p, fwAtReset := false }) = v at *
  obtain ⟨-, -, hend, -⟩ := h
  by_cases ht : total = 0
  · have hdata : data = [] := List.length_eq_zero_iff.mp (by omega)
    subst ht hdata
    exact ⟨howner, hrunning, hrun, by rw [if_pos (by decide), hinit]; rfl,
      by rw [if_pos (by decide), hinit]; rfl, fun q => (hmbx q).trans (htake q)⟩
  · rw [if_neg (by simpa using ht), if_neg ht]
    obtain ⟨krun, kowner, krunning, kmbx⟩ := fwAppend_fwKept 0 total data v
    obtain ⟨hdata, hstate, -⟩ := fwAppend_staged 0 total data v
    refine ⟨kowner.trans howner, krunning.trans hrunning, krun.trans hrun, ?_, ?_, fun q => ((kmbx q).trans (hmbx q)).trans (htake q)⟩
    · rw [hdata, hinit]; rfl
    · rw [hstate]
      by_cases hlt : 0 + data.length < total
      · rw [if_pos hlt, if_neg (by omega)]
      · rw [if_neg hlt, if_pos (by omega)]

/-- A transfer that its mailbox takes and refuses (R383). -/
theorem exec_transferFirmware_err {p : MbxPort} {b : List Byte} {s : State} (h : yciTaken 0xCA01 p b s = true) {rc : Nat} (hrc : rc ≠ rcNone)
    (hb : ∀ r, fwTransfer p (le b 0 4) (le b 4 4) (b.drop 8) (s.setRegs r) = errAns rc (s.setRegs r)) :
    exec (.transferFirmware p b) s = .next (answerOnly 0xCA01 p b rc [] s) := by
  obtain ⟨r, hr⟩ := yciNoted_setRegs 0xCA01 p b s
  exact congrArg Host.Outcome.next (yciRun_err h hrc (by rw [hr]; exact hb r))

/-- A transfer that its mailbox takes and answers with SUCCESS (R383). -/
theorem exec_transferFirmware_ok {p : MbxPort} {b : List Byte} {s : State} (h : yciTaken 0xCA01 p b s = true) :
    ∃ r, ∀ u, fwTransfer p (le b 0 4) (le b 4 4) (b.drop 8) (s.setRegs r) = ok u →
      exec (.transferFirmware p b) s = .next (mbxAnswer p 0xCA01 0 [] u) := by
  obtain ⟨r, hr⟩ := yciNoted_setRegs 0xCA01 p b s
  exact ⟨r, fun u hb => congrArg Host.Outcome.next (yciRun_answers h (by decide) (by rw [hr]; exact hb))⟩

theorem mbxOf_setRegs (s : State) (r : Tab (BitVec 32)) (p : MbxPort) : mbxOf (s.setRegs r) p = mbxOf s p := by cases p <;> rfl

/-- TRANSFER_FIRMWARE at offset 0. -/
theorem transferFirmware_first {p : MbxPort} {b : List Byte} {s : State} (h : yciTaken 0xCA01 p b s = true) (hown : fwOwned s p = false)
    (h0 : le b 0 4 = 0) (hr : FwInRange (le b 0 4) (le b 4 4) (b.drop 8).length) :
    ∃ t, exec (.transferFirmware p b) s = .next t ∧ t.ctl.fwOwner = some p ∧ t.ctl.fwRunning = s.ctl.fwRunning ∧
      fwRun t = fwRun s ∧ (fwStaged t).data = b.drop 8 ∧
      (fwStaged t).state = (if le b 4 4 = 0 then .empty_ else if (b.drop 8).length = le b 4 4 then .complete else .partial_) ∧
      answered p 0xCA01 0 [] s t := by
  obtain ⟨r, hok⟩ := exec_transferFirmware_ok h
  rw [h0] at hr hok
  obtain ⟨u, hu, howner, hrunning, hrun, hdata, hstate, hmbx⟩ := fwTransfer_first (s := s.setRegs r) (p := p) hown hr
  have hm := mbxAnswer_mbxOnly p 0xCA01 0 [] u
  exact ⟨_, hok u hu, (hm.of_ctl (·.fwOwner)).trans howner, (hm.of_ctl (·.fwRunning)).trans hrunning, hm.fwRun.trans hrun,
    by rw [hm.fwStaged, hdata], by rw [hm.fwStaged, hstate], mbxAnswer_answered p _ _ _ (by rw [hmbx, mbxOf_setRegs])⟩

/-- TRANSFER_FIRMWARE at a later offset that is not the owner's next byte. -/
theorem transferFirmware_refused {p : MbxPort} {b : List Byte} {s : State} (h : yciTaken 0xCA01 p b s = true) (hown : fwOwned s p = false)
    (hne : le b 0 4 ≠ 0) (hr : FwInRange (le b 0 4) (le b 4 4) (b.drop 8).length)
    (hwrong : s.ctl.fwOwner ≠ some p ∨ (fwStaged s).state ≠ .partial_ ∨ (fwStaged s).bytes ≠ le b 0 4 ∨ (fwStaged s).total ≠ le b 4 4) :
    exec (.transferFirmware p b) s = .next (answerOnly 0xCA01 p b 0x2 [] s) := by
  refine exec_transferFirmware_err h (by decide) fun r => ?_
  rw [fwTransfer_inRange (s := s.setRegs r) hown hr, if_neg (by simpa using hne), if_pos]
  · rfl
  · simp only [Bool.or_eq_true, bne_iff_ne]
    exact or_assoc.mpr (or_assoc.mpr hwrong)

/-- TRANSFER_FIRMWARE at the owner's next byte. -/
theorem transferFirmware_next {p : MbxPort} {b : List Byte} {s : State} (h : yciTaken 0xCA01 p b s = true) (hown : fwOwned s p = false)
    (hne : le b 0 4 ≠ 0) (hr : FwInRange (le b 0 4) (le b 4 4) (b.drop 8).length)
    (howner : s.ctl.fwOwner = some p) (hpart : (fwStaged s).state = .partial_) (hbytes : (fwStaged s).bytes = le b 0 4)
    (htot : (fwStaged s).total = le b 4 4) :
    ∃ t, exec (.transferFirmware p b) s = .next t ∧ t.ctl.fwOwner = some p ∧
      (fwStaged t).data = (fwStaged s).data ++ b.drop 8 ∧ fwRun t = fwRun s ∧ t.ctl.fwLast = s.clock ∧
      (fwStaged t).state = (if le b 0 4 + (b.drop 8).length = le b 4 4 then .complete else .partial_) ∧
      answered p 0xCA01 0 [] s t := by
  obtain ⟨r, hok⟩ := exec_transferFirmware_ok h
  have hu : fwTransfer p (le b 0 4) (le b 4 4) (b.drop 8) (s.setRegs r) = ok (fwAppend (le b 0 4) (le b 4 4) (b.drop 8) (s.setRegs r)) := by
    rw [fwTransfer_inRange (s := s.setRegs r) hown hr, if_neg (by simpa using hne), if_neg]
    simp only [Bool.or_eq_true, bne_iff_ne]
    rintro (((hw | hw) | hw) | hw)
    exacts [hw howner, hw hpart, hw hbytes, hw htot]
  obtain ⟨krun, kowner, -, kmbx⟩ := fwAppend_fwKept (le b 0 4) (le b 4 4) (b.drop 8) (s.setRegs r)
  obtain ⟨hdata, hstate, hlast⟩ := fwAppend_staged (le b 0 4) (le b 4 4) (b.drop 8) (s.setRegs r)
  have hm := mbxAnswer_mbxOnly p 0xCA01 0 [] (fwAppend (le b 0 4) (le b 4 4) (b.drop 8) (s.setRegs r))
  refine ⟨_, hok _ hu, ((hm.of_ctl (·.fwOwner)).trans kowner).trans howner, by rw [hm.fwStaged, hdata]; rfl, hm.fwRun.trans krun,
    (hm.of_ctl (·.fwLast)).trans hlast, ?_, mbxAnswer_answered p _ _ _ (by rw [kmbx, mbxOf_setRegs])⟩
  obtain ⟨-, -, hend, -⟩ := hr
  rw [hm.fwStaged, hstate]
  by_cases hlt : le b 0 4 + (b.drop 8).length < le b 4 4
  · rw [if_pos hlt, if_neg (Nat.ne_of_lt hlt)]
  · rw [if_neg hlt, if_pos (Nat.le_antisymm hend (Nat.not_lt.mp hlt))]

/-! Activation (R384, R385). -/

theorem le_withAction_action {a : Nat} (ha : a < 2) (b : List Byte) : le (withAction a b) 0 1 = a := by
  obtain rfl | rfl : a = 0 ∨ a = 1 := by omega
  · rfl
  · rfl

theorem le_withAction_rest (a : Nat) (b : List Byte) : le (withAction a b) 1 3 = le b 1 3 := rfl

theorem fwCheck_ne_rcNone (s : State) : fwCheck s ≠ rcNone := by
  simp only [fwCheck]
  repeat' split
  all_goals decide

/-- R384: what a staged image that passes its checks has. -/
theorem fwCheck_passes {s : State} (h : fwCheck s = 0) :
    (fwStaged s).forB1 = true ∧ tallyVal s 0 ≤ (fwStaged s).svn.toNat ∧
      ((fwStaged s).sigOk = true ∨ (s.ctl.life = .debugUnlocked ∧ s.ctl.authDigest = some (fwStaged s).digest)) := by
  simp only [fwCheck] at h
  split at h
  · exact absurd h (by decide)
  · next h1 =>
    split at h
    · exact absurd h (by decide)
    · next h2 =>
      split at h
      · exact absurd h (by decide)
      · next h3 =>
        simp only [Bool.or_eq_true, Bool.and_eq_true, Bool.not_eq_true', not_or, not_and, beq_iff_eq, Bool.not_eq_false] at h1 h2
        refine ⟨h1.2, Nat.not_lt.mp h3, ?_⟩
        by_cases hs : (fwStaged s).sigOk = true
        · exact .inl hs
        · right
          have := h2 (by simpa using hs)
          simpa using this

/-- The state in which a mailbox runs an activation in the background. -/
def activating (a : Nat) (p : MbxPort) (s : State) : State :=
  modMbx p (fun m => { m with bg := some { opcode := 0xCA02, result := 0, recs := 0, arg := a }, bgOpcode := 0xCA02, bgPercent := 0 }) s

theorem yActivateFirmware_busy {a : Nat} (ha : a < 2) {p : MbxPort} {b : List Byte} {s : State} (hb : le b 1 3 = 0)
    (h : anyBg s = true ∨ s.ctl.fwActivating.isSome = true) :
    yActivateFirmware p (withAction a b) s = errAns rcBusy s := by
  rw [yActivateFirmware, le_withAction_action ha, le_withAction_rest, hb, if_neg (by simpa using ha), if_pos (by simpa using h)]

theorem yActivateFirmware_checked {a : Nat} (ha : a < 2) {p : MbxPort} {b : List Byte} {s : State} (hb : le b 1 3 = 0)
    (hbg : anyBg s = false) (hact : s.ctl.fwActivating = none) :
    yActivateFirmware p (withAction a b) s =
      if fwCheck s = 0 then ⟨rcStarted, [], fwActivate (a == 0) p (activating a p s)⟩ else errAns (fwCheck s) s := by
  rw [yActivateFirmware, le_withAction_action ha, le_withAction_rest, hb, if_neg (by simpa using ha), if_neg (by simp [hbg, hact])]
  rcases hc : fwCheck s with _ | n
  · rfl
  · rfl

/-- ACTIVATE_FIRMWARE that its mailbox takes: BUSY, refused by a check, or begun. -/
theorem yciRun_activate {a : Nat} (ha : a < 2) {p : MbxPort} {b : List Byte} {s : State} (hb : le b 1 3 = 0)
    (h : yciTaken 0xCA02 p (withAction a b) s = true) :
    (anyBg s = true ∨ s.ctl.fwActivating.isSome = true →
      yciRun 0xCA02 yActivateFirmware p (withAction a b) s = answerOnly 0xCA02 p (withAction a b) 0x6 [] s) ∧
    (anyBg s = false → s.ctl.fwActivating = none →
      (fwCheck s ≠ 0 → yciRun 0xCA02 yActivateFirmware p (withAction a b) s = answerOnly 0xCA02 p (withAction a b) (fwCheck s) [] s) ∧
      (fwCheck s = 0 → ∃ r, yciRun 0xCA02 yActivateFirmware p (withAction a b) s =
        mbxAnswer p 0xCA02 1 [] (fwActivate (a == 0) p (activating a p (s.setRegs r))))) := by
  obtain ⟨r, hr⟩ := yciNoted_setRegs 0xCA02 p (withAction a b) s
  refine ⟨fun hbusy => yciRun_err h (by decide) ?_, fun hbg hact => ⟨fun hc => yciRun_err h (fwCheck_ne_rcNone s) ?_,
    fun hc => ⟨r, yciRun_answers h (by decide) ?_⟩⟩⟩
  · rw [hr]; exact yActivateFirmware_busy (s := s.setRegs r) ha hb hbusy
  · rw [hr, yActivateFirmware_checked (s := s.setRegs r) ha hb hbg hact]; exact if_neg hc
  · rw [hr, yActivateFirmware_checked (s := s.setRegs r) ha hb hbg hact]; exact if_pos hc

theorem mbxOf_fwActivate (online : Bool) (p q : MbxPort) (s : State) : mbxOf (fwActivate online p s) q = mbxOf s q := by
  rw [fwActivate, modStaged_eq]
  cases online <;> cases q <;> rfl

theorem mbxOf_activating (a : Nat) (p : MbxPort) (s : State) (r : Tab (BitVec 32)) : mbxOf (activating a p (s.setRegs r)) p =
    { mbxOf s p with bg := some { opcode := 0xCA02, result := 0, recs := 0, arg := a }, bgOpcode := 0xCA02, bgPercent := 0 } := by
  rw [activating, mbxOf_modMbx_same, mbxOf_setRegs]

theorem answer_bg (p : MbxPort) (rc : Nat) (out : List Byte) (free : Nat) (m : Mailbox) : (m.answer p rc out free).bg = m.bg := by
  cases p <;> rfl

theorem fwActivate_online (p : MbxPort) (s : State) :
    (fwActivate true p s).ctl.fwRunning = 1 - s.ctl.fwRunning ∧ (fwActivate true p s).ctl.cpuUp = false ∧
    (fwActivate true p s).ctl.fwActivating = some s.clock ∧ (fwActivate true p s).pur = s.pur ∧ (fwActivate true p s).led = s.led ∧
    (fwActivate true p s).so = s.so ∧ (fwActivate true p s).mov = s.mov := by
  rw [fwActivate, modStaged_eq]
  exact ⟨rfl, rfl, rfl, rfl, rfl, rfl, rfl⟩

theorem fwActivate_atReset (p : MbxPort) (s : State) :
    (fwActivate false p s).ctl.fwRunning = s.ctl.fwRunning ∧ (fwActivate false p s).ctl.fwAtReset = true ∧
    (fwActivate false p s).ctl.cpuUp = s.ctl.cpuUp ∧ (fwStaged (fwActivate false p s)).state = .verified := by
  refine ⟨?_, rfl, ?_, ?_⟩
  · rw [fwActivate, modStaged_eq]; rfl
  · rw [fwActivate, modStaged_eq]; rfl
  · show (fwStaged (modStaged (fun f => { f with state := .verified }) s)).state = .verified
    rw [fwStaged_modStaged]

theorem activating_mbxOnly (a : Nat) (p : MbxPort) (s : State) (r : Tab (BitVec 32)) : MbxOnly s (activating a p (s.setRegs r)) :=
  modMbx_mbxOnly p _ (s.setRegs r)

theorem activating_clock (a : Nat) (p : MbxPort) (s : State) (r : Tab (BitVec 32)) : (activating a p (s.setRegs r)).clock = s.clock := by
  cases p <;> rfl

/-- An activation that has begun is answered BACKGROUND_STARTED and runs on its mailbox. -/
theorem activate_answered (online : Bool) (a : Nat) (p : MbxPort) (s : State) (r : Tab (BitVec 32)) :
    let t := mbxAnswer p 0xCA02 1 [] (fwActivate online p (activating a p (s.setRegs r)))
    (mbxOf t p).bg.map (·.opcode) = some 0xCA02 ∧ answered p 0xCA02 1 [] s t := by
  constructor
  · rw [mbxOf_mbxAnswer, answer_bg, mbxOf_fwActivate, mbxOf_activating]; rfl
  · exact mbxAnswer_answered p _ _ _ (by rw [mbxOf_fwActivate, mbxOf_activating])

/-- The processors restart into the other image (R385). -/
theorem activateOnline_begun (p : MbxPort) (s : State) (r : Tab (BitVec 32)) :
    let t := mbxAnswer p 0xCA02 1 [] (fwActivate true p (activating 0 p (s.setRegs r)))
    t.ctl.fwRunning = 1 - s.ctl.fwRunning ∧ t.ctl.cpuUp = false ∧ t.ctl.fwActivating = some s.clock ∧
      (mbxOf t p).bg.map (·.opcode) = some 0xCA02 ∧ answered p 0xCA02 1 [] s t ∧ t.pur = s.pur ∧ t.led = s.led ∧ t.so = s.so ∧
      t.mov = s.mov := by
  have hm := mbxAnswer_mbxOnly p 0xCA02 1 [] (fwActivate true p (activating 0 p (s.setRegs r)))
  have hact := activating_mbxOnly 0 p s r
  obtain ⟨hrun, hcpu, hat, hpur, hled, hso, hmov⟩ := fwActivate_online p (activating 0 p (s.setRegs r))
  obtain ⟨hbg, hans⟩ := activate_answered true 0 p s r
  refine ⟨?_, (hm.of_ctl (·.cpuUp)).trans hcpu, ?_, hbg, hans, ?_⟩
  · rw [hm.of_ctl (·.fwRunning), hrun, hact.of_ctl (·.fwRunning)]
  · rw [hm.of_ctl (·.fwActivating), hat, activating_clock]
  · obtain ⟨-, -, mled, mpur, mso, mmov⟩ := hm
    obtain ⟨-, -, aled, apur, aso, amov⟩ := hact
    exact ⟨(mpur.trans hpur).trans apur, (mled.trans hled).trans aled, (mso.trans hso).trans aso, (mmov.trans hmov).trans amov⟩

/-- The image waits for the next device reset (R385). -/
theorem activateAtReset_begun (p : MbxPort) (s : State) (r : Tab (BitVec 32)) :
    let t := mbxAnswer p 0xCA02 1 [] (fwActivate false p (activating 1 p (s.setRegs r)))
    t.ctl.fwRunning = s.ctl.fwRunning ∧ t.ctl.fwAtReset = true ∧ t.ctl.cpuUp = s.ctl.cpuUp ∧ (fwStaged t).state = .verified ∧
      answered p 0xCA02 1 [] s t := by
  have hm := mbxAnswer_mbxOnly p 0xCA02 1 [] (fwActivate false p (activating 1 p (s.setRegs r)))
  have hact := activating_mbxOnly 1 p s r
  obtain ⟨hrun, hreset, hcpu, hstate⟩ := fwActivate_atReset p (activating 1 p (s.setRegs r))
  refine ⟨?_, (hm.of_ctl (·.fwAtReset)).trans hreset, ?_, by rw [hm.fwStaged, hstate], (activate_answered false 1 p s r).2⟩
  · rw [hm.of_ctl (·.fwRunning), hrun, hact.of_ctl (·.fwRunning)]
  · rw [hm.of_ctl (·.cpuUp), hcpu, hact.of_ctl (·.cpuUp)]

/-! The end of an activation (R385, R376). -/

theorem fwBgFinish_mbxOnly (rc : Nat) (s : State) : MbxOnly s (fwBgFinish rc s) :=
  forEach_allMbx_mbxOnly (fun p s => fwEnd_mbxOnly rc p s) s

theorem fwBgFinish_declared (rc : Nat) (s : State) (p : MbxPort) : (mbxOf (fwBgFinish rc s) p).declared = (mbxOf s p).declared :=
  mbxOf_forEach_allMbx (fwEnd rc) (·.declared) (fun _ d => d) (fun _ _ hq s => mbxOf_fwEnd_ne hq rc s) (fun _ _ => rfl)
    (fun p s => fwEnd_declared rc p s) s p

theorem versionChecks_declared (s : State) (p : MbxPort) :
    (mbxOf (forEach allMbx versionCheck s) p).declared = declaredUnder s.ctl.versions (mbxOf s p).declared :=
  mbxOf_forEach_allMbx versionCheck (·.declared) (fun s d => declaredUnder s.ctl.versions d) (fun _ _ hq s => mbxOf_versionCheck_ne hq s)
    (fun p s => by rw [(versionCheck_mbxOnly p s).of_ctl (·.versions)]) versionCheck_declared s p

theorem fwBgFinish_ended {p : MbxPort} {s : State} {c : BgCmd} (hbg : (mbxOf s p).bg = some c) (hop : c.opcode = 0xCA02) (harg : c.arg = 0)
    (rc : Nat) : mbxOf (fwBgFinish rc s) p = (mbxOf s p).ended rc := by
  rw [fwBgFinish_eq, forEach_allMbx]
  cases p with
  | a => rw [mbxOf_fwEnd_ne (by decide), mbxOf_fwEnd_ne (by decide), fwEnd_ended hbg hop harg]
  | b => rw [mbxOf_fwEnd_ne (by decide), fwEnd_ended (by rw [mbxOf_fwEnd_ne (by decide), hbg]) hop harg, mbxOf_fwEnd_ne (by decide)]
  | board =>
    rw [fwEnd_ended (by rw [mbxOf_fwEnd_ne (by decide), mbxOf_fwEnd_ne (by decide), hbg]) hop harg, mbxOf_fwEnd_ne (by decide),
      mbxOf_fwEnd_ne (by decide)]

theorem fwBgFinish_revertedPends (rc : Nat) {s : State} (hp : Pends 8 1 0x03 s) : Pends 8 1 0x03 (fwBgFinish rc s) :=
  fwEnd_revertedPends rc .board (fwEnd_revertedPends rc .b (fwEnd_revertedPends rc .a hp))

/-- The state in which the new image's firmware answers. -/
def fwAnswers (v : BitVec 3) (s : State) : State :=
  s.modCtl fun c => { c with fwActivating := none, fwBy := none, fwActAt := some s.clock, fwOwner := none, versions := v, cpuUp := true }

/-- R376, R136: with the mailboxes' versions checked and the image's drift tables stored. -/
def fwServes (v : BitVec 3) (s : State) : State :=
  let u := forEach allMbx versionCheck (fwAnswers v s)
  if (fwRun u).sigOk then driftStore (fwRun u).data u else u

theorem driftStore_mbxOnly (d : List Byte) (s : State) : MbxOnly s (driftStore d s) := ⟨rfl, rfl, rfl, rfl, rfl, rfl⟩

theorem fwServes_mbxOnly (v : BitVec 3) (s : State) : MbxOnly (fwAnswers v s) (fwServes v s) := by
  have hv : MbxOnly (fwAnswers v s) (forEach allMbx versionCheck (fwAnswers v s)) := forEach_allMbx_mbxOnly versionCheck_mbxOnly _
  simp only [fwServes]
  split
  · exact hv.trans (driftStore_mbxOnly _ _)
  · exact hv

theorem fwServes_declared (v : BitVec 3) (s : State) (p : MbxPort) :
    (mbxOf (fwServes v s) p).declared = declaredUnder v (mbxOf s p).declared := by
  have hv : (mbxOf (forEach allMbx versionCheck (fwAnswers v s)) p).declared = declaredUnder v (mbxOf s p).declared := by
    rw [versionChecks_declared]
    cases p <;> rfl
  simp only [fwServes]
  split
  · rw [← hv]; cases p <;> rfl
  · exact hv

theorem exec_fwActivated {at_ : Nat} {s : State} (hact : s.ctl.fwActivating = some at_) (v : BitVec 3) :
    exec (.fwActivated v) s = .next (if 2000000000 + at_ ≤ s.clock then s
      else fwBgFinish 0 (raise 8 1 0x02 (det3 (fwRun (fwServes v s)).version.toNat (fwRun (fwServes v s)).svn.toNat) (fwServes v s))) := by
  show execFwActivated v s = _
  rw [execFwActivated, hact]
  rfl

/-- FW_ACTIVATED within 2 s. -/
theorem fwActivated_spec {at_ : Nat} {s : State} (hact : s.ctl.fwActivating = some at_) (hin : s.clock < 2000000000 + at_) (v : BitVec 3) :
    ∃ t, exec (.fwActivated v) s = .next t ∧ t.ctl.fwActivating = none ∧
      t.ctl.versions = v ∧ t.ctl.cpuUp = true ∧ t.ctl.fwRunning = s.ctl.fwRunning ∧ t.ctl.fwOwner = none ∧
      (∀ p, (mbxOf t p).declared = declaredUnder v (mbxOf s p).declared) ∧ t.pur = s.pur ∧ t.led = s.led ∧ t.med = s.med := by
  have hexec := exec_fwActivated hact v
  rw [if_neg (Nat.not_le.mpr hin)] at hexec
  have hn := raise_noted 8 1 0x02 (det3 (fwRun (fwServes v s)).version.toNat (fwRun (fwServes v s)).svn.toNat) (fwServes v s)
  have hm := ((fwServes_mbxOnly v s).trans hn.mbxOnly).trans (fwBgFinish_mbxOnly 0 _)
  refine ⟨_, hexec, hm.of_ctl (·.fwActivating), hm.of_ctl (·.versions), hm.of_ctl (·.cpuUp), hm.of_ctl (·.fwRunning),
    hm.of_ctl (·.fwOwner), fun p => ?_, ?_⟩
  · rw [fwBgFinish_declared, hn.mbxOf, fwServes_declared]
  · obtain ⟨-, hmed, hled, hpur, -, -⟩ := hm
    exact ⟨hpur, hled, hmed⟩

/-- The state in which the previous image runs again. -/
def fwBack (s : State) : State :=
  s.modCtl fun c => { c with fwActivating := none, fwBy := none, fwRunning := 1 - c.fwRunning, cpuUp := true }

theorem exec_fwReverted {at_ : Nat} {s : State} (hact : s.ctl.fwActivating = some at_) :
    exec .fwReverted s = .next (if s.clock < 2000000000 + at_ then s
      else fwBgFinish rcInternal (raise 8 1 0x03 (det3 (fwRun (fwBack s)).version.toNat 0) (fwBack s))) := by
  show execFwReverted s = _
  rw [execFwReverted, hact]
  rfl

/-- FW_REVERTED after 2 s. -/
theorem fwReverted_spec {at_ : Nat} {s : State} (hact : s.ctl.fwActivating = some at_) (hout : 2000000000 + at_ ≤ s.clock) :
    ∃ t, exec .fwReverted s = .next t ∧ t.ctl.fwActivating = none ∧
      t.ctl.versions = s.ctl.versions ∧ t.ctl.cpuUp = true ∧ t.ctl.fwRunning = 1 - s.ctl.fwRunning ∧ Pends 8 1 0x03 t ∧
      (∀ p c, (mbxOf s p).bg = some c → c.opcode = 0xCA02 → c.arg = 0 → mbxOf t p = (mbxOf s p).ended rcInternal) ∧
      t.pur = s.pur ∧ t.led = s.led := by
  have hexec := exec_fwReverted hact
  rw [if_neg (Nat.not_lt.mpr hout)] at hexec
  have hn := raise_noted 8 1 0x03 (det3 (fwRun (fwBack s)).version.toNat 0) (fwBack s)
  have hm := hn.mbxOnly.trans (fwBgFinish_mbxOnly rcInternal _)
  have hback : ∀ p, mbxOf (fwBack s) p = mbxOf s p := fun p => by cases p <;> rfl
  refine ⟨_, hexec, hm.of_ctl (·.fwActivating), hm.of_ctl (·.versions), hm.of_ctl (·.cpuUp), hm.of_ctl (·.fwRunning), ?_, ?_, ?_⟩
  · exact fwBgFinish_revertedPends _ (raise_pends_low 8 1 0x03 _ _ (by decide) (by decide) (by decide))
  · intro p c hbg hop harg
    rw [fwBgFinish_ended (by rw [hn.mbxOf, hback, hbg]) hop harg, hn.mbxOf, hback]
  · obtain ⟨-, -, hled, hpur, -, -⟩ := hm
    exact ⟨hpur, hled⟩

theorem exec_fwSlotIdleTimeout (s : State) :
    exec .fwSlotIdleTimeout s = .next (if s.ctl.fwOwner.isSome = true ∧ 60000000000 + s.ctl.fwLast ≤ s.clock then
      s.modCtl fun c => { c with fwOwner := none } else s) := by
  show execFwSlotIdleTimeout s = _
  simp only [execFwSlotIdleTimeout, Bool.and_eq_true, decide_eq_true_eq]

/-! The rollback floor (R386, R458, R459). -/

theorem le_toLE4 {u : Nat} (h : u < 2 ^ 32) : le (toLE 4 u) 0 4 = u := by
  simp [le, toLE]; omega

/-- A page write that waits or is being written stays so when the store takes its next. -/
theorem mem_pageStart {w : PageWrite} {s : State} (h : w ∈ s.pb.writing.toList ++ s.pb.writes) :
    w ∈ (pageStart s).pb.writing.toList ++ (pageStart s).pb.writes := by
  simp only [pageStart]
  split
  · exact h
  · next hfree =>
    have hnone : s.pb.writing = none := by
      cases hw : s.pb.writing with
      | none => rfl
      | some x => simp [hw] at hfree
    have hw : w ∈ s.pb.writes := by simpa [hnone] using h
    split
    · next x _ =>
      split
      · exact h
      · by_cases hx : w = x
        · exact List.mem_append_left _ (by simp [State.modPb, hx])
        · exact List.mem_append_right _ ((List.mem_erase_of_ne hx).mpr hw)
    · split
      · exact h
      · exact h

theorem mem_pageQueue (cls addr : Nat) (data : List Byte) (principal : Nat) (s : State) :
    ({ cls := cls, addr := addr, data := data, principal := principal } : PageWrite) ∈
      (pageQueue cls addr data principal s).pb.writing.toList ++ (pageQueue cls addr data principal s).pb.writes :=
  mem_pageStart (List.mem_append_right _ (List.mem_append_right _ (List.mem_singleton.mpr rfl)))

theorem tallyVal_of_queued {s t : State} (h : Queued s t) (c : Nat) : tallyVal t c = tallyVal s c := by
  have htally : t.pb.tally = s.pb.tally := show t.pb.idle.tally = s.pb.idle.tally by rw [h.pb]
  have hbad : t.pb.tallyBad = s.pb.tallyBad := show t.pb.idle.tallyBad = s.pb.idle.tallyBad by rw [h.pb]
  simp only [tallyVal, htally, hbad]

/-- The running image's SVN as the floor to come. -/
def floorOf (s : State) : Nat := (fwRun s).svn.toNat

/-- The state in which a mailbox waits for the floor's advance. -/
def floorWaits (p : MbxPort) (s : State) : State :=
  modMbx p (fun m => { m with busy := some { opcode := 0xCA04, result := 0, recs := 0, arg := floorOf s }, busySince := s.clock }) s

theorem floorOf_lt (s : State) : floorOf s < 2 ^ 16 := (fwRun s).svn.isLt

theorem tallyVal_floorWaits (p : MbxPort) (s : State) (c : Nat) : tallyVal (floorWaits p s) c = tallyVal s c := by cases p <;> rfl

/-- An advance that is not refused queues its page write. -/
theorem tallyAdvance_floor {p : MbxPort} {s : State} (h : tallyRefused s 0 (floorOf s) = false) :
    tallyAdvance 0 (floorOf s) (floorWaits p s) =
      pageQueue 3 (0x110000 + 4 * (floorOf s % 512)) (toLE 4 (floorOf s)) 0 (floorWaits p s) := by
  have hlt := floorOf_lt s
  have hmin : min (floorOf s) 0xFFFFFFFF = floorOf s := Nat.min_eq_left (by omega)
  have href : tallyRefused (floorWaits p s) 0 (floorOf s) = false := by
    rw [tallyRefused, tallyVal_floorWaits]; exact h
  simp only [tallyAdvance, hmin]
  rw [if_neg (ne_true_of_eq_false href)]

theorem yCommitRollbackFloor_early {p : MbxPort} {b : List Byte} {s : State} {a : Nat} (ha : s.ctl.fwActAt = some a)
    (hc : s.clock < 60000000000 + a) : yCommitRollbackFloor p b s = errAns rcInvalid s := by
  rw [yCommitRollbackFloor, ha, Option.elim_some, if_pos (by simpa using hc)]

theorem yCommitRollbackFloor_late {p : MbxPort} {b : List Byte} {s : State} (h : ∀ a, s.ctl.fwActAt = some a → 60000000000 + a ≤ s.clock) :
    yCommitRollbackFloor p b s =
      if tallyRefused s 0 (floorOf s) then ok s else ⟨rcNone, [], tallyAdvance 0 (floorOf s) (floorWaits p s)⟩ := by
  rw [yCommitRollbackFloor]
  refine if_neg ?_
  cases ha : s.ctl.fwActAt with
  | none => simp
  | some a => simpa using h a ha

/-- COMMIT_ROLLBACK_FLOOR of a floor that is not there yet. -/
theorem commitRollbackFloor_queues {p : MbxPort} {b : List Byte} {s : State} (h : yciTaken 0xCA04 p b s = true)
    (hlate : ∀ a, s.ctl.fwActAt = some a → 60000000000 + a ≤ s.clock) (href : tallyRefused s 0 (floorOf s) = false) :
    ∃ t, exec (.commitRollbackFloor p b) s = .next t ∧
      (mbxOf t p).busy.map (·.opcode) = some 0xCA04 ∧ tallyVal t 0 = tallyVal s 0 ∧
      (∃ w ∈ t.pb.writing.toList ++ t.pb.writes, w.addr = 0x110000 + 4 * (floorOf s % 512) ∧ le w.data 0 4 = floorOf s) := by
  obtain ⟨r, hr⟩ := yciNoted_setRegs 0xCA04 p b s
  have hbody : yCommitRollbackFloor p b (yciNoted 0xCA04 p b s) =
      ⟨rcNone, [], pageQueue 3 (0x110000 + 4 * (floorOf s % 512)) (toLE 4 (floorOf s)) 0 (floorWaits p (s.setRegs r))⟩ := by
    rw [hr, yCommitRollbackFloor_late (s := s.setRegs r) hlate, tallyAdvance_floor (s := s.setRegs r) href]
    exact if_neg (ne_true_of_eq_false href)
  have hq := pageQueue_queued 3 (0x110000 + 4 * (floorOf s % 512)) (toLE 4 (floorOf s)) 0 (floorWaits p (s.setRegs r))
  refine ⟨_, congrArg Host.Outcome.next (yciRun_later h hbody), ?_, ?_, _, mem_pageQueue _ _ _ _ _, rfl, ?_⟩
  · rw [hq.mbxOf, floorWaits, mbxOf_modMbx_same]; rfl
  · rw [tallyVal_of_queued hq, tallyVal_floorWaits]; rfl
  · have hlt := floorOf_lt s
    exact le_toLE4 (by omega)

/-- Settles O52: each command and event through the lemma that says what it does to the slots, the mailboxes and the store. -/
theorem firmwareCommands : Obligations.FirmwareCommands := by
  unfold Obligations.FirmwareCommands
  refine ⟨fun p b s h => ?transfer, fun p b s hb => ⟨fun h => ?online, fun h => ?atReset⟩, fun s hc => fwCheck_passes hc,
    fun v s => ⟨fun hnone => ?idle, fun at_ hact => ⟨fun hin => ?activated, fun hout => ?reverted⟩⟩, exec_fwSlotIdleTimeout,
    fun p b s h => ?floor⟩
  case transfer =>
    have hlen : (b.drop 8).length = b.length - 8 := List.length_drop
    rw [← hlen]
    refine ⟨fun hown => exec_transferFirmware_err h (by decide) fun r => fwTransfer_owned (s := s.setRegs r) hown, fun hown =>
      ⟨fun hbad => exec_transferFirmware_err h (by decide) fun r => fwTransfer_outOfRange (s := s.setRegs r) hown hbad,
        fun htotal hoff hend hlast => ?_⟩⟩
    have hr : FwInRange (le b 0 4) (le b 4 4) (b.drop 8).length := ⟨htotal, hoff, hend, hlast⟩
    exact ⟨fun h0 => transferFirmware_first h hown h0 hr, fun hne hwrong => transferFirmware_refused h hown hne hr hwrong,
      fun hne howner hpart hbytes htot => transferFirmware_next h hown hne hr howner hpart hbytes htot⟩
  case online =>
    obtain ⟨hbusy, hfree⟩ := yciRun_activate (by decide) hb h
    refine ⟨fun hbg => congrArg Host.Outcome.next (hbusy hbg), fun hbg hact =>
      ⟨fun hc => congrArg Host.Outcome.next ((hfree hbg hact).1 hc), fun hc => ?_⟩⟩
    obtain ⟨r, hrun⟩ := (hfree hbg hact).2 hc
    exact ⟨_, congrArg Host.Outcome.next hrun, activateOnline_begun p s r⟩
  case atReset =>
    obtain ⟨hbusy, hfree⟩ := yciRun_activate (by decide) hb h
    refine ⟨fun hbg => congrArg Host.Outcome.next (hbusy hbg), fun hbg hact =>
      ⟨fun hc => congrArg Host.Outcome.next ((hfree hbg hact).1 hc), fun hc => ?_⟩⟩
    obtain ⟨r, hrun⟩ := (hfree hbg hact).2 hc
    exact ⟨_, congrArg Host.Outcome.next hrun, activateAtReset_begun p s r⟩
  case idle =>
    constructor
    · show execFwActivated v s = _
      rw [execFwActivated, hnone]
    · show execFwReverted s = _
      rw [execFwReverted, hnone]
  case activated =>
    refine ⟨by rw [exec_fwReverted hact, if_pos hin], ?_⟩
    obtain ⟨t, hexec, hend, hver, hcpu, hrun, howner, hdecl, hpur, hled, hmed⟩ := fwActivated_spec hact hin v
    refine ⟨t, hexec, hend, hver, hcpu, hrun, howner, fun p => ?_, hpur, hled, hmed⟩
    rw [hdecl]
    exact declaredUnder_spec v (mbxOf s p).declared
  case reverted =>
    refine ⟨by rw [exec_fwActivated hact, if_pos hout], ?_⟩
    obtain ⟨t, hexec, hend, hver, hcpu, hrun, hpend, hbg, hpur, hled⟩ := fwReverted_spec hact hout
    refine ⟨t, hexec, hend, hver, hcpu, hrun, hpend, fun p c hc hop harg => ?_, hpur, hled⟩
    rw [hbg p c hc hop harg]
    exact ⟨rfl, rfl⟩
  case floor =>
    obtain ⟨r, hr⟩ := yciNoted_setRegs 0xCA04 p b s
    refine ⟨fun ⟨a, ha, hc⟩ => congrArg Host.Outcome.next (yciRun_err h (by decide) (by rw [hr]; exact yCommitRollbackFloor_early ha hc)),
      fun hlate => ⟨fun href => congrArg Host.Outcome.next (yciRun_err h (by decide) ?_), fun href => commitRollbackFloor_queues h hlate href⟩⟩
    rw [hr, yCommitRollbackFloor_late (s := s.setRegs r) hlate]
    exact if_pos href

end Sys2Proof.Machine
end

section
/-! A mover's write with a planned split of a pair (R402, R415): the mover waits for room in the mirror buffer in a state that
Safety.idleFor admits, because it asks the pair's state and Safety.idleFor the strap of Port B. -/

namespace Sys2Proof.Machine

open Sys2Proof

/-- A decoder of Port A over the first gibibyte of device memory. -/
def lowDecoder : Decoder :=
  { base := 0, size := 2 ^ 30, ways := 1, gran := 256, target := 0, kpos := 40, dpaBase := 0, dpaSize := 2 ^ 30, bi := false,
    sbox := false }

/-- Memory active on a head at CXL 3.1 with that decoder, the firmware up, folio 0 blank-mapped, and line 0's counter block in the
counter cache. -/
def lowState : State :=
  let s := State.reset.modCtl fun c => { c with cpuUp := true }
  let s := s.modLed fun l => { l with recovered := true, memActive := true, entries := [(0, blankMapped)] }
  let s := s.modSup fun u => { u with state := .on, inReset := false }
  let s := s.modPur fun u => { u with ready := true, lossAccepted := true }
  let s := s.modFe fun f => { f with portA := { f.portA with level := .cxl31, rate := 6, width := 16, decoders := [(0, some lowDecoder)] } }
  s.modCry fun c => { c with cache := [(blockOf 0 % max 1 (sc s),
    { block := blockOf 0, valid := true, dirty := false, sealed_ := false, ctr := ctr0 })] }

/-- Where host address 0 leads. -/
def lowTarget : Target := { dpa := 0, key := 0, inside := true, sbox := false, bi := false }

/-- A fetched FILL of line 0. -/
def fillDesc : Desc := { (default : Desc) with idx := 2, raw := BitVec.ofNat 512 (2 + 256 * 2 ^ 192), stage := .fetched }

/-- A running queue of Port A that holds it. -/
def fillQueue : Queue :=
  { (default : Queue) with head := .a, sqLog2 := 4, cqLog2 := 4, sqTail := 3, cqUsed := 2, cqTail := 5, cqHead := 3, cqBase := 0x1000,
                           engine := 0, grants := BitVec.allOnes 128, descs := [fillDesc], state := .running, phase := true }

/-- Memory active as above, queue 1 with the FILL, and a joined pair whose split is planned, with Port B's strap at no pair. -/
def splitState : State :=
  (lowState.modPair fun p => { p with state := .joined, splitPlanned := true }).modMov fun m => { m with queues := [(1, some fillQueue)] }

/-- The statement's hypotheses hold of a FILL of line 0. -/
theorem splitState_takes :
    takesReads splitState .a = true ∧ decodeHpa splitState .a 0 = some lowTarget ∧ ideBlocks splitState .a = false ∧
    idleFor splitState .a 0 0 = true ∧ splitState.pur.waitQ = [] := ⟨rfl, rfl, rfl, rfl, rfl⟩

/-- The FILL names the whole of line 0 under its key ID and may run, and it leaves queue 1 with no descriptor that is done. -/
theorem splitState_fill :
    (fillDesc.dstHost = false ∧ fillDesc.dstSet = none ∧ fillDesc.dstKey = 0 ∧ fillDesc.dst = 0 ∧ fillDesc.len = 256) ∧
    descReady splitState 1 2 2 fillQueue fillDesc = true ∧
    ((queueAt (stOf (exec (.fill 1 2 4) splitState) splitState) 1).all fun y => y.descs.all fun e => e.stage != .done) = true := by
  decide +kernel

/-- Refutes O42: a joined pair whose split is planned holds the mover's write back whatever Port B's strap says, so the FILL does
not end. It fails for want of the hypothesis that the mirror buffer has room. -/
theorem not_moverDataReachesTheHost : ¬ Obligations.MoverDataReachesTheHost := by
  unfold Obligations.MoverDataReachesTheHost
  intro hmover
  obtain ⟨htakes, hdecode, hide, hidle, hwait⟩ := splitState_takes
  obtain ⟨⟨hhost, hset, hkey, hdst, hlen⟩, hready, hnone⟩ := splitState_fill
  obtain ⟨hwrites, -, -⟩ :=
    hmover .a 0 0 false lowTarget 1 2 fillQueue fillDesc [] splitState htakes hdecode rfl rfl hide hidle hwait
  obtain ⟨t, hexec, ⟨y, e, hqueue, hmem, -, -, hstage, -⟩, -⟩ := (hwrites hhost hset hkey hdst hlen).1 hready
  rw [hexec, show stOf (.next t) splitState = t from rfl, hqueue] at hnone
  have hopen := List.all_eq_true.mp hnone e hmem
  rw [hstage] at hopen
  exact Bool.false_ne_true hopen

end Sys2Proof.Machine
end

section
/-! The scan of a lost slot whose ring entry is of an older generation of its line's folio (R232): the slot is left invalid. -/

namespace Sys2Proof.Machine

open Sys2Proof

/-- Slot 0 of the till is lost, and a ring names line 0 in it, under generation 1 of a folio that is at generation 0. -/
def staleRingState : State :=
  State.reset.modPur fun u => { u with lostSlots := [(0, 0, 0)], exRing := [{ lineNo := 0, gen6 := 1, time := 0 }] }

/-- Ring entries that name the slot. -/
theorem staleRingState_ring :
    ((staleRingState.pur.exRing ++ staleRingState.pur.wbRing).filter fun r => r.lineNo % purseSlots staleRingState == 0) =
      [] ++ [{ lineNo := 0, gen6 := 1, time := 0 }] := by decide

/-- The slot is lost, and no transaction waits. -/
theorem staleRingState_lost :
    (staleRingState.pur.lostSlots.any fun e => e.1 == 0) = true ∧
    (staleRingState.fe.txns.any fun t => t.wait == .slotScan 0) = false := ⟨rfl, rfl⟩

/-- The scan leaves the slot invalid. -/
theorem staleRingState_scanned :
    (tget default (stOf (exec (.lostSlotScanDone 0) staleRingState) staleRingState).pur.slots 0).valid = false := rfl

/-- Refutes O18: the scan of a lost slot passes over a ring entry of an older generation. It fails for want of the hypothesis that
the ring entry is live: of its folio's generation, and the line's own. -/
theorem not_memoryEventsComplete : ¬ Obligations.MemoryEventsComplete := by
  unfold Obligations.MemoryEventsComplete
  rintro ⟨-, -, -, hscan, -⟩
  obtain ⟨hlost, hwait⟩ := staleRingState_lost
  obtain ⟨t, hexec, -, -, hnamed⟩ := hscan 0 staleRingState hlost hwait
  have hinvalid := staleRingState_scanned
  rw [hexec] at hinvalid
  exact Bool.false_ne_true (hinvalid.symm.trans (hnamed [] _ staleRingState_ring).1)

end Sys2Proof.Machine
end

section
/-! A drain of a bullion line to a dead die of a channel with a parity die (R131): the reads of its stripe are queued with it. -/

namespace Sys2Proof.Machine

open Sys2Proof

/-- A line of the eviction buffer that is due. -/
def evLine0 : EvLine :=
  { slice := 0, lineNo := 0, gen6 := 3, draining := false, line := { data := 0, hallmark := 0, poison := false, rewritten := 0 } }

/-- Folio 0 live in bullion on media folio 9000, whose line 0 stands on die 0 of channel 0; that die failed; line 0 in the eviction
buffer of a board that declares hold-up. -/
def deadDieState : State :=
  let s := State.reset.modLed fun l =>
    { l with recovered := true, entries := [(0, { entry0 with media := 9000, state := .live, bullion := true, gen := 3, stamp := 1 })] }
  let s := s.modSup fun u => { u with holdupDecl := 1 }
  let s := s.modInteg fun i => { i with failed := [(0, 1)] }
  (modChan 0 (fun c => { c with state := .active }) s).modPur fun u => { u with evb := [evLine0] }

/-- The buffer holds that line, which is not issued, and nothing else is in progress. -/
theorem deadDieState_idle :
    deadDieState.pur.evb = [evLine0] ∧ deadDieState.led.lost = false ∧ deadDieState.led.recovered = true ∧
    deadDieState.sup.fnBusy = [] ∧ deadDieState.led.migs = [] ∧ deadDieState.pair.rxLate = [] ∧ deadDieState.fe.txns = [] ∧
    deadDieState.mov.queues = [] ∧ deadDieState.med.ops = [] :=
  ⟨rfl, rfl, rfl, rfl, rfl, rfl, rfl, rfl, rfl⟩

/-- The line may drain to its channel, whose parity die takes it. -/
theorem deadDieState_drains :
    drainable deadDieState 0 = true ∧ (ent deadDieState (folioOf 0)).media ≠ noFolio ∧
    (ent deadDieState (folioOf 0)).state ≠ .readOnly ∧
    cannotStore deadDieState (ent deadDieState (folioOf 0)).media (0 % 8192) = false ∧
    lateFor deadDieState (ent deadDieState (folioOf 0)) = false ∧ holdupActs deadDieState = true :=
  ⟨rfl, by decide, by decide, rfl, rfl, rfl⟩

/-- DRAIN_ISSUE queues the program and the reads of the stripe's seven other lines. -/
theorem deadDieState_issued : (stOf (exec .drainIssue deadDieState) deadDieState).med.ops.length = 8 := rfl

/-- Refutes O26: the drain of a bullion line to a dead die queues the reads of its stripe with its program. It fails for want of the
hypothesis that the line's die serves it. -/
theorem not_mediaOperations : ¬ Obligations.MediaOperations := by
  unfold Obligations.MediaOperations
  rintro ⟨-, -, -, -, -, -, -, hissue, -⟩
  obtain ⟨hevb, hlost, hrec, hbusy, hmigs, hlate, htxns, hqueues, hops⟩ := deadDieState_idle
  obtain ⟨hdrain, hmedia, hro, hstore, hack, hholdup⟩ := deadDieState_drains
  obtain ⟨t, op, hexec, hone, -⟩ := hissue evLine0 [] deadDieState hevb rfl hlost hrec hbusy hmigs hlate htxns hqueues hdrain hmedia hro
    hstore hack hholdup
  have height := deadDieState_issued
  rw [hexec, show stOf (.next t) deadDieState = t from rfl, hone, hops] at height
  simp at height

end Sys2Proof.Machine
end

section
/-! A head's reset while a request of the device itself waits on that head (R48, R354): an injection of poison that waits for its
line is no request of the host's, and the reset keeps it. -/

namespace Sys2Proof.Machine

open Sys2Proof

/-- An injection of poison through Port A's mailbox that waits for the media read of its line. -/
def injectTxn : Txn :=
  { head := .a, tag := 0, write := true, lineNo := 0, sector := 0, key := 0, since := 0, wait := .miss 1, data := 0, enables := 0,
    poison := true, own := false, by_ := .inject }

/-- A device that is on, with two heads, Port A's link up, and that injection. -/
def injectState : State :=
  let s := State.reset.modSup fun u => { u with state := .on, inReset := false, portbMode := 1 }
  s.modFe fun f => { f with portA := { f.portA with level := .cxl31, rate := 3, width := 3 }, txns := [injectTxn] }

/-- Port A's link is up, and a PERST of Port A resets that head only. -/
theorem injectState_up :
    (portOf injectState .a).rate ≠ 0 ∧ headPresent injectState .a = true ∧ injectState.fe.portA.perstLow = false ∧
    resetTakes injectState = true ∧ twoHeads injectState = true ∧ injectState.fe.portB.perstLow = false :=
  ⟨by decide, rfl, rfl, rfl, rfl, rfl⟩

/-- The injection waits on after LINK_DOWN. -/
theorem injectState_linkDown : injectTxn ∈ (stOf (exec (.linkDown .a) injectState) injectState).fe.txns :=
  List.mem_of_getElem? (i := 0) rfl

/-- The injection waits on after the head's PERST. -/
theorem injectState_perst : injectTxn ∈ (stOf (exec .perstAN injectState) injectState).fe.txns :=
  List.mem_of_getElem? (i := 0) rfl

/-- A reset of head A that is no Function Level Reset leaves no request of its own waiting, as Safety says it. -/
theorem not_headWasReset_of_injectTxn {s t : State} (hmem : injectTxn ∈ t.fe.txns) : ¬ headWasReset false .a s t := by
  rintro ⟨-, -, -, -, -, -, -, -, hdrop, -⟩
  exact (hdrop rfl).2.2 injectTxn hmem rfl

/-- Refutes O53: LINK_DOWN keeps an injection of poison that waits on the head. It fails for want of the hypothesis that the head's
waiting requests are its host's. -/
theorem not_linksAndHeadResets : ¬ Obligations.LinksAndHeadResets := by
  unfold Obligations.LinksAndHeadResets
  rintro ⟨-, -, -, hresets⟩
  obtain ⟨hrate, hhead, -⟩ := injectState_up
  obtain ⟨⟨t, hexec, hreset, -⟩, -⟩ := (hresets .a injectState).2 hrate hhead
  have hmem := injectState_linkDown
  rw [hexec] at hmem
  exact not_headWasReset_of_injectTxn hmem hreset

/-- Refutes O55: with two heads, the PERST of one keeps an injection of poison that waits on it. It fails for want of the hypothesis
that the head's waiting requests are its host's. -/
theorem not_resetsAndReinits : ¬ Obligations.ResetsAndReinits := by
  unfold Obligations.ResetsAndReinits
  rintro ⟨-, hperst, -⟩
  obtain ⟨-, -, hhigh, htakes, htwo, hother⟩ := injectState_up
  obtain ⟨-, -, -, hhead⟩ := hperst injectState _ rfl
  obtain ⟨t, hexec, hreset, -⟩ := hhead hhigh htakes htwo hother
  have hmem := injectState_perst
  rw [hexec] at hmem
  exact not_headWasReset_of_injectTxn hmem hreset

end Sys2Proof.Machine
end

section
/-! Global Persistent Flush (R47, R405): the two phases of a head and their end. -/

namespace Sys2Proof.Machine

open Sys2Proof

theorem portOf_modPort_same (h : Head) (f : Port → Port) (s : State) : portOf (modPort h f s) h = f (portOf s h) := by
  cases h <;> rfl

/-- R47: no head has a write credit while a head is in a phase. -/
theorem takesWrites_of_gpf {s : State} {h : Head} (hgpf : (portOf s h).gpf ≠ 0) (x : Head) : takesWrites s x = false := by
  cases h with
  | a =>
    have hA : s.fe.portA.gpf ≠ 0 := hgpf
    simp [takesWrites, hA]
  | b =>
    have hB : s.fe.portB.gpf ≠ 0 := hgpf
    simp [takesWrites, hB]

/-- A head's phase goes up to 1, and the first of the heads marks the mirror entries of before. -/
theorem exec_gpfPhase1 {h : Head} {s : State} (henabled : memEnabled s h = true) :
    exec (.gpfPhase1 h) s = .next (modPort h (fun p => { p with gpf := max p.gpf 1 })
      (if s.fe.portA.gpf == 0 && s.fe.portB.gpf == 0 then s.modPair fun p => { p with gpfUpto := p.mirrorNext } else s)) := by
  change execGpfPhase1 h s = _
  simp [execGpfPhase1, henabled]

/-- A head's phase becomes 2, and without hold-up the till's flush starts. -/
theorem exec_gpfPhase2 {h : Head} {s : State} (henabled : memEnabled s h = true) (hphase : 1 ≤ (portOf s h).gpf) :
    exec (.gpfPhase2 h) s = .next (if holdupActs s then modPort h (fun p => { p with gpf := 2 }) s
      else (modPort h (fun p => { p with gpf := 2 }) s).modPur fun u => { u with flushing := true }) := by
  have hsame : holdupActs (modPort h (fun p => { p with gpf := 2 }) s) = holdupActs s := by cases h <;> rfl
  change execGpfPhase2 h s = _
  simp [execGpfPhase2, henabled, hphase, hsame]

/-- A head's answer to phase 2, which returns it to no phase. -/
def gpfAnswered (h : Head) (s : State) : State := send (.gpfDone h) (modPort h (fun p => { p with gpf := 0 }) s)

/-- With its conditions met and Port A in phase 2, the flush ends and the heads in phase 2 are answered. -/
theorem exec_gpfPhase2Complete {s : State} (hready : gpfReady s = true) (hA : s.fe.portA.gpf = 2) :
    exec .gpfPhase2Complete s = .next (
      let t := gpfAnswered .a (s.modPur fun u => { u with flushing := false })
      if s.fe.portB.gpf = 2 then gpfAnswered .b t else t) := by
  have hphaseA : (portOf s .a).gpf = 2 := hA
  change execGpfPhase2Complete s = _
  by_cases hB : s.fe.portB.gpf = 2
  · have hphaseB : (portOf s .b).gpf = 2 := hB
    simp [execGpfPhase2Complete, hready, hphaseA, hphaseB, hB, forEach, gpfAnswered]
  · have hphaseB : (portOf s .b).gpf ≠ 2 := hB
    simp [execGpfPhase2Complete, hready, hphaseA, hphaseB, hB, forEach, gpfAnswered]

/-- Settles O19: each command's one state, by the phases of the two heads. -/
theorem globalPersistentFlush : Obligations.GlobalPersistentFlush := by
  unfold Obligations.GlobalPersistentFlush
  refine ⟨fun h s henabled => ⟨_, exec_gpfPhase1 henabled, ?_, ?_, ?_⟩,
    fun h s henabled hphase => ⟨_, exec_gpfPhase2 henabled hphase, ?_, ?_, ?_⟩, fun s hready => ?_,
    fun s hready hA => ⟨_, exec_gpfPhase2Complete hready hA, ?_⟩⟩
  · rw [portOf_modPort_same]
    split <;> rfl
  · refine takesWrites_of_gpf (h := h) ?_
    rw [portOf_modPort_same]
    exact Nat.ne_of_gt (Nat.le_max_right _ 1)
  · split <;> cases h <;> rfl
  · split <;> cases h <;> rfl
  · intro hholdup
    rw [if_neg (by simp [hholdup])]
    rfl
  · split <;> cases h <;> rfl
  · change execGpfPhase2Complete s = _
    simp [execGpfPhase2Complete, hready]
  · by_cases hB : s.fe.portB.gpf = 2
    · simp only [hB, if_true]
      exact ⟨rfl, rfl, fun _ => ⟨rfl, rfl⟩, fun hne => absurd rfl hne⟩
    · simp only [hB, if_false]
      exact ⟨rfl, rfl, fun heq => absurd heq id, fun _ => ⟨rfl, rfl⟩⟩

end Sys2Proof.Machine
end

section
/-! Little-endian fields of a payload: what is read back from bytes that were put together (R5). -/

namespace Sys2Proof.Machine

open Sys2Proof

@[simp] theorem toLE_length (n v : Nat) : (toLE n v).length = n := by
  induction n generalizing v with
  | zero => rfl
  | succ n ih => simp [toLE, ih]

@[simp] theorem zeros_length (n : Nat) : (zeros n).length = n := List.length_replicate

/-- A field that ends within the first part is read from it. -/
theorem le_append_left {xs ys : List Byte} {off n : Nat} (h : off + n ≤ xs.length) : le (xs ++ ys) off n = le xs off n := by
  have hdrop : (xs ++ ys).drop off = xs.drop off ++ ys := List.drop_append_of_le_length (by omega)
  have htake : (xs.drop off ++ ys).take n = (xs.drop off).take n := List.take_append_of_le_length (by rw [List.length_drop]; omega)
  rw [le, le, hdrop, htake]

/-- A field that begins behind the first part is read from the second. -/
theorem le_append_right {xs ys : List Byte} {off n : Nat} (h : xs.length ≤ off) :
    le (xs ++ ys) off n = le ys (off - xs.length) n := by
  rw [le, le, List.drop_append, List.drop_eq_nil_of_le h, List.nil_append]

/-- The first byte is not in a field behind it. -/
@[simp] theorem le_cons_succ (x : Byte) (xs : List Byte) (off n : Nat) : le (x :: xs) (off + 1) n = le xs off n := rfl

@[simp] theorem le_toLE (n v : Nat) : le (toLE n v) 0 n = v % 256 ^ n := by
  induction n generalizing v with
  | zero => simp [le, toLE, Nat.mod_one]
  | succ n ih =>
    have hrest : ((toLE n (v / 256)).take n).foldr (fun b acc => b.toNat + 256 * acc) 0 = v / 256 % 256 ^ n := ih (v / 256)
    simp only [le, toLE, List.drop_zero, List.take_succ_cons, List.foldr_cons, hrest, BitVec.toNat_ofNat]
    rw [show (256 : Nat) ^ (n + 1) = 2 ^ 8 * 256 ^ n from Nat.pow_succ']
    exact Nat.mod_mul.symm

/-- A byte is a field of one. -/
@[simp] theorem le_byte (bs : List Byte) (off : Nat) : le bs off 1 = (bs.getD off 0).toNat := by
  rw [le]
  cases h : bs.drop off with
  | nil =>
    have hlen : bs.length ≤ off := List.drop_eq_nil_iff.mp h
    simp [List.getD_eq_getElem?_getD, List.getElem?_eq_none hlen]
  | cons b rest =>
    have hget : bs[off]? = some b := by rw [← Nat.add_zero off, ← List.getElem?_drop, h]; rfl
    simp [List.getD_eq_getElem?_getD, hget]

end Sys2Proof.Machine
end

section
/-! The CXL commands that only read (R377, R424): a command that its port takes answers what its body says. -/

namespace Sys2Proof.Machine

open Sys2Proof

section

variable {op len : Nat} {board open_ : Bool} {body : Body} {p : MbxPort} {b : List Byte} {s : State}

/-- The answer of a command that its port takes. -/
theorem cxlRun_of_taken (htaken : cxlTaken board len open_ p b s = true) :
    cxlRun op board len open_ body p b s = cxlAnswer op p (body p b s).ret (body p b s).out (body p b s).st := by
  simp only [cxlTaken, Bool.and_eq_true, Bool.not_eq_true'] at htaken
  obtain ⟨⟨⟨⟨hport, hpower⟩, haway⟩, hright⟩, hlen⟩ := htaken
  have hlength : (if open_ = true then decide (len ≤ b.length) else b.length == len) = true := by
    cases open_ <;> simpa using hlen
  simp only [cxlRun, hport, hpower, haway, hright, hlength, Bool.not_true, Bool.or_false, Bool.false_eq_true, if_false]
  cases p <;> rfl

/-- A body that only reads. -/
theorem next_cxlRun_of_read {out : List Byte} {t : State} (htaken : cxlTaken board len open_ p b s = true)
    (hbody : body p b s = okOut out t) :
    (.next (cxlRun op board len open_ body p b s) : Res) = .next (cxlAnswer op p 0 out t) := by
  rw [cxlRun_of_taken htaken, hbody]
  rfl

/-- A body that refuses its input. -/
theorem next_cxlRun_of_refused (htaken : cxlTaken board len open_ p b s = true) (hbody : body p b s = errAns rcInvalid s) :
    (.next (cxlRun op board len open_ body p b s) : Res) = .next (cxlAnswer op p 0x2 [] s) := by
  rw [cxlRun_of_taken htaken, hbody]
  rfl

theorem exec_identify (htaken : cxlTaken true 0 false p b s = true) :
    ∃ out, exec (.identify p b) s = .next (cxlAnswer 0x0001 p 0 out s) ∧
      out.length = 18 ∧ le out 0 2 = 0x1D9E ∧ le out 8 8 = s.board.serial.toNat := by
  refine ⟨_, next_cxlRun_of_read htaken rfl, ?_, ?_, ?_⟩
  · simp
  · simp [le_append_left]
  · have hserial := s.board.serial.isLt
    simp [le_append_left, le_append_right]
    omega

theorem exec_backgroundOperationStatus (htaken : cxlTaken true 0 false p b s = true) :
    ∃ out, exec (.backgroundOperationStatus p b) s = .next (cxlAnswer 0x0002 p 0 out s) ∧
      out.length = 8 ∧ le out 0 1 % 2 = (if (cxlOf s p).bg.isSome then 1 else 0) ∧ le out 2 2 = (cxlOf s p).bgOpcode % 2 ^ 16 := by
  refine ⟨_, next_cxlRun_of_read htaken rfl, ?_, ?_, ?_⟩
  · simp
  · cases (cxlOf s p).bg.isSome <;> simp [b2n]
  · simp [le_append_left]

theorem exec_getFwInfo (htaken : cxlTaken true 0 false p b s = true) :
    ∃ out, exec (.getFwInfo p b) s = .next (cxlAnswer 0x0200 p 0 out s) ∧
      le out 0 1 = 2 ∧ le out 1 1 % 8 = (s.ctl.fwRunning + 1) % 8 := by
  refine ⟨_, next_cxlRun_of_read htaken rfl, ?_, ?_⟩
  · simp
  · cases s.ctl.fwAtReset <;> simp

theorem exec_getSupportedLogs (htaken : cxlTaken true 0 false p b s = true) :
    ∃ out, exec (.getSupportedLogs p b) s = .next (cxlAnswer 0x0400 p 0 out s) ∧
      le out 0 2 = 1 ∧ le out 8 16 = celUuid ∧ le out 24 4 = celBytes.length := by
  refine ⟨_, next_cxlRun_of_read htaken rfl, ?_, ?_, ?_⟩ <;> rfl

theorem exec_identifyMemoryDevice (htaken : cxlTaken true 0 false p b s = true) :
    ∃ out, exec (.identifyMemoryDevice p b) s = .next (cxlAnswer 0x4000 p 0 out s) ∧
      le out 16 8 = (s.board.folios / 128) % 2 ^ 64 ∧ le out 24 8 = 0 ∧ le out 32 8 = (s.board.folios / 128) % 2 ^ 64 := by
  refine ⟨_, next_cxlRun_of_read htaken rfl, ?_, ?_, ?_⟩ <;>
    simp [le_append_left, le_append_right, fwRev, capacity256]

theorem b2n_odd (x : Bool) : b2n x % 2 = 1 ↔ x = true := by cases x <;> decide

theorem testBit_b2n_sum (x y z : Bool) :
    (b2n x + 2 * b2n y + 4 * b2n z).testBit 0 = x ∧ (b2n x + 2 * b2n y + 4 * b2n z).testBit 1 = y ∧
    (b2n x + 2 * b2n y + 4 * b2n z).testBit 2 = z ∧ b2n x + 2 * b2n y + 4 * b2n z < 256 := by
  cases x <;> cases y <;> cases z <;> decide

/-- R188: the three health status bits, which are all of the byte. -/
theorem healthStatus_bits (s : State) :
    (healthStatus s).testBit 0 = (decide (reserveCount s ≤ floorF s) || decide (0 < readOnlyCount s)) ∧
    (healthStatus s).testBit 1 = (intDegraded s || decide (3 ≤ s.sup.step)) ∧
    (healthStatus s).testBit 2 = (decide (reserveCount s = 0 ∧ s.led.overdraft ≠ []) || s.led.lost) ∧ healthStatus s < 256 := by
  have hfull : decide (reserveCount s = 0 ∧ s.led.overdraft ≠ []) = (reserveCount s == 0 && !s.led.overdraft.isEmpty) := by
    rw [Bool.eq_iff_iff]
    simp
  rw [hfull]
  exact testBit_b2n_sum _ _ _

theorem mediaStatus_lt (s : State) : mediaStatus s < 256 := by
  simp only [mediaStatus]
  split_ifs <;> decide

theorem exec_getHealthInfo (htaken : cxlTaken true 0 false p b s = true) :
    ∃ out, exec (.getHealthInfo p b) s = .next (cxlAnswer 0x4200 p 0 out s) ∧
      out.length = 18 ∧ (le out 0 1).testBit 0 = (decide (reserveCount s ≤ floorF s) || decide (0 < readOnlyCount s)) ∧
      (le out 0 1).testBit 1 = (intDegraded s || decide (3 ≤ s.sup.step)) ∧
      (le out 0 1).testBit 2 = (decide (reserveCount s = 0 ∧ s.led.overdraft ≠ []) || s.led.lost) ∧
      le out 1 1 = (if s.led.lost then 3 else if s.led.memActive then 0 else 1) ∧ le out 3 1 = lifeUsed s % 256 ∧
      le out 4 2 = (BitVec.ofInt 16 (deviceTemp s)).toNat ∧ le out 6 4 = tallyVal s 3 % 2 ^ 32 := by
  obtain ⟨hbit0, hbit1, hbit2, hlt⟩ := healthStatus_bits s
  have hstatus : ∀ rest, le (BitVec.ofNat 8 (healthStatus s) :: rest) 0 1 = healthStatus s := fun rest =>
    (le_byte _ 0).trans (Nat.mod_eq_of_lt hlt)
  have hmedia : (BitVec.ofNat 8 (mediaStatus s)).toNat = mediaStatus s := Nat.mod_eq_of_lt (mediaStatus_lt s)
  have htemp := (BitVec.ofInt 16 (deviceTemp s)).isLt
  refine ⟨_, next_cxlRun_of_read htaken rfl, by simp, (congrArg (·.testBit 0) (hstatus _)).trans hbit0,
    (congrArg (·.testBit 1) (hstatus _)).trans hbit1, (congrArg (·.testBit 2) (hstatus _)).trans hbit2,
    (le_byte _ 1).trans hmedia, ?_, ?_, ?_⟩
  · simp
  · simp [le_append_left]
    omega
  · simp [le_append_left, le_append_right]

theorem exec_getAlertConfiguration (htaken : cxlTaken true 0 false p b s = true) :
    ∃ out, exec (.getAlertConfiguration p b) s = .next (cxlAnswer 0x4201 p 0 out s) ∧
      le out 0 1 = (portOf s (headOf p)).alertCfg.toNat % 4 ∧
      le out 3 1 = (portOf s (headOf p)).alertCfg.toNat / 2 ^ 8 % 2 ^ 8 := by
  refine ⟨_, next_cxlRun_of_read htaken rfl, ?_, ?_⟩
  · simp [bits]
    omega
  · simp [bits]

theorem exec_getTimestamp (htaken : cxlTaken false 0 false p b s = true) :
    exec (.getTimestamp p b) s = .next (cxlAnswer 0x0300 p 0 (toLE 8 (if (portOf s (headOf p)).cxlTime = 0 then 0
      else (portOf s (headOf p)).cxlTime + (s.clock - (portOf s (headOf p)).cxlTimeAt))) s) := by
  refine next_cxlRun_of_read htaken ?_
  simp only [beq_iff_eq]

theorem exec_getLog (htaken : cxlTaken true 24 false p b s = true) :
    exec (.getLog p b) s = .next (if le b 0 16 = celUuid ∧ le b 16 4 + le b 20 4 ≤ celBytes.length then
      cxlAnswer 0x0401 p 0 ((celBytes.drop (le b 16 4)).take (le b 20 4)) s else cxlAnswer 0x0401 p 0x2 [] s) := by
  by_cases hlog : le b 0 16 = celUuid ∧ le b 16 4 + le b 20 4 ≤ celBytes.length
  · rw [if_pos hlog]
    refine next_cxlRun_of_read htaken (if_neg ?_)
    simp [hlog.1, hlog.2]
  · rw [if_neg hlog]
    refine next_cxlRun_of_refused htaken (if_pos ?_)
    simp only [Bool.or_eq_true, bne_iff_ne, decide_eq_true_eq]
    omega

theorem exec_getPoisonList (htaken : cxlTaken false 16 false p b s = true) :
    ∃ n, n = (s.integ.poisonList.filter fun e =>
        le b 0 8 < e.1 * 256 + 256 && e.1 * 256 < le b 0 8 + 64 * le b 8 8).length ∧
      ∃ out, exec (.getPoisonList p b) s = .next (cxlAnswer 0x4300 p 0 out s) ∧
        le out 10 2 = min 254 n ∧ out.length = 32 + 16 * min 254 n := by
  refine ⟨_, rfl, _, next_cxlRun_of_read htaken rfl, ?_, ?_⟩
  · simp [le_append_left, le_append_right]
  · simp [List.length_flatMap]
    omega

theorem exec_getEventRecords (htaken : cxlTaken true 1 false p b s = true) :
    (3 < le b 0 1 → exec (.getEventRecords p b) s = .next (cxlAnswer 0x0100 p 0x2 [] s)) ∧
    (le b 0 1 ≤ 3 → ∃ n, n = (tget [] (portOf s (headOf p)).logs (le b 0 1)).length ∧
      ∃ out, exec (.getEventRecords p b) s = .next (cxlAnswer 0x0100 p 0 out (takeFree 1024 s).2) ∧
      (le out 0 1).testBit 0 = decide (0 < tget 0 (portOf s (headOf p)).logLost (le b 0 1)) ∧
      le out 2 2 = min (tget 0 (portOf s (headOf p)).logLost (le b 0 1)) 0xFFFF ∧ le out 20 2 = min n 31) := by
  refine ⟨fun hlog => next_cxlRun_of_refused htaken (if_pos hlog),
    fun hlog => ⟨_, rfl, _, next_cxlRun_of_read htaken (if_neg (Nat.not_lt.mpr hlog)), ?_, ?_, ?_⟩⟩
  · simp [b2n_odd]
  · simp [le_append_left]
  · simp [le_append_left, le_append_right]

end

/-- Settles O49: each command's body only reads, and its fields are found again at their places. -/
theorem cxlReadCommands : Obligations.CxlReadCommands := by
  unfold Obligations.CxlReadCommands
  refine fun p b s => ⟨fun h0 => ⟨exec_identify h0, exec_backgroundOperationStatus h0, next_cxlRun_of_read h0 rfl, exec_getFwInfo h0,
    exec_getSupportedLogs h0, exec_identifyMemoryDevice h0, exec_getHealthInfo h0, exec_getAlertConfiguration h0⟩,
    fun h0 => ⟨exec_getTimestamp h0, next_cxlRun_of_read h0 rfl, next_cxlRun_of_read h0 rfl⟩, exec_getLog, exec_getPoisonList,
    exec_getEventRecords⟩

end Sys2Proof.Machine
end

section
/-! Accesses to the strongbox (R34, R58, R213, R214): a request that nothing holds is served at once, and counting it changes
nothing that it looks at. -/

namespace Sys2Proof.Machine

open Sys2Proof

/-- t is s but for audit counters and notification: as `Noted`, with any counter free. -/
def Tallied (s t : State) : Prop := t.bare = s.bare ∧ t.said = s.said ∧ ∀ k, notEvent k → rget t k = rget s k

theorem Tallied.refl (s : State) : Tallied s s := ⟨rfl, rfl, fun _ _ => rfl⟩

theorem Tallied.trans {a b c : State} (h : Tallied a b) (g : Tallied b c) : Tallied a c :=
  ⟨g.1.trans h.1, g.2.1.trans h.2.1, fun k hk => (g.2.2 k hk).trans (h.2.2 k hk)⟩

theorem bump_tallied (i n : Nat) (s : State) : Tallied s (bump i n s) :=
  ⟨bump_bare i n s, (bump_noted i n s).said, bump_rget i n s⟩

theorem forEach_tallied {α : Type} (xs : List α) {f : α → State → State} (hf : ∀ x s, Tallied s (f x s)) (s : State) :
    Tallied s (forEach xs f s) := by
  induction xs generalizing s with
  | nil => exact .refl s
  | cons x xs ih => exact (hf x s).trans (ih (f x s))

theorem histRead_tallied (ns : Nat) (classes : List Nat) (req key : Nat) (s : State) : Tallied s (histRead ns classes req key s) := by
  refine forEach_tallied _ (fun i s => ?_) s
  split
  · exact bump_tallied _ _ s
  · exact .refl s

/-- A read that is answered with data changes nothing else but counters. -/
theorem readDone_tallied (x : Txn) (d : Sector) (classes : List Nat) (s : State) :
    Tallied (send (.memData x.head x.tag d) s) (readDone x (.ok d) classes s) := by
  obtain ⟨hbare, hsaid, hregs⟩ := histRead_tallied (s.clock - x.since) (0 :: classes) (1 + headNo x.head) x.key s
  exact ⟨hbare, congrArg (_ :: ·) hsaid, hregs⟩

/-- A request at host address hpa leads to the strongbox at g within its size, on a head that CXL.mem IDE does not refuse, and no
reinit, waiting request, holder or snoop stands before it. -/
structure SboxIdle (h : Head) (hpa : Nat) (g : Target) (s : State) : Prop where
  decoded : decodeHpa s h hpa = some g
  sbox : g.sbox = true
  secure : ideBlocks s h = false
  above : 2 ^ 45 ≤ g.dpa
  within : g.dpa - 2 ^ 45 < s.pur.sboxAct * 2 ^ 30
  free : reinitHolds s (g.dpa / 256) = false
  first : ∀ u ∈ s.fe.txns, u.lineNo ≠ g.dpa / 256
  unheld : sfFind s (g.dpa / 64) = none
  quiet : ∀ x ∈ s.fe.bis, x.sector ≠ g.dpa / 64

/-- Neither counters nor notification matter to it. -/
theorem SboxIdle.of_bare {h : Head} {hpa : Nat} {g : Target} {s t : State} (hidle : SboxIdle h hpa g s) (hbare : t.bare = s.bare) :
    SboxIdle h hpa g t := by
  have hbares : SboxIdle h hpa g s.bare := by
    obtain ⟨a, b, c, d, e, f, i, j, k⟩ := hidle
    cases h <;> exact ⟨a, b, c, d, e, f, i, j, k⟩
  rw [← hbare] at hbares
  obtain ⟨a, b, c, d, e, f, i, j, k⟩ := hbares
  cases h <;> exact ⟨a, b, c, d, e, f, i, j, k⟩

theorem windowBi_of_bare {s t : State} (hbare : t.bare = s.bare) (h : Head) (dpa : Nat) : windowBi t h dpa = windowBi s h dpa := by
  have hport : ∀ u : State, windowBi u.bare h dpa = windowBi u h dpa := fun u => by cases h <;> rfl
  rw [← hport t, hbare, hport s]

theorem sboxRead_of_bare {s t : State} (hbare : t.bare = s.bare) (sector : Nat) : sboxRead t sector = sboxRead s sector := by
  show sboxRead t.bare sector = sboxRead s.bare sector
  rw [hbare]

theorem Tallied.send {s t : State} (h : Tallied s t) (x : Head) (tag : Nat) (d : Sector) :
    Tallied (send (.memData x tag d) s) (Machine.send (.memData x tag d) t) :=
  ⟨h.1, congrArg (_ :: ·) h.2.1, h.2.2⟩

theorem Tallied.sfHold {s t : State} (h : Tallied s t) (x : Head) (own : Bool) (sector key : Nat) :
    Tallied (sfHold x own sector key s) (Machine.sfHold x own sector key t) :=
  ⟨show Machine.sfHold x own sector key t.bare = Machine.sfHold x own sector key s.bare by rw [h.1], h.2.1, h.2.2⟩

theorem Tallied.sboxWrite {s t : State} (h : Tallied s t) (sector : Nat) (d : Sector) :
    Tallied (sboxWrite sector d s) (Machine.sboxWrite sector d t) :=
  ⟨show Machine.sboxWrite sector d t.bare = Machine.sboxWrite sector d s.bare by rw [h.1], h.2.1, h.2.2⟩

/-- The transaction of a host's access to the strongbox. -/
def sboxTxn (h : Head) (tag dpa : Nat) (own : Bool) (w : Option SecWrite) (s : State) : Txn :=
  { head := h, tag := tag, write := w.isSome, lineNo := dpa / 256, sector := dpa / 64 % 4, key := 0, since := s.clock, wait := .metered,
    data := w.elim 0 (·.data), enables := w.elim 0 (·.en), poison := w.elim false (·.poison), own := own }

section

variable {h : Head} {tag hpa : Nat} {own : Bool} {w : Option SecWrite} {g : Target} {s : State}

theorem sboxTxn_unit : (sboxTxn h tag g.dpa own w s).lineNo * 4 + (sboxTxn h tag g.dpa own w s).sector = g.dpa / 64 := by
  show g.dpa / 256 * 4 + g.dpa / 64 % 4 = g.dpa / 64
  omega

theorem hostAccess_sbox (hidle : SboxIdle h hpa g s) :
    hostAccess h tag hpa own w s = admitTxn (sboxTxn h tag g.dpa own w s) s := by
  have hin : ¬ s.pur.sboxAct * 2 ^ 30 ≤ g.dpa - 2 ^ 45 := Nat.not_le.mpr hidle.within
  simp only [hostAccess, hidle.decoded, hidle.secure, hidle.sbox, Bool.false_eq_true, if_false, if_true, sboxAccess, hin]
  rfl

/-- No snoop of its data unit is outstanding. -/
theorem SboxIdle.noSnoop (hidle : SboxIdle h hpa g s) : (s.fe.bis.any fun x => x.sector == g.dpa / 64) = false := by
  rw [List.any_eq_false]
  exact fun x hx => by simpa using hidle.quiet x hx

/-- An access to the strongbox that is served when it is admitted leaves what serving it leaves. -/
theorem admitTxn_sbox {u : State} (hidle : SboxIdle h hpa g s)
    (hserved : serveSbox (windowBi s h (g.dpa / 256 * 256)) (sboxTxn h tag g.dpa own w s) s = (none, u)) :
    admitTxn (sboxTxn h tag g.dpa own w s) s = u := by
  have hline : sboxLine (sboxTxn h tag g.dpa own w s).lineNo = true := by
    have habove := hidle.above
    show decide (2 ^ 37 ≤ g.dpa / 256) = true
    rw [decide_eq_true_iff]
    omega
  have hnote : conflictNote (sboxTxn h tag g.dpa own w s) s = s := by
    refine if_neg ?_
    simp only [sboxTxn_unit, List.any_eq_true, Bool.and_eq_true, beq_iff_eq, not_exists, not_and]
    exact fun x hx _ => hidle.quiet x hx
  have hfirst : earlier s (sboxTxn h tag g.dpa own w s) = none := by
    rw [earlier, Option.map_eq_none_iff, List.find?_eq_none]
    exact fun u hu => by simp [sboxTxn, hidle.first u hu]
  have hserve : serve none (windowBi s h (g.dpa / 256 * 256)) (sboxTxn h tag g.dpa own w s) s = (none, u) :=
    (if_pos hline).trans hserved
  simp only [admitTxn, hnote, hline, hfirst, Bool.not_true, Bool.and_false, Bool.false_and, Bool.false_eq_true, if_false]
  show (match serve none (windowBi s h (g.dpa / 256 * 256)) (sboxTxn h tag g.dpa own w s) s with
    | (none, s) => s
    | (some wait, s) => _) = u
  rw [hserve]

/-- The snoop filter asks no snoop for its data unit, be it for a new way of a set that has room. -/
theorem SboxIdle.snoopNeed_eq {alloc : Bool} (hidle : SboxIdle h hpa g s)
    (hroom : alloc = true → (s.fe.sf.filter fun e => sfSet e.sector == sfSet (g.dpa / 64)).length < 16) (x : Option Head) :
    snoopNeed x own alloc (g.dpa / 64) s = (false, s) := by
  have hvictim : (if alloc = true then sfVictim s (g.dpa / 64) else none) = none := by
    split
    · next halloc => simp [sfVictim, hidle.unheld, hroom halloc]
    · rfl
  simp [snoopNeed, snoopsFor, hidle.unheld, hvictim, hidle.noSnoop, forEach]

/-- A read is answered with the data unit, and makes its head a holder through an HDM-DB window. -/
theorem serveSbox_read {bi : Bool} (hidle : SboxIdle h hpa g s)
    (hroom : (s.fe.sf.filter fun e => sfSet e.sector == sfSet (g.dpa / 64)).length < 16) :
    serveSbox bi (sboxTxn h tag g.dpa own none s) s =
      (none, readDone (sboxTxn h tag g.dpa own none s) (.ok (sboxRead s (g.dpa / 64))) [1]
        (if bi then sfHold h own (g.dpa / 64) 0 s else s)) := by
  have hfull : filterFull s (g.dpa / 64) = false := by
    simp [filterFull, hroom]
  have hread : sboxRead (if bi then sfHold h own (g.dpa / 64) 0 s else s) (g.dpa / 64) = sboxRead s (g.dpa / 64) := by
    split <;> rfl
  have hfree : reinitHolds s (sboxTxn h tag g.dpa own none s).lineNo = false := hidle.free
  have hhost : ((sboxTxn h tag g.dpa own none s).by_ != .host) = false := rfl
  have hwrite : (sboxTxn h tag g.dpa own none s).write = false := rfl
  simp only [serveSbox, sboxTxn_unit, hfull, hhost, hwrite, hfree, hidle.snoopNeed_eq fun _ => hroom, Bool.and_false, Bool.or_false,
    Bool.false_eq_true, if_false]
  rw [← hread]
  rfl

/-- A write without poison stores the merged data unit and completes. -/
theorem serveSbox_write {bi : Bool} {data : Sector} {en : BitVec 64} {n : Nat} (hidle : SboxIdle h hpa g s) :
    serveSbox bi (sboxTxn h tag g.dpa own (some ⟨n, data, en, false⟩) s) s =
      (none, send (.memCmp h tag) (sboxWrite (g.dpa / 64) (mergeBytes (sboxRead s (g.dpa / 64)) data en) s)) := by
  have hfree : reinitHolds s (sboxTxn h tag g.dpa own (some ⟨n, data, en, false⟩) s).lineNo = false := hidle.free
  have hhost : ((sboxTxn h tag g.dpa own (some ⟨n, data, en, false⟩) s).by_ != .host) = false := rfl
  have hwrite : (sboxTxn h tag g.dpa own (some ⟨n, data, en, false⟩) s).write = true := rfl
  have hnoAlloc : ∀ x, snoopNeed x true false (g.dpa / 64) s = (false, s) := hidle.snoopNeed_eq (fun h => absurd h Bool.false_ne_true)
  simp only [serveSbox, sboxTxn_unit, hhost, hwrite, hfree, hnoAlloc, Bool.not_true, Bool.and_false, Bool.false_and, Bool.or_false,
    Bool.true_or, Bool.false_eq_true, if_false, if_true]
  rfl

/-- A read of a data unit once it has been counted: the answer, the holder, and no other effect. -/
theorem hostAccess_sboxRead (i : Nat) (hidle : SboxIdle h hpa g s)
    (hroom : (s.fe.sf.filter fun e => sfSet e.sector == sfSet (g.dpa / 64)).length < 16) :
    ∃ t, hostAccess h tag hpa own none (bump i 1 s) = t ∧ Tallied (send (.memData h tag (sboxRead s (g.dpa / 64)))
      (if windowBi s h (g.dpa / 256 * 256) then sfHold h own (g.dpa / 64) 0 s else s)) t := by
  have hcount := bump_tallied i 1 s
  have hidle' := hidle.of_bare hcount.1
  have hserved := admitTxn_sbox hidle' (serveSbox_read (tag := tag) (own := own) hidle' (by rwa [bump_fe_sf]))
  rw [sboxRead_of_bare hcount.1, windowBi_of_bare hcount.1] at hserved
  refine ⟨_, (hostAccess_sbox hidle').trans hserved, ?_⟩
  cases windowBi s h (g.dpa / 256 * 256) with
  | true => exact ((hcount.sfHold h own (g.dpa / 64) 0).send h tag _).trans (readDone_tallied _ _ _ _)
  | false => exact (hcount.send h tag _).trans (readDone_tallied _ _ _ _)

/-- A write of a data unit once it has been counted: the completion, the data unit stored, and no other effect. -/
theorem hostAccess_sboxWrite {data : Sector} {en : BitVec 64} (i n : Nat) (hidle : SboxIdle h hpa g s) :
    ∃ t, hostAccess h tag hpa false (some { sector := n, data := data, en := en, poison := false }) (bump i 1 s) = t ∧
      t.said = .memCmp h tag :: s.said ∧
      t.bare = (sboxWrite (g.dpa / 64) (mergeBytes (sboxRead s (g.dpa / 64)) data en) s).bare ∧
      ∀ k, notEvent k → rget t k = rget s k := by
  have hcount := bump_tallied i 1 s
  have hidle' := hidle.of_bare hcount.1
  have hserved := admitTxn_sbox hidle' (serveSbox_write (tag := tag) (own := false) (n := n) (data := data) (en := en) hidle')
  rw [sboxRead_of_bare hcount.1] at hserved
  obtain ⟨hbare, hsaid, hregs⟩ := hcount.sboxWrite (g.dpa / 64) (mergeBytes (sboxRead s (g.dpa / 64)) data en)
  exact ⟨_, (hostAccess_sbox hidle').trans hserved, congrArg (_ :: ·) hsaid, hbare, hregs⟩

end

/-- A read request of either kind that is taken is counted and then served. -/
theorem exec_readRequest (rdData : Bool) {h : Head} {tag : Nat} {hpa : BitVec 64} {own : Bool} {s : State}
    (htakes : takesReads s h = true) :
    exec (if rdData then .memRdData h tag hpa own else .memRd h tag hpa own) s =
      .next (hostAccess h tag hpa.toNat own none (bump (headCtr h) 1 s)) := by
  cases rdData
  · exact congrArg Host.Outcome.next (if_pos htakes)
  · exact congrArg Host.Outcome.next (if_pos htakes)

/-- A write request of either kind that is taken is counted and then served. -/
theorem exec_writeRequest (full : Bool) {h : Head} {tag : Nat} {hpa : BitVec 64} {data : Sector} {en : BitVec 64} {s : State}
    (hen : full = true → en = BitVec.allOnes 64) (htakes : takesWrites s h = true) :
    exec (if full then .memWr h tag hpa data false else .memWrPtl h tag hpa data en false) s =
      .next (hostAccess h tag hpa.toNat false (some { sector := 0, data := data, en := en, poison := false })
        (bump (headCtr h + if full then 1 else 2) 1 s)) := by
  cases full
  · exact congrArg Host.Outcome.next (if_pos htakes)
  · rw [hen rfl]
    exact congrArg Host.Outcome.next (if_pos htakes)

/-- Settles O16: a request that nothing holds is served at once, from the data unit and to it. -/
theorem strongboxAccess : Obligations.StrongboxAccess := by
  unfold Obligations.StrongboxAccess
  constructor
  · intro h tag hpa own rdData g s htakes hdecoded hsbox hsecure habove hwithin hfree hfirst hunheld hquiet hroom
    obtain ⟨t, haccess, hbare, hsaid, hregs⟩ := hostAccess_sboxRead (tag := tag) (own := own) (headCtr h)
      ⟨hdecoded, hsbox, hsecure, habove, hwithin, hfree, hfirst, hunheld, hquiet⟩ hroom
    refine ⟨t, (exec_readRequest rdData htakes).trans (congrArg Host.Outcome.next haccess), hsaid.trans ?_, hbare,
      fun k hk => (hregs k hk).trans ?_⟩
    · split <;> rfl
    · split <;> rfl
  · intro h tag hpa data en full g s htakes hdecoded hsbox hsecure habove hwithin hfree hen hfirst hunheld hquiet
    obtain ⟨t, haccess, hsaid, hbare, hregs⟩ := hostAccess_sboxWrite (tag := tag) (data := data) (en := en)
      (headCtr h + if full then 1 else 2) 0 ⟨hdecoded, hsbox, hsecure, habove, hwithin, hfree, hfirst, hunheld, hquiet⟩
    exact ⟨t, _, (exec_writeRequest full hen htakes).trans (congrArg Host.Outcome.next haccess), rfl, hsaid, hbare, hregs⟩

end Sys2Proof.Machine
end

section
/-! A read through an aperture (R110, R112, R113). -/

namespace Sys2Proof.Machine

open Sys2Proof

/-- The members of an aperture whose value is not the lowest member's, one bit each (R112). -/
def memberDiff (s : State) (a : BarAccess) (c : Nat) (rest : List Nat) : BitVec 32 :=
  BitVec.ofNat 32 (maskOf 32 fun d => rest.contains d && memberView s a d != memberView s a c)

theorem memberDiff_getLsbD (s : State) (a : BarAccess) (c : Nat) (rest : List Nat) (d : Nat) (hd : d < 32) :
    (memberDiff s a c rest).getLsbD d = true ↔ d ∈ rest ∧ memberView s a d ≠ memberView s a c := by
  rw [memberDiff, BitVec.getLsbD_ofNat, maskOf_testBit]
  simp [hd]

/-- An aligned read of an aperture whose members all take accesses is answered at once. -/
theorem exec_apertureRead {a : BarAccess} {g : ChTarget} {s : State} (haligned : accAligned a = true) (hread : a.dir = .read)
    (haperture : apertureOf a = some g) (hfree : ∀ c ∈ members s g, domFree s (chDomain c) = true) :
    exec (.apertureRead a) s = .next (apertureLand a g s) := by
  have hnone : (members s g).find? (fun c => !domFree s (chDomain c)) = none := by
    rw [List.find?_eq_none]
    intro c hc
    simp [hfree c hc]
  show Host.Outcome.next (accessOp a s) = _
  rw [accessOp, haligned, haperture]
  show Host.Outcome.next (apertureAccess a g s) = _
  rw [apertureAccess, hread]
  simp only [hnone]

theorem apertureLand_noMembers {a : BarAccess} {g : ChTarget} {s : State} (h : members s g = []) :
    apertureLand a g s = readAnswer a 0 (s.modMed fun m => { m with bcastDiff := 0 }) := by
  rw [apertureLand, h]

theorem apertureLand_members {a : BarAccess} {g : ChTarget} {s : State} {c : Nat} {rest : List Nat} (h : members s g = c :: rest) :
    apertureLand a g s = readAnswer a (memberView s a c) (s.modMed fun m => { m with bcastDiff := memberDiff s a c rest }) := by
  rw [apertureLand, h]
  rfl

/-- Settles O6: the answer and MCL_BCAST_DIFF are those of the members, and the read writes nothing else. -/
theorem apertureReadAnswersLowestMember : Obligations.ApertureReadAnswersLowestMember := by
  unfold Obligations.ApertureReadAnswersLowestMember
  intro a g s haligned hread haperture hfree
  refine ⟨_, exec_apertureRead haligned hread haperture hfree, ?_⟩
  cases hm : members s g with
  | nil =>
    rw [apertureLand_noMembers hm]
    refine ⟨?_, fun _ => ⟨rfl, rfl⟩, fun c rest h => absurd h.symm (List.cons_ne_nil c rest)⟩
    rintro v d rfl rfl
    rfl
  | cons c rest =>
    rw [apertureLand_members hm]
    refine ⟨?_, fun h => absurd h (List.cons_ne_nil c rest), ?_⟩
    · rintro v d rfl rfl
      rfl
    · rintro c' rest' ⟨⟩
      exact ⟨rfl, memberDiff_getLsbD s a c rest⟩

end Sys2Proof.Machine
end

section
/-! An alert whose reason is routed to a CXL event log (R102, R424). -/

namespace Sys2Proof.Machine

open Sys2Proof

/-- The reset state with the die alerts of channel 0 routed to Port A's event log. -/
def routedAlertState : State := rset State.reset (0x30100 + 4 * flatOf (evCode 3 0 0x01)) 0x2000

/-- Channel 0 is populated, and cause bit 2 has no action of its own. -/
theorem routedAlertState_takes : populated routedAlertState 0 = true ∧ (4 : BitVec 5) ≠ 0 ∧ (4 : BitVec 5) &&& 0b10011 = 0 := by
  decide

/-- The alert's record stands in Port A's log, which was empty. -/
theorem routedAlertState_logged :
    (stOf (exec (.alert 0 0 4 0) routedAlertState) routedAlertState).fe.portA.logs.length = 1 ∧
    routedAlertState.fe.portA.logs.length = 0 := ⟨rfl, rfl⟩

/-- Refutes O22: DIE_ALERT changes the port of a head whose event log its route names. It fails for want of the exception of what
notification may change in a port. -/
theorem not_dieEvents : ¬ Obligations.DieEvents := by
  unfold Obligations.DieEvents
  rintro ⟨-, -, -, -, -, halert, -⟩
  obtain ⟨hpop, hcause, hplain⟩ := routedAlertState_takes
  obtain ⟨t, hexec, -, -, -, -, -, -, -, -, hfe⟩ := halert 0 0 0 4 routedAlertState (by decide) hpop hcause hplain
  obtain ⟨hone, hzero⟩ := routedAlertState_logged
  rw [hexec, show stOf (.next t) routedAlertState = t from rfl, hfe, hzero] at hone
  exact absurd hone (by decide)

end Sys2Proof.Machine
end

section
/-! A restrike of a bullion line whose die and whose channel's parity die have both failed (R131, R145): no die can serve its read. -/

namespace Sys2Proof.Machine

open Sys2Proof

/-- Folio 0 live in bullion on media folio 9000, whose line 0 stands on die 0 of channel 0 and waits for its restrike; that die and
the channel's parity die failed. -/
def deadStripeState : State :=
  let s := State.reset.modLed fun l =>
    { l with entries := [(0, { entry0 with media := 9000, state := .live, bullion := true, gen := 3, stamp := 1 })],
             rev := [(9000, { kind := 1, owner := 0 })] }
  (modChan 0 (fun c => { c with state := .active }) s).modInteg fun i => { i with failed := [(0, 0x10001)], restrikes := [(9000, 0)] }

/-- The restrike is the oldest of channel 0, and its line is not in the till. -/
theorem deadStripeState_queued :
    deadStripeState.integ.restrikes = [] ++ (9000, 0) :: [] ∧ keyCh deadStripeState 9000 0 = 0 ∧
    inTill deadStripeState (hostLine deadStripeState 9000 0) = false := ⟨rfl, rfl, rfl⟩

/-- The read that is queued needs no slot: it is at once one to complete. -/
theorem deadStripeState_sent :
    ((stOf (exec (.restrike 0) deadStripeState) deadStripeState).med.ops.all fun o => o.sent) = true := rfl

/-- Refutes O25: the read of a restrike that no die can serve counts as sent when it is queued. It fails for want of the hypothesis
that a die of the stripe serves the line. -/
theorem not_restrikePatrolScrub : ¬ Obligations.RestrikePatrolScrub := by
  unfold Obligations.RestrikePatrolScrub
  rintro ⟨-, hrestrike, -⟩
  obtain ⟨hqueue, hch, htill⟩ := deadStripeState_queued
  obtain ⟨t, hexec, -, hread⟩ := hrestrike 0 9000 0 [] [] deadStripeState hqueue List.not_mem_nil List.not_mem_nil
    (fun x hx => absurd hx List.not_mem_nil) hch
  rw [if_neg (by simp [htill])] at hread
  obtain ⟨-, -, -, -, o, hmem, -, -, -, -, -, hsent⟩ := hread
  have hall := deadStripeState_sent
  rw [hexec] at hall
  exact Bool.false_ne_true (hsent.symm.trans (List.all_eq_true.mp hall o hmem))

end Sys2Proof.Machine
end

section
/-! A link recovery whose count wraps (R337, R432): COUNTER_WRAP is routed to a CXL event log. -/

namespace Sys2Proof.Machine

open Sys2Proof

/-- The audit counter of Port A's recoveries. -/
def recoveryCtr : Nat := headCtr .a + 10

/-- The reset state with Port A's link up at CXL 3.1, its count of recoveries at its end, and COUNTER_WRAP routed to Port A's event
log. -/
def wrapState : State :=
  let s := rset State.reset (0x30100 + 4 * flatOf (evCode 0xA 1 0x03)) 0x2000
  let s := s.modEv fun e => { e with ctrs := [(recoveryCtr, BitVec.allOnes 48)] }
  modPort .a (fun p => { p with level := .cxl31, rate := 3, width := 3 }) s

/-- Port A is there, and its link is up at CXL 3.1. -/
theorem wrapState_up :
    headPresent wrapState .a = true ∧ (portOf wrapState .a).rate ≠ 0 ∧ (portOf wrapState .a).level = .cxl31 :=
  ⟨rfl, by decide, rfl⟩

/-- The recovery's count wraps, and the record of it stands in Port A's log, which was empty. -/
theorem wrapState_logged :
    (portOf (stOf (exec (.linkRecovery .a 64) wrapState) wrapState) .a).logs.length = 1 ∧ (portOf wrapState .a).logs.length = 0 :=
  ⟨rfl, rfl⟩

/-- Refutes O60: LINK_RECOVERY counts, and the wrap of the count changes the port of the head whose event log its route names. It
fails for want of the exception of what notification may change in a port. -/
theorem not_dueEventsHaveTheirEffect : ¬ Obligations.DueEventsHaveTheirEffect := by
  unfold Obligations.DueEventsHaveTheirEffect
  rintro ⟨-, -, -, -, -, -, -, -, -, -, -, -, -, -, -, -, hlink, -⟩
  obtain ⟨hhead, hrate, hlevel⟩ := wrapState_up
  obtain ⟨-, -, -, hrecovery⟩ := hlink .a wrapState hhead hrate
  obtain ⟨t, hexec, hport⟩ := hrecovery 64 hlevel
  obtain ⟨hone, hzero⟩ := wrapState_logged
  rw [hexec, show stOf (.next t) wrapState = t from rfl, hport, hzero] at hone
  exact absurd hone (by decide)

end Sys2Proof.Machine
end

section
/-! Folds over a relation of states, and the messages that a channel's bring-up sends (R85). -/

namespace Sys2Proof.Machine

open Sys2Proof

/-- A fold of steps within a preorder of states stays within it. -/
theorem forEach_related {α : Type} {R : State → State → Prop} (hrefl : ∀ s, R s s) (htrans : ∀ {a b c}, R a b → R b c → R a c)
    (xs : List α) {f : α → State → State} (hf : ∀ x s, R s (f x s)) (s : State) : R s (forEach xs f s) := by
  induction xs generalizing s with
  | nil => exact hrefl s
  | cons x xs ih => exact htrans (hf x s) (ih (f x s))

/-- What each step of a fold leaves alone, the fold leaves alone. -/
theorem forEach_keeps {α β : Type} (look : State → β) (xs : List α) {f : α → State → State} (hf : ∀ x s, look (f x s) = look s)
    (s : State) : look (forEach xs f s) = look s :=
  forEach_related (R := fun s t => look t = look s) (fun _ => rfl) (fun h g => g.trans h) xs hf s

/-- A message of channel c: its MRST_N, or a packet to one of its dies. -/
def chanOut (c : Nat) (x : Out) : Prop := x = .mrst c true ∨ x = .mrst c false ∨ ∃ cs p, x = .dieCmd c cs p

/-- t is s after messages of channel c were sent. -/
def DieSends (c : Nat) (s t : State) : Prop := ∃ sent, t = s.setOutbox (sent ++ s.outbox) ∧ ∀ x ∈ sent, chanOut c x

theorem DieSends.refl (c : Nat) (s : State) : DieSends c s s := ⟨[], rfl, fun _ h => absurd h List.not_mem_nil⟩

theorem DieSends.trans {c : Nat} {r s t : State} (h : DieSends c r s) (g : DieSends c s t) : DieSends c r t := by
  obtain ⟨xs, rfl, hxs⟩ := h
  obtain ⟨ys, rfl, hys⟩ := g
  refine ⟨ys ++ xs, ?_, fun x hx => (List.mem_append.mp hx).elim (hys x) (hxs x)⟩
  rw [List.append_assoc]
  rfl

theorem DieSends.forEach {α : Type} {c : Nat} (xs : List α) {f : α → State → State} (hf : ∀ x s, DieSends c s (f x s)) (s : State) :
    DieSends c s (forEach xs f s) := forEach_related (DieSends.refl c) DieSends.trans xs hf s

theorem send_dieSends {c : Nat} {x : Out} (hx : chanOut c x) (s : State) : DieSends c s (send x s) :=
  ⟨[x], rfl, fun _ hy => List.mem_singleton.mp hy ▸ hx⟩

theorem sendDie_dieSends (c die : Nat) (packet : BitVec 64) (s : State) : DieSends c s (sendDie c die packet s) :=
  send_dieSends (.inr (.inr ⟨_, _, rfl⟩)) s

/-- R85 steps 1 to 4 send to the channel only. -/
theorem bringupSend_dieSends (c : Nat) (present : BitVec 18) (s : State) : DieSends c s (bringupSend c present s) :=
  (((send_dieSends (.inl rfl) s).trans (send_dieSends (.inr (.inl rfl)) _)).trans
    (DieSends.forEach _ (fun _ s => sendDie_dieSends c _ _ s) _)).trans (DieSends.forEach _ (fun _ s => sendDie_dieSends c _ _ s) _)

/-- R85 step 6 sends to the channel only. -/
theorem configSend_dieSends (c : Nat) (pos : List Nat) (s : State) : DieSends c s (configSend c pos s) := by
  have hdies := DieSends.forEach pos (fun p s => DieSends.forEach ((dieUp s c p).regs.filter fun e => e.1 == 2 || 0x100 ≤ e.1)
    (fun e s => sendDie_dieSends c p (mrwPacket p e.1 e.2.toNat) s) s) s
  have hdrift := fun u => DieSends.forEach (driftRows u (u.board.m2.getLsbD c))
    (fun e s => sendDie_dieSends c 31 (mrwPacket 31 e.1 e.2.toNat) s) u
  rw [configSend]
  split
  · exact (hdies.trans (hdrift _)).trans (sendDie_dieSends c 31 _ _)
  · exact hdies.trans (hdrift _)

end Sys2Proof.Machine
end

section
/-! A channel that has come up waits for its first frame, and the reads that are queued on it wait with it (R85 step 7). -/

namespace Sys2Proof.Machine

open Sys2Proof

/-- t is s after reads of channel c were queued, none of which has been sent. -/
def ReadsQueued (c : Nat) (s t : State) : Prop :=
  ∃ new works n, t = (s.modMed fun d => { d with ops := d.ops ++ new, works := works, nextOp := n }) ∧ ∀ o ∈ new, o.ch = c ∧ o.sent = false

/-- A step that queues reads of channel c while the channel waits for its first frame. -/
def JoinQueues (c : Nat) (s t : State) : Prop := (chan s c).joining = true → ReadsQueued c s t

theorem ReadsQueued.chan {c : Nat} {s t : State} (h : ReadsQueued c s t) (d : Nat) : chan t d = Machine.chan s d := by
  obtain ⟨new, works, n, rfl, -⟩ := h
  rfl

theorem ReadsQueued.refl (c : Nat) (s : State) : ReadsQueued c s s := by
  refine ⟨[], s.med.works, s.med.nextOp, ?_, fun _ h => absurd h List.not_mem_nil⟩
  simp only [List.append_nil]
  rfl

theorem ReadsQueued.trans {c : Nat} {r s t : State} (h : ReadsQueued c r s) (g : ReadsQueued c s t) : ReadsQueued c r t := by
  obtain ⟨xs, v, n, rfl, hxs⟩ := h
  obtain ⟨ys, w, k, rfl, hys⟩ := g
  refine ⟨xs ++ ys, w, k, ?_, fun x hx => (List.mem_append.mp hx).elim (hxs x) (hys x)⟩
  simp only [State.modMed, List.append_assoc]

theorem JoinQueues.refl (c : Nat) (s : State) : JoinQueues c s s := fun _ => .refl c s

theorem JoinQueues.trans {c : Nat} {r s t : State} (h : JoinQueues c r s) (g : JoinQueues c s t) : JoinQueues c r t :=
  fun hjoin => (h hjoin).trans (g (((h hjoin).chan c).symm ▸ hjoin))

/-- A read waits while its channel waits for its first frame. -/
theorem readArrives_joining {op : MOp} {s : State} (hjoin : (chan s op.ch).joining = true) (search : Bool) :
    readArrives search op s = s := by
  rw [readArrives]
  simp only [hjoin, Bool.or_true, Bool.true_or, if_true]

theorem pushOp_joining {op : MOp} {s : State} (hjoin : (chan s op.ch).joining = true) :
    pushOp op s = s.modMed fun d => { d with ops := d.ops ++ [op], nextOp := d.nextOp + 1 } := by
  rw [pushOp]
  split
  · refine readArrives_joining ?_ _
    exact hjoin
  · rfl

theorem pushOp_joinQueues {op : MOp} (hsent : op.sent = false) (s : State) : JoinQueues op.ch s (pushOp op s) := fun hjoin =>
  ⟨[op], s.med.works, s.med.nextOp + 1, pushOp_joining hjoin, by
    rintro o ho
    obtain rfl := List.mem_singleton.mp ho
    exact ⟨rfl, hsent⟩⟩

/-- R126, R131: the reads of a stripe's lines. -/
theorem stripeStart_joinQueues (w : StripeWork) (s : State) : JoinQueues w.ch s (stripeStart w s) := by
  have hwork : JoinQueues w.ch s (s.modMed fun d => { d with works := d.works ++ [w] }) := fun _ =>
    ⟨[], s.med.works ++ [w], s.med.nextOp, by simp only [List.append_nil]; rfl, fun _ h => absurd h List.not_mem_nil⟩
  rw [stripeStart]
  split
  · exact .refl _ s
  · exact hwork.trans (forEach_related (JoinQueues.refl w.ch) JoinQueues.trans w.left
      (fun p s => pushOp_joinQueues (op := stripeOp s w p) rfl s) _)

end Sys2Proof.Machine
end

section
/-! A channel after its bring-up (R85, R115). -/

namespace Sys2Proof.Machine

open Sys2Proof

/-- R85 step 7, R115: a channel as it comes up in the frame now: from reset after power-up, and as it was after a reinit. -/
def joinedChan (c : Nat) (present : BitVec 18) (s : State) (x : Chan) : Chan :=
  let m2 := s.board.m2.getLsbD c
  let first := (chan s c).state != .reinit
  let open_ := if first then [] else (chan s c).openStripes
  { x with state := .active, gen := if m2 then 2 else 1, dies := s.board.dieCount, present := present,
           reconQ := [], map := if first then (if m2 then 0x8444844484448444 else 0x84448444) else x.map,
           sched := if first then 7 else x.sched, failStep := 0, attempts := 0, recon := none, banks := [],
           openStripes := open_, frame := mintNow s / 1024 * 1024, slot := slotCount s c, token := [], reinitFails := 0,
           quiet := quietIn s c (mintNow s), joining := true, mending := !open_.isEmpty, fullFrame := false }

/-- The table of dies once those of channel c at given positions hold their configuration (R85 step 6). -/
def configured (s : State) (c : Nat) (pos : List Nat) (t : Tab Die) : Tab Die :=
  pos.foldl (fun t p => tput default t (dieKey c p) (dieUp s c p)) t

/-- The positions that answered (R85 step 5). -/
def answering (present : BitVec 18) : List Nat := (List.range 18).filter fun p => present.getLsbD p

/-- A channel that has come up, with its dies configured (R85 steps 6 and 7). -/
def joined (c : Nat) (present : BitVec 18) (s : State) : State :=
  (modChan c (joinedChan c present s) s).modMed fun d => { d with dies := configured s c (answering present) d.dies }

/-- R115: the operations that a channel has are to be sent again. -/
def sentAgain (c : Nat) (s : State) : State :=
  s.modMed fun d => { d with ops := d.ops.map fun o =>
    if o.ch == c then { o with sent := false, issued := false, queuedAt := s.clock } else o }

/-- The stripes of a channel that its parity and its programs need are read (R126, R131). -/
def stripesRead (c : Nat) (rows : List (Nat × Nat)) (s : State) : State :=
  let s := forEach rows (fun x s =>
    stripeStart { ch := c, m := x.1, row := x.2, use := .parity, left := List.range s.board.dieCount } s) s
  forEach (s.med.ops.filter fun o => o.ch == c && needsStripe s o) (fun o s =>
    stripeStart { ch := c, m := o.m, row := o.row, use := .write o.id, left := (List.range s.board.dieCount).filter (· != o.pos) } s) s

theorem dieKey_injective {c p q : Nat} (h : dieKey c p = dieKey c q) : p = q := Nat.add_left_cancel h

theorem tget_configured_other {s : State} {c k : Nat} {pos : List Nat} (hk : ∀ p ∈ pos, k ≠ dieKey c p) (t : Tab Die) :
    tget default (configured s c pos t) k = tget default t k := by
  induction pos generalizing t with
  | nil => rfl
  | cons q pos ih =>
    exact (ih (fun p hp => hk p (List.mem_cons_of_mem q hp)) _).trans (tget_tput_ne _ _ _ _ _ _ (hk q List.mem_cons_self))

theorem tget_configured {s : State} {c p : Nat} {pos : List Nat} (hp : p ∈ pos) (t : Tab Die) :
    tget default (configured s c pos t) (dieKey c p) = dieUp s c p := by
  induction pos generalizing t with
  | nil => exact absurd hp List.not_mem_nil
  | cons q pos ih =>
    by_cases hmem : p ∈ pos
    · exact ih hmem _
    · obtain rfl : p = q := (List.mem_cons.mp hp).resolve_right hmem
      have hother : ∀ r ∈ pos, dieKey c p ≠ dieKey c r := fun r hr hkey => hmem (dieKey_injective hkey ▸ hr)
      exact (tget_configured_other hother (tput default t (dieKey c p) (dieUp s c p))).trans (tget_tput_same _ _ _ _)

theorem stripesRead_joinQueues (c : Nat) (rows : List (Nat × Nat)) (s : State) : JoinQueues c s (stripesRead c rows s) := by
  have hstart (w : StripeWork) (hw : w.ch = c) (u : State) : JoinQueues c u (stripeStart w u) := hw ▸ stripeStart_joinQueues w u
  exact (forEach_related (JoinQueues.refl c) JoinQueues.trans rows (fun x u => hstart _ rfl u) s).trans
    (forEach_related (JoinQueues.refl c) JoinQueues.trans _ (fun o u => hstart _ rfl u) _)

theorem channelUp_eq (c : Nat) (present : BitVec 18) (s : State) :
    channelUp c present s = stripesRead c (if (chan s c).state != .reinit then [] else (chan s c).openStripes)
      (sentAgain c (configSend c (answering present) (joined c present s))) := rfl

/-- R85 steps 6 and 7: packets to the channel's dies, and the reads of the stripes that its parity and its programs need. -/
theorem channelUp_spec (c : Nat) (present : BitVec 18) (s : State) :
    ∃ u, DieSends c (sentAgain c (joined c present s)) u ∧ ReadsQueued c u (channelUp c present s) := by
  obtain ⟨sent, hconfig, hsent⟩ := configSend_dieSends c (answering present) (joined c present s)
  refine ⟨(sentAgain c (joined c present s)).setOutbox (sent ++ s.outbox), ⟨sent, rfl, hsent⟩, ?_⟩
  rw [channelUp_eq, hconfig]
  refine stripesRead_joinQueues c _ _ ?_
  show (chan (modChan c (joinedChan c present s) s) c).joining = true
  rw [chan_modChan_same, joinedChan]

/-- With no access that waits so, none is looked at again. -/
theorem retryWhere_none {p : TxnWait → Bool} {s : State} (hwait : ∀ x ∈ s.fe.txns, p x.wait = false) : retryWhere p s = s := by
  have hnone : (s.fe.txns.filter fun t => p t.wait) = [] := List.filter_eq_nil_iff.mpr fun x hx => by simp [hwait x hx]
  rw [retryWhere, hnone]
  rfl

theorem mem_answering {present : BitVec 18} {p : Nat} : p ∈ answering present ↔ p < 18 ∧ present.getLsbD p = true := by
  rw [answering, List.mem_filter, List.mem_range]

/-- What a channel whose dies all answered is left with (R85 step 7, R115, R484). -/
theorem channelUp_effect (c : Nat) (present : BitVec 18) (s : State) :
    let t := channelUp c present s
    chan t c = joinedChan c present s (chan s c) ∧ (∀ d, d ≠ c → chan t d = chan s d) ∧
      t.med.dies = configured s c (answering present) s.med.dies ∧ (∀ o ∈ t.med.ops, o.ch = c → o.sent = false) ∧
      ∃ sent, (∀ x ∈ sent, chanOut c x) ∧
        t = (s.setOutbox (sent ++ s.outbox)).modMed fun _ => t.med := by
  obtain ⟨u, ⟨sent, rfl, hsent⟩, new, works, n, hnew, hops⟩ := channelUp_spec c present s
  dsimp only
  rw [hnew]
  refine ⟨chan_modChan_same c (joinedChan c present s) s, fun d hd => chan_modChan_ne c d (joinedChan c present s) s hd, rfl, fun o ho hch => ?_, sent, hsent, rfl⟩
  rcases List.mem_append.mp ho with hold | hread
  · obtain ⟨a, -, rfl⟩ := List.mem_map.mp hold
    by_cases ha : a.ch = c
    · simp [ha]
    · simp [ha] at hch
  · exact (hops o hread).2

end Sys2Proof.Machine
end

section
/-! CHANNEL_BRINGUP of a channel whose dies all answered (R85 step 7). -/

namespace Sys2Proof.Machine

open Sys2Proof

/-- The reinit of a channel is over, and its PLL is locked (R115, R484). -/
def reinitOver (c : Nat) (s : State) : State :=
  s.modSup fun u => { u with pllLocked := true, fnBusy := u.fnBusy.filter fun f => f != .channel c,
                             fnFails := tput 0 u.fnFails (fnCode (.channel c)) 0 }

/-- A bring-up of channel c may run: the channel is populated, is neither active nor failed, and its block is in service. -/
def bringupRuns (c : Nat) (s : State) : Prop :=
  populated s c = true ∧ (chan s c).state ≠ .active ∧ (chan s c).state ≠ .failed ∧ s.sup.state = .on ∧ s.sup.inReset = false

/-- Every expected die answered, none beyond the data positions did, and each is of the board's kind (R85 step 5). -/
def diesAnswer (c : Nat) (present m2 : BitVec 18) (s : State) : Prop :=
  present &&& expected s c = expected s c ∧ present &&& ~~~allowedDies s = 0 ∧
    present &&& m2 = if s.board.m2.getLsbD c then present else 0

theorem channelBringup_skips {c : Nat} {s : State} (present m2 : BitVec 18)
    (h : populated s c = false ∨ (chan s c).state = .active ∨ (chan s c).state = .failed ∨ s.sup.state ≠ .on ∨ s.sup.inReset = true) :
    exec (.channelBringup c present m2) s = .next s := by
  refine if_pos ?_
  simp only [Bool.or_eq_true, Bool.not_eq_true', beq_iff_eq, bne_iff_ne]
  tauto

theorem channelBringup_comesUp {c : Nat} {present m2 : BitVec 18} {s : State} (hrun : bringupRuns c s)
    (hgen : oneGen present m2 = true) (hdies : diesAnswer c present m2 s) :
    exec (.channelBringup c present m2) s =
      .next (retryWhere (fun w => w == .reinit) (reinitOver c (channelUp c present (bringupSend c present s)))) := by
  obtain ⟨hpop, hactive, hfailed, hon, hreset⟩ := hrun
  obtain ⟨hexp, hallowed, hkind⟩ := hdies
  obtain ⟨sent, hsend, -⟩ := bringupSend_dieSends c present s
  have hexp' : present &&& expected (bringupSend c present s) c = expected (bringupSend c present s) c := by rw [hsend]; exact hexp
  have hallowed' : present &&& ~~~allowedDies (bringupSend c present s) = 0 := by rw [hsend]; exact hallowed
  have hkind' : present &&& m2 = if (bringupSend c present s).board.m2.getLsbD c then present else 0 := by rw [hsend]; exact hkind
  refine (if_neg ?_).trans ((if_neg ?_).trans ((if_neg ?_).trans rfl))
  · simp [hpop, hactive, hfailed, hon, hreset]
  · simp [hgen]
  · simp only [hexp', hallowed', hkind']
    simp

/-- What a channel that comes up is left with (R85, R115, R484, R485). -/
theorem channelBringup_up {c : Nat} {present m2 : BitVec 18} {s : State} (hrun : bringupRuns c s)
    (hgen : oneGen present m2 = true) (hdies : diesAnswer c present m2 s) (hwait : ∀ x ∈ s.fe.txns, x.wait ≠ .reinit) :
    ∃ t, exec (.channelBringup c present m2) s = .next t ∧ chan t c = joinedChan c present s (chan s c) ∧
      (∀ d, d ≠ c → chan t d = chan s d) ∧ t.med.dies = configured s c (answering present) s.med.dies ∧
      (∀ o ∈ t.med.ops, o.ch = c → o.sent = false) ∧
      ∃ sent, (∀ x ∈ sent, chanOut c x) ∧ t = reinitOver c ((s.setOutbox (sent ++ s.outbox)).modMed fun _ => t.med) := by
  obtain ⟨asked, hsend, hasked⟩ := bringupSend_dieSends c present s
  obtain ⟨hchan, hother, hconf, hops, sent, hsent, ht⟩ := channelUp_effect c present (bringupSend c present s)
  have hexec := channelBringup_comesUp hrun hgen hdies
  rw [hsend] at hexec hchan hother hconf hops ht
  have htxns : (reinitOver c (channelUp c present (s.setOutbox (asked ++ s.outbox)))).fe.txns = s.fe.txns := by rw [ht]; rfl
  rw [retryWhere_none (p := fun w => w == .reinit) fun x hx => beq_eq_false_iff_ne.mpr (hwait x (htxns ▸ hx))] at hexec
  refine ⟨_, hexec, hchan, hother, hconf, hops, sent ++ asked, fun x hx => (List.mem_append.mp hx).elim (hsent x) (hasked x), ?_⟩
  rw [List.append_assoc]
  exact congrArg (reinitOver c) ht

end Sys2Proof.Machine
end

section
/-! A channel whose bring-up fails (R85 step 5, R86, R115). -/

namespace Sys2Proof.Machine

open Sys2Proof

/-- With no access under way, the failure of a channel ends its operations and nothing else. -/
theorem channelFail_noTxns (c step : Nat) {s : State} (htxns : s.fe.txns = []) :
    channelFail c step s = (modChan c (fun x => { x with state := .failed, failStep := step }) s).modMed fun d =>
      { d with ops := d.ops.filter fun o => o.ch != c, works := d.works.filter fun w => w.ch != c } := by
  rw [channelFail, htxns]
  rfl

/-- What notification leaves as it was, it leaves so whatever stands in the outbox. -/
theorem Noted.setOutbox {s t : State} (h : Noted s t) (o : List Out) : Noted (s.setOutbox o) (t.setOutbox o) :=
  ⟨h.1, h.2.1, rfl, h.2.2.2.1, h.2.2.2.2⟩

theorem Noted.channelFail {s t : State} (h : Noted s t) (c step : Nat) (htxns : s.fe.txns = []) :
    Noted (channelFail c step s) (channelFail c step t) := by
  rw [channelFail_noTxns c step htxns, channelFail_noTxns c step (h.txns.trans htxns)]
  exact (h.modMed _).modMed _

theorem ite_raise_noted (p : Prop) [Decidable p] (g src n : Nat) (d : Det) (s : State) :
    Noted s (if p then raise g src n d s else s) := by
  split
  · exact raise_noted g src n d s
  · exact .refl s

/-- R86: what a failed channel is left with, and what its failure leaves alone. -/
theorem channelFail_effect {c step : Nat} {f : Chan → Chan} {s t : State} (htxns : s.fe.txns = [])
    (h : Noted (channelFail c step (modChan c f s)) t) :
    chan t c = { f (chan s c) with state := .failed, failStep := step } ∧ (∀ o ∈ t.med.ops, o.ch ≠ c) ∧
      (∀ d, d ≠ c → chan t d = chan s d) ∧
      Noted s (t.modMed fun m => { m with chans := s.med.chans, ops := s.med.ops, works := s.med.works }) := by
  rw [channelFail_noTxns c step (s := modChan c f s) htxns] at h
  refine ⟨?_, fun o ho => ?_, fun d hd => ?_, h.modMed _⟩
  · exact ((h.chan c).trans (chan_modChan_same c (fun x => { x with state := .failed, failStep := step }) (modChan c f s))).trans
      (by rw [chan_modChan_same])
  · rw [h.med] at ho
    exact bne_iff_ne.mp (List.mem_filter.mp ho).2
  · exact ((h.chan d).trans (chan_modChan_ne c d (fun x => { x with state := .failed, failStep := step }) (modChan c f s) hd)).trans
      (chan_modChan_ne c d f s hd)

/-- R85 step 5, R86: a bring-up with dies that do not answer as the board has them fails its channel at step 5. -/
theorem channelBringup_fails {c : Nat} {present m2 : BitVec 18} {s : State} (hrun : bringupRuns c s)
    (hdies : oneGen present m2 = false ∨ ¬ diesAnswer c present m2 s) :
    ∃ f d v, exec (.channelBringup c present m2) s = .next (raise 3 c 0x05 d v) ∧
      Noted (channelFail c 5 (modChan c f (bringupSend c present s))) v := by
  obtain ⟨hpop, hactive, hfailed, hon, hreset⟩ := hrun
  have hguard : ¬ (!populated s c || (chan s c).state == .active || (chan s c).state == .failed || s.sup.state != .on ||
      s.sup.inReset) = true := by
    simp [hpop, hactive, hfailed, hon, hreset]
  have hraised (mix : Prop) [Decidable mix] (u : State) := (ite_raise_noted mix 3 c 0x06 (det2 c 0 0 0 5) u).trans
    (ite_raise_noted ((chan s c).state == .reinit) 3 c 0x07 (det2 c 0 0 0 5) _)
  cases hgen : oneGen present m2 with
  | false => exact ⟨_, _, _, (if_neg hguard).trans (if_pos (by rw [hgen]; rfl)), hraised (true = true) _⟩
  | true =>
    obtain ⟨sent, hsend, -⟩ := bringupSend_dieSends c present s
    have hmissing : (present &&& expected (bringupSend c present s) c != expected (bringupSend c present s) c ||
        present &&& ~~~allowedDies (bringupSend c present s) != 0 ||
        present &&& m2 != (if (bringupSend c present s).board.m2.getLsbD c then present else 0)) = true := by
      have hnot := hdies.resolve_left (by simp [hgen])
      rw [hsend]
      simp only [diesAnswer] at hnot
      simp only [Bool.or_eq_true, bne_iff_ne]
      exact by_contra fun hall => hnot (by tauto)
    exact ⟨_, _, _, (if_neg hguard).trans ((if_neg (by rw [hgen]; decide)).trans (if_pos hmissing)), hraised (false = true) _⟩

/-- R86: a channel's record once a step of its bring-up did not complete. -/
def timedOut (c step : Nat) (s : State) (x : Chan) : Chan :=
  { x with attempts := (chan s c).attempts + 1, failStep := step,
           state := if (chan s c).state == .off then .bringup else (chan s c).state }

/-- R86: the first failed step of a bring-up is tried again. -/
theorem bringupStepTimeout_first {c : Nat} (step : Nat) {s : State} (hpop : populated s c = true)
    (hactive : (chan s c).state ≠ .active) (hfailed : (chan s c).state ≠ .failed) (hn : (chan s c).attempts = 0) :
    exec (.bringupStepTimeout c step) s = .next (modChan c (timedOut c step s) s) :=
  (if_neg (by simp [hpop, hactive, hfailed])).trans (congrArg Host.Outcome.next (if_pos (by omega)))

/-- R86: the second failed step of a bring-up fails the channel. -/
theorem bringupStepTimeout_fails {c : Nat} (step : Nat) {s : State} (hpop : populated s c = true)
    (hactive : (chan s c).state ≠ .active) (hfailed : (chan s c).state ≠ .failed) (hn : (chan s c).attempts ≠ 0)
    (htxns : s.fe.txns = []) :
    ∃ d v, exec (.bringupStepTimeout c step) s = .next (raise 3 c 0x05 d v) ∧
      Noted (channelFail c step (modChan c (timedOut c step s) s)) v :=
  ⟨_, _, (if_neg (by simp [hpop, hactive, hfailed])).trans (congrArg Host.Outcome.next (if_neg (by omega))),
    (ite_raise_noted ((chan s c).state == .reinit) 3 c 0x07 (det2 c 0 0 0 step) _).channelFail c step htxns⟩

end Sys2Proof.Machine
end

section
/-! CHANNEL_REINIT (R115, R485). -/

namespace Sys2Proof.Machine

open Sys2Proof

/-- The media and the supervisor of a state. -/
def mediaSuper (s : State) : Media × Super := (s.med, s.sup)

theorem heldLose_mediaSuper (dom : Nat → Bool) (s : State) : mediaSuper (heldLose dom s) = mediaSuper s := by
  rw [heldLose, forEach_keeps mediaSuper]
  · rfl
  · intro w u
    rw [mediaSuper, raise_med, raise_sup]
    rfl

theorem tillRedrain_mediaSuper (lineNo op : Nat) (s : State) : mediaSuper (tillRedrain lineNo op s) = mediaSuper s := by
  unfold tillRedrain
  extract_lets newer next back moved waiting
  have hwaiting : mediaSuper waiting = mediaSuper s := rfl
  clear_value waiting newer
  split
  · split <;> exact hwaiting
  · split
    · split <;> exact hwaiting
    · exact hwaiting

/-- A channel's record as its reinit begins (R115). -/
def inReinit (x : Chan) : Chan :=
  { x with state := .reinit, attempts := 0, recon := none, reconQ := [], blankAt := [], fullFrame := false, lastCtl := [] }

/-- R115: the operations that a channel keeps over its reinit are to be sent again. -/
def opsKept (c : Nat) (m : Media) : Media :=
  { m with ops := (m.ops.filter fun o => o.ch != c || reinitKeeps o).map fun o =>
             if o.ch == c then { o with sent := false, issued := false, updated := false, merged := false, noMerge := false } else o,
           works := m.works.filter fun w => w.ch != c }

/-- What a reinit does with the operations that it drops concerns neither the media nor the supervisor. -/
theorem channelReinitOp_mediaSuper (c : Nat) (s : State) :
    mediaSuper (channelReinitOp c s) = mediaSuper (modChan c inReinit (s.modMed (opsKept c))) := by
  have hmod {u v : State} (h : mediaSuper u = mediaSuper v) (f : Media → Media) : mediaSuper (u.modMed f) = mediaSuper (v.modMed f) :=
    congrArg (Prod.map f id) h
  refine hmod ((forEach_keeps mediaSuper _ (fun o u => ?_) _).trans (hmod (heldLose_mediaSuper _ s) (opsKept c))) _
  cases o.purpose with
  | drain l => exact tillRedrain_mediaSuper l o.id u
  | _ => rfl

/-- R115: what CHANNEL_REINIT leaves of the media and of the supervisor. -/
theorem channelReinit_effect {c : Nat} {s : State} (hpop : populated s c = true) (hactive : (chan s c).state = .active) :
    ∃ d u, exec (.channelReinit c) s = .next (raise 9 6 0x01 d u) ∧ chan u c = inReinit (chan s c) ∧
      (∀ d, d ≠ c → chan u d = chan s d) ∧ (∀ o ∈ u.med.ops, o.ch = c → o.sent = false ∧ o.issued = false) ∧
      Function.channel c ∈ u.sup.fnBusy ∧ u.sup.reinits = min 0xFF (s.sup.reinits + 1) := by
  have hkept := channelReinitOp_mediaSuper c s
  have hmed : (channelReinitOp c s).med = (modChan c inReinit (s.modMed (opsKept c))).med := congrArg Prod.fst hkept
  have hsup : (channelReinitOp c s).sup = s.sup := congrArg Prod.snd hkept
  refine ⟨_, _, congrArg Host.Outcome.next (if_pos (by simp [hpop, hactive])), ?_, fun d hd => ?_, fun o ho hch => ?_, ?_, ?_⟩
  · exact (chan_of_med hmed c).trans (chan_modChan_same c inReinit (s.modMed (opsKept c)))
  · exact (chan_of_med hmed d).trans (chan_modChan_ne c d inReinit (s.modMed (opsKept c)) hd)
  · replace ho : o ∈ (channelReinitOp c s).med.ops := ho
    rw [hmed] at ho
    obtain ⟨a, -, rfl⟩ := List.mem_map.mp ho
    by_cases ha : a.ch = c
    · simp [ha]
    · simp [ha] at hch
  · show Function.channel c ∈ if (channelReinitOp c s).sup.fnBusy.contains (.channel c) then _ else _
    split
    · exact List.contains_iff_mem.mp ‹_›
    · exact List.mem_append_right _ List.mem_cons_self
  · exact congrArg (fun u : Super => satAdd 0xFF u.reinits 1) hsup

end Sys2Proof.Machine
end

section
/-! Channel bring-up, its retry, its failure, and reinit. -/

namespace Sys2Proof.Machine

open Sys2Proof

/-- R85, R115, R484, R485: all that a bring-up with the dies that the board has leaves, and leaves alone. -/
theorem channelBringup_comesUp_effect {c : Nat} {present m2 : BitVec 18} {s : State} (hrun : bringupRuns c s)
    (hgen : oneGen present m2 = true) (hdies : diesAnswer c present m2 s) (hwait : ∀ x ∈ s.fe.txns, x.wait ≠ .reinit) :
    ∃ t, exec (.channelBringup c present m2) s = .next t ∧ (chan t c).state = .active ∧ (chan t c).present = present ∧
      (chan t c).frame = s.tbs.mint.toNat / 1024 * 1024 ∧ (chan t c).slot = slotCount s c ∧ (chan t c).failStep = 0 ∧
      ((chan s c).state = .reinit → (chan t c).map = (chan s c).map ∧ (chan t c).sched = (chan s c).sched) ∧
      ((chan s c).state ≠ .reinit → (chan t c).sched = 7 ∧
        (chan t c).map = if s.board.m2.getLsbD c then 0x8444844484448444 else 0x84448444) ∧
      (∀ d, d ≠ c → chan t d = chan s d) ∧
      (∀ p, p < 18 → present.getLsbD p = true → tget default t.med.dies (dieKey c p) = dieUp s c p) ∧
      (∀ k, (∀ p, p < 18 → k ≠ dieKey c p) → tget default t.med.dies k = tget default s.med.dies k) ∧
      (∀ o ∈ t.med.ops, o.ch = c → o.sent = false) ∧ Function.channel c ∉ t.sup.fnBusy ∧
      t.led = s.led ∧ t.pur = s.pur ∧ t.integ = s.integ ∧ t.fe = s.fe ∧ t.regs = s.regs ∧
      ∃ sent, t.outbox = sent ++ s.outbox ∧ ∀ x ∈ sent, x = .mrst c true ∨ x = .mrst c false ∨ ∃ cs p, x = .dieCmd c cs p := by
  obtain ⟨t, hexec, hchan, hother, hconf, hops, sent, hsent, ht⟩ := channelBringup_up hrun hgen hdies hwait
  refine ⟨t, hexec, ?_⟩
  rw [hchan, hconf]
  refine ⟨rfl, rfl, rfl, rfl, rfl, fun hre => ?_, fun hre => ?_, hother, fun p hp hpres => tget_configured (mem_answering.mpr ⟨hp, hpres⟩) _,
    fun k hk => tget_configured_other (fun p hp => hk p (mem_answering.mp hp).1) _, hops, ?_, ?_⟩
  · simp [joinedChan, hre]
  · simp [joinedChan, hre]
  · rw [ht]
    exact fun hbusy => by simpa using (List.mem_filter.mp hbusy).2
  · rw [ht]
    exact ⟨rfl, rfl, rfl, rfl, rfl, sent, rfl, hsent⟩

/-- R85 step 5, R86: all that a bring-up with other dies than the board has leaves, and leaves alone. -/
theorem channelBringup_fails_effect {c : Nat} {present m2 : BitVec 18} {s : State} (hc : c < 32) (hrun : bringupRuns c s)
    (htxns : s.fe.txns = []) (hdies : oneGen present m2 = false ∨ ¬ diesAnswer c present m2 s) :
    ∃ t, exec (.channelBringup c present m2) s = .next t ∧ Pends 3 c 0x05 t ∧ (chan t c).state = .failed ∧
      (chan t c).failStep = 5 ∧ (∀ o ∈ t.med.ops, o.ch ≠ c) ∧ (∀ d, d ≠ c → chan t d = chan s d) ∧
      t.said = (bringupSend c present s).said ∧
      Noted s ((t.setOutbox s.outbox).modMed fun m => { m with chans := s.med.chans, ops := s.med.ops, works := s.med.works }) := by
  obtain ⟨f, d, v, hexec, hnoted⟩ := channelBringup_fails hrun hdies
  obtain ⟨sent, hsend, -⟩ := bringupSend_dieSends c present s
  rw [hsend] at hnoted ⊢
  obtain ⟨hchan, hops, hother, hframe⟩ := channelFail_effect (s := s.setOutbox (sent ++ s.outbox)) htxns (hnoted.raise 3 c 0x05 d)
  exact ⟨_, hexec, raise_pends_low 3 c 0x05 d v (by decide) hc (by decide), congrArg Chan.state hchan, congrArg Chan.failStep hchan,
    hops, hother, hframe.said, hframe.setOutbox s.outbox⟩

/-- R86: a step of a bring-up that does not complete is tried again once. -/
theorem bringupStepTimeout_effect {c : Nat} (step : Nat) {s : State} (hc : c < 32) (hpop : populated s c = true)
    (hactive : (chan s c).state ≠ .active) (hfailed : (chan s c).state ≠ .failed) (htxns : s.fe.txns = []) :
    ∃ t, exec (.bringupStepTimeout c step) s = .next t ∧ (chan t c).attempts = (chan s c).attempts + 1 ∧
      (chan t c).failStep = step ∧ (∀ d, d ≠ c → chan t d = chan s d) ∧
      Noted s (t.modMed fun m => { m with chans := s.med.chans, ops := s.med.ops, works := s.med.works }) ∧
      if (chan s c).attempts = 0 then
        (chan t c).state = (if (chan s c).state = .off then .bringup else (chan s c).state) ∧ t.med.ops = s.med.ops
      else (chan t c).state = .failed ∧ Pends 3 c 0x05 t ∧ ∀ o ∈ t.med.ops, o.ch ≠ c := by
  by_cases hn : (chan s c).attempts = 0
  · refine ⟨_, bringupStepTimeout_first step hpop hactive hfailed hn, ?_⟩
    rw [chan_modChan_same, if_pos hn]
    refine ⟨rfl, rfl, fun d hd => chan_modChan_ne c d _ s hd, .refl s, ?_, rfl⟩
    simp only [timedOut, beq_iff_eq]
  · obtain ⟨d, v, hexec, hnoted⟩ := bringupStepTimeout_fails step hpop hactive hfailed hn htxns
    obtain ⟨hchan, hops, hother, hframe⟩ := channelFail_effect htxns (hnoted.raise 3 c 0x05 d)
    refine ⟨_, hexec, congrArg Chan.attempts hchan, congrArg Chan.failStep hchan, hother, hframe, ?_⟩
    rw [if_neg hn]
    exact ⟨congrArg Chan.state hchan, raise_pends_low 3 c 0x05 d v (by decide) hc (by decide), hops⟩

theorem channelReinit_skips {c : Nat} {s : State} (h : populated s c = false ∨ (chan s c).state ≠ .active) :
    exec (.channelReinit c) s = .next s := by
  refine congrArg Host.Outcome.next (if_neg ?_)
  rw [Bool.and_eq_true, beq_iff_eq]
  rintro ⟨hpop, hactive⟩
  exact h.elim (fun hno => absurd (hpop.symm.trans hno) (by decide)) (· hactive)

/-- Settles O23: the five events are followed one by one. The packets of R85 leave everything but what was sent as it was;
a channel that has come up waits for its first frame, so that the reads of its stripes are queued and none is sent; the
failure of a channel with no access under way ends its operations and nothing else; and what a reinit says of the
operations that it drops reaches neither the media nor the supervisor. -/
theorem channelBringup : Obligations.ChannelBringup := by
  refine ⟨fun c present m2 s h => channelBringup_skips present m2 h, ?_, ?_, ?_, fun c s h => channelReinit_skips h, ?_⟩
  · intro c present m2 s hpop hactive hfailed hon hreset hgen hexp hallowed hkind hwait
    exact channelBringup_comesUp_effect ⟨hpop, hactive, hfailed, hon, hreset⟩ hgen ⟨hexp, hallowed, hkind⟩ hwait
  · intro c present m2 s hc hpop hactive hfailed hon hreset htxns hdies
    refine channelBringup_fails_effect hc ⟨hpop, hactive, hfailed, hon, hreset⟩ htxns (hdies.imp_right ?_)
    rintro hdiffer ⟨hexp, hallowed, hkind⟩
    tauto
  · intro c step s hc hpop hactive hfailed htxns
    exact bringupStepTimeout_effect step hc hpop hactive hfailed htxns
  · intro c s hpop hactive
    obtain ⟨d, u, hexec, hchan, hother, hops, hbusy, hreinits⟩ := channelReinit_effect hpop hactive
    have hnoted := raise_noted 9 6 0x01 d u
    refine ⟨_, hexec, raise_pends_low 9 6 0x01 d u (by decide) (by decide) (by decide), ?_⟩
    rw [hnoted.chan, hnoted.med, hnoted.sup, hchan]
    exact ⟨rfl, rfl, rfl, hbusy, hreinits, fun d hd => (hnoted.chan d).trans (hother d hd), hops⟩

end Sys2Proof.Machine
end

section
/-! The mint time's set, its dialogues and its lock (R217, R220-R222). -/

namespace Sys2Proof.Machine

open Sys2Proof

/-- What setting the mint time leaves alone besides the drift machinery: the ledger's entries, the purse and the timebase. -/
def entriesPurseTime (s : State) : Tab LEntry × Purse × Timebase := (s.led.entries, s.pur, s.tbs)

theorem Queued.entriesPurseTime {s t : State} (h : Queued s t) : entriesPurseTime t = Machine.entriesPurseTime s := by
  have hentries : t.led.idle.entries = s.led.idle.entries := congrArg _ h.led
  replace hentries : t.led.entries = s.led.entries := hentries
  simp only [Machine.entriesPurseTime, hentries, h.pur, h.tbs]

/-- Either branch looks the same, so the choice does. -/
theorem look_ite {β : Type} {look : State → β} {p : Prop} [Decidable p] {a b : State} {x : β} (ha : look a = x) (hb : look b = x) :
    look (if p then a else b) = x := by
  split <;> assumption

theorem queueFolioRestrike_entriesPurseTime (f : Nat) (s : State) : entriesPurseTime (queueFolioRestrike f s) = entriesPurseTime s :=
  forEach_keeps entriesPurseTime (writtenKeys s (ent s f).media) (f := fun o u => queueRestrike (ent s f).media o u) (fun _ _ => rfl) s

/-- R142: starting the scrub only queues restrikes. -/
theorem scrubStart_entriesPurseTime (s : State) : entriesPurseTime (scrubStart s) = entriesPurseTime s :=
  look_ite rfl ((forEach_keeps entriesPurseTime _ queueFolioRestrike_entriesPurseTime _).trans rfl)

theorem searchExit_entriesPurseTime (s : State) : entriesPurseTime (searchExit s) = entriesPurseTime s :=
  look_ite (raise_noted _ _ _ _ _).queued.entriesPurseTime rfl

/-- R84: the dies learn the time by packets alone. -/
theorem dieTimeSend_keeps {β : Type} (look : State → β)
    (hmod : ∀ c f u, look (modChan c f u) = look u) (hsend : ∀ o u, look (send o u) = look u)
    (n : Nat) (valid : Bool) (s : State) :
    look (dieTimeSend n valid s) =
      look (s.modMed fun d => { d with timeUpdated := n, diesTime := BitVec.ofNat 24 n, diesTimeValid := valid }) :=
  forEach_keeps look _ (fun _ _ => (hsend _ _).trans (hmod _ _ _)) _

theorem dieTimeSend_entriesPurseTime (n : Nat) (valid : Bool) (s : State) :
    entriesPurseTime (dieTimeSend n valid s) = entriesPurseTime s :=
  dieTimeSend_keeps entriesPurseTime (fun _ _ _ => rfl) (fun _ _ => rfl) n valid s

theorem dieTimeSend_timeUpdated (n : Nat) (valid : Bool) (s : State) : (dieTimeSend n valid s).med.timeUpdated = n :=
  dieTimeSend_keeps (fun u => u.med.timeUpdated) (fun _ _ _ => rfl) (fun _ _ => rfl) n valid s

/-- R140, R221: the first set reaches the drift machinery only. -/
theorem firstSet_entriesPurseTime (v : Nat) (s : State) : entriesPurseTime (firstSet v s) = entriesPurseTime s := by
  refine (dieTimeSend_entriesPurseTime _ _ _).trans (look_ite ((searchExit_entriesPurseTime _).trans ?_) ?_) <;>
    exact (scrubStart_entriesPurseTime _).trans (look_ite (recordQueue_queued _ _).entriesPurseTime rfl)

/-- R220: before its boundary a pending set waits. -/
theorem mintTimeSet_waits {s : State} (h : s.tbs.pendSet = none ∨ ∃ w, s.tbs.pendSet = some w ∧ s.tbs.mint.toNat < w.1) :
    exec .mintTimeSet s = .next s := by
  show execMintTimeSet s = _
  rcases h with h | ⟨⟨bd, w⟩, h, hlt⟩
  · rw [execMintTimeSet, h]
  · simp only [execMintTimeSet, h]
    exact if_pos hlt

/-- R220: the mint time as a set at its boundary leaves it, where it does not pass 2^64. -/
theorem mintMove_mint {bd v : Nat} {s : State} (h : s.tbs.mint.toNat - bd + v < 2 ^ 64) :
    (mintMove bd v s).tbs.mint.toNat = v / 1024 * 1024 + (s.tbs.mint.toNat - bd) := by
  show (BitVec.ofNat 64 _).toNat = _
  rw [BitVec.toNat_ofNat]
  exact Nat.mod_eq_of_lt (by omega)

/-- R220, R221: the first set applies at its boundary. -/
theorem mintTimeSet_first {bd : Nat} {w : BitVec 64} {s : State} (hpend : s.tbs.pendSet = some (bd, w)) (hbd : bd ≤ s.tbs.mint.toNat)
    (hset : s.tbs.set = false) :
    exec .mintTimeSet s =
      .next (raise 7 0 0x01 (det3 w.toNat 0) (firstSet w.toNat ((mintMove bd w.toNat s).modTbs fun t => { t with set := true }))) := by
  show execMintTimeSet s = _
  simp only [execMintTimeSet, hpend]
  exact (if_neg (Nat.not_lt.mpr hbd)).trans (if_pos (by simp [hset]))

/-- R220: a later set applies at its boundary or is refused there. -/
theorem mintTimeSet_later {bd : Nat} {w : BitVec 64} {s : State} (hpend : s.tbs.pendSet = some (bd, w)) (hbd : bd ≤ s.tbs.mint.toNat)
    (hset : s.tbs.set = true) :
    exec .mintTimeSet s =
      .next (if w.toNat / 1024 * 1024 < bd ∨ 2 ^ 32 + bd < w.toNat / 1024 * 1024 then
          setRefused (s.modTbs fun t => { t with pendSet := none })
        else if bd < w.toNat / 1024 * 1024 then 
          raise 7 0 0x02 (det3 w.toNat bd) (rbit (mintMove bd w.toNat s) 0x60000 9)
        else mintMove bd w.toNat s) := by
  show execMintTimeSet s = _
  simp only [execMintTimeSet, hpend]
  refine (if_neg (Nat.not_lt.mpr hbd)).trans ((if_neg (by simp [hset])).trans ?_)
  simp only [Bool.or_eq_true, decide_eq_true_eq]
  split <;> rfl

/-- A bit that is set in a register. -/
theorem rbit_getLsbD (s : State) (k : Nat) {i : Nat} (hi : i < 32) : (rget (rbit s k i) k).getLsbD i = true := by
  rw [rget_rbit_same, BitVec.getLsbD_or, BitVec.natCast_eq_ofNat, BitVec.getLsbD_ofNat, Nat.one_shiftLeft, Nat.testBit_two_pow_self]
  simp [hi]

/-- R220: all that the first set does. -/
theorem mintTimeSet_first_effect {bd : Nat} {w : BitVec 64} {s : State} (hpend : s.tbs.pendSet = some (bd, w))
    (hbd : bd ≤ s.tbs.mint.toNat) (hfits : s.tbs.mint.toNat - bd + w.toNat < 2 ^ 64) (hset : s.tbs.set = false) :
    ∃ t, exec .mintTimeSet s = .next t ∧ Pends 7 0 0x01 t ∧ t.tbs.set = true ∧ t.tbs.pendSet = none ∧
      t.tbs.mint.toNat = w.toNat / 1024 * 1024 + (s.tbs.mint.toNat - bd) ∧ t.tbs.slew = Int.ofNat (w.toNat % 1024) ∧
      t.med.timeUpdated = w.toNat / 2 ^ 32 ∧ t.led.entries = s.led.entries ∧ t.pur = s.pur := by
  refine ⟨_, mintTimeSet_first hpend hbd hset, raise_pends_low _ _ _ _ _ (by decide) (by decide) (by decide), ?_⟩
  have hlook := firstSet_entriesPurseTime w.toNat ((mintMove bd w.toNat s).modTbs fun t => { t with set := true })
  simp only [entriesPurseTime, Prod.mk.injEq] at hlook
  obtain ⟨hentries, hpur, htbs⟩ := hlook
  simp only [raise_tbs, raise_led, raise_pur, raise_med, htbs, hpur, hentries]
  exact ⟨rfl, rfl, mintMove_mint hfits, rfl, dieTimeSend_timeUpdated _ _ _, rfl, rfl⟩

/-- R220: a later set whose frame is out of reach is refused. -/
theorem mintTimeSet_refused {bd : Nat} {w : BitVec 64} {s : State} (hpend : s.tbs.pendSet = some (bd, w))
    (hbd : bd ≤ s.tbs.mint.toNat) (hset : s.tbs.set = true)
    (hout : w.toNat / 1024 * 1024 < bd ∨ 2 ^ 32 + bd < w.toNat / 1024 * 1024) :
    ∃ t, exec .mintTimeSet s = .next t ∧ Pends 7 0 0x03 t ∧
      Noted (rbit (s.modTbs fun x => { x with pendSet := none }) 0x60000 8) t :=
  ⟨_, (mintTimeSet_later hpend hbd hset).trans (congrArg _ (if_pos hout)), setRefused_spec _⟩

/-- R220: all that a later set does whose frame is within reach. -/
theorem mintTimeSet_moves {bd : Nat} {w : BitVec 64} {s : State} (hpend : s.tbs.pendSet = some (bd, w))
    (hbd : bd ≤ s.tbs.mint.toNat) (hfits : s.tbs.mint.toNat - bd + w.toNat < 2 ^ 64) (hset : s.tbs.set = true)
    (hlow : bd ≤ w.toNat / 1024 * 1024) (hhigh : w.toNat / 1024 * 1024 ≤ 2 ^ 32 + bd) :
    ∃ t, exec .mintTimeSet s = .next t ∧ t.tbs.mint.toNat = w.toNat / 1024 * 1024 + (s.tbs.mint.toNat - bd) ∧
      t.tbs.pendSet = none ∧ t.tbs.slew = Int.ofNat (w.toNat % 1024) ∧ (t.tbs.slewing = true ↔ w.toNat % 1024 ≠ 0) ∧
      (bd < w.toNat / 1024 * 1024 → Pends 7 0 0x02 t ∧ (rget t 0x60000).getLsbD 9 = true) ∧
      (bd = w.toNat / 1024 * 1024 → (t.modTbs fun _ => s.tbs) = s) := by
  have hexec := (mintTimeSet_later hpend hbd hset).trans (congrArg _ (if_neg (by omega)))
  by_cases hstep : bd < w.toNat / 1024 * 1024
  · rw [if_pos hstep] at hexec
    refine ⟨_, hexec, ?_⟩
    simp only [raise_tbs]
    refine ⟨mintMove_mint hfits, rfl, rfl, bne_iff_ne,
      fun _ => ⟨raise_pends_low _ _ _ _ _ (by decide) (by decide) (by decide), ?_⟩,
      fun h => absurd h hstep.ne⟩
    rw [raise_rget _ _ _ _ _ _ (.inr (by decide))]
    exact rbit_getLsbD _ _ (by decide)
  · rw [if_neg hstep] at hexec
    exact ⟨_, hexec, mintMove_mint hfits, rfl, rfl, bne_iff_ne, fun h => absurd h hstep, fun _ => rfl⟩

/-! PTM dialogues. -/

/-- R222: no dialogue begins. -/
theorem ptmDialogue_skips {s : State}
    (h : s.tbs.source ≠ 1 ∨ s.clock < s.tbs.dialogueAt + max 1 (s.tbs.ptmCfg.toNat % 65536) * 1000000) :
    exec .ptmDialogue s = .next s :=
  if_pos ((Bool.or_eq_true _ _).mpr (h.imp bne_iff_ne.mpr decide_eq_true))

/-- The timebase as a dialogue begins. -/
def dialogueBegun (clock : Nat) (t : Timebase) : Timebase :=
  let n := if t.dialogueOpen then t.unanswered + 1 else 0
  { t with dialogueAt := clock, dialogueOpen := true, unanswered := n, lostRaised := t.lostRaised || n == 3 }

/-- R222: a dialogue begins, and is the third in a row that goes unanswered or not. -/
theorem ptmDialogue_begins {s : State} (hsource : s.tbs.source = 1)
    (hdue : s.tbs.dialogueAt + max 1 (s.tbs.ptmCfg.toNat % 65536) * 1000000 ≤ s.clock) :
    ∃ u, Noted ((s.modTbs (dialogueBegun s.clock)).counted 642 1) u ∧
      exec .ptmDialogue s =
        .next (if s.tbs.dialogueOpen = true ∧ s.tbs.unanswered = 2 ∧ s.tbs.lostRaised = false then
            raise 7 0 0x06 (det3 (mintNow u) 0) (rbit (u.modTbs fun t => { t with slew := 0, slewing := false }) 0x60000 10)
          else u) := by
  refine ⟨_, bump_noted 642 1 (s.modTbs (dialogueBegun s.clock)), ?_⟩
  refine (if_neg ?_).trans (congrArg Host.Outcome.next (ite_congr (propext ?_) (fun _ => rfl) (fun _ => rfl)))
  · exact fun h => ((Bool.or_eq_true _ _).mp h).elim (fun h => bne_iff_ne.mp h hsource) fun h => (of_decide_eq_true h).not_ge hdue
  · cases s.tbs.dialogueOpen <;> simp

/-- R222: all that the beginning of a dialogue does. -/
theorem ptmDialogue_effect {s : State} (hsource : s.tbs.source = 1)
    (hdue : s.tbs.dialogueAt + max 1 (s.tbs.ptmCfg.toNat % 65536) * 1000000 ≤ s.clock) :
    ∃ t, exec .ptmDialogue s = .next t ∧ t.tbs.dialogueAt = s.clock ∧ t.tbs.dialogueOpen = true ∧
      t.tbs.unanswered = (if s.tbs.dialogueOpen then s.tbs.unanswered + 1 else 0) ∧ ctr t 642 = ctr s 642 + 1 ∧
      t.tbs.mint = s.tbs.mint ∧ t.tbs.locked = s.tbs.locked ∧
      (s.tbs.dialogueOpen = true → s.tbs.unanswered = 2 → s.tbs.lostRaised = false →
        Pends 7 0 0x06 t ∧ (rget t 0x60000).getLsbD 10 = true ∧ t.tbs.slewing = false) ∧
      (s.tbs.dialogueOpen = false ∨ s.tbs.unanswered ≠ 2 →
        Noted ((s.modTbs fun _ => t.tbs).counted 642 1) t ∧ t.tbs.slew = s.tbs.slew) := by
  obtain ⟨u, hu, hexec⟩ := ptmDialogue_begins hsource hdue
  have htbs : u.tbs = dialogueBegun s.clock s.tbs := hu.tbs
  have hctr : ctr u 642 = ctr s 642 + 1 := (hu.ctr 642 rfl).trans (State.counted_ctr_same _ _ _)
  by_cases hlost : s.tbs.dialogueOpen = true ∧ s.tbs.unanswered = 2 ∧ s.tbs.lostRaised = false
  · rw [if_pos hlost] at hexec
    refine ⟨_, hexec, ?_⟩
    have hraised := raise_noted 7 0 0x06 (det3 (mintNow u) 0)
      (rbit (u.modTbs fun t => { t with slew := 0, slewing := false }) 0x60000 10)
    rw [hraised.ctr 642 rfl, hraised.tbs, hraised.rget 0x60000 (.inr (by decide))]
    simp only [rbit_tbs, State.modTbs_tbs, htbs]
    refine ⟨rfl, rfl, rfl, hctr, rfl, rfl, fun _ _ _ => ⟨?_, rbit_getLsbD _ _ (by decide), trivial⟩, ?_⟩
    · exact raise_pends_low _ _ _ _ _ (by decide) (by decide) (by decide)
    · rintro (h | h)
      · simp [h] at hlost
      · exact absurd hlost.2.1 h
  · rw [if_neg hlost] at hexec
    refine ⟨u, hexec, ?_⟩
    rw [htbs]
    exact ⟨rfl, rfl, rfl, hctr, rfl, rfl, fun h1 h2 h3 => absurd ⟨h1, h2, h3⟩ hlost, fun _ => ⟨hu, rfl⟩⟩

/-- R222: a response to no open dialogue is ignored. -/
theorem ptmResponse_skips {m : BitVec 64} {s : State}
    (h : s.tbs.source ≠ 1 ∨ s.tbs.dialogueOpen = false ∨ (portOf s (ptmHead s)).width = 0 ∨ (portOf s (ptmHead s)).ptmEn = false) :
    exec (.ptmResponse m) s = .next s :=
  if_pos (by simpa [or_assoc] using h)

/-- t is s but for the lock of R222, and for reasons raised. -/
def OnlyLock (s t : State) : Prop :=
  t.tbs = { s.tbs with locked := t.tbs.locked, lockRun := t.tbs.lockRun } ∧ Noted s (t.modTbs fun _ => s.tbs)

theorem OnlyLock.of_noted {s t : State} {l : Bool} {n : Nat} (h : Noted (s.modTbs fun x => { x with locked := l, lockRun := n }) t) :
    OnlyLock s t ∧ t.tbs.locked = l ∧ t.tbs.lockRun = n := by
  rw [OnlyLock, h.tbs]
  exact ⟨⟨rfl, h.modTbs fun _ => s.tbs⟩, rfl, rfl⟩

theorem ptmUnlock_onlyLock (s : State) :
    OnlyLock s (ptmUnlock s) ∧ (ptmUnlock s).tbs.locked = false ∧ (ptmUnlock s).tbs.lockRun = 0 :=
  OnlyLock.of_noted (ptmUnlock_spec s).2

/-- R222: what an exchange with error E makes of the lock. -/
def LockStepped (e : Int) (s t : State) : Prop :=
  (e.natAbs ≤ 64 → t.tbs.lockRun = s.tbs.lockRun + 1 ∧
    (8 ≤ s.tbs.lockRun + 1 → t.tbs.locked = true ∧ (s.tbs.locked = false → Pends 7 0 0x04 t)) ∧
    (s.tbs.lockRun + 1 < 8 → t.tbs.locked = s.tbs.locked)) ∧
  (64 < e.natAbs → t.tbs.lockRun = 0) ∧
  (128 < e.natAbs → e.natAbs ≤ 1000000 → t.tbs.locked = false ∧ (s.tbs.locked = true → Pends 7 0 0x05 t))

/-- R222: an exchange beyond 1 ms ends the lock. -/
theorem ptmLockStep_far {e : Int} (h : 1000000 < e.natAbs) (s : State) :
    OnlyLock s (ptmLockStep e s) ∧ LockStepped e s (ptmLockStep e s) ∧ (ptmLockStep e s).tbs.locked = false ∧
      Pends 7 0 0x05 (ptmLockStep e s) := by
  rw [ptmLockStep, if_pos h]
  obtain ⟨honly, hlocked, hrun⟩ := OnlyLock.of_noted (raise_noted 7 0 0x05 (det3 (mintNow s) e.natAbs)
    (s.modTbs fun t => { t with locked := false, lockRun := 0 }))
  exact ⟨honly, ⟨fun h' => by omega, fun _ => hrun, fun _ h' => by omega⟩, hlocked,
    raise_pends_low _ _ _ _ _ (by decide) (by decide) (by decide)⟩

/-- R222: a good exchange counts, and the eighth in a row locks. -/
theorem ptmLockStep_good {e : Int} (h : e.natAbs ≤ 64) (s : State) :
    OnlyLock s (ptmLockStep e s) ∧ LockStepped e s (ptmLockStep e s) := by
  have hfar : ¬ 1000000 < e.natAbs := by omega
  have hstep : ptmLockStep e s = if 8 ≤ s.tbs.lockRun + 1 ∧ s.tbs.locked = false then
      raise 7 0 0x04 (det3 (mintNow s) 0) (s.modTbs fun t => { t with locked := true, lockRun := s.tbs.lockRun + 1 })
      else s.modTbs fun t => { t with locked := s.tbs.locked, lockRun := s.tbs.lockRun + 1 } := by
    rw [ptmLockStep, if_neg hfar, if_pos h]
    exact ite_congr (by simp) (fun _ => rfl) (fun _ => rfl)
  rw [hstep]
  split
  next hlock =>
    obtain ⟨honly, hlocked, hrun⟩ := OnlyLock.of_noted (raise_noted 7 0 0x04 (det3 (mintNow s) 0)
      (s.modTbs fun t => { t with locked := true, lockRun := s.tbs.lockRun + 1 }))
    exact ⟨honly, fun _ => ⟨hrun, fun _ => ⟨hlocked, fun _ => raise_pends_low _ _ _ _ _ (by decide) (by decide) (by decide)⟩,
      fun h' => absurd hlock.1 (by omega)⟩, fun h' => by omega, fun h' => by omega⟩
  next hlock =>
    obtain ⟨honly, hlocked, hrun⟩ := OnlyLock.of_noted
      (Noted.refl (s.modTbs fun t => { t with locked := s.tbs.locked, lockRun := s.tbs.lockRun + 1 }))
    refine ⟨honly, fun _ => ⟨hrun, fun h8 => ?_, fun _ => hlocked⟩, fun h' => by omega, fun h' => by omega⟩
    have hl : s.tbs.locked = true := eq_true_of_ne_false fun hn => hlock ⟨h8, hn⟩
    exact ⟨hlocked.trans hl, fun hn => absurd (hl.symm.trans hn) (by decide)⟩

/-- R222: an exchange above 64 ns ends the run, and one above 128 ns the lock. -/
theorem ptmLockStep_poor {e : Int} (hlow : 64 < e.natAbs) (hhigh : e.natAbs ≤ 1000000) (s : State) :
    OnlyLock s (ptmLockStep e s) ∧ LockStepped e s (ptmLockStep e s) := by
  rw [ptmLockStep, if_neg (by omega), if_neg (by omega)]
  dsimp only
  split
  · obtain ⟨hpends, hnoted⟩ := ptmUnlock_spec (s.modTbs fun t => { t with lockRun := 0 })
    obtain ⟨honly, hlocked, hrun⟩ := OnlyLock.of_noted (s := s) (l := false) (n := 0) hnoted
    exact ⟨honly, fun h' => by omega, fun _ => hrun, fun _ _ => ⟨hlocked, hpends⟩⟩
  · next hmid =>
    obtain ⟨honly, -, hrun⟩ := OnlyLock.of_noted (s := s) (l := s.tbs.locked) (n := 0)
      (Noted.refl (s.modTbs fun t => { t with lockRun := 0 }))
    exact ⟨honly, fun h' => by omega, fun _ => hrun, fun h' => absurd h' hmid⟩

theorem ptmLockStep_spec (e : Int) (s : State) : OnlyLock s (ptmLockStep e s) ∧ LockStepped e s (ptmLockStep e s) := by
  rcases Nat.lt_or_ge 1000000 e.natAbs with hfar | hnear
  · obtain ⟨honly, hstep, -⟩ := ptmLockStep_far hfar s
    exact ⟨honly, hstep⟩
  · rcases Nat.lt_or_ge 64 e.natAbs with hpoor | hgood
    · exact ptmLockStep_poor hpoor hnear s
    · exact ptmLockStep_good hgood s

/-- The timebase as a response with error E ends the dialogue, before its discipline. -/
def answeredTime (e : Int) (t : Timebase) : Timebase :=
  { t with dialogueOpen := false, unanswered := 0, lostRaised := false, ptmErr := errWord e }

/-- R222: a response to the open dialogue. -/
theorem ptmResponse_answers {m : BitVec 64} {e : Int} {s : State} (hsource : s.tbs.source = 1) (hopen : s.tbs.dialogueOpen = true)
    (hwidth : (portOf s (ptmHead s)).width ≠ 0) (hen : (portOf s (ptmHead s)).ptmEn = true)
    (he : e = (m + s.tbs.offset - s.tbs.mint).toInt) :
    exec (.ptmResponse m) s = .next
      (if (s.tbs.set = false ∨ s.tbs.resync = true) ∧ 1000000 < e.natAbs then
        ptmUnlock (discipline e (s.modTbs (answeredTime e)))
      else ptmLockStep e (discipline e (s.modTbs (answeredTime e)))) := by
  subst he
  refine (if_neg (by simp [hsource, hopen, hwidth, hen])).trans ?_
  exact congrArg Host.Outcome.next (ite_congr (by simp) (fun _ => rfl) (fun _ => rfl))

/-- The timebase as such a response asks for a set at a boundary. -/
def askedTime (bd : Nat) (e : Int) (t : Timebase) : Timebase :=
  { answeredTime e t with resync := false, pendSet := some (bd, BitVec.ofInt 64 (Int.ofNat bd + e)) }

/-- The timebase as such a response disciplines it: it slews its error within 1 ms, and ends the slew beyond that. -/
def slewedTime (e : Int) (t : Timebase) : Timebase :=
  if e.natAbs ≤ 1000000 then { answeredTime e t with slew := e, slewing := e != 0, slewTick := 0 }
  else { answeredTime e t with slew := 0, slewing := false }

/-- R219, R222: while the time is unset or a resync is asked, an exchange asks for a set at the next boundary. -/
theorem discipline_sets {e : Int} {s : State} (h : s.tbs.set = false ∨ s.tbs.resync = true) :
    discipline e (s.modTbs (answeredTime e)) = s.modTbs (askedTime (boundaryAfter s 1) e) :=
  if_pos (by simpa [answeredTime] using h)

/-- R222: while the source keeps the time, an exchange disciplines it. -/
theorem discipline_slews {e : Int} {s : State} (hset : s.tbs.set = true) (hresync : s.tbs.resync = false) :
    discipline e (s.modTbs (answeredTime e)) = s.modTbs (slewedTime e) := by
  refine (if_neg (by simp [answeredTime, hset, hresync])).trans ?_
  simp only [slewedTime, State.modTbs]
  split <;> rfl

/-- R222: what the discipline sets, and what it leaves alone. -/
theorem slewedTime_spec (e : Int) (t : Timebase) :
    (slewedTime e t).dialogueOpen = false ∧ (slewedTime e t).unanswered = 0 ∧ (slewedTime e t).mint = t.mint ∧
    (slewedTime e t).ptmErr = errWord e ∧ (slewedTime e t).pendSet = t.pendSet ∧
    (slewedTime e t).locked = t.locked ∧ (slewedTime e t).lockRun = t.lockRun ∧
    (e.natAbs ≤ 1000000 → (slewedTime e t).slew = e ∧ ((slewedTime e t).slewing = true ↔ e ≠ 0)) ∧
    (1000000 < e.natAbs → (slewedTime e t).slew = 0 ∧ (slewedTime e t).slewing = false) := by
  unfold slewedTime
  split
  next hnear => exact ⟨rfl, rfl, rfl, rfl, rfl, rfl, rfl, fun _ => ⟨rfl, bne_iff_ne⟩, fun h => absurd h hnear.not_gt⟩
  next hfar => exact ⟨rfl, rfl, rfl, rfl, rfl, rfl, rfl, fun h => absurd h hfar, fun _ => ⟨rfl, rfl⟩⟩

/-- What R222 makes of the lock concerns the state before the discipline as well, which leaves the lock alone. -/
theorem LockStepped.of_lock {e : Int} {s u t : State} (hlocked : u.tbs.locked = s.tbs.locked) (hrun : u.tbs.lockRun = s.tbs.lockRun)
    (h : LockStepped e u t) : LockStepped e s t := by
  simpa only [LockStepped, hlocked, hrun] using h

/-- R219, R222: a response while the time is unset or a resync is asked. -/
theorem ptmResponse_sets {m : BitVec 64} {e : Int} {s : State} (hsource : s.tbs.source = 1) (hopen : s.tbs.dialogueOpen = true)
    (hwidth : (portOf s (ptmHead s)).width ≠ 0) (hen : (portOf s (ptmHead s)).ptmEn = true)
    (he : e = (m + s.tbs.offset - s.tbs.mint).toInt) (hfirst : s.tbs.set = false ∨ s.tbs.resync = true) :
    ∃ t, exec (.ptmResponse m) s = .next t ∧ OnlyLock (s.modTbs (askedTime (boundaryAfter s 1) e)) t ∧ LockStepped e s t ∧
      (1000000 < e.natAbs → t.tbs.locked = false ∧ (s.tbs.locked = true → Pends 7 0 0x05 t)) := by
  have hexec := ptmResponse_answers hsource hopen hwidth hen he
  rw [discipline_sets hfirst] at hexec
  generalize hu : s.modTbs (askedTime (boundaryAfter s 1) e) = u at hexec ⊢
  have hl : u.tbs.locked = s.tbs.locked := by subst hu; rfl
  have hr : u.tbs.lockRun = s.tbs.lockRun := by subst hu; rfl
  rcases Nat.lt_or_ge 1000000 e.natAbs with hfar | hnear
  · rw [if_pos ⟨hfirst, hfar⟩] at hexec
    obtain ⟨honly, hlocked, hrun⟩ := ptmUnlock_onlyLock u
    have hpends := (ptmUnlock_spec u).1
    rw [hl] at hpends
    exact ⟨_, hexec, honly, ⟨fun h => by omega, fun _ => hrun, fun _ h => by omega⟩, fun _ => ⟨hlocked, hpends⟩⟩
  · rw [if_neg fun h => hnear.not_gt h.2] at hexec
    obtain ⟨honly, hstep⟩ := ptmLockStep_spec e u
    exact ⟨_, hexec, honly, hstep.of_lock hl hr, fun h => absurd h hnear.not_gt⟩

/-- R222: a response while the source keeps the time. -/
theorem ptmResponse_slews {m : BitVec 64} {e : Int} {s : State} (hsource : s.tbs.source = 1) (hopen : s.tbs.dialogueOpen = true)
    (hwidth : (portOf s (ptmHead s)).width ≠ 0) (hen : (portOf s (ptmHead s)).ptmEn = true)
    (he : e = (m + s.tbs.offset - s.tbs.mint).toInt) (hset : s.tbs.set = true) (hresync : s.tbs.resync = false) :
    ∃ t, exec (.ptmResponse m) s = .next t ∧ OnlyLock (s.modTbs (slewedTime e)) t ∧ LockStepped e s t ∧
      (1000000 < e.natAbs → t.tbs.locked = false ∧ Pends 7 0 0x05 t) := by
  have hexec := ptmResponse_answers hsource hopen hwidth hen he
  obtain ⟨-, -, -, -, -, hl, hr, -, -⟩ := slewedTime_spec e s.tbs
  rw [if_neg fun h => by simp [hset, hresync] at h, discipline_slews hset hresync] at hexec
  refine ⟨_, hexec, ?_⟩
  rcases Nat.lt_or_ge 1000000 e.natAbs with hfar | hnear
  · obtain ⟨honly, hstep, hunlocked⟩ := ptmLockStep_far hfar (s.modTbs (slewedTime e))
    exact ⟨honly, hstep.of_lock hl hr, fun _ => hunlocked⟩
  · obtain ⟨honly, hstep⟩ := ptmLockStep_spec e (s.modTbs (slewedTime e))
    exact ⟨honly, hstep.of_lock hl hr, fun h => absurd h hnear.not_gt⟩

/-- Settles O35: a set at its boundary moves the mint time, and what the first one starts reaches neither the ledger's entries nor
the purse; a dialogue and a response change the timebase as R222 says, and beyond it raise reasons only. -/
theorem mintTimeKeeping : Obligations.MintTimeKeeping := by
  refine ⟨fun s h => mintTimeSet_waits h, ?_, fun s => ⟨ptmDialogue_skips, ptmDialogue_effect⟩,
    fun m s h => ptmResponse_skips h, ?_⟩
  · intro bd w s hpend hbd hfits
    exact ⟨mintTimeSet_first_effect hpend hbd hfits, mintTimeSet_refused hpend hbd, mintTimeSet_moves hpend hbd hfits⟩
  · intro m e s hsource hopen hwidth hen he
    by_cases hfirst : s.tbs.set = false ∨ s.tbs.resync = true
    · obtain ⟨t, hexec, ⟨htbs, hnoted⟩, ⟨hgood, hpoor, hmid⟩, hfar⟩ := ptmResponse_sets hsource hopen hwidth hen he hfirst
      refine ⟨t, hexec, congrArg (·.dialogueOpen) htbs, congrArg (·.unanswered) htbs, congrArg (·.mint) htbs,
        congrArg (·.ptmErr) htbs, hnoted.modTbs fun _ => s.tbs, fun _ => ?_, fun hset hresync => ?_, hgood, hpoor, hmid⟩
      · exact ⟨_, rfl, congrArg (·.resync) htbs, congrArg (·.pendSet) htbs, congrArg (·.slew) htbs, hfar⟩
      · simp [hset, hresync] at hfirst
    · obtain ⟨hset, hresync⟩ : s.tbs.set = true ∧ s.tbs.resync = false := by simpa using hfirst
      obtain ⟨t, hexec, ⟨htbs, hnoted⟩, ⟨hgood, hpoor, hmid⟩, hfar⟩ :=
        ptmResponse_slews hsource hopen hwidth hen he hset hresync
      obtain ⟨hclosed, hanswered, hmint, herr, hpend, -, -, hnear, hbeyond⟩ := slewedTime_spec e s.tbs
      refine ⟨t, hexec, (congrArg (·.dialogueOpen) htbs).trans hclosed, (congrArg (·.unanswered) htbs).trans hanswered,
        (congrArg (·.mint) htbs).trans hmint, (congrArg (·.ptmErr) htbs).trans herr, hnoted.modTbs fun _ => s.tbs,
        fun h => absurd h hfirst, fun _ _ => ⟨(congrArg (·.pendSet) htbs).trans hpend, fun h => ?_, fun h => ?_⟩,
        hgood, hpoor, hmid⟩
      · rw [show t.tbs.slew = (slewedTime e s.tbs).slew from congrArg (·.slew) htbs,
          show t.tbs.slewing = (slewedTime e s.tbs).slewing from congrArg (·.slewing) htbs]
        exact hnear h
      · obtain ⟨hslew, hslewing⟩ := hbeyond h
        exact ⟨(congrArg (·.slew) htbs).trans hslew, (congrArg (·.slewing) htbs).trans hslewing, hfar h⟩

end Sys2Proof.Machine
end

section
/-! Die failures and rebuilds (R130-R134). -/

namespace Sys2Proof.Machine

open Sys2Proof

/-- A queued write leaves the passbook's records alone. -/
theorem Queued.rebuildRec {s t : State} (h : Queued s t) : t.pb.rebuildRec = s.pb.rebuildRec := by
  have hrec : t.pb.idle.rebuildRec = s.pb.idle.rebuildRec := congrArg _ h.pb
  exact hrec

theorem Queued.population {s t : State} (h : Queued s t) : t.pb.population = s.pb.population := by
  have hpop : t.pb.idle.population = s.pb.idle.population := congrArg _ h.pb
  exact hpop

theorem Queued.entries {s t : State} (h : Queued s t) : t.led.entries = s.led.entries := by
  have hentries : t.led.idle.entries = s.led.idle.entries := congrArg _ h.led
  exact hentries

/-- R133: while a rebuild runs no other begins. -/
theorem rebuildStart_running (c pos : Nat) {s : State} (h : s.integ.rebuildCh ≠ none) : rebuildStart c pos s = s :=
  if_pos (Option.isSome_iff_ne_none.mpr h)

/-- A rebuild of a position of channel c stands at its beginning. -/
def rebuilding (c pos : Nat) (i : Integrity) : Integrity :=
  { i with rebuildCh := some c, rebuildPos := pos, rebuildChunk := 0, rebuildAt := 0 }

/-- A state with the passbook's record of the rebuild. -/
def withRebuildRec (r : Option (Nat × Nat × Nat)) (s : State) : State := s.modPb fun p => { p with rebuildRec := r }

theorem Queued.withRebuildRec {s t : State} (h : Queued s t) (r : Option (Nat × Nat × Nat)) :
    Queued (withRebuildRec r s) (Machine.withRebuildRec r t) := by
  refine h.modPb _ fun p q hpq => ?_
  show { p.idle with rebuildRec := r } = { q.idle with rebuildRec := r }
  rw [hpq]

/-- R132, R133: a rebuild begins where none runs, and is recorded. -/
theorem rebuildStart_begins (c pos : Nat) {s : State} (h : s.integ.rebuildCh = none) :
    Pends 4 1 0x02 (rebuildStart c pos s) ∧
    Queued (withRebuildRec (some (c, pos, 0)) (s.modInteg (rebuilding c pos))) (rebuildStart c pos s) := by
  rw [rebuildStart, if_neg (by simp [h])]
  exact ⟨raise_pends_low _ _ _ _ _ (by decide) (by decide) (by decide), (recordQueue_queued _ _).raise _ _ _ _⟩

/-- The failed positions of a channel once another has failed. -/
def failedWith (s : State) (c pos : Nat) : BitVec 18 := failedDies s c ||| (1 <<< pos)

theorem failedWith_getLsbD (s : State) (c : Nat) {pos p : Nat} (hp : p < 18) :
    (failedWith s c pos).getLsbD p = ((failedDies s c).getLsbD p || p == pos) := by
  rw [failedWith, BitVec.getLsbD_or, BitVec.natCast_eq_ofNat, BitVec.getLsbD_ofNat, Nat.one_shiftLeft, Nat.testBit_two_pow]
  simp [hp, beq_eq_decide, eq_comm]

/-- A state with the failure of a position in the population and in the passbook. -/
def failureNoted (c pos : Nat) (s : State) : State :=
  (s.modInteg fun i => { i with failed := tput 0 i.failed c (failedWith s c pos) }).modPb
    fun p => { p with population := tput 0 p.population c (failedWith s c pos) }

/-- R131: t is s with the failure of a position recorded, with its rebuild begun or abandoned, and with reasons raised. -/
def FailureTaken (c pos : Nat) (s t : State) : Prop :=
  t.integ.failed = tput 0 s.integ.failed c (failedWith s c pos) ∧
  Queued (withRebuildRec t.pb.rebuildRec (((failureNoted c pos s).modInteg fun _ => t.integ).modMed
    fun d => { d with works := t.med.works, ops := t.med.ops })) t

/-- R131: what the failure of a position sets, and what it leaves alone. -/
theorem FailureTaken.effect {c pos : Nat} {s t : State} (h : FailureTaken c pos s t) :
    (∀ p, p < 18 → (failedDies t c).getLsbD p = ((failedDies s c).getLsbD p || p == pos)) ∧
    (∀ d, d ≠ c → failedDies t d = failedDies s d) ∧ tget 0 t.pb.population c = failedDies t c ∧
    t.med.lines = s.med.lines ∧ t.med.chans = s.med.chans ∧ t.led.entries = s.led.entries ∧ t.pur = s.pur ∧
    t.fe.txns = s.fe.txns ∧ t.said = s.said := by
  obtain ⟨hfailed, hq⟩ := h
  have hsame : failedDies t c = failedWith s c pos := by rw [failedDies, hfailed, tget_tput_same]
  have hpop : t.pb.population = tput 0 s.pb.population c (failedWith s c pos) := hq.population
  have hmed := hq.med
  refine ⟨fun p hp => hsame ▸ failedWith_getLsbD s c hp, fun d hd => ?_, ?_, ?_, ?_, hq.entries, hq.pur, hq.txns, hq.said⟩
  · rw [failedDies, hfailed, tget_tput_ne _ _ _ _ _ _ hd, failedDies]
  · rw [hpop, tget_tput_same, hsame]
  · exact (congrArg (fun m : Media => m.lines) hmed).trans rfl
  · exact (congrArg (fun m : Media => m.chans) hmed).trans rfl

/-- R130: a position that is not there, has failed already or does not meet the criterion. -/
theorem dieFailed_skips {c pos : Nat} {why : DieFailure} {s : State}
    (h : populated s c = false ∨ 18 ≤ pos ∨ (failedDies s c).getLsbD pos = true ∨ dieMeets s c pos why = false) :
    exec (.dieFailed c pos why) s = .next s :=
  if_pos (by simpa [or_assoc] using h)

/-- R130: the position is populated, stands, and meets the criterion. -/
def diesNow (c pos : Nat) (why : DieFailure) (s : State) : Prop :=
  populated s c = true ∧ pos < 18 ∧ (failedDies s c).getLsbD pos = false ∧ dieMeets s c pos why = true

/-- R131: the failure is recorded and DIE_FAILED raised. -/
def dieRecorded (c pos : Nat) (d : Det) (s : State) : State :=
  raise 4 1 0x01 d (recordQueue (recPopulation + 4 * c) (failureNoted c pos s))

theorem dieRecorded_queued (c pos : Nat) (d : Det) (s : State) : Queued (failureNoted c pos s) (dieRecorded c pos d s) :=
  (recordQueue_queued _ _).raise _ _ _ _

theorem diesNow.passes {c pos : Nat} {why : DieFailure} {s : State} (h : diesNow c pos why s) :
    ¬ (!populated s c || decide (18 ≤ pos) || (failedDies s c).getLsbD pos || !dieMeets s c pos why) = true := by
  obtain ⟨hpop, hpos, hstands, hmeets⟩ := h
  rw [hpop, hstands, hmeets, decide_eq_false (Nat.not_le.mpr hpos)]
  decide

/-- R134: the rebuild onto the standby die of a channel is given up. -/
def rebuildDropped (c : Nat) (s : State) : State :=
  withRebuildRec none ((s.modInteg fun i => { i with rebuildCh := none }).modMed fun d =>
    { d with works := d.works.filter fun w => !(w.ch == c && match w.use with | .rebuild _ => true | _ => false),
             ops := d.ops.filter fun o => !(o.ch == c && match o.purpose with | .rebuild .. => true | _ => false) })

/-- R134: the standby die fails while a rebuild runs on it. -/
theorem dieFailed_abandons {c : Nat} {why : DieFailure} {s : State} (h : diesNow c 17 why s) (hch : s.integ.rebuildCh = some c) :
    ∃ d, exec (.dieFailed c 17 why) s = .next (raise 4 1 0x04 (det2 c 17 0 0 0) (rebuildDropped c (dieRecorded c 17 d s))) := by
  refine ⟨_, (if_neg h.passes).trans ((if_pos rfl).trans (if_pos ?_))⟩
  rw [beq_iff_eq, ← hch]
  exact congrArg (·.rebuildCh) (dieRecorded_queued c 17 _ s).integ

/-- R134: the standby die fails, and no rebuild runs on it. -/
theorem dieFailed_standby {c : Nat} {why : DieFailure} {s : State} (h : diesNow c 17 why s) (hch : s.integ.rebuildCh ≠ some c) :
    ∃ d, exec (.dieFailed c 17 why) s =
      .next ((dieRecorded c 17 d s).modInteg fun i => { i with subst := tput 0 i.subst c 0 }) := by
  refine ⟨_, (if_neg h.passes).trans ((if_pos rfl).trans (if_neg fun h' => hch ?_))⟩
  rw [← beq_iff_eq.mp h']
  exact (congrArg (·.rebuildCh) (dieRecorded_queued c 17 _ s).integ).symm

/-- R131: DOUBLE_FAILURE is raised where another position of the channel has failed and is not replaced. -/
def secondNoted (c pos : Nat) (s u : State) : State :=
  if (List.range 17).any (fun p => (failedDies s c).getLsbD p && !substituted u c p) then raise 4 1 0x05 (det2 c pos 0 0 0) u else u

theorem secondNoted_noted (c pos : Nat) (s u : State) : Noted u (secondNoted c pos s u) := by
  unfold secondNoted
  split
  · exact raise_noted _ _ _ _ _
  · exact .refl u

/-- R132, R134: a data or parity die fails: a rebuild begins where the standby die is free. -/
theorem dieFailed_below {c pos : Nat} {why : DieFailure} {s : State} (h : diesNow c pos why s) (hpos : pos ≠ 17) :
    ∃ u, Queued (failureNoted c pos s) u ∧ exec (.dieFailed c pos why) s = .next
      (if standbyFree u c = true then rebuildStart c pos u else if pos < 16 then raise 4 1 0x06 (det2 c pos 0 0 0) u else u) := by
  obtain ⟨d, hexec⟩ : ∃ d, exec (.dieFailed c pos why) s =
      if standbyFree (secondNoted c pos s (dieRecorded c pos d s)) c then
        .next (rebuildStart c pos (secondNoted c pos s (dieRecorded c pos d s)))
      else .next (if pos < 16 then raise 4 1 0x06 (det2 c pos 0 0 0) (secondNoted c pos s (dieRecorded c pos d s))
        else secondNoted c pos s (dieRecorded c pos d s)) :=
    ⟨_, (if_neg h.passes).trans (if_neg (by simpa using hpos))⟩
  refine ⟨_, (dieRecorded_queued c pos d s).trans (secondNoted_noted c pos s _).queued, hexec.trans ?_⟩
  split <;> rfl

theorem FailureTaken.of_queued {c pos : Nat} {s t : State} (f : Integrity → Integrity) (r : Option (Nat × Nat × Nat))
    (d : Media) (hf : (f (failureNoted c pos s).integ).failed = (failureNoted c pos s).integ.failed)
    (h : Queued (withRebuildRec r (((failureNoted c pos s).modInteg f).modMed
      fun m => { m with works := d.works, ops := d.ops })) t) : FailureTaken c pos s t := by
  have hinteg : t.integ = f (failureNoted c pos s).integ := h.integ
  have hrec : t.pb.rebuildRec = r := h.rebuildRec
  have hmed : t.med = { s.med with works := d.works, ops := d.ops } := h.med
  rw [FailureTaken, hinteg, hrec, hmed]
  exact ⟨hf, h⟩

/-- R132: once a position below it has failed, the standby die is free exactly where it was. -/
theorem standbyFree_of_failure {c pos : Nat} {s u : State} (hu : Queued (failureNoted c pos s) u) (hpos : pos ≠ 17) :
    standbyFree u c = standbyFree s c := by
  have hfailed : (failedDies u c).getLsbD 17 = (failedDies s c).getLsbD 17 := by
    have hsame : failedDies u c = failedWith s c pos := by
      rw [failedDies, hu.integ]
      exact tget_tput_same _ _ _ _
    rw [hsame, failedWith_getLsbD s c (by decide), beq_eq_false_iff_ne.mpr hpos.symm, Bool.or_false]
  have hsubst : u.integ.subst = s.integ.subst := congrArg (·.subst) hu.integ
  rw [standbyFree, standbyFree, hfailed, hsubst, hu.board]
  rfl

/-- R131-R134: all that the failure of a data or parity die does. -/
theorem dieFailed_below_effect {c pos : Nat} {why : DieFailure} {s : State} (h : diesNow c pos why s) (hpos : pos < 17) :
    ∃ t, exec (.dieFailed c pos why) s = .next t ∧ FailureTaken c pos s t ∧ t.med = s.med ∧
      (standbyFree s c = true →
        if s.integ.rebuildCh = none then
          t.integ.rebuildCh = some c ∧ t.integ.rebuildPos = pos ∧ t.pb.rebuildRec = some (c, pos, 0) ∧ Pends 4 1 0x02 t
        else t.integ.rebuildCh = s.integ.rebuildCh ∧ t.integ.rebuildPos = s.integ.rebuildPos) ∧
      (pos < 16 → standbyFree s c = false → Pends 4 1 0x06 t ∧ t.integ.rebuildCh = s.integ.rebuildCh) := by
  obtain ⟨u, hu, hexec⟩ := dieFailed_below h hpos.ne
  rw [standbyFree_of_failure hu hpos.ne] at hexec
  have hch : u.integ.rebuildCh = s.integ.rebuildCh := congrArg (·.rebuildCh) hu.integ
  have hplain {t : State} (ht : Queued u t) : FailureTaken c pos s t ∧ t.med = s.med ∧ t.integ.rebuildCh = s.integ.rebuildCh ∧
      t.integ.rebuildPos = s.integ.rebuildPos :=
    ⟨.of_queued id s.pb.rebuildRec s.med rfl (hu.trans ht), (hu.trans ht).med, congrArg (·.rebuildCh) (hu.trans ht).integ,
      congrArg (·.rebuildPos) (hu.trans ht).integ⟩
  cases hfree : standbyFree s c with
  | true =>
    rw [hfree, if_pos rfl] at hexec
    by_cases hnone : s.integ.rebuildCh = none
    · obtain ⟨hpends, hq⟩ := rebuildStart_begins c pos (hch.trans hnone)
      have ht := ((hu.modInteg (rebuilding c pos)).withRebuildRec (some (c, pos, 0))).trans hq
      refine ⟨_, hexec, .of_queued (rebuilding c pos) _ s.med rfl ht, ht.med, fun _ => ?_, fun _ hno => nomatch hno⟩
      rw [if_pos hnone]
      exact ⟨congrArg (·.rebuildCh) ht.integ, congrArg (·.rebuildPos) ht.integ, ht.rebuildRec, hpends⟩
    · rw [rebuildStart_running c pos (hch.trans_ne hnone)] at hexec
      obtain ⟨htaken, hmed, hkept⟩ := hplain (.refl u)
      refine ⟨u, hexec, htaken, hmed, fun _ => ?_, fun _ hno => nomatch hno⟩
      rwa [if_neg hnone]
  | false =>
    rw [hfree, if_neg Bool.false_ne_true] at hexec
    refine ⟨_, hexec, ?_⟩
    split
    · obtain ⟨htaken, hmed, hsame, -⟩ := hplain (raise_noted 4 1 0x06 (det2 c pos 0 0 0) u).queued
      exact ⟨htaken, hmed, fun hno => absurd hno Bool.false_ne_true,
        fun _ _ => ⟨raise_pends_low _ _ _ _ _ (by decide) (by decide) (by decide), hsame⟩⟩
    next hhigh =>
      obtain ⟨htaken, hmed, -⟩ := hplain (.refl u)
      exact ⟨htaken, hmed, fun hno => absurd hno Bool.false_ne_true, fun hlow => absurd hlow hhigh⟩

theorem Queued.rebuildDropped {s t : State} (h : Queued s t) (c : Nat) : Queued (rebuildDropped c s) (Machine.rebuildDropped c t) :=
  ((h.modInteg _).modMed _).withRebuildRec none

/-- R134: the failure of the standby die abandons the rebuild that runs on it. -/
theorem dieFailed_abandons_effect {c : Nat} {why : DieFailure} {s : State}
    (h : diesNow c 17 why s) (hch : s.integ.rebuildCh = some c) :
    ∃ t, exec (.dieFailed c 17 why) s = .next t ∧ FailureTaken c 17 s t ∧
      t.integ.rebuildCh = none ∧ t.pb.rebuildRec = none ∧ Pends 4 1 0x04 t := by
  obtain ⟨d, hexec⟩ := dieFailed_abandons h hch
  have ht := ((dieRecorded_queued c 17 d s).rebuildDropped c).raise 4 1 0x04 (det2 c 17 0 0 0)
  exact ⟨_, hexec, .of_queued (fun i => { i with rebuildCh := none }) none (rebuildDropped c (failureNoted c 17 s)).med rfl ht,
    congrArg (·.rebuildCh) ht.integ, ht.rebuildRec, raise_pends_low _ _ _ _ _ (by decide) (by decide) (by decide)⟩

/-- R134: the failure of a standby die on which no rebuild runs. -/
theorem dieFailed_standby_effect {c : Nat} {why : DieFailure} {s : State}
    (h : diesNow c 17 why s) (hch : s.integ.rebuildCh ≠ some c) :
    ∃ t, exec (.dieFailed c 17 why) s = .next t ∧ FailureTaken c 17 s t ∧ tget 0 t.integ.subst c = 0 ∧ Pends 4 1 0x01 t := by
  obtain ⟨d, hexec⟩ := dieFailed_standby h hch
  have ht := (dieRecorded_queued c 17 d s).modInteg fun i => { i with subst := tput 0 i.subst c 0 }
  refine ⟨_, hexec, .of_queued (fun i => { i with subst := tput 0 i.subst c 0 }) s.pb.rebuildRec s.med rfl ht, ?_, ?_⟩
  · exact tget_tput_same 0 (dieRecorded c 17 d s).integ.subst c 0
  · have hpends : Pends 4 1 0x01 (dieRecorded c 17 d s) := raise_pends_low _ _ _ _ _ (by decide) (by decide) (by decide)
    exact hpends.of_regs rfl

/-! The end of a rebuild. -/

/-- R132, R133: another channel's rebuild, or one with rows to do, is not done. -/
theorem rebuildDone_skips {c : Nat} {s : State}
    (h : s.integ.rebuildCh ≠ some c ∨ rebuildBusy s c = true ∨ rebuildLeft s c ≠ []) :
    exec (.rebuildDone c) s = .next s :=
  if_pos (by simpa [or_assoc] using h)

/-- R133: the standby die of channel c has taken the rebuilt position's place. -/
def replacedBy (c : Nat) (i : Integrity) : Integrity :=
  { i with rebuildCh := none, rebuildChunk := 0, rebuildAt := 0, subst := tput 0 i.subst c (i.rebuildPos + 1) }

/-- R132: the first channel whose standby die is free, and a position of it that has failed. -/
def rebuildNeed (s : State) : Option (Nat × Nat) :=
  (popChans s).findSome? fun d =>
    if standbyFree s d then ((List.range 17).find? fun p => (failedDies s d).getLsbD p).map fun p => (d, p) else none

theorem rebuildNeed_some {s : State} {d p : Nat} (h : rebuildNeed s = some (d, p)) :
    d ∈ popChans s ∧ standbyFree s d = true ∧ (failedDies s d).getLsbD p = true := by
  obtain ⟨x, hx, hfound⟩ := List.exists_of_findSome?_eq_some h
  split at hfound
  next hfree =>
    obtain ⟨q, hq, hpair⟩ := Option.map_eq_some_iff.mp hfound
    obtain ⟨rfl, rfl⟩ := Prod.mk.inj hpair
    exact ⟨hx, hfree, List.find?_some (p := fun q => (failedDies s x).getLsbD q) hq⟩
  next => exact absurd hfound (by simp)

/-- R149: retirements are migrations that are queued, and reasons. -/
theorem retireFolios_ledgered (s : State) : Ledgered s (retireFolios s) :=
  forEach_related (R := Ledgered) Ledgered.refl Ledgered.trans _
    (fun _ _ => (queueMig_ledgered _ _ _ _ _).trans (raise_noted _ _ _ _ _).ledgered) s

theorem queueMig_regs (f prio retire : Nat) (b : Bool) (s : State) : (queueMig f prio retire b s).regs = s.regs := by
  unfold queueMig
  split <;> rfl

/-- A rebuild's reason stays pending through the retirements. -/
theorem retireFolios_rebuildPends {s : State} (h : Pends 4 1 0x03 s) : Pends 4 1 0x03 (retireFolios s) := by
  refine forEach_related (R := fun s t => Pends 4 1 0x03 s → Pends 4 1 0x03 t) (fun _ => id) (fun h g => g ∘ h) _ ?_ s h
  intro f s hp
  exact Pends.raise (hp.of_regs (queueMig_regs f 2 2 (ent s f).bullion s)) (by decide) 4 4 0x04 (det3 f 0) (by decide)

/-- R133: the rebuild of channel c has ended, and the reason is raised. -/
def rebuildEnded (c : Nat) (s : State) : State :=
  raise 4 1 0x03 (det2 c s.integ.rebuildPos 0 0 0) (recordQueue recRebuild (withRebuildRec none (s.modInteg (replacedBy c))))

theorem rebuildEnded_queued (c : Nat) (s : State) : Queued (withRebuildRec none (s.modInteg (replacedBy c))) (rebuildEnded c s) :=
  (recordQueue_queued _ _).raise _ _ _ _

theorem rebuildEnded_pends (c : Nat) (s : State) : Pends 4 1 0x03 (rebuildEnded c s) :=
  raise_pends_low _ _ _ _ _ (by decide) (by decide) (by decide)

/-- R132: the next rebuild that is needed begins. -/
def nextRebuild (s : State) : State :=
  match rebuildNeed s with
  | some (d, p) => rebuildStart d p s
  | none => s

/-- R132, R133: the rebuild of channel c ends, and the next one that is needed begins. -/
theorem rebuildDone_ends {c : Nat} {s : State} (hch : s.integ.rebuildCh = some c) (hbusy : rebuildBusy s c = false)
    (hleft : rebuildLeft s c = []) : exec (.rebuildDone c) s = .next (nextRebuild (retireFolios (rebuildEnded c s))) := by
  have hdone : ¬ (s.integ.rebuildCh != some c || rebuildBusy s c || !(rebuildLeft s c).isEmpty) = true := by
    simp [hch, hbusy, hleft]
  have hexec : exec (.rebuildDone c) s = execRebuildDone c s := rfl
  rw [hexec, execRebuildDone, if_neg hdone]
  dsimp only
  split
  next d p hneed =>
    have hnext : rebuildNeed (retireFolios (rebuildEnded c s)) = some (d, p) := hneed
    rw [nextRebuild, hnext]
    rfl
  next hneed =>
    have hnext : rebuildNeed (retireFolios (rebuildEnded c s)) = none := hneed
    rw [nextRebuild, hnext]
    rfl

theorem popChans_of_board {s t : State} (h : t.board = s.board) : popChans t = popChans s := by
  have hphys : physCh t = physCh s := by funext k; rw [physCh, physCh, h]
  rw [popChans, popChans, hphys, h]

theorem Ledgered.rebuildRec {s t : State} (h : Ledgered s t) : t.pb.rebuildRec = s.pb.rebuildRec := by
  have hrec : t.pb.idle.rebuildRec = s.pb.idle.rebuildRec := congrArg _ h.pb
  exact hrec

/-- R133: all that the end of a rebuild does, with the rebuild that may follow. -/
theorem rebuildDone_effect {c : Nat} {s : State} (hch : s.integ.rebuildCh = some c) (hbusy : rebuildBusy s c = false)
    (hleft : rebuildLeft s c = []) :
    ∃ t, exec (.rebuildDone c) s = .next t ∧ tget 0 t.integ.subst c = s.integ.rebuildPos + 1 ∧
      (∀ d, d ≠ c → tget 0 t.integ.subst d = tget 0 s.integ.subst d) ∧ t.integ.failed = s.integ.failed ∧
      t.integ.rebuildCh ≠ some c ∧
      (t.integ.rebuildCh = none → t.pb.rebuildRec = none ∧ Pends 4 1 0x03 t) ∧
      ∀ d, t.integ.rebuildCh = some d → d ∈ popChans s ∧ standbyFree t d = true ∧
        (failedDies t d).getLsbD t.integ.rebuildPos = true ∧ t.integ.rebuildChunk = 0 ∧ Pends 4 1 0x02 t := by
  have hu := (rebuildEnded_queued c s).ledgered.trans (retireFolios_ledgered (rebuildEnded c s))
  have hpends := retireFolios_rebuildPends (rebuildEnded_pends c s)
  rw [rebuildDone_ends hch hbusy hleft, nextRebuild]
  generalize retireFolios (rebuildEnded c s) = u at hu hpends
  have hinteg : u.integ = replacedBy c s.integ := hu.integ
  have hsame : tget 0 u.integ.subst c = s.integ.rebuildPos + 1 := by
    rw [hinteg]; exact tget_tput_same 0 s.integ.subst c (s.integ.rebuildPos + 1)
  have hother : ∀ d, d ≠ c → tget 0 u.integ.subst d = tget 0 s.integ.subst d := fun d hd => by
    rw [hinteg]; exact tget_tput_ne 0 0 s.integ.subst c d (s.integ.rebuildPos + 1) hd
  have hfailed : u.integ.failed = s.integ.failed := by rw [hinteg]; rfl
  have hnone : u.integ.rebuildCh = none := by rw [hinteg]; rfl
  cases hneed : rebuildNeed u with
  | none =>
    refine ⟨u, rfl, hsame, hother, hfailed, by rw [hnone]; exact nofun, fun _ => ⟨hu.rebuildRec, hpends⟩, fun d hd => ?_⟩
    exact nomatch hnone.symm.trans hd
  | some need =>
    obtain ⟨d, p⟩ := need
    obtain ⟨hpop, hfree, hbit⟩ := rebuildNeed_some hneed
    obtain ⟨hstarted, ht⟩ := rebuildStart_begins d p hnone
    have hne : d ≠ c := by
      rintro rfl
      have hzero : tget 0 u.integ.subst d = 0 := by
        simpa using (Bool.and_eq_true_iff.mp hfree).2
      exact absurd (hsame.symm.trans hzero) (Nat.succ_ne_zero _)
    have htinteg : (rebuildStart d p u).integ = rebuilding d p u.integ := ht.integ
    have htfailed : failedDies (rebuildStart d p u) = failedDies u := by
      funext x; rw [failedDies, htinteg]; rfl
    have htfree : standbyFree (rebuildStart d p u) d = standbyFree u d := by
      rw [standbyFree, standbyFree, htfailed, htinteg, ht.board]; rfl
    have htpop : popChans u = popChans s := popChans_of_board hu.board
    refine ⟨_, rfl, ?_, ?_, ?_, ?_, ?_, fun x hx => ?_⟩
    · rw [htinteg]; exact hsame
    · rw [htinteg]; exact hother
    · rw [htinteg]; exact hfailed
    · rw [htinteg]; exact fun h => hne (Option.some.inj h)
    · rw [htinteg]; exact nofun
    · rw [htinteg] at hx
      obtain rfl : d = x := Option.some.inj hx
      rw [htfree, htfailed, htinteg]
      exact ⟨htpop ▸ hpop, hfree, hbit, rfl, hstarted⟩

/-- Settles O24, case by case: positions that do not fail, the failure of a data or parity die, the failure of the standby die
with and without a rebuild on it, and the end of a rebuild. -/
theorem dieFailureAndRebuild : Obligations.DieFailureAndRebuild := by
  unfold Obligations.DieFailureAndRebuild
  refine ⟨fun c pos why s => dieFailed_skips, fun c pos why s hpop hpos hstands hmeets => ?_,
    fun c s => rebuildDone_skips, fun c s => rebuildDone_effect⟩
  have h : diesNow c pos why s := ⟨hpop, hpos, hstands, hmeets⟩
  by_cases hbelow : pos < 17
  · obtain ⟨t, hexec, htaken, hmed, hfree, hbusy⟩ := dieFailed_below_effect h hbelow
    obtain ⟨hbits, hothers, hrec, hlines, hchans, hentries, hpur, htxns, hsaid⟩ := htaken.effect
    refine ⟨t, hexec, hbits, hothers, hrec, hlines, hchans, fun _ => hmed, hentries, hpur, htxns, hsaid,
      fun _ hstandby hfit hput => hfree ?_, fun hlow hstandby => hbusy hlow ?_,
      fun h17 => absurd h17 hbelow.ne, fun h17 => absurd h17 hbelow.ne⟩
    · rw [standbyFree, hstandby, hfit, hput]; rfl
    · simp [standbyFree, hstandby]
  · obtain rfl : pos = 17 := by omega
    by_cases hch : s.integ.rebuildCh = some c
    · obtain ⟨t, hexec, htaken, hdropped⟩ := dieFailed_abandons_effect h hch
      obtain ⟨hbits, hothers, hrec, hlines, hchans, hentries, hpur, htxns, hsaid⟩ := htaken.effect
      exact ⟨t, hexec, hbits, hothers, hrec, hlines, hchans, fun hno => absurd hno hbelow, hentries, hpur, htxns, hsaid,
        fun hno => absurd hno hbelow, fun hno => absurd hno (by decide), fun _ _ => hdropped, fun _ hno => absurd hch hno⟩
    · obtain ⟨t, hexec, htaken, hcleared⟩ := dieFailed_standby_effect h hch
      obtain ⟨hbits, hothers, hrec, hlines, hchans, hentries, hpur, htxns, hsaid⟩ := htaken.effect
      exact ⟨t, hexec, hbits, hothers, hrec, hlines, hchans, fun hno => absurd hno hbelow, hentries, hpur, htxns, hsaid,
        fun hno => absurd hno hbelow, fun hno => absurd hno (by decide), fun _ hno => absurd hno hch, fun _ _ => hcleared⟩

end Sys2Proof.Machine
end

section
/-! A ledger that lists a folio twice (R144, R380). -/

namespace Sys2Proof.Machine

open Sys2Proof

/-- A device that is on, with a ledger that lists folio 0 twice: first without a media folio, then on media folio 9000. -/
def twiceListedState : State :=
  let s := State.reset.modLed fun l =>
    { l with entries := [(0, { entry0 with state := .live }), (0, { entry0 with state := .live, media := 9000 })] }
  let s := s.modSup fun u => { u with state := .on, inReset := false }
  s.modCtl fun c => { c with cpuUp := true }

theorem twiceListedState_takes : yciTaken 0xC200 .a [0, 0, 0, 0] twiceListedState = true := rfl

/-- The patrol's list looks at the second entry, and an assay at the first, which has no media folio. -/
theorem twiceListedState_patrols : patrolFolios twiceListedState = [0] := rfl

theorem twiceListedState_assays :
    (stOf (exec (.startFullAssay .a [0, 0, 0, 0]) twiceListedState) twiceListedState).med.assays = [] := rfl

/-- Refutes O31: its last clause counts an assay for each folio of the patrol's list, and a folio that the ledger lists twice may
stand there though its first entry has no media folio. It fails for want of the hypothesis that the ledger lists each folio once. -/
theorem not_folioCommands : ¬ Obligations.FolioCommands := by
  unfold Obligations.FolioCommands
  rintro ⟨-, -, -, hassay⟩
  obtain ⟨t, hexec, ⟨-, hq⟩, -⟩ := hassay .a [0, 0, 0, 0] twiceListedState twiceListedState_takes (by decide)
  have hone : t.med.assays.length = 1 := congrArg (fun m : Media => m.assays.length) hq.med
  have hzero := twiceListedState_assays
  rw [hexec] at hzero
  rw [show t.med.assays = [] from hzero] at hone
  exact absurd hone (by decide)

end Sys2Proof.Machine
end

section
/-! A write that waits for room in the till while a scan's result is put in force (R151, R179). -/

namespace Sys2Proof.Machine

open Sys2Proof

/-- A partial write of folio 0's first line that waits for room in the till. -/
def meteredWrite : Txn :=
  { head := .a, tag := 0, write := true, lineNo := 0, sector := 0, key := 0, since := 0, wait := .metered, data := 0, enables := 0,
    poison := false, own := false, gen := 3 }

/-- The entry that the scan found for folio 0, with no read of its media folio counted. -/
def recoveredFolio : LEntry := { entry0 with media := 9000, state := .live, gen := 3, stamp := 1 }

/-- A scan that is done in ledger-lost mode, with a line of the unprovisioned folio 1 in the till and a write of folio 0 that waits
for room there. -/
def waitingWriteState : State :=
  let s := State.reset.modLed fun l =>
    { l with lost := true, scanActive := true, scanDone := true, scanResult := [(0, recoveredFolio)],
             overdraft := [(8192, { data := 0, hallmark := 0, poison := false, rewritten := 0 })] }
  let s := s.modPur fun u => { u with waitQ := [{ lineNo := 0, key := 0, writes := [] }] }
  s.modFe fun f => { f with txns := [meteredWrite] }

/-- Folio 1's line is dropped, the write of folio 0 goes on to read its media, and the entry counts that read. -/
theorem waitingWriteState_counts :
    (ent (stOf (exec .scanCommitDone waitingWriteState) waitingWriteState) 0).readSub = 1 := by decide +kernel

/-- Refutes O37: its fourth clause has the ledger's entries be the scan's result, and a write that waited for room in the till may
go on at once and count its media read in an entry. It fails for want of the hypothesis that no write waits for that room. -/
theorem not_recoveryAndScan : ¬ Obligations.RecoveryAndScan := by
  unfold Obligations.RecoveryAndScan
  rintro ⟨-, -, -, hcommit⟩
  obtain ⟨t, hexec, -, -, hentries, -⟩ := (hcommit waitingWriteState).2 rfl rfl rfl rfl
  have hfound : ent t 0 = recoveredFolio := by rw [ent, hentries]; rfl
  have hcount := waitingWriteState_counts
  rw [hexec] at hcount
  rw [show stOf (.next t) waitingWriteState = t from rfl, hfound] at hcount
  exact absurd hcount (by decide)

end Sys2Proof.Machine
end

section
/-! The Get commands of classes 0xC1 to 0xC6 (R189, R379, R415): a command that its mailbox takes is written to MBX_CMD and answered
by its body, and no body here reads that register. -/

namespace Sys2Proof.Machine

open Sys2Proof

/-- The stored registers r are those of s but for MBX_CMD of the two heads (R367). -/
def cmdOnly (s : State) (r : Tab (BitVec 32)) : Prop := ∀ k, k ≠ 0x20008 → k ≠ 0x4020008 → rval (s.setRegs r) k = rval s k

theorem yciNoted_cmdOnly (op : Nat) (p : MbxPort) (b : List Byte) (s : State) :
    ∃ r, yciNoted op p b s = s.setRegs r ∧ cmdOnly s r := by
  cases p with
  | board => exact ⟨s.regs, rfl, fun _ _ _ => rfl⟩
  | a => exact ⟨_, rfl, fun k ha _ => congrArg BitVec.toNat (rget_rset_ne s _ _ _ ha)⟩
  | b => exact ⟨_, rfl, fun k _ hb => congrArg BitVec.toNat (rget_rset_ne s _ _ _ hb)⟩

section

variable {op : Nat} {p : MbxPort} {b : List Byte} {s : State} {body : Body} {out : List Byte}

/-- A command that is taken, and whose body only reads. -/
theorem next_yciRun_reads (h : yciTaken op p b s = true) (hbody : ∀ r, cmdOnly s r → body p b (s.setRegs r) = okOut out (s.setRegs r)) :
    (.next (yciRun op body p b s) : Res) = .next (answerOnly op p b 0 out s) := by
  obtain ⟨r, hr, hcmd⟩ := yciNoted_cmdOnly op p b s
  exact congrArg Host.Outcome.next (yciRun_answers h (by decide) (by rw [hr]; exact hbody r hcmd))

/-- The same of a body that reads no register, for an input in its range. -/
theorem next_yciRun_gives (h : yciTaken op p b s = true) (hbody : ∀ r, body p b (s.setRegs r) = okOut out (s.setRegs r)) :
    (.next (yciRun op body p b s) : Res) = .next (answerOnly op p b 0 out s) := next_yciRun_reads h fun r _ => hbody r

end

/-! The values that read a register (R166, R189, R190, R417). -/

section

variable {s : State} {r : Tab (BitVec 32)} (h : cmdOnly s r)
include h

theorem cmdOnly.floorF : floorF (s.setRegs r) = Machine.floorF s := by
  rw [Machine.floorF, h _ (by decide) (by decide), Machine.floorF]

theorem cmdOnly.wearLimit : wearLimit (s.setRegs r) = Machine.wearLimit s := by
  rw [Machine.wearLimit, h _ (by decide) (by decide), Machine.wearLimit]
  rfl

theorem cmdOnly.provisionable : provisionable (s.setRegs r) = Machine.provisionable s := by
  rw [Machine.provisionable, h.floorF, Machine.provisionable]
  rfl

theorem cmdOnly.lifeUsed : lifeUsed (s.setRegs r) = Machine.lifeUsed s := by
  rw [Machine.lifeUsed, h.wearLimit, Machine.lifeUsed]
  rfl

theorem cmdOnly.wearHealth : wearHealth (s.setRegs r) = Machine.wearHealth s := by
  simp only [Machine.wearHealth, h.floorF, h.wearLimit, h.lifeUsed, h 0x200044 (by decide) (by decide),
    h 0x20004C (by decide) (by decide), h 0x200058 (by decide) (by decide)]
  rfl

theorem cmdOnly.pairStatus : pairStatus (s.setRegs r) = Machine.pairStatus s := by
  rw [Machine.pairStatus, h _ (by decide) (by decide), Machine.pairStatus]
  rfl

end

/-! The commands. -/

section

variable {p : MbxPort} {b : List Byte} {s : State}

theorem exec_getCapacityInfo (h : yciTaken 0xC100 p b s = true) :
    exec (.getCapacityInfo p b) s = .next (answerOnly 0xC100 p b 0
      (toLE 4 s.board.folios ++ toLE 4 (provisionedCount s) ++ toLE 4 (mediaN s) ++ toLE 4 (reserveCount s) ++ toLE 4 (floorF s) ++
        toLE 4 (writtenOff s) ++ toLE 4 (provisionable s) ++ zeros 4) s) :=
  next_yciRun_reads h fun r hr => by
    rw [yGetCapacityInfo, hr.floorF, hr.provisionable]
    rfl

theorem exec_getFolioEntry (h : yciTaken 0xC106 p b s = true) (hzero : le b 3 1 = 0) (hf : le b 0 3 < s.board.folios) :
    exec (.getFolioEntry p b) s = .next (answerOnly 0xC106 p b 0 (entryBytes (ent s (le b 0 3))) s) :=
  next_yciRun_gives h fun r => if_neg (by simp [hzero, Nat.not_le.mpr hf])

/-- R154: bits [36:32] of an entry, each at its place. -/
theorem entryBytes_fields (e : LEntry) :
    entryBytes e = toLE 16 (e.media % 2 ^ 25 + e.key % 128 * 2 ^ 25 + b2n e.bullion * 2 ^ 32 + b2n e.through * 2 ^ 33 + b2n e.noAlloc * 2 ^ 34 +
      b2n e.late * 2 ^ 35 + b2n e.sealed_ * 2 ^ 36 + stateCode e.state * 2 ^ 37 + e.gen.toNat * 2 ^ 40 + e.stamp.toNat * 2 ^ 64 +
      min e.reads 0xFFFF * 2 ^ 88) := by
  rw [entryBytes, attrBits]
  congr 1
  omega

theorem yciNoted_mrrQueue (op c pos reg : Nat) (p : MbxPort) (b : List Byte) (s : State) :
    yciNoted op p b (mrrQueue c pos reg s) = mrrQueue c pos reg (yciNoted op p b s) := by cases p <;> rfl

/-- R189: the bytes of the health answer, the first 32 apart. -/
theorem wearHealth_split (s : State) : wearHealth s =
    (toLE 4 (reserveCount s) ++ toLE 4 (floorF s) ++ toLE 4 (writtenOff s) ++ toLE 4 (readOnlyCount s) ++
      toLE 4 s.led.overdraft.length ++ toLE 4 (wearMax s) ++ toLE 4 (wearMean s) ++ toLE 4 (wearLimit s)) ++
    (toLE 1 (spareLeft s) ++ toLE 1 (lifeUsed s) ++ toLE 2 (fewestSpares s) ++ toLE 4 (rval s 0x200044) ++
      toLE 4 (rval s 0x20004C) ++ toLE 4 (rval s 0x200058) ++ [sat8 s.sup.sinceOn, sat8 s.sup.ever] ++
      toLE 2 (min 0xFFFF (s.sup.min95 / 60)) ++ toLE 2 (min 0xFFFF (s.sup.min105 / 60)) ++ zeros 10) := by
  simp only [wearHealth, List.append_assoc]

/-- The MRR of a register is queued on its channel, and changes nothing that a register reads as (log entry 25). -/
theorem exec_readDieRegister (h : yciTaken 0xC201 p b s = true) (hc : le b 0 1 < 32) (hpos : le b 1 1 < 18) (hreg : le b 2 2 < 0x800)
    (hpop : populated s (le b 0 1) = true) (hdie : (chan s (le b 0 1)).present.getLsbD (le b 1 1) = true) (hne : le b 2 2 ≠ 8) :
    exec (.readDieRegister p b) s = .next (answerOnly 0xC201 p b 0
      (toLE 4 (dieReg s (le b 0 1) (le b 1 1) (le b 2 2)).toNat ++ toLE 4 (dieReg s (le b 0 1) (le b 1 1) 1).toNat)
      (mrrQueue (le b 0 1) (le b 1 1) (le b 2 2) s)) := by
  obtain ⟨r, hr⟩ := yciNoted_setRegs 0xC201 p b s
  have hin : ¬ (decide (32 ≤ le b 0 1) || decide (18 ≤ le b 1 1) || decide (0x800 ≤ le b 2 2) || !populated (s.setRegs r) (le b 0 1) ||
      !(chan (s.setRegs r) (le b 0 1)).present.getLsbD (le b 1 1)) = true := by
    rw [show populated (s.setRegs r) (le b 0 1) = true from hpop,
      show (chan (s.setRegs r) (le b 0 1)).present.getLsbD (le b 1 1) = true from hdie]
    simp only [Bool.not_true, Bool.or_false, Bool.or_eq_true, decide_eq_true_eq]
    omega
  refine congrArg Host.Outcome.next (yciRun_answers h (by decide) ?_)
  rw [yciNoted_mrrQueue, hr]
  rw [yReadDieRegister]
  simp only [if_neg hin, show ¬ (le b 2 2 == 8) = true by simpa using hne]
  rfl

theorem exec_getChannelStatus (h : yciTaken 0xC202 p b s = true) (hc : le b 0 4 < 32) :
    exec (.getChannelStatus p b) s = .next (answerOnly 0xC202 p b 0
      (toLE 1 (chStateCode (chan s (le b 0 1)).state) ++ toLE 1 (chan s (le b 0 1)).failStep ++ toLE 1 (chan s (le b 0 1)).attempts ++
        [0] ++ toLE 4 (chan s (le b 0 1)).present.toNat ++ toLE 4 (failedDies s (le b 0 1)).toNat ++ zeros 4) s) :=
  next_yciRun_gives h fun _ => if_neg (Nat.not_le.mpr hc)

theorem exec_getDomainInfo (h : yciTaken 0xC300 p b s = true) (hk : le b 0 1 < 128) (hzero : le b 1 3 = 0) :
    exec (.getDomainInfo p b) s = .next (answerOnly 0xC300 p b 0
      ([policyFlags s (le b 0 1), BitVec.ofNat 8 (b2n (domKey s (le b 0 1)).isSome + 2 * b2n (tget policy0 s.cry.policy (le b 0 1)).written)] ++
        zeros 2 ++ toLE 4 (s.led.entries.filter fun e => provisioned e.2 && e.2.key == le b 0 1).length ++
        toLE 4 (if le b 0 1 ≠ 0 ∧ (tget policy0 s.cry.policy (le b 0 1)).kcvSet = true
          then (tget policy0 s.cry.policy (le b 0 1)).kcv.toNat else 0) ++
        toLE 4 (s.esc.sets.filter fun e => e.2.state != .free && e.2.key == le b 0 1).length) s) := by
  refine next_yciRun_gives h fun r => (if_neg (by simp only [hzero]; simpa using hk)).trans ?_
  simp only [← Bool.and_eq_true, ← bne_iff_ne]
  rfl

theorem exec_readStandingOrder (h : yciTaken 0xC403 p b s = true) (hi : le b 0 2 < 1024) (hzero : le b 2 2 = 0) :
    exec (.readStandingOrder p b) s = .next (answerOnly 0xC403 p b 0
      (toLE 4 (soWord (soEnt s (le b 0 2))) ++ toLE 32 (soEnt s (le b 0 2)).bytes.toNat) s) :=
  next_yciRun_gives h fun _ => if_neg (by simp [soIndexOk, hi, hzero])

theorem exec_getEscrowSet (h : yciTaken 0xC407 p b s = true) (hn : le b 0 1 < 64) (hzero : le b 1 3 = 0) :
    exec (.getEscrowSet p b) s = .next (answerOnly 0xC407 p b 0
      (toLE 4 (escWord (escSet s (le b 0 1))) ++ toLE 4 (escSet s (le b 0 1)).members.length ++ toLE 4 (escSet s (le b 0 1)).reserved ++
        zeros 4) s) :=
  next_yciRun_gives h fun _ => if_neg (by simp [setIndexOk, hzero, -le_byte, hn])

/-- R308: a queue that is not created, or that the other head created, reads as zeros (log entry 47). -/
theorem exec_getQueueInfo_none (h : yciTaken 0xC504 p b s = true) (hq : le b 0 2 < 4096) (hzero : le b 2 2 = 0)
    (hnone : adminQueue p (le b 0 2) s = none) : exec (.getQueueInfo p b) s = .next (answerOnly 0xC504 p b 0 (zeros 32) s) := by
  refine next_yciRun_gives h fun r => (if_neg (by simp [hq, hzero])).trans ?_
  rw [show adminQueue p (le b 0 2) (s.setRegs r) = none from hnone]

theorem exec_getQueueInfo_some {x : Queue} (h : yciTaken 0xC504 p b s = true) (hq : le b 0 2 < 4096) (hzero : le b 2 2 = 0)
    (hsome : adminQueue p (le b 0 2) s = some x) : exec (.getQueueInfo p b) s = .next (answerOnly 0xC504 p b 0
      (toLE 4 (qpInfo x) ++ toLE 4 (qpStatus x) ++ toLE 2 x.sqHead ++ toLE 2 x.sqTail ++ toLE 2 x.cqHead ++ toLE 2 x.cqTail ++
        toLE 16 x.grants.toNat) s) := by
  refine next_yciRun_gives h fun r => (if_neg (by simp [hq, hzero])).trans ?_
  rw [show adminQueue p (le b 0 2) (s.setRegs r) = some x from hsome]

/-- R415: without a pair the command is refused. -/
theorem exec_getPairStatus_alone (h : yciTaken 0xC600 p b s = true) (hpair : pairMode s = false) :
    exec (.getPairStatus p b) s = .next (answerOnly 0xC600 p b 0x2 [] s) := by
  obtain ⟨r, hr⟩ := yciNoted_setRegs 0xC600 p b s
  refine congrArg Host.Outcome.next (yciRun_err h (by decide) ?_)
  rw [hr]
  exact if_pos (by rw [show pairMode (s.setRegs r) = false from hpair]; rfl)

theorem exec_getPairStatus_paired (h : yciTaken 0xC600 p b s = true) (hpair : pairMode s = true) :
    exec (.getPairStatus p b) s = .next (answerOnly 0xC600 p b 0
      (toLE 4 (pairStatus s) ++ toLE 4 s.pair.policy.toNat ++ toLE 4 (debtAll s).length ++ toLE 4 s.pair.debtPeer.length ++
        toLE 4 s.pair.settled ++ toLE 4 s.pair.overwritten ++ toLE 4 s.pair.losses ++ toLE 4 s.pair.peerSerial.toNat) s) :=
  next_yciRun_reads h fun r hr => (if_neg (by rw [show pairMode (s.setRegs r) = true from hpair]; decide)).trans (by rw [hr.pairStatus]; rfl)

end

/-- Settles O28: each command's body only reads, and READ_DIE_REGISTER's queues an MRR first. -/
theorem readCommandsAnswer : Obligations.ReadCommandsAnswer := by
  unfold Obligations.ReadCommandsAnswer
  refine fun p b s => ⟨exec_getCapacityInfo, ?entry, fun h => next_yciRun_gives h fun _ => rfl, ?health, exec_readDieRegister,
    exec_getChannelStatus, exec_getDomainInfo, fun h => next_yciRun_gives h fun _ => rfl, exec_readStandingOrder, exec_getEscrowSet, ?queue,
    fun h => ⟨exec_getPairStatus_alone h, exec_getPairStatus_paired h⟩⟩
  case entry =>
    intro h hzero hf
    refine ⟨_, rfl, ?_⟩
    rw [exec_getFolioEntry h hzero hf, entryBytes_fields]
  case health =>
    refine fun h => ⟨_, next_yciRun_reads h fun r hr => by rw [hr.wearHealth], ?_, ?_⟩ <;> rw [wearHealth_split]
    · exact List.take_left' (by simp)
    · exact List.drop_left' (by simp)
  case queue =>
    intro h hq hzero
    refine ⟨fun hother => exec_getQueueInfo_none h hq hzero ?_, fun x hx hhead => exec_getQueueInfo_some h hq hzero ?_⟩
    · simpa [adminQueue, Option.filter_eq_none_iff] using hother
    · simp [adminQueue, hx, hhead]

end Sys2Proof.Machine
end

section
/-! Completed journal records (R169): what each kind of record does to the state, its reasons and the queues of the passbook apart. -/

namespace Sys2Proof.Machine

open Sys2Proof

/-- What a queued record or page write leaves of the ledger. -/
theorem Queued.ledger {s t : State} (h : Queued s t) {α : Type} (look : Ledger → α)
    (hidle : ∀ l, look l.idle = look l := by exact fun _ => rfl) : look t.led = look s.led := by
  rw [← hidle t.led, h.led, hidle]

theorem Queued.modMbx {s t : State} (h : Queued s t) (p : MbxPort) (f : Mailbox → Mailbox) :
    Queued (modMbx p f s) (Machine.modMbx p f t) := by
  have hport (x y : Port) (hxy : x.bare = y.bare) : ({ x with mbx := f x.mbx } : Port).bare = ({ y with mbx := f y.mbx } : Port).bare := by
    have hmbx : x.bare.mbx = y.bare.mbx := congrArg _ hxy
    show { x.bare with mbx := f x.bare.mbx } = { y.bare with mbx := f y.bare.mbx }
    rw [hxy]
  cases p with
  | board => exact h.modCtl _
  | a => exact h.modPort .a _ hport
  | b => exact h.modPort .b _ hport

theorem Queued.bgRec {s t : State} (h : Queued s t) (own : Nat) : Queued (bgRec own s) (Machine.bgRec own t) := by
  unfold Machine.bgRec
  split
  · exact h
  · exact h.modMbx _ _

/-- The command that waits for a record is noted apart from the ledger and the counts. -/
theorem bgRec_update (own i n : Nat) (f : Ledger → Ledger) (s : State) :
    bgRec own ((s.counted i n).modLed f) = ((bgRec own s).counted i n).modLed f := by
  unfold bgRec
  split
  · rfl
  next p _ => cases p <;> rfl

theorem bgRec_blocks (own : Nat) (s : State) : (bgRec own s).led = s.led ∧ (bgRec own s).integ = s.integ := by
  unfold bgRec
  split
  · exact ⟨rfl, rfl⟩
  next p _ => cases p <;> exact ⟨rfl, rfl⟩

/-- R170: putting the queue in order and starting its next record changes nothing else. -/
theorem ringNext_queued (s : State) : Queued s (ringNext s) :=
  Queued.trans (b := s.modLed fun l => { l with appends := ringOrder s }) (.of_idle rfl) ((ringCheck_queued _).trans (pageStart_queued _))

theorem ringNext_appends (s : State) : (ringNext s).led.appends = ringOrder s := by
  rw [ringNext, pageStart_appends, ringCheck_appends]
  rfl

theorem reserveEvents_noted (n : Nat) (s : State) : Noted s (reserveEvents n s) := by
  unfold reserveEvents
  have hraise (c : Bool) (k : Nat) (d : Det) {a b : State} (h : Noted a b) : Noted a (if c then raise 5 1 k d b else b) := by
    split
    · exact h.raise _ _ _ _
    · exact h
  exact hraise _ _ _ (hraise _ _ _ (hraise _ _ _ (.refl s)))

/-! The end of an append. -/

/-- What an append of r changes before the record's own effect: its slot, its sequence number, its count, and the background
command that waits for it. -/
def appendDone (r : JRec) (rest : List JRec) (s : State) : State := (bgRec r.own (appendLand (recNow s r) rest s)).counted 456 1

/-- The state in which the record takes effect. -/
def appendIn (r : JRec) (rest : List JRec) (s : State) : State := bump 456 1 (appendLand (recNow s r) rest s)

theorem recNow_own (s : State) (r : JRec) : (recNow s r).own = r.own := by
  unfold recNow
  dsimp only
  repeat' split
  all_goals rfl

section

variable {r : JRec} {rest : List JRec} {s : State}

theorem appendIn_led : (appendIn r rest s).led = (appendLand (recNow s r) rest s).led := bump_led _ _ _

theorem exec_journalAppendComplete (happ : s.led.appends = r :: rest) (hrun : s.led.appending = true) :
    exec .journalAppendComplete s = .next (ringNext (bgRec r.own (applyRec (recNow s r) (appendIn r rest s)))) := by
  show execJournalAppendComplete s = _
  rw [execJournalAppendComplete, happ]
  simp only [hrun, recNow_own]
  rfl

/-- A record whose effect is an update of the ledger, reasons and queues apart. -/
theorem append_effect (happ : s.led.appends = r :: rest) (hrun : s.led.appending = true) (f : Ledger → Ledger)
    (hidle : ∀ l, (f l).idle = f l.idle := by exact fun _ => rfl)
    (heff : Queued ((appendIn r rest s).modLed f) (applyRec (recNow s r) (appendIn r rest s))) :
    ∃ t, exec .journalAppendComplete s = .next t ∧ Queued ((appendDone r rest s).modLed f) t := by
  refine ⟨_, exec_journalAppendComplete happ hrun, ?_⟩
  have hin : Queued ((appendDone r rest s).modLed f) (bgRec r.own ((appendIn r rest s).modLed f)) := by
    rw [appendDone, ← bgRec_update]
    exact ((Noted.bump (.refl _) 456 1).queued.modLed f fun p q h => by rw [hidle, hidle, h]).bgRec r.own
  exact (hin.trans (heff.bgRec r.own)).trans (ringNext_queued _)

end

/-! What a record does (R169), where no line waits for a place in the overdraft. -/

theorem applyRec_of_quiet {r : JRec} {s t : State} (happly : applyRec r s = overdraftAdmit t.led.overdraftWait.length t)
    (hwait : t.led.overdraftWait = []) : applyRec r s = t := by
  rw [happly, hwait]
  rfl

/-- R165: an ALLOC that is of no directory and no migration sets the tables. -/
theorem applyRec_alloc {r : JRec} {s : State} (htype : r.type = 0x01) (hdir : inDirs s r.a = false) (h3 : r.b ≠ 3) (h6 : r.b ≠ 6)
    (h7 : r.b ≠ 7) (hwait : s.led.overdraftWait = []) :
    applyRec r s = reserveEvents (reserveCount s) (setWear r.a { wearOf s r.a with wear := r.d } (setRev r.a r.b r.c s)) := by
  refine applyRec_of_quiet ?_ ?_
  · simp [applyRec, recSwaps, recTables, htype, hdir, h3, h6, h7]
  · rw [(reserveEvents_noted _ _).led]
    exact hwait

/-- R42, R186, R234: an ATTR that leaves the state and does not give write-through has no effect but on the tables. -/
theorem attrEffect_same {f : Nat} {old : LEntry} {s : State} (hthrough : (ent s f).through = false)
    (hstate : (ent s f).state = old.state) : attrEffect f old s = s := by
  simp only [attrEffect, hthrough, hstate, provisioned, Bool.and_false, Bool.false_eq_true, if_false]
  cases old.state <;> rfl

/-- R160: an ATTR that neither changes STATE nor turns write-through on. -/
theorem applyRec_attr {r : JRec} {s : State} (htype : r.type = 0x04) (hstate : stateOf (r.c / 32) = (ent s r.a).state)
    (hprov : (ent s r.a).state ≠ .unprovisioned) (hthrough : bit (r.c % 32) 1 = false) (hwait : s.led.overdraftWait = []) :
    applyRec r s = recTables r s := by
  refine applyRec_of_quiet ?_ ?_
  · have heffect : attrEffect r.a (ent s r.a) (recTables r s) = recTables r s := by
      refine attrEffect_same ?_ ?_
      · simp [recTables, htype, ent, modEnt, tmod, withAttrBits, hthrough]
      · simp [recTables, htype, ent, modEnt, tmod, hstate]
    simp [applyRec, recSwaps, htype, hstate, hprov, heffect]
  · simp only [recTables, htype]
    exact hwait

/-- R170: a CKPT-BEGIN leaves the body to be written. -/
theorem applyRec_begin {r : JRec} {s : State} (htype : r.type = 0x09) (hwait : s.led.overdraftWait = []) :
    applyRec r s = s.modLed fun l => { l with ckptPhase := .body } :=
  applyRec_of_quiet (by simp [applyRec, recSwaps, recTables, htype]) hwait

/-- R170: the CKPT-END records but the third act on nothing. -/
theorem applyRec_end {r : JRec} {s : State} (htype : r.type = 0x0A) (hpart : r.part ≠ 2) (hwait : s.led.overdraftWait = []) :
    applyRec r s = s :=
  applyRec_of_quiet (by simp [applyRec, recSwaps, recTables, htype, hpart]) hwait

/-- R170: the third frees the ring. -/
theorem applyRec_last {r : JRec} {s : State} (htype : r.type = 0x0A) (hpart : r.part = 2)
    (hwait : (ringFree r.a s).led.overdraftWait = []) : applyRec r s = ringFree r.a s :=
  applyRec_of_quiet (by simp [applyRec, recSwaps, recTables, htype, hpart]) hwait

end Sys2Proof.Machine
end

section
/-! JOURNAL_APPEND_COMPLETE of each kind of record that the statement names (R169, R170). -/

namespace Sys2Proof.Machine

open Sys2Proof

theorem Queued.wearOf {s t : State} (h : Queued s t) (m : Nat) : wearOf t m = Machine.wearOf s m := by
  rw [Machine.wearOf, Machine.wearOf, h.ledger (·.wear), h.ledger (·.wearBase), h.ledger (·.wearLow)]

theorem wear_setWear_same (m : Nat) (w : Wear) (s : State) : (wearOf (setWear m w s) m).wear =
    satAdd 0x7FFFF (wearFrom s.led.wearBase s.led.wearLow m) (w.wear - wearFrom s.led.wearBase s.led.wearLow m) := by
  simp [wearOf, setWear]

theorem wearOf_setWear_ne {m n : Nat} (h : n ≠ m) (w : Wear) (s : State) : wearOf (setWear m w s) n = wearOf s n := by
  rw [wearOf, setWear, State.modLed_led, tget_tput_ne _ _ _ _ _ _ h]
  rfl

/-- R158: the wear table holds what stands above the base. -/
theorem satAdd_wear (base d : Nat) : satAdd 0x7FFFF base (d - base) = min 0x7FFFF (max base d) := by
  unfold satAdd
  omega

theorem recNow_plain {r : JRec} (h2 : r.type ≠ 0x02) (h4 : r.type ≠ 0x04) (h7 : r.type ≠ 0x07) (s : State) : recNow s r = r := by
  unfold recNow
  dsimp only
  split <;> simp_all

/-- R154: what an ATTR states at its append: the entry's generation, and a state that its media folio allows. -/
theorem recNow_attr {r : JRec} (h : r.type = 0x04) (s : State) :
    (recNow s r).type = 0x04 ∧ (recNow s r).a = r.a ∧ (recNow s r).b = r.b ∧ (recNow s r).c % 32 = r.c % 32 ∧
      (recNow s r).d = (ent s r.a).gen.toNat := by
  unfold recNow
  simp only [h, true_and, and_true]
  omega

/-- R158, R160: the tables once an ALLOC of a folio with these programs is complete. -/
def allocTables (r : JRec) (programs : Nat) (l : Ledger) : Ledger :=
  { l with wear := tput default l.wear r.a { wear := r.d - wearFrom l.wearBase l.wearLow r.a, programs := programs },
           rev := tput default l.rev r.a { kind := r.b, owner := r.c } }

section

variable {r : JRec} {rest : List JRec} {s : State}

theorem appendDone_led : (appendDone r rest s).led = (appendLand (recNow s r) rest s).led := (bgRec_blocks _ _).1

theorem append_alloc (happ : s.led.appends = r :: rest) (hrun : s.led.appending = true) (hwait : s.led.overdraftWait = [])
    (htype : r.type = 0x01) (hdir : inDirs s r.a = false) (h3 : r.b ≠ 3) (h6 : r.b ≠ 6) (h7 : r.b ≠ 7) :
    ∃ t, exec .journalAppendComplete s = .next t ∧
      (wearOf t r.a).wear = min 0x7FFFF (max (wearFrom s.led.wearBase s.led.wearLow r.a) r.d) ∧ (∀ m, m ≠ r.a → wearOf t m = wearOf s m) ∧
      Queued ((appendDone r rest s).modLed fun l =>
        { l with wear := t.led.wear, rev := tput default l.rev r.a { kind := r.b, owner := r.c } }) t := by
  have hplain : recNow s r = r := recNow_plain (by simp [htype]) (by simp [htype]) (by simp [htype]) s
  have hled : (appendIn r rest s).led = (appendLand r rest s).led := by rw [appendIn_led, hplain]
  have hwearOf (m : Nat) : wearOf (appendIn r rest s) m = wearOf s m := by
    rw [wearOf, hled]
    rfl
  have hin : inDirs (appendIn r rest s) r.a = false := by
    rw [inDirs, hled]
    exact hdir
  have happly := applyRec_alloc htype hin h3 h6 h7 (by rw [hled]; exact hwait)
  obtain ⟨t, hexec, hq⟩ := append_effect happ hrun (allocTables r (wearOf s r.a).programs) (heff := by
    rw [hplain, happly, hwearOf]
    exact (reserveEvents_noted _ _).queued)
  have hdone (m : Nat) : wearOf (appendDone r rest s) m = wearOf s m := by
    rw [wearOf, appendDone_led, hplain]
    rfl
  have htables : (appendDone r rest s).modLed (allocTables r (wearOf s r.a).programs) =
      setWear r.a { wearOf s r.a with wear := r.d } (setRev r.a r.b r.c (appendDone r rest s)) := rfl
  refine ⟨t, hexec, ?_, fun m hm => ?_, ?_⟩
  · rw [hq.wearOf, htables, wear_setWear_same]
    rw [setRev, State.modLed_led, appendDone_led]
    exact satAdd_wear _ _
  · rw [hq.wearOf, htables, wearOf_setWear_ne hm]
    exact hdone m
  · rw [hq.ledger (·.wear)]
    exact hq

/-- R160: the tables once an ATTR that leaves the entry's state and generation is complete. -/
theorem recTables_attr {q : JRec} {u : State} (htype : q.type = 0x04) (hstate : stateOf (q.c / 32) = (ent u q.a).state)
    (hprov : (ent u q.a).state ≠ .unprovisioned) (hgen : q.d = (ent u q.a).gen.toNat) :
    recTables q u = u.modLed fun l => { l with entries := tmod entry0 l.entries q.a fun e =>
      { withAttrBits e (q.c % 32) with key := q.b } } := by
  simp only [recTables, htype, modEnt, tmod, hstate, hgen, BitVec.ofNat_toNat, BitVec.setWidth_eq, beq_eq_false_iff_ne.mpr hprov]
  rfl

theorem append_attr (happ : s.led.appends = r :: rest) (hrun : s.led.appending = true) (hwait : s.led.overdraftWait = [])
    (htype : r.type = 0x04) (hstate : stateOf ((recNow s r).c / 32) = (ent s r.a).state) (hprov : (ent s r.a).state ≠ .unprovisioned)
    (hthrough : bit r.c 1 = false) :
    ∃ t, exec .journalAppendComplete s = .next t ∧
      Queued ((appendDone r rest s).modLed fun l => { l with entries := tmod entry0 l.entries r.a fun e =>
        { withAttrBits e (r.c % 32) with key := r.b } }) t := by
  obtain ⟨hnow, ha, hb, hc, hd⟩ := recNow_attr htype s
  have hent : ent (appendIn r rest s) (recNow s r).a = ent s r.a := by
    rw [ent, appendIn_led, ha]
    rfl
  rw [← hent] at hstate hprov hd
  have hthrough' : bit ((recNow s r).c % 32) 1 = false := by
    simp only [hc, bit, decide_eq_false_iff_not] at hthrough ⊢
    omega
  refine append_effect happ hrun _ (heff := ?_)
  rw [applyRec_attr hnow hstate hprov hthrough' (by rw [appendIn_led]; exact hwait), recTables_attr hnow hstate hprov hd, ha, hb, hc]
  exact .refl _

theorem append_begin (happ : s.led.appends = r :: rest) (hrun : s.led.appending = true) (hwait : s.led.overdraftWait = [])
    (htype : r.type = 0x09) :
    ∃ t, exec .journalAppendComplete s = .next t ∧ Queued ((appendDone r rest s).modLed fun l => { l with ckptPhase := .body }) t := by
  have hplain : recNow s r = r := recNow_plain (by simp [htype]) (by simp [htype]) (by simp [htype]) s
  refine append_effect happ hrun _ (heff := ?_)
  rw [hplain, applyRec_begin htype (by rw [appendIn_led]; exact hwait)]
  exact .refl _

theorem append_end (happ : s.led.appends = r :: rest) (hrun : s.led.appending = true) (hwait : s.led.overdraftWait = [])
    (htype : r.type = 0x0A) (hpart : r.part ≠ 2) :
    ∃ t, exec .journalAppendComplete s = .next t ∧ Queued (appendDone r rest s) t := by
  have hplain : recNow s r = r := recNow_plain (by simp [htype]) (by simp [htype]) (by simp [htype]) s
  refine append_effect happ hrun id (heff := ?_)
  rw [hplain, applyRec_end htype hpart (by rw [appendIn_led]; exact hwait)]
  exact .refl _

end

/-- R170: what the third CKPT-END frees: the ring up to the checkpoint before it, and the lists of uncorrectable lines. -/
def ringFreed (sq : Nat) (s : State) : State :=
  let keep := s.led.ring.dropWhile fun r => !(r.type == 0x09 && r.a + 1 == sq)
  (s.modLed fun l => { l with ring := if keep.isEmpty then l.ring else keep, ckptSeq := BitVec.ofNat 32 sq, ckptActive := false }).modInteg
    fun i => { i with uncorrBy := [], retireList := [] }

theorem ringFree_queued {sq : Nat} {s : State} (hquiet : s.led.ckptQueued = false) : Queued (ringFreed sq s) (ringFree sq s) := by
  have hq : Queued (ringFreed sq s) (pageStart (ringCheck (ringFreed sq s))) := (ringCheck_queued _).trans (pageStart_queued _)
  have hstill : ¬ (pageStart (ringCheck (ringFreed sq s))).led.ckptQueued = true := by
    rw [hq.ledger (·.ckptQueued)]
    exact ne_true_of_eq_false hquiet
  rw [show ringFree sq s = pageStart (ringCheck (ringFreed sq s)) from if_neg hstill]
  exact hq

theorem ringFreed_ring (sq : Nat) (s : State) : (ringFreed sq s).led.ring <:+ s.led.ring := by
  show (if _ then _ else _) <:+ _
  split
  · exact List.suffix_refl _
  · exact List.dropWhile_suffix _

theorem append_last {r : JRec} {rest : List JRec} {s : State} (happ : s.led.appends = r :: rest) (hrun : s.led.appending = true)
    (hwait : s.led.overdraftWait = []) (htype : r.type = 0x0A) (hpart : r.part = 2) (hquiet : s.led.ckptQueued = false) :
    ∃ t, exec .journalAppendComplete s = .next t ∧ t.led.ckptSeq.toNat = r.a % 2 ^ 32 ∧ t.led.ckptActive = false ∧ t.integ.uncorrBy = [] ∧
      (t.led.ring <:+ s.led.ring ++ [{ r with seq := s.led.seqNext }]) := by
  have hplain : recNow s r = r := recNow_plain (by simp [htype]) (by simp [htype]) (by simp [htype]) s
  have hin : (appendIn r rest s).led = (appendLand r rest s).led := by rw [appendIn_led, hplain]
  have hfree : Queued (ringFreed r.a (appendIn r rest s)) (ringFree r.a (appendIn r rest s)) := ringFree_queued (by rw [hin]; exact hquiet)
  have hnone : (ringFree r.a (appendIn r rest s)).led.overdraftWait = [] := by
    rw [hfree.ledger (·.overdraftWait), ringFreed, State.modInteg_led, State.modLed_led, hin]
    exact hwait
  have happly := applyRec_last htype hpart hnone
  have hq := (hfree.bgRec r.own).trans (ringNext_queued _)
  refine ⟨_, by rw [exec_journalAppendComplete happ hrun, hplain, happly], ?_, ?_, ?_, ?_⟩
  · rw [hq.ledger (·.ckptSeq), (bgRec_blocks _ _).1]
    exact BitVec.toNat_ofNat _ _
  · rw [hq.ledger (·.ckptActive), (bgRec_blocks _ _).1]
    rfl
  · rw [hq.integ, (bgRec_blocks _ _).2]
    rfl
  · rw [hq.ledger (·.ring), (bgRec_blocks _ _).1]
    refine (ringFreed_ring _ _).trans ?_
    rw [hin]
    exact List.suffix_refl _

end Sys2Proof.Machine
end

section
/-! The triggers of a checkpoint (R172, R175), and CHECKPOINT_DONE (R174, R280). -/

namespace Sys2Proof.Machine

open Sys2Proof

/-- A fold stays within a preorder of states where each of its steps does from a state within it. -/
theorem forEach_within {α : Type} {R : State → State → Prop} (hrefl : ∀ s, R s s) (htrans : ∀ {a b c}, R a b → R b c → R a c)
    (xs : List α) {f : α → State → State} {s : State} (hf : ∀ x ∈ xs, ∀ t, R s t → R t (f x t)) : R s (forEach xs f s) := by
  suffices hfrom : ∀ (ys : List α) (t : State), (∀ x ∈ ys, x ∈ xs) → R s t → R s (forEach ys f t) from hfrom xs s (fun _ h => h) (hrefl s)
  intro ys
  induction ys with
  | nil => exact fun t _ ht => ht
  | cons y ys ih =>
    exact fun t hmem ht => ih (f y t) (fun x hx => hmem x (List.mem_cons_of_mem _ hx)) (htrans ht (hf y (hmem y List.mem_cons_self) t ht))

/-- A fold of steps that change nothing. -/
theorem forEach_same {α : Type} (xs : List α) {f : α → State → State} {s : State} (hf : ∀ x ∈ xs, f x s = s) : forEach xs f s = s :=
  forEach_within (R := fun a b => b = a) (fun _ => rfl) (fun h g => g.trans h) xs fun x hx t ht => by rw [ht, hf x hx]

theorem journalAppendComplete_idle {s : State} (h : s.led.appends = [] ∨ s.led.appending = false) :
    exec .journalAppendComplete s = .next s := by
  show execJournalAppendComplete s = .next s
  unfold execJournalAppendComplete
  split
  · rfl
  next hrun =>
    rcases h with h | h
    · exact absurd (h.symm.trans hrun) (List.cons_ne_nil _ _).symm
    · rw [h]
      rfl

/-! The beginning of a checkpoint. -/

/-- R172: no checkpoint is kept from beginning: no trip, no ledger-lost mode, and recovery is over. -/
def ckptMay (s : State) : Prop := s.sup.tripped = false ∧ s.led.lost = false ∧ s.led.recovered = true

/-- R172: the checkpoint counter and phase as a checkpoint begins. -/
def ckptBegun (s : State) : State :=
  s.modLed fun l => { l with ckptActive := true, ckptPhase := .begin_, ckptBegan := s.clock, ckptNext := l.ckptNext + 1 }

/-- R175: the worn folios of the directories are replaced, where the ring has room. -/
def wornReplaced (s : State) : State :=
  if !ringRoom s then s
  else forEach (List.range 32) (dirReplace 7) (forEach (List.range (runLen s.led.ckptDir)) (dirReplace 6) s)

theorem ckptMay.passes {s : State} (h : ckptMay s) : ¬ (s.sup.tripped || s.led.lost || !s.led.recovered) = true := by
  obtain ⟨htrip, hlost, hrec⟩ := h
  rw [htrip, hlost, hrec]
  decide

theorem ckptTrigger_running {s : State} (h : ckptMay s) (hact : s.led.ckptActive = true) :
    ckptTrigger s = s.modLed fun l => { l with ckptQueued := true } :=
  (if_neg h.passes).trans (if_pos hact)

theorem ckptTrigger_begins {s : State} (h : ckptMay s) (hidle : s.led.ckptActive = false) :
    ckptTrigger s = ckptAppend [jrec 0x09 ((wornReplaced (ckptBegun s)).led.ckptNext - 1).toNat 0 0 0 0] (wornReplaced (ckptBegun s)) :=
  (if_neg h.passes).trans (if_neg (ne_true_of_eq_false hidle))

theorem dirReplace_queued (kind i : Nat) (s : State) : Queued s (dirReplace kind i s) := by
  unfold dirReplace
  generalize (if kind == 6 then s.led.ckptDir else s.led.spillDir) = dir
  dsimp only
  split
  · exact .refl s
  · split
    · exact (raise_noted _ _ _ _ _).queued
    · exact jAppend_queued _ _

theorem wornReplaced_queued (s : State) : Queued s (wornReplaced s) := by
  unfold wornReplaced
  split
  · exact .refl s
  · exact (forEach_related Queued.refl Queued.trans _ (dirReplace_queued 6) s).trans
      (forEach_related Queued.refl Queued.trans _ (dirReplace_queued 7) _)

/-- R175: nothing is replaced where no directory folio is worn. -/
theorem wornReplaced_none {s : State} (hckpt : ∀ i, i < runLen s.led.ckptDir → dirWorn s (runAt s.led.ckptDir i) = false)
    (hspill : ∀ i, i < 32 → dirWorn s (runAt s.led.spillDir i) = false) : wornReplaced s = s := by
  have hckptSame : forEach (List.range (runLen s.led.ckptDir)) (dirReplace 6) s = s := forEach_same _ fun i hi =>
    if_pos (by simpa using hckpt i (List.mem_range.mp hi))
  have hspillSame : forEach (List.range 32) (dirReplace 7) s = s := forEach_same _ fun i hi =>
    if_pos (by simpa using hspill i (List.mem_range.mp hi))
  rw [wornReplaced, hckptSame, hspillSame, ite_self]

theorem ckptAppend_queued (rs : List JRec) (s : State) : Queued s (ckptAppend rs s) :=
  Queued.trans (b := s.modLed fun l => { l with appends := l.appends ++ rs }) (.of_idle rfl) (ringNext_queued _)

theorem ckptAppend_appends (rs : List JRec) (s : State) :
    (ckptAppend rs s).led.appends = ringOrder (s.modLed fun l => { l with appends := l.appends ++ rs }) := ringNext_appends _

/-- R170: no record leaves the queue as it is put in order. -/
theorem mem_ringOrder {r : JRec} {s : State} : r ∈ ringOrder s ↔ r ∈ s.led.appends := by
  unfold ringOrder
  split
  · rfl
  · simp only [List.mem_append, List.mem_filter]
    cases ckptRec r <;> simp

theorem mem_ckptAppend {r : JRec} {rs : List JRec} (h : r ∈ rs) (s : State) : r ∈ (ckptAppend rs s).led.appends := by
  rw [ckptAppend_appends, mem_ringOrder]
  exact List.mem_append_right _ h

/-- R172, R175: what a trigger does that begins a checkpoint. -/
theorem ckptTrigger_effect {s : State} (h : ckptMay s) (hidle : s.led.ckptActive = false) :
    Queued (ckptBegun s) (ckptTrigger s) ∧ jrec 0x09 s.led.ckptNext.toNat 0 0 0 0 ∈ (ckptTrigger s).led.appends ∧
    ((∀ i, i < runLen s.led.ckptDir → dirWorn s (runAt s.led.ckptDir i) = false) →
      (∀ i, i < 32 → dirWorn s (runAt s.led.spillDir i) = false) →
      (ckptTrigger s).led.appends = ringOrder (s.modLed fun l => { l with appends := l.appends ++ [jrec 0x09 s.led.ckptNext.toNat 0 0 0 0] })) := by
  have hq := wornReplaced_queued (ckptBegun s)
  have hnext : (wornReplaced (ckptBegun s)).led.ckptNext - 1 = s.led.ckptNext := by
    rw [hq.ledger (·.ckptNext)]
    exact BitVec.add_sub_cancel _ _
  rw [ckptTrigger_begins h hidle, hnext]
  refine ⟨hq.trans (ckptAppend_queued _ _), mem_ckptAppend (List.mem_singleton.mpr rfl) _, fun hckpt hspill => ?_⟩
  rw [ckptAppend_appends, wornReplaced_none (s := ckptBegun s) hckpt hspill]
  rfl

theorem checkpointTimer_due {s : State} (hrec : s.led.recovered = true) (hdue : 600000000000 + s.led.ckptBegan ≤ s.clock) :
    exec .checkpointTimer s = .next (ckptTrigger s) :=
  congrArg Host.Outcome.next (if_pos (by simp [hrec, hdue]))

theorem checkpointTimer_early {s : State} (h : s.led.recovered = false ∨ s.clock < 600000000000 + s.led.ckptBegan) :
    exec .checkpointTimer s = .next s := by
  refine congrArg Host.Outcome.next (if_neg ?_)
  rcases h with h | h
  · simp [h]
  · simp [Nat.not_le.mpr h]

theorem checkpointRingThreshold_due {s : State} (hdue : 49152 ≤ s.led.ring.length) :
    exec .checkpointRingThreshold s = .next (ckptTrigger s) := congrArg Host.Outcome.next (if_pos hdue)

theorem checkpointRingThreshold_early {s : State} (h : s.led.ring.length < 49152) : exec .checkpointRingThreshold s = .next s :=
  congrArg Host.Outcome.next (if_neg (Nat.not_le.mpr h))

/-! The writing of a copy. -/

theorem foldl_runLen (r : List (Nat × Nat)) (a : Nat) : r.foldl (fun n x => n + x.2) a = a + runLen r := by
  induction r generalizing a with
  | nil => rfl
  | cons x r ih =>
    show r.foldl (fun n x => n + x.2) (a + x.2) = a + r.foldl (fun n x => n + x.2) (0 + x.2)
    rw [ih, ih (0 + x.2)]
    omega

/-- A place below a directory's length names one of its folios. -/
theorem runHas_runAt (r : List (Nat × Nat)) (i : Nat) (hi : i < runLen r) : runHas r (runAt r i) = true := by
  induction r generalizing i with
  | nil => exact absurd hi (Nat.not_lt_zero _)
  | cons x r ih =>
    obtain ⟨b, n⟩ := x
    have hlen : runLen ((b, n) :: r) = n + runLen r := by
      rw [runLen, List.foldl_cons, foldl_runLen, Nat.zero_add]
    rw [runAt, runHas, List.any_cons, Bool.or_eq_true]
    split
    · left; simp; omega
    next hout => exact .inr (ih _ (by omega))

/-- A ledger without its wear table. -/
def Ledger.sansWear (l : Ledger) : Ledger := { l with wear := [] }

/-- t is s after wear was counted and reasons were raised (R158, R191). -/
def WearOnly (s t : State) : Prop := Ledgered s t ∧ t.led.sansWear = s.led.sansWear

theorem WearOnly.refl (s : State) : WearOnly s s := ⟨.refl s, rfl⟩

theorem WearOnly.trans {a b c : State} (h : WearOnly a b) (g : WearOnly b c) : WearOnly a c := ⟨h.1.trans g.1, g.2.trans h.2⟩

theorem Noted.wearOnly {s t : State} (h : Noted s t) : WearOnly s t := ⟨h.ledgered, by rw [h.led]⟩

/-- What wear leaves of the ledger. -/
theorem WearOnly.ledger {s t : State} (h : WearOnly s t) {α : Type} (look : Ledger → α)
    (hsans : ∀ l, look l.sansWear = look l := by exact fun _ => rfl) : look t.led = look s.led := by
  rw [← hsans t.led, h.2, hsans]

theorem WearOnly.kindOf {s t : State} (h : WearOnly s t) (m : Nat) : kindOf t m = Machine.kindOf s m :=
  h.ledger (fun l => Machine.kindOf (State.reset.modLed fun _ => l) m)

theorem setWear_wearOnly (m : Nat) (w : Wear) (s : State) : WearOnly s (setWear m w s) := ⟨.modLed _ _, rfl⟩

theorem wearNear_wearOnly (n : Nat) (s : State) : WearOnly s (wearNear n s) := by
  unfold wearNear
  split
  · exact (raise_noted _ _ _ _ _).wearOnly
  · exact .refl s

/-- R175: the wear of a checkpoint folio moves nothing by itself. -/
theorem wearTriggers_ckpt {m : Nat} {s : State} (hkind : kindOf s m = 6) : wearTriggers m s = s := by
  have hrev : (revOf s m).kind = 6 := hkind
  simp [wearTriggers, hrev]

theorem wearPrograms_ckpt {m : Nat} {s : State} (hkind : kindOf s m = 6) (n : Nat) : WearOnly s (wearPrograms m n s) := by
  unfold wearPrograms
  dsimp only
  split
  · exact .refl s
  · split
    · exact setWear_wearOnly _ _ _
    · have hwear (w : Wear) := (setWear_wearOnly m w s).trans (wearNear_wearOnly (wearMax s) _)
      rw [wearTriggers_ckpt (((hwear _).kindOf m).trans hkind)]
      exact hwear _

theorem kindOf_ckptDir {s : State} {m : Nat} (h : runHas s.led.ckptDir m = true) : kindOf s m = 6 := by
  rw [kindOf, revOf, if_pos h]

/-- R174: a checkpoint folio is blanked and written. -/
theorem folioWritten_wearOnly {m : Nat} {s : State} (hkind : kindOf s m = 6) (w : Wear) (n k : Nat) :
    WearOnly s (wearPrograms m k (wearPrograms m n (wearNear (wearMax s) (setWear m w s)))) := by
  have hblank := (setWear_wearOnly m w s).trans (wearNear_wearOnly (wearMax s) _)
  have hfirst := hblank.trans (wearPrograms_ckpt ((hblank.kindOf m).trans hkind) n)
  exact hfirst.trans (wearPrograms_ckpt ((hfirst.kindOf m).trans hkind) k)

/-- R158, R174: writing a copy counts wear, and no more. -/
theorem copyWear_wearOnly (b : Bool) (s : State) : WearOnly s (copyWear b s) := by
  refine forEach_within WearOnly.refl WearOnly.trans _ fun i hi t ht => folioWritten_wearOnly (kindOf_ckptDir ?_) _ _ _
  have hlow := List.mem_range.mp hi
  rw [ht.ledger (·.ckptDir)]
  exact runHas_runAt _ _ (by split <;> omega)

/-! The tree nodes go to media first (R280). -/

/-- What of the ledger neither wear nor a queued migration or record changes. -/
def Ledger.sansMoves (l : Ledger) : Ledger := { l.idle with wear := [], migs := [] }

/-- t's ledger is s's but for wear, queued migrations and queued records. -/
def MovesOnly (s t : State) : Prop := t.led.sansMoves = s.led.sansMoves

theorem Queued.movesOnly {s t : State} (h : Queued s t) : MovesOnly s t := h.ledger Ledger.sansMoves

theorem shelfMove_movesOnly (b : Bool) (m : Nat) (s : State) : MovesOnly s (shelfMove b m s) := by
  unfold shelfMove
  dsimp only
  split
  · rfl
  · split
    · split
      · exact (raise_noted _ _ _ _ _).queued.movesOnly
      · rfl
    · exact ((jAppend_queued _ _).jAppend _).movesOnly

theorem queueMig_movesOnly (f prio retire : Nat) (b : Bool) (s : State) : MovesOnly s (queueMig f prio retire b s) := by
  unfold queueMig
  split <;> rfl

theorem wearTriggers_movesOnly (m : Nat) (s : State) : MovesOnly s (wearTriggers m s) := by
  unfold wearTriggers
  dsimp only
  split
  · split
    · exact shelfMove_movesOnly _ _ _
    · split
      · exact shelfMove_movesOnly _ _ _
      · rfl
  · split
    · rfl
    · split
      · split
        · exact queueMig_movesOnly _ _ _ _ _
        · split
          · exact (jAppend_queued _ _).movesOnly
          · rfl
      · split
        · exact queueMig_movesOnly _ _ _ _ _
        · rfl

theorem WearOnly.movesOnly {s t : State} (h : WearOnly s t) : MovesOnly s t := h.ledger Ledger.sansMoves

theorem wearProgram_movesOnly (m : Nat) (s : State) : MovesOnly s (wearProgram m s) := by
  unfold wearProgram
  dsimp only
  split
  · rfl
  · split
    · rfl
    · exact (wearTriggers_movesOnly m _).trans ((setWear_wearOnly m _ s).trans (wearNear_wearOnly _ _)).movesOnly

theorem parentBump_led (level idx : Nat) (s : State) : (parentBump level idx s).led = s.led := by
  unfold parentBump
  split <;> rfl

theorem nodeWrite_movesOnly (level n : Nat) (s : State) : MovesOnly s (nodeWrite level n s) :=
  (wearProgram_movesOnly _ (parentBump level n s)).trans (congrArg Ledger.sansMoves (parentBump_led level n s))

theorem treeFlush_movesOnly (s : State) : MovesOnly s (treeFlush s) :=
  forEach_keeps (fun s => s.led.sansMoves) _
    (fun level s => forEach_keeps (fun s => s.led.sansMoves) _ (fun n s => nodeWrite_movesOnly level n s) s) s

/-- What the writing of the tree nodes leaves of the ledger. -/
theorem MovesOnly.ledger {s t : State} (h : MovesOnly s t) {α : Type} (look : Ledger → α)
    (hsans : ∀ l, look l.sansMoves = look l := by exact fun _ => rfl) : look t.led = look s.led := by
  rw [← hsans t.led, h, hsans]

/-! CHECKPOINT_DONE. -/

section

variable {s : State}

theorem checkpointDone_waits (h : s.led.ckptActive = false ∨ s.led.ckptPhase ≠ .body ∨ s.sup.tripped = true ∨ dirPending s = true) :
    exec .checkpointDone s = .next s :=
  if_pos (by simpa [or_assoc] using h)

/-- R174: the body is to be written, and nothing keeps it from that. -/
def copyDue (s : State) : Prop :=
  s.led.ckptActive = true ∧ s.led.ckptPhase = .body ∧ s.sup.tripped = false ∧ dirPending s = false

theorem copyDue.passes (h : copyDue s) :
    ¬ (!s.led.ckptActive || s.led.ckptPhase != .body || s.sup.tripped || dirPending s) = true := by
  obtain ⟨hact, hphase, htrip, hdir⟩ := h
  rw [hact, hphase, htrip, hdir]
  decide

/-- R191: with a failed channel the checkpoint ends (log entry 94). -/
theorem checkpointDone_fails (h : copyDue s) (hfail : ∃ c ∈ popChans s, (chan s c).state = .failed) :
    ∃ t, exec .checkpointDone s = .next t ∧ Pends 5 0 0x05 t ∧
      Noted (s.modLed fun l => { l with ckptActive := false, ckptQueued := false }) t :=
  ⟨_, (if_neg h.passes).trans (if_pos (by simpa using hfail)), raise_pends_low _ _ _ _ _ (by decide) (by decide) (by decide),
    raise_noted _ _ _ _ _⟩

/-- R174: copy A with the tables as they stand in u. -/
def copyAWritten (sq : BitVec 32) (u : State) : State :=
  let b := (u.led.ring.filter fun r => r.type == 0x09 && r.a == sq.toNat).getLast?
  u.modLed fun l => { l with copyA := { seq := sq, begin_ := b.elim 0 (·.seq), body := bodyNow u } }

theorem exec_checkpointDone_copyA (h : copyDue s) (hgood : ∀ c ∈ popChans s, (chan s c).state ≠ .failed)
    (hfirst : s.led.copyA.seq ≠ s.led.ckptNext - 1) :
    exec .checkpointDone s = .next (copyWear false (copyAWritten (s.led.ckptNext - 1) (treeFlush s))) := by
  show execCheckpointDone s = _
  rw [execCheckpointDone, if_neg h.passes, if_neg (by simpa using hgood), if_pos (by simpa using hfirst)]
  rfl

theorem checkpointDone_copyA (h : copyDue s) (hgood : ∀ c ∈ popChans s, (chan s c).state ≠ .failed)
    (hfirst : s.led.copyA.seq ≠ s.led.ckptNext - 1) :
    ∃ t u, exec .checkpointDone s = .next t ∧ u = treeFlush s ∧
      t.led.copyA.seq = s.led.ckptNext - 1 ∧ t.led.copyA.body = bodyNow u ∧ t.led.copyB = s.led.copyB ∧ t.led.ckptPhase = .body ∧
      t.led.appends = u.led.appends ∧ t.led.entries = s.led.entries := by
  have hexec := exec_checkpointDone_copyA h hgood hfirst
  have hflush := treeFlush_movesOnly s
  generalize treeFlush s = u at hexec hflush
  have hwear := copyWear_wearOnly false (copyAWritten (s.led.ckptNext - 1) u)
  exact ⟨_, u, hexec, rfl, hwear.ledger (·.copyA.seq), hwear.ledger (·.copyA.body),
    (hwear.ledger (·.copyB)).trans (hflush.ledger (·.copyB)),
    (hwear.ledger (·.ckptPhase)).trans ((hflush.ledger (·.ckptPhase)).trans h.2.1), hwear.ledger (·.appends),
    (hwear.ledger (·.entries)).trans (hflush.ledger (·.entries))⟩

/-- R174: copy B is of copy A's body. -/
def copyBWritten (s : State) : State := s.modLed fun l => { l with copyB := l.copyA, ckptPhase := .end_ }

/-- R168: the CKPT-END records of a checkpoint. -/
def ckptEnd (s : State) (i : Nat) : JRec :=
  { jrec 0x0A (s.led.ckptNext - 1).toNat 0 0 0 0 with part := i, digest := bodyDigest s s.led.copyA.body }

theorem ckptEnd_copyBWritten (s : State) : ckptEnd (copyBWritten s) = ckptEnd s := rfl

theorem exec_checkpointDone_copyB (h : copyDue s) (hgood : ∀ c ∈ popChans s, (chan s c).state ≠ .failed)
    (hsecond : s.led.copyA.seq = s.led.ckptNext - 1) :
    exec .checkpointDone s = .next (ckptAppend ([0, 1, 2].map (ckptEnd s)) (bump 457 1 (copyWear true (copyBWritten s)))) := by
  show execCheckpointDone s = _
  rw [← ckptEnd_copyBWritten, execCheckpointDone, if_neg h.passes, if_neg (by simpa using hgood), if_neg (by simpa using hsecond)]
  rfl

theorem checkpointDone_copyB (h : copyDue s) (hgood : ∀ c ∈ popChans s, (chan s c).state ≠ .failed)
    (hsecond : s.led.copyA.seq = s.led.ckptNext - 1) :
    ∃ t, exec .checkpointDone s = .next t ∧ t.led.ckptPhase = .end_ ∧
      t.led.copyB = s.led.copyA ∧ t.led.copyA = s.led.copyA ∧ t.led.entries = s.led.entries ∧ t.med = s.med ∧
      ctr t 457 = ctr s 457 + 1 ∧ ∀ i ∈ [0, 1, 2], ckptEnd s i ∈ t.led.appends := by
  have hwear := copyWear_wearOnly true (copyBWritten s)
  have hbump := (Noted.refl (copyWear true (copyBWritten s))).bump 457 1
  have hq := ckptAppend_queued ([0, 1, 2].map (ckptEnd s)) (bump 457 1 (copyWear true (copyBWritten s)))
  have hled {α : Type} (look : Ledger → α) (hidle : ∀ l, look l.idle = look l := by exact fun _ => rfl)
      (hsans : ∀ l, look l.sansWear = look l := by exact fun _ => rfl) :
      look (ckptAppend ([0, 1, 2].map (ckptEnd s)) (bump 457 1 (copyWear true (copyBWritten s)))).led = look (copyBWritten s).led := by
    rw [hq.ledger look hidle, bump_led, hwear.ledger look hsans]
  refine ⟨_, exec_checkpointDone_copyB h hgood hsecond, hled (·.ckptPhase), hled (·.copyB), hled (·.copyA), hled (·.entries), ?_, ?_, ?_⟩
  · exact hq.med.trans ((bump_med _ _ _).trans hwear.1.med)
  · refine (hq.ctr 457 rfl).trans ((hbump.ctr 457 rfl).trans ?_)
    rw [State.counted_ctr_same, hwear.1.ctr 457 rfl]
    rfl
  · exact fun i hi => mem_ckptAppend (List.mem_map_of_mem hi) _

end

/-- Settles O36: each record's effect and each step of a checkpoint is an update of the ledger, reasons and queued records apart;
checkpoint folios are of KIND 6, so that their wear moves nothing. -/
theorem journalAndCheckpoints : Obligations.JournalAndCheckpoints := by
  unfold Obligations.JournalAndCheckpoints
  refine ⟨fun _ => journalAppendComplete_idle, ?append,
    fun s => ⟨checkpointTimer_early, checkpointRingThreshold_early, ?running, ?begins⟩, fun s => ⟨checkpointDone_waits, ?copies⟩⟩
  case append =>
    rintro r rest s happ hrun hwait u rfl
    exact ⟨append_alloc happ hrun hwait, append_attr happ hrun hwait, append_begin happ hrun hwait, append_end happ hrun hwait,
      append_last happ hrun hwait⟩
  case running =>
    intro htrip hlost hrec hact
    rw [← ckptTrigger_running ⟨htrip, hlost, hrec⟩ hact]
    exact ⟨checkpointTimer_due hrec, checkpointRingThreshold_due⟩
  case begins =>
    intro htrip hlost hrec hidle c hc
    obtain ⟨hq, hmem, happends⟩ := ckptTrigger_effect ⟨htrip, hlost, hrec⟩ hidle
    have hexec : exec c s = .next (ckptTrigger s) := by
      rcases hc with ⟨rfl, hdue⟩ | ⟨rfl, hdue⟩
      · exact checkpointTimer_due hrec hdue
      · exact checkpointRingThreshold_due hdue
    exact ⟨_, hexec, hq.ledger (·.ckptActive), hq.ledger (·.ckptPhase), hq.ledger (·.ckptBegan), hq.ledger (·.ckptNext), hmem,
      fun hckpt hspill => ⟨happends hckpt hspill, hq⟩⟩
  case copies =>
    intro hact hphase htrip hdir
    have hdue : copyDue s := ⟨hact, hphase, htrip, hdir⟩
    exact ⟨checkpointDone_fails hdue, fun hgood => ⟨checkpointDone_copyA hdue hgood, checkpointDone_copyB hdue hgood⟩⟩

end Sys2Proof.Machine
end

section
/-! A migration's read on a channel where the reconstruction of another folio's line waits (R96, R99, R157, R181). -/

namespace Sys2Proof.Machine

open Sys2Proof

/-- An assay's read of line 1 of media folio 9001, whose die has failed: its line comes from a reconstruction run. -/
def assayRead : MOp :=
  { (default : MOp) with id := 3, ch := 0, kind := .maint, purpose := .assay 9001 1 false, m := 9001, ready := true, issued := true,
                         bullion := true }

/-- The migration of folio 5, whose first pass has been written but for line 0, which was drained since. -/
def passedMig : Mig :=
  { folio := 5, prio := 4, retire := 0, bullion := true, src := 9000, dst := 300, phase := .copying, pass := 0, marked := [0], todo := [],
    own := 0 }

/-- Folio 5 migrates from media folio 9000, and media folio 9001, which folio 0 has left, is to be blanked. Die 0 of channel 0 has
failed, and the run for the assay's read of 9001 is queued there, its stripe closed again. -/
def queuedRunState : State :=
  let s := State.reset.modLed fun l =>
    { l with entries := [(5, { entry0 with media := 9000, bullion := true, state := .live, gen := 3, stamp := 1 })],
             rev := [(9000, { kind := 1, owner := 5 }), (9001, { kind := 4, owner := 0 })],
             migs := [passedMig], blanking := [(9001, 0)] }
  let s := s.modInteg fun i => { i with failed := [(0, 1)] }
  modChan 0 (fun c => { c with state := .active, reconQ := [{ op := 3, bypass := true, left := 8 }] })
    (s.modMed fun d => { d with ops := [assayRead], nextOp := 4 })

/-- The migration's read of line 0 has the queued run begin, whose reads are counted for folio 0, the owner of a folio to be blanked. -/
theorem queuedRunState_counts :
    (stOf (exec (.migrationPassDone 5) queuedRunState) queuedRunState).led.entries.map (·.1) = [0, 5] := by decide +kernel

/-- Refutes O38: its third clause has the ledger list the same folios after a pass, and a read of the migration may have a run begin
that waits for another folio's line, whose reads are counted in an entry that the ledger did not list. It fails for want of the
hypothesis that no run waits on a channel of the lines that are read. -/
theorem not_migrationSteps : ¬ Obligations.MigrationSteps := by
  unfold Obligations.MigrationSteps
  rintro ⟨-, -, hpass, -, -⟩
  obtain ⟨hends, -⟩ := (hpass 5 queuedRunState passedMig rfl [0] rfl).2 rfl rfl rfl rfl
  obtain ⟨t, hexec, -, -, -, hkeys, -⟩ := hends (.inl rfl)
  have hcount := queuedRunState_counts
  rw [hexec] at hcount
  rw [show stOf (.next t) queuedRunState = t from rfl, hkeys] at hcount
  exact absurd hcount (by decide)

end Sys2Proof.Machine
end

section
/-! The end of a drain while the journal append of an instant zero is in progress (R169, R184, R185, R197, R210). -/

namespace Sys2Proof.Machine

open Sys2Proof

/-- An instant zero's REMAP of folio 5, to no media folio. -/
def zeroRemap : JRec := jrec 0x02 5 9000 noFolio 4 0

/-- Read-only folio 5 has an overdraft line, its instant zero's record is being appended, and nothing is left to drain of a
power-fail drain. -/
def zeroAtDrainEnd : State :=
  let s := State.reset.modLed fun l =>
    { l with entries := [(5, { entry0 with media := 9000, state := .readOnly, gen := 3, stamp := 1 })],
             rev := [(9000, { kind := 1, owner := 5 })], overdraft := [(5 * 8192, default)],
             appends := [zeroRemap], appending := true }
  (s.modSup fun u => { u with state := .on }).modPur fun u => { u with drain := .powerFail }

/-- The drain may end, and no media operation is in flight. -/
theorem zeroAtDrainEnd_idle :
    drainIdle zeroAtDrainEnd = true ∧ zeroAtDrainEnd.sup.state = .on ∧ zeroAtDrainEnd.med.ops = [] := by
  refine ⟨?_, ?_, ?_⟩ <;> decide +kernel

/-- POWER_FAIL_DRAIN_DONE lets the append complete, whose sweep drops the folio's lines from the overdraft and its spill. -/
theorem zeroAtDrainEnd_spill :
    (stOf (exec .powerFailDrainDone zeroAtDrainEnd) zeroAtDrainEnd).led.spill.map (·.1) = [] := by decide +kernel

/-- Refutes O56: Safety.drainEnded has every overdraft line spilled, and the append in progress, which a power-down lets complete, may
be an instant zero's, which drops the lines of its folio. It fails for want of the hypothesis that no append is in progress. -/
theorem not_powerDowns : ¬ Obligations.PowerDowns := by
  unfold Obligations.PowerDowns
  rintro ⟨-, -, -, -, hdrains, -⟩
  obtain ⟨hidle, hon, hops⟩ := zeroAtDrainEnd_idle
  obtain ⟨-, hdone, -⟩ := hdrains zeroAtDrainEnd
  obtain ⟨t, hexec, hended, -⟩ := hdone hidle hon
  obtain ⟨-, -, -, -, -, -, -, -, hspilled, -⟩ := hended
  obtain ⟨x, hx, -⟩ := hspilled hops (5 * 8192, default) (List.mem_singleton.mpr rfl)
  have hnone := zeroAtDrainEnd_spill
  rw [hexec] at hnone
  have hempty : t.led.spill = [] := List.map_eq_nil_iff.mp hnone
  rw [hempty] at hx
  exact absurd hx List.not_mem_nil

end Sys2Proof.Machine
end

section
/-! Hold-up and the dirty budget (R204-R206, R454), and the end of a strongbox clear (R213, R214). -/

namespace Sys2Proof.Machine

open Sys2Proof

/-! Hold-up. -/

/-- HOLDUP_OK has fallen. -/
def holdupFallen (s : State) : State := s.modPur fun u => { u with holdupOk := false, holdupReady := false }

/-- R206: lines are acknowledged late, and those acknowledged early drain in express order. -/
def lateInForce (s : State) : State :=
  rbit (s.modPur fun u => { u with lateForced := true, exRing := u.exRing ++ u.wbRing, wbRing := [] }) 0x80100 17

theorem exec_holdupOkFall (s : State) :
    exec .holdupOkFall s =
      .next (if s.sup.state = .on ∧ holdupActs s = true then lateInForce (holdupFallen s) else holdupFallen s) := by
  show execHoldupOkFall s = _
  simp only [execHoldupOkFall, Bool.and_eq_true, beq_iff_eq]
  rfl

theorem exec_holdupOkRise (s : State) :
    exec .holdupOkRise s = .next (if s.pur.holdupOk then s else s.modPur fun u => { u with holdupOk := true, holdupSince := s.clock }) :=
  rfl

theorem exec_holdupReady (s : State) :
    exec .holdupReady s =
      .next (if s.pur.holdupOk = true ∧ 10000000 + s.pur.holdupSince ≤ s.clock ∧ s.sup.state = .on then
        s.modPur fun u => { u with holdupReady := true, lateForced := false } else s) := by
  show execHoldupReady s = _
  simp only [execHoldupReady, Bool.and_eq_true, beq_iff_eq, decide_eq_true_eq, and_assoc]

/-- A bit that is set in a stored register reads as 1. -/
theorem rget_rbit_getLsbD (s : State) (k i : Nat) (hi : i < 32) : (rget (rbit s k i) k).getLsbD i = true := by
  rw [rget_rbit_same, BitVec.getLsbD_or, BitVec.natCast_eq_ofNat, BitVec.getLsbD_ofNat, Nat.one_shiftLeft, Nat.testBit_two_pow_self]
  simp [hi]

theorem holdupOkFall_spec (s : State) :
    ∃ t, exec .holdupOkFall s = .next t ∧ t.pur.holdupOk = false ∧ t.pur.holdupReady = false ∧
      (s.sup.state ≠ .on ∨ holdupActs s = false → t = holdupFallen s) ∧
      (s.sup.state = .on → holdupActs s = true → t.pur.lateForced = true ∧ t.pur.exRing = s.pur.exRing ++ s.pur.wbRing ∧
        t.pur.wbRing = [] ∧ (rget t 0x80100).getLsbD 17 = true ∧ t.pur.slots = s.pur.slots ∧ t.pur.evb = s.pur.evb ∧
        t.led = s.led) := by
  rw [exec_holdupOkFall]
  by_cases h : s.sup.state = .on ∧ holdupActs s = true
  · rw [if_pos h]
    refine ⟨_, rfl, rfl, rfl, ?_, fun _ _ => ⟨rfl, rfl, rfl, rget_rbit_getLsbD _ _ _ (by decide), rfl, rfl, rfl⟩⟩
    rintro (hoff | hno)
    · exact absurd h.1 hoff
    · exact absurd h.2 (by simp [hno])
  · rw [if_neg h]
    exact ⟨_, rfl, rfl, rfl, fun _ => rfl, fun hon hacts => absurd ⟨hon, hacts⟩ h⟩

/-! The budget. -/

/-- The clamp of a budget reads the board, the straps and the strongbox's size. -/
theorem clampBudget_of_blocks {s t : State} (hboard : t.board = s.board) (hpur : t.pur = s.pur) (hsup : t.sup = s.sup) (u : Nat) :
    clampBudget t u = clampBudget s u := by
  show clampBudget { s with board := t.board, pur := t.pur, sup := t.sup } u = clampBudget s u
  rw [hboard, hpur, hsup]

theorem budgetStage_budget (u : Nat) (s : State) : (budgetStage u s).pur.budget = s.pur.budget := by
  simp only [budgetStage]; split <;> rfl

theorem budgetStage_staged (u : Nat) (s : State) :
    (budgetStage u s).pur.budgetStaged = some ((clampBudget s (u % 128)).1 * 262144) := by
  simp only [budgetStage]; split <;> rfl

theorem budgetStage_pb (u : Nat) (s : State) : (budgetStage u s).pb = s.pb := by
  simp only [budgetStage]; split <;> rfl

theorem budgetStage_rval (u : Nat) (s : State) {k : Nat} (hk : k ≠ 0x80100) : rval (budgetStage u s) k = rval s k := by
  simp only [budgetStage]
  split
  · rw [rval, rget_rbit_ne _ _ _ _ hk]; rfl
  · rfl

/-- A budget that was clamped sets the flag. -/
theorem budgetStage_flag {u : Nat} {s : State} (h : (clampBudget s (u % 128)).2 = true) :
    (rget (budgetStage u s) 0x80100).getLsbD 18 = true := by
  simp only [budgetStage, h, if_true]
  exact rget_rbit_getLsbD _ _ _ (by decide)

/-- TIL_BUDGET as written. -/
def budgetWritten (v : BitVec 32) (s : State) : State := rset s 0x80104 (writeMasked 0x7F 0 (rget s 0x80104) v)

/-- And its parameter's page write is queued. -/
def budgetQueued (v : BitVec 32) (s : State) : State :=
  paramQueue 0x18 (rval (budgetWritten v s) 0x80104) (budgetWritten v s)

theorem rowOf_tilBudget : rowOf 0x80104 = some (reg1 0x80104 0x7F 0 32) := by decide

theorem rwpWrite_tilBudget (v : BitVec 32) (s : State) :
    rwpWrite 8 v s = budgetStage (rval (budgetQueued v s) 0x80104) (budgetQueued v s) := by
  simp only [rwpWrite, show rwpOffs.getD 8 0 = 0x80104 from rfl, rowOf_tilBudget]
  rfl

theorem exec_tilBudgetWrite {h : Head} {v : BitVec 32} {s : State} (hfree : domFree s domPUR = true) :
    exec (.tilBudgetWrite h v) s = .next (budgetStage (rval (budgetQueued v s) 0x80104) (budgetQueued v s)) := by
  rw [← rwpWrite_tilBudget]
  exact congrArg Host.Outcome.next (accessOp_wr0 h 0x80104 v s (by decide) (by decide) hfree)

theorem budgetQueued_queued (v : BitVec 32) (s : State) : Queued (budgetWritten v s) (budgetQueued v s) := pageQueue_queued _ _ _ _ _

theorem clampBudget_budgetQueued (v : BitVec 32) (s : State) (u : Nat) : clampBudget (budgetQueued v s) u = clampBudget s u :=
  clampBudget_of_blocks (budgetQueued_queued v s).board (budgetQueued_queued v s).pur (budgetQueued_queued v s).sup u

theorem rval_budgetQueued (v : BitVec 32) (s : State) : rval (budgetQueued v s) 0x80104 = rval (budgetWritten v s) 0x80104 :=
  congrArg BitVec.toNat (rget_of_regs (pageQueue_regs _ _ _ _ _) _)

/-- R6: a write of a register of n RW bits leaves the written value in them. -/
theorem writeMasked_mod {n : Nat} (hn : n ≤ 32) (old v : BitVec 32) :
    (writeMasked (2 ^ n - 1) 0 old v).toNat % 2 ^ n = v.toNat % 2 ^ n := by
  refine Nat.eq_of_testBit_eq fun i => ?_
  simp only [Nat.testBit_mod_two_pow]
  by_cases hi : i < n
  · rw [BitVec.testBit_toNat, BitVec.testBit_toNat, writeMasked_low n old v i (hi.trans_le hn), if_pos hi]
  · simp [hi]

theorem rval_budgetWritten (v : BitVec 32) (s : State) : rval (budgetWritten v s) 0x80104 % 128 = v.toNat % 128 := by
  rw [rval, budgetWritten, rget_rset_same]
  exact writeMasked_mod (n := 7) (by decide) _ v

theorem tilBudgetWrite_spec {h : Head} {v : BitVec 32} {s : State} (hfree : domFree s domPUR = true) :
    ∃ t, exec (.tilBudgetWrite h v) s = .next t ∧
      t.pur.budget = s.pur.budget ∧ t.pur.budgetStaged = some ((clampBudget s (rval t 0x80104 % 128)).1 * 262144) ∧
      rval t 0x80104 % 128 = v.toNat % 128 ∧
      ((clampBudget s (v.toNat % 128)).2 = true → (rget t 0x80100).getLsbD 18 = true) ∧
      (∃ w ∈ t.pb.writing.toList ++ t.pb.writes, w.cls = 6 ∧ w.addr = 8 * 0x18 ∧ le w.data 0 8 % 128 = v.toNat % 128) := by
  have hval := rval_budgetWritten v s
  have hmem := mem_pageQueue 6 (paramAddr 0x18) (toLE 8 (rval (budgetWritten v s) 0x80104)) 0 (budgetWritten v s)
  refine ⟨_, exec_tilBudgetWrite hfree, ?_, ?_, ?_, fun hclamp => ?_, ⟨_, by rw [budgetStage_pb]; exact hmem, rfl, rfl, ?_⟩⟩
  · rw [budgetStage_budget, (budgetQueued_queued v s).pur]; rfl
  · rw [budgetStage_staged, budgetStage_rval _ _ (by decide), clampBudget_budgetQueued]
  · rw [budgetStage_rval _ _ (by decide), rval_budgetQueued, hval]
  · refine budgetStage_flag ?_
    rw [rval_budgetQueued, hval, clampBudget_budgetQueued, hclamp]
  · have hlt : rval (budgetWritten v s) 0x80104 < 2 ^ 32 := BitVec.isLt _
    have hwide : (2 : Nat) ^ 32 ≤ 256 ^ 8 := by decide
    rw [le_toLE, Nat.mod_eq_of_lt (hlt.trans_le hwide), hval]

/-- R65: the metered mode is all of the purse that its update may change. -/
theorem meterUpdate_metered (s : State) :
    (meterUpdate s).led = s.led ∧ ∃ m, (meterUpdate s).pur = { s.pur with metered := m } := by
  simp only [meterUpdate]
  split
  · exact ⟨bump_led _ _ _, true, bump_pur _ _ _⟩
  · split
    · exact ⟨rfl, false, rfl⟩
    · exact ⟨rfl, s.pur.metered, rfl⟩

theorem budgetApply_waits {s : State} (h : s.pur.budgetStaged = none ∨ mintNow s < s.pur.budgetAt) :
    exec .budgetApply s = .next s := by
  show execBudgetApply s = _
  unfold execBudgetApply
  split
  next b hb =>
    rcases h with h | h
    · rw [h] at hb; cases hb
    · rw [if_neg (Nat.not_le.mpr h)]
  next => rfl

theorem budgetApply_due {s : State} {n : Nat} (hstaged : s.pur.budgetStaged = some n) (hdue : s.pur.budgetAt ≤ mintNow s) :
    exec .budgetApply s = .next (meterUpdate (s.modPur fun u => { u with budget := n, budgetStaged := none })) := by
  show execBudgetApply s = _
  simp only [execBudgetApply, hstaged, if_pos hdue]

theorem budgetApply_spec {s : State} {n : Nat} (hstaged : s.pur.budgetStaged = some n) (hdue : s.pur.budgetAt ≤ mintNow s) :
    ∃ t, exec .budgetApply s = .next t ∧ t.pur.budget = n ∧ t.pur.budgetStaged = none ∧
      (s.pur.waitQ = [] → t.pur.slots = s.pur.slots ∧ t.led = s.led) := by
  obtain ⟨hled, m, hpur⟩ := meterUpdate_metered (s.modPur fun u => { u with budget := n, budgetStaged := none })
  exact ⟨_, budgetApply_due hstaged hdue, by rw [hpur]; rfl, by rw [hpur]; rfl, fun _ => ⟨by rw [hpur]; rfl, hled⟩⟩

/-! The strongbox. -/

/-- The size that the strongbox's request acts as. -/
def sboxAsked (s : State) : Nat := sboxClamp s (rval s 0x80010 % 64)

theorem exec_sboxClearDone (s : State) :
    exec .sboxClearDone s =
      if s.pur.sboxClearing = false then .next s
      else if sboxAsked s = s.pur.sboxAct then .next (s.modPur fun u => { u with sboxClearing := false })
      else if occupancy s ≠ s.led.overdraft.length then .next s
      else .next (s.modPur fun u => { u with sboxClearing := false, sboxAct := sboxAsked s, slots := [], wbRing := [], exRing := [],
                                             flushing := false }) := by
  show execSboxClearDone s = _
  simp only [execSboxClearDone, sboxAsked, Bool.not_eq_true', beq_iff_eq, bne_iff_ne]
  rfl

theorem sboxClearDone_spec {s : State} (h : s.pur.sboxClearing = true) : ∃ g, g = sboxClamp s (rval s 0x80010 % 64) ∧
    (g = s.pur.sboxAct → exec .sboxClearDone s = .next (s.modPur fun u => { u with sboxClearing := false })) ∧
    (g ≠ s.pur.sboxAct → occupancy s ≠ s.led.overdraft.length → exec .sboxClearDone s = .next s) ∧
    (g ≠ s.pur.sboxAct → occupancy s = s.led.overdraft.length → ∃ t, exec .sboxClearDone s = .next t ∧ t.pur.sboxAct = g ∧
      t.pur.sboxClearing = false ∧ t.pur.slots = [] ∧ t.pur.wbRing = [] ∧ t.pur.exRing = [] ∧ t.led = s.led ∧
      t.pur.sbox = s.pur.sbox) := by
  rw [exec_sboxClearDone, if_neg (by simp [h])]
  refine ⟨sboxAsked s, rfl, fun hsame => if_pos hsame, fun hnew hheld => ?_, fun hnew hempty => ?_⟩
  · rw [if_neg hnew, if_pos hheld]
  · rw [if_neg hnew, if_neg (not_not.mpr hempty)]
    exact ⟨_, rfl, rfl, rfl, rfl, rfl, rfl, rfl, rfl⟩

end Sys2Proof.Machine
end

section
/-! RECALL (R452, R453). -/

namespace Sys2Proof.Machine

open Sys2Proof

/-- What one step of a fold sets and every step keeps, holds after the fold. -/
theorem forEach_sets {α : Type} {P : State → Prop} {f : α → State → State} {xs : List α} {x : α} (hx : x ∈ xs)
    (hset : ∀ s, P (f x s)) (hkeep : ∀ y s, P s → P (f y s)) (s : State) : P (forEach xs f s) := by
  induction xs generalizing s with
  | nil => exact absurd hx List.not_mem_nil
  | cons y ys ih =>
    rcases List.mem_cons.mp hx with rfl | hmem
    · exact forEach_within (R := fun a b => P a → P b) (fun _ => id) (fun h g => g ∘ h) ys
        (fun z _ t _ => hkeep z t) (hset s)
    · exact ih hmem (f y s)

/-- VDD_AON, the supervisor's state, and whether recall runs. -/
def recallView (s : State) : Bool × SupState × Bool := (s.sup.aonOn, s.sup.state, s.pb.recalling)

/-- t holds no parameter that s does not, and every fault of s. -/
def Losing (s t : State) : Prop := t.pb.params ⊆ s.pb.params ∧ s.pb.faultIds ⊆ t.pb.faultIds

theorem Losing.trans {r s t : State} (h : Losing r s) (g : Losing s t) : Losing r t :=
  ⟨List.Subset.trans g.1 h.1, List.Subset.trans h.2 g.2⟩

/-- What queueing leaves of the passbook. -/
theorem Queued.passbook {α : Type} {s t : State} (h : Queued s t) (look : Passbook → α)
    (hidle : ∀ p, look p.idle = look p := by exact fun _ => rfl) : look t.pb = look s.pb := by
  rw [← hidle, h.pb, hidle]

theorem Queued.losing {s t : State} (h : Queued s t) : Losing s t := by
  refine ⟨?_, ?_⟩
  · rw [h.passbook (·.params)]; exact List.Subset.refl _
  · rw [h.passbook (·.faultIds)]; exact List.Subset.refl _

/-- A parameter is lost: the passbook's copy is gone, and its fault is noted. -/
def paramLost (id : Nat) (s : State) : Prop := (∀ e ∈ s.pb.params, e.1 ≠ id) ∧ id ∈ s.pb.faultIds

theorem Losing.paramLost {id : Nat} {s t : State} (h : Losing s t) (hlost : paramLost id s) : Machine.paramLost id t :=
  ⟨fun e he => hlost.1 e (h.1 he), h.2 hlost.2⟩

theorem Queued.recallView {s t : State} (h : Queued s t) : recallView t = Machine.recallView s := by
  simp only [Machine.recallView, h.sup, h.passbook (·.recalling)]

/-! One word that recall could not correct. -/

theorem recallFault_recallView (addr : Nat) (s : State) : recallView (recallFault addr s) = recallView s := by
  have hraise := (raise_noted 8 3 0x02 (det3 addr 0) s).queued.recallView
  simp only [recallFault]
  generalize raise 8 3 0x02 (det3 addr 0) s = u at hraise ⊢
  rw [← hraise]
  repeat' split
  all_goals rfl

theorem recallFault_pends (addr : Nat) (s : State) : Pends 8 3 0x02 (recallFault addr s) := by
  have hraise := raise_pends_low 8 3 0x02 (det3 addr 0) s (by decide) (by decide) (by decide)
  simp only [recallFault]
  generalize raise 8 3 0x02 (det3 addr 0) s = u at hraise ⊢
  repeat' split
  all_goals exact hraise.of_regs rfl

theorem recallFault_losing (addr : Nat) (s : State) : Losing s (recallFault addr s) := by
  have hraise := (raise_noted 8 3 0x02 (det3 addr 0) s).queued.losing
  simp only [recallFault]
  generalize raise 8 3 0x02 (det3 addr 0) s = u at hraise ⊢
  repeat' split
  · exact hraise.trans ⟨fun _ he => (List.mem_filter.mp he).1, List.subset_append_left _ _⟩
  all_goals exact hraise.trans ⟨List.Subset.refl _, List.Subset.refl _⟩

theorem recallFault_paramLost {addr : Nat} (h : addr < 0x010000) (s : State) : paramLost (addr / 8) (recallFault addr s) := by
  have hid : addr / 4 * 4 / 8 = addr / 8 := by omega
  simp only [recallFault, hid]
  rw [if_pos (by omega)]
  refine ⟨fun e he => ?_, List.mem_append_right _ (List.mem_singleton.mpr rfl)⟩
  simpa using (List.mem_filter.mp he).2

/-! The run of recall. -/

/-- VDD_AON is good, and the supervisor recalls. -/
def recallEntered (s : State) : State :=
  (s.modSup fun u => { u with aonOn := true, aonAt := s.clock, state := .recalling, scanAt := s.clock, minAt := s.clock,
                              histAt := s.clock, rtcCrystal := true }).modPb fun p =>
    { p with recalling := true, faultIds := [], tallyBad := [] }

/-- And the summary is loaded. -/
def recallBegun (s : State) : State := summaryLoad (recallEntered s)

/-- The words that recall could not correct. -/
def recallLost (faults : List RecallFault) (s : State) : State :=
  forEach (faults.filter (·.fatal)) (fun f s => recallFault f.addr s) s

/-- The words that recall corrected are rewritten. -/
def recallFixed (fixed : List RecallFault) (s : State) : State := forEach fixed (fun f s => recallRewrite f.addr s) s

theorem exec_recallRun {s : State} (faults : List RecallFault) (h : s.sup.aonOn = false) :
    exec (.recallRun faults) s =
      .next (if (faults.filter fun f => !f.fatal).isEmpty then
          recallFixed (faults.filter fun f => !f.fatal) (recallLost faults (recallBegun s))
        else raise 8 3 0x01 (det3 (faults.filter fun f => !f.fatal).length 0)
          (recallFixed (faults.filter fun f => !f.fatal) (recallLost faults (recallBegun s)))) := by
  show execRecallRun faults s = _
  rw [execRecallRun, if_neg (by simp [h])]
  rfl

theorem summaryLoad_blocks (s : State) : (summaryLoad s).pb = s.pb ∧ (summaryLoad s).sup = s.sup := by
  simp only [summaryLoad]; split <;> exact ⟨rfl, rfl⟩

theorem recallBegun_recallView (s : State) : recallView (recallBegun s) = (true, .recalling, true) := by
  obtain ⟨hpb, hsup⟩ := summaryLoad_blocks (recallEntered s)
  simp only [recallView, recallBegun, hpb, hsup]
  rfl

theorem recallBegun_passbook (s : State) : (recallBegun s).pb.params = s.pb.params ∧ (recallBegun s).pb.writes = s.pb.writes := by
  rw [recallBegun, (summaryLoad_blocks (recallEntered s)).1]
  exact ⟨rfl, rfl⟩

theorem recallLost_recallView (faults : List RecallFault) (s : State) : recallView (recallLost faults s) = recallView s :=
  forEach_keeps recallView _ (fun (f : RecallFault) => recallFault_recallView f.addr) s

theorem recallFixed_queued (fixed : List RecallFault) (s : State) : Queued s (recallFixed fixed s) :=
  forEach_related Queued.refl Queued.trans fixed (fun _ _ => pageQueue_queued _ _ _ _ _) s

theorem recallFixed_regs (fixed : List RecallFault) (s : State) : (recallFixed fixed s).regs = s.regs :=
  forEach_keeps (·.regs) fixed (fun _ _ => pageQueue_regs _ _ _ _ _) s

theorem recallLost_paramLost {faults : List RecallFault} {f : RecallFault} (hf : f ∈ faults) (hfatal : f.fatal = true)
    (haddr : f.addr < 0x010000) (s : State) : paramLost (f.addr / 8) (recallLost faults s) :=
  forEach_sets (List.mem_filter.mpr ⟨hf, hfatal⟩) (fun s => recallFault_paramLost haddr s)
    (fun g s => (recallFault_losing g.addr s).paramLost) s

theorem recallLost_pends {faults : List RecallFault} {f : RecallFault} (hf : f ∈ faults) (hfatal : f.fatal = true) (s : State) :
    Pends 8 3 0x02 (recallLost faults s) :=
  forEach_sets (List.mem_filter.mpr ⟨hf, hfatal⟩) (fun s => recallFault_pends f.addr s) (fun g s _ => recallFault_pends g.addr s) s

theorem recallRun_spec (fs : List RecallFault) {s : State} (h : s.sup.aonOn = false) :
    ∃ t, exec (.recallRun fs) s = .next t ∧ t.sup.aonOn = true ∧ t.sup.state = .recalling ∧ t.pb.recalling = true ∧
      (fs = [] → t.pb.params = s.pb.params ∧ t.pb.writes = s.pb.writes) ∧
      (∀ f ∈ fs, f.fatal = true → f.addr < 0x010000 → (∀ e ∈ t.pb.params, e.1 ≠ f.addr / 8) ∧ f.addr / 8 ∈ t.pb.faultIds) ∧
      ((∃ f ∈ fs, f.fatal = false) → Pends 8 3 0x01 t) ∧
      (fs ≠ [] → (∀ f ∈ fs, f.fatal = true) → Pends 8 3 0x02 t) := by
  generalize hfixed : (fs.filter fun f => !f.fatal) = fixed
  have hexec := exec_recallRun fs h
  rw [hfixed] at hexec
  have hq := recallFixed_queued fixed (recallLost fs (recallBegun s))
  have hregs := recallFixed_regs fixed (recallLost fs (recallBegun s))
  have hview := (recallLost_recallView fs (recallBegun s)).trans (recallBegun_recallView s)
  have hend : Queued (recallLost fs (recallBegun s))
      (if fixed.isEmpty then recallFixed fixed (recallLost fs (recallBegun s))
        else raise 8 3 0x01 (det3 fixed.length 0) (recallFixed fixed (recallLost fs (recallBegun s)))) := by
    split
    · exact hq
    · exact hq.raise _ _ _ _
  have htview := hend.recallView.trans hview
  refine ⟨_, hexec, congrArg (·.1) htview, congrArg (·.2.1) htview, congrArg (·.2.2) htview, ?_, ?_, ?_, ?_⟩
  · rintro rfl
    obtain rfl : [] = fixed := hfixed
    exact recallBegun_passbook s
  · intro f hf hfatal haddr
    exact hend.losing.paramLost (recallLost_paramLost hf hfatal haddr _)
  · rintro ⟨f, hf, hno⟩
    have hmem : f ∈ fixed := by rw [← hfixed]; exact List.mem_filter.mpr ⟨hf, by simp [hno]⟩
    rw [if_neg (by simpa using List.ne_nil_of_mem hmem)]
    exact raise_pends_low _ _ _ _ _ (by decide) (by decide) (by decide)
  · intro hne hall
    obtain ⟨f, hf⟩ := List.exists_mem_of_ne_nil fs hne
    have hnil : fixed = [] := by rw [← hfixed]; exact List.filter_eq_nil_iff.mpr fun g hg => by simp [hall g hg]
    rw [if_pos (by simp [hnil])]
    exact (recallLost_pends hf (hall f hf) _).of_regs hregs

end Sys2Proof.Machine
end

section
/-! The power-on that the end of recall begins (R351, R462, R472, R473, R533). -/

namespace Sys2Proof.Machine

open Sys2Proof

/-- The supervisor, and whether recall runs. -/
def supRecall (s : State) : Super × Bool := (s.sup, s.pb.recalling)

theorem Queued.supRecall {s t : State} (h : Queued s t) : supRecall t = Machine.supRecall s :=
  Prod.ext h.sup (h.passbook (·.recalling))

/-! The core starts. -/

theorem tallyAdvance_supRecall (c u : Nat) (s : State) : supRecall (tallyAdvance c u s) = supRecall s := by
  simp only [tallyAdvance]
  repeat' split
  · exact (raise_noted _ _ _ _ _).queued.supRecall
  · rfl
  · exact (pageQueue_queued _ _ _ _ _).supRecall

theorem runMarkWrite_supRecall (s : State) : supRecall (runMarkWrite s) = supRecall s := by
  have hrec := (recordQueue_queued recDrain (s.modPur fun u =>
    { u with pfLast := pfLastOf s, pfRecord := none, runMark := true })).supRecall
  simp only [runMarkWrite]
  split
  · exact hrec
  · exact (tallyAdvance_supRecall _ _ _).trans hrec

theorem rwpReload_supRecall (s : State) : supRecall (rwpReload s) = supRecall s :=
  forEach_keeps supRecall _ (fun _ _ => by split <;> rfl) s

theorem fwAtResetRun_supRecall (s : State) : supRecall (fwAtResetRun s) = supRecall s := by
  simp only [fwAtResetRun]; split <;> rfl

/-- R351: the start of the core is not the supervisor's, nor the recall's. -/
theorem corePowerUp_supRecall (s : State) : supRecall (corePowerUp s) = supRecall s := by
  unfold corePowerUp
  extract_lets islands timed late
  have hlate : supRecall late = supRecall s := by
    have hreload := rwpReload_supRecall (s.modIsl fun i => { i with on := BitVec.allOnes 18 })
    simp only [late, timed, islands]
    generalize rwpReload _ = u at hreload ⊢
    exact hreload
  clear_value late
  generalize clampBudget late _ = clamp
  obtain ⟨b, above⟩ := clamp
  dsimp -zeta only
  extract_lets clamped budgeted flagged g cleared running paired counted
  have hflagged : supRecall flagged = supRecall s := by
    simp only [flagged, budgeted]
    split <;> exact hlate
  clear_value flagged g
  have hcleared : supRecall cleared = supRecall s := hflagged
  clear_value cleared
  have hrunning : supRecall running = supRecall s := hcleared
  clear_value running
  have hcounted : supRecall counted = supRecall s := hrunning
  clear_value counted
  rw [fwAtResetRun_supRecall, (raise_noted _ _ _ _ _).queued.supRecall, runMarkWrite_supRecall]
  exact hcounted

/-! The power-on. -/

/-- R462: a supervisor in UP or ON. -/
def poweredOn (s : State) : Prop := s.sup.state = .up ∨ s.sup.state = .on

theorem onEnter_spec (s : State) : (onEnter s).sup.state = .on ∧ (onEnter s).pb.recalling = s.pb.recalling := by
  have hcore := corePowerUp_supRecall (s.modSup fun u => { u with state := .on, onAt := s.clock, seriesOpen := false, pllLocked := false })
  simp only [onEnter, raise_sup, raise_pb]
  generalize corePowerUp _ = u at hcore ⊢
  exact ⟨congrArg (·.1.state) hcore, congrArg (·.2) hcore⟩

/-- The supervisor's state, and whether recall runs. -/
def stateRecall (s : State) : SupState × Bool := (s.sup.state, s.pb.recalling)

theorem railRise_stateRecall (i : Nat) (s : State) : stateRecall (railRise i s) = stateRecall s := by
  simp only [railRise]
  repeat' split
  all_goals rfl

theorem upAdvance_spec {s : State} (h : s.sup.state = .up) :
    poweredOn (upAdvance s) ∧ (upAdvance s).pb.recalling = s.pb.recalling := by
  have hrise := forEach_keeps stateRecall (railsUsed s) railRise_stateRecall s
  simp only [upAdvance, if_neg (show ¬ (s.sup.state != .up) = true by simp [h])]
  generalize forEach (railsUsed s) railRise s = u at hrise ⊢
  have hrec : u.pb.recalling = s.pb.recalling := congrArg (·.2) hrise
  split
  · obtain ⟨hon, hkept⟩ := onEnter_spec u
    exact ⟨.inr hon, hkept.trans hrec⟩
  · exact ⟨.inl ((congrArg (·.1) hrise).trans h), hrec⟩

/-- R462, R472: FAULT is entered. -/
theorem faultEnter_spec (s : State) :
    (faultEnter s).sup.state = .fault ∧ (faultEnter s).sup.faultN = true ∧ (faultEnter s).sup.down = s.sup.down ∧
      (faultEnter s).pb.recalling = s.pb.recalling := by
  simp only [faultEnter, raise_sup, raise_pb]
  exact ⟨rfl, rfl, rfl, rfl⟩

/-- A power-on, which a board under test ends in FAULT. -/
theorem upEnter_eq (cycle : Bool) (s : State) : ∃ u,
    (upEnter cycle s = if s.board.testEn then faultEnter (u.modSup fun x => { x with down := 9 }) else upAdvance u) ∧
      u.sup.state = .up ∧ u.pb.recalling = s.pb.recalling := by
  unfold upEnter
  extract_lets sampled started begun
  exact ⟨begun, rfl, rfl, rfl⟩

theorem upEnter_spec (cycle : Bool) (s : State) :
    (upEnter cycle s).pb.recalling = s.pb.recalling ∧ (s.board.testEn = true → (upEnter cycle s).sup.state = .fault) ∧
      (s.board.testEn = false → poweredOn (upEnter cycle s)) := by
  obtain ⟨u, heq, hup, hrec⟩ := upEnter_eq cycle s
  rw [heq]
  cases s.board.testEn with
  | true =>
    obtain ⟨hfault, -, -, hkept⟩ := faultEnter_spec (u.modSup fun x => { x with down := 9 })
    exact ⟨hkept.trans hrec, fun _ => hfault, nofun⟩
  | false =>
    obtain ⟨hon, hkept⟩ := upAdvance_spec hup
    exact ⟨hkept.trans hrec, nofun, fun _ => hon⟩

theorem upAsk_refused {s : State} (h : tooHot s = true ∨ s.sup.aonOn = false) : upAsk s = s :=
  if_pos (by simpa using h)

theorem upAsk_takes {s : State} (hcool : tooHot s = false) (haon : s.sup.aonOn = true) :
    upAsk s = if s.sup.supplyGood then upEnter false s else s.modSup fun u => { u with restartDue := true, faultN := false } :=
  if_neg (by simp [hcool, haon])

/-- R462, R473, R475: what a power-on that is asked for does. -/
theorem upAsk_spec (s : State) :
    (upAsk s).pb.recalling = s.pb.recalling ∧ (tooHot s = true ∨ s.sup.aonOn = false → upAsk s = s) ∧
      (tooHot s = false → s.sup.aonOn = true →
        (s.sup.supplyGood = false → (upAsk s).sup.state = s.sup.state ∧ (upAsk s).sup.restartDue = true) ∧
        (s.sup.supplyGood = true → s.board.testEn = true → (upAsk s).sup.state = .fault) ∧
        (s.sup.supplyGood = true → s.board.testEn = false → poweredOn (upAsk s))) := by
  by_cases hbar : tooHot s = true ∨ s.sup.aonOn = false
  · rw [upAsk_refused hbar]
    exact ⟨rfl, fun _ => rfl, fun hcool haon => by simp [hcool, haon] at hbar⟩
  · obtain ⟨hcool, haon⟩ : tooHot s = false ∧ s.sup.aonOn = true := by simpa using hbar
    rw [upAsk_takes hcool haon]
    obtain ⟨hkept, htest, hrun⟩ := upEnter_spec false s
    cases s.sup.supplyGood with
    | true => exact ⟨hkept, fun h => absurd h hbar, fun _ _ => ⟨nofun, fun _ => htest, fun _ => hrun⟩⟩
    | false => exact ⟨rfl, fun h => absurd h hbar, fun _ _ => ⟨fun _ => ⟨rfl, rfl⟩, nofun, nofun⟩⟩

/-- R454: a one-bit field of a parameter. -/
theorem bit_eq_testBit (v i : Nat) : bit v i = v.testBit i := Nat.testBit_eq_decide_div_mod_eq.symm

/-! RECALL_COMPLETE. -/

/-- Recall has ended, and the supervisor is in OFF. -/
def recallLeft (s : State) : State :=
  (pageStart (s.modPb fun p => { p with recalling := false })).modSup fun u => { u with state := .off }

theorem recallLeft_sup (s : State) : (recallLeft s).sup = { s.sup with state := .off } := by
  have hsup := (pageStart_queued (s.modPb fun p => { p with recalling := false })).sup
  show { (pageStart (s.modPb fun p => { p with recalling := false })).sup with state := .off } = _
  rw [hsup]
  rfl

theorem recallLeft_passbook {α : Type} (s : State) (look : Passbook → α)
    (hidle : ∀ p, look p.idle = look p := by exact fun _ => rfl) : look (recallLeft s).pb = look { s.pb with recalling := false } :=
  (pageStart_queued (s.modPb fun p => { p with recalling := false })).passbook look hidle

theorem recallLeft_board (s : State) : (recallLeft s).board = s.board :=
  (pageStart_queued (s.modPb fun p => { p with recalling := false })).board

theorem recallLeft_tooHot (s : State) : tooHot (recallLeft s) = tooHot s := by
  show tooHot { s with sup := (recallLeft s).sup } = _
  rw [recallLeft_sup]
  rfl

theorem recallLeft_supParam (s : State) (id : Nat) : supParam (recallLeft s) id = supParam s id := by
  show supParam { s with sup := (recallLeft s).sup } id = _
  rw [recallLeft_sup]
  rfl

/-- R472: a rail parameter is lost. -/
def railLostAtRecall (s : State) : Bool := s.pb.faultIds.any fun id => 0x100 ≤ id && id < 0x180

theorem exec_recallComplete {s : State} (h : s.sup.state = .recalling) :
    exec .recallComplete s =
      .next (if railLostAtRecall s then faultEnter ((recallLeft s).modSup fun u => { u with down := 9 })
        else if (supParam s 0x180).testBit 3 = false then recallLeft s
        else upAsk (recallLeft s)) := by
  have hfaults : (recallLeft s).pb.faultIds = s.pb.faultIds := recallLeft_passbook s (·.faultIds)
  show execRecallComplete s = _
  rw [execRecallComplete, if_neg (by simp [h])]
  show Host.Outcome.next (if (recallLeft s).pb.faultIds.any _ then _ else if !bit (supParam (recallLeft s) 0x180) 3 then _ else _) = _
  rw [hfaults, recallLeft_supParam, bit_eq_testBit]
  simp only [Bool.not_eq_true']
  rfl

theorem recallComplete_idle {s : State} (h : s.sup.state ≠ .recalling) : exec .recallComplete s = .next s := by
  show execRecallComplete s = _
  rw [execRecallComplete, if_pos (by simpa using h)]

theorem recallComplete_spec {s : State} (h : s.sup.state = .recalling) :
    ∃ t, exec .recallComplete s = .next t ∧ t.pb.recalling = false ∧
      ∃ bad, bad = s.pb.faultIds.any (fun id => 0x100 ≤ id && id < 0x180) ∧
        (bad = true → t.sup.state = .fault ∧ t.sup.faultN = true ∧ t.sup.down = 9) ∧
        (bad = false → (supParam s 0x180).testBit 3 = false ∨ tooHot s = true ∨ s.sup.aonOn = false → t.sup.state = .off) ∧
        (bad = false → (supParam s 0x180).testBit 3 = true → tooHot s = false → s.sup.aonOn = true →
          (s.sup.supplyGood = false → t.sup.state = .off ∧ t.sup.restartDue = true) ∧
          (s.sup.supplyGood = true → s.board.testEn = true → t.sup.state = .fault) ∧
          (s.sup.supplyGood = true → s.board.testEn = false → t.sup.state = .up ∨ t.sup.state = .on)) := by
  have hexec := exec_recallComplete h
  have hsup := recallLeft_sup s
  have hrec : (recallLeft s).pb.recalling = false := recallLeft_passbook s (·.recalling)
  have hoff : (recallLeft s).sup.state = .off := by rw [hsup]
  cases hbad : railLostAtRecall s with
  | true =>
    rw [hbad, if_pos rfl] at hexec
    obtain ⟨hfault, hpin, hdown, hkept⟩ := faultEnter_spec ((recallLeft s).modSup fun u => { u with down := 9 })
    exact ⟨_, hexec, hkept.trans hrec, true, hbad.symm, fun _ => ⟨hfault, hpin, hdown⟩, nofun, nofun⟩
  | false =>
    rw [hbad, if_neg (by decide)] at hexec
    by_cases hauto : (supParam s 0x180).testBit 3 = false
    · rw [if_pos hauto] at hexec
      exact ⟨_, hexec, hrec, false, hbad.symm, nofun, fun _ _ => hoff, fun _ ht => by simp [hauto] at ht⟩
    rw [if_neg hauto] at hexec
    obtain ⟨hkept, hrefused, htaken⟩ := upAsk_spec (recallLeft s)
    rw [recallLeft_tooHot, hsup] at hrefused htaken
    rw [recallLeft_board] at htaken
    refine ⟨_, hexec, hkept.trans hrec, false, hbad.symm, nofun, fun _ hbar => ?_, fun _ _ => htaken⟩
    rw [hrefused (hbar.resolve_left hauto)]
    exact hoff

end Sys2Proof.Machine
end

section
/-! PAGE_WRITE_DONE (R449, R454, R458). -/

namespace Sys2Proof.Machine

open Sys2Proof

/-- The store is free of the page write that was in progress. -/
def storeFreed (s : State) : State := s.modPb fun p => { p with writing := none }

theorem pageWriteDone_idle {s : State} (h : s.pb.writing = none) : exec .pageWriteDone s = .next s := by
  show execPageWriteDone s = _
  simp only [execPageWriteDone, h]

theorem exec_pageWriteDone {s : State} {w : PageWrite} (h : s.pb.writing = some w) :
    exec .pageWriteDone s = .next (pageStart (vaultAnswer w.principal 0 (pageApply w (storeFreed s)))) := by
  show execPageWriteDone s = _
  simp only [execPageWriteDone, h]
  rfl

/-- A write that no vault request waits for. -/
theorem exec_pageWriteDone_own {s : State} {w : PageWrite} (h : s.pb.writing = some w) (hown : w.principal = 0) :
    exec .pageWriteDone s = .next (pageStart (pageApply w (storeFreed s))) := by
  rw [exec_pageWriteDone h, hown]
  rfl

theorem pageStart_none {s : State} (hfree : s.pb.writing = none) (hwrites : s.pb.writes = []) : (pageStart s).pb.writing = none := by
  simp only [pageStart, hwrites, pageNext, List.foldl_nil]
  repeat' split
  all_goals exact hfree

/-! A parameter's write. -/

theorem pageApply_param {w : PageWrite} {s : State} (haddr : w.addr < 0x010000) (hlen : w.data.length = 8) :
    pageApply w s = paramStore w 8 s := by
  have hdata : w.data.isEmpty = false := by
    cases hd : w.data with
    | nil => simp [hd] at hlen
    | cons => rfl
  rw [pageApply, if_neg (by simp [hdata]), if_pos haddr, hlen]
  rfl

theorem le_lt (bs : List Byte) (off n : Nat) : le bs off n < 256 ^ n := by
  rw [le]
  have hlen : ((bs.drop off).take n).length ≤ n := List.length_take_le _ _
  generalize (bs.drop off).take n = xs at hlen
  refine lt_of_lt_of_le ?_ (Nat.pow_le_pow_right (by decide) hlen)
  induction xs with
  | nil => simp
  | cons b xs ih =>
    have hb : b.toNat < 256 := b.isLt
    have htail := ih (Nat.le_of_succ_le hlen)
    rw [List.foldr_cons, List.length_cons, pow_succ]
    omega

/-- R454: the first n bytes of a parameter's copy are written. -/
theorem paramStore_eq (w : PageWrite) (n : Nat) (s : State) : paramStore w n s = s.modPb fun p => { p with
    params := tput (paramDefault (w.addr / 8)) s.pb.params (w.addr / 8) (BitVec.ofNat 64 (le w.data 0 n +
      (tget (paramDefault (w.addr / 8)) s.pb.params (w.addr / 8)).toNat / 2 ^ (8 * n) * 2 ^ (8 * n))) } := rfl

/-- A parameter's copy holds the eight bytes of a write. -/
def paramStored (w : PageWrite) (s : State) : State :=
  s.modPb fun p => { p with params := tput (paramDefault (w.addr / 8)) s.pb.params (w.addr / 8) (BitVec.ofNat 64 (le w.data 0 8)) }

theorem paramStored_params (w : PageWrite) (s : State) : (paramStored w s).pb.params =
    tput (paramDefault (w.addr / 8)) s.pb.params (w.addr / 8) (BitVec.ofNat 64 (le w.data 0 8)) := rfl

/-- Eight bytes are all of it. -/
theorem paramStore_whole (w : PageWrite) (s : State) : paramStore w 8 s = paramStored w s := by
  have hrest (v : BitVec 64) : v.toNat / 2 ^ (8 * 8) = 0 := Nat.div_eq_of_lt ((BitVec.isLt v).trans_eq (by norm_num))
  rw [paramStore_eq, hrest, Nat.zero_mul, Nat.add_zero]
  rfl

theorem pageWriteDone_param {s : State} {w : PageWrite} (hw : s.pb.writing = some w) (haddr : w.addr < 0x010000)
    (hlen : w.data.length = 8) (hown : w.principal = 0) :
    ∃ t, exec .pageWriteDone s = .next t ∧
      (tget (paramDefault (w.addr / 8)) t.pb.params (w.addr / 8)).toNat = le w.data 0 8 ∧
      (∀ k, k ≠ w.addr / 8 → tget (paramDefault k) t.pb.params k = tget (paramDefault k) s.pb.params k) ∧
      t.pb.tally = s.pb.tally ∧ t.led.entries = s.led.entries ∧ (s.pb.writes = [] → t.pb.writing = none) := by
  have hexec := exec_pageWriteDone_own hw hown
  rw [pageApply_param haddr hlen, paramStore_whole] at hexec
  have hq := pageStart_queued (paramStored w (storeFreed s))
  refine ⟨_, hexec, ?_, fun k hk => ?_, hq.passbook (·.tally), hq.ledger (·.entries),
    fun hnone => pageStart_none rfl hnone⟩
  · have hlt : le w.data 0 8 < 2 ^ 64 := (le_lt _ _ _).trans_eq (by norm_num)
    rw [hq.passbook (·.params), paramStored_params, tget_tput_same, BitVec.toNat_ofNat, Nat.mod_eq_of_lt hlt]
  · rw [hq.passbook (·.params), paramStored_params]
    exact tget_tput_ne _ _ _ _ _ _ hk

/-! A tally word's first step. -/

theorem tallyFold_le_iff (p : Nat × BitVec 32 → Bool) (es : Tab (BitVec 32)) (m b : Nat) :
    es.foldl (fun m e => if p e then max m e.2.toNat else m) m ≤ b ↔ m ≤ b ∧ ∀ e ∈ es, p e = true → e.2.toNat ≤ b := by
  induction es generalizing m with
  | nil => simp
  | cons e es ih =>
    rw [List.foldl_cons, ih]
    by_cases hp : p e = true
    · simp [hp, and_assoc]
    · simp [hp]

/-- R458: a tally counter's value bounds its good words, and is the least that does. -/
theorem tallyVal_le_iff (s : State) (c b : Nat) :
    tallyVal s c ≤ b ↔ ∀ e ∈ s.pb.tally, e.1 / 1024 = c → e.1 ∉ s.pb.tallyBad → e.2.toNat ≤ b := by
  rw [tallyVal, tallyFold_le_iff (fun e => e.1 / 1024 == c && !s.pb.tallyBad.contains e.1)]
  simp only [Nat.zero_le, true_and, Bool.and_eq_true, beq_iff_eq, Bool.not_eq_true', List.contains_eq_mem, decide_eq_false_iff_not,
    and_imp]

theorem mem_tins_self {α : Type} (k : Nat) (v : α) (t : Tab α) : (k, v) ∈ tins k v t := by
  induction t with
  | nil => exact List.mem_singleton.mpr rfl
  | cons e r ih =>
    obtain ⟨a, w⟩ := e
    simp only [tins]
    split
    · exact List.mem_cons_self
    · exact List.mem_cons_of_mem _ ih

/-- The index of a tally word. -/
def tallyKey (c half u : Nat) : Nat := c * 1024 + half * 512 + u % 512

/-- R458: a good word above a counter's value is its value. -/
theorem tallyVal_tallyWord {s : State} {c half u : Nat} (hhalf : half ≤ 1) (hu : u < 2 ^ 32) (habove : tallyVal s c < u) :
    tallyVal (tallyWord c half u s) c = u := by
  have hval : (BitVec.ofNat 32 u).toNat = u := by rw [BitVec.toNat_ofNat, Nat.mod_eq_of_lt hu]
  have hne : BitVec.ofNat 32 u ≠ 0 := fun h => by
    have hzero : (BitVec.ofNat 32 u).toNat = 0 := by rw [h]; rfl
    omega
  have htally : (tallyWord c half u s).pb.tally =
      tins (tallyKey c half u) (BitVec.ofNat 32 u) (s.pb.tally.filter fun e => e.1 != tallyKey c half u) := if_neg hne
  have hbad : (tallyWord c half u s).pb.tallyBad = s.pb.tallyBad.filter (· != tallyKey c half u) := rfl
  apply Nat.le_antisymm
  · rw [tallyVal_le_iff, htally, hbad]
    intro e he hc hgood
    rcases mem_tins _ _ _ _ he with rfl | hmem
    · exact hval.le
    · obtain ⟨hold, hkey⟩ := List.mem_filter.mp hmem
      refine ((tallyVal_le_iff s c (tallyVal s c)).mp le_rfl e hold hc fun hin => hgood ?_).trans habove.le
      exact List.mem_filter.mpr ⟨hin, hkey⟩
  · have hself := (tallyVal_le_iff (tallyWord c half u s) c _).mp le_rfl (tallyKey c half u, BitVec.ofNat 32 u)
      (by rw [htally]; exact mem_tins_self _ _ _) (by simp only [tallyKey]; omega) (by rw [hbad]; simp)
    rwa [hval] at hself

/-- R458: the advance that a page write carries is in force, and its second step is queued. -/
def tallyFirst (w : PageWrite) (s : State) : State :=
  pageQueue 3 (w.addr + 2048) w.data 0 (tallyWord ((w.addr - 0x110000) / 4096) 0 (le w.data 0 4) s)

/-- The rollback floor's advance is raised. -/
theorem tallyStep_first {w : PageWrite} (h : w.addr % 4096 < 2048) (s : State) : Noted (tallyFirst w s) (tallyStep w s) := by
  simp only [tallyStep, if_pos h]
  split
  · exact raise_noted _ _ _ _ _
  · exact Noted.refl _

theorem pageApply_tally {w : PageWrite} {s : State} (hdata : w.data ≠ []) (hlow : 0x110000 ≤ w.addr) (hhigh : w.addr < 0x120000) :
    pageApply w s = tallyStep w s := by
  rw [pageApply, if_neg (by simpa using hdata), if_neg (by omega), if_pos (by simp only [Bool.and_eq_true, decide_eq_true_eq]; omega)]

theorem pageWriteDone_tally {s : State} {w : PageWrite} (hw : s.pb.writing = some w) (hlow : 0x110000 ≤ w.addr)
    (hhigh : w.addr < 0x116000) (hword : w.addr % 4096 = 4 * (le w.data 0 4 % 512)) (hown : w.principal = 0)
    (habove : tallyVal s ((w.addr - 0x110000) / 4096) < le w.data 0 4) :
    ∃ t, exec .pageWriteDone s = .next t ∧ tallyVal t ((w.addr - 0x110000) / 4096) = le w.data 0 4 ∧
      (∃ x ∈ t.pb.writing.toList ++ t.pb.writes, x.cls = 3 ∧ x.addr = w.addr + 2048 ∧ x.data = w.data) ∧
      t.led.entries = s.led.entries ∧ t.pb.params = s.pb.params := by
  have hdata : w.data ≠ [] := by
    intro hnil
    rw [hnil] at habove
    exact absurd habove (Nat.not_lt_zero _)
  have hexec := exec_pageWriteDone_own hw hown
  rw [pageApply_tally hdata hlow (by omega)] at hexec
  have hnoted := tallyStep_first (w := w) (by omega) (storeFreed s)
  have hmem := mem_pageQueue 3 (w.addr + 2048) w.data 0 (tallyWord ((w.addr - 0x110000) / 4096) 0 (le w.data 0 4) (storeFreed s))
  rw [← tallyFirst, ← hnoted.pb] at hmem
  have hq := ((pageQueue_queued _ _ _ _ _).trans hnoted.queued).trans (pageStart_queued (tallyStep w (storeFreed s)))
  have hlt : le w.data 0 4 < 2 ^ 32 := (le_lt _ _ _).trans_eq (by norm_num)
  refine ⟨_, hexec, ?_, ⟨_, mem_pageStart hmem, rfl, rfl, rfl⟩, hq.ledger (·.entries),
    hq.passbook (·.params)⟩
  rw [tallyVal_of_queued hq]
  exact tallyVal_tallyWord (by decide) hlt habove

theorem pageWriteDone_spec {s : State} {w : PageWrite} (hw : s.pb.writing = some w) : ∃ t, exec .pageWriteDone s = .next t ∧
    (w.cls = 6 → w.addr < 0x010000 → w.data.length = 8 → w.principal = 0 →
      (tget (paramDefault (w.addr / 8)) t.pb.params (w.addr / 8)).toNat = le w.data 0 8 ∧
      (∀ k, k ≠ w.addr / 8 → tget (paramDefault k) t.pb.params k = tget (paramDefault k) s.pb.params k) ∧
      t.pb.tally = s.pb.tally ∧ t.led.entries = s.led.entries ∧ (s.pb.writes = [] → t.pb.writing = none)) ∧
    (w.cls = 3 → 0x110000 ≤ w.addr → w.addr < 0x116000 → w.addr % 4096 = 4 * (le w.data 0 4 % 512) → w.principal = 0 →
      tallyVal s ((w.addr - 0x110000) / 4096) < le w.data 0 4 →
      tallyVal t ((w.addr - 0x110000) / 4096) = le w.data 0 4 ∧
      (∃ x ∈ t.pb.writing.toList ++ t.pb.writes, x.cls = 3 ∧ x.addr = w.addr + 2048 ∧ x.data = w.data) ∧
      t.led.entries = s.led.entries ∧ t.pb.params = s.pb.params) := by
  refine ⟨_, exec_pageWriteDone hw, fun _ haddr hlen hown => ?_, fun _ hlow hhigh hword hown habove => ?_⟩
  · obtain ⟨t, hexec, hspec⟩ := pageWriteDone_param hw haddr hlen hown
    obtain rfl := Host.Outcome.next.inj ((exec_pageWriteDone hw).symm.trans hexec)
    exact hspec
  · obtain ⟨t, hexec, hspec⟩ := pageWriteDone_tally hw hlow hhigh hword hown habove
    obtain rfl := Host.Outcome.next.inj ((exec_pageWriteDone hw).symm.trans hexec)
    exact hspec

/-- Settles O57, event by event: what each does is said once of its own state, and the page writes, records and reasons that it
queues leave the rest alone. -/
theorem supplyAndPassbookEvents : Obligations.SupplyAndPassbookEvents := by
  unfold Obligations.SupplyAndPassbookEvents
  refine ⟨holdupOkFall_spec, fun s => ⟨exec_holdupOkRise s, exec_holdupReady s⟩, fun _ _ _ => tilBudgetWrite_spec,
    fun s => ⟨budgetApply_waits, fun _ => budgetApply_spec⟩, fun s hclear => ?_, fun s => sboxClearDone_spec,
    fun fs s => ⟨fun haon => ?_, recallRun_spec fs⟩, fun s => ⟨recallComplete_idle, recallComplete_spec⟩,
    fun s => ⟨pageWriteDone_idle, fun _ => pageWriteDone_spec⟩⟩
  · rw [exec_sboxClearDone, if_pos hclear]
  · exact if_pos haon

end Sys2Proof.Machine
end

section
/-! What a mailbox's command does but for its mailbox: taking a command, updating the mailbox and answering are seen in no block
that `State.sans` shows (R365-R374). -/

namespace Sys2Proof.Machine

open Sys2Proof

/-- The keys of the registers in which a host mailbox takes and answers a command: MBX_CMD and MBX_EVT. -/
def mbxKeys : MbxPort → List Nat
  | .board => []
  | .a => [0x20008, 0x2001C]
  | .b => [0x4020008, 0x402001C]

theorem rget_sans (p : MbxPort) (s : State) (k : Nat) :
    rget (s.sans p) k = if k ∈ mbxKeys p then regReset (k % 2 ^ 26) else rget s k := by
  have two (a b : Nat) : tget (regReset (k % 2 ^ 26)) (s.regs.filter fun e => e.1 != a && e.1 != b) k =
      if k ∈ [a, b] then regReset (k % 2 ^ 26) else tget (regReset (k % 2 ^ 26)) s.regs k := by
    rw [← List.filter_filter]
    by_cases ha : k = a
    · subst ha; rw [tget_filter_same, if_pos (by simp)]
    · rw [tget_filter_ne _ _ _ _ ha]
      by_cases hb : k = b
      · subst hb; rw [tget_filter_same, if_pos (by simp)]
      · rw [tget_filter_ne _ _ _ _ hb, if_neg (by simp [ha, hb])]
  cases p
  case board => rfl
  all_goals exact two _ _

theorem Noted.sans {s t : State} (h : Noted s t) (p : MbxPort) : Noted (s.sans p) (t.sans p) := by
  refine ⟨?_, ?_, ?_, fun k hk => by rw [rget_sans, rget_sans, h.rget k hk], fun i hi => ?_⟩
  · cases p
    case board => exact congrArg (fun x : State => { x with ctl := { x.ctl with board := State.reset.ctl.board } }) h.1
    case a => exact congrArg (fun x : State => { x with
        cry := { x.cry with free := 0 }, fe := { x.fe with portA := { x.fe.portA with mbx := State.reset.ctl.board } } }) h.1
    case b => exact congrArg (fun x : State => { x with
        cry := { x.cry with free := 0 }, fe := { x.fe with portB := { x.fe.portB with mbx := State.reset.ctl.board } } }) h.1
  · cases p <;> exact h.2.1
  · cases p
    case board =>
      have hsaid := h.said
      simp only [State.said, State.sans] at hsaid ⊢
      rw [List.filter_comm, hsaid, List.filter_comm]
    all_goals exact h.said
  · cases p <;> exact h.ctr i hi

theorem Queued.sans {s t : State} (h : Queued s t) (p : MbxPort) : Queued (s.sans p) (t.sans p) := by
  have := Noted.sans (s := s.idle) (t := t.idle) h p
  cases p <;> exact this

/-- An update of the mailbox is not seen without it. -/
theorem modMbx_sans (p : MbxPort) (f : Mailbox → Mailbox) (s : State) : (modMbx p f s).sans p = s.sans p := by cases p <;> rfl

/-- A write of one of the mailbox's own registers is not seen without it. -/
theorem rset_sans {p : MbxPort} {k : Nat} (hk : k ∈ mbxKeys p) (v : BitVec 32) (s : State) : Noted (s.sans p) ((rset s k v).sans p) := by
  refine ⟨by cases p <;> rfl, by cases p <;> rfl, by cases p <;> rfl, fun j _ => ?_, fun i _ => by cases p <;> rfl⟩
  rw [rget_sans, rget_sans]
  split
  · rfl
  · rename_i hj; exact rget_rset_ne _ _ _ _ fun e => hj (e ▸ hk)

/-- A write of another register is seen. -/
theorem rset_sans_other {p : MbxPort} {k : Nat} (hk : k ∉ mbxKeys p) (v : BitVec 32) (s : State) :
    Noted (rset (s.sans p) k v) ((rset s k v).sans p) := by
  refine ⟨by cases p <;> rfl, by cases p <;> rfl, by cases p <;> rfl, fun j _ => ?_, fun i _ => by cases p <;> rfl⟩
  by_cases hj : j = k
  · subst hj; rw [rget_sans, if_neg hk, rget_rset_same, rget_rset_same]
  · rw [rget_sans, rget_rset_ne _ _ _ _ hj, rget_rset_ne _ _ _ _ hj, rget_sans]

theorem Noted.symm {s t : State} (h : Noted s t) : Noted t s :=
  ⟨h.1.symm, h.2.1.symm, h.said.symm, fun k hk => (h.rget k hk).symm, fun i hi => (h.ctr i hi).symm⟩

/-- A condition that is set beside the mailbox's registers is set without it too. -/
theorem Noted.rbit_sans {p : MbxPort} {s t : State} (h : Noted (s.sans p) (t.sans p)) {k : Nat} (hk : k ∉ mbxKeys p) (hev : notEvent k)
    (i : Nat) : Noted ((Machine.rbit s k i).sans p) ((Machine.rbit t k i).sans p) := by
  have outside (u : State) : Noted (Machine.rbit (u.sans p) k i) ((Machine.rbit u k i).sans p) := by
    rw [Machine.rbit, rget_sans, if_neg hk]; exact rset_sans_other hk _ u
  exact (outside s).symm.trans ((h.rbit k i hev).trans (outside t))

theorem modSo_sans (p : MbxPort) (f : Orders → Orders) (s : State) : (s.modSo f).sans p = (s.sans p).modSo f := by cases p <;> rfl
theorem modEsc_sans (p : MbxPort) (f : Escrows → Escrows) (s : State) : (s.modEsc f).sans p = (s.sans p).modEsc f := by cases p <;> rfl
theorem modLed_sans (p : MbxPort) (f : Ledger → Ledger) (s : State) : (s.modLed f).sans p = (s.sans p).modLed f := by cases p <;> rfl

/-- MBX_CMD names the command that a host mailbox takes. -/
theorem yciNoted_sans (op : Nat) (p : MbxPort) (b : List Byte) (s : State) : Noted (s.sans p) ((yciNoted op p b s).sans p) := by
  cases p
  case board => exact Noted.refl _
  all_goals exact rset_sans (by decide) _ _

/-- A free value that a host mailbox's answer takes is not seen without it. -/
theorem takenFree_sans {p : MbxPort} (hp : p ≠ .board) (s : State) :
    (s.modCry fun c => { c with free := c.free + 1 }).sans p = s.sans p := by
  cases p
  case board => exact absurd rfl hp
  all_goals rfl

theorem mbxEvt_mem {p : MbxPort} (hp : p ≠ .board) : regKey (headOf p) 0x2001C ∈ mbxKeys p := by
  cases p
  case board => exact absurd rfl hp
  all_goals decide

/-- An answer is seen in its mailbox only. -/
theorem mbxAnswer_sans (p : MbxPort) (op rc : Nat) (out : List Byte) (s : State) : Noted (s.sans p) ((mbxAnswer p op rc out s).sans p) := by
  rcases mbxAnswer_cases p op rc out s with ⟨rfl, h⟩ | ⟨hp, h⟩
  · rw [h]; exact Noted.refl _
  · have hdone := rset_sans (mbxEvt_mem hp) (v := rget ((modMbx p (Mailbox.answer p rc out s.cry.free) s).modCry fun c =>
      { c with free := c.free + 1 }) (regKey (headOf p) 0x2001C) ||| (1 <<< 0))
      ((modMbx p (Mailbox.answer p rc out s.cry.free) s).modCry fun c => { c with free := c.free + 1 })
    rw [takenFree_sans hp, modMbx_sans] at hdone
    exact hdone.trans (h.sans p)

/-- A command that was taken and answered has acted as v, where its body's state is v but for the mailbox and what waits for the
passbook store. -/
theorem mbxAnswer_acted {p : MbxPort} (op rc : Nat) (out : List Byte) {s v u : State}
    (hdecl : (mbxOf u p).declared = (mbxOf s p).declared) (h : Queued (v.sans p) (u.sans p)) :
    acted p op rc out s v (mbxAnswer p op rc out u) :=
  ⟨mbxAnswer_answered p op rc out hdecl, h.trans (mbxAnswer_sans p op rc out u).queued⟩

theorem mbxOf_yciNoted (op : Nat) (p q : MbxPort) (b : List Byte) (s : State) : mbxOf (yciNoted op p b s) q = mbxOf s q := by
  obtain ⟨r, hr⟩ := yciNoted_setRegs op p b s
  rw [hr, mbxOf_setRegs]

end Sys2Proof.Machine
end

section
/-! Standing orders: how the table of entries reads after an update, and what writing, arming and disarming do to it (R223, R225,
R229, R243, R379). -/

namespace Sys2Proof.Machine

open Sys2Proof

@[simp] theorem soEnt_modSo_same (i : Nat) (f : SoEntry → SoEntry) (s : State) : soEnt (modSo i f s) i = f (soEnt s i) := by
  simp [soEnt, modSo, tmod]

theorem soEnt_modSo_ne {i j : Nat} (h : j ≠ i) (f : SoEntry → SoEntry) (s : State) : soEnt (modSo i f s) j = soEnt s j :=
  tget_tput_ne _ _ _ _ _ _ h

theorem soEnt_of_so {s t : State} (h : t.so = s.so) (i : Nat) : soEnt t i = soEnt s i := by rw [soEnt, soEnt, h]

/-! Arming (R225). -/

theorem armError_zero {e : SoEntry} (h : armError e = 0) :
    soFire e.bytes % 1024 = 0 ∧ soAction e.bytes ≤ 7 ∧ soFlags e.bytes < 4 ∧ e.state ≠ .armed ∧ e.state ≠ .dormant := by
  simp only [armError] at h
  split at h
  · cases h
  split at h
  · cases h
  split at h
  · cases h
  split at h
  · cases h
  split at h
  · cases h
  · simp_all [soHeld]

theorem armError_offFrame {e : SoEntry} (h : soFire e.bytes % 1024 ≠ 0) : armError e = 1 := by
  rw [armError, if_pos (by simpa using h)]

theorem armError_badAction {e : SoEntry} (hframe : soFire e.bytes % 1024 = 0) (h : 7 < soAction e.bytes) : armError e = 2 := by
  rw [armError, if_neg (by simpa using hframe), if_pos h]

/-- An entry that passes its checks, armed, or dormant where it has no firing left. -/
def SoEntry.arm (e : SoEntry) : SoEntry :=
  { e with state := if soCount e.bytes = 0 then .dormant else .armed, error := 0, prepared := false, ends := false }

/-- An entry that does not pass them, with the cause. -/
def SoEntry.refuse (e : SoEntry) : SoEntry :=
  { e with error := BitVec.ofNat 8 (armError e), state := if soHeld e then e.state else .rejected }

theorem modSo_congr {i : Nat} {f g : SoEntry → SoEntry} {s : State} (h : f (soEnt s i) = g (soEnt s i)) : modSo i f s = modSo i g s :=
  congrArg (fun e => s.modSo fun o => { o with entries := tput soEntry0 o.entries i e }) h

theorem soArmOp_arms {i : Nat} {s : State} (h : armError (soEnt s i) = 0) : soArmOp i s = modSo i SoEntry.arm s := by
  simp only [soArmOp, h, beq_self_eq_true, if_true]
  exact modSo_congr (by simp only [SoEntry.arm, beq_iff_eq])

theorem soArmOp_refuses {i : Nat} {s : State} (h : armError (soEnt s i) ≠ 0) :
    ∃ d, soArmOp i s = raise 7 1 0x03 d (rbit (modSo i SoEntry.refuse s) 0x61000 9) := by
  refine ⟨det4 i (soTag (soEnt s i).bytes) (armError (soEnt s i)) (soFire (soEnt s i).bytes), ?_⟩
  rw [modSo_congr (f := SoEntry.refuse) (g := fun e =>
    { e with error := BitVec.ofNat 8 (armError (soEnt s i)), state := if soHeld e then e.state else .rejected }) rfl]
  exact if_neg (by simpa using h)

theorem exec_soArm {h : Head} {v : BitVec 32} {s : State} (hfree : domFree s (domainOf 0x61004) = true) :
    exec (.soArm h v) s = .next (soArmOp (v.toNat % 1024) s) :=
  congrArg Host.Outcome.next (accessOp_wr0 h 0x61004 v s (by decide) (by decide) hfree)

theorem exec_soDisarm {h : Head} {v : BitVec 32} {s : State} (hfree : domFree s (domainOf 0x61008) = true) :
    exec (.soDisarm h v) s = .next (soDisarmOp (v.toNat % 1024) s) :=
  congrArg Host.Outcome.next (accessOp_wr0 h 0x61008 v s (by decide) (by decide) hfree)

/-- SO_ARM (R225). -/
theorem soArm_spec {h : Head} {v : BitVec 32} {s : State} (hfree : domFree s (domainOf 0x61004) = true) :
    ∃ t, exec (.soArm h v) s = .next t ∧
      ∃ e, e = soEnt s (v.toNat % 1024) ∧
      (armError e = 0 →
        soFire e.bytes % 1024 = 0 ∧ soAction e.bytes ≤ 7 ∧ soFlags e.bytes < 4 ∧ e.state ≠ .armed ∧ e.state ≠ .dormant ∧
        soEnt t (v.toNat % 1024) = { e with state := if soCount e.bytes = 0 then .dormant else .armed, error := 0, prepared := false, ends := false } ∧
        (∀ i, i ≠ v.toNat % 1024 → soEnt t i = soEnt s i) ∧ (t.modSo fun o => { o with entries := s.so.entries }) = s) ∧
      (soFire e.bytes % 1024 ≠ 0 → armError e = 1) ∧
      (soFire e.bytes % 1024 = 0 → 7 < soAction e.bytes → armError e = 2) ∧
      (armError e ≠ 0 → Pends 7 1 0x03 t ∧
        soEnt t (v.toNat % 1024) = { e with error := BitVec.ofNat 8 (armError e), state := if soHeld e then e.state else .rejected } ∧
        (∀ i, i ≠ v.toNat % 1024 → soEnt t i = soEnt s i) ∧
        Noted (rbit s 0x61000 9) (t.modSo fun o => { o with entries := s.so.entries })) := by
  refine ⟨_, exec_soArm hfree, _, rfl, fun h0 => ?_, armError_offFrame, armError_badAction, fun h0 => ?_⟩
  · obtain ⟨hframe, haction, hflags, harmed, hdormant⟩ := armError_zero h0
    rw [soArmOp_arms h0]
    exact ⟨hframe, haction, hflags, harmed, hdormant, soEnt_modSo_same _ _ _, fun i hi => soEnt_modSo_ne hi _ _, rfl⟩
  · obtain ⟨d, hd⟩ := soArmOp_refuses h0
    have hso := raise_so 7 1 0x03 d (rbit (modSo (v.toNat % 1024) SoEntry.refuse s) 0x61000 9)
    rw [← hd] at hso
    refine ⟨hd ▸ raise_pends_low 7 1 0x03 _ _ (by decide) (by decide) (by decide), ?_, fun i hi => ?_, ?_⟩
    · rw [soEnt_of_so hso]; exact soEnt_modSo_same _ _ _
    · rw [soEnt_of_so hso]; exact soEnt_modSo_ne hi _ _
    · rw [hd]; exact (raise_noted 7 1 0x03 d _).modSo fun o => { o with entries := s.so.entries }

/-! Disarming (R229). -/

/-- A disarmed entry. -/
def SoEntry.disarm (e : SoEntry) : SoEntry := { e with state := .disarmed, prepared := false, ends := false }

theorem soDisarmOp_none {i : Nat} {s : State} (h : setPreparedBy s i = none) : soDisarmOp i s = modSo i SoEntry.disarm s := by
  rw [soDisarmOp, h]; rfl

theorem soDisarmOp_committed {i n : Nat} {x : Escrow} {s : State} (h : setPreparedBy s i = some (n, x)) (hx : x.state = .committed) :
    soDisarmOp i s = rbit (modSo i (fun e => { e with ends := soHeld e && soCount e.bytes != 1 }) s) 0x61000 11 := by
  simp only [soDisarmOp, h, hx, beq_self_eq_true, if_true]

theorem soDisarmOp_preparing {i n : Nat} {x : Escrow} {s : State} (h : setPreparedBy s i = some (n, x)) (hx : x.state ≠ .committed) :
    soDisarmOp i s = modSo i SoEntry.disarm (releaseUnprepare n s) := by
  simp only [soDisarmOp, h, beq_iff_eq, if_neg hx]; rfl

@[simp] theorem escSet_modSet_same (n : Nat) (f : Escrow → Escrow) (s : State) : escSet (modSet n f s) n = f (escSet s n) := by
  simp [escSet, modSet, tmod]

theorem escSet_modSet_ne {n m : Nat} (h : m ≠ n) (f : Escrow → Escrow) (s : State) : escSet (modSet n f s) m = escSet s m :=
  tget_tput_ne _ _ _ _ _ _ h

theorem escSet_of_esc {s t : State} (h : t.esc = s.esc) (n : Nat) : escSet t n = escSet s n := by rw [escSet, escSet, h]

/-- The records that a stopped preparation leaves in the queue (R229). -/
def unprepared (n : Nat) (l : Ledger) : Ledger :=
  let keep (r : JRec) : Bool := !((r.type == 0x06 || r.type == 0x07 || r.type == 0x08) && r.a == n)
  match l.appends with
  | r :: rest =>
    if l.appending && (keep r || r.type != 0x08) then { l with appends := r :: rest.filter keep }
    else { l with appends := l.appends.filter keep, appending := false }
  | [] => l

/-- A preparation that stops leaves its set closed, and its records are dropped (R229, R241). -/
theorem releaseUnprepare_queued (n : Nat) (s : State) :
    Queued (modSet n (fun x => { x with state := .closed, entry := 0 }) (s.modLed (unprepared n))) (releaseUnprepare n s) :=
  (ringCheck_queued _).trans (pageStart_queued _)

theorem releaseUnprepare_appends (n : Nat) (s : State) : (releaseUnprepare n s).led.appends = (unprepared n s.led).appends := by
  rw [releaseUnprepare, pageStart_appends, ringCheck_appends]; rfl

theorem unprepared_appends {n : Nat} {l : Ledger} (h : l.appending = false) {r : JRec} (hr : r ∈ (unprepared n l).appends)
    (htype : r.type = 0x06 ∨ r.type = 0x07 ∨ r.type = 0x08) : r.a ≠ n := by
  have hmem : r ∈ l.appends.filter fun r => !((r.type == 0x06 || r.type == 0x07 || r.type == 0x08) && r.a == n) := by
    unfold unprepared at hr
    split at hr
    · rename_i heq; rw [heq]; simpa [h, heq] using hr
    · rename_i heq; simp [heq] at hr
  have := (List.mem_filter.mp hmem).2
  rintro rfl
  rcases htype with e | e | e <;> simp [e] at this

/-- SO_DISARM (R229). -/
theorem soDisarm_spec {h : Head} {v : BitVec 32} {s : State} (hfree : domFree s (domainOf 0x61008) = true) :
    ∃ t, exec (.soDisarm h v) s = .next t ∧
      (setPreparedBy s (v.toNat % 1024) = none →
        soEnt t (v.toNat % 1024) = { soEnt s (v.toNat % 1024) with state := .disarmed, prepared := false, ends := false } ∧
        (∀ i, i ≠ v.toNat % 1024 → soEnt t i = soEnt s i) ∧ (t.modSo fun o => { o with entries := s.so.entries }) = s) ∧
      ∀ n x, setPreparedBy s (v.toNat % 1024) = some (n, x) →
        (x.state = .committed →
          soEnt t (v.toNat % 1024) = { soEnt s (v.toNat % 1024) with
            ends := soHeld (soEnt s (v.toNat % 1024)) && soCount (soEnt s (v.toNat % 1024)).bytes != 1 } ∧
          (∀ i, i ≠ v.toNat % 1024 → soEnt t i = soEnt s i) ∧ (t.modSo fun o => { o with entries := s.so.entries }) = rbit s 0x61000 11) ∧
        (x.state ≠ .committed →
          soEnt t (v.toNat % 1024) = { soEnt s (v.toNat % 1024) with state := .disarmed, prepared := false, ends := false } ∧
          (escSet t n).state = .closed ∧ (escSet t n).entry = 0 ∧ (escSet t n).members = (escSet s n).members ∧
          (s.led.appending = false → ∀ r ∈ t.led.appends, r.type = 0x06 ∨ r.type = 0x07 ∨ r.type = 0x08 → r.a ≠ n)) := by
  refine ⟨_, exec_soDisarm hfree, fun hnone => ?_, fun n x hx => ⟨fun hcom => ?_, fun hprep => ?_⟩⟩
  · rw [soDisarmOp_none hnone]
    exact ⟨soEnt_modSo_same _ _ _, fun i hi => soEnt_modSo_ne hi _ _, rfl⟩
  · rw [soDisarmOp_committed hx hcom]
    exact ⟨soEnt_modSo_same _ _ _, fun i hi => soEnt_modSo_ne hi _ _, rfl⟩
  · rw [soDisarmOp_preparing hx hprep]
    have hq := releaseUnprepare_queued n s
    have hset : escSet (modSo (v.toNat % 1024) SoEntry.disarm (releaseUnprepare n s)) n = { escSet s n with state := .closed, entry := 0 } :=
      (escSet_of_esc hq.esc n).trans (escSet_modSet_same _ _ _)
    refine ⟨?_, by rw [hset], by rw [hset], by rw [hset], fun hidle r hr => ?_⟩
    · rw [soEnt_modSo_same, soEnt_of_so hq.so]; rfl
    · exact unprepared_appends hidle (releaseUnprepare_appends n s ▸ hr)

/-! The mailbox's commands (R379). -/

theorem soIndexOk_of {b : List Byte} (hi : le b 0 2 < 1024) (hz : le b 2 2 = 0) : soIndexOk b = true := by
  simp [soIndexOk, hi, hz]

theorem ofNat_mod_entries {i : Nat} (hi : i < 1024) : (BitVec.ofNat 32 i).toNat % 1024 = i := by
  rw [BitVec.toNat_ofNat]; omega

theorem mbxOf_modSo (f : Orders → Orders) (s : State) (p : MbxPort) : mbxOf (s.modSo f) p = mbxOf s p := by cases p <;> rfl

theorem writeStandingOrder_spec {p : MbxPort} {b : List Byte} {s : State} (htaken : yciTaken 0xC400 p b s = true)
    (hi : le b 0 2 < 1024) (hz : le b 2 2 = 0) :
    ∃ t, exec (.writeStandingOrder p b) s = .next t ∧
      if (soEnt s (le b 0 2)).state = .armed ∨ (soEnt s (le b 0 2)).state = .dormant then
        acted p 0xC400 0 [] s (rbit s 0x61000 8) t
      else
        soEnt t (le b 0 2) = { soEnt s (le b 0 2) with bytes := BitVec.ofNat 256 (le b 4 32) } ∧
        (∀ i, i ≠ le b 0 2 → soEnt t i = soEnt s i) ∧ acted p 0xC400 0 [] s (s.modSo fun o => { o with entries := t.so.entries }) t := by
  obtain ⟨r, hr⟩ := yciNoted_setRegs 0xC400 p b s
  have hsans := yciNoted_sans 0xC400 p b s
  have hmbx := mbxOf_yciNoted 0xC400 p p b s
  rw [hr] at hsans hmbx
  have hrun : exec (.writeStandingOrder p b) s =
      .next (mbxAnswer p 0xC400 0 [] (soWrite (le b 0 2) (BitVec.ofNat 256 (le b 4 32)) (s.setRegs r))) :=
    congrArg Host.Outcome.next (yciRun_answers htaken (by decide) (by rw [hr, soIndexOk_of hi hz]; rfl))
  refine ⟨_, hrun, ?_⟩
  have hent : soEnt (s.setRegs r) (le b 0 2) = soEnt s (le b 0 2) := rfl
  split
  · rename_i hheld
    rw [soWrite, hent, if_pos (by simpa [soHeld] using hheld)]
    exact mbxAnswer_acted _ _ _ (by rw [mbxOf_rbit, hmbx]) (hsans.rbit_sans (by cases p <;> decide) (.inr (by decide)) 8).queued
  · rename_i hheld
    rw [soWrite, hent, if_neg (by simpa [soHeld] using hheld)]
    obtain ⟨-, -, -, -, hso, -⟩ := mbxAnswer_mbxOnly p 0xC400 0 []
      (modSo (le b 0 2) (fun e => { e with bytes := BitVec.ofNat 256 (le b 4 32) }) (s.setRegs r))
    refine ⟨(soEnt_of_so hso _).trans (soEnt_modSo_same _ _ _), fun i hi => (soEnt_of_so hso _).trans (soEnt_modSo_ne hi _ _), ?_⟩
    refine mbxAnswer_acted _ _ _ (congrArg Mailbox.declared ((mbxOf_modSo _ _ _).trans hmbx)) ?_
    rw [hso, modSo_sans]
    have hwritten := hsans.modSo fun o => { o with
      entries := tmod soEntry0 s.so.entries (le b 0 2) fun e => { e with bytes := BitVec.ofNat 256 (le b 4 32) } }
    rw [← modSo_sans _ _ (s.setRegs r)] at hwritten
    exact hwritten.queued

theorem yciNoted_domFree (op : Nat) (p : MbxPort) (b : List Byte) (s : State) (d : Nat) : domFree (yciNoted op p b s) d = domFree s d := by
  obtain ⟨r, hr⟩ := yciNoted_setRegs op p b s
  rw [hr]; rfl

theorem armStandingOrder_spec {p : MbxPort} {b : List Byte} {s : State} (htaken : yciTaken 0xC401 p b s = true)
    (hi : le b 0 2 < 1024) (hz : le b 2 2 = 0) (hfree : domFree s (domainOf 0x61004) = true) :
    ∃ u, exec (.soArm .a (BitVec.ofNat 32 (le b 0 2))) (yciNoted 0xC401 p b s) = .next u ∧
      exec (.armStandingOrder p b) s = .next (mbxAnswer p 0xC401 0 (toLE 4 (soWord (soEnt u (le b 0 2)))) u) := by
  refine ⟨_, exec_soArm ((yciNoted_domFree _ _ _ _ _).trans hfree), congrArg Host.Outcome.next (yciRun_answers htaken (by decide) ?_)⟩
  rw [soIndexOk_of hi hz, ofNat_mod_entries hi]
  rfl

theorem disarmStandingOrder_spec {p : MbxPort} {b : List Byte} {s : State} (htaken : yciTaken 0xC402 p b s = true)
    (hi : le b 0 2 < 1024) (hz : le b 2 2 = 0) (hfree : domFree s (domainOf 0x61008) = true) :
    ∃ u, exec (.soDisarm .a (BitVec.ofNat 32 (le b 0 2))) (yciNoted 0xC402 p b s) = .next u ∧
      exec (.disarmStandingOrder p b) s = .next (mbxAnswer p 0xC402 0 [] u) := by
  refine ⟨_, exec_soDisarm ((yciNoted_domFree _ _ _ _ _).trans hfree), congrArg Host.Outcome.next (yciRun_answers htaken (by decide) ?_)⟩
  rw [soIndexOk_of hi hz, ofNat_mod_entries hi]
  rfl

/-- Settles O32, command by command: each is one update of the table of entries, beside what it raises and what a stopped release drops. -/
theorem standingOrderCommands : Obligations.StandingOrderCommands := by
  unfold Obligations.StandingOrderCommands
  exact ⟨fun _ _ _ => soArm_spec, fun _ _ _ => soDisarm_spec, fun _ _ _ => writeStandingOrder_spec,
    fun _ _ _ hi hz hfree => ⟨fun h => armStandingOrder_spec h hi hz hfree, fun h => disarmStandingOrder_spec h hi hz hfree⟩⟩

end Sys2Proof.Machine
end

section
/-! What accesses, the till, the presses, the channels and the journal leave of the standing orders, of the escrow sets, and of each host
folio's media folio and generation: all of it (R163, R234-R239). A release's swap goes through all of these operations. -/

namespace Sys2Proof.Machine

open Sys2Proof

/-- The standing orders, the escrow sets, and each host folio's media folio and generation. -/
def State.orders (s : State) : Orders × Escrows × (Nat → Nat × BitVec 24) := (s.so, s.esc, fun f => ((ent s f).media, (ent s f).gen))

@[simp] theorem State.modIsl_orders (s : State) (f : Islands → Islands) : (s.modIsl f).orders = s.orders := rfl
@[simp] theorem State.modMed_orders (s : State) (f : Media → Media) : (s.modMed f).orders = s.orders := rfl
@[simp] theorem State.modInteg_orders (s : State) (f : Integrity → Integrity) : (s.modInteg f).orders = s.orders := rfl
@[simp] theorem State.modPur_orders (s : State) (f : Purse → Purse) : (s.modPur f).orders = s.orders := rfl
@[simp] theorem State.modCry_orders (s : State) (f : Crypto → Crypto) : (s.modCry f).orders = s.orders := rfl
@[simp] theorem State.modMov_orders (s : State) (f : Mover → Mover) : (s.modMov f).orders = s.orders := rfl
@[simp] theorem State.modFe_orders (s : State) (f : Front → Front) : (s.modFe f).orders = s.orders := rfl
@[simp] theorem State.modCtl_orders (s : State) (f : Control → Control) : (s.modCtl f).orders = s.orders := rfl
@[simp] theorem State.modPair_orders (s : State) (f : Pair → Pair) : (s.modPair f).orders = s.orders := rfl
@[simp] theorem State.modEv_orders (s : State) (f : Events → Events) : (s.modEv f).orders = s.orders := rfl
@[simp] theorem State.modPb_orders (s : State) (f : Passbook → Passbook) : (s.modPb f).orders = s.orders := rfl
@[simp] theorem State.modSup_orders (s : State) (f : Super → Super) : (s.modSup f).orders = s.orders := rfl
@[simp] theorem State.setRegs_orders (s : State) (v : Tab (BitVec 32)) : (s.setRegs v).orders = s.orders := rfl
@[simp] theorem State.setOutbox_orders (s : State) (v : List Out) : (s.setOutbox v).orders = s.orders := rfl

/-- An update of the ledger that leaves the entries alone. -/
@[simp] theorem State.modLed_orders (s : State) (f : Ledger → Ledger) (h : (f s.led).entries = s.led.entries) :
    (s.modLed f).orders = s.orders := by
  simp only [State.orders, ent, State.modLed_so, State.modLed_esc, State.modLed_led, h]

@[simp] theorem ite_orders (c : Prop) [Decidable c] (a b : State) : (if c then a else b).orders = if c then a.orders else b.orders := by
  split <;> rfl

/-- What is queued for the passbook store and raised reaches none of it. -/
theorem Queued.orders {s t : State} (h : Queued s t) : t.orders = s.orders := by
  simp only [State.orders, ent, h.so, h.esc, h.entries]

theorem Noted.orders {s t : State} (h : Noted s t) : t.orders = s.orders := h.queued.orders

@[simp] theorem forEach_orders {α : Type} (xs : List α) (f : α → State → State) (s : State) (hf : ∀ x s, (f x s).orders = s.orders) :
    (forEach xs f s).orders = s.orders := forEach_keeps State.orders xs hf s

@[simp] theorem raise_orders (g src n : Nat) (d : Det) (s : State) : (raise g src n d s).orders = s.orders := (raise_noted _ _ _ _ _).orders
@[simp] theorem bump_orders (i n : Nat) (s : State) : (bump i n s).orders = s.orders := (bump_noted i n s).orders
@[simp] theorem jAppend_orders (rs : List JRec) (s : State) : (jAppend rs s).orders = s.orders := (jAppend_queued rs s).orders
@[simp] theorem pageQueue_orders (c a : Nat) (d : List Byte) (p : Nat) (s : State) : (pageQueue c a d p s).orders = s.orders :=
  (pageQueue_queued c a d p s).orders
@[simp] theorem recordQueue_orders (a : Nat) (s : State) : (recordQueue a s).orders = s.orders := (recordQueue_queued a s).orders
@[simp] theorem rset_orders (s : State) (k : Nat) (v : BitVec 32) : (rset s k v).orders = s.orders := by simp [rset]
@[simp] theorem rbit_orders (s : State) (k i : Nat) : (rbit s k i).orders = s.orders := by simp [rbit]
@[simp] theorem rinc_orders (s : State) (k n : Nat) : (rinc s k n).orders = s.orders := by simp [rinc]
@[simp] theorem send_orders (o : Out) (s : State) : (send o s).orders = s.orders := by simp [send]
@[simp] theorem modPort_orders (h : Head) (f : Port → Port) (s : State) : (modPort h f s).orders = s.orders := by cases h <;> rfl
@[simp] theorem cxlAppend_orders (h : Head) (sev code d : Nat) (s : State) : (cxlAppend h sev code d s).orders = s.orders :=
  modPort_orders _ _ _

/-- An update of an entry that keeps its media folio and its generation. -/
@[simp] theorem modEnt_orders (f : Nat) (g : LEntry → LEntry) (s : State) (hm : ∀ e, (g e).media = e.media) (hg : ∀ e, (g e).gen = e.gen) :
    (modEnt f g s).orders = s.orders := by
  simp only [State.orders, modEnt, State.modLed_so, State.modLed_esc, Prod.mk.injEq, true_and]
  funext h
  by_cases e : h = f
  · subst e; simp [ent, tmod, hm, hg]
  · simp [ent, tmod, tget_tput_ne _ _ _ _ _ _ e]

@[simp] theorem setWear_orders (m : Nat) (w : Wear) (s : State) : (setWear m w s).orders = s.orders := by simp [setWear]
@[simp] theorem wearNear_orders (before : Nat) (s : State) : (wearNear before s).orders = s.orders := by simp [wearNear]

@[simp] theorem queueMig_orders (f prio retire : Nat) (bullion : Bool) (s : State) :
    (queueMig f prio retire bullion s).orders = s.orders := by simp [queueMig]

@[simp] theorem takeFolio_orders (m kind owner : Nat) (s : State) : (takeFolio m kind owner s).orders = s.orders := by
  simp [takeFolio]

@[simp] theorem shelfMove_orders (toFloor : Bool) (m : Nat) (s : State) : (shelfMove toFloor m s).orders = s.orders := by
  (simp only [shelfMove]; repeat' split) <;> simp

@[simp] theorem wearTriggers_orders (m : Nat) (s : State) : (wearTriggers m s).orders = s.orders := by simp [wearTriggers]
@[simp] theorem wearProgram_orders (m : Nat) (s : State) : (wearProgram m s).orders = s.orders := by simp [wearProgram]
@[simp] theorem ccEvict_orders (slot : Nat) (s : State) : (ccEvict slot s).orders = s.orders := by simp [ccEvict]

@[simp] theorem ccFill_orders (sc b : Nat) (dirty : Bool) (ctr : CtrBlock) (s : State) :
    (ccFill sc b dirty ctr s).orders = s.orders := by simp [ccFill]

@[simp] theorem ctrLose_orders (b : Nat) (s : State) : (ctrLose b s).orders = s.orders := by simp [ctrLose]
@[simp] theorem nodeFault_orders (level n : Nat) (s : State) : (nodeFault level n s).orders = s.orders := by simp [nodeFault]

@[simp] theorem parentBump_orders (level idx : Nat) (s : State) : (parentBump level idx s).orders = s.orders := by
  simp [parentBump]

@[simp] theorem nodeWrite_orders (level n : Nat) (s : State) : (nodeWrite level n s).orders = s.orders := by simp [nodeWrite]
@[simp] theorem nodeEvict_orders (key : Nat) (s : State) : (nodeEvict key s).orders = s.orders := by simp [nodeEvict]

@[simp] theorem treeRoom_orders (level n : Nat) (s : State) : (treeRoom level n s).orders = s.orders := by
  (simp only [treeRoom]; repeat' split) <;> simp

@[simp] theorem nodeVerify_orders (level n : Nat) (s : State) : (nodeVerify level n s).orders = s.orders := by
  (simp only [nodeVerify]; repeat' split) <;> simp

@[simp] theorem treeFetch_orders (w : Nat) (s : State) : (treeFetch w s).orders = s.orders := by simp [treeFetch]

@[simp] theorem ctrFetch_orders (sc b : Nat) (s : State) : (ctrFetch sc b s).2.orders = s.orders := by
  (simp only [ctrFetch]; repeat' split) <;> simp

@[simp] theorem derivedKey_orders (k b : Nat) (major : BitVec 64) (s : State) : (derivedKey k b major s).orders = s.orders := by
  simp [derivedKey]

@[simp] theorem msMark_orders (s : State) (k : Nat) : (msMark s k).orders = s.orders := by simp [msMark]

@[simp] theorem raiseMs_orders (group src reason : Nat) (d : Det) (s : State) :
    (raiseMs group src reason d s).orders = s.orders := by simp [raiseMs]

@[simp] theorem hallmarkFail_orders (lineNo key : Nat) (s : State) : (hallmarkFail lineNo key s).orders = s.orders := by
  simp [hallmarkFail]

@[simp] theorem press_orders (lineNo : Nat) (ct : Line) (hm : BitVec 64) (s : State) :
    (press lineNo ct hm s).2.orders = s.orders := by
  have hfetch := ctrFetch_orders (sc s) (blockOf lineNo) s
  simp only [press]
  repeat' split
  all_goals grind [derivedKey_orders, bump_orders, hallmarkFail_orders]

@[simp] theorem baseStored_orders (lineNo : Nat) (ct : Line) (hm : BitVec 64) (poison : Bool) (rew : BitVec 4) (s : State) :
    (baseStored lineNo ct hm poison rew s).2.orders = s.orders := by
  unfold baseStored
  repeat' split
  all_goals grind [press_orders]

@[simp] theorem baseFilled_orders (lineNo : Nat) (r : LineRes) (s : State) : (baseFilled lineNo r s).2.orders = s.orders := by
  (simp only [baseFilled]; repeat' split) <;> simp

@[simp] theorem setSlot_orders (k : Nat) (p : PSlot) (s : State) : (setSlot k p s).orders = s.orders := by simp [setSlot]

@[simp] theorem slotInvalidate_orders (lineNo : Nat) (s : State) : (slotInvalidate lineNo s).orders = s.orders := by
  simp [slotInvalidate]

@[simp] theorem baseNow_orders (lineNo : Nat) (fill : Option Filled) (s : State) :
    (baseNow lineNo fill s).2.orders = s.orders := by (simp only [baseNow]; repeat' split) <;> simp

@[simp] theorem debtAdd_orders (f : Nat) (s : State) : (debtAdd f s).orders = s.orders := by simp [debtAdd]

@[simp] theorem mirrorSend_orders (settle : Bool) (key sector : Nat) (d : Sector) (s : State) :
    (mirrorSend settle key sector d s).orders = s.orders := by simp [mirrorSend]

@[simp] theorem mirrorHook_orders (lineNo sector key : Nat) (d : Sector) (s : State) :
    (mirrorHook lineNo sector key d s).orders = s.orders := by (simp only [mirrorHook]; repeat' split) <;> simp

@[simp] theorem histRead_orders (ns : Nat) (classes : List Nat) (req key : Nat) (s : State) :
    (histRead ns classes req key s).orders = s.orders := by simp [histRead]

@[simp] theorem iceLast_orders (dpa syn key : Nat) (write : Bool) (h : Option Head) (s : State) :
    (iceLast dpa syn key write h s).orders = s.orders := by simp [iceLast]

@[simp] theorem poisonInTill_orders (lineNo : Nat) (s : State) : (poisonInTill lineNo s).orders = s.orders := by
  (simp only [poisonInTill]; repeat' split) <;> simp

@[simp] theorem poisonListAdd_orders (lineNo syn : Nat) (s : State) : (poisonListAdd lineNo syn s).orders = s.orders := by
  simp [poisonListAdd]

@[simp] theorem opIssue_orders (id : Nat) (sent : Bool) (s : State) : (opIssue id sent s).orders = s.orders := by simp [opIssue]
@[simp] theorem modChan_orders (c : Nat) (f : Chan → Chan) (s : State) : (modChan c f s).orders = s.orders := by simp [modChan]

@[simp] theorem chanCount_orders (off c : Nat) (high : Bool) (s : State) : (chanCount off c high s).orders = s.orders := by
  simp [chanCount]

@[simp] theorem countRead_orders (f : Nat) (s : State) : (countRead f s).1.orders = s.orders := by
  (simp only [countRead]; repeat' split) <;> simp

@[simp] theorem assayStart_orders (m : Nat) (patrol : Bool) (s : State) : (assayStart m patrol s).orders = s.orders := by
  simp [assayStart]

@[simp] theorem readAssay_orders (f : Nat) (s : State) : (readAssay f s).orders = s.orders := by simp [readAssay]
@[simp] theorem countHostRead_orders (f : Nat) (s : State) : (countHostRead f s).orders = s.orders := by simp [countHostRead]

@[simp] theorem modBank_orders (c pos bank : Nat) (f : Bank → Bank) (s : State) : (modBank c pos bank f s).orders = s.orders := by
  simp [modBank]

@[simp] theorem sendDie_orders (c die : Nat) (packet : BitVec 64) (s : State) : (sendDie c die packet s).orders = s.orders := by
  simp [sendDie]

@[simp] theorem sendCtl_orders (c die : Nat) (packet : BitVec 64) (s : State) : (sendCtl c die packet s).orders = s.orders := by
  simp [sendCtl]

@[simp] theorem suspendSend_orders (c pos bank : Nat) (s : State) : (suspendSend c pos bank s).orders = s.orders := by
  simp [suspendSend]

@[simp] theorem reconSense_orders (o : MOp) (bin p : Nat) (again : Bool) (s : State) :
    (reconSense o bin p again s).orders = s.orders := by simp [reconSense]

@[simp] theorem reconSenses_orders (o : MOp) (s : State) : (reconSenses o s).orders = s.orders := by simp [reconSenses]

@[simp] theorem reconNext_orders (c : Nat) (s : State) : (reconNext c s).orders = s.orders := by
  (simp only [reconNext]; repeat' split) <;> simp

@[simp] theorem reconStart_orders (c op : Nat) (bypass : Bool) (s : State) : (reconStart c op bypass s).orders = s.orders := by
  simp [reconStart]

@[simp] theorem senseSend_orders (search : Bool) (o : MOp) (s : State) : (senseSend search o s).orders = s.orders := by
  simp [senseSend]

@[simp] theorem readArrives_orders (search : Bool) (op : MOp) (s : State) : (readArrives search op s).orders = s.orders := by
  simp [readArrives]

@[simp] theorem pushOp_orders (op : MOp) (s : State) : (pushOp op s).orders = s.orders := by simp [pushOp]
@[simp] theorem stripeStart_orders (w : StripeWork) (s : State) : (stripeStart w s).orders = s.orders := by simp [stripeStart]

@[simp] theorem queueOp_orders (kind : OpKind) (purpose : Purpose) (m o : Nat) (e : LEntry) (l : MLine) (s : State) :
    (queueOp kind purpose m o e l s).orders = s.orders := by simp [queueOp]

@[simp] theorem poisonStore_orders (lineNo syn : Nat) (s : State) : (poisonStore lineNo syn s).orders = s.orders := by
  simp [poisonStore]

@[simp] theorem poisonReturn_orders (lineNo sector syn key : Nat) (h : Option Head) (s : State) :
    (poisonReturn lineNo sector syn key h s).orders = s.orders := by simp [poisonReturn]

@[simp] theorem readDone_orders (tg : Txn) (r : Except Nat Sector) (classes : List Nat) (s : State) :
    (readDone tg r classes s).orders = s.orders := by (simp only [readDone]; repeat' split) <;> simp

@[simp] theorem resvLose_orders (p : Resv → Bool) (detail : Nat) (s : State) : (resvLose p detail s).orders = s.orders := by
  simp [resvLose]

@[simp] theorem resvWrite_orders (q : Option Nat) (lineNo : Nat) (s : State) : (resvWrite q lineNo s).orders = s.orders := by
  simp [resvWrite]

@[simp] theorem sfHold_orders (h : Head) (own : Bool) (sector key : Nat) (s : State) :
    (sfHold h own sector key s).orders = s.orders := by simp [sfHold]

@[simp] theorem writeDone_orders (t : Txn) (s : State) : (writeDone t s).orders = s.orders := by simp [writeDone]

@[simp] theorem txnSettle_orders (cls : List Nat) (x : Base × State) (t : Txn) : (txnSettle cls x t).2.orders = x.2.orders := by
  unfold txnSettle
  dsimp only
  repeat' split
  all_goals simp

theorem foldl_snd_orders {α β : Type} (xs : List α) (f : β × State → α → β × State) (a : β × State)
    (hf : ∀ a x, (f a x).2.orders = a.2.orders) : (xs.foldl f a).2.orders = a.2.orders := by
  induction xs generalizing a with
  | nil => rfl
  | cons x xs ih => rw [List.foldl_cons, ih, hf]

@[simp] theorem lineSettle_orders (ts : List Txn) (l : Nat) (s : State) : (lineSettle ts l s).orders = s.orders := by
  unfold lineSettle
  dsimp only
  rw [foldl_snd_orders _ _ _ fun a x => txnSettle_orders _ _ _]
  repeat' split
  all_goals grind [baseNow_orders, baseFilled_orders]

@[simp] theorem dropOp_orders (id : Nat) (s : State) : (dropOp id s).orders = s.orders := by simp [dropOp]
@[simp] theorem sensesDue_orders (c : Nat) (s : State) : (sensesDue c s).orders = s.orders := by simp [sensesDue]
@[simp] theorem opsDrop_orders (p : MOp → Bool) (s : State) : (opsDrop p s).orders = s.orders := by simp [opsDrop]
@[simp] theorem takenDrop_orders (p : Taken → Bool) (s : State) : (takenDrop p s).orders = s.orders := by simp [takenDrop]
@[simp] theorem readsSettle_orders (f : Nat) (s : State) : (readsSettle f s).orders = s.orders := by simp [readsSettle]

@[simp] theorem ctrStore_orders (sc b : Nat) (c : CtrBlock) (s : State) : (ctrStore sc b c s).orders = s.orders := by
  simp [ctrStore]

@[simp] theorem derivedDrop_orders (p : Nat × Nat × Nat → Bool) (s : State) : (derivedDrop p s).orders = s.orders := by
  simp [derivedDrop]

@[simp] theorem queueBlank_orders (m set1 : Nat) (s : State) : (queueBlank m set1 s).orders = s.orders := by simp [queueBlank]

@[simp] theorem folioPoisonDrop_orders (f : Nat) (s : State) : (folioPoisonDrop f s).orders = s.orders := by
  simp [folioPoisonDrop]

@[simp] theorem meterUpdate_orders (s : State) : (meterUpdate s).orders = s.orders := by simp [meterUpdate]
@[simp] theorem forwardSend_orders (tg : Txn) (s : State) : (forwardSend tg s).2.orders = s.orders := by simp [forwardSend]

@[simp] theorem ringSnoop_orders (by_ : Option Nat) (write : Bool) (l : Nat) (s : State) :
    (ringSnoop by_ write l s).orders = s.orders := by simp [ringSnoop]

@[simp] theorem slotCorrected_orders (n : Nat) (s : State) : (slotCorrected n s).orders = s.orders := by simp [slotCorrected]
@[simp] theorem slotUncorr_orders (s : State) : (slotUncorr s).orders = s.orders := by simp [slotUncorr]
@[simp] theorem slotLineBad_orders (l : Nat) (s : State) : (slotLineBad l s).orders = s.orders := by simp [slotLineBad]

@[simp] theorem slotMetaBad_orders (l : Nat) (s : State) : (slotMetaBad l s).2.orders = s.orders := by
  (simp only [slotMetaBad]; repeat' split) <;> simp

@[simp] theorem slotReread_orders (k : Nat) (raw : BitVec 2304) (p : PSlot) (s : State) :
    (slotReread k raw p s).orders = s.orders := by simp [slotReread]

@[simp] theorem slotCheck_orders (l : Nat) (s : State) : (slotCheck l s).2.orders = s.orders := by
  (simp only [slotCheck]; repeat' split) <;> simp

@[simp] theorem snoopSend_orders (h : Head) (sector key : Nat) (inval : Bool) (s : State) :
    (snoopSend h sector key inval s).orders = s.orders := by simp [snoopSend]

@[simp] theorem snoopNeed_orders (h : Option Head) (own alloc : Bool) (sector : Nat) (s : State) :
    (snoopNeed h own alloc sector s).2.orders = s.orders := by (simp only [snoopNeed]; repeat' split) <;> simp

@[simp] theorem accessWait_orders (t : Txn) (s : State) : (accessWait t s).2.orders = s.orders := by
  unfold accessWait
  repeat' split
  all_goals grind [forwardSend_orders, slotCheck_orders, snoopNeed_orders, ringSnoop_orders]

@[simp] theorem modOp_orders (id : Nat) (f : MOp → MOp) (s : State) : (modOp id f s).orders = s.orders := by simp [modOp]
@[simp] theorem sliceCount_orders (lineNo k : Nat) (s : State) : (sliceCount lineNo k s).orders = s.orders := by simp [sliceCount]

@[simp] theorem missStart_orders (t : Txn) (s : State) : (missStart t s).2.orders = s.orders := by
  (simp only [missStart]; repeat' split) <;> simp

@[simp] theorem baseOrMiss_orders (t : Txn) (fill : Option Filled) (s : State) : (baseOrMiss t fill s).2.orders = s.orders := by
  unfold baseOrMiss
  repeat' split
  all_goals grind [baseNow_orders, missStart_orders]

@[simp] theorem serveRead_orders (fill : Option Filled) (bi : Bool) (t : Txn) (s : State) :
    (serveRead fill bi t s).2.orders = s.orders := by
  unfold serveRead
  repeat' split
  all_goals grind [baseOrMiss_orders, snoopNeed_orders, sliceCount_orders, sfHold_orders, readDone_orders]

@[simp] theorem sboxWrite_orders (tweak : Nat) (d : Sector) (s : State) : (sboxWrite tweak d s).orders = s.orders := by
  simp [sboxWrite]

@[simp] theorem serveSbox_orders (bi : Bool) (t : Txn) (s : State) : (serveSbox bi t s).2.orders = s.orders := by
  (simp only [serveSbox]; repeat' split) <;> simp

@[simp] theorem expressLine_orders (t : Txn) (s : State) : (expressLine t s).orders = s.orders := by simp [expressLine]

@[simp] theorem takeStart_orders (r : Taker) (count : Bool) (l : Nat) (s : State) :
    (takeStart r count l s).orders = s.orders := by (simp only [takeStart]; repeat' split) <;> simp

@[simp] theorem takeReady_orders (r : Taker) (count : Bool) (l : Nat) (s : State) :
    (takeReady r count l s).2.orders = s.orders := by (simp only [takeReady]; repeat' split) <;> simp

@[simp] theorem recoinReady_orders (b : Nat) (x0 : List Nat) (s : State) : (recoinReady b x0 s).2.orders = s.orders := by
  induction x0 generalizing s with
  | nil => rfl
  | cons i r ih => simp [recoinReady, ih]

@[simp] theorem recoinStart_orders (b : Nat) (s : State) : (recoinStart b s).orders = s.orders := by
  unfold recoinStart
  repeat' split
  all_goals grind [ctrFetch_orders, recoinReady_orders, pageQueue_orders, State.modCry_orders]

@[simp] theorem writeAck_orders (tg : Txn) (s : State) : (writeAck tg s).2.orders = s.orders := by
  (simp only [writeAck]; repeat' split) <;> simp

@[simp] theorem writeDiscarded_orders (dpa key : Nat) (s : State) : (writeDiscarded dpa key s).orders = s.orders := by
  simp [writeDiscarded]

@[simp] theorem poisonListDrop_orders (lineNo : Nat) (s : State) : (poisonListDrop lineNo s).orders = s.orders := by
  simp [poisonListDrop]

@[simp] theorem stageCopy_orders (agent l : Nat) (s : State) : (stageCopy agent l s).orders = s.orders := by simp [stageCopy]
@[simp] theorem tallyAdvance_orders (c u : Nat) (s : State) : (tallyAdvance c u s).orders = s.orders := by simp [tallyAdvance]

@[simp] theorem nextEpoch_orders (s : State) : (nextEpoch s).2.orders = s.orders := by
  (simp only [nextEpoch]; repeat' split) <;> simp

@[simp] theorem ctrReinit_orders (b : Nat) (s : State) : (ctrReinit b s).2.orders = s.orders := by
  unfold ctrReinit
  repeat' split
  all_goals grind [nextEpoch_orders, raise_orders, State.modCry_orders]

@[simp] theorem encLine_orders (lineNo : Nat) (plain : Line) (s : State) : (encLine lineNo plain s).2.orders = s.orders := by
  unfold encLine
  all_goals grind [ctrFetch_orders, ctrReinit_orders, ctrStore_orders, bump_orders, derivedKey_orders]

@[simp] theorem evictVictim_orders (k : Nat) (v : PSlot) (s : State) : (evictVictim k v s).orders = s.orders := by
  simp [evictVictim]

@[simp] theorem overdraftUpdate_orders (s : State) : (overdraftUpdate s).orders = s.orders := by simp [overdraftUpdate]

@[simp] theorem overdraftPut_orders (lineNo : Nat) (l : PLine) (s : State) : (overdraftPut lineNo l s).orders = s.orders := by
  simp [overdraftPut]

@[simp] theorem ringAppend_orders (express : Bool) (lineNo : Nat) (g : BitVec 6) (s : State) :
    (ringAppend express lineNo g s).orders = s.orders := by simp [ringAppend]

@[simp] theorem placeDirty_orders (lineNo : Nat) (l : PLine) (s : State) : (placeDirty lineNo l s).orders = s.orders := by
  (simp only [placeDirty]; repeat' split) <;> simp

@[simp] theorem mergeLine_orders (lineNo : Nat) (plain : Line) (poison : Bool) (rew : BitVec 4) (s : State) :
    (mergeLine lineNo plain poison rew s).2.orders = s.orders := by
  unfold mergeLine
  repeat' split
  all_goals grind [encLine_orders, sliceCount_orders, placeDirty_orders]

@[simp] theorem mergePoison_orders (lineNo : Nat) (b : Base) (s : State) : (mergePoison lineNo b s).2.orders = s.orders := by
  (simp only [mergePoison]; repeat' split) <;> simp

@[simp] theorem mergeSector_orders (lineNo : Nat) (b : Base) (w : SecWrite) (s : State) :
    (mergeSector lineNo b w s).2.orders = s.orders := by (simp only [mergeSector]; repeat' split) <;> simp

@[simp] theorem spillLine_orders (lineNo : Nat) (p : PLine) (s : State) : (spillLine lineNo p s).orders = s.orders := by
  simp [spillLine]

@[simp] theorem toOverdraft_orders (lineNo : Nat) (s : State) : (toOverdraft lineNo s).orders = s.orders := by
  (simp only [toOverdraft]; repeat' split) <;> simp

@[simp] theorem writeBy_orders (q : Option Nat) (lineNo key : Nat) (b : Base) (w : SecWrite) (mirror : Bool) (s : State) :
    (writeBy q lineNo key b w mirror s).2.orders = s.orders := by
  (simp only [writeBy]; repeat' split) <;> simp

@[simp] theorem writeNow_orders (lineNo key : Nat) (b : Base) (w : SecWrite) (mirror : Bool) (s : State) :
    (writeNow lineNo key b w mirror s).2.orders = s.orders := by simp [writeNow]

@[simp] theorem writeTxn_orders (t : Txn) (b : Base) (s : State) : (writeTxn t b s).2.orders = s.orders := by
  (simp only [writeTxn]; repeat' split) <;> simp

@[simp] theorem serveWrite_orders (fill : Option Filled) (t : Txn) (s : State) : (serveWrite fill t s).2.orders = s.orders := by
  unfold serveWrite
  repeat' split
  all_goals grind [writeDone_orders, rinc_orders, writeDiscarded_orders, recoinStart_orders, baseOrMiss_orders,
    writeTxn_orders, writeAck_orders, expressLine_orders]

@[simp] theorem serve_orders (fill : Option Filled) (bi : Bool) (t : Txn) (s : State) :
    (serve fill bi t s).2.orders = s.orders := by
  unfold serve
  repeat' split
  all_goals grind [serveSbox_orders, accessWait_orders, serveWrite_orders, serveRead_orders]

@[simp] theorem serveList_orders (fill : Option Filled) (x1 : List Txn) (x2 : State) :
    (serveList fill x1 x2).2.orders = x2.orders := by
  induction x1 generalizing x2 with
  | nil => rfl
  | cons t r ih =>
    simp only [serveList]
    have h := fun b => serve_orders fill b t x2
    repeat' split
    all_goals simp [ih]
    all_goals grind

@[simp] theorem retryLine_orders (fill : Option Filled) (lineNo : Nat) (s : State) :
    (retryLine fill lineNo s).orders = s.orders := by simp [retryLine]

@[simp] theorem admitWaiting_orders (s : State) : (admitWaiting s).orders = s.orders := by
  (simp only [admitWaiting]; repeat' split) <;> simp

@[simp] theorem admitRoom_orders (x0 : Nat) (s : State) : (admitRoom x0 s).orders = s.orders := by
  induction x0 generalizing s with
  | zero => rfl
  | succ n ih => simp [admitRoom, ih]

@[simp] theorem mapDescs_orders (f : Desc → Desc) (s : State) : (mapDescs f s).orders = s.orders := by simp [mapDescs]

@[simp] theorem rxAcks_orders (p : Nat → Bool) (s : State) : (rxAcks p s).orders = s.orders := by
  exact forEach_orders _ _ _ fun _ _ => rfl

@[simp] theorem descDrop_orders (p : Nat → Bool) (clean : Bool) (s : State) : (descDrop p clean s).orders = s.orders := by
  simp [descDrop]

@[simp] theorem resvTouch_orders (p : Nat → Bool) (s : State) : (resvTouch p s).orders = s.orders := by simp [resvTouch]
@[simp] theorem lateDropped_orders (f : Nat) (s : State) : (lateDropped f s).orders = s.orders := by simp [lateDropped]

@[simp] theorem modMbx_orders (p : MbxPort) (f : Mailbox → Mailbox) (s : State) : (modMbx p f s).orders = s.orders := by
  (simp only [modMbx]; repeat' split) <;> simp

@[simp] theorem classDone_orders (own rc : Nat) (s : State) : (classDone own rc s).orders = s.orders := by
  (simp only [classDone]; repeat' split) <;> simp

@[simp] theorem migOpsDrop_orders (f : Nat) (s : State) : (migOpsDrop f s).orders = s.orders := by simp [migOpsDrop]

@[simp] theorem migCut_orders (f : Nat) (s : State) : (migCut f s).orders = s.orders := by
  (simp only [migCut]; repeat' split) <;> simp

@[simp] theorem overdraftDrop_orders (f : Nat) (s : State) : (overdraftDrop f s).orders = s.orders := by simp [overdraftDrop]
@[simp] theorem sweepDrop_orders (f : Nat) (s : State) : (sweepDrop f s).orders = s.orders := by simp [sweepDrop]

@[simp] theorem nextMajor_orders (cur : BitVec 64) (inc : Nat) (s : State) : (nextMajor cur inc s).2.orders = s.orders := by
  (simp only [nextMajor]; repeat' split) <;> simp

@[simp] theorem takeBase_orders (r : Taker) (l : Nat) (s : State) : (takeBase r l s).2.orders = s.orders := by
  unfold takeBase
  repeat' split
  all_goals grind [baseNow_orders, takenDrop_orders, baseFilled_orders]

@[simp] theorem recoinPlain_orders (lineNo : Nat) (s : State) : (recoinPlain lineNo s).2.orders = s.orders := by
  (simp only [recoinPlain]; repeat' split) <;> simp

@[simp] theorem recoinLines_orders (b : Nat) (x1 : List Nat) (x2 : State) : (recoinLines b x1 x2).2.orders = x2.orders := by
  induction x1 generalizing x2 with
  | nil => rfl
  | cons i r ih =>
    simp only [recoinLines]
    split <;> simp [ih]

@[simp] theorem recoinTo_orders (b : Nat) (major : BitVec 64) (s : State) : (recoinTo b major s).orders = s.orders := by
  unfold recoinTo
  dsimp only
  repeat' split
  all_goals simp

@[simp] theorem abandonRecoin_orders (n : Nat) (s : State) : (abandonRecoin n s).orders = s.orders := by
  simp only [abandonRecoin, State.modCry_orders]
  refine forEach_orders _ _ _ fun e s => ?_
  have h := nextMajor_orders e.2.major 1 s
  split <;> simp_all [recoinTo_orders]

end Sys2Proof.Machine
end

section
/-! A firing that takes effect: what every one of them records, and what the actions without a set and without a line do (R224, R228, R231,
R243, R307, R434). -/

namespace Sys2Proof.Machine

open Sys2Proof

/-! The common part (R228, R243). -/

/-- How many frames after its FIRE_TIME a firing takes effect (R228). -/
def Firing.lateness (f : Firing) : Nat := (f.frame - f.fireTime) / 1024

/-- A firing is no longer issued, and counted. -/
def Orders.taken (f : Firing) (o : Orders) : Orders :=
  { o with firings := o.firings.erase f, fired := satAdd 0xFFFFFFFF o.fired 1,
           late := if 0 < Firing.lateness f then satAdd 0xFFFFFFFF o.late 1 else o.late }

/-- An entry's largest lateness with a firing's. -/
def SoEntry.delayed (f : Firing) (e : SoEntry) : SoEntry := { e with lateMax := max e.lateMax (min (Firing.lateness f) 0xFFFF) }

/-- A firing counted, before its lateness is held against the limit. -/
def fireTally (f : Firing) (s : State) : State :=
  modSo f.entry (SoEntry.delayed f)
    (bump 640 1 (if 0 < Firing.lateness f then bump 641 1 (s.modSo (Orders.taken f)) else s.modSo (Orders.taken f)))

/-- What a firing counted comes to. -/
def State.fireTallied (f : Firing) (s : State) : State :=
  ((if 0 < Firing.lateness f then (s.modSo (Orders.taken f)).counted 641 1 else s.modSo (Orders.taken f)).counted 640 1).modSo fun o =>
    { o with entries := tmod soEntry0 o.entries f.entry (SoEntry.delayed f) }

theorem fireTally_noted (f : Firing) (s : State) : Noted (s.fireTallied f) (fireTally f s) :=
  ((Noted.ite _ ((Noted.refl _).bump 641 1) (.refl _)).bump 640 1).modSo _

theorem fired_eq (f : Firing) (s : State) :
    s.fired f = if rval s 0x6100C % 256 < Firing.lateness f then rbit (s.fireTallied f) 0x61000 10 else s.fireTallied f := by
  have htally : s.fireTallied f = ((if 0 < Firing.lateness f then
      (s.modSo fun o => { o.taken f with entries := tmod soEntry0 o.entries f.entry (SoEntry.delayed f) }).counted 641 1
      else s.modSo fun o => { o.taken f with entries := tmod soEntry0 o.entries f.entry (SoEntry.delayed f) })).counted 640 1 := by
    rw [State.fireTallied]; split <;> rfl
  rw [htally]; rfl

/-- A firing's lateness held against the limit. -/
def fireLate (f : Firing) (d : Det) (s : State) : State :=
  if rval (fireTally f s) 0x6100C % 256 < Firing.lateness f then raise 7 1 0x02 d (rbit (fireTally f s) 0x61000 10) else fireTally f s

theorem fireCount_eq (f : Firing) (s : State) :
    ∃ d, fireCount f s = if bit (soFlags f.bytes) 0 then raise 7 1 0x01 d (fireLate f d s) else fireLate f d s := ⟨_, rfl⟩

theorem fireTallied_rget (f : Firing) (s : State) (k : Nat) : rget (s.fireTallied f) k = rget s k := by
  rw [State.fireTallied]; split <;> rfl

/-- A firing is counted and its lateness recorded (R228); what it raises beside (LATE, FIRED) is all there is more. -/
theorem fireCount_noted (f : Firing) (s : State) : Noted (s.fired f) (fireCount f s) := by
  obtain ⟨d, hd⟩ := fireCount_eq f s
  have htally := fireTally_noted f s
  have hlimit : rval (fireTally f s) 0x6100C = rval s 0x6100C := by
    rw [rval, htally.rget _ (.inr (by decide)), fireTallied_rget]; rfl
  have hlate : Noted (s.fired f) (fireLate f d s) := by
    rw [fired_eq, fireLate, hlimit]
    exact .ite _ ((htally.rbit _ 10 (.inr (by decide))).raise 7 1 0x02 d) htally
  rw [hd]
  split
  · exact hlate.raise 7 1 0x01 d
  · exact hlate

/-- A firing counted changes the orders, the counts and the registers. -/
theorem fired_form (f : Firing) (s : State) :
    s.fired f = ((s.modSo fun _ => (s.fired f).so).modEv fun _ => (s.fired f).ev).setRegs (s.fired f).regs := by
  rw [fired_eq, State.fireTallied]
  split <;> split <;> rfl

theorem fired_firings (f : Firing) (s : State) : (s.fired f).so.firings = s.so.firings.erase f := by
  rw [fired_eq, State.fireTallied]
  split <;> split <;> rfl

theorem fireCount_firings (f : Firing) (s : State) : (fireCount f s).so.firings = s.so.firings.erase f := by
  rw [(fireCount_noted f s).so, fired_firings]

theorem fireCount_board (f : Firing) (s : State) : (fireCount f s).board = s.board := by
  rw [(fireCount_noted f s).board, fired_form]; rfl

theorem fireCount_med (f : Firing) (s : State) : (fireCount f s).med = s.med := by
  rw [(fireCount_noted f s).med, fired_form]; rfl

theorem fireCount_led (f : Firing) (s : State) : (fireCount f s).led = s.led := by
  rw [(fireCount_noted f s).led, fired_form]; rfl

theorem fireCount_pur (f : Firing) (s : State) : (fireCount f s).pur = s.pur := by
  rw [(fireCount_noted f s).pur, fired_form]; rfl

theorem fireCount_esc (f : Firing) (s : State) : (fireCount f s).esc = s.esc := by
  rw [(fireCount_noted f s).esc, fired_form]; rfl

theorem fireCount_cry (f : Firing) (s : State) : (fireCount f s).cry = s.cry := by
  rw [(fireCount_noted f s).cry, fired_form]; rfl

theorem fireCount_mov (f : Firing) (s : State) : (fireCount f s).mov = s.mov := by
  rw [(fireCount_noted f s).mov, fired_form]; rfl

theorem fireCount_ctl (f : Firing) (s : State) : (fireCount f s).ctl = s.ctl := by
  rw [(fireCount_noted f s).ctl, fired_form]; rfl

theorem fireCount_txns (f : Firing) (s : State) : (fireCount f s).fe.txns = s.fe.txns := by
  rw [(fireCount_noted f s).txns, fired_form]; rfl

theorem fireCount_ent (f : Firing) (s : State) (h : Nat) : ent (fireCount f s) h = ent s h := by rw [ent, ent, fireCount_led]

theorem fireCount_fired {f : Firing} (h : soFlags f.bytes % 2 = 1) (s : State) : Pends 7 1 0x01 (fireCount f s) := by
  obtain ⟨d, hd⟩ := fireCount_eq f s
  rw [hd, show bit (soFlags f.bytes) 0 = true by simpa [bit] using h]
  exact raise_pends_low 7 1 0x01 d _ (by decide) (by decide) (by decide)

/-! Whether a firing takes effect (R224, R230), and what each action's effect is. -/

/-- A channel's window begins (R231). -/
def quietStart (c frame : Nat) (s : State) : State :=
  if tget 0 s.so.quiet c != 0 then s
  else quietNow c (s.modSo fun o => { o with quiet := tput 0 o.quiet c (frame + 1), quietEndAt := tput 0 o.quietEndAt c 0 })

/-- A created queue's closed gate opens (R307). -/
def queueStarted (q : Nat) (s : State) : State :=
  match queueAt s q with
  | some x => if x.gateClosed then raise 8 17 0x04 ((det3 q 0).on x.head) (gateOpenOp q s) else s
  | none => s

theorem exec_nopOrder (i : Nat) (s : State) : exec (.nopOrder i) s = fireRun i 0 (fun _ s => s) s := rfl

theorem exec_prefetchOrder (i : Nat) (s : State) :
    exec (.prefetchOrder i) s = fireRun i 1 (fun f s => prefetchEffect f (releasesFirst f s)) s := rfl

theorem exec_releaseOrder (i : Nat) (s : State) : exec (.releaseOrder i) s = fireRun i 2 releaseEffect s := rfl

theorem exec_queueStart (i : Nat) (s : State) :
    exec (.queueStart i) s = fireRun i 3 (fun f s => queueStarted (soArg f.bytes 0 2) s) s := rfl

theorem exec_quietBegin (i : Nat) (s : State) :
    exec (.quietBegin i) s = fireRun i 4 (fun f s => forEach (maskChans s (soArg f.bytes 0 4)) (fun c s => quietStart c f.frame s) s) s := rfl

theorem exec_quietEnd (i : Nat) (s : State) :
    exec (.quietEnd i) s = fireRun i 5 (fun f s => forEach (maskChans s (soArg f.bytes 0 4)) (fun c s => quietStop c f.frame s) s) s := rfl

theorem exec_auditOrder (i : Nat) (s : State) :
    exec (.auditOrder i) s = fireRun i 6 (fun f s => snapRequest f.frame (BitVec.ofNat 16 (soTag f.bytes)) 0 s) s := rfl

theorem exec_markerOrder (i : Nat) (s : State) : exec (.markerOrder i) s = fireRun i 7 (fun f s =>
    raise 7 1 0x07 (det4 f.entry (soTag f.bytes) ((f.frame - f.fireTime) / 1024) f.fireTime) s) s := rfl

theorem fireRun_skips {i a : Nat} {effect : Firing → State → State} {s : State}
    (h : s.sup.tripped = true ∨ s.so.halted = true ∨ firingNow s i a = none) : fireRun i a effect s = .next s := by
  rcases h with h | h | h <;> simp [fireRun, h]

theorem fireRun_fires {i a : Nat} {effect : Firing → State → State} {f : Firing} {s : State} (htrip : s.sup.tripped = false)
    (hhalt : s.so.halted = false) (hnow : firingNow s i a = some f) : fireRun i a effect s = .next (effect f (fireCount f s)) := by
  simp [fireRun, htrip, hhalt, hnow]

theorem order_skips {i a : Nat} {s : State} {c : Instr}
    (hc : (a, c) ∈ [(0, Instr.nopOrder i), (1, .prefetchOrder i), (2, .releaseOrder i), (3, .queueStart i), (4, .quietBegin i),
      (5, .quietEnd i), (6, .auditOrder i), (7, .markerOrder i)])
    (h : s.sup.tripped = true ∨ s.so.halted = true ∨ firingNow s i a = none) : exec c s = .next s := by
  simp only [List.mem_cons, Prod.mk.injEq, List.not_mem_nil, or_false] at hc
  rcases hc with ⟨rfl, rfl⟩ | ⟨rfl, rfl⟩ | ⟨rfl, rfl⟩ | ⟨rfl, rfl⟩ | ⟨rfl, rfl⟩ | ⟨rfl, rfl⟩ | ⟨rfl, rfl⟩ | ⟨rfl, rfl⟩
  · exact (exec_nopOrder i s).trans (fireRun_skips h)
  · exact (exec_prefetchOrder i s).trans (fireRun_skips h)
  · exact (exec_releaseOrder i s).trans (fireRun_skips h)
  · exact (exec_queueStart i s).trans (fireRun_skips h)
  · exact (exec_quietBegin i s).trans (fireRun_skips h)
  · exact (exec_quietEnd i s).trans (fireRun_skips h)
  · exact (exec_auditOrder i s).trans (fireRun_skips h)
  · exact (exec_markerOrder i s).trans (fireRun_skips h)

theorem Noted.snapRequest {s t : State} (h : Noted s t) (at_ : Nat) (tag : BitVec 16) (who : Nat) :
    Noted (snapRequest at_ tag who s) (Machine.snapRequest at_ tag who t) := by
  obtain ⟨hbare, hev, hrest⟩ := h
  exact ⟨hbare, congrArg (fun e : Events => { e with snapReqs := e.snapReqs ++ [SnapReq.mk at_ tag who] }) hev, hrest⟩

/-! NOP, MARKER and AUDIT (R224, R434). -/

section
variable {i : Nat} {f : Firing} {s : State} (htrip : s.sup.tripped = false) (hhalt : s.so.halted = false)
include htrip hhalt

theorem nopOrder_spec (hnow : firingNow s i 0 = some f) :
    ∃ t, exec (.nopOrder i) s = .next t ∧ Noted (s.fired f) t ∧ (soFlags f.bytes % 2 = 1 → Pends 7 1 0x01 t) :=
  ⟨_, (exec_nopOrder i s).trans (fireRun_fires htrip hhalt hnow), fireCount_noted f s, fun h => fireCount_fired h s⟩

theorem markerOrder_spec (hnow : firingNow s i 7 = some f) :
    ∃ t, exec (.markerOrder i) s = .next t ∧ Noted (s.fired f) t ∧ Pends 7 1 0x07 t :=
  ⟨_, (exec_markerOrder i s).trans (fireRun_fires htrip hhalt hnow), (fireCount_noted f s).raise _ _ _ _,
    raise_pends_low 7 1 0x07 _ _ (by decide) (by decide) (by decide)⟩

theorem auditOrder_spec (hnow : firingNow s i 6 = some f) : ∃ t, exec (.auditOrder i) s = .next t ∧
    Noted ((s.fired f).modEv fun e => { e with snapReqs := e.snapReqs ++ [⟨f.frame, BitVec.ofNat 16 (soTag f.bytes), 0⟩] }) t :=
  ⟨_, (exec_auditOrder i s).trans (fireRun_fires htrip hhalt hnow), (fireCount_noted f s).snapRequest _ _ _⟩

end

/-! Quiet windows (R103, R231). -/

/-- A fold whose steps each change what they look at of their own element, once an element. -/
theorem forEach_pointwise {β : Type} (look : State → Nat → β) (w : β → β) {g : Nat → State → State}
    (hsame : ∀ c s, look (g c s) c = w (look s c)) (hne : ∀ c d s, d ≠ c → look (g c s) d = look s d) {cs : List Nat} (hcs : cs.Nodup)
    (s : State) (d : Nat) : look (forEach cs g s) d = if d ∈ cs then w (look s d) else look s d := by
  induction cs generalizing s with
  | nil => rfl
  | cons c cs ih =>
    obtain ⟨hc, hcs⟩ := List.nodup_cons.mp hcs
    rw [show forEach (c :: cs) g s = forEach cs g (g c s) from rfl, ih hcs]
    by_cases hd : d = c
    · subst hd; simp [hc, hsame]
    · simp [hd, hne c d s hd]

/-- A channel's window: when it began, plus 1, and when the last one ended, plus 1. -/
def window (s : State) (c : Nat) : Nat × Nat := (tget 0 s.so.quiet c, tget 0 s.so.quietEndAt c)

/-- A channel's window set, and its frame in progress with it. -/
def quietPut (c b e : Nat) (s : State) : State :=
  quietNow c (s.modSo fun o => { o with quiet := tput 0 o.quiet c b, quietEndAt := tput 0 o.quietEndAt c e })

/-- Only windows have moved, and what the frames in progress have of them. -/
def QuietOnly (s t : State) : Prop :=
  (t.modMed fun m => { m with chans := s.med.chans }) = (s.modSo fun o => { o with quiet := t.so.quiet, quietEndAt := t.so.quietEndAt }) ∧
  ∀ c, chan t c = { chan s c with quiet := (chan t c).quiet }

theorem QuietOnly.refl (s : State) : QuietOnly s s := ⟨rfl, fun _ => rfl⟩

theorem QuietOnly.trans {a b c : State} (h : QuietOnly a b) (g : QuietOnly b c) : QuietOnly a c := by
  obtain ⟨h, hc⟩ := h
  obtain ⟨g, gc⟩ := g
  refine ⟨?_, fun d => by rw [gc d, hc d]⟩
  have e := congrArg (fun s => (s.modMed fun m => { m with chans := a.med.chans })) g
  have e' := congrArg (fun s => (s.modSo fun o => { o with quiet := c.so.quiet, quietEndAt := c.so.quietEndAt })) h
  exact e.trans e'

theorem quietNow_so (c : Nat) (s : State) : (quietNow c s).so = s.so := by
  rw [quietNow]; split <;> rfl

theorem chan_quietNow_ne {c d : Nat} (h : d ≠ c) (s : State) : chan (quietNow c s) d = chan s d := by
  rw [quietNow]; split
  · exact chan_modChan_ne _ _ _ _ h
  · rfl

theorem quietNow_quietOnly (c : Nat) (s : State) : QuietOnly s (quietNow c s) := by
  rw [quietNow]; split
  · refine ⟨rfl, fun d => ?_⟩
    rw [chan_modChan]; split
    · rfl
    · rfl
  · exact .refl s

theorem quietPut_quietOnly (c b e : Nat) (s : State) : QuietOnly s (quietPut c b e s) :=
  .trans (b := s.modSo fun o => { o with quiet := tput 0 o.quiet c b, quietEndAt := tput 0 o.quietEndAt c e }) ⟨rfl, fun _ => rfl⟩
    (quietNow_quietOnly c _)

theorem window_quietPut_same (c b e : Nat) (s : State) : window (quietPut c b e s) c = (b, e) := by
  rw [window, quietPut, quietNow_so]; simp

theorem window_quietPut_ne {c d : Nat} (h : d ≠ c) (b e : Nat) (s : State) : window (quietPut c b e s) d = window s d := by
  rw [window, quietPut, quietNow_so]; simp [window, tget_tput_ne _ _ _ _ _ _ h]

theorem quietStart_eq (c frame : Nat) (s : State) :
    quietStart c frame s = if (window s c).1 = 0 then quietPut c (frame + 1) 0 s else s := by
  by_cases h : tget 0 s.so.quiet c = 0 <;> simp [quietStart, window, quietPut, h]

theorem quietStop_eq (c t : Nat) (s : State) :
    quietStop c t s = if (window s c).1 = 0 then s else quietPut c 0 (t + 1) s := by
  by_cases h : tget 0 s.so.quiet c = 0 <;> simp [quietStop, window, quietPut, h]

theorem quietStart_quietOnly (frame c : Nat) (s : State) : QuietOnly s (quietStart c frame s) := by
  rw [quietStart_eq]; split
  · exact quietPut_quietOnly _ _ _ _
  · exact .refl s

theorem quietStop_quietOnly (t c : Nat) (s : State) : QuietOnly s (quietStop c t s) := by
  rw [quietStop_eq]; split
  · exact .refl s
  · exact quietPut_quietOnly _ _ _ _

/-- A window after its beginning at a frame, and after its end. -/
def begun (frame : Nat) (w : Nat × Nat) : Nat × Nat := if w.1 = 0 then (frame + 1, 0) else w
def ended (t : Nat) (w : Nat × Nat) : Nat × Nat := if w.1 = 0 then w else (0, t + 1)

theorem window_quietStart_same (frame c : Nat) (s : State) : window (quietStart c frame s) c = begun frame (window s c) := by
  rw [quietStart_eq, begun]; split
  · exact window_quietPut_same _ _ _ _
  · rfl

theorem window_quietStart_ne (frame c d : Nat) (s : State) (h : d ≠ c) : window (quietStart c frame s) d = window s d := by
  rw [quietStart_eq]; split
  · exact window_quietPut_ne h _ _ _
  · rfl

theorem window_quietStop_same (t c : Nat) (s : State) : window (quietStop c t s) c = ended t (window s c) := by
  rw [quietStop_eq, ended]; split
  · rfl
  · exact window_quietPut_same _ _ _ _

theorem window_quietStop_ne (t c d : Nat) (s : State) (h : d ≠ c) : window (quietStop c t s) d = window s d := by
  rw [quietStop_eq]; split
  · rfl
  · exact window_quietPut_ne h _ _ _

theorem mem_maskChans {s : State} {mask c : Nat} : c ∈ maskChans s mask ↔ c ∈ popChans s ∧ mask.testBit c = true := by
  rw [maskChans, List.mem_filter, bit_eq_testBit]

theorem maskChans_nodup {s : State} (h : boardOk s = true) (mask : Nat) : (maskChans s mask).Nodup := (popChans_nodup h).filter _

theorem maskChans_of_board {s t : State} (h : t.board = s.board) (mask : Nat) : maskChans t mask = maskChans s mask := by
  rw [maskChans, maskChans, popChans_of_board h]

theorem fired_so (f : Firing) (s : State) : (s.fired f).so = (s.fireTallied f).so := by
  rw [fired_eq]; split <;> rfl

theorem fireTallied_window (f : Firing) (s : State) (c : Nat) : window (s.fireTallied f) c = window s c := by
  rw [State.fireTallied]; split <;> rfl

theorem Noted.window {s t : State} (h : Noted s t) (c : Nat) : window t c = Machine.window s c := by
  rw [Machine.window, Machine.window, h.so]

theorem fireCount_window (f : Firing) (s : State) (c : Nat) : window (fireCount f s) c = window s c := by
  rw [(fireCount_noted f s).window, window, fired_so]; exact fireTallied_window f s c

/-- What a fold over the windows leaves, told from before the firing was counted. -/
theorem QuietOnly.of_fired {f : Firing} {s t : State} (h : QuietOnly (fireCount f s) t) :
    Noted ((s.fired f).modSo fun o => { o with quiet := t.so.quiet, quietEndAt := t.so.quietEndAt })
      (t.modMed fun m => { m with chans := s.med.chans }) ∧ ∀ c, chan t c = { chan s c with quiet := (chan t c).quiet } := by
  have hcount := fireCount_noted f s
  have hmed : (fireCount f s).med = s.med := fireCount_med f s
  obtain ⟨heq, hchan⟩ := h
  refine ⟨?_, fun c => by rw [hchan c, chan_of_med hmed]⟩
  rw [hmed] at heq
  rw [heq]
  exact hcount.modSo _

/-- A firing that acts on the windows of its masked channels, one by one. -/
theorem quietFiring_spec {f : Firing} {s : State} {g : Nat → State → State} {w : Nat × Nat → Nat × Nat} (hboard : boardOk s = true)
    (honly : ∀ c s, QuietOnly s (g c s)) (hsame : ∀ c s, window (g c s) c = w (window s c))
    (hne : ∀ c d s, d ≠ c → window (g c s) d = window s d) :
    ∃ t, forEach (maskChans (fireCount f s) (soArg f.bytes 0 4)) g (fireCount f s) = t ∧
      Noted ((s.fired f).modSo fun o => { o with quiet := t.so.quiet, quietEndAt := t.so.quietEndAt })
        (t.modMed fun m => { m with chans := s.med.chans }) ∧ (∀ c, chan t c = { chan s c with quiet := (chan t c).quiet }) ∧
      ∀ c, window t c = if c ∈ popChans s ∧ (soArg f.bytes 0 4).testBit c = true then w (window s c) else window s c := by
  have hmask := maskChans_of_board (fireCount_board f s) (soArg f.bytes 0 4)
  have hquiet := (forEach_related (R := QuietOnly) .refl .trans (maskChans s (soArg f.bytes 0 4)) honly (fireCount f s)).of_fired
  refine ⟨_, rfl, ?_⟩
  rw [hmask]
  refine ⟨hquiet.1, hquiet.2, fun c => ?_⟩
  rw [forEach_pointwise window w hsame hne (maskChans_nodup hboard _), fireCount_window]
  exact if_congr mem_maskChans rfl rfl

section
variable {i : Nat} {f : Firing} {s : State} (htrip : s.sup.tripped = false) (hhalt : s.so.halted = false)
include htrip hhalt

theorem quietBegin_spec (hnow : firingNow s i 4 = some f) (hboard : boardOk s = true) : ∃ t, exec (.quietBegin i) s = .next t ∧
    Noted ((s.fired f).modSo fun o => { o with quiet := t.so.quiet, quietEndAt := t.so.quietEndAt })
      (t.modMed fun m => { m with chans := s.med.chans }) ∧ (∀ c, chan t c = { chan s c with quiet := (chan t c).quiet }) ∧
    ∀ c, if c ∈ popChans s ∧ (soArg f.bytes 0 4).testBit c = true ∧ tget 0 s.so.quiet c = 0 then
        tget 0 t.so.quiet c = f.frame + 1 ∧ tget 0 t.so.quietEndAt c = 0
      else tget 0 t.so.quiet c = tget 0 s.so.quiet c ∧ tget 0 t.so.quietEndAt c = tget 0 s.so.quietEndAt c := by
  obtain ⟨t, ht, hnoted, hchan, hwin⟩ := quietFiring_spec (f := f) (s := s) hboard (quietStart_quietOnly f.frame)
    (window_quietStart_same f.frame) (window_quietStart_ne f.frame)
  refine ⟨t, ht ▸ (exec_quietBegin i s).trans (fireRun_fires htrip hhalt hnow), hnoted, hchan, fun c => ?_⟩
  have hc := hwin c
  simp only [window, begun, Prod.ext_iff] at hc
  grind

theorem quietEnd_spec (hnow : firingNow s i 5 = some f) (hboard : boardOk s = true) : ∃ t, exec (.quietEnd i) s = .next t ∧
    Noted ((s.fired f).modSo fun o => { o with quiet := t.so.quiet, quietEndAt := t.so.quietEndAt })
      (t.modMed fun m => { m with chans := s.med.chans }) ∧ (∀ c, chan t c = { chan s c with quiet := (chan t c).quiet }) ∧
    ∀ c, if c ∈ popChans s ∧ (soArg f.bytes 0 4).testBit c = true ∧ tget 0 s.so.quiet c ≠ 0 then
        tget 0 t.so.quiet c = 0 ∧ tget 0 t.so.quietEndAt c = f.frame + 1
      else tget 0 t.so.quiet c = tget 0 s.so.quiet c ∧ tget 0 t.so.quietEndAt c = tget 0 s.so.quietEndAt c := by
  obtain ⟨t, ht, hnoted, hchan, hwin⟩ := quietFiring_spec (f := f) (s := s) hboard (quietStop_quietOnly f.frame)
    (window_quietStop_same f.frame) (window_quietStop_ne f.frame)
  refine ⟨t, ht ▸ (exec_quietEnd i s).trans (fireRun_fires htrip hhalt hnow), hnoted, hchan, fun c => ?_⟩
  have hc := hwin c
  simp only [window, ended, Prod.ext_iff] at hc
  grind

/-! QUEUE_START (R307). -/

theorem queueStart_spec (hnow : firingNow s i 3 = some f) : ∃ t, exec (.queueStart i) s = .next t ∧
    ((queueAt s (soArg f.bytes 0 2)).all (!·.gateClosed) = true → Noted (s.fired f) t) ∧
    ∀ x, queueAt s (soArg f.bytes 0 2) = some x → x.gateClosed = true →
      queueAt t (soArg f.bytes 0 2) = some { x with gateClosed := false } ∧ Pends 8 17 0x04 t ∧
      Noted (s.fired f) (t.modMov fun _ => s.mov) := by
  have hcount := fireCount_noted f s
  have hmov : (fireCount f s).mov = s.mov := fireCount_mov f s
  have hqueue : queueAt (fireCount f s) (soArg f.bytes 0 2) = queueAt s (soArg f.bytes 0 2) := by rw [queueAt, queueAt, hmov]
  refine ⟨_, (exec_queueStart i s).trans (fireRun_fires htrip hhalt hnow), fun hopen => ?_, fun x hx hclosed => ?_⟩
  · cases hx : queueAt s (soArg f.bytes 0 2) with
    | none => rw [queueStarted, hqueue, hx]; exact hcount
    | some x =>
      have hgate : x.gateClosed = false := by simpa [hx] using hopen
      rw [queueStarted, hqueue, hx]; simpa [hgate] using hcount
  · have hstart : queueStarted (soArg f.bytes 0 2) (fireCount f s) = raise 8 17 0x04 ((det3 (soArg f.bytes 0 2) 0).on x.head)
        (gateOpenOp (soArg f.bytes 0 2) (fireCount f s)) := by rw [queueStarted, hqueue, hx]; simp [hclosed]
    rw [hstart]
    have hraise := raise_noted 8 17 0x04 ((det3 (soArg f.bytes 0 2) 0).on x.head) (gateOpenOp (soArg f.bytes 0 2) (fireCount f s))
    refine ⟨?_, raise_pends_low 8 17 0x04 _ _ (by decide) (by decide) (by decide), ?_⟩
    · rw [queueAt, hraise.mov]
      exact (tget_tput_same _ _ _ _).trans (by rw [← queueAt, hqueue, hx]; rfl)
    · have hback : ((gateOpenOp (soArg f.bytes 0 2) (fireCount f s)).modMov fun _ => s.mov) = fireCount f s := by
        rw [← hmov]; rfl
      have hall := hraise.modMov fun _ => s.mov
      rw [hback] at hall
      exact hcount.trans hall

end

/-! The end of a window at QUIET_MAX (R231). -/

/-- With its windows put back, a state in which only windows moved is the state before, beside the reasons raised since. -/
theorem QuietOnly.restored {s u t : State} (h : QuietOnly s u) (ht : Noted u t) :
    Noted s ((t.modSo fun o => { o with quiet := s.so.quiet, quietEndAt := s.so.quietEndAt }).modMed fun m =>
      { m with chans := s.med.chans }) := by
  have hback : ((u.modSo fun o => { o with quiet := s.so.quiet, quietEndAt := s.so.quietEndAt }).modMed fun m =>
      { m with chans := s.med.chans }) = s :=
    congrArg (fun u => u.modSo fun o => { o with quiet := s.so.quiet, quietEndAt := s.so.quietEndAt }) h.1
  have hall := (ht.modSo fun o => { o with quiet := s.so.quiet, quietEndAt := s.so.quietEndAt }).modMed fun m =>
    { m with chans := s.med.chans }
  rwa [hback] at hall

/-- A channel's window has ended, and the reasons raised since are all there is more. -/
theorem Noted.of_ended {c e : Nat} {s t : State} (h : Noted (quietPut c 0 e s) t) :
    tget 0 t.so.quiet c = 0 ∧ tget 0 t.so.quietEndAt c = e ∧ (∀ d, d ≠ c → tget 0 t.so.quiet d = tget 0 s.so.quiet d) ∧
    (∀ d, d ≠ c → Machine.chan t d = Machine.chan s d) ∧
    Machine.chan t c = { Machine.chan s c with quiet := (Machine.chan t c).quiet } ∧
    Noted s ((t.modSo fun o => { o with quiet := s.so.quiet, quietEndAt := s.so.quietEndAt }).modMed fun m =>
      { m with chans := s.med.chans }) := by
  have hsame := (h.window c).trans (window_quietPut_same c 0 e s)
  have honly := quietPut_quietOnly c 0 e s
  refine ⟨congrArg Prod.fst hsame, congrArg Prod.snd hsame, fun d hd => ?_, fun d hd => ?_, ?_, honly.restored h⟩
  · exact congrArg Prod.fst ((h.window d).trans (window_quietPut_ne hd 0 e s))
  · rw [h.chan d]; exact chan_quietNow_ne hd _
  · rw [h.chan c]; exact honly.2 c

theorem exec_quietForcedEnd (c : Nat) (s : State) :
    exec (.quietForcedEnd c) s = if (window s c).1 = 0 ∨ s.tbs.mint.toNat < (window s c).1 - 1 + quietMax s then .next s
      else .next (raise 7 1 0x06 (det2 c 0 0 0 0) (quietStop c ((window s c).1 - 1 + quietMax s) s)) :=
  if_congr (Bool.or_eq_true_iff.trans (or_congr beq_iff_eq decide_eq_true_iff)) rfl rfl

theorem quietForcedEnd_due {c b : Nat} {s : State} (hb : (window s c).1 = b) (hquiet : b ≠ 0) (hdue : b - 1 + quietMax s ≤ s.tbs.mint.toNat) :
    exec (.quietForcedEnd c) s = .next (raise 7 1 0x06 (det2 c 0 0 0 0) (quietPut c 0 (b + quietMax s) s)) := by
  have hend : b - 1 + quietMax s + 1 = b + quietMax s := by omega
  rw [exec_quietForcedEnd, quietStop_eq, hb, if_neg (by omega), if_neg hquiet, hend]

theorem quietForcedEnd_spec (c b : Nat) (s : State) (hb : b = tget 0 s.so.quiet c) :
    (b = 0 ∨ s.tbs.mint.toNat < b - 1 + quietMax s → exec (.quietForcedEnd c) s = .next s) ∧
    (b ≠ 0 → b - 1 + quietMax s ≤ s.tbs.mint.toNat → ∃ t, exec (.quietForcedEnd c) s = .next t ∧ Pends 7 1 0x06 t ∧
      tget 0 t.so.quiet c = 0 ∧ tget 0 t.so.quietEndAt c = b + quietMax s ∧
      (∀ d, d ≠ c → tget 0 t.so.quiet d = tget 0 s.so.quiet d) ∧
      (∀ d, d ≠ c → chan t d = chan s d) ∧ chan t c = { chan s c with quiet := (chan t c).quiet } ∧
      Noted s ((t.modSo fun o => { o with quiet := s.so.quiet, quietEndAt := s.so.quietEndAt }).modMed fun m =>
        { m with chans := s.med.chans })) := by
  have hwin : (window s c).1 = b := hb.symm
  refine ⟨fun h => ?_, fun hquiet hdue => ?_⟩
  · rw [exec_quietForcedEnd, hwin]; exact if_pos h
  · exact ⟨_, quietForcedEnd_due hwin hquiet hdue, raise_pends_low 7 1 0x06 _ _ (by decide) (by decide) (by decide),
      (raise_noted _ _ _ _ _).of_ended⟩

end Sys2Proof.Machine
end

section
/-! A committed set's release (R238 step 4, R239): its members take their staged folios, once each, and the set settles. -/

namespace Sys2Proof.Machine

open Sys2Proof

/-- What the swap of a set's members leaves alone: the standing orders, the index of the sets, the set's state and what it staged. -/
def State.swap (n : Nat) (s : State) : Orders × List Nat × EscState × Tab Nat :=
  (s.so, s.esc.index, (escSet s n).state, (escSet s n).staged)

/-- What a member of a set translates to, with its staged folio. -/
def member (n : Nat) (s : State) (f : Nat) : Option Nat × Nat × BitVec 24 := (stagedFolio s n f, (ent s f).media, (ent s f).gen)

theorem stagedFolio_of_swap {n : Nat} {s t : State} (h : t.swap n = s.swap n) (f : Nat) : stagedFolio t n f = stagedFolio s n f := by
  simp only [State.swap, Prod.mk.injEq] at h
  rw [stagedFolio, stagedFolio, h.2.2.2]

theorem swap_of_orders {s t : State} (h : t.orders = s.orders) (n : Nat) : t.swap n = s.swap n := by
  simp only [State.orders, Prod.mk.injEq] at h
  simp only [State.swap, escSet, h.1, h.2.1]

theorem member_of_orders {s t : State} (h : t.orders = s.orders) (n f : Nat) : member n t f = member n s f := by
  have hent := congrFun (congrArg (fun o => o.2.2) h) f
  simp only [State.orders, Prod.mk.injEq] at hent
  rw [member, member, stagedFolio_of_swap (swap_of_orders h n), hent.1, hent.2]

/-- An update of a set that keeps its state and what it staged. -/
theorem modSet_swap {n : Nat} {g : Escrow → Escrow} (hstate : ∀ x, (g x).state = x.state) (hstaged : ∀ x, (g x).staged = x.staged) (s : State) :
    (modSet n g s).swap n = s.swap n := by
  simp only [State.swap, escSet_modSet_same, hstate, hstaged]; rfl

theorem modSet_member {n : Nat} {g : Escrow → Escrow} (hstaged : ∀ x, (g x).staged = x.staged) (s : State) (f : Nat) :
    member n (modSet n g s) f = member n s f := by
  simp only [member, stagedFolio, escSet_modSet_same, hstaged]; rfl


/-! One member (R239). -/

theorem itemApply_swap (n f new gen : Nat) (s : State) : (itemApply f new gen s).swap n = s.swap n := by
  rw [itemApply]; split <;> rfl

theorem itemApply_member_same (n f new gen : Nat) (s : State) :
    member n (itemApply f new gen s) f = (stagedFolio s n f, new, BitVec.ofNat 24 gen) := by
  rw [member, stagedFolio_of_swap (itemApply_swap n f new gen s)]
  simp [itemApply, ent, modEnt, tmod]

theorem itemApply_member_ne {n f g new gen : Nat} (h : g ≠ f) (s : State) : member n (itemApply f new gen s) g = member n s g := by
  rw [member, stagedFolio_of_swap (itemApply_swap n f new gen s)]
  rw [itemApply]
  simp only [ent, modEnt, tmod, State.modLed_led, tget_tput_ne _ _ _ _ _ _ h]
  split <;> rfl

/-- What becomes of a released member (R239). -/
def memberSwapped (x : Option Nat × Nat × BitVec 24) : Option Nat × Nat × BitVec 24 := (x.1, x.1.getD noFolio, x.2.2 + 1)

/-- A member's swap is its entry's, beside what follows from it. -/
theorem settleMember_eq (n f : Nat) (s : State) (look : State → α)
    (horders : ∀ s t : State, t.orders = s.orders → look t = look s)
    (hset : ∀ s m, look (modSet n (fun x => { x with oldFolios := x.oldFolios ++ [m] }) s) = look s) :
    look (settleMember n f s) = look (itemApply f ((stagedFolio s n f).getD noFolio) ((ent s f).gen + 1).toNat s) := by
  have hafter : ∀ u : State, (migCut f (folioPoisonDrop f (lateDropped f (sweepDrop f u)))).orders = u.orders := by simp
  simp only [settleMember]
  split
  · exact horders _ _ (hafter _)
  · exact (horders _ _ (queueBlank_orders _ _ _)).trans ((hset _ _).trans (horders _ _ (hafter _)))

theorem settleMember_swap (n f : Nat) (s : State) : (settleMember n f s).swap n = s.swap n :=
  (settleMember_eq n f s (State.swap n) (fun _ _ h => swap_of_orders h n) fun s _ => modSet_swap (by exact fun _ => rfl) (by exact fun _ => rfl) s).trans
    (itemApply_swap _ _ _ _ _)

theorem settleMember_same (n f : Nat) (s : State) : member n (settleMember n f s) f = memberSwapped (member n s f) := by
  rw [settleMember_eq n f s (fun s => member n s f) (fun _ _ h => member_of_orders h n f) fun s _ => modSet_member (by exact fun _ => rfl) s f,
    itemApply_member_same]
  simp only [memberSwapped, member, BitVec.ofNat_toNat, BitVec.setWidth_eq]

theorem settleMember_ne (n f g : Nat) (s : State) (h : g ≠ f) : member n (settleMember n f s) g = member n s g := by
  rw [settleMember_eq n f s (fun s => member n s g) (fun _ _ h => member_of_orders h n g) fun s _ => modSet_member (by exact fun _ => rfl) s g,
    itemApply_member_ne h]

/-! The whole set (R238, R239, R273). -/

theorem settleCtrs_keeps (n : Nat) (s : State) (look : State → α) (horders : ∀ s t : State, t.orders = s.orders → look t = look s)
    (hset : ∀ s ms, look (modSet n (fun x => { x with ctrFolios := [], oldFolios := x.oldFolios ++ ms }) s) = look s) :
    look (settleCtrs n s) = look s := by
  simp only [settleCtrs]
  refine (horders _ _ (forEach_orders _ _ _ fun _ _ => queueBlank_orders _ _ _)).trans ((hset _ _).trans (horders _ _ ?_))
  rw [forEach_orders _ _ _ fun e s => by simp]
  exact State.modCry_orders _ _

theorem settleCtrs_swap (n : Nat) (s : State) : (settleCtrs n s).swap n = s.swap n :=
  settleCtrs_keeps n s (State.swap n) (fun _ _ h => swap_of_orders h n) fun s _ => modSet_swap (by exact fun _ => rfl) (by exact fun _ => rfl) s

theorem settleCtrs_member (n f : Nat) (s : State) : member n (settleCtrs n s) f = member n s f :=
  settleCtrs_keeps n s (fun s => member n s f) (fun _ _ h => member_of_orders h n f) fun s _ => modSet_member (by exact fun _ => rfl) s f

/-- A set that begins to settle. -/
def Escrow.settle (x : Escrow) : Escrow := { x with state := .settling, reserved := 0, oldFolios := [] }

/-- The swap before the set is told to stand in the index. -/
def swapped (n : Nat) (s : State) : State :=
  settleCtrs n (forEach (escSet s n).members (fun f s => settleMember n f s)
    (forEach (escSet s n).members (fun f s => readsSettle f s) (modSet n Escrow.settle s)))

theorem releaseSwap_eq (n : Nat) (s : State) :
    releaseSwap n s = (swapped n s).modEsc fun e => { e with index := if e.index.contains n then e.index else e.index ++ [n] } := rfl

theorem swapped_swap (n : Nat) (s : State) : (swapped n s).swap n = (s.so, s.esc.index, .settling, (escSet s n).staged) := by
  rw [swapped, settleCtrs_swap, forEach_keeps (State.swap n) _ fun f s => settleMember_swap n f s,
    swap_of_orders (forEach_orders _ _ _ fun f s => readsSettle_orders f s) n]
  simp only [State.swap, escSet_modSet_same]; rfl

theorem swapped_member {n f : Nat} {s : State} (hf : f ∈ (escSet s n).members) (hnodup : (escSet s n).members.Nodup) :
    member n (swapped n s) f = memberSwapped (member n s f) := by
  rw [swapped, settleCtrs_member, forEach_pointwise (member n) memberSwapped (fun f s => settleMember_same n f s)
    (fun f g s h => settleMember_ne n f g s h) hnodup, if_pos hf,
    member_of_orders (forEach_orders _ _ _ fun f s => readsSettle_orders f s), modSet_member (g := Escrow.settle) fun _ => rfl]

theorem releaseSwap_so (n : Nat) (s : State) : (releaseSwap n s).so = s.so := congrArg Prod.fst (swapped_swap n s)

theorem releaseSwap_state (n : Nat) (s : State) : (escSet (releaseSwap n s) n).state = .settling :=
  congrArg (fun x => x.2.2.1) (swapped_swap n s)

theorem mem_releaseSwap_index (n : Nat) (s : State) : n ∈ (releaseSwap n s).esc.index := by
  rw [releaseSwap_eq, State.modEsc_esc]
  split
  · rename_i h; simpa using h
  · simp

theorem releaseSwap_ent {n f : Nat} {s : State} (hf : f ∈ (escSet s n).members) (hnodup : (escSet s n).members.Nodup) :
    (ent (releaseSwap n s) f).media = (stagedFolio s n f).getD noFolio ∧ (ent (releaseSwap n s) f).gen = (ent s f).gen + 1 := by
  have h := congrArg Prod.snd (swapped_member hf hnodup)
  exact ⟨congrArg Prod.fst h, congrArg Prod.snd h⟩

end Sys2Proof.Machine
end

section
/-! RELEASE and PREFETCH orders that take effect, and the releases that come before a prefetch (R232, R238, R241). -/

namespace Sys2Proof.Machine

open Sys2Proof

/-! RELEASE (R238). -/

theorem releaseEffect_releases {f : Firing} {s : State} (hstate : (escSet s (soArg f.bytes 0 1)).state = .committed)
    (hentry : (escSet s (soArg f.bytes 0 1)).entry = f.entry + 1) :
    ∃ d, releaseEffect f s = raise 7 2 0x02 d (bump 643 1 (releaseSwap (soArg f.bytes 0 1) s)) :=
  ⟨_, if_pos (by simp [hstate, hentry])⟩

theorem releaseEffect_none {f : Firing} {s : State}
    (h : (escSet s (soArg f.bytes 0 1)).state ≠ .committed ∨ (escSet s (soArg f.bytes 0 1)).entry ≠ f.entry + 1) : releaseEffect f s = s :=
  if_neg (by simpa [← not_and_or] using h)

theorem releaseEffect_so (f : Firing) (s : State) : (releaseEffect f s).so = s.so := by
  rw [releaseEffect]
  split
  · rw [raise_so, bump_so, releaseSwap_so]
  · rfl

theorem releaseOrder_spec {i : Nat} {f : Firing} {s : State} (hentry : f.entry = i) (htrip : s.sup.tripped = false)
    (hhalt : s.so.halted = false) (hnow : firingNow s i 2 = some f) :
    ((escSet s (soArg f.bytes 0 1)).state = .committed ∧ (escSet s (soArg f.bytes 0 1)).entry = i + 1 →
      ∃ t, exec (.releaseOrder i) s = .next t ∧ (escSet t (soArg f.bytes 0 1)).state = .settling ∧ Pends 7 2 0x02 t ∧
        soArg f.bytes 0 1 ∈ t.esc.index ∧ t.so.firings = s.so.firings.erase f ∧
        ∀ m ∈ (escSet s (soArg f.bytes 0 1)).members, (escSet s (soArg f.bytes 0 1)).members.Nodup →
          (ent t m).media = (stagedFolio s (soArg f.bytes 0 1) m).getD noFolio ∧ (ent t m).gen = (ent s m).gen + 1) ∧
    ((escSet s (soArg f.bytes 0 1)).state ≠ .committed ∨ (escSet s (soArg f.bytes 0 1)).entry ≠ i + 1 →
      ∃ t, exec (.releaseOrder i) s = .next t ∧ Noted (s.fired f) t) := by
  subst hentry
  have hrun := (exec_releaseOrder f.entry s).trans (fireRun_fires htrip hhalt hnow)
  have hset : escSet (fireCount f s) (soArg f.bytes 0 1) = escSet s (soArg f.bytes 0 1) := escSet_of_esc (fireCount_esc f s) _
  refine ⟨fun ⟨hstate, hentry⟩ => ?_, fun h => ?_⟩
  · obtain ⟨d, hd⟩ := releaseEffect_releases (f := f) (s := fireCount f s) (hset ▸ hstate) (hset ▸ hentry)
    refine ⟨_, hrun, ?_⟩
    rw [hd]
    refine ⟨?_, raise_pends_low 7 2 0x02 d _ (by decide) (by decide) (by decide), ?_, ?_, fun m hm hnodup => ?_⟩
    · exact (congrArg Escrow.state (escSet_of_esc ((raise_esc _ _ _ _ _).trans (bump_esc _ _ _)) _)).trans (releaseSwap_state _ _)
    · rw [raise_esc, bump_esc]; exact mem_releaseSwap_index _ _
    · rw [raise_so, bump_so, releaseSwap_so, fireCount_firings]
    · rw [← hset] at hm hnodup
      have hent := releaseSwap_ent hm hnodup
      rw [stagedFolio, hset, ← stagedFolio, fireCount_ent] at hent
      rwa [ent, raise_led, bump_led]
  · exact ⟨_, hrun, by rw [releaseEffect_none (by rwa [hset])]; exact fireCount_noted f s⟩

/-! The releases before a prefetch (R241). -/

theorem releasesFirst_firings (gs : List Firing) (s : State) :
    (forEach gs (fun g s => releaseEffect g (fireCount g s)) s).so.firings = s.so.firings.diff gs := by
  induction gs generalizing s with
  | nil => rfl
  | cons g gs ih =>
    rw [show forEach (g :: gs) _ s = forEach gs _ (releaseEffect g (fireCount g s)) from rfl, ih, releaseEffect_so, fireCount_firings,
      List.diff_cons]

/-- Every issued release of a frame up to the firing's has taken effect. -/
theorem releasesFirst_spent (f : Firing) (s : State) {g : Firing} (haction : soAction g.bytes = 2) (hframe : g.frame ≤ f.frame) :
    g ∉ (releasesFirst f s).so.firings := by
  rw [releasesFirst, releasesFirst_firings, ← List.count_eq_zero, List.count_diff, List.count_filter (by simp [haction, hframe]), Nat.sub_self]

theorem releasesFirst_none {f : Firing} {s : State} (h : ∀ g ∈ s.so.firings, soAction g.bytes = 2 → f.frame < g.frame) : releasesFirst f s = s := by
  have hnone : (s.so.firings.filter fun g => soAction g.bytes == 2 && g.frame ≤ f.frame) = [] := by
    simpa [List.filter_eq_nil_iff] using h
  rw [releasesFirst, hnone]; rfl

/-! PREFETCH (R232, R249). -/

/-- Only lines of a range have been queued, each for its home slice. -/
def Prefetched (lo n : Nat) (s t : State) : Prop :=
  t.board = s.board ∧ t.med = s.med ∧ t.led = s.led ∧ t.fe.txns = s.fe.txns ∧ t.pur.slots = s.pur.slots ∧ t.so = s.so ∧
  ∃ q, t.pur.prefetchQ = s.pur.prefetchQ ++ q ∧ ∀ x ∈ q, x.1 = sliceOf s x.2 ∧ lo ≤ x.2 ∧ x.2 < lo + n

theorem sliceOf_of_blocks {s t : State} (hboard : t.board = s.board) (hled : t.led = s.led) (l : Nat) : sliceOf t l = sliceOf s l := by
  simp only [sliceOf, chOf, physCh, logCh, ent, hboard, hled]

theorem Prefetched.refl (lo n : Nat) (s : State) : Prefetched lo n s s :=
  ⟨rfl, rfl, rfl, rfl, rfl, rfl, [], (List.append_nil _).symm, fun _ h => absurd h List.not_mem_nil⟩

theorem Prefetched.trans {lo n : Nat} {a b c : State} (h : Prefetched lo n a b) (g : Prefetched lo n b c) : Prefetched lo n a c := by
  obtain ⟨hboard, hmed, hled, htxns, hslots, hso, q, hq, hlines⟩ := h
  obtain ⟨gboard, gmed, gled, gtxns, gslots, gso, r, gr, glines⟩ := g
  refine ⟨gboard.trans hboard, gmed.trans hmed, gled.trans hled, gtxns.trans htxns, gslots.trans hslots, gso.trans hso, q ++ r,
    by rw [gr, hq, List.append_assoc], fun x hx => ?_⟩
  rcases List.mem_append.mp hx with hx | hx
  · exact hlines x hx
  · exact sliceOf_of_blocks hboard hled x.2 ▸ glines x hx

theorem Noted.prefetched {s t : State} (h : Noted s t) (lo n : Nat) : Prefetched lo n s t :=
  ⟨h.board, h.med, h.led, h.txns, by rw [h.pur], h.so, [], by rw [h.pur, List.append_nil], fun _ h => absurd h List.not_mem_nil⟩

theorem bump_prefetched (lo n i k : Nat) (s : State) : Prefetched lo n s (bump i k s) :=
  .trans (b := s.counted i k) ⟨rfl, rfl, rfl, rfl, rfl, rfl, [], (List.append_nil _).symm, fun _ h => absurd h List.not_mem_nil⟩
    ((bump_noted i k s).prefetched lo n)

theorem prefetchQueue_prefetched {lo n l : Nat} (hlo : lo ≤ l) (hl : l < lo + n) (s : State) : Prefetched lo n s (prefetchQueue l s).2 := by
  simp only [prefetchQueue]
  split
  · exact .refl lo n s
  split
  · exact bump_prefetched lo n 645 1 s
  · exact .trans (b := s.modPur fun u => { u with prefetchQ := u.prefetchQ ++ [(sliceOf s l, l)] })
      ⟨rfl, rfl, rfl, rfl, rfl, rfl, [(sliceOf s l, l)], rfl, by simp [hlo, hl]⟩ (bump_prefetched lo n 644 1 _)

theorem prefetchLines_prefetched {lo n : Nat} {ls : List Nat} (hls : ∀ l ∈ ls, lo ≤ l ∧ l < lo + n) (d : Bool) (s : State) :
    Prefetched lo n s (prefetchLines ls d s).2 := by
  induction ls generalizing d s with
  | nil => exact .refl lo n s
  | cons l ls ih =>
    obtain ⟨hlo, hl⟩ := hls l List.mem_cons_self
    exact (prefetchQueue_prefetched hlo hl s).trans (ih (fun m hm => hls m (List.mem_cons_of_mem _ hm)) _ _)

/-- States that differ in stored registers alone. -/
def RegsOnly (s t : State) : Prop := ∃ r, t = s.setRegs r

theorem RegsOnly.refl (s : State) : RegsOnly s s := ⟨s.regs, rfl⟩

theorem RegsOnly.rset {s t : State} (h : RegsOnly s t) (k : Nat) (v : BitVec 32) : RegsOnly s (rset t k v) := by
  obtain ⟨r, rfl⟩ := h
  exact ⟨_, rfl⟩

theorem accessCount_regsOnly (x : AccessFail) (dpa key : Nat) (write : Bool) (h : Option Head) (s : State) :
    RegsOnly s (accessCount x dpa key write h s) := by
  have hlast : RegsOnly s (iceLast dpa x.syndrome key write h s) := ((RegsOnly.refl s).rset _ _).rset _ _
  cases x <;> exact (hlast.rset _ _).rset _ _

theorem prefetchEffect_unprovisioned {f : Firing} {s : State} (h : provisioned (ent s (soArg f.bytes 0 3)) = false) :
    ∃ d, prefetchEffect f s = raise 7 1 0x05 d s := ⟨_, by rw [prefetchEffect, h]; rfl⟩

theorem prefetchEffect_refused {f : Firing} {x : AccessFail} {s : State} (h : provisioned (ent s (soArg f.bytes 0 3)) = true)
    (hcheck : accessCheck s (soArg f.bytes 7 1) none (ent s (soArg f.bytes 0 3)) = some x) :
    ∃ d r, prefetchEffect f s = raise 7 1 0x05 d (s.setRegs r) := by
  have hrun : prefetchEffect f s = raise 7 1 0x05 (det4 f.entry (soTag f.bytes) 0 f.fireTime)
      (accessCount x (soArg f.bytes 0 3 * 2 ^ 21) (soArg f.bytes 7 1) false none s) := by
    rw [prefetchEffect, h, hcheck]; rfl
  obtain ⟨r, hr⟩ := accessCount_regsOnly x (soArg f.bytes 0 3 * 2 ^ 21) (soArg f.bytes 7 1) false none s
  exact ⟨_, r, hrun.trans (congrArg _ hr)⟩

theorem prefetchEffect_queues {f : Firing} {s : State} (h : provisioned (ent s (soArg f.bytes 0 3)) = true)
    (hcheck : accessCheck s (soArg f.bytes 7 1) none (ent s (soArg f.bytes 0 3)) = none) :
    Prefetched (soArg f.bytes 0 3 * 8192 + soArg f.bytes 3 2) (soArg f.bytes 5 2) s (prefetchEffect f s) := by
  have hlines := prefetchLines_prefetched (lo := soArg f.bytes 0 3 * 8192 + soArg f.bytes 3 2) (n := soArg f.bytes 5 2)
    (fun l hl => List.mem_range'_1.mp hl) false s
  simp only [prefetchEffect, h, hcheck, Bool.not_true, Bool.false_eq_true, if_false]
  split
  · exact hlines.trans ((raise_noted _ _ _ _ _).prefetched _ _)
  · exact hlines

theorem prefetchEffect_so (f : Firing) (s : State) : (prefetchEffect f s).so = s.so := by
  cases h : provisioned (ent s (soArg f.bytes 0 3)) with
  | false => obtain ⟨d, hd⟩ := prefetchEffect_unprovisioned h; rw [hd, raise_so]
  | true =>
    cases hcheck : accessCheck s (soArg f.bytes 7 1) none (ent s (soArg f.bytes 0 3)) with
    | some x => obtain ⟨d, r, hd⟩ := prefetchEffect_refused h hcheck; rw [hd, raise_so]; rfl
    | none => obtain ⟨-, -, -, -, -, hso, -⟩ := prefetchEffect_queues h hcheck; exact hso

theorem fireCount_accessCheck (f : Firing) (s : State) (key : Nat) (e : LEntry) :
    accessCheck (fireCount f s) key none e = accessCheck s key none e := by
  have hdom : domKey (fireCount f s) key = domKey s key := by rw [domKey, domKey, fireCount_ctl, fireCount_cry]
  rw [accessCheck, accessCheck, hdom]

section
variable {i : Nat} {f : Firing} {s : State} (htrip : s.sup.tripped = false) (hhalt : s.so.halted = false) (hnow : firingNow s i 1 = some f)
include htrip hhalt hnow

theorem prefetchOrder_releases : ∃ t, exec (.prefetchOrder i) s = .next t ∧
    ∀ g ∈ s.so.firings, soAction g.bytes = 2 → g.frame ≤ f.frame → g ∉ t.so.firings :=
  ⟨_, (exec_prefetchOrder i s).trans (fireRun_fires htrip hhalt hnow), fun g _ haction hframe => by
    rw [prefetchEffect_so]; exact releasesFirst_spent f _ haction hframe⟩

theorem prefetchOrder_spec (hnone : ∀ g ∈ s.so.firings, soAction g.bytes = 2 → f.frame < g.frame) : ∃ t, exec (.prefetchOrder i) s = .next t ∧
    if provisioned (ent s (soArg f.bytes 0 3)) = false then Noted (s.fired f) t ∧ Pends 7 1 0x05 t
    else if (accessCheck s (soArg f.bytes 7 1) none (ent s (soArg f.bytes 0 3))).isSome = true then
      Pends 7 1 0x05 t ∧ t.pur = s.pur ∧ t.med = s.med ∧ t.led = s.led ∧ t.fe.txns = s.fe.txns ∧ t.so = (s.fired f).so
    else t.pur.prefetchQ.take s.pur.prefetchQ.length = s.pur.prefetchQ ∧
      (∀ x ∈ t.pur.prefetchQ.drop s.pur.prefetchQ.length, x.1 = sliceOf s x.2 ∧
        soArg f.bytes 0 3 * 8192 + soArg f.bytes 3 2 ≤ x.2 ∧ x.2 < soArg f.bytes 0 3 * 8192 + soArg f.bytes 3 2 + soArg f.bytes 5 2) ∧
      t.med = s.med ∧ t.led = s.led ∧ t.fe.txns = s.fe.txns ∧ t.pur.slots = s.pur.slots ∧ t.so = (s.fired f).so := by
  have hfirst : releasesFirst f (fireCount f s) = fireCount f s := releasesFirst_none fun g hg =>
    hnone g (List.mem_of_mem_erase (fireCount_firings f s ▸ hg))
  refine ⟨_, (exec_prefetchOrder i s).trans (fireRun_fires htrip hhalt hnow), ?_⟩
  rw [hfirst, ← fireCount_ent f s, ← fireCount_accessCheck f]
  have hso : (fireCount f s).so = (s.fired f).so := (fireCount_noted f s).so
  split
  case isTrue hunprov =>
    obtain ⟨d, hd⟩ := prefetchEffect_unprovisioned hunprov
    rw [hd]
    exact ⟨(fireCount_noted f s).raise _ _ _ _, raise_pends_low 7 1 0x05 _ _ (by decide) (by decide) (by decide)⟩
  case isFalse hprov =>
    have hprov : provisioned (ent (fireCount f s) (soArg f.bytes 0 3)) = true := by simpa using hprov
    split
    · rename_i hfail
      obtain ⟨x, hx⟩ := Option.isSome_iff_exists.mp hfail
      obtain ⟨d, r, hd⟩ := prefetchEffect_refused hprov hx
      rw [hd]
      refine ⟨raise_pends_low 7 1 0x05 _ _ (by decide) (by decide) (by decide), ?_, ?_, ?_, ?_, ?_⟩
      · rw [raise_pur]; exact fireCount_pur f s
      · rw [raise_med]; exact fireCount_med f s
      · rw [raise_led]; exact fireCount_led f s
      · rw [(raise_noted _ _ _ _ _).txns]; exact fireCount_txns f s
      · rw [raise_so]; exact hso
    · rename_i hpass
      obtain ⟨-, hmed, hled, htxns, hslots, hso', q, hq, hlines⟩ := prefetchEffect_queues hprov (by simpa using hpass)
      rw [fireCount_pur] at hq hslots
      rw [hq, List.take_left, List.drop_left]
      exact ⟨rfl, fun x hx => sliceOf_of_blocks (fireCount_board f s) (fireCount_led f s) x.2 ▸ hlines x hx, hmed.trans (fireCount_med f s),
        hled.trans (fireCount_led f s), htxns.trans (fireCount_txns f s), hslots, hso'.trans hso⟩

end

/-- Settles O33, action by action: each firing is the common count followed by its action's effect. -/
theorem orderFirings : Obligations.OrderFirings := by
  unfold Obligations.OrderFirings
  refine ⟨fun i a s c hc h => order_skips hc h, fun i f s hentry htrip hhalt => ⟨nopOrder_spec htrip hhalt, markerOrder_spec htrip hhalt,
    auditOrder_spec htrip hhalt, quietBegin_spec htrip hhalt, quietEnd_spec htrip hhalt, queueStart_spec htrip hhalt,
    prefetchOrder_releases htrip hhalt, prefetchOrder_spec htrip hhalt, releaseOrder_spec hentry htrip hhalt⟩, quietForcedEnd_spec⟩

end Sys2Proof.Machine
end

section
/-! What an accepted escrow command leaves: the set, the record of the directory, and the background command on its mailbox (R234, R237,
R240, R369). -/

namespace Sys2Proof.Machine

open Sys2Proof

/-! A background command that is accepted. -/

theorem mbxAnswer_esc (p : MbxPort) (op rc : Nat) (out : List Byte) (s : State) : (mbxAnswer p op rc out s).esc = s.esc := by
  rcases mbxAnswer_cases p op rc out s with ⟨rfl, h⟩ | ⟨-, h⟩
  · rw [h]; rfl
  · rw [h.esc]; cases p <;> rfl

theorem mbxAnswer_led (p : MbxPort) (op rc : Nat) (out : List Byte) (s : State) : (mbxAnswer p op rc out s).led = s.led := by
  obtain ⟨-, -, hled, -⟩ := mbxAnswer_mbxOnly p op rc out s
  exact hled

theorem modMbx_esc (p : MbxPort) (f : Mailbox → Mailbox) (s : State) : (modMbx p f s).esc = s.esc := by cases p <;> rfl
theorem modMbx_led (p : MbxPort) (f : Mailbox → Mailbox) (s : State) : (modMbx p f s).led = s.led := by cases p <;> rfl

/-- What the body of a background command has left, where u was there before the command stood on its mailbox. -/
def BgLeft (p : MbxPort) (bg : BgCmd) (u v : State) : Prop :=
  v.esc = u.esc ∧ (mbxOf v p).bg = some bg ∧ (mbxOf v p).declared = (mbxOf u p).declared ∧ Queued (u.sans p) (v.sans p)

theorem bgStart_bgLeft (p : MbxPort) (op arg recs : Nat) (u : State) :
    BgLeft p { opcode := op, result := 0, recs := recs, arg := arg } u (bgStart p op arg recs u).st := by
  refine ⟨modMbx_esc _ _ _, ?_, ?_, ?_⟩
  · simp [bgStart]
  · simp [bgStart]
  · rw [bgStart, modMbx_sans]; exact .refl _

section
variable {p : MbxPort} {bg : BgCmd} {u v : State} (h : BgLeft p bg u v)
include h

theorem BgLeft.answer_esc (op rc : Nat) (out : List Byte) : (mbxAnswer p op rc out v).esc = u.esc :=
  (mbxAnswer_esc _ _ _ _ _).trans h.1

theorem BgLeft.answer_bg (op rc : Nat) (out : List Byte) : (mbxOf (mbxAnswer p op rc out v) p).bg = some bg := by
  rw [mbxOf_mbxAnswer, Machine.answer_bg, h.2.1]

theorem BgLeft.acted {s w : State} (op rc : Nat) (out : List Byte) (hdecl : (mbxOf u p).declared = (mbxOf s p).declared)
    (hw : Queued (w.sans p) (u.sans p)) : Machine.acted p op rc out s w (mbxAnswer p op rc out v) :=
  mbxAnswer_acted op rc out (h.2.2.1.trans hdecl) (hw.trans h.2.2.2)

end

/-! Updates of the sets alone. -/

/-- Only the escrow sets have changed, beside what waits for the passbook store. -/
def SetsOnly (s t : State) : Prop := Queued (s.modEsc fun e => { e with sets := t.esc.sets }) t

theorem Queued.setsOnly {s t : State} (h : Queued s t) : SetsOnly s t := by
  rw [SetsOnly, h.esc]; exact h

theorem SetsOnly.trans {a b c : State} (h : SetsOnly a b) (g : SetsOnly b c) : SetsOnly a c :=
  (Queued.modEsc h fun e => { e with sets := c.esc.sets }).trans g

theorem modSet_setsOnly (n : Nat) (f : Escrow → Escrow) (s : State) : SetsOnly s (modSet n f s) := Queued.refl _

/-- What a mailbox's command left of the sets, told from before the mailbox took it. -/
theorem SetsOnly.of_noted {p : MbxPort} {s u t : State} (h : SetsOnly u t) (hu : Noted (s.sans p) (u.sans p)) :
    Queued ((s.modEsc fun e => { e with sets := t.esc.sets }).sans p) (t.sans p) := by
  have hq := Queued.sans h p
  rw [modEsc_sans] at hq ⊢
  exact (hu.modEsc _).queued.trans hq

/-! CLOSE_ESCROW_SET (R237). -/

theorem setIndexOk_of {b : List Byte} (hn : le b 0 1 < 64) (hz : le b 1 3 = 0) : setIndexOk b = true := by
  rw [setIndexOk, hz, decide_eq_true hn]; rfl

/-- A set that begins to close, with its directory's record. -/
def closeBegun (n : Nat) (u : State) : State := recordQueue recEscrow (modSet n (fun x => { x with state := .closing, items := 0 }) u)

/-- What Close Escrow Set leaves where no member's lines are to be copied. -/
def closeLeft (n : Nat) (u : State) : State :=
  if (escSet u n).pendingWrites = 0 then modSet n (fun x => { x with items := 1 }) (closeBegun n u) else closeBegun n u

theorem closeBegun_set (n : Nat) (u : State) : escSet (closeBegun n u) n = { escSet u n with state := .closing, items := 0 } :=
  (escSet_of_esc (recordQueue_queued _ _).esc n).trans (escSet_modSet_same _ _ _)

theorem closeCopy_plain {n : Nat} {u : State} (h : (escSet u n).inherit = false) :
    closeCopy n u = modSet n (fun x => { x with items := 1 }) u := by
  rw [closeCopy, h]; rfl

theorem yCloseEscrowSet_closes {p : MbxPort} {b : List Byte} {u : State} (hok : setIndexOk b = true)
    (hopen : (escSet u (le b 0 1)).state = .open_) (hgoes : (escSet u (le b 0 1)).abandon = false)
    (hplain : (escSet u (le b 0 1)).pendingWrites ≠ 0 ∨ (escSet u (le b 0 1)).inherit = false) :
    yCloseEscrowSet p b u = bgStart p 0xC405 (le b 0 1) 0 (closeLeft (le b 0 1) u) := by
  have hset := closeBegun_set (le b 0 1) u
  simp only [yCloseEscrowSet, hok, hopen, hgoes, Bool.not_true, bne_self_eq_false, Bool.or_false, Bool.false_eq_true, if_false,
    show (EscState.open_ == EscState.free) = false from rfl]
  rw [← closeBegun, hset, closeLeft]
  by_cases hw : (escSet u (le b 0 1)).pendingWrites = 0
  · have hinherit := hplain.resolve_left fun h => h hw
    rw [if_pos (by simpa using hw), if_pos hw, closeCopy_plain (by rw [hset]; exact hinherit)]
  · rw [if_neg (by simpa using hw), if_neg hw]

theorem closeLeft_setsOnly (n : Nat) (u : State) : SetsOnly u (closeLeft n u) := by
  have hbegun : SetsOnly u (closeBegun n u) := (modSet_setsOnly n _ u).trans (recordQueue_queued _ _).setsOnly
  rw [closeLeft]; split
  · exact hbegun.trans (modSet_setsOnly n _ _)
  · exact hbegun

theorem closeLeft_state (n : Nat) (u : State) : (escSet (closeLeft n u) n).state = .closing := by
  rw [closeLeft]; split
  · rw [escSet_modSet_same, closeBegun_set]
  · rw [closeBegun_set]

theorem closeLeft_ne {n m : Nat} (h : m ≠ n) (u : State) : escSet (closeLeft n u) m = escSet u m := by
  have hbegun : escSet (closeBegun n u) m = escSet u m :=
    (escSet_of_esc (recordQueue_queued _ _).esc m).trans (escSet_modSet_ne h _ _)
  rw [closeLeft]; split
  · rw [escSet_modSet_ne h, hbegun]
  · exact hbegun

theorem closeEscrowSet_spec {p : MbxPort} {b : List Byte} {s : State} (hn : le b 0 1 < 64) (hz : le b 1 3 = 0)
    (htaken : yciTaken 0xC405 p b s = true) :
    ((escSet s (le b 0 1)).state = .free → exec (.closeEscrowSet p b) s = .next (answerOnly 0xC405 p b 0x2 [] s)) ∧
    ((escSet s (le b 0 1)).state ≠ .free → (escSet s (le b 0 1)).state ≠ .open_ ∨ (escSet s (le b 0 1)).abandon = true →
      exec (.closeEscrowSet p b) s = .next (answerOnly 0xC405 p b 0x6 [] s)) ∧
    ((escSet s (le b 0 1)).state = .open_ → (escSet s (le b 0 1)).abandon = false →
      (escSet s (le b 0 1)).pendingWrites ≠ 0 ∨ (escSet s (le b 0 1)).inherit = false →
      ∃ t, exec (.closeEscrowSet p b) s = .next t ∧ (escSet t (le b 0 1)).state = .closing ∧
        (∀ m, m ≠ le b 0 1 → escSet t m = escSet s m) ∧
        (mbxOf t p).bg = some { opcode := 0xC405, result := 0, recs := 0, arg := le b 0 1 } ∧
        acted p 0xC405 1 [] s (s.modEsc fun e => { e with sets := t.esc.sets }) t) := by
  have hok := setIndexOk_of hn hz
  have hset : escSet (yciNoted 0xC405 p b s) (le b 0 1) = escSet s (le b 0 1) := by
    obtain ⟨r, hr⟩ := yciNoted_setRegs 0xC405 p b s; rw [hr]; rfl
  refine ⟨fun hfree => ?_, fun hheld hbusy => ?_, fun hopen hgoes hplain => ?_⟩
  · refine congrArg Host.Outcome.next (yciRun_err htaken (by decide) ?_)
    rw [yCloseEscrowSet]
    exact if_pos (by rw [hset, hfree]; exact Bool.or_true _)
  · refine congrArg Host.Outcome.next (yciRun_err htaken (by decide) ?_)
    simp only [yCloseEscrowSet, hset, hok]
    rw [if_neg (by simpa using hheld), if_pos (by simpa using hbusy)]; rfl
  · have hleft := bgStart_bgLeft p 0xC405 (le b 0 1) 0 (closeLeft (le b 0 1) (yciNoted 0xC405 p b s))
    have hsets := closeLeft_setsOnly (le b 0 1) (yciNoted 0xC405 p b s)
    have hdecl : mbxOf (closeLeft (le b 0 1) (yciNoted 0xC405 p b s)) p = mbxOf s p :=
      (Queued.mbxOf hsets p).trans ((by cases p <;> rfl : _ = _).trans (mbxOf_yciNoted 0xC405 p p b s))
    have hrun : exec (.closeEscrowSet p b) s = .next (mbxAnswer p 0xC405 rcStarted []
        (bgStart p 0xC405 (le b 0 1) 0 (closeLeft (le b 0 1) (yciNoted 0xC405 p b s))).st) :=
      congrArg Host.Outcome.next (yciRun_answers htaken (by decide)
        (yCloseEscrowSet_closes hok (hset ▸ hopen) (hset ▸ hgoes) (hset ▸ hplain)))
    have hesc := hleft.answer_esc 0xC405 rcStarted []
    refine ⟨_, hrun, ?_, fun m hm => ?_, hleft.answer_bg _ _ _, ?_⟩
    · rw [escSet_of_esc hesc]; exact closeLeft_state _ _
    · rw [escSet_of_esc hesc, closeLeft_ne hm]
      obtain ⟨r, hr⟩ := yciNoted_setRegs 0xC405 p b s; rw [hr]; rfl
    · rw [hesc]
      exact hleft.acted _ _ _ (by rw [hdecl]) (hsets.of_noted (yciNoted_sans 0xC405 p b s))

/-! ABANDON_ESCROW_SET (R240). -/

theorem esc_of_orders {s t : State} (h : t.orders = s.orders) : t.esc = s.esc := congrArg (fun o => o.2.1) h

/-- The set of an abandon that begins. -/
def Escrow.abandoned (x : Escrow) : Escrow :=
  { x with abandon := true, reserved := 0, oldFolios := x.staged.map (fun e => e.2 - 1) ++ x.ctrFolios.map (·.2),
           ctrFolios := [], stagedLines := [] }

theorem abandonStart_set (n : Nat) (u : State) : escSet (abandonStart n u) n = (escSet u n).abandoned := by
  have hdrop (q : Taken → Bool) : escSet (takenDrop q (abandonRecoin n u)) n = escSet u n :=
    escSet_of_esc (esc_of_orders (by simp)) n
  have hblank (ms : List Nat) (v : State) : (forEach ms (fun m s => queueBlank m (n + 1) s) v).esc = v.esc :=
    esc_of_orders (forEach_orders _ _ _ fun _ _ => queueBlank_orders _ _ _)
  rw [abandonStart, escSet_of_esc (jAppend_queued _ _).esc, escSet_of_esc (hblank _ _), escSet_modSet_same, hdrop]
  rfl

theorem abandonEscrowSet_spec {p : MbxPort} {b : List Byte} {s : State} (hn : le b 0 1 < 64) (hz : le b 1 3 = 0)
    (htaken : yciTaken 0xC406 p b s = true) :
    ((escSet s (le b 0 1)).state = .free → exec (.abandonEscrowSet p b) s = .next (answerOnly 0xC406 p b 0x2 [] s)) ∧
    ((escSet s (le b 0 1)).state = .preparing ∨ (escSet s (le b 0 1)).state = .committed ∨ (escSet s (le b 0 1)).state = .settling →
      exec (.abandonEscrowSet p b) s = .next (answerOnly 0xC406 p b 0x6 [] s)) ∧
    ((escSet s (le b 0 1)).state = .open_ ∨ (escSet s (le b 0 1)).state = .closing ∨ (escSet s (le b 0 1)).state = .closed →
      (escSet s (le b 0 1)).abandon = false →
      ∃ t, exec (.abandonEscrowSet p b) s = .next t ∧ (escSet t (le b 0 1)).abandon = true ∧ (escSet t (le b 0 1)).reserved = 0 ∧
        (escSet t (le b 0 1)).members = (escSet s (le b 0 1)).members ∧ (escSet t (le b 0 1)).ctrFolios = [] ∧
        (mbxOf t p).bg = some { opcode := 0xC406, result := 0, recs := 0, arg := le b 0 1 }) := by
  have hok := setIndexOk_of hn hz
  have hset : escSet (yciNoted 0xC406 p b s) (le b 0 1) = escSet s (le b 0 1) := by
    obtain ⟨r, hr⟩ := yciNoted_setRegs 0xC406 p b s; rw [hr]; rfl
  refine ⟨fun hfree => ?_, fun hheld => ?_, fun hheld hgoes => ?_⟩
  · refine congrArg Host.Outcome.next (yciRun_err htaken (by decide) ?_)
    rw [yAbandonEscrowSet]
    exact if_pos (by rw [hset, hfree]; exact Bool.or_true _)
  · refine congrArg Host.Outcome.next (yciRun_err htaken (by decide) ?_)
    simp only [yAbandonEscrowSet, hset, hok]
    rcases hheld with h | h | h <;> rw [h] <;> rfl
  · have hbody : yAbandonEscrowSet p b (yciNoted 0xC406 p b s) =
        bgStart p 0xC406 (le b 0 1) 0 (recordQueue recEscrow (abandonStart (le b 0 1) (yciNoted 0xC406 p b s))) := by
      simp only [yAbandonEscrowSet, hset, hok, hgoes]
      rcases hheld with h | h | h <;> rw [h] <;> rfl
    have hleft := bgStart_bgLeft p 0xC406 (le b 0 1) 0 (recordQueue recEscrow (abandonStart (le b 0 1) (yciNoted 0xC406 p b s)))
    have hx : escSet (mbxAnswer p 0xC406 rcStarted [] (bgStart p 0xC406 (le b 0 1) 0
        (recordQueue recEscrow (abandonStart (le b 0 1) (yciNoted 0xC406 p b s)))).st) (le b 0 1) = (escSet s (le b 0 1)).abandoned := by
      rw [escSet_of_esc (hleft.answer_esc 0xC406 rcStarted []), escSet_of_esc (recordQueue_queued _ _).esc, abandonStart_set, hset]
    have hrun : exec (.abandonEscrowSet p b) s = .next (mbxAnswer p 0xC406 rcStarted [] (bgStart p 0xC406 (le b 0 1) 0
        (recordQueue recEscrow (abandonStart (le b 0 1) (yciNoted 0xC406 p b s)))).st) :=
      congrArg Host.Outcome.next (yciRun_answers htaken (by decide) hbody)
    refine ⟨_, hrun, ?_, ?_, ?_, ?_, hleft.answer_bg _ _ _⟩
    all_goals rw [hx]; rfl

end Sys2Proof.Machine
end

section
/-! CREATE_ESCROW_SET (R234, R531): the set with its reservation and its members' prior states, and one ATTR to escrow per member. -/

namespace Sys2Proof.Machine

open Sys2Proof

/-- The checks of a payload's form (R379). -/
def createForm (b : List Byte) : Prop :=
  le b 0 1 < 64 ∧ le b 2 1 < 32 ∧ le b 3 1 ≤ 16 ∧ le b 4 4 = 0 ∧ b.length = 8 + 8 * le b 3 1

/-- The members, the key and the head of a set that can be created (R234). -/
def createValid (p : MbxPort) (b : List Byte) (key : Nat) (fs : List Nat) (s : State) : Prop :=
  (∀ k, k < le b 3 1 → extentOk s b (8 + 8 * k) = true) ∧ fs.Nodup ∧ (∀ f ∈ fs, memberOk s key f = true) ∧ key < 128 ∧
  (domKey s key).isSome = true ∧ domSealed s key = false ∧ headAllowed s key (headOf p) = true ∧ fs.length ≤ 16384 ∧
  allMembers s + fs.length ≤ 65536

/-- What a set of n members needs left in the reserve (R531). -/
def createNeeds (n : Nat) (s : State) : Nat := floorF s + escReserved s + n + (n + 63) / 64

theorem createForm.passes {b : List Byte} (h : createForm b) :
    (64 ≤ le b 0 1 || 32 ≤ le b 2 1 || 16 < le b 3 1 || le b 4 4 != 0 || b.length != 8 + 8 * le b 3 1) = false := by
  obtain ⟨hn, hopts, hcnt, hz, hlen⟩ := h
  simp only [Bool.or_eq_false_iff, decide_eq_false_iff_not, bne_eq_false_iff_eq]
  exact ⟨⟨⟨⟨by omega, by omega⟩, by omega⟩, hz⟩, hlen⟩

theorem createValid.passes {p : MbxPort} {b : List Byte} {key : Nat} {fs : List Nat} {s : State} (h : createValid p b key fs s) :
    (!(List.range (le b 3 1)).all (fun k => extentOk s b (8 + 8 * k)) || !fs.Nodup || !fs.all (memberOk s key) ||
      128 ≤ key || (domKey s key).isNone || domSealed s key || !headAllowed s key (headOf p) ||
      16384 < fs.length || 65536 < allMembers s + fs.length) = false := by
  obtain ⟨hext, hnodup, hmembers, hkey, hdom, hsealed, hhead, hlen, hall⟩ := h
  have hext : (List.range (le b 3 1)).all (fun k => extentOk s b (8 + 8 * k)) = true :=
    List.all_eq_true.mpr fun k hk => hext k (List.mem_range.mp hk)
  rw [hext, decide_eq_true hnodup, List.all_eq_true.mpr hmembers, decide_eq_false (Nat.not_le.mpr hkey), Option.isNone_eq_false_iff.mpr hdom, hsealed,
    hhead, decide_eq_false (Nat.not_lt.mpr hlen), decide_eq_false (Nat.not_lt.mpr hall)]
  rfl

theorem yCreateEscrowSet_busy {p : MbxPort} {b : List Byte} {s : State} (hform : createForm b) (h : (escSet s (le b 0 1)).state ≠ .free) :
    yCreateEscrowSet p b s = errAns rcBusy s := by
  rw [yCreateEscrowSet, if_neg (ne_true_of_eq_false hform.passes), if_pos (by simpa using h)]

theorem yCreateEscrowSet_valid {p : MbxPort} {b : List Byte} {s : State} (hform : createForm b) (hfree : (escSet s (le b 0 1)).state = .free)
    (hvalid : createValid p b (le b 1 1) (escExtents b (le b 3 1)) s) :
    yCreateEscrowSet p b s =
      if reserveLeft s < createNeeds (escExtents b (le b 3 1)).length s ||
          provisionable s < ((escExtents b (le b 3 1)).filter fun f => !provisioned (ent s f)).length then errAns rcCapacity s
      else createSet p (le b 0 1) (le b 1 1) (le b 2 1) (escExtents b (le b 3 1)) s := by
  rw [yCreateEscrowSet, if_neg (ne_true_of_eq_false hform.passes), if_neg (by rw [hfree]; decide), if_neg (ne_true_of_eq_false hvalid.passes)]
  rfl

/-! What a set's creation leaves. -/

/-- A table's entries put for each key of a list read as put. -/
theorem tget_foldl_tput {α : Type} [DecidableEq α] (d : α) (v : Nat → α) {ks : List Nat} {k : Nat} (h : k ∈ ks) (t : Tab α) :
    tget d (ks.foldl (fun t k => tput d t k (v k)) t) k = v k := by
  have hkeep : ∀ (js : List Nat) (u : Tab α), tget d u k = v k → tget d (js.foldl (fun t k => tput d t k (v k)) u) k = v k := by
    intro js
    induction js with
    | nil => exact fun _ hu => hu
    | cons j js ih =>
      refine fun u hu => ih _ ?_
      by_cases hj : k = j
      · subst hj; exact tget_tput_same _ _ _ _
      · rw [tget_tput_ne _ _ _ _ _ _ hj, hu]
  induction ks generalizing t with
  | nil => exact absurd h List.not_mem_nil
  | cons j ks ih =>
    rcases List.mem_cons.mp h with rfl | hk
    · exact hkeep ks _ (tget_tput_same _ _ _ _)
    · exact ih hk _

/-- The state that a folio has before it becomes a member. -/
def priorCode (s : State) (f : Nat) : Nat := stateCode (if provisioned (ent s f) then (ent s f).state else .blankMapped)

/-- The attributes of a member: those of the payload where its folio was not provisioned. -/
def memberAttrs (opts : Nat) (s : State) (f : Nat) : Nat := if provisioned (ent s f) then attrBits (ent s f) else opts / 2 % 16

def createdSet (key opts : Nat) (fs : List Nat) (s : State) : Escrow :=
  { (default : Escrow) with
    state := .open_, inherit := bit opts 0, key := key, reserved := fs.length + (fs.length + 63) / 64,
    prior := fs.foldl (fun t f => tput 0 t f (priorCode s f + 1)) [] }

def createRecs (key opts : Nat) (fs : List Nat) (s : State) : List JRec :=
  fs.map fun f => jAttr f key (memberAttrs opts s f) .escrow (ent s f).gen.toNat

/-- The set, and the extents of the members that are provisioned with it, before the record is queued. -/
def createdBase (n key opts : Nat) (fs : List Nat) (s : State) : State :=
  forEach (fs.filter fun f => !provisioned (ent s f)) (fun f s =>
    extentPut f (withAttrBits { entry0 with key := key, state := .blankMapped } (opts / 2 % 16)) s) (modSet n (fun _ => createdSet key opts fs s) s)

/-- Only provisioning extents have changed. -/
def ExtentsOnly (s t : State) : Prop := t = s.modLed fun l => { l with extents := t.led.extents }

theorem ExtentsOnly.refl (s : State) : ExtentsOnly s s := rfl

theorem ExtentsOnly.trans {a b c : State} (h : ExtentsOnly a b) (g : ExtentsOnly b c) : ExtentsOnly a c := by
  rw [ExtentsOnly] at h g ⊢
  have hb := congrArg (fun s : State => s.modLed fun l => { l with extents := c.led.extents }) h
  exact g.trans hb

theorem extentPut_extentsOnly (f : Nat) (e : LEntry) (s : State) : ExtentsOnly s (extentPut f e s) := rfl

theorem createdBase_extentsOnly (n key opts : Nat) (fs : List Nat) (s : State) :
    ExtentsOnly (modSet n (fun _ => createdSet key opts fs s) s) (createdBase n key opts fs s) :=
  forEach_related (R := ExtentsOnly) .refl .trans _ (fun _ _ => extentPut_extentsOnly _ _ _) _

theorem createdBase_esc (n key opts : Nat) (fs : List Nat) (s : State) :
    (createdBase n key opts fs s).esc = (modSet n (fun _ => createdSet key opts fs s) s).esc := by
  rw [createdBase_extentsOnly n key opts fs s]; rfl

theorem createdBase_appends (n key opts : Nat) (fs : List Nat) (s : State) : (createdBase n key opts fs s).led.appends = s.led.appends := by
  rw [createdBase_extentsOnly n key opts fs s]; rfl

theorem createdBase_mbxOf (n key opts : Nat) (fs : List Nat) (s : State) (p : MbxPort) : mbxOf (createdBase n key opts fs s) p = mbxOf s p := by
  rw [createdBase_extentsOnly n key opts fs s]; cases p <;> rfl

/-- The creation seen without the mailbox. -/
theorem createdBase_of_noted {p : MbxPort} {n key opts : Nat} {fs : List Nat} {s u : State} (hu : Noted (s.sans p) (u.sans p)) :
    Noted (((s.modEsc fun e => { e with sets := (createdBase n key opts fs u).esc.sets }).modLed fun l =>
      { l with extents := (createdBase n key opts fs u).led.extents }).sans p) ((createdBase n key opts fs u).sans p) := by
  have h := congrArg (fun s => s.sans p) (createdBase_extentsOnly n key opts fs u)
  rw [createdBase_esc, h, modLed_sans, modLed_sans, modSet, modEsc_sans, modEsc_sans]
  have hsets : ((u.sans p).modEsc fun e => { e with sets := tmod default e.sets n fun _ => createdSet key opts fs u }) =
      (u.sans p).modEsc fun e => { e with sets := (u.modEsc fun e => { e with
        sets := tmod default e.sets n fun _ => createdSet key opts fs u }).esc.sets } := by cases p <;> rfl
  rw [hsets]
  exact (hu.modEsc _).modLed _

theorem createdBase_ent (n key opts : Nat) (fs : List Nat) (s : State) (f : Nat) : ent (createdBase n key opts fs s) f = ent s f := by
  rw [createdBase_extentsOnly n key opts fs s]; rfl

theorem createSet_eq (p : MbxPort) (n key opts : Nat) (fs : List Nat) (s : State) : createSet p n key opts fs s =
    ⟨rcStarted, [], modMbx p (fun m => { m with bg := m.bg.map fun b => { b with arg := n } }) (jAppendFor p (createRecs key opts fs s)
      (bgStart p 0xC404 0 (createRecs key opts fs s).length (recordQueue recEscrow (createdBase n key opts fs s))).st)⟩ := by
  have hrecs : createRecs key opts fs s = fs.map fun f =>
      jAttr f key (memberAttrs opts s f) .escrow (ent (createdBase n key opts fs s) f).gen.toNat := by
    simp only [createdBase_ent]; rfl
  rw [hrecs]; rfl

theorem BgLeft.queued {p : MbxPort} {bg : BgCmd} {u v w : State} (h : BgLeft p bg u v) (hq : Queued v w) : BgLeft p bg u w := by
  obtain ⟨hesc, hbg, hdecl, hv⟩ := h
  exact ⟨hq.esc.trans hesc, by rw [hq.mbxOf, hbg], by rw [hq.mbxOf, hdecl], hv.trans (hq.sans p)⟩

theorem BgLeft.modBg {p : MbxPort} {bg : BgCmd} {u v : State} (h : BgLeft p bg u v) (g : BgCmd → BgCmd) :
    BgLeft p (g bg) u (modMbx p (fun m => { m with bg := m.bg.map g }) v) := by
  obtain ⟨hesc, hbg, hdecl, hv⟩ := h
  exact ⟨(modMbx_esc _ _ _).trans hesc, by simp [hbg], by simp [hdecl], by rw [modMbx_sans]; exact hv⟩

theorem createSet_bgLeft (p : MbxPort) (n key opts : Nat) (fs : List Nat) (s : State) :
    BgLeft p { opcode := 0xC404, result := 0, recs := fs.length, arg := n } (recordQueue recEscrow (createdBase n key opts fs s))
      (createSet p n key opts fs s).st := by
  have hrecs : (createRecs key opts fs s).length = fs.length := List.length_map _
  rw [createSet_eq, hrecs]
  exact ((bgStart_bgLeft p 0xC404 0 fs.length _).queued (jAppend_queued _ _)).modBg fun b => { b with arg := n }

theorem createSet_appends (p : MbxPort) (n key opts : Nat) (fs : List Nat) (s : State) :
    (createSet p n key opts fs s).st.led.appends = s.led.appends ++ (createRecs key opts fs s).map fun r => { r with own := mbxNo p } := by
  rw [createSet_eq, modMbx_led, jAppendFor, jAppend_appends, bgStart, modMbx_led, recordQueue, pageQueue_appends, createdBase_appends]

theorem createRecs_fields (p : MbxPort) (key opts : Nat) (fs : List Nat) (s : State) :
    ((createRecs key opts fs s).map fun r => { r with own := mbxNo p }).map (fun r => (r.type, r.a, r.b, r.c / 32, r.d, r.own)) =
      fs.map fun f => (0x04, f, key, stateCode .escrow, (ent s f).gen.toNat, mbxNo p) := by
  rw [createRecs, List.map_map, List.map_map]
  refine List.map_congr_left fun f _ => ?_
  have hcode : (memberAttrs opts s f % 32 + 32 * stateCode .escrow) / 32 = stateCode .escrow := by omega
  exact congrArg (fun c => (0x04, f, key, c, (ent s f).gen.toNat, mbxNo p)) hcode

theorem createEscrowSet_spec {p : MbxPort} {b : List Byte} {s : State} (htaken : yciTaken 0xC404 p b s = true) (hform : createForm b) :
    ((escSet s (le b 0 1)).state ≠ .free → exec (.createEscrowSet p b) s = .next (answerOnly 0xC404 p b 0x6 [] s)) ∧
    ((escSet s (le b 0 1)).state = .free → createValid p b (le b 1 1) (escExtents b (le b 3 1)) s →
      (reserveLeft s < createNeeds (escExtents b (le b 3 1)).length s →
        exec (.createEscrowSet p b) s = .next (answerOnly 0xC404 p b 0x11 [] s)) ∧
      (createNeeds (escExtents b (le b 3 1)).length s ≤ reserveLeft s →
        ((escExtents b (le b 3 1)).filter fun f => !provisioned (ent s f)).length ≤ provisionable s →
        ∃ t, exec (.createEscrowSet p b) s = .next t ∧
          escSet t (le b 0 1) = createdSet (le b 1 1) (le b 2 1) (escExtents b (le b 3 1)) s ∧
          (∀ m, m ≠ le b 0 1 → escSet t m = escSet s m) ∧
          (mbxOf t p).bg = some { opcode := 0xC404, result := 0, recs := (escExtents b (le b 3 1)).length, arg := le b 0 1 } ∧
          (t.led.appends.drop s.led.appends.length).map (fun r => (r.type, r.a, r.b, r.c / 32, r.d, r.own)) =
            (escExtents b (le b 3 1)).map (fun f => (0x04, f, le b 1 1, stateCode .escrow, (ent s f).gen.toNat, mbxNo p)) ∧
          acted p 0xC404 1 [] s ((s.modEsc fun e => { e with sets := t.esc.sets }).modLed fun l => { l with extents := t.led.extents }) t)) := by
  obtain ⟨r, hr, hcmd⟩ := yciNoted_cmdOnly 0xC404 p b s
  have hsans := yciNoted_sans 0xC404 p b s
  rw [hr] at hsans
  generalize hfs : escExtents b (le b 3 1) = fs
  refine ⟨fun hheld => ?_, fun hfree hvalid => ?_⟩
  · refine congrArg Host.Outcome.next (yciRun_err htaken (by decide) ?_)
    rw [hr]; exact yCreateEscrowSet_busy hform hheld
  have hbody := yCreateEscrowSet_valid (s := s.setRegs r) hform hfree (by rw [hfs]; exact hvalid)
  have hneeds : createNeeds fs.length (s.setRegs r) = createNeeds fs.length s := by rw [createNeeds, hcmd.floorF]; rfl
  rw [hfs, hneeds, hcmd.provisionable] at hbody
  refine ⟨fun hshort => ?_, fun hroom hprov => ?_⟩
  · refine congrArg Host.Outcome.next (yciRun_err htaken (by decide) ?_)
    rw [hr, hbody]
    exact if_pos (by rw [Bool.or_eq_true]; exact .inl (decide_eq_true hshort))
  rw [if_neg (by rw [Bool.or_eq_true, decide_eq_true_iff, decide_eq_true_iff]; rintro (h | h); exacts [absurd h (Nat.not_lt.mpr hroom), absurd h (Nat.not_lt.mpr hprov)])] at hbody
  have hleft := createSet_bgLeft p (le b 0 1) (le b 1 1) (le b 2 1) fs (s.setRegs r)
  have happ := createSet_appends p (le b 0 1) (le b 1 1) (le b 2 1) fs (s.setRegs r)
  have hrun : exec (.createEscrowSet p b) s = .next (mbxAnswer p 0xC404 rcStarted []
      (createSet p (le b 0 1) (le b 1 1) (le b 2 1) fs (s.setRegs r)).st) :=
    congrArg Host.Outcome.next (yciRun_answers htaken (by decide) (by rw [hr, hbody]; rfl))
  have hesc := (hleft.answer_esc 0xC404 rcStarted []).trans ((recordQueue_queued _ _).esc.trans (createdBase_esc _ _ _ _ _))
  refine ⟨_, hrun, ?_, fun m hm => ?_, hleft.answer_bg _ _ _, ?_, ?_⟩
  · exact (escSet_of_esc hesc _).trans (escSet_modSet_same _ _ _)
  · exact (escSet_of_esc hesc m).trans (escSet_modSet_ne hm _ _)
  · rw [mbxAnswer_led, happ]
    exact (congrArg _ (List.drop_left ..)).trans (createRecs_fields p _ _ fs _)
  · have hbase := createdBase_of_noted (n := le b 0 1) (key := le b 1 1) (opts := le b 2 1) (fs := fs) hsans
    have hq := recordQueue_queued recEscrow (createdBase (le b 0 1) (le b 1 1) (le b 2 1) fs (s.setRegs r))
    have hext : (createSet p (le b 0 1) (le b 1 1) (le b 2 1) fs (s.setRegs r)).st.led.extents =
        (createdBase (le b 0 1) (le b 1 1) (le b 2 1) fs (s.setRegs r)).led.extents := by
      rw [createSet_eq, modMbx_led, jAppendFor, (jAppend_queued _ _).ledger (·.extents), bgStart, modMbx_led, hq.ledger (·.extents)]
    rw [hesc, ← createdBase_esc, mbxAnswer_led, hext]
    refine hleft.acted _ _ _ ?_ (hbase.queued.trans (hq.sans p))
    rw [hq.mbxOf, createdBase_mbxOf, mbxOf_setRegs]

end Sys2Proof.Machine
end

section
/-! The events of a set: its close goes on and ends, its abandon and its settling end, and a release is prepared (R237-R240). -/

namespace Sys2Proof.Machine

open Sys2Proof

/-! SET_CLOSED (R237). -/

theorem setClosed_waits {n : Nat} {s : State}
    (h : (escSet s n).state ≠ .closing ∨ (escSet s n).abandon = true ∨ 0 < (escSet s n).pendingWrites) : exec (.setClosed n) s = .next s := by
  refine if_pos (c := ((escSet s n).state != .closing || (escSet s n).abandon || 0 < (escSet s n).pendingWrites) = true) ?_
  simpa [or_assoc] using h

/-- A close whose staging writes and copies are done. -/
theorem exec_setClosed_goes {n : Nat} {s : State} (hstate : (escSet s n).state = .closing) (hgoes : (escSet s n).abandon = false)
    (hdone : (escSet s n).pendingWrites = 0) (hitems : (escSet s n).items ≠ 0) :
    exec (.setClosed n) s =
      let u := if (escSet s n).items == 1 then closeReturn n s else s
      if attrsPending u n then .next u
      else .next (raise 7 2 0x01 (det3 n 0) (recordQueue recEscrow (modSet n (fun x => { x with state := .closed, reserved := 0, items := 0 }) u))) := by
  refine (if_neg (c := ((escSet s n).state != .closing || (escSet s n).abandon || 0 < (escSet s n).pendingWrites) = true) ?_).trans ?_
  · simp [hstate, hgoes, hdone]
  · simp [hitems, hdone]

/-- The members that leave a set that inherits, with what they return to. -/
def leaving (n : Nat) (s : State) : List JRec :=
  ((escSet s n).members.filter fun f => (stagedFolio s n f).isNone).map fun f =>
    jAttr f (ent s f).key (attrBits (ent s f)) (stateOf (tget 1 (escSet s n).prior f - 1)) (ent s f).gen.toNat

theorem closeReturn_leaving {n : Nat} {s : State} (h : (escSet s n).inherit = true) :
    closeReturn n s = jAppend (leaving n s) (modSet n (fun x => { x with items := 2 }) s) := by
  rw [closeReturn, h]; rfl

theorem setClosed_returns {n : Nat} {s : State} (hstate : (escSet s n).state = .closing) (hgoes : (escSet s n).abandon = false)
    (hdone : (escSet s n).pendingWrites = 0) (hitems : (escSet s n).items = 1) (hinherit : (escSet s n).inherit = true)
    (hleave : ((escSet s n).members.filter fun f => (stagedFolio s n f).isNone) ≠ []) :
    ∃ t, exec (.setClosed n) s = .next t ∧ t.led.appends = s.led.appends ++ leaving n s ∧
      Queued (modSet n (fun x => { x with items := 2 }) s) t := by
  have hq := jAppend_queued (leaving n s) (modSet n (fun x => { x with items := 2 }) s)
  have happ : (jAppend (leaving n s) (modSet n (fun x => { x with items := 2 }) s)).led.appends = s.led.appends ++ leaving n s :=
    jAppend_appends _ _
  have hpending : attrsPending (jAppend (leaving n s) (modSet n (fun x => { x with items := 2 }) s)) n = true := by
    obtain ⟨f, hf⟩ := List.exists_mem_of_ne_nil _ hleave
    have hmembers : (escSet (jAppend (leaving n s) (modSet n (fun x => { x with items := 2 }) s)) n).members = (escSet s n).members := by
      rw [escSet_of_esc hq.esc, escSet_modSet_same]
    rw [attrsPending, happ, hmembers, List.any_append, Bool.or_eq_true]
    refine .inr (List.any_eq_true.mpr ⟨_, List.mem_map.mpr ⟨f, hf, rfl⟩, ?_⟩)
    simpa [jAttr, jrec] using (List.mem_filter.mp hf).1
  refine ⟨_, (exec_setClosed_goes hstate hgoes hdone (by omega)).trans ?_, happ, hq⟩
  rw [hitems, closeReturn_leaving hinherit]
  exact if_pos hpending

theorem setClosed_pending {n : Nat} {s : State} (hstate : (escSet s n).state = .closing) (hgoes : (escSet s n).abandon = false)
    (hdone : (escSet s n).pendingWrites = 0) (hitems : 2 ≤ (escSet s n).items) (hpending : attrsPending s n = true) :
    exec (.setClosed n) s = .next s := by
  refine (exec_setClosed_goes hstate hgoes hdone (by omega)).trans ?_
  rw [show ((escSet s n).items == 1) = false from beq_false_of_ne (by omega)]
  exact if_pos hpending

theorem setClosed_closes {n : Nat} {s : State} (hstate : (escSet s n).state = .closing) (hgoes : (escSet s n).abandon = false)
    (hdone : (escSet s n).pendingWrites = 0) (hitems : 2 ≤ (escSet s n).items) (hpending : attrsPending s n = false) :
    ∃ t, exec (.setClosed n) s = .next t ∧ Pends 7 2 0x01 t ∧
      Queued (modSet n (fun x => { x with state := .closed, reserved := 0, items := 0 }) s) t := by
  have hrun : exec (.setClosed n) s = .next (raise 7 2 0x01 (det3 n 0) (recordQueue recEscrow
      (modSet n (fun x => { x with state := .closed, reserved := 0, items := 0 }) s))) := by
    refine (exec_setClosed_goes hstate hgoes hdone (by omega)).trans ?_
    rw [show ((escSet s n).items == 1) = false from beq_false_of_ne (by omega)]
    exact if_neg (ne_true_of_eq_false hpending)
  exact ⟨_, hrun, raise_pends_low 7 2 0x01 _ _ (by decide) (by decide) (by decide),
    (recordQueue_queued _ _).trans (raise_noted _ _ _ _ _).queued⟩

/-! SET_ABANDONED and RELEASE_DONE (R239, R240). -/

theorem setAbandoned_waits {n : Nat} {s : State}
    (h : (escSet s n).abandon = false ∨ (escSet s n).oldFolios ≠ [] ∨ (escSet s n).members ≠ []) : exec (.setAbandoned n) s = .next s := by
  refine if_pos (c := (!(escSet s n).abandon || !(escSet s n).oldFolios.isEmpty || !(escSet s n).members.isEmpty) = true) ?_
  simpa [or_assoc] using h

theorem setAbandoned_frees {n : Nat} {s : State} (hab : (escSet s n).abandon = true) (hold : (escSet s n).oldFolios = [])
    (hmembers : (escSet s n).members = []) :
    ∃ t, exec (.setAbandoned n) s = .next t ∧ Pends 7 2 0x05 t ∧ Queued (modSet n (fun _ => default) s) t := by
  have hrun : exec (.setAbandoned n) s = .next (raise 7 2 0x05 (det3 n 0) (recordQueue recEscrow (modSet n (fun _ => default) s))) :=
    if_neg (c := (!(escSet s n).abandon || !(escSet s n).oldFolios.isEmpty || !(escSet s n).members.isEmpty) = true)
      (by simp [hab, hold, hmembers])
  exact ⟨_, hrun, raise_pends_low 7 2 0x05 _ _ (by decide) (by decide) (by decide),
    (recordQueue_queued _ _).trans (raise_noted _ _ _ _ _).queued⟩

theorem releaseDone_waits {n : Nat} {s : State} (h : (escSet s n).state ≠ .settling ∨ (escSet s n).oldFolios ≠ []) :
    exec (.releaseDone n) s = .next s := by
  refine if_pos (c := ((escSet s n).state != .settling || !(escSet s n).oldFolios.isEmpty) = true) ?_
  simpa using h

theorem releaseDone_frees {n : Nat} {s : State} (hstate : (escSet s n).state = .settling) (hold : (escSet s n).oldFolios = []) :
    ∃ t, exec (.releaseDone n) s = .next t ∧ Pends 7 2 0x03 t ∧ (escSet t n).state = .free ∧ n ∉ t.esc.index ∧
      Queued (modSet n (fun _ => default) (s.modEsc fun e => { e with index := e.index.filter fun i => i != n })) t := by
  have hrun : exec (.releaseDone n) s = .next (raise 7 2 0x03 (det3 n (escSet s n).members.length) (recordQueue recEscrow
      (modSet n (fun _ => default) (s.modEsc fun e => { e with index := e.index.filter fun i => i != n })))) :=
    if_neg (c := ((escSet s n).state != .settling || !(escSet s n).oldFolios.isEmpty) = true) (by simp [hstate, hold])
  have hq := (recordQueue_queued recEscrow (modSet n (fun _ => default) (s.modEsc fun e => { e with
    index := e.index.filter fun i => i != n }))).trans (raise_noted 7 2 0x03 (det3 n (escSet s n).members.length) _).queued
  refine ⟨_, hrun, raise_pends_low 7 2 0x03 _ _ (by decide) (by decide) (by decide), ?_, ?_, hq⟩
  · rw [escSet_of_esc hq.esc, escSet_modSet_same]; rfl
  · rw [hq.esc]; simp [modSet]

/-! RELEASE_PREPARATION_START (R238). -/

theorem exec_releasePreparationStart (i n : Nat) (e : SoEntry) (s : State) (he : e = soEnt s i) (hn : n = soArg e.bytes 0 1) :
    exec (.releasePreparationStart i) s =
      if e.state != .armed || soAction e.bytes != 2 || e.prepared || !soRunning s || !s.led.memActive || !s.ctl.cpuUp ||
        mintNow s + prepLead (escSet s n).members.length < soFire e.bytes then .next s
      else if (escSet s n).state != .closed || (escSet s n).abandon then
        .next (raise 7 2 0x04 (det4 i (soTag e.bytes) 0 (soFire e.bytes)) (bump 640 1
          (modSo i (fun e' => soAdvance e' (max (soFire e.bytes) ((mintNow s / 1024 + 1) * 1024)))
            (s.modSo fun o => { o with fired := satAdd 0xFFFFFFFF o.fired 1 }))))
      else .next (releasePrepare n i (soFire e.bytes) (modSo i (fun e => { e with prepared := true }) s)) := by
  subst he hn; rfl

/-- What a hold of a migration leaves alone. -/
def State.unheld (s : State) : Orders × Escrows × Media × List JRec × Tab LEntry := (s.so, s.esc, s.med, s.led.appends, s.led.entries)

theorem migHold_unheld (f : Nat) (s : State) : (migHold f s).unheld = s.unheld := by
  rw [migHold]; split <;> rfl

theorem migHolds_keep (fs : List Nat) (s : State) :
    (forEach fs migHold s).so = s.so ∧ (forEach fs migHold s).esc = s.esc ∧ (forEach fs migHold s).med = s.med ∧
    (forEach fs migHold s).led.appends = s.led.appends ∧ (forEach fs migHold s).led.entries = s.led.entries := by
  have h := forEach_keeps State.unheld fs migHold_unheld s
  simpa only [State.unheld, Prod.mk.injEq] using h

/-- The records of a preparation (R238 step 2). -/
def releaseRecs (n fire : Nat) (s : State) : List JRec :=
  [jrec 0x06 n (escSet s n).members.length 0 0 fire] ++
    (escSet s n).members.map (fun f => jrec 0x07 n (ent s f).media ((stagedFolio s n f).getD noFolio) ((ent s f).gen + 1).toNat f) ++
    [jrec 0x08 n (escSet s n).members.length 0 0 0]

/-- A set that is being prepared for an entry, its members' migrations held. -/
def preparing (n i : Nat) (s : State) : State :=
  modSet n (fun x => { x with state := .preparing, entry := i + 1 }) (forEach (escSet s n).members migHold s)

theorem releasePrepare_eq (n i fire : Nat) (s : State) : releasePrepare n i fire s = jAppend (releaseRecs n fire s) (preparing n i s) := by
  obtain ⟨-, hesc, -, -, hentries⟩ := migHolds_keep (escSet s n).members s
  have hent : ∀ f, ent (preparing n i s) f = ent s f := fun f => congrArg (fun es => tget entry0 es f) hentries
  have hstaged : ∀ f, stagedFolio (preparing n i s) n f = stagedFolio s n f := fun f => by
    rw [stagedFolio, preparing, escSet_modSet_same, escSet_of_esc hesc]; rfl
  have hrecs : releaseRecs n fire s = [jrec 0x06 n (escSet s n).members.length 0 0 fire] ++
      (escSet s n).members.map (fun f => jrec 0x07 n (ent (preparing n i s) f).media ((stagedFolio (preparing n i s) n f).getD noFolio)
        ((ent (preparing n i s) f).gen + 1).toNat f) ++ [jrec 0x08 n (escSet s n).members.length 0 0 0] := by
    simp only [hent, hstaged]; rfl
  rw [hrecs]; rfl

theorem releaseRecs_kinds (n fire : Nat) (s : State) : (releaseRecs n fire s).map (fun r => (r.type, r.a)) =
    [(0x06, n)] ++ (escSet s n).members.map (fun _ => (0x07, n)) ++ [(0x08, n)] := by
  rw [releaseRecs, List.map_append, List.map_append, List.map_map]; rfl

theorem releaseRecs_items (n fire : Nat) (s : State) : ((releaseRecs n fire s).filter (·.type == 0x07)).map (fun r => (r.e, r.b, r.c, r.d)) =
    (escSet s n).members.map fun f => (f, (ent s f).media, (stagedFolio s n f).getD noFolio, ((ent s f).gen + 1).toNat) := by
  have hitems : ((escSet s n).members.map fun f => jrec 0x07 n (ent s f).media ((stagedFolio s n f).getD noFolio)
      ((ent s f).gen + 1).toNat f).filter (·.type == 0x07) = (escSet s n).members.map fun f =>
        jrec 0x07 n (ent s f).media ((stagedFolio s n f).getD noFolio) ((ent s f).gen + 1).toNat f :=
    List.filter_eq_self.mpr fun r hr => by obtain ⟨f, -, rfl⟩ := List.mem_map.mp hr; rfl
  rw [releaseRecs, List.filter_append, List.filter_append, hitems]
  simp [jrec, Function.comp_def]

section
variable {i n : Nat} {e : SoEntry} {s : State} (he : e = soEnt s i) (hn : n = soArg e.bytes 0 1)
include he hn

theorem releasePreparationStart_waits (h : e.state ≠ .armed ∨ soAction e.bytes ≠ 2 ∨ e.prepared = true ∨ soRunning s = false ∨
    s.led.memActive = false ∨ s.ctl.cpuUp = false ∨ mintNow s + prepLead (escSet s n).members.length < soFire e.bytes) :
    exec (.releasePreparationStart i) s = .next s := by
  rw [exec_releasePreparationStart i n e s he hn]
  exact if_pos (by simpa [or_assoc] using h)

/-- At its lead, an armed release is prepared or refused. -/
theorem releasePreparationStart_due (harmed : e.state = .armed) (haction : soAction e.bytes = 2) (hprep : e.prepared = false)
    (hrun : soRunning s = true) (hmem : s.led.memActive = true) (hcpu : s.ctl.cpuUp = true)
    (hlead : soFire e.bytes ≤ mintNow s + prepLead (escSet s n).members.length) :
    exec (.releasePreparationStart i) s = if (escSet s n).state != .closed || (escSet s n).abandon then
        .next (raise 7 2 0x04 (det4 i (soTag e.bytes) 0 (soFire e.bytes)) (bump 640 1
          (modSo i (fun e' => soAdvance e' (max (soFire e.bytes) ((mintNow s / 1024 + 1) * 1024)))
            (s.modSo fun o => { o with fired := satAdd 0xFFFFFFFF o.fired 1 }))))
      else .next (releasePrepare n i (soFire e.bytes) (modSo i (fun e => { e with prepared := true }) s)) := by
  rw [exec_releasePreparationStart i n e s he hn]
  exact if_neg (by simpa [harmed, haction, hprep, hrun, hmem, hcpu] using hlead)

end

theorem releasePrepare_spec (n i : Nat) (s u : State) (hu : u = modSo i (fun e => { e with prepared := true }) s) (fire : Nat) :
    ∃ t, releasePrepare n i fire u = t ∧ soEnt t i = { soEnt s i with prepared := true } ∧
      (escSet t n).state = .preparing ∧ (escSet t n).entry = i + 1 ∧ (escSet t n).members = (escSet s n).members ∧
      (t.led.appends.drop s.led.appends.length).map (fun r => (r.type, r.a)) =
        [(0x06, n)] ++ (escSet s n).members.map (fun _ => (0x07, n)) ++ [(0x08, n)] ∧
      ((t.led.appends.drop s.led.appends.length).filter (·.type == 0x07)).map (fun r => (r.e, r.b, r.c, r.d)) =
        (escSet s n).members.map (fun f => (f, (ent s f).media, (stagedFolio s n f).getD noFolio, ((ent s f).gen + 1).toNat)) ∧
      t.led.entries = s.led.entries ∧ t.med = s.med := by
  obtain ⟨hso, hesc, hmed, happ, hentries⟩ := migHolds_keep (escSet u n).members u
  have hq := jAppend_queued (releaseRecs n fire u) (preparing n i u)
  have hset : escSet (jAppend (releaseRecs n fire u) (preparing n i u)) n = { escSet u n with state := .preparing, entry := i + 1 } := by
    rw [escSet_of_esc hq.esc, preparing, escSet_modSet_same, escSet_of_esc hesc]
  have hdrop : (jAppend (releaseRecs n fire u) (preparing n i u)).led.appends.drop s.led.appends.length = releaseRecs n fire u := by
    have hbefore : (preparing n i u).led.appends = s.led.appends := happ.trans (by rw [hu]; rfl)
    rw [jAppend_appends, hbefore, List.drop_left]
  refine ⟨_, releasePrepare_eq n i fire u, ?_, by rw [hset], by rw [hset], by rw [hset, hu]; rfl, ?_, ?_, ?_, ?_⟩
  · rw [soEnt_of_so (hq.so.trans hso), hu, soEnt_modSo_same]
  · rw [hdrop, releaseRecs_kinds, hu]; rfl
  · rw [hdrop, releaseRecs_items, hu]; rfl
  · rw [hq.ledger (·.entries)]; exact hentries.trans (by rw [hu]; rfl)
  · exact hq.med.trans (hmed.trans (by rw [hu]; rfl))

/-- A firing that is refused is counted, and its entry goes on to the next. -/
def refusedFiring (i frame : Nat) (s : State) : State :=
  modSo i (fun e => soAdvance e frame) (s.modSo fun o => { o with fired := satAdd 0xFFFFFFFF o.fired 1 })

theorem refusedFiring_fired (i frame : Nat) (s : State) : (refusedFiring i frame s).so.fired = satAdd 0xFFFFFFFF s.so.fired 1 := by
  simp only [refusedFiring, modSo, State.modSo_so]

theorem releaseRefused_spec (i frame : Nat) (d : Det) (s : State) :
    ∃ t, raise 7 2 0x04 d (bump 640 1 (refusedFiring i frame s)) = t ∧ Pends 7 2 0x04 t ∧
      t.so.fired = satAdd 0xFFFFFFFF s.so.fired 1 ∧ ctr t 640 = ctr s 640 + 1 ∧ t.esc = s.esc ∧ t.led = s.led ∧
      soEnt t i = soAdvance (soEnt s i) frame := by
  have h := ((Noted.refl (refusedFiring i frame s)).bump 640 1).raise 7 2 0x04 d
  refine ⟨_, rfl, raise_pends_low 7 2 0x04 d _ (by decide) (by decide) (by decide), ?_, ?_, ?_, ?_, ?_⟩
  · rw [h.so, State.counted, State.modEv_so, refusedFiring_fired]
  · rw [h.ctr 640 (by decide), State.counted_ctr_same, ctr, refusedFiring, modSo, State.modSo_ev, State.modSo_ev, ← ctr]; rfl
  · rw [h.esc, State.counted, State.modEv_esc, refusedFiring, modSo, State.modSo_esc, State.modSo_esc]
  · rw [h.led, State.counted, State.modEv_led, refusedFiring, modSo, State.modSo_led, State.modSo_led]
  · rw [soEnt_of_so (h.so.trans (State.modEv_so _ _)), refusedFiring, soEnt_modSo_same, soEnt, State.modSo_so, ← soEnt]

theorem createdSet_prior {key opts : Nat} {fs : List Nat} {s : State} {f : Nat} (hf : f ∈ fs) :
    tget 0 (createdSet key opts fs s).prior f = stateCode (if provisioned (ent s f) then (ent s f).state else .blankMapped) + 1 :=
  tget_foldl_tput 0 (fun f => priorCode s f + 1) hf []

/-- Settles O34, clause by clause: the three commands, the events of a set, and a release's preparation. -/
theorem escrowSets : Obligations.EscrowSets := by
  unfold Obligations.EscrowSets
  refine ⟨fun p b n key cnt fs s htaken hn hkey hcnt hn64 hopts hcnt16 hz hlen => ?_, fun p b n s hn hn64 hz => ?_, fun n s => ?_,
    fun i n e s he hn => ⟨fun h => releasePreparationStart_waits he hn h, fun harmed haction hprep hrun hmem hcpu hlead => ?_⟩⟩
  · subst hn hkey hcnt
    obtain ⟨hbusy, hfree⟩ := createEscrowSet_spec htaken ⟨hn64, hopts, hcnt16, hz, hlen⟩
    refine ⟨hbusy, fun hstate hext hfs hnodup hmembers hkey hdom hsealed hhead hlen hall => ?_⟩
    have hfs' : escExtents b (le b 3 1) = fs := hfs.symm
    rw [hfs'] at hfree
    obtain ⟨hshort, hroom⟩ := hfree hstate ⟨hext, hnodup, hmembers, hkey, hdom, hsealed, hhead, hlen, hall⟩
    refine ⟨hshort, fun hneeds hprov => ?_⟩
    obtain ⟨t, ht, hset, hother, hbg, hrecs, hacted⟩ := hroom hneeds hprov
    refine ⟨t, ht, ?_⟩
    rw [hset]
    exact ⟨rfl, rfl, bit_eq_testBit _ _, rfl, rfl, hother, fun f hf => createdSet_prior hf, hbg, hrecs, hacted⟩
  · subst hn
    exact ⟨closeEscrowSet_spec hn64 hz, abandonEscrowSet_spec hn64 hz⟩
  · exact ⟨setClosed_waits, fun hstate hgoes hdone hitems hinherit fs hfs hne => hfs ▸ setClosed_returns hstate hgoes hdone hitems hinherit (hfs ▸ hne),
      fun hstate hgoes hdone hitems => ⟨setClosed_pending hstate hgoes hdone hitems, setClosed_closes hstate hgoes hdone hitems⟩,
      setAbandoned_waits, setAbandoned_frees, releaseDone_waits, releaseDone_frees⟩
  · have hdue := releasePreparationStart_due he hn harmed haction hprep hrun hmem hcpu hlead
    refine ⟨fun hclosed hgoes => ?_, fun hrefused => ?_⟩
    · obtain ⟨t, ht, hprepared⟩ := releasePrepare_spec n i s _ rfl (soFire e.bytes)
      refine ⟨t, hdue.trans ((if_neg (by simp [hclosed, hgoes])).trans (congrArg _ ht)), ?_⟩
      rw [he]; exact hprepared
    · obtain ⟨t, ht, hpends, hfired, hctr, hesc, hled, hent⟩ := releaseRefused_spec i
        (max (soFire e.bytes) ((mintNow s / 1024 + 1) * 1024)) (det4 i (soTag e.bytes) 0 (soFire e.bytes)) s
      exact ⟨t, hdue.trans ((if_pos (by simpa using hrefused)).trans (congrArg _ ht)), hpends, hfired, hctr, hesc, hled, _, rfl, he ▸ hent⟩

end Sys2Proof.Machine
end

section
/-! A verified package chunk whose line the mirror buffer holds back (R293, R402): as for any other write of the mover, the pair's
state and a planned split decide whether there is room, and Safety.idleFor asks only the strap of Port B. -/

namespace Sys2Proof.Machine

open Sys2Proof

/-- An IMPORT that has started, its title at device address 0 and 4,096 bytes long, under package key slot 1. -/
def importDesc : Desc :=
  { (default : Desc) with
    idx := 2, stage := .started,
    raw := BitVec.ofNat 512 (4 + 0x80 * 2 ^ 32 + 0x4000 * 2 ^ 64 + 1 * 2 ^ 288 + 4096 * 2 ^ 320) }

/-- A chunk of one line, whose tag verifies, in package engine 0's hold buffer for that descriptor. -/
def heldChunk : Chunk :=
  { engine := 0, q := 1, idx := 2, stage := .verifying, slot := 1, dpa := 0, key := 0, escrow := 0, last := false, plain := [5],
    tagOk := true, captured := 0 }

/-- Memory active with a planned split of a joined pair, Port B's strap at no pair, queue 1 with the IMPORT, and its chunk in hand. -/
def heldState : State :=
  splitState.modMov fun m => { m with queues := [(1, some { fillQueue with descs := [importDesc] })], chunks := [heldChunk] }

/-- The statement's hypotheses hold of a host's read of line 0. -/
theorem heldState_takes :
    takesReads heldState .a = true ∧ decodeHpa heldState .a 0 = some lowTarget ∧ ideBlocks heldState .a = false ∧
    idleFor heldState .a 0 0 = true ∧ heldState.pur.waitQ = [] := ⟨rfl, rfl, rfl, rfl, rfl⟩

/-- The statement's hypotheses hold of the chunk, its descriptor, its key ID's policy and its queue's grants. -/
theorem heldState_chunk :
    (heldState.mov.chunks.find? fun c => c.engine == 0) = some heldChunk ∧ workOf heldState 1 2 = some importDesc ∧
    (policyFlags heldState 0).getLsbD 3 = true ∧ ((queueAt heldState 1).all fun x => x.grants.getLsbD 0) = true := ⟨rfl, rfl, rfl, rfl⟩

/-- CHUNK_VERIFIED leaves queue 1 with no descriptor that is done. -/
theorem heldState_waits :
    ((queueAt (stOf (exec (.chunkVerified 0) heldState) heldState) 1).all fun y => y.descs.all fun e => e.stage != .done) = true := rfl

/-- Refutes O46: a joined pair whose split is planned holds a verified chunk's line back whatever Port B's strap says, so the IMPORT
does not end. It fails for want of the hypothesis that the mirror buffer has room. -/
theorem not_packageChunks : ¬ Obligations.PackageChunks := by
  unfold Obligations.PackageChunks
  rintro ⟨-, hverified, -⟩
  obtain ⟨htakes, hdecode, hide, hidle, hwait⟩ := heldState_takes
  obtain ⟨hfirst, hwork, hpolicy, hgrants⟩ := heldState_chunk
  have hgranted : ∀ x, queueAt heldState 1 = some x → x.grants.getLsbD 0 = true := fun x hx => by
    rw [hx] at hgrants; exact hgrants
  obtain ⟨t, hexec, ⟨y, e, (hqueue : queueAt t 1 = some y), hmem, -, -, hstage, -⟩, -⟩ :=
    (hverified 0 heldChunk importDesc heldState hfirst hwork rfl).2
      .a 0 0 false lowTarget 5 htakes hdecode rfl rfl hide hidle hwait rfl rfl rfl rfl rfl rfl rfl hpolicy hgranted
  have hopen := heldState_waits
  rw [hexec, show stOf (.next t) heldState = t from rfl, hqueue] at hopen
  have hnotDone := List.all_eq_true.mp hopen e hmem
  rw [hstage] at hnotDone
  exact Bool.false_ne_true hnotDone

end Sys2Proof.Machine
end

section
/-! Queues of the mover: how its table reads after an update, and what the administration's payloads hold (R306, R330, R331). -/

namespace Sys2Proof.Machine

open Sys2Proof

theorem filter_tins {α : Type} (k : Nat) (v : α) (t : Tab α) :
    (tins k v t).filter (fun e => e.1 != k) = t.filter fun e => e.1 != k := by
  induction t with
  | nil => simp [tins]
  | cons e r ih =>
    rw [tins]
    split
    · simp
    · rw [List.filter_cons, List.filter_cons, ih]

/-- The later of two writes of a key stands. -/
theorem tput_tput {α : Type} [DecidableEq α] (d : α) (t : Tab α) (k : Nat) (v w : α) : tput d (tput d t k v) k w = tput d t k w := by
  have hfilter : (tput d t k v).filter (fun e => e.1 != k) = t.filter fun e => e.1 != k := by
    rw [tput]
    split
    · rw [List.filter_filter]; simp
    · rw [filter_tins, List.filter_filter]; simp
  rw [tput, hfilter]
  rfl

section
variable {q : Nat} {x : Queue} {s : State}

/-- An update of a queue that exists is one write of the table. -/
theorem modQueue_of_queueAt (h : queueAt s q = some x) (f : Queue → Queue) :
    modQueue q f s = s.modMov fun m => { m with queues := tput none m.queues q (some (f x)) } := by rw [modQueue, h]

theorem queueAt_modQueue_same (h : queueAt s q = some x) (f : Queue → Queue) : queueAt (modQueue q f s) q = some (f x) := by
  rw [modQueue_of_queueAt h]; exact tget_tput_same none s.mov.queues q (some (f x))

end

theorem queueAt_modQueue_ne {q k : Nat} (hk : k ≠ q) (f : Queue → Queue) (s : State) : queueAt (modQueue q f s) k = queueAt s k := by
  rw [modQueue]
  split
  · rfl
  · rename_i x _
    exact tget_tput_ne none none s.mov.queues q k (some (f x)) hk

theorem queueAt_queueDelete_same (q : Nat) (s : State) : queueAt (queueDelete q s) q = none :=
  tget_tput_same none s.mov.queues q none

theorem queueAt_queueDelete_ne {q k : Nat} (hk : k ≠ q) (s : State) : queueAt (queueDelete q s) k = queueAt s k :=
  tget_tput_ne none none s.mov.queues q k none hk

theorem queueDelete_modQueue (q : Nat) (f : Queue → Queue) (s : State) : queueDelete q (modQueue q f s) = queueDelete q s := by
  cases h : queueAt s q with
  | none => rw [modQueue, h]
  | some x =>
    rw [modQueue_of_queueAt h, queueDelete, queueDelete]
    simp only [State.modMov, tput_tput]

/-- An abort with nothing in flight only deletes. -/
theorem queueDelete_abortAll {q : Nat} {x : Queue} {s : State} (h : queueAt s q = some x) (hnone : x.descs = []) :
    queueDelete q (abortAll q s) = queueDelete q s := by
  rw [abortAll, queueAt_modQueue_same h]
  simp only [hnone, List.map_nil, forEach, List.foldl_nil]
  exact queueDelete_modQueue q _ s

theorem adminQueue_eq_some {p : MbxPort} {q : Nat} {x : Queue} {s : State} (h : adminQueue p q s = some x) : queueAt s q = some x :=
  (Option.filter_eq_some_iff.mp h).1

/-! Payloads. -/

/-- Delete Queue Pair is taken with four bytes. -/
theorem deleteQueuePair_length {p : MbxPort} {b : List Byte} {s : State} (h : yciTaken 0xC501 p b s = true) : b.length = 4 := by
  simp only [yciTaken, Bool.and_eq_true, Option.any_eq_true] at h
  obtain ⟨-, r, hrow, ⟨-, hlen⟩, -⟩ := h
  obtain rfl : r = ⟨0xC501, true, false, false, 4, 0, 0⟩ := (Option.some.inj hrow).symm
  simpa [YciRow.lenOk] using hlen

theorem le_withMode_queue (m : Nat) (b : List Byte) : le (withMode m b) 0 2 = le b 0 2 := by
  match b with
  | [] | [_] | [_, _] | _ :: _ :: _ :: _ => rfl

/-- A payload of four bytes whose last two are zero, with its mode. -/
theorem le_withMode_mode {m : Nat} {b : List Byte} (hm : m < 2) (hlen : b.length = 4) (hzero : le b 2 2 = 0) :
    le (withMode m b) 2 1 = m ∧ le (withMode m b) 3 1 = 0 := by
  match b, hlen with
  | [b0, b1, b2, b3], _ =>
    have hsum : b2.toNat + 256 * (b3.toNat + 256 * 0) = 0 := hzero
    have hbyte : le [b0, b1, b2, b3] 2 1 = 0 := by rw [le_byte]; show b2.toNat = 0; omega
    rw [withMode, hbyte, le_byte, le_byte]
    refine ⟨?_, by show b3.toNat = 0; omega⟩
    show (BitVec.ofNat 8 (0 / 2 * 2 + m)).toNat = m
    rw [BitVec.toNat_ofNat]; omega

end Sys2Proof.Machine
end

section
/-! An abort completes what is in flight of its queue, and leaves the other queues and the versions that the mailboxes have declared
(R317, R331). -/

namespace Sys2Proof.Machine

open Sys2Proof

theorem mbxOf_modMov (f : Mover → Mover) (s : State) (p : MbxPort) : mbxOf (s.modMov f) p = mbxOf s p := by cases p <;> rfl

theorem mbxOf_modCry (f : Crypto → Crypto) (s : State) (p : MbxPort) : mbxOf (s.modCry f) p = mbxOf s p := by cases p <;> rfl

theorem mbxOf_send (o : Out) (s : State) (p : MbxPort) : mbxOf (send o s) p = mbxOf s p := by cases p <;> rfl

theorem mbxOf_modQueue (q : Nat) (f : Queue → Queue) (s : State) (p : MbxPort) : mbxOf (modQueue q f s) p = mbxOf s p := by
  rw [modQueue]
  split
  · rfl
  · exact mbxOf_modMov _ _ _

/-- An answer leaves the version that each mailbox has declared. -/
theorem mbxAnswer_declared (p : MbxPort) (op rc : Nat) (out : List Byte) (s : State) (r : MbxPort) :
    (mbxOf (mbxAnswer p op rc out s) r).declared = (mbxOf s r).declared := by
  by_cases hr : r = p
  · subst hr
    rw [mbxOf_mbxAnswer]
    cases r <;> rfl
  · rcases mbxAnswer_cases p op rc out s with ⟨rfl, h⟩ | ⟨-, h⟩
    · rw [h, mbxOf_send, mbxOf_modMbx_ne hr]
    · rw [h.mbxOf, mbxOf_rbit, mbxOf_modCry, mbxOf_modMbx_ne hr]

/-- t differs from s in nothing that shows in another queue or in the version that a mailbox has declared. -/
def BesideQueue (q : Nat) (s t : State) : Prop :=
  (∀ k, k ≠ q → queueAt t k = queueAt s k) ∧ ∀ p, (mbxOf t p).declared = (mbxOf s p).declared

section
variable {q : Nat} {s t : State}

theorem BesideQueue.refl (q : Nat) (s : State) : BesideQueue q s s := ⟨fun _ _ => rfl, fun _ => rfl⟩

theorem BesideQueue.trans {a b c : State} (h : BesideQueue q a b) (g : BesideQueue q b c) : BesideQueue q a c :=
  ⟨fun k hk => (g.1 k hk).trans (h.1 k hk), fun p => (g.2 p).trans (h.2 p)⟩

theorem BesideQueue.of_noted (h : Noted s t) : BesideQueue q s t :=
  ⟨fun k _ => by rw [queueAt, queueAt, h.mov], fun p => by rw [h.mbxOf]⟩

theorem modQueue_beside (q : Nat) (f : Queue → Queue) (s : State) : BesideQueue q s (modQueue q f s) :=
  ⟨fun _ hk => queueAt_modQueue_ne hk f s, fun p => by rw [mbxOf_modQueue]⟩

theorem queueDelete_beside (q : Nat) (s : State) : BesideQueue q s (queueDelete q s) :=
  ⟨fun _ hk => queueAt_queueDelete_ne hk s, fun p => by rw [queueDelete, mbxOf_modMov]⟩

theorem mbxAnswer_beside (q : Nat) (p : MbxPort) (op rc : Nat) (out : List Byte) (s : State) :
    BesideQueue q s (mbxAnswer p op rc out s) := by
  obtain ⟨-, -, -, -, -, hmov⟩ := mbxAnswer_mbxOnly p op rc out s
  exact ⟨fun k _ => by rw [queueAt, queueAt, hmov], mbxAnswer_declared p op rc out s⟩

theorem bump_beside (q i n : Nat) (s : State) : BesideQueue q s (bump i n s) :=
  .trans (b := s.counted i n) ⟨fun _ _ => rfl, fun p => by cases p <;> rfl⟩ (.of_noted (bump_noted i n s))

theorem rinc_beside (q k n : Nat) (s : State) : BesideQueue q s (rinc s k n) :=
  ⟨fun _ _ => rfl, fun p => by rw [rinc, rset, mbxOf_setRegs]⟩

theorem send_beside (q : Nat) (o : Out) (s : State) : BesideQueue q s (send o s) := ⟨fun _ _ => rfl, fun p => by rw [mbxOf_send]⟩

/-- A step that is taken under a condition. -/
theorem BesideQueue.step_if {u : State} (c : Prop) [Decidable c] (h : BesideQueue q s t) (g : BesideQueue q t u) :
    BesideQueue q s (if c then u else t) := by
  split
  · exact h.trans g
  · exact h

end

theorem drainDeleted_beside (q : Nat) (s : State) : BesideQueue q s (drainDeleted q s) := by
  rw [drainDeleted]
  split
  · exact .refl q s
  · split
    · refine (queueDelete_beside q s).trans (forEach_related (BesideQueue.refl q) BesideQueue.trans _ (fun p u => ?_) _)
      split
      · split
        · exact mbxAnswer_beside q p 0xC501 0 [] u
        · exact .refl q u
      · exact .refl q u
    · exact .refl q s

theorem completionWrite_beside (q : Nat) (x : Queue) (d : Desc) (s : State) : BesideQueue q s (completionWrite q x d s) := by
  rw [completionWrite]
  refine .trans ?_ (drainDeleted_beside q _)
  refine .step_if _ ?_ (.of_noted (notifyVec_noted _ _ _))
  refine .step_if _ ?_ ⟨fun _ _ => rfl, fun p => by rw [mbxOf_modMov]⟩
  refine .step_if _ ?_ (bump_beside q _ _ _)
  refine .step_if _ ?_ (bump_beside q _ _ _)
  refine .trans ?_ (bump_beside q _ _ _)
  refine .step_if _ ?_ (rinc_beside q _ _ _)
  exact ((send_beside q _ s).trans (modQueue_beside q _ _)).trans (rinc_beside q _ _ _)

/-- An abort completes the descriptors of its queue. -/
theorem abortAll_beside (q : Nat) (s : State) : BesideQueue q s (abortAll q s) := by
  rw [abortAll]
  split
  · exact modQueue_beside q _ s
  · refine (modQueue_beside q _ s).trans (forEach_related (BesideQueue.refl q) BesideQueue.trans _ (fun d u => ?_) _)
    rw [abortOne]
    split
    · exact .refl q u
    · exact completionWrite_beside q _ d u

end Sys2Proof.Machine
end

section
/-! Queue administration: each command that its mailbox takes is one update of the mover's queues, and its answer (R306, R320, R326,
R329-R331). -/

namespace Sys2Proof.Machine

open Sys2Proof

theorem modMov_sans (p : MbxPort) (f : Mover → Mover) (s : State) : (s.modMov f).sans p = (s.sans p).modMov f := by cases p <;> rfl

section
variable {op : Nat} {p : MbxPort} {b : List Byte} {s : State} {body : Body}

/-- A command that is taken and refused, whatever MBX_CMD holds. -/
theorem next_yciRun_refuses {rc : Nat} (h : yciTaken op p b s = true) (hrc : rc ≠ rcNone)
    (hbody : ∀ r, body p b (s.setRegs r) = errAns rc (s.setRegs r)) :
    (.next (yciRun op body p b s) : Res) = .next (answerOnly op p b rc [] s) := by
  obtain ⟨r, hr⟩ := yciNoted_setRegs op p b s
  exact congrArg Host.Outcome.next (yciRun_err h hrc (by rw [hr]; exact hbody r))

/-- A command that is taken, and whose body is one update of the mover. -/
theorem next_yciRun_modMov (f : Mover → Mover) (h : yciTaken op p b s = true)
    (hbody : ∀ r, body p b (s.setRegs r) = ok ((s.setRegs r).modMov f)) :
    ∃ t, (.next (yciRun op body p b s) : Res) = .next t ∧ acted p op 0 [] s (s.modMov f) t ∧ t.mov = f s.mov := by
  obtain ⟨r, hr⟩ := yciNoted_setRegs op p b s
  have hsans := yciNoted_sans op p b s
  rw [hr] at hsans
  obtain ⟨-, -, -, -, -, hmov⟩ := mbxAnswer_mbxOnly p op 0 [] ((s.setRegs r).modMov f)
  refine ⟨_, congrArg Host.Outcome.next (yciRun_answers h (by decide) (by rw [hr]; exact hbody r)), ?_, hmov⟩
  refine mbxAnswer_acted op 0 [] (by rw [mbxOf_modMov, mbxOf_setRegs]) ?_
  rw [modMov_sans, modMov_sans]
  exact (hsans.modMov f).queued

end

theorem modMbx_mov (p : MbxPort) (f : Mailbox → Mailbox) (s : State) : (modMbx p f s).mov = s.mov := by cases p <;> rfl

/-! CREATE_QUEUE_PAIR (R306, R330). -/

section
variable {p : MbxPort} {b : List Byte} {s : State} (htaken : yciTaken 0xC500 p b s = true)
include htaken

theorem exec_createQueuePair_refused (hbad : createOk b s = false) :
    exec (.createQueuePair p b) s = .next (answerOnly 0xC500 p b 0x2 [] s) :=
  next_yciRun_refuses htaken (by decide) fun r => by
    rw [yCreateQueuePair, show createOk b (s.setRegs r) = createOk b s from rfl, hbad]; rfl

theorem exec_createQueuePair_busy (hok : createOk b s = true) (hnone : engineFewest s = none) :
    exec (.createQueuePair p b) s = .next (answerOnly 0xC500 p b 0x6 [] s) :=
  next_yciRun_refuses htaken (by decide) fun r => by
    rw [yCreateQueuePair, show createOk b (s.setRegs r) = createOk b s from rfl, hok,
      show engineFewest (s.setRegs r) = engineFewest s from rfl, hnone]; rfl

theorem exec_createQueuePair_spec (hok : createOk b s = true) {e : Nat} (he : engineFewest s = some e) :
    ∃ t, exec (.createQueuePair p b) s = .next t ∧ queueAt t (le b 0 2) = some (queueNew (headOf p) e b) ∧
      acted p 0xC500 0 [] s (s.modMov fun m => { m with queues := tput none m.queues (le b 0 2) (queueAt t (le b 0 2)) }) t := by
  obtain ⟨t, hexec, hacted, hmov⟩ := next_yciRun_modMov (body := yCreateQueuePair)
    (fun m => { m with queues := tput none m.queues (le b 0 2) (some (queueNew (headOf p) e b)) }) htaken fun r => by
      rw [yCreateQueuePair, show createOk b (s.setRegs r) = createOk b s from rfl, hok,
        show engineFewest (s.setRegs r) = engineFewest s from rfl, he]; rfl
  have hnew : queueAt t (le b 0 2) = some (queueNew (headOf p) e b) := by
    rw [queueAt, hmov]; exact tget_tput_same none s.mov.queues _ (some _)
  exact ⟨t, hexec, hnew, by rw [hnew]; exact hacted⟩

end

/-- A field of n bytes is a word of 8 n bits. -/
theorem toNat_ofNat_le {w n : Nat} (b : List Byte) (off : Nat) (hw : (256 : Nat) ^ n = 2 ^ w) :
    (BitVec.ofNat w (le b off n)).toNat = le b off n := by
  rw [BitVec.toNat_ofNat, ← hw, Nat.mod_eq_of_lt (le_lt b off n)]

/-- The queue that a payload describes (R330). -/
theorem queueNew_spec (h : Head) (e : Nat) (b : List Byte) : let x := queueNew h e b
    x.head = h ∧ x.engine = e ∧ x.descs = [] ∧ x.sqHead = 0 ∧ x.sqTail = 0 ∧
    x.sqLog2 = le b 2 1 ∧ x.cqLog2 = le b 3 1 ∧ x.sqBase.toNat = le b 8 8 ∧ x.cqBase.toNat = le b 16 8 ∧
    x.grants.toNat = le b 32 16 ∧ x.state = .running ∧ x.gateClosed = (le b 26 1).testBit 2 := by
  refine ⟨rfl, rfl, rfl, rfl, rfl, rfl, rfl, toNat_ofNat_le b 8 ?_, toNat_ofNat_le b 16 ?_, toNat_ofNat_le b 32 ?_, rfl,
    bit_eq_testBit _ 2⟩
  all_goals norm_num

/-! DELETE_QUEUE_PAIR and SET_QUEUE_GRANTS (R320, R329, R331). -/

/-- What a queue's deletion does to the mover (R317, R329). -/
def Mover.deleted (q : Nat) (m : Mover) : Mover :=
  { m with queues := tput none m.queues q none, resv := m.resv.filter fun r => r.q != q, chunks := m.chunks.filter fun c => c.q != q }

theorem queueDelete_eq (q : Nat) (s : State) : queueDelete q s = s.modMov (Mover.deleted q) := rfl

section
variable {p : MbxPort} {b : List Byte} {s : State} {m : Nat}

theorem yDeleteQueuePair_none (hnone : adminQueue p (le b 0 2) s = none) (r : Tab (BitVec 32)) :
    yDeleteQueuePair p (withMode m b) (s.setRegs r) = errAns rcInvalid (s.setRegs r) := by
  rw [yDeleteQueuePair, le_withMode_queue, show adminQueue p (le b 0 2) (s.setRegs r) = adminQueue p (le b 0 2) s from rfl, hnone]

variable {x : Queue} (hadmin : adminQueue p (le b 0 2) s = some x) (hzero : le b 2 2 = 0)
  (hm : m < 2) (htaken : yciTaken 0xC501 p (withMode m b) s = true)
include hadmin hzero hm htaken

/-- The body of Delete Queue Pair, for a queue that is there. -/
theorem yDeleteQueuePair_some (r : Tab (BitVec 32)) :
    yDeleteQueuePair p (withMode m b) (s.setRegs r) =
      if m = 1 then ok (queueDelete (le b 0 2) (abortAll (le b 0 2) (s.setRegs r)))
      else if x.descs = [] then ok (queueDelete (le b 0 2) (s.setRegs r))
      else ⟨rcNone, [], modMbx p (fun y => { y with busy := some { opcode := 0xC501, result := 0, recs := 0, arg := le b 0 2 },
                                                    busySince := s.clock })
        (modQueue (le b 0 2) (fun x => { x with state := .deletingDrain }) (s.setRegs r))⟩ := by
  have hlen : b.length = 4 := by rw [← deleteQueuePair_length htaken, withMode, List.length_set]
  obtain ⟨hmode, hrest⟩ := le_withMode_mode hm hlen hzero
  rw [yDeleteQueuePair, le_withMode_queue, show adminQueue p (le b 0 2) (s.setRegs r) = adminQueue p (le b 0 2) s from rfl, hadmin]
  simp [-le_byte, hmode, hrest, hm]

end

section
variable {p : MbxPort} {b : List Byte} {s : State} {x : Queue} (hadmin : adminQueue p (le b 0 2) s = some x) (hzero : le b 2 2 = 0)
include hadmin hzero

theorem exec_deleteQueuePairAbort_spec (htaken : yciTaken 0xC501 p (withMode 1 b) s = true) :
    ∃ t, exec (.deleteQueuePairAbort p b) s = .next t ∧ queueAt t (le b 0 2) = none ∧ answered p 0xC501 0 [] s t ∧
      (∀ r ∈ t.mov.resv, r.q ≠ le b 0 2) ∧ (∀ k, k ≠ le b 0 2 → queueAt t k = queueAt s k) := by
  obtain ⟨r, hr⟩ := yciNoted_setRegs 0xC501 p (withMode 1 b) s
  have hbody := yDeleteQueuePair_some hadmin hzero (by decide) htaken r
  rw [if_pos rfl, ← hr] at hbody
  have hbeside : BesideQueue (le b 0 2) s (queueDelete (le b 0 2) (abortAll (le b 0 2) (s.setRegs r))) :=
    .trans ⟨fun _ _ => rfl, fun _ => congrArg Mailbox.declared (mbxOf_setRegs s r _)⟩
      ((abortAll_beside _ (s.setRegs r)).trans (queueDelete_beside _ _))
  rw [← hr] at hbeside
  obtain ⟨hother, hdecl⟩ := hbeside
  obtain ⟨-, -, -, -, -, hmov⟩ :=
    mbxAnswer_mbxOnly p 0xC501 0 [] (queueDelete (le b 0 2) (abortAll (le b 0 2) (yciNoted 0xC501 p (withMode 1 b) s)))
  refine ⟨_, congrArg Host.Outcome.next (yciRun_answers htaken (by decide) hbody), ?_, mbxAnswer_answered p _ _ _ (hdecl p), ?_, ?_⟩
  · rw [queueAt, hmov]; exact queueAt_queueDelete_same _ _
  · rw [hmov]
    intro y hy
    simpa using (List.mem_filter.mp hy).2
  · intro k hk
    rw [queueAt, hmov]; exact hother k hk

/-- Where nothing is in flight, either mode deletes the queue at once, and that is all. -/
theorem deleteQueuePair_idle {m : Nat} (hm : m < 2) (htaken : yciTaken 0xC501 p (withMode m b) s = true) (hidle : x.descs = []) :
    ∃ t, (.next (yciRun 0xC501 yDeleteQueuePair p (withMode m b) s) : Res) = .next t ∧
      acted p 0xC501 0 [] s (s.modMov (Mover.deleted (le b 0 2))) t ∧ queueAt t (le b 0 2) = none := by
  obtain ⟨t, hexec, hacted, hmov⟩ := next_yciRun_modMov (body := yDeleteQueuePair) (Mover.deleted (le b 0 2)) htaken fun r => by
    have hqueue : queueAt (s.setRegs r) (le b 0 2) = some x := adminQueue_eq_some hadmin
    rw [yDeleteQueuePair_some hadmin hzero hm htaken r, queueDelete_abortAll hqueue hidle, if_pos hidle, ite_self, queueDelete_eq]
  exact ⟨t, hexec, hacted, by rw [queueAt, hmov]; exact queueAt_queueDelete_same _ s⟩

theorem exec_deleteQueuePairDrain_waits (htaken : yciTaken 0xC501 p (withMode 0 b) s = true) (hbusy : x.descs ≠ []) :
    ∃ t, exec (.deleteQueuePairDrain p b) s = .next t ∧ queueAt t (le b 0 2) = some { x with state := .deletingDrain } ∧
      (mbxOf t p).busy.isSome = true ∧
      t.mov = (s.modMov fun m => { m with queues := tput none m.queues (le b 0 2) (some { x with state := .deletingDrain }) }).mov := by
  obtain ⟨r, hr⟩ := yciNoted_setRegs 0xC501 p (withMode 0 b) s
  have hqueue : queueAt (s.setRegs r) (le b 0 2) = some x := adminQueue_eq_some hadmin
  have hbody := yDeleteQueuePair_some hadmin hzero (by decide) htaken r
  rw [if_neg (by decide), if_neg hbusy, modQueue_of_queueAt hqueue] at hbody
  refine ⟨_, congrArg Host.Outcome.next (yciRun_later htaken ((congrArg _ hr).trans hbody)), ?_, by rw [mbxOf_modMbx_same]; rfl, ?_⟩
  · rw [queueAt, modMbx_mov]; exact tget_tput_same none s.mov.queues _ (some _)
  · rw [modMbx_mov]; rfl

theorem exec_setQueueGrants_spec (htaken : yciTaken 0xC502 p b s = true) :
    ∃ t, exec (.setQueueGrants p b) s = .next t ∧ acted p 0xC502 0 [] s (s.modMov fun m => { m with
      queues := tput none m.queues (le b 0 2) (some { x with grants := BitVec.ofNat 128 (le b 4 16) }) }) t := by
  obtain ⟨t, hexec, hacted, -⟩ := next_yciRun_modMov (body := ySetQueueGrants) (fun m => { m with
      queues := tput none m.queues (le b 0 2) (some { x with grants := BitVec.ofNat 128 (le b 4 16) }) }) htaken fun r => by
    have hqueue : queueAt (s.setRegs r) (le b 0 2) = some x := adminQueue_eq_some hadmin
    rw [ySetQueueGrants, show adminQueue p (le b 0 2) (s.setRegs r) = adminQueue p (le b 0 2) s from rfl, hadmin,
      modQueue_of_queueAt hqueue]
    simp [hzero]
  exact ⟨t, hexec, hacted⟩

end

theorem exec_setQueueGrants_refused {p : MbxPort} {b : List Byte} {s : State} (hnone : adminQueue p (le b 0 2) s = none)
    (htaken : yciTaken 0xC502 p b s = true) : exec (.setQueueGrants p b) s = .next (answerOnly 0xC502 p b 0x2 [] s) :=
  next_yciRun_refuses htaken (by decide) fun r => by
    rw [ySetQueueGrants, show adminQueue p (le b 0 2) (s.setRegs r) = adminQueue p (le b 0 2) s from rfl, hnone]; rfl

/-! REINIT_MOVER_ENGINE (R326). -/

section
variable {p : MbxPort} {b : List Byte} {s : State} (htaken : yciTaken 0xC503 p b s = true) (hzero : le b 1 3 = 0)
include htaken

theorem exec_reinitMoverEngine_refused (he : 8 ≤ le b 0 1) :
    exec (.reinitMoverEngine p b) s = .next (answerOnly 0xC503 p b 0x2 [] s) :=
  next_yciRun_refuses htaken (by decide) fun r => by rw [yReinitEngine]; simp [-le_byte, he]; rfl

include hzero

theorem exec_reinitMoverEngine_idle (he : le b 0 1 < 8)
    (hidle : (engineAt s (le b 0 1)).inService = false ∨ (engineAt s (le b 0 1)).reinit = true) :
    exec (.reinitMoverEngine p b) s = .next (answerOnly 0xC503 p b 0 [] s) :=
  next_yciRun_gives htaken fun r => by
    rw [yReinitEngine, show engineAt (s.setRegs r) = engineAt s from rfl]
    simp [-le_byte, Nat.not_le.mpr he, hzero, hidle]; rfl

theorem exec_reinitMoverEngine_spec (he : le b 0 1 < 8) (hin : (engineAt s (le b 0 1)).inService = true)
    (hfree : (engineAt s (le b 0 1)).reinit = false) :
    ∃ v, exec (.engineReinit (le b 0 1) true) (yciNoted 0xC503 p b s) = .next v ∧
      exec (.reinitMoverEngine p b) s = .next (mbxAnswer p 0xC503 0 [] v) := by
  obtain ⟨r, hr⟩ := yciNoted_setRegs 0xC503 p b s
  have hat : engineAt (yciNoted 0xC503 p b s) (le b 0 1) = engineAt s (le b 0 1) := by rw [hr]; rfl
  refine ⟨engineReinitOp (le b 0 1) (yciNoted 0xC503 p b s), ?_, congrArg Host.Outcome.next (yciRun_answers htaken (by decide) ?_)⟩
  · show execEngineReinit _ _ _ = _
    simp [-le_byte, execEngineReinit, Nat.mod_eq_of_lt he, hat, hin, hfree]
  · rw [yReinitEngine, hat]
    simp [-le_byte, Nat.not_le.mpr he, hzero, hin, hfree]; rfl

end

/-- Settles O39, command by command: each is taken, checked, and is one update of the mover, the abort's completions apart. -/
theorem queueAdministration : Obligations.QueueAdministration := by
  unfold Obligations.QueueAdministration
  refine ⟨fun p b s htaken => ⟨exec_createQueuePair_refused htaken, exec_createQueuePair_busy htaken, fun hok e he => ?_⟩,
    fun p b q s hq => ?_, fun p b s htaken hzero => ⟨exec_reinitMoverEngine_refused htaken, exec_reinitMoverEngine_idle htaken hzero,
      exec_reinitMoverEngine_spec htaken hzero⟩⟩
  · obtain ⟨t, hexec, hnew, hacted⟩ := exec_createQueuePair_spec htaken hok he
    exact ⟨t, hexec, hacted, _, hnew, queueNew_spec _ _ _⟩
  · subst hq
    refine ⟨fun hnone => ⟨fun htaken => next_yciRun_refuses htaken (by decide) (yDeleteQueuePair_none hnone),
      fun htaken => next_yciRun_refuses htaken (by decide) (yDeleteQueuePair_none hnone), exec_setQueueGrants_refused hnone⟩,
      fun x hadmin hzero => ⟨fun htaken => ?_, fun htaken => ?_, exec_setQueueGrants_spec hadmin hzero⟩⟩
    · obtain ⟨t, hexec, hgone, hanswered, hresv, hother⟩ := exec_deleteQueuePairAbort_spec hadmin hzero htaken
      refine ⟨t, hexec, hgone, hanswered, hresv, hother, fun hidle => ?_⟩
      obtain ⟨u, hexec', hacted, -⟩ := deleteQueuePair_idle hadmin hzero (by decide) htaken hidle
      obtain rfl : t = u := Host.Outcome.next.inj (hexec.symm.trans hexec')
      exact hacted
    · by_cases hidle : x.descs = []
      · obtain ⟨t, hexec, hacted, hgone⟩ := deleteQueuePair_idle hadmin hzero (by decide) htaken hidle
        exact ⟨t, hexec, fun _ => ⟨hgone, hacted⟩, fun hbusy => absurd hidle hbusy⟩
      · obtain ⟨t, hexec, hwaits⟩ := exec_deleteQueuePairDrain_waits hadmin hzero htaken hidle
        exact ⟨t, hexec, fun hnone => absurd hnone hidle, fun _ => hwaits⟩

end Sys2Proof.Machine
end

section
/-! A mover's table that lists a queue twice (R327, R328). -/

namespace Sys2Proof.Machine

open Sys2Proof

/-- A device at reset, whose mover's table lists queue 1 twice, on engine 0. -/
def queueListedTwice : State :=
  State.reset.modMov fun m => { m with queues := [(1, some default), (1, some default)] }

theorem queueListedTwice_engine :
    (engineAt queueListedTwice 0).inService = true ∧ (engineAt queueListedTwice 0).reinit = false ∧
    queueAt queueListedTwice 1 = some default ∧ (default : Queue).engine = 0 := ⟨rfl, rfl, rfl, rfl⟩

/-- The reinit of engine 0 restarts queue 1 once for each of its places in the table. -/
theorem queueListedTwice_restarts :
    ((queueAt (stOf (exec (.engineReinit 0 true) queueListedTwice) queueListedTwice) 1).map (·.qgen)) = some 2 := rfl

/-- Refutes O40: the reinit of an engine counts the generation of a queue once for each time the table lists it, and the statement's
last clause says once. It fails for want of the hypothesis that the mover's table is in canonical form (`twf`), which lists each queue
once. -/
theorem not_queueProgress : ¬ Obligations.QueueProgress := by
  unfold Obligations.QueueProgress
  rintro ⟨-, -, -, -, hreinit⟩
  obtain ⟨hin, hidle, hlisted, hbound⟩ := queueListedTwice_engine
  obtain ⟨t, hexec, -, -, -, hrestarted⟩ := (hreinit 0 true queueListedTwice (by decide)).1 hin hidle
  obtain ⟨y, hy, honce, -⟩ := hrestarted 1 default hlisted hbound
  have htwice := queueListedTwice_restarts
  rw [hexec, show stOf (.next t) queueListedTwice = t from rfl, hy] at htwice
  rw [Option.map_some, honce] at htwice
  exact absurd htwice (by decide)

end Sys2Proof.Machine
end

section
/-! Every step of every command: it answers a next state, and in RMA it stays there. The commands that answer it in each branch of a
condition or a match come first, one lemma each; every other row answers it outright. -/

namespace Sys2Proof.Machine

open Sys2Proof

/-- An outcome that answers a next state. -/
def ResNext (r : Res) : Prop := ∃ t, r = .next t

/-- Whether an outcome answers a next state. -/
def isNext : Res → Bool
  | .next _ => true
  | _ => false

theorem ResNext.of_isNext {r : Res} (h : isNext r = true) : ResNext r :=
  match r, h with
  | .next t, _ => ⟨t, rfl⟩

theorem resNext_next (t : State) : ResNext (.next t) := ⟨t, rfl⟩

theorem resNext_ite (c : Prop) [Decidable c] (a b : Res) : ResNext (if c then a else b) ↔ (c → ResNext a) ∧ (¬c → ResNext b) := by
  split <;> simp [*]

theorem resNext_of_ite {c : Prop} [Decidable c] {a b : Res} (ha : ResNext a) (hb : ResNext b) : ResNext (if c then a else b) := by
  split
  exacts [ha, hb]

theorem fireRun_next (entry action : Nat) (effect : Firing → State → State) (s : State) : ResNext (fireRun entry action effect s) := by
  unfold fireRun
  split
  · exact resNext_next s
  · exact resNext_next _

theorem execNopOrder_next (entry : Nat) (s : State) : ResNext (execNopOrder entry s) := fireRun_next _ _ _ s
theorem execPrefetchOrder_next (entry : Nat) (s : State) : ResNext (execPrefetchOrder entry s) := fireRun_next _ _ _ s
theorem execReleaseOrder_next (entry : Nat) (s : State) : ResNext (execReleaseOrder entry s) := fireRun_next _ _ _ s
theorem execQueueStart_next (entry : Nat) (s : State) : ResNext (execQueueStart entry s) := fireRun_next _ _ _ s
theorem execQuietBegin_next (entry : Nat) (s : State) : ResNext (execQuietBegin entry s) := fireRun_next _ _ _ s
theorem execQuietEnd_next (entry : Nat) (s : State) : ResNext (execQuietEnd entry s) := fireRun_next _ _ _ s
theorem execAuditOrder_next (entry : Nat) (s : State) : ResNext (execAuditOrder entry s) := fireRun_next _ _ _ s
theorem execMarkerOrder_next (entry : Nat) (s : State) : ResNext (execMarkerOrder entry s) := fireRun_next _ _ _ s

theorem execIslandTimeout_next (a : BarAccess) (s : State) : ResNext (execIslandTimeout a s) := by
  unfold execIslandTimeout
  dsimp only
  repeat' (first | with_reducible exact resNext_next _ | with_reducible apply resNext_of_ite | split)

theorem execIslandClockReturn_next (d : Nat) (s : State) : ResNext (execIslandClockReturn d s) := by
  unfold execIslandClockReturn
  dsimp only
  repeat' (first | with_reducible exact resNext_next _ | with_reducible apply resNext_of_ite)

theorem execCommitApply_next (c : Nat) (s : State) : ResNext (execCommitApply c s) := by
  unfold execCommitApply
  dsimp only
  repeat' (first | with_reducible exact resNext_next _ | with_reducible apply resNext_of_ite | split)

theorem execFrameToken_next (s : State) : ResNext (execFrameToken s) := by
  simp only [execFrameToken, ↓resNext_next, ↓resNext_ite, implies_true, and_self]

theorem execFrameStart_next (k : Nat) (s : State) : ResNext (execFrameStart k s) := by
  unfold execFrameStart
  dsimp only
  repeat' (first | with_reducible exact resNext_next _ | with_reducible apply resNext_of_ite)

theorem execSlotStart_next (c : Nat) (s : State) : ResNext (execSlotStart c s) := by
  unfold execSlotStart
  dsimp only
  repeat' (first | with_reducible exact resNext_next _ | with_reducible apply resNext_of_ite | split)

theorem execRecoined_next (b : Nat) (s : State) : ResNext (execRecoined b s) := by
  unfold execRecoined
  dsimp only
  repeat' (first | with_reducible exact resNext_next _ | with_reducible apply resNext_of_ite | split)

theorem execMediaReadDone_next (op : Nat) (r : Sense) (s : State) : ResNext (execMediaReadDone op r s) := by
  unfold execMediaReadDone
  dsimp only
  repeat' (first | with_reducible exact resNext_next _ | with_reducible apply resNext_of_ite | split)

theorem execMediaWriteDone_next (op : Nat) (s : State) : ResNext (execMediaWriteDone op s) := by
  unfold execMediaWriteDone
  repeat' (first | with_reducible exact resNext_next _ | with_reducible apply resNext_of_ite | split)

theorem execDrainIssue_next (s : State) : ResNext (execDrainIssue s) := by
  unfold execDrainIssue
  dsimp only
  repeat' (first | with_reducible exact resNext_next _ | with_reducible apply resNext_of_ite | split)

theorem execDrainAgeCheck_next (s : State) : ResNext (execDrainAgeCheck s) := by
  unfold execDrainAgeCheck
  dsimp only
  repeat' (first | with_reducible exact resNext_next _ | with_reducible apply resNext_of_ite | split)

theorem execGpfPhase2Complete_next (s : State) : ResNext (execGpfPhase2Complete s) := by
  simp only [execGpfPhase2Complete, ↓resNext_next, ↓resNext_ite, implies_true, and_self]

theorem execBiSnoopResponse_next (h : Head) (sector : Nat) (wb : Option Sector) (s : State) :
    ResNext (execBiSnoopResponse h sector wb s) := by
  unfold execBiSnoopResponse
  dsimp only
  repeat' (first | with_reducible exact resNext_next _ | with_reducible apply resNext_of_ite | split)

theorem execBiTimeout_next (h : Head) (sector : Nat) (s : State) : ResNext (execBiTimeout h sector s) := by
  unfold execBiTimeout
  dsimp only
  repeat' (first | with_reducible exact resNext_next _ | with_reducible apply resNext_of_ite | split)

theorem execLostSlotScanDone_next (slot : Nat) (s : State) : ResNext (execLostSlotScanDone slot s) := by
  unfold execLostSlotScanDone
  dsimp only
  repeat' (first | with_reducible exact resNext_next _ | with_reducible apply resNext_of_ite)

theorem execAlert_next (c pos : Nat) (cause : BitVec 5) (op : Nat) (s : State) : ResNext (execAlert c pos cause op s) := by
  unfold execAlert
  dsimp only
  repeat' (first | with_reducible exact resNext_next _ | with_reducible apply resNext_of_ite)

theorem execSuspFault_next (c pos bank : Nat) (s : State) : ResNext (execSuspFault c pos bank s) := by
  simp only [execSuspFault, ↓resNext_next, ↓resNext_ite, implies_true, and_self]

theorem execBankResume_next (c pos bank : Nat) (s : State) : ResNext (execBankResume c pos bank s) := by
  simp only [execBankResume, ↓resNext_next, ↓resNext_ite, implies_true, and_self]

theorem execChannelBringup_next (c : Nat) (present m2 : BitVec 18) (s : State) : ResNext (execChannelBringup c present m2 s) := by
  simp only [execChannelBringup, ↓resNext_next, ↓resNext_ite, implies_true, and_self]

theorem execBringupStepTimeout_next (c step : Nat) (s : State) : ResNext (execBringupStepTimeout c step s) := by
  simp only [execBringupStepTimeout, ↓resNext_next, ↓resNext_ite, implies_true, and_self]

theorem execDieFailed_next (c pos : Nat) (why : DieFailure) (s : State) : ResNext (execDieFailed c pos why s) := by
  unfold execDieFailed
  dsimp only
  repeat' (first | with_reducible exact resNext_next _ | with_reducible apply resNext_of_ite)

theorem execRebuildDone_next (c : Nat) (s : State) : ResNext (execRebuildDone c s) := by
  unfold execRebuildDone
  dsimp only
  repeat' (first | with_reducible exact resNext_next _ | with_reducible apply resNext_of_ite)

theorem execRestrike_next (c : Nat) (s : State) : ResNext (execRestrike c s) := by
  unfold execRestrike
  dsimp only
  repeat' (first | with_reducible exact resNext_next _ | with_reducible apply resNext_of_ite | split)

theorem execPatrolStart_next (s : State) : ResNext (execPatrolStart s) := by
  simp only [execPatrolStart, ↓resNext_next, ↓resNext_ite, implies_true, and_self]

theorem execScrubDone_next (s : State) : ResNext (execScrubDone s) := by
  simp only [execScrubDone, ↓resNext_next, ↓resNext_ite, implies_true, and_self]

theorem execMintTimeRecord_next (s : State) : ResNext (execMintTimeRecord s) := by
  simp only [execMintTimeRecord, ↓resNext_next, ↓resNext_ite, implies_true, and_self]

theorem execJournalAppendComplete_next (s : State) : ResNext (execJournalAppendComplete s) := by
  unfold execJournalAppendComplete
  dsimp only
  repeat' (first | with_reducible exact resNext_next _ | with_reducible apply resNext_of_ite | split)

theorem execCheckpointDone_next (s : State) : ResNext (execCheckpointDone s) := by
  simp only [execCheckpointDone, ↓resNext_next, ↓resNext_ite, implies_true, and_self]

theorem execRecovery_next (a b : CopyRead) (recoin : List RecoinCheck) (torn : List TornCheck) (s : State) :
    ResNext (execRecovery a b recoin torn s) := by
  unfold execRecovery
  dsimp only
  repeat' (first | with_reducible exact resNext_next _ | with_reducible apply resNext_of_ite | split)

theorem execMemoryActive_next (s : State) : ResNext (execMemoryActive s) := by
  simp only [execMemoryActive, ↓resNext_next, ↓resNext_ite, implies_true, and_self]

theorem execScanDone_next (bad : List Nat) (s : State) : ResNext (execScanDone bad s) := by
  simp only [execScanDone, ↓resNext_next, ↓resNext_ite, implies_true, and_self]

theorem execScanCommitDone_next (s : State) : ResNext (execScanCommitDone s) := by
  simp only [execScanCommitDone, ↓resNext_next, ↓resNext_ite, implies_true, and_self]

theorem execMigrationStart_next (s : State) : ResNext (execMigrationStart s) := by
  unfold execMigrationStart
  dsimp only
  repeat' (first | with_reducible exact resNext_next _ | with_reducible apply resNext_of_ite | split)

theorem execMigrationPassDone_next (folio : Nat) (s : State) : ResNext (execMigrationPassDone folio s) := by
  unfold execMigrationPassDone
  repeat' (first | with_reducible exact resNext_next _ | with_reducible apply resNext_of_ite | split)

theorem execMigrationSourceQuiesced_next (folio : Nat) (s : State) : ResNext (execMigrationSourceQuiesced folio s) := by
  unfold execMigrationSourceQuiesced
  dsimp only
  repeat' (first | with_reducible exact resNext_next _ | with_reducible apply resNext_of_ite | split)

theorem execFolioBlankDone_next (m : Nat) (s : State) : ResNext (execFolioBlankDone m s) := by
  simp only [execFolioBlankDone, ↓resNext_next, ↓resNext_ite, implies_true, and_self]

theorem execSboxClearDone_next (s : State) : ResNext (execSboxClearDone s) := by
  simp only [execSboxClearDone, ↓resNext_next, ↓resNext_ite, implies_true, and_self]

theorem execMintTimeSet_next (s : State) : ResNext (execMintTimeSet s) := by
  unfold execMintTimeSet
  dsimp only
  repeat' (first | with_reducible exact resNext_next _ | with_reducible apply resNext_of_ite | split)

theorem execPtmDialogue_next (s : State) : ResNext (execPtmDialogue s) := by
  simp only [execPtmDialogue, ↓resNext_next, ↓resNext_ite, implies_true, and_self]

theorem execPtmResponse_next (master : BitVec 64) (s : State) : ResNext (execPtmResponse master s) := by
  simp only [execPtmResponse, ↓resNext_next, ↓resNext_ite, implies_true, and_self]

theorem execQuietForcedEnd_next (c : Nat) (s : State) : ResNext (execQuietForcedEnd c s) := by
  simp only [execQuietForcedEnd, ↓resNext_next, ↓resNext_ite, implies_true, and_self]

theorem execReleasePreparationStart_next (entry : Nat) (s : State) : ResNext (execReleasePreparationStart entry s) := by
  simp only [execReleasePreparationStart, ↓resNext_next, ↓resNext_ite, implies_true, and_self]

theorem execReleaseDone_next (set : Nat) (s : State) : ResNext (execReleaseDone set s) := by
  simp only [execReleaseDone, ↓resNext_next, ↓resNext_ite, implies_true, and_self]

theorem execSetClosed_next (set : Nat) (s : State) : ResNext (execSetClosed set s) := by
  simp only [execSetClosed, ↓resNext_next, ↓resNext_ite, implies_true, and_self]

theorem execSetAbandoned_next (set : Nat) (s : State) : ResNext (execSetAbandoned set s) := by
  simp only [execSetAbandoned, ↓resNext_next, ↓resNext_ite, implies_true, and_self]

theorem execChunkVerified_next (e : Nat) (s : State) : ResNext (execChunkVerified e s) := by
  unfold execChunkVerified
  dsimp only
  repeat' (first | with_reducible exact resNext_next _ | with_reducible apply resNext_of_ite | split)

theorem execDescriptorFetch_next (q : Nat) (entries : List (BitVec 512)) (s : State) :
    ResNext (execDescriptorFetch q entries s) := by
  unfold execDescriptorFetch
  dsimp only
  repeat' (first | with_reducible exact resNext_next _ | with_reducible apply resNext_of_ite | split)

theorem execImportChunk_next (q idx : Nat) (chunk : List Byte) (hostPoison : Bool) (s : State) :
    ResNext (execImportChunk q idx chunk hostPoison s) := by
  unfold execImportChunk
  dsimp only
  repeat' (first | with_reducible exact resNext_next _ | with_reducible apply resNext_of_ite | split)

theorem execExportChunk_next (q idx : Nat) (s : State) : ResNext (execExportChunk q idx s) := by
  unfold execExportChunk
  dsimp only
  repeat' (first | with_reducible exact resNext_next _ | with_reducible apply resNext_of_ite | split)

theorem execClean_next (q idx : Nat) (s : State) : ResNext (execClean q idx s) := by
  unfold execClean
  dsimp only
  repeat' (first | with_reducible exact resNext_next _ | with_reducible apply resNext_of_ite | split)

theorem execReserveLoad_next (q idx : Nat) (s : State) : ResNext (execReserveLoad q idx s) := by
  unfold execReserveLoad
  dsimp only
  repeat' (first | with_reducible exact resNext_next _ | with_reducible apply resNext_of_ite | split)

theorem execCondStore_next (q idx : Nat) (s : State) : ResNext (execCondStore q idx s) := by
  unfold execCondStore
  dsimp only
  repeat' (first | with_reducible exact resNext_next _ | with_reducible apply resNext_of_ite | split)

theorem execFence_next (q idx : Nat) (s : State) : ResNext (execFence q idx s) := by
  unfold execFence
  repeat' (first | with_reducible exact resNext_next _ | with_reducible apply resNext_of_ite | split)

theorem execTimestamp_next (q idx : Nat) (s : State) : ResNext (execTimestamp q idx s) := by
  unfold execTimestamp
  repeat' (first | with_reducible exact resNext_next _ | with_reducible apply resNext_of_ite | split)

theorem execCompletionEntryWrite_next (q idx : Nat) (s : State) : ResNext (execCompletionEntryWrite q idx s) := by
  unfold execCompletionEntryWrite
  repeat' (first | with_reducible exact resNext_next _ | with_reducible apply resNext_of_ite | split)

theorem execReqTimeout_next (q idx : Nat) (side : HostSide) (s : State) : ResNext (execReqTimeout q idx side s) := by
  unfold execReqTimeout
  repeat' (first | with_reducible exact resNext_next _ | with_reducible apply resNext_of_ite | split)

theorem execReinitComplete_next (f : Function) (ok : Bool) (s : State) : ResNext (execReinitComplete f ok s) := by
  unfold execReinitComplete
  repeat' (first | with_reducible exact resNext_next _ | with_reducible apply resNext_of_ite | split)

theorem execTreeResealed_next (s : State) : ResNext (execTreeResealed s) := by
  unfold execTreeResealed
  dsimp only
  repeat' (first | with_reducible exact resNext_next _ | with_reducible apply resNext_of_ite | split)

theorem execTreeDiscarded_next (s : State) : ResNext (execTreeDiscarded s) := by
  unfold execTreeDiscarded
  dsimp only
  repeat' (first | with_reducible exact resNext_next _ | with_reducible apply resNext_of_ite | split)

theorem execDebugAccess_next (hpa : BitVec 64) (wdata : Option Sector) (s : State) : ResNext (execDebugAccess hpa wdata s) := by
  unfold execDebugAccess
  dsimp only
  repeat' (first | with_reducible exact resNext_next _ | with_reducible apply resNext_of_ite | split)

theorem execHello_next (peer : PeerHello) (s : State) : ResNext (execHello peer s) := by
  simp only [execHello, ↓resNext_next, ↓resNext_ite, implies_true, and_self]

theorem execPairAuthentication_next (chainOk : Bool) (s : State) : ResNext (execPairAuthentication chainOk s) := by
  simp only [execPairAuthentication, ↓resNext_next, ↓resNext_ite, implies_true, and_self]

theorem execDebtMapExchange_next (peer : PeerDebt) (s : State) : ResNext (execDebtMapExchange peer s) := by
  simp only [execDebtMapExchange, ↓resNext_next, ↓resNext_ite, implies_true, and_self]

theorem execMirrorEntry_next (e : MirrorMsg) (s : State) : ResNext (execMirrorEntry e s) := by
  unfold execMirrorEntry
  dsimp only
  repeat' (first | with_reducible exact resNext_next _ | with_reducible apply resNext_of_ite)

theorem execPairTimeExchange_next (lead : BitVec 64) (roundTrip : Nat) (s : State) :
    ResNext (execPairTimeExchange lead roundTrip s) := by
  simp only [execPairTimeExchange, ↓resNext_next, ↓resNext_ite, implies_true, and_self]

theorem execForwardedAccess_next (f : ForwardMsg) (s : State) : ResNext (execForwardedAccess f s) := by
  unfold execForwardedAccess
  dsimp only
  repeat' (first | with_reducible exact resNext_next _ | with_reducible apply resNext_of_ite | split)

theorem execForwardResponse_next (id : Nat) (data : Option Sector) (s : State) : ResNext (execForwardResponse id data s) := by
  unfold execForwardResponse
  dsimp only
  repeat' (first | with_reducible exact resNext_next _ | with_reducible apply resNext_of_ite | split)

theorem execSettlementInstantZero_next (folio : Nat) (s : State) : ResNext (execSettlementInstantZero folio s) := by
  simp only [execSettlementInstantZero, ↓resNext_next, ↓resNext_ite, implies_true, and_self]

theorem execDaybookRecordTake_next (s : State) : ResNext (execDaybookRecordTake s) := by
  unfold execDaybookRecordTake
  repeat' (first | with_reducible exact resNext_next _ | with_reducible apply resNext_of_ite | split)

theorem execRateLimitWindow_next (s : State) : ResNext (execRateLimitWindow s) := by
  simp only [execRateLimitWindow, ↓resNext_next, ↓resNext_ite, implies_true, and_self]

theorem execCountersCleared_next (s : State) : ResNext (execCountersCleared s) := by
  unfold execCountersCleared
  repeat' (first | with_reducible exact resNext_next _ | with_reducible apply resNext_of_ite | split)

theorem execSnapshotCapture_next (s : State) : ResNext (execSnapshotCapture s) := by
  simp only [execSnapshotCapture, ↓resNext_next, ↓resNext_ite, implies_true, and_self]

theorem execSnapDone_next (s : State) : ResNext (execSnapDone s) := by
  unfold execSnapDone
  dsimp only
  repeat' (first | with_reducible exact resNext_next _ | with_reducible apply resNext_of_ite | split)

theorem execSample_next (slot : Nat) (s : State) : ResNext (execSample slot s) := by
  unfold execSample
  dsimp only
  repeat' (first | with_reducible exact resNext_next _ | with_reducible apply resNext_of_ite)

theorem execHistogramRestart_next (hist : Nat) (s : State) : ResNext (execHistogramRestart hist s) := by
  simp only [execHistogramRestart, ↓resNext_next, ↓resNext_ite, implies_true, and_self]

theorem execRecallRun_next (faults : List RecallFault) (s : State) : ResNext (execRecallRun faults s) := by
  simp only [execRecallRun, ↓resNext_next, ↓resNext_ite, implies_true, and_self]

theorem execRecallComplete_next (s : State) : ResNext (execRecallComplete s) := by
  simp only [execRecallComplete, ↓resNext_next, ↓resNext_ite, implies_true, and_self]

theorem execScanEnd_next (codes : List (BitVec 12)) (s : State) : ResNext (execScanEnd codes s) := by
  unfold execScanEnd
  dsimp only
  repeat' (first | with_reducible exact resNext_next _ | with_reducible apply resNext_of_ite | split)

theorem execRailDelayExpiry_next (slot : Nat) (s : State) : ResNext (execRailDelayExpiry slot s) := by
  unfold execRailDelayExpiry
  dsimp only
  repeat' (first | with_reducible exact resNext_next _ | with_reducible apply resNext_of_ite | split)

theorem execPbNPress_next (s : State) : ResNext (execPbNPress s) := by
  simp only [execPbNPress, ↓resNext_next, ↓resNext_ite, implies_true, and_self]

theorem execPbPress_next (s : State) : ResNext (execPbPress s) := by
  simp only [execPbPress, ↓resNext_next, ↓resNext_ite, implies_true, and_self]

theorem execPbForceOff_next (s : State) : ResNext (execPbForceOff s) := by
  unfold execPbForceOff
  repeat' (first | with_reducible exact resNext_next _ | with_reducible apply resNext_of_ite)

theorem execSensorConversion_next (sensor : Nat) (raw : Int) (s : State) : ResNext (execSensorConversion sensor raw s) := by
  simp only [execSensorConversion, ↓resNext_next, ↓resNext_ite, implies_true, and_self]

theorem execVddAonLoss_next (s : State) : ResNext (execVddAonLoss s) := by
  simp only [execVddAonLoss, ↓resNext_next, ↓resNext_ite, implies_true, and_self]

theorem execLinkRecovery_next (h : Head) (rate : Nat) (s : State) : ResNext (execLinkRecovery h rate s) := by
  simp only [execLinkRecovery, ↓resNext_next, ↓resNext_ite, implies_true, and_self]

/-- Every command answers a next state. -/
theorem exec_next (i : Instr) (s : State) : ResNext (exec i s) := by
  cases i with
  | islandTimeout a => exact execIslandTimeout_next a s
  | islandClockReturn d => exact execIslandClockReturn_next d s
  | commitApply c => exact execCommitApply_next c s
  | frameToken => exact execFrameToken_next s
  | frameStart k => exact execFrameStart_next k s
  | slotStart c => exact execSlotStart_next c s
  | recoined b => exact execRecoined_next b s
  | mediaReadDone op r => exact execMediaReadDone_next op r s
  | mediaWriteDone op => exact execMediaWriteDone_next op s
  | drainIssue => exact execDrainIssue_next s
  | drainAgeCheck => exact execDrainAgeCheck_next s
  | gpfPhase2Complete => exact execGpfPhase2Complete_next s
  | biSnoopResponse h sector wb => exact execBiSnoopResponse_next h sector wb s
  | biTimeout h sector => exact execBiTimeout_next h sector s
  | lostSlotScanDone slot => exact execLostSlotScanDone_next slot s
  | alert c pos cause op => exact execAlert_next c pos cause op s
  | suspFault c pos bank => exact execSuspFault_next c pos bank s
  | bankResume c pos bank => exact execBankResume_next c pos bank s
  | channelBringup c present m2 => exact execChannelBringup_next c present m2 s
  | bringupStepTimeout c step => exact execBringupStepTimeout_next c step s
  | dieFailed c pos why => exact execDieFailed_next c pos why s
  | rebuildDone c => exact execRebuildDone_next c s
  | restrike c => exact execRestrike_next c s
  | patrolStart => exact execPatrolStart_next s
  | scrubDone => exact execScrubDone_next s
  | mintTimeRecord => exact execMintTimeRecord_next s
  | journalAppendComplete => exact execJournalAppendComplete_next s
  | checkpointDone => exact execCheckpointDone_next s
  | recovery a b recoin torn => exact execRecovery_next a b recoin torn s
  | memoryActive => exact execMemoryActive_next s
  | scanDone bad => exact execScanDone_next bad s
  | scanCommitDone => exact execScanCommitDone_next s
  | migrationStart => exact execMigrationStart_next s
  | migrationPassDone folio => exact execMigrationPassDone_next folio s
  | migrationSourceQuiesced folio => exact execMigrationSourceQuiesced_next folio s
  | folioBlankDone m => exact execFolioBlankDone_next m s
  | sboxClearDone => exact execSboxClearDone_next s
  | mintTimeSet => exact execMintTimeSet_next s
  | ptmDialogue => exact execPtmDialogue_next s
  | ptmResponse master => exact execPtmResponse_next master s
  | nopOrder entry => exact execNopOrder_next entry s
  | prefetchOrder entry => exact execPrefetchOrder_next entry s
  | releaseOrder entry => exact execReleaseOrder_next entry s
  | queueStart entry => exact execQueueStart_next entry s
  | quietBegin entry => exact execQuietBegin_next entry s
  | quietEnd entry => exact execQuietEnd_next entry s
  | auditOrder entry => exact execAuditOrder_next entry s
  | markerOrder entry => exact execMarkerOrder_next entry s
  | quietForcedEnd c => exact execQuietForcedEnd_next c s
  | releasePreparationStart entry => exact execReleasePreparationStart_next entry s
  | releaseDone set => exact execReleaseDone_next set s
  | setClosed set => exact execSetClosed_next set s
  | setAbandoned set => exact execSetAbandoned_next set s
  | chunkVerified e => exact execChunkVerified_next e s
  | descriptorFetch q entries => exact execDescriptorFetch_next q entries s
  | importChunk q idx chunk hostPoison => exact execImportChunk_next q idx chunk hostPoison s
  | exportChunk q idx => exact execExportChunk_next q idx s
  | clean q idx => exact execClean_next q idx s
  | reserveLoad q idx => exact execReserveLoad_next q idx s
  | condStore q idx => exact execCondStore_next q idx s
  | fence q idx => exact execFence_next q idx s
  | timestamp q idx => exact execTimestamp_next q idx s
  | completionEntryWrite q idx => exact execCompletionEntryWrite_next q idx s
  | reqTimeout q idx side => exact execReqTimeout_next q idx side s
  | reinitComplete f ok => exact execReinitComplete_next f ok s
  | treeResealed => exact execTreeResealed_next s
  | treeDiscarded => exact execTreeDiscarded_next s
  | debugAccess hpa wdata => exact execDebugAccess_next hpa wdata s
  | hello peer => exact execHello_next peer s
  | pairAuthentication chainOk => exact execPairAuthentication_next chainOk s
  | debtMapExchange peer => exact execDebtMapExchange_next peer s
  | mirrorEntry e => exact execMirrorEntry_next e s
  | pairTimeExchange lead roundTrip => exact execPairTimeExchange_next lead roundTrip s
  | forwardedAccess f => exact execForwardedAccess_next f s
  | forwardResponse id data => exact execForwardResponse_next id data s
  | settlementInstantZero folio => exact execSettlementInstantZero_next folio s
  | daybookRecordTake => exact execDaybookRecordTake_next s
  | rateLimitWindow => exact execRateLimitWindow_next s
  | countersCleared => exact execCountersCleared_next s
  | snapshotCapture => exact execSnapshotCapture_next s
  | snapDone => exact execSnapDone_next s
  | sample slot => exact execSample_next slot s
  | histogramRestart hist => exact execHistogramRestart_next hist s
  | recallRun faults => exact execRecallRun_next faults s
  | recallComplete => exact execRecallComplete_next s
  | scanEnd codes => exact execScanEnd_next codes s
  | railDelayExpiry slot => exact execRailDelayExpiry_next slot s
  | pbNPress => exact execPbNPress_next s
  | pbPress => exact execPbPress_next s
  | pbForceOff => exact execPbForceOff_next s
  | sensorConversion sensor raw => exact execSensorConversion_next sensor raw s
  | vddAonLoss => exact execVddAonLoss_next s
  | linkRecovery h rate => exact execLinkRecovery_next h rate s
  | _ => exact .of_isNext rfl

/-- Settles O59: every row answers a next state (`exec_next`), which has the queue, the board and the clock (`exec_kept`). -/
theorem everyCommandCompletes : Obligations.EveryCommandCompletes := by
  unfold Obligations.EveryCommandCompletes
  intro i s
  obtain ⟨t, ht⟩ := exec_next i s
  obtain ⟨hpending, hboard, hclock, -⟩ := exec_kept i s t ht
  exact ⟨t, ht, hpending, hboard, hclock, fun hok => (boardOk_of_board hboard).trans hok⟩

/-- The nanosecond of an empty queue changes the clock, the timebase and DRAM cells, and nothing else (log entry 4). -/
theorem tick_only (s : State) :
    ((((tick s).modTbs fun _ => s.tbs).modPur fun u => { u with flips := s.pur.flips }).setClock s.clock) = s := by
  simp only [tick]
  split
  · simp only [tickMint, State.modTbs, State.modPur, State.setClock]
  · simp only [State.modTbs, State.modPur, State.setClock]

/-- Settles O1: the front command runs with the queue's rest, and an empty queue lets one nanosecond pass. -/
theorem stepRunsFront : Obligations.StepRunsFront := by
  unfold Obligations.StepRunsFront
  refine ⟨fun c rest s => rfl, fun s hempty => ?_⟩
  obtain ⟨hpending, -, hclock⟩ := tick_frame s
  exact ⟨tick s, by rw [step, hempty], hclock, hpending.trans hempty, tick_only s⟩

/-- Settles O3: the front command keeps RMA (`exec_kept`), and the nanosecond of an empty queue does not touch the lifecycle state. -/
theorem rmaIsPermanent : Obligations.RmaIsPermanent := by
  unfold Obligations.RmaIsPermanent
  intro s t hrma hstep
  cases hq : s.pending with
  | nil =>
    rw [step, hq] at hstep
    cases hstep
    simp only [tick]
    split
    · exact hrma
    · exact hrma
  | cons c rest =>
    rw [step, hq] at hstep
    obtain ⟨-, -, -, hstays⟩ := exec_kept c (s.setPending rest) t hstep
    exact hstays hrma

/-- Settles O11: what raising does to the pending bits and to LAST_REASON, whatever the rate limit keeps. -/
theorem raisedReasonIsPending : Obligations.RaisedReasonIsPending := by
  unfold Obligations.RaisedReasonIsPending
  intro g src n d s hlow hcode
  exact ⟨raise_pends g src n d s hlow hcode, raise_noted g src n d s, fun w b hw hb hset => raiseF_pending _ _ d s w b hw hb hset⟩

end Sys2Proof.Machine
end

section
/-! The event, daybook and audit controls (R421, R428, R434-R438) and the counter-clear registers (R111, R152, R216, R284, R303,
R332): each is one write of BAR0, which its block turns into one operation. -/

namespace Sys2Proof.Machine

open Sys2Proof

/-- A 32-bit write of BAR0 whose domain d takes accesses is the write of its block. -/
theorem accessOp_wr0_of_domain {off d : Nat} (hd : domainOf off = d) (hm : off % 4 = 0) (ho : off < 0x120000) (h : Head) (v : BitVec 32)
    (s : State) (hf : domFree s d = true) : accessOp (wr0 h off v) s = bar0Write h off v s :=
  accessOp_wr0 h off v s hm (.inl ho) (hd ▸ hf)

/-- A write above an offset passes the blocks that end below it. -/
theorem passes_block {α : Type} {off low bound : Nat} {x y : α} (hlow : low ≤ off) (hbound : bound ≤ low) :
    (if off < bound then x else y) = y := if_neg (Nat.not_lt.2 (hbound.trans hlow))

section
variable {off : Nat} (h : Head) (v : BitVec 32) (s : State)

theorem bar0Write_events (hlow : 0x30000 ≤ off) (hhigh : off < 0x40000) : bar0Write h off v s = writeEvt h off v s := by
  rw [bar0Write, passes_block hlow (by decide), passes_block hlow (by decide), passes_block hlow (by decide), if_pos hhigh]

theorem bar0Write_audit (hlow : 0x50000 ≤ off) (hhigh : off < 0x60000) : bar0Write h off v s = writeAud h off v s := by
  rw [bar0Write, passes_block hlow (by decide), passes_block hlow (by decide), passes_block hlow (by decide), passes_block hlow (by decide),
    passes_block hlow (by decide), if_pos hhigh]

theorem bar0Write_channel (hlow : 0x100000 ≤ off) (hhigh : off < 0x120000) :
    bar0Write h off v s = writeMch h ((off - 0x100000) / 0x1000) (off % 0x1000) v s := by
  rw [bar0Write, passes_block hlow (by decide), passes_block hlow (by decide), passes_block hlow (by decide), passes_block hlow (by decide),
    passes_block hlow (by decide), passes_block hlow (by decide), passes_block hlow (by decide), passes_block hlow (by decide),
    passes_block hlow (by decide), if_pos (by rw [decide_eq_true hlow, decide_eq_true hhigh]; rfl)]

end

/-! Pending bits (R421). -/

/-- Where the pending words stand (R441). -/
theorem evtPending_place : ∀ n < 10, domainOf (0x30010 + 4 * n) = domFAB ∧ (0x30010 + 4 * n) % 4 = 0 ∧ 0x30000 ≤ 0x30010 + 4 * n ∧
    0x30010 + 4 * n < 0x40000 ∧ (0x30010 ≤ 0x30010 + 4 * n && 0x30010 + 4 * n < 0x30038) = true ∧ (0x30010 + 4 * n - 0x30010) / 4 = n := by decide

theorem pending_cleared (old v : BitVec 32) (i : Nat) : (old &&& ~~~v).getLsbD i = (old.getLsbD i && !v.getLsbD i) := by
  rw [BitVec.getLsbD_and, BitVec.getLsbD_not]
  by_cases hi : i < 32
  · rw [decide_eq_true hi, Bool.true_and]
  · rw [BitVec.getLsbD_of_ge old i (Nat.le_of_not_lt hi), Bool.false_and, Bool.false_and]

theorem exec_evtPendingClear {n : Nat} (hn : n < 10) (h : Head) (v : BitVec 32) (s : State) (hf : domFree s domFAB = true) :
    exec (.evtPendingClear h n v) s = .next (rset s (0x30010 + 4 * n) (rget s (0x30010 + 4 * n) &&& ~~~v)) := by
  obtain ⟨hdom, halign, hlow, hhigh, hwords, hindex⟩ := evtPending_place n hn
  refine congrArg Host.Outcome.next ((if_pos hn).trans ?_)
  rw [accessOp_wr0_of_domain hdom halign (hhigh.trans (by decide)) h v s hf,
    bar0Write_events h v s hlow hhigh, writeEvt, if_pos hwords, hindex]
  exact if_pos hn

/-! The freeze (R428). -/

theorem daybookFreezeOp_spec (s : State) : (daybookFreezeOp s).ev.frozen = true ∧ (s.ev.frozen = true → daybookFreezeOp s = s) ∧
    (s.ev.frozen = false → Noted (s.modEv fun e => { e with frozen := true, freezeLost := false }) (daybookFreezeOp s)) := by
  unfold daybookFreezeOp
  split
  · next hfrozen => exact ⟨hfrozen, fun _ => rfl, fun hthawed => absurd hfrozen (ne_true_of_eq_false hthawed)⟩
  · next hthawed => exact ⟨raise_ev_frozen _ _ _ _ _, fun hfrozen => absurd hfrozen hthawed, fun _ => raise_noted _ _ _ _ _⟩

theorem daybookThawOp_spec (s : State) : (daybookThawOp s).ev.frozen = false ∧ (s.ev.frozen = false → daybookThawOp s = s) ∧
    (s.ev.frozen = true → Noted (s.modEv fun e => { e with frozen := false, freezeLost := false }) (daybookThawOp s)) := by
  unfold daybookThawOp
  split
  · next hfrozen =>
    exact ⟨raise_ev_frozen _ _ _ _ _, fun hthawed => absurd hfrozen (ne_true_of_eq_false hthawed), fun _ => raise_noted _ _ _ _ _⟩
  · next hthawed => exact ⟨eq_false_of_ne_true hthawed, fun _ => rfl, fun hfrozen => absurd hfrozen hthawed⟩

/-! Snapshot requests and the clear (R432, R434). -/

theorem exec_snap (h : Head) (tag : BitVec 16) (s : State) (hf : domFree s domFAB = true) :
    exec (.snap h tag) s = .next (snapRequest (nextBoundary s) tag 2 s) := by
  have hsnap : (tag ++ (1 : BitVec 16)).getLsbD 0 = true := (BitVec.getLsbD_append).trans rfl
  have hclear : ¬ (tag ++ (1 : BitVec 16)).getLsbD 1 = true := ne_true_of_eq_false ((BitVec.getLsbD_append).trans rfl)
  have htag : (tag ++ (1 : BitVec 16)).extractLsb' 16 16 = tag := by
    rw [BitVec.extractLsb'_append_eq_of_le (by decide), BitVec.extractLsb'_eq_self]
  refine congrArg Host.Outcome.next ((accessOp_wr0 h 0x50004 _ s (by decide) (by decide) hf).trans ((if_neg hclear).trans ?_))
  rw [if_pos hsnap, htag]
  rfl

theorem exec_clearCounters (h : Head) (s : State) (hf : domFree s domFAB = true) :
    exec (.clearCounters h) s = .next (s.modEv fun e => { e with clearAt := some (boundaryAfter s 1) }) :=
  congrArg Host.Outcome.next (accessOp_wr0 h 0x50004 2 s (by decide) (by decide) hf)

/-! Sampling slots and histograms (R436, R438). -/

/-- A state whose registers and event fields are put back is the state they were set in. -/
theorem setRegs_modEv_frame {s : State} {f g : Events → Events} (r : Tab (BitVec 32)) (hback : g (f s.ev) = s.ev) :
    (((s.setRegs r).modEv f).setRegs s.regs).modEv g = s :=
  (show (((s.setRegs r).modEv f).setRegs s.regs).modEv g = s.modEv fun e => g (f e) from rfl).trans (by rw [State.modEv, hback])

/-- R436: the register of a sampling slot that a write names: its configuration, or its period. -/
def sampleReg (n : Nat) (period : Bool) : Nat := 0x50040 + 8 * n + (if period then 4 else 0)

/-- R436: the bits of that register that a write sets. -/
def sampleMask (period : Bool) : Nat := if period then 0xFFFFFFFF else 0xFFF

/-- R436: the slot's register as a write leaves it. -/
def sampleWritten (n : Nat) (period : Bool) (v : BitVec 32) (s : State) : State :=
  rset s (sampleReg n period) (writeMasked (sampleMask period) 0 (rget s (sampleReg n period)) v)

theorem sampleWritten_bits (n : Nat) (period : Bool) (v : BitVec 32) (s : State) (i : Nat) (hi : i < 32) :
    (rget (sampleWritten n period v s) (sampleReg n period)).getLsbD i =
      if period = true ∨ i < 12 then v.getLsbD i else (rget s (0x50040 + 8 * n)).getLsbD i := by
  rw [sampleWritten, rget_rset_same]
  cases period with
  | false => exact (writeMasked_low 12 _ v i hi).trans (by simp [sampleReg])
  | true => exact (writeMasked_low 32 _ v i hi).trans (by simp [hi])

theorem regSampleCfgWrite_eq {n : Nat} (hn : n < 16) (h : Head) (period : Bool) (v : BitVec 32) (s : State) :
    regSampleCfgWrite h n period v s = .next ((sampleWritten n period v s).modEv fun e =>
      { e with sampleBase := tput 0 e.sampleBase n (ctrVal s (bits (rval (sampleWritten n period v s) (0x50040 + 8 * n)) 0 10)),
               sampleK := tput 0 e.sampleK n 0 }) := by
  have hreg : (if period then 0x50044 else 0x50040) + 8 * n = sampleReg n period := by
    cases period <;> simp only [sampleReg, if_true, Bool.false_eq_true, if_false] <;> omega
  unfold regSampleCfgWrite
  rw [if_pos hn, hreg]
  rfl

/-- Where the sampling slots' registers stand (R443). -/
theorem sampleReg_place : ∀ n < 16, ∀ period, domainOf (sampleReg n period) = domFAB ∧ sampleReg n period % 4 = 0 ∧
    0x50000 ≤ sampleReg n period ∧ sampleReg n period < 0x60000 ∧ (sampleReg n period == 0x50004) = false ∧
    (0x50040 ≤ sampleReg n period && sampleReg n period < 0x500C0) = true ∧ (sampleReg n period - 0x50040) / 8 = n ∧
    (sampleReg n period % 8 == 4) = period := by decide

theorem exec_sampleCfgWrite {n : Nat} (hn : n < 16) (h : Head) (period : Bool) (v : BitVec 32) (s : State)
    (hf : domFree s domFAB = true) : exec (.sampleCfgWrite h n period v) s = regSampleCfgWrite h n period v s := by
  obtain ⟨hdom, halign, hlow, hhigh, hctl, hslots, hindex, hperiod⟩ := sampleReg_place n hn period
  have hwrite : bar0Write h (sampleReg n period) v s = stOf (regSampleCfgWrite h n period v s) s := by
    rw [bar0Write_audit h v s hlow hhigh, writeAud, if_neg (ne_true_of_eq_false hctl), if_pos hslots, hindex, hperiod]
  have hrun : exec (.sampleCfgWrite h n period v) s = .next (bar0Write h (sampleReg n period) v s) :=
    congrArg Host.Outcome.next ((if_pos hn).trans (accessOp_wr0_of_domain hdom halign (hhigh.trans (by decide)) h v s hf))
  rw [hrun, hwrite, regSampleCfgWrite_eq hn]
  rfl

/-- R438: a histogram's register as a write leaves it. -/
def histWritten (n : Nat) (v : BitVec 32) (s : State) : State :=
  rset s (0x500C0 + 4 * n) (writeMasked 0x1FFF 0 (rget s (0x500C0 + 4 * n)) v)

theorem regHistCfgWrite_eq {n : Nat} (hn : n < 8) (h : Head) (v : BitVec 32) (s : State) :
    regHistCfgWrite h n v s = .next ((histWritten n v s).modEv fun e =>
      { e with histAt := tput 0 e.histAt n (boundaryAfter s 1 + 1) }) :=
  if_pos hn

theorem histWritten_bits (n : Nat) (v : BitVec 32) (s : State) (i : Nat) (hi : i < 32) :
    (rget (histWritten n v s) (0x500C0 + 4 * n)).getLsbD i =
      if i < 13 then v.getLsbD i else (rget s (0x500C0 + 4 * n)).getLsbD i := by
  rw [histWritten, rget_rset_same]
  exact writeMasked_low 13 _ v i hi

/-- Where the histograms' registers stand (R443). -/
theorem histReg_place : ∀ n < 8, domainOf (0x500C0 + 4 * n) = domFAB ∧ (0x500C0 + 4 * n) % 4 = 0 ∧ 0x50000 ≤ 0x500C0 + 4 * n ∧
    0x500C0 + 4 * n < 0x60000 ∧ (0x500C0 + 4 * n == 0x50004) = false ∧ (0x50040 ≤ 0x500C0 + 4 * n && 0x500C0 + 4 * n < 0x500C0) = false ∧
    (0x500C0 ≤ 0x500C0 + 4 * n && 0x500C0 + 4 * n < 0x500E0) = true ∧ (0x500C0 + 4 * n - 0x500C0) / 4 = n := by decide

theorem exec_histCfgWrite {n : Nat} (hn : n < 8) (h : Head) (v : BitVec 32) (s : State) (hf : domFree s domFAB = true) :
    exec (.histCfgWrite h n v) s = regHistCfgWrite h n v s := by
  obtain ⟨hdom, halign, hlow, hhigh, hctl, hslots, hhists, hindex⟩ := histReg_place n hn
  have hwrite : bar0Write h (0x500C0 + 4 * n) v s = stOf (regHistCfgWrite h n v s) s := by
    rw [bar0Write_audit h v s hlow hhigh, writeAud, if_neg (ne_true_of_eq_false hctl), if_neg (ne_true_of_eq_false hslots), if_pos hhists,
      hindex]
  have hrun : exec (.histCfgWrite h n v) s = .next (bar0Write h (0x500C0 + 4 * n) v s) :=
    congrArg Host.Outcome.next ((if_pos hn).trans (accessOp_wr0_of_domain hdom halign (hhigh.trans (by decide)) h v s hf))
  rw [hrun, hwrite, regHistCfgWrite_eq hn]
  rfl

/-! Counter clears: each sets a list of registers to zero. -/

/-- The state whose registers of a list are zero. -/
def zeroed (ks : List Nat) (s : State) : State := forEach ks (fun k s => rset s k 0) s

/-- A clear of a list of registers: the counts are zero, every other stored register and all other state is unchanged. -/
theorem zeroed_spec (ks : List Nat) (s : State) (p : Nat → Prop) [DecidablePred p] (hp : ∀ k, k ∈ ks ↔ p k) :
    (zeroed ks s).setRegs s.regs = s ∧ ∀ k, rget (zeroed ks s) k = if p k then 0 else rget s k := by
  refine ⟨setRegs_zeros ks s s.regs, fun k => (rget_zeros ks s k).trans ?_⟩
  simp only [hp]

theorem mem_pair {k a b : Nat} : k ∈ [a, b] ↔ k = a ∨ k = b := by
  rw [List.mem_cons, List.mem_singleton]

/-- A word within a register array, by its offset (R6): base 4 * m, and words m to m + count. -/
theorem mem_wordArray (m count k : Nat) :
    k ∈ (List.range count).map (4 * m + 4 * ·) ↔ 4 * m ≤ k ∧ k < 4 * (m + count) ∧ k % 4 = 0 := by
  rw [List.mem_map]
  refine ⟨fun ⟨i, hi, hk⟩ => ?_, fun ⟨hlow, hhigh, hmod⟩ => ?_⟩
  · rw [← Nat.mul_add] at hk
    rw [← hk]
    exact ⟨Nat.mul_le_mul_left 4 (Nat.le_add_right m i), Nat.mul_lt_mul_of_pos_left (Nat.add_lt_add_left (List.mem_range.1 hi) m) (by decide),
      Nat.mul_mod_right 4 _⟩
  · obtain ⟨j, rfl⟩ := Nat.dvd_of_mod_eq_zero hmod
    have hm : m ≤ j := Nat.le_of_mul_le_mul_left hlow (by decide)
    have hj : j < m + count := Nat.lt_of_mul_lt_mul_left hhigh
    exact ⟨j - m, List.mem_range.2 (Nat.sub_lt_left_of_lt_add hm hj), by rw [← Nat.mul_add, Nat.add_sub_cancel' hm]⟩

theorem exec_intCntClear (h : Head) (s : State) (hf : domFree s domECC = true) :
    exec (.intCntClear h) s = .next (zeroed ((List.range 7).map (0x200040 + 4 * ·)) s) :=
  congrArg Host.Outcome.next (accessOp_wr0 h 0x200004 1 s (by decide) (by decide) hf)

theorem exec_purCntClear (h : Head) (s : State) (hf : domFree s domPUR = true) :
    exec (.purCntClear h) s = .next (zeroed [0x80018, 0x8001C] s) :=
  congrArg Host.Outcome.next (accessOp_wr0 h 0x80008 1 s (by decide) (by decide) hf)

theorem exec_iceCntClear (h : Head) (s : State) (hf : domFree s domCIP = true) :
    exec (.iceCntClear h) s =
      .next (zeroed ((List.range 6).map (0x300040 + 4 * ·) ++ (List.range 4).map (0x300110 + 4 * ·)) s) := by
  have hwrite : bar0Write h 0x300004 1 s = stOf (regIceCntClear h s) s := by
    refine (show bar0Write h 0x300004 1 s = writeHigh h 0x300004 1 s from rfl).trans ?_
    rw [writeHigh, show rwpIndex 0x300004 = none from rfl]
    dsimp only
    rw [if_neg (by decide), if_neg (by decide), if_neg (by decide), if_pos (by decide), if_pos (by decide)]
  have hzeroed : stOf (regIceCntClear h s) s =
      zeroed ((List.range 6).map (0x300040 + 4 * ·) ++ (List.range 4).map (0x300110 + 4 * ·)) s := by
    rw [regIceCntClear, stOf, zeroed]
  have hrun : exec (.iceCntClear h) s = .next (accessOp (wr0 h 0x300004 1) s) := rfl
  rw [hrun, accessOp_wr0 h 0x300004 1 s (by decide) (by decide) hf, hwrite, hzeroed]

theorem exec_movCntClear (h : Head) (s : State) (hf : domFree s domFAB = true) :
    exec (.movCntClear h) s = .next (zeroed ((List.range 4).map (0x400040 + 4 * ·)) s) :=
  congrArg Host.Outcome.next (accessOp_wr0 h 0x400004 1 s (by decide) (by decide) hf)

/-- Where MCH_CTL stands (R111). -/
theorem mchCtl_place : ∀ c < 32, domainOf (mch c 0x24) = chDomain c ∧ mch c 0x24 % 4 = 0 ∧ 0x100000 ≤ mch c 0x24 ∧ mch c 0x24 < 0x120000 ∧
    (mch c 0x24 - 0x100000) / 0x1000 = c ∧ mch c 0x24 % 0x1000 = 0x24 := by decide

/-- MCH_CNT_CLEAR of one channel (R111). -/
theorem exec_mchCntClear {c : Nat} (hc : c < 32) (s : State) (hpop : populated s c = true) (hf : domFree s (chDomain c) = true) :
    exec (.mchCntClear (.channel c)) s = .next (zeroed [mch c 0x38, mch c 0x3C] s) := by
  obtain ⟨hdom, halign, hlow, hhigh, hindex, hoff⟩ := mchCtl_place c hc
  have hone : members s (.channel c) = [c] := if_pos hpop
  have hwrite : bar0Write .a (mch c 0x24) 4 s = stOf (regMchCntClear (.channel c) s) s := by
    rw [bar0Write_channel .a 4 s hlow hhigh, hindex, hoff]
    rfl
  refine congrArg Host.Outcome.next ((if_pos (decide_eq_true hc)).trans ?_)
  rw [targetOff, accessOp_wr0_of_domain hdom halign hhigh .a 4 s hf, hwrite, regMchCntClear, hone]
  rfl

/-- Settles O9: each control is the operation of its register, and each counter clear zeroes the registers of its block's counts. -/
theorem auditControlsAndCounterClears : Obligations.AuditControlsAndCounterClears := by
  unfold Obligations.AuditControlsAndCounterClears
  refine ⟨fun h n v s hn hf => ?_, fun h s hf => ⟨?_, ?_⟩, fun h tag s hf => ?_, fun h s hf => ?_, fun h n period v s hn hf => ?_,
    fun h n v s hn hf => ?_, fun h s hf => ?_, fun h s hf => ?_, fun h s hf => ?_, fun h s hf => ?_, fun c s hc hpop hf => ?_⟩
  · refine ⟨_, exec_evtPendingClear hn h v s hf, rfl, fun i => ?_, fun k hk => rget_rset_ne _ _ _ _ hk⟩
    rw [rget_rset_same]
    exact pending_cleared _ v i
  · exact ⟨_, congrArg Host.Outcome.next (accessOp_wr0 h 0x40004 1 s (by decide) (by decide) hf), daybookFreezeOp_spec s⟩
  · exact ⟨_, congrArg Host.Outcome.next (accessOp_wr0 h 0x40004 2 s (by decide) (by decide) hf), daybookThawOp_spec s⟩
  · obtain ⟨hmod, hlow, hhigh⟩ := boundaryAfter_spec s 32
    exact ⟨_, _, exec_snap h tag s hf, hmod, hlow, hhigh, rfl⟩
  · obtain ⟨hmod, hlow, hhigh⟩ := boundaryAfter_spec s 1
    exact ⟨_, _, exec_clearCounters h s hf, hmod, by omega, by omega, rfl⟩
  · have hregs (k : Nat) (f : Events → Events) : rget ((sampleWritten n period v s).modEv f) k = rget (sampleWritten n period v s) k :=
      rget_of_regs rfl k
    exact ⟨_, (exec_sampleCfgWrite hn h period v s hf).trans (regSampleCfgWrite_eq hn h period v s),
      fun i hi => (congrArg (·.getLsbD i) (hregs _ _)).trans (sampleWritten_bits n period v s i hi),
      fun k hk => (hregs k _).trans (rget_rset_ne _ _ _ _ hk),
      (tget_tput_same _ _ _ _).trans (congrArg (fun x : BitVec 32 => ctrVal s (bits x.toNat 0 10)) (hregs _ _).symm),
      tget_tput_same 0 s.ev.sampleK n 0, setRegs_modEv_frame _ rfl⟩
  · obtain ⟨hmod, hlow, hhigh⟩ := boundaryAfter_spec s 1
    have hregs (k : Nat) (f : Events → Events) : rget ((histWritten n v s).modEv f) k = rget (histWritten n v s) k := rget_of_regs rfl k
    exact ⟨_, _, (exec_histCfgWrite hn h v s hf).trans (regHistCfgWrite_eq hn h v s),
      fun i hi => (congrArg (·.getLsbD i) (hregs _ _)).trans (histWritten_bits n v s i hi),
      fun k hk => (hregs k _).trans (rget_rset_ne _ _ _ _ hk), hmod, by omega, by omega,
      tget_tput_same 0 s.ev.histAt n (boundaryAfter s 1 + 1), setRegs_modEv_frame _ rfl⟩
  · exact ⟨_, exec_intCntClear h s hf, zeroed_spec _ s _ fun k => mem_wordArray 0x80010 7 k⟩
  · exact ⟨_, exec_purCntClear h s hf, zeroed_spec _ s _ fun k => mem_pair⟩
  · refine ⟨_, exec_iceCntClear h s hf, zeroed_spec _ s _ fun k => ?_⟩
    rw [List.mem_append, mem_wordArray 0xC0010 6 k, mem_wordArray 0xC0044 4 k, ← and_assoc, ← and_assoc, ← or_and_right, and_comm]
  · exact ⟨_, exec_movCntClear h s hf, zeroed_spec _ s _ fun k => mem_wordArray 0x100010 4 k⟩
  · refine ⟨_, exec_mchCntClear hc s hpop hf, zeroed_spec _ s _ fun k => ?_⟩
    rw [mch, mch, Nat.add_right_comm _ _ 0x38, Nat.add_right_comm _ _ 0x3C]
    exact mem_pair

end Sys2Proof.Machine
end

section
/-! Coalescing, the daybook's ring and rate limits (R423-R430), snapshots, clears, samples and histograms (R432-R438). -/

namespace Sys2Proof.Machine

open Sys2Proof

/-! Signalling a vector (R422, R423). -/

theorem signalVec_noted (h : Head) (v : Nat) (s : State) : Noted s (signalVec h v s) :=
  ⟨signalVec_bare h v s, signalVec_ev h v s, signalVec_said h v s, fun k _ => rget_of_regs (signalVec_regs h v s) k,
    fun i hi => signalVec_ctr h v s i hi⟩

theorem modPort_sup (h : Head) (f : Port → Port) (s : State) : (modPort h f s).sup = s.sup := by cases h <;> rfl

theorem portOf_of_fe {s t : State} (h : Head) (hfe : t.fe = s.fe) : portOf t h = portOf s h := by cases h <;> simp only [portOf, hfe]

theorem incRaw_fe (i n : Nat) (s : State) : (incRaw i n s).1.fe = s.fe := by
  simp only [incRaw]
  split <;> rfl

theorem incRaw_outbox (i n : Nat) (s : State) : (incRaw i n s).1.outbox = s.outbox := by
  simp only [incRaw]
  split <;> rfl

/-- R423: a port none of whose notifications to a vector are accumulated any more. -/
def Port.unhold (v : Nat) (p : Port) : Port := { p with coal := tmod coal0 p.coal v fun c => { c with acc := 0, first := 0 } }

/-- R422: a port with a vector in its Pending Bit Array. -/
def Port.pend (v : Nat) (p : Port) : Port := { p with pba := if p.pba.contains v then p.pba else v :: p.pba }

theorem Port.unhold_acc (v : Nat) (p : Port) : (tget coal0 (p.unhold v).coal v).acc = 0 :=
  congrArg Coal.acc (tget_tput_same coal0 p.coal v _)

theorem Port.mem_pend (v : Nat) (p : Port) : v ∈ (p.pend v).pba := by
  unfold Port.pend
  split
  · next hv => exact List.contains_iff_mem.1 hv
  · exact List.mem_cons_self

/-- R422: whether a vector's message is masked, by its entry or by the function. -/
def vecMasked (h : Head) (v : Nat) (s : State) : Bool := (portOf s h).msixMask || (tget vec0 (portOf s h).msix v).masked

theorem signalVec_eq (h : Head) (v : Nat) (s : State) : signalVec h v s =
    if s.sup.tripped then modPort h (·.unhold v) s
    else if vecMasked h v s then modPort h (·.pend v) (modPort h (·.unhold v) s)
    else send (.msi h v) (incRaw 711 1 (modPort h (·.unhold v) s)).1 := by
  rw [← modPort_sup h (·.unhold v) s]
  rfl

theorem signalVec_acc (h : Head) (v : Nat) (s : State) : (tget coal0 (portOf (signalVec h v s) h).coal v).acc = 0 := by
  rw [signalVec_eq]
  split
  · rw [portOf_modPort_same]
    exact Port.unhold_acc v _
  · split
    · rw [portOf_modPort_same, portOf_modPort_same]
      exact Port.unhold_acc v _
    · rw [portOf_of_fe (t := send _ _) h (incRaw_fe 711 1 _), portOf_modPort_same]
      exact Port.unhold_acc v _

theorem signalVec_sends {h : Head} {v : Nat} {s : State} (htrip : s.sup.tripped = false) (hm : vecMasked h v s = false) :
    (signalVec h v s).outbox = .msi h v :: s.outbox := by
  rw [signalVec_eq, if_neg (ne_true_of_eq_false htrip), if_neg (ne_true_of_eq_false hm)]
  exact congrArg (_ :: ·) ((incRaw_outbox _ _ _).trans (modPort_outbox h _ s))

theorem signalVec_pends {h : Head} {v : Nat} {s : State} (htrip : s.sup.tripped = false) (hm : vecMasked h v s = true) :
    v ∈ (portOf (signalVec h v s) h).pba ∧ (signalVec h v s).outbox = s.outbox := by
  rw [signalVec_eq, if_neg (ne_true_of_eq_false htrip), if_pos hm]
  refine ⟨?_, (modPort_outbox h _ _).trans (modPort_outbox h _ s)⟩
  rw [portOf_modPort_same]
  exact Port.mem_pend v _

/-! COALESCE_HOLD_EXPIRY (R423). -/

/-- R423: notifications of a vector are accumulated, and their hold is over. -/
def holdOver (h : Head) (v : Nat) (s : State) : Prop :=
  0 < (tget coal0 (portOf s h).coal v).acc ∧
    1000 * (tget coal0 (portOf s h).coal v).holdUs + (tget coal0 (portOf s h).coal v).first ≤ s.clock

theorem exec_coalesceHoldExpiry_due {h : Head} {v : Nat} {s : State} (hover : holdOver h v s) :
    exec (.coalesceHoldExpiry h v) s = .next (signalVec h v s) :=
  congrArg Host.Outcome.next (if_pos (by simpa [holdOver] using hover))

theorem exec_coalesceHoldExpiry_early {h : Head} {v : Nat} {s : State} (hover : ¬ holdOver h v s) :
    exec (.coalesceHoldExpiry h v) s = .next s :=
  congrArg Host.Outcome.next (if_neg (by simpa [holdOver] using hover))

/-! DAYBOOK_RECORD_TAKE (R425, R428). -/

/-- The parts of a state that neither raising a reason nor the daybook's own fields move. -/
def EventsOnly (s t : State) : Prop := t.bare = s.bare ∧ t.said = s.said ∧ ∀ k, notEvent k → rget t k = rget s k

theorem EventsOnly.trans {s t u : State} (h : EventsOnly s t) (g : EventsOnly t u) : EventsOnly s u :=
  ⟨g.1.trans h.1, g.2.1.trans h.2.1, fun k hk => (g.2.2 k hk).trans (h.2.2 k hk)⟩

theorem eventsOnly_modEv (f : Events → Events) (s : State) : EventsOnly s (s.modEv f) := ⟨rfl, rfl, fun _ _ => rfl⟩

theorem Noted.eventsOnly {s t : State} (h : Noted s t) : EventsOnly s t := ⟨h.1, h.said, h.rget⟩

theorem bump_eventsOnly (i n : Nat) (s : State) : EventsOnly s (bump i n s) :=
  (eventsOnly_modEv _ s).trans (bump_noted i n s).eventsOnly

theorem daybookFreezeOp_eventsOnly (s : State) : EventsOnly s (daybookFreezeOp s) := by
  unfold daybookFreezeOp
  split
  · exact (Noted.refl s).eventsOnly
  · exact (eventsOnly_modEv _ s).trans (raise_noted _ _ _ _ _).eventsOnly

theorem daybookFreezeOp_keeps (s : State) : (daybookFreezeOp s).ev.ring = s.ev.ring ∧ (daybookFreezeOp s).ev.next = s.ev.next ∧
    (daybookFreezeOp s).ev.takenAt = s.ev.takenAt ∧ (daybookFreezeOp s).ev.trigArmed = s.ev.trigArmed := by
  unfold daybookFreezeOp
  split <;> simp

/-- What a written record does to the trigger (R428): a match disarms it and freezes the daybook, and no record moves the ring. -/
theorem trigFire_spec (code : BitVec 16) (s : State) : EventsOnly s (trigFire code s) ∧ (trigFire code s).ev.ring = s.ev.ring ∧
    (trigFire code s).ev.next = s.ev.next ∧ (trigFire code s).ev.takenAt = s.ev.takenAt ∧
    if trigMatches s code then (trigFire code s).ev.frozen = true ∧ (trigFire code s).ev.trigArmed = false
    else (trigFire code s).ev.frozen = s.ev.frozen ∧ (trigFire code s).ev.trigArmed = s.ev.trigArmed := by
  unfold trigFire
  split
  · dsimp only
    split
    · next hfrozen =>
      exact ⟨(eventsOnly_modEv _ s).trans (raise_noted _ _ _ _ _).eventsOnly, raise_ev_ring _ _ _ _ _, raise_ev_next _ _ _ _ _,
        raise_ev_takenAt _ _ _ _ _, (raise_ev_frozen _ _ _ _ _).trans hfrozen, raise_ev_trigArmed _ _ _ _ _⟩
    · obtain ⟨hring, hnext, htaken, harmed⟩ := daybookFreezeOp_keeps (s.modEv fun e => { e with trigArmed := false })
      exact ⟨(eventsOnly_modEv _ s).trans (daybookFreezeOp_eventsOnly _), hring, hnext, htaken, (daybookFreezeOp_spec _).1, harmed⟩
  · exact ⟨(Noted.refl s).eventsOnly, rfl, rfl, rfl, rfl, rfl⟩

theorem bump_trigMatches (i n : Nat) (s : State) (code : BitVec 16) : trigMatches (bump i n s) code = trigMatches s code := by
  simp only [trigMatches, bump_ev_trigArmed, bump_ev_trigCode]

/-- R428: a frozen full ring keeps its records, and the loss is marked. -/
theorem ringTake_full {s : State} (r : DbRec) (hfull : s.ev.frozen = true ∧ 16384 ≤ s.ev.ring.length) :
    EventsOnly s (ringTake r s) ∧ (ringTake r s).ev.takenAt = s.ev.takenAt ∧ (ringTake r s).ev.ring = s.ev.ring ∧
    (ringTake r s).ev.next = s.ev.next ∧ (ringTake r s).ev.freezeLost = true ∧ (ringTake r s).ev.frozen = true := by
  obtain ⟨hfrozen, hlength⟩ := hfull
  have hlost := (eventsOnly_modEv (fun e => { e with lostCnt := BitVec.ofNat 32 (satAdd 0xFFFFFFFF e.lostCnt.toNat 1), freezeLost := true })
    s).trans (bump_eventsOnly 710 1 _)
  rw [ringTake, if_pos (by simp [hfrozen, hlength])]
  dsimp only
  split
  · exact ⟨hlost.trans (raise_noted _ _ _ _ _).eventsOnly, by simp, by simp, by simp, by simp, by simp [hfrozen]⟩
  · exact ⟨hlost, by simp, by simp, by simp, by simp, by simp [hfrozen]⟩

/-- R425, R428: the ring takes a record at its end, under the next sequence number, and the record may fire the trigger. -/
theorem ringTake_kept {s : State} (r : DbRec) (hroom : ¬ (s.ev.frozen = true ∧ 16384 ≤ s.ev.ring.length)) :
    EventsOnly s (ringTake r s) ∧ (ringTake r s).ev.takenAt = s.ev.takenAt ∧
    (ringTake r s).ev.ring = (if 16384 ≤ s.ev.ring.length then s.ev.ring.drop 1 else s.ev.ring) ++ [{ r with seq := s.ev.next }] ∧
    (ringTake r s).ev.next = (if s.ev.next + 1 = 0 then 1 else s.ev.next + 1) ∧
    if trigMatches s r.code then (ringTake r s).ev.frozen = true ∧ (ringTake r s).ev.trigArmed = false
    else (ringTake r s).ev.frozen = s.ev.frozen ∧ (ringTake r s).ev.trigArmed = s.ev.trigArmed := by
  rw [ringTake, if_neg (by simpa using hroom)]
  dsimp only
  obtain ⟨honly, hring, hnext, htaken, hfired⟩ := trigFire_spec r.code (bump 708 1 (s.modEv fun e =>
    { e with ring := (if 16384 ≤ e.ring.length then e.ring.drop 1 else e.ring) ++ [{ r with seq := e.next }], next := seqAfter e.next }))
  rw [bump_trigMatches, bump_ev_frozen, bump_ev_trigArmed] at hfired
  refine ⟨((eventsOnly_modEv _ s).trans (bump_eventsOnly 708 1 _)).trans honly, htaken.trans (bump_ev_takenAt _ _ _),
    hring.trans (bump_ev_ring _ _ _), (hnext.trans (bump_ev_next _ _ _)).trans ?_, hfired⟩
  simp [seqAfter]

theorem exec_daybookRecordTake_due {s : State} {r : DbRec} {rest : List DbRec} (hq : s.ev.inq = r :: rest) (hdue : s.ev.takenAt ≤ s.clock) :
    exec .daybookRecordTake s = .next (ringTake r (s.modEv fun e =>
      { e with inq := rest, takenAt := s.clock + 20, episode := if rest.isEmpty then false else e.episode })) := by
  refine (show exec .daybookRecordTake s = execDaybookRecordTake s from rfl).trans ?_
  rw [execDaybookRecordTake, hq]
  exact if_neg (Nat.not_lt.2 hdue)

/-- Settles O12: the vector is signalled, the ring takes the record, and the window's counts restart, each where it is due. -/
theorem daybookEvents : Obligations.DaybookEvents := by
  unfold Obligations.DaybookEvents
  refine ⟨fun h v s => ⟨fun hover => ?_, fun hearly => exec_coalesceHoldExpiry_early ?_⟩, fun r rest s hq hdue => ?_, fun s => ⟨?_, ?_⟩⟩
  · refine ⟨_, exec_coalesceHoldExpiry_due hover, signalVec_acc h v s, signalVec_noted h v s, fun htrip hmask => ?_, fun htrip hmask => ?_⟩
    · exact signalVec_sends htrip (by simpa [vecMasked] using hmask)
    · exact signalVec_pends htrip (by simpa [vecMasked] using hmask)
  · rintro ⟨hacc, hover⟩
    omega
  · refine ⟨_, exec_daybookRecordTake_due hq hdue, ?_⟩
    by_cases hfull : s.ev.frozen = true ∧ 16384 ≤ s.ev.ring.length
    · obtain ⟨⟨hbare, hsaid, hregs⟩, htaken, hkept⟩ := ringTake_full (s := s.modEv fun e =>
        { e with inq := rest, takenAt := s.clock + 20, episode := if rest.isEmpty then false else e.episode }) r hfull
      exact ⟨htaken, hbare, hsaid, hregs, fun _ => hkept, fun hroom => absurd hfull hroom⟩
    · obtain ⟨⟨hbare, hsaid, hregs⟩, htaken, hkept⟩ := ringTake_kept (s := s.modEv fun e =>
        { e with inq := rest, takenAt := s.clock + 20, episode := if rest.isEmpty then false else e.episode }) r hfull
      exact ⟨htaken, hbare, hsaid, hregs, fun h => absurd h hfull, fun _ => hkept⟩
  · exact fun hsame => if_pos (beq_iff_eq.2 hsame)
  · refine fun hnew => ⟨_, if_neg (mt beq_iff_eq.1 hnew), rfl, rfl, rfl, fun x => ?_, rfl⟩
    simp only [State.modEv_ev, List.mem_map, List.mem_filter, decide_eq_true_eq]
    exact ⟨fun ⟨u, ⟨hu, hsupp⟩, hx⟩ => ⟨u, hu, hsupp, hx.symm⟩, fun ⟨u, hu, hsupp, hx⟩ => ⟨u, ⟨hu, hsupp⟩, hx.symm⟩⟩

/-! COUNTERS_CLEARED, SNAPSHOT_CAPTURE and SNAP_DONE (R432, R434, R435). -/

theorem exec_countersCleared {s : State} {b : Nat} (hat : s.ev.clearAt = some b) (hdue : b ≤ s.tbs.mint.toNat) :
    exec .countersCleared s = .next (raise 0xA 1 0x04 det0 (s.modEv fun e => { e with clearAt := none, ctrs := [] })) := by
  refine (show exec .countersCleared s = execCountersCleared s from rfl).trans ?_
  rw [execCountersCleared, hat]
  exact if_pos hdue

theorem exec_snapshotCapture {s : State} (hfree : s.ev.snapCopy = none) :
    exec .snapshotCapture s = .next (capture (s.tbs.mint.toNat / 1024 * 1024)
      (s.ev.snapReqs.filter fun r => r.at_ ≤ s.tbs.mint.toNat / 1024 * 1024)
      (s.ev.snapReqs.filter fun r => !(r.at_ ≤ s.tbs.mint.toNat / 1024 * 1024)) s) :=
  if_neg (by simp [hfree])

/-- R435: the snapshot that a capture takes for the requests due at a boundary. -/
def captured (now : Nat) (r : SnapReq) (others : List SnapReq) (s : State) : Snap :=
  { seq := s.ev.snapSeq + 1, time := BitVec.ofNat 64 now, tag := r.tag,
    who := BitVec.ofNat 8 ((r :: others).foldl (fun m q => m ||| (1 <<< q.who)) 0 ||| (if s.tbs.set then 0 else 16)),
    merged := min others.length 0xFF, reinits := s.sup.reinits,
    late := (now - (r :: others).foldl (fun m q => min m q.at_) r.at_) / 1024, ctrs := s.ev.ctrs }

/-- R435: one capture serves every request that is due. -/
theorem capture_noted (now : Nat) (r : SnapReq) (others rest : List SnapReq) (s : State) :
    Noted (s.modEv fun e => { e with snapReqs := rest, snapCopy := some (captured now r others s), snapCopyAt := s.clock })
      (capture now (r :: others) rest s) := by
  unfold capture
  dsimp only
  split
  · exact raise_noted _ _ _ _ _
  · exact Noted.refl _

/-- R435: the copy of snapshot SEQ ends in buffer (SEQ - 1) mod 4. -/
theorem snapBuffer_eq (seq : BitVec 32) : (seq.toNat + 3) % 4 = (seq - 1).toNat % 4 := by
  have hsub : (seq - 1).toNat % 4 = (2 ^ 32 - 1 + seq.toNat) % 4 := by
    rw [BitVec.toNat_sub]
    exact Nat.mod_mod_of_dvd _ ⟨2 ^ 30, rfl⟩
  rw [hsub, Nat.add_comm (2 ^ 32 - 1), show 2 ^ 32 - 1 = 3 + 4 * (2 ^ 30 - 1) from rfl, ← Nat.add_assoc, Nat.add_mul_mod_self_left]

theorem exec_snapDone {s : State} {c : Snap} (hcopy : s.ev.snapCopy = some c) :
    exec .snapDone s = .next (raise 0xA 1 0x01 (det3 c.seq.toNat ((c.seq.toNat + 3) % 4)) (s.modEv fun e =>
      { e with snapCopy := none, snapSeq := c.seq, snaps := tput default e.snaps ((c.seq - 1).toNat % 4) c })) := by
  refine (show exec .snapDone s = execSnapDone s from rfl).trans ?_
  rw [execSnapDone, hcopy, ← snapBuffer_eq]
  rfl

/-! SAMPLE (R436). -/

/-- R436: the multiples of its period that a slot's counter has passed since its base. -/
def sampleCount (n : Nat) (s : State) : Nat :=
  (ctr s (bits (rval s (0x50040 + 8 * n)) 0 10) - BitVec.ofNat 48 (tget 0 s.ev.sampleBase n)).toNat / max 1 (rval s (0x50044 + 8 * n))

/-- R436: a slot's sample is marked and raised. -/
def sampled (n : Nat) (s : State) : State :=
  raise 0xA 2 0x01 (det3 n (ctrVal s (bits (rval s (0x50040 + 8 * n)) 0 10))) (s.modEv fun e =>
    { e with sampleK := tput 0 e.sampleK n (sampleCount n s) })

/-- A distance of counters is taken modulo 2^48 (R432). -/
theorem ctr_distance (v : BitVec 48) {base : Nat} (hbase : base < 2 ^ 48) :
    (2 ^ 48 + v.toNat - base) % 2 ^ 48 = (v - BitVec.ofNat 48 base).toNat := by
  rw [BitVec.toNat_sub, BitVec.toNat_ofNat, Nat.mod_eq_of_lt hbase, Nat.sub_add_comm (Nat.le_of_lt hbase)]

theorem exec_sample {n : Nat} {s : State} (hn : n < 16) (hen : (rget s (0x50040 + 8 * n)).getLsbD 10 = true)
    (hbase : tget 0 s.ev.sampleBase n < 2 ^ 48) (hpassed : tget 0 s.ev.sampleK n < sampleCount n s) :
    exec (.sample n) s = .next (if (rget s (0x50040 + 8 * n)).getLsbD 11 then
      snapRequest (nextBoundary (sampled n s)) (takeFree 16 (sampled n s)).1 3 (takeFree 16 (sampled n s)).2 else sampled n s) := by
  have hcount : (2 ^ 48 + ctrVal s (bits (rval s (0x50040 + 8 * n)) 0 10) - tget 0 s.ev.sampleBase n) % 2 ^ 48 /
      max 1 (rval s (0x50044 + 8 * n)) = sampleCount n s := congrArg (· / _) (ctr_distance _ hbase)
  have hbit (i : Nat) : bit (rval s (0x50040 + 8 * n)) i = (rget s (0x50040 + 8 * n)).getLsbD i := bit_eq_testBit _ _
  refine (show exec (.sample n) s = execSample n s from rfl).trans ?_
  simp only [execSample]
  rw [hcount, hbit, hbit, hen, if_pos (by simp [hn, hpassed])]
  split <;> rfl

theorem sampled_noted (n : Nat) (s : State) :
    Noted (s.modEv fun e => { e with sampleK := tput 0 e.sampleK n (sampleCount n s) }) (sampled n s) := raise_noted _ _ _ _ _

/-! HISTOGRAM_RESTART (R438). -/

theorem tget_filter_key {α : Type} (d : α) (p : Nat → Bool) (t : Tab α) (k : Nat) :
    tget d (t.filter fun e => p e.1) k = if p k then tget d t k else d := by
  induction t with
  | nil => split <;> rfl
  | cons e t ih =>
    obtain ⟨a, v⟩ := e
    rw [List.filter_cons]
    by_cases ha : k = a
    · subst ha
      cases hp : p k <;> simp [tget, ih, hp]
    · cases hp : p a <;> simp [tget, ih, ha]

/-- Settles O13: each event is one operation on the audit's fields, but for the reason it raises. -/
theorem auditEvents : Obligations.AuditEvents := by
  unfold Obligations.AuditEvents
  refine ⟨fun b s hat hdue => ?_, fun r others s hfree hreqs => ?_, fun c s hcopy => ?_, fun n k s hn hen hk hbase hpassed => ?_,
    fun n b s hn hat hdue => ?_⟩
  · have hnoted := raise_noted 0xA 1 0x04 det0 (s.modEv fun e => { e with clearAt := none, ctrs := [] })
    exact ⟨_, exec_countersCleared hat hdue, hnoted.ctr, hnoted⟩
  · have hrun := exec_snapshotCapture hfree
    rw [hreqs] at hrun
    exact ⟨_, captured (s.tbs.mint.toNat / 1024 * 1024) r others s, hrun, rfl, rfl, rfl, rfl, rfl, rfl, capture_noted _ _ _ _ _⟩
  · exact ⟨_, exec_snapDone hcopy, raise_noted _ _ _ _ _⟩
  · subst hk
    refine ⟨_, exec_sample hn hen hbase hpassed, ?_⟩
    split
    · obtain ⟨hmod, hlow, hhigh⟩ := boundaryAfter_spec (sampled n s) 32
      rw [(sampled_noted n s).tbs] at hlow hhigh
      exact ⟨nextBoundary (sampled n s), _, hlow, hhigh, hmod, ((sampled_noted n s).modCry _).snapRequest _ _ _⟩
    · exact sampled_noted n s
  · have hset : (tget 0 s.ev.histAt n != 0 && decide (tget 0 s.ev.histAt n - 1 ≤ s.tbs.mint.toNat)) = true := by
      rw [hat]
      simpa using hdue
    refine ⟨_, if_pos hset, tget_tput_same 0 s.ev.histAt n 0, tget_tput_same _ s.ev.histAct n _, fun i => ?_, rfl⟩
    refine (tget_filter_key 0 (fun i => !(768 + 32 * n ≤ i && i < 800 + 32 * n)) s.ev.ctrs i).trans ?_
    by_cases hi : 768 + 32 * n ≤ i ∧ i < 800 + 32 * n
    · simp [hi]
    · rw [if_neg hi, if_pos (by simp; omega)]
      rfl

end Sys2Proof.Machine
end

section
/-! The Get commands of classes 0xC7 to 0xCB (R379, R427, R431, R435, R454, R457, R488): each body only reads. -/

namespace Sys2Proof.Machine

open Sys2Proof

variable {p : MbxPort} {b : List Byte} {s : State}

/-! Parameters and tally counters (R454, R457). -/

/-- No RWP register is a mailbox's MBX_CMD. -/
theorem rwpOffs_ne_cmd {i : Nat} (hi : i < 10) : rwpOffs.getD i 0 ≠ 0x20008 ∧ rwpOffs.getD i 0 ≠ 0x4020008 :=
  (show ∀ i < 10, rwpOffs.getD i 0 ≠ 0x20008 ∧ rwpOffs.getD i 0 ≠ 0x4020008 by decide) i hi

/-- R454: what a parameter reads as. -/
def paramRead (s : State) (id : Nat) : Nat :=
  if 0x10 ≤ id ∧ id < 0x1A then rval s (rwpOffs.getD (id - 0x10) 0)
  else if id = 0x20 then s.pair.policy.toNat
  else if 0x100 ≤ id then supParam s id
  else paramValue s id

theorem cmdOnly.paramRead {r : Tab (BitVec 32)} (h : cmdOnly s r) (id : Nat) : paramRead (s.setRegs r) id = Machine.paramRead s id := by
  unfold Machine.paramRead
  by_cases hrwp : 0x10 ≤ id ∧ id < 0x1A
  · obtain ⟨ha, hb⟩ := rwpOffs_ne_cmd (i := id - 0x10) (by omega)
    rw [if_pos hrwp, if_pos hrwp, h _ ha hb]
  · rw [if_neg hrwp, if_neg hrwp]
    rfl

theorem yReadPassbookParameter_eq (hzero : le b 2 2 = 0) (hknown : paramKnown (le b 0 2) = true) :
    yReadPassbookParameter p b s = okOut (toLE 8 (paramRead s (le b 0 2))) s := by
  simp only [yReadPassbookParameter, hzero, hknown, bne_self_eq_false, Bool.not_true, Bool.or_self, Bool.false_eq_true, if_false, isRwpId,
    Bool.and_eq_true, decide_eq_true_eq, beq_iff_eq, paramRead]

theorem exec_readPassbookParameter (h : yciTaken 0xC700 p b s = true) (hzero : le b 2 2 = 0) (hknown : paramKnown (le b 0 2) = true) :
    exec (.readPassbookParameter p b) s = .next (answerOnly 0xC700 p b 0 (toLE 8 (paramRead s (le b 0 2))) s) :=
  next_yciRun_reads h fun r hr => by rw [yReadPassbookParameter_eq hzero hknown, hr.paramRead]

theorem exec_getTallyCounter (h : yciTaken 0xC702 p b s = true) (hc : le b 0 1 < 5) (hzero : le b 1 3 = 0) :
    exec (.getTallyCounter p b) s = .next (answerOnly 0xC702 p b 0
      (toLE 4 (tallyVal s (le b 0 1)) ++ [if tallyVal s (le b 0 1) = 0xFFFFFFFF then 1 else 0, 0, 0, 0]) s) := by
  refine next_yciRun_gives h fun r => (if_neg (by simpa [hzero, -le_byte] using hc)).trans ?_
  rw [show tallyVal (s.setRegs r) (le b 0 1) = tallyVal s (le b 0 1) from rfl]
  by_cases hfull : tallyVal s (le b 0 1) = 0xFFFFFFFF
  · simp only [hfull, beq_self_eq_true, if_true, b2n]
    rfl
  · simp only [hfull, beq_eq_false_iff_ne.2 hfull, if_false, b2n]
    rfl

/-! Supervision (R488). -/

/-- R488: the bytes of the supervision status. -/
def supervisionBytes (s : State) : List Byte :=
  [BitVec.ofNat 8 (supCode s.sup.state), BitVec.ofNat 8 s.sup.seriesFaults] ++
    toLE 2 (slotMask fun i => (railAt s i).good) ++ toLE 2 (slotMask fun i => (railAt s i).enabled) ++
    toLE 2 (slotMask fun i => (railAt s i).faulted) ++ [BitVec.ofNat 8 s.sup.step, BitVec.ofNat 8 (brokenNo s), sat8 (deviceTemp s),
      BitVec.ofNat 8 (hotSensor s / 3)] ++ (sensorNos.map fun n => sat8 ((sensorRead (sensorAt s n)).fdiv 4)) ++
    [BitVec.ofNat 8 s.sup.down, BitVec.ofNat 8 (s.sup.level % 16 + 16 * (s.sup.source % 16))] ++ toLE 2 s.sup.trips ++
    [BitVec.ofNat 8 s.sup.reinits, BitVec.ofNat 8 s.sup.resets] ++ zeros 34

theorem supervisionBytes_length (s : State) : (supervisionBytes s).length = 64 := by
  simp only [supervisionBytes, List.length_append, List.length_cons, List.length_nil, toLE_length, zeros_length, List.length_map, sensorNos,
    List.length_range]

theorem exec_getRailCounters (h : yciTaken 0xC801 p b s = true) (hi : le b 0 1 < 16) (hzero : le b 1 3 = 0) :
    exec (.getRailCounters p b) s = .next (answerOnly 0xC801 p b 0
      (toLE 2 (railAt s (le b 0 1)).cnt.seqFaults ++ toLE 2 (railAt s (le b 0 1)).cnt.riseTo ++ toLE 2 (railAt s (le b 0 1)).cnt.chatter ++
        toLE 2 (railAt s (le b 0 1)).cnt.downFails ++ toLE 2 (railAt s (le b 0 1)).cnt.abandons ++ toLE 2 (railAt s (le b 0 1)).cnt.losses ++
        toLE 2 (railAt s (le b 0 1)).cnt.latest ++ toLE 2 (railAt s (le b 0 1)).cnt.lowest) s) :=
  next_yciRun_gives h fun _ => if_neg (by simpa [hzero, -le_byte] using hi)

/-! The daybook and the audit's snapshots (R427, R435). -/

/-- R427: the records are read from the one asked for, where it is held. -/
theorem heldFrom_held {ring pre post : List DbRec} {r : DbRec} {first : Nat} (hring : ring = pre ++ r :: post)
    (hpre : ∀ q ∈ pre, q.seq.toNat ≠ first) (hr : r.seq.toNat = first) : heldFrom ring first = r :: post := by
  have hdrop : ring.dropWhile (fun q => q.seq.toNat != first) = r :: post := by
    rw [hring, List.dropWhile_append_of_pos (by simpa using hpre), List.dropWhile_cons_of_neg (by simp [hr])]
  rw [heldFrom, hdrop]
  rfl

/-- R427: the records are read from the oldest, where the one asked for is not held. -/
theorem heldFrom_oldest {ring : List DbRec} {first : Nat} (hnone : ∀ q ∈ ring, q.seq.toNat ≠ first) : heldFrom ring first = ring := by
  have hdrop : ring.dropWhile (fun q => q.seq.toNat != first) = [] := List.dropWhile_eq_nil_iff.2 (by simpa using hnone)
  rw [heldFrom, hdrop]
  rfl

theorem exec_readDaybook {held : List DbRec} (h : yciTaken 0xC900 p b s = true) (hcount : le b 4 2 ≤ 128) (hzero : le b 6 2 = 0)
    (hheld : heldFrom s.ev.ring (le b 0 4) = held) :
    exec (.readDaybook p b) s = .next (answerOnly 0xC900 p b 0 ((held.take (le b 4 2)).flatMap dbBytes) s) :=
  next_yciRun_gives h fun _ => (if_neg (by simpa [hzero] using hcount)).trans (by rw [← hheld]; rfl)

theorem exec_readAuditSnapshot (h : yciTaken 0xC904 p b s = true) (hbuf : le b 0 1 < 4 ∨ le b 0 1 = 0xFF) (hzero : le b 1 1 = 0)
    (hcount : le b 4 2 ≤ 508) (hrest : le b 6 2 = 0) (hlast : le b 2 2 + le b 4 2 ≤ 1024) {c : Snap}
    (hc : c = tget default s.ev.snaps (if le b 0 1 = 0xFF then (s.ev.snapSeq.toNat + 3) % 4 else le b 0 1)) :
    exec (.readAuditSnapshot p b) s = .next (answerOnly 0xC904 p b 0 (snapHeader c ++
      (List.range (le b 4 2)).flatMap fun i => toLE 8 (tget 0 c.ctrs (le b 2 2 + i)).toNat) s) := by
  refine next_yciRun_gives h fun r => (if_neg ?_).trans ?_
  · simp only [hzero, hrest, bne_self_eq_false, Bool.or_false, Bool.or_eq_true, Bool.not_eq_true', Bool.or_eq_false_iff,
      decide_eq_false_iff_not, decide_eq_true_eq, beq_eq_false_iff_ne]
    omega
  · simp only [hc, beq_iff_eq]
    rfl

end Sys2Proof.Machine

namespace Sys2Proof.Machine

open Sys2Proof

/-- Settles O29: each command's body only reads, the stored registers it reads being other than MBX_CMD. -/
theorem statusCommandsAnswer : Obligations.StatusCommandsAnswer := by
  unfold Obligations.StatusCommandsAnswer
  refine fun p b s => ⟨exec_readPassbookParameter, exec_getTallyCounter,
    fun h => ⟨supervisionBytes s, next_yciRun_gives h fun _ => rfl, supervisionBytes_length s, rfl⟩,
    fun h hi hzero => ⟨_, rfl, exec_getRailCounters h hi hzero⟩, fun h hcount hzero => ⟨fun pre r post hring hpre hr => ?_, fun hnone => ?_⟩,
    fun h => next_yciRun_gives h fun _ => rfl,
    fun h hbuf hzero hcount hrest hlast => ⟨_, rfl, exec_readAuditSnapshot h hbuf hzero hcount hrest hlast rfl⟩,
    fun h => next_yciRun_gives h fun _ => rfl, fun h => next_yciRun_gives h fun _ => rfl, fun h => next_yciRun_gives h fun _ => ?versions⟩
  · exact exec_readDaybook h hcount hzero (heldFrom_held hring hpre hr)
  · exact exec_readDaybook h hcount hzero (heldFrom_oldest hnone)
  case versions => cases p <;> rfl

end Sys2Proof.Machine
end

section
/-! The Yargen mailboxes: the order in which a command is refused, its answer, and the end of a background command (R366-R375). -/

namespace Sys2Proof.Machine

open Sys2Proof

/-! The rows of the table that are YCI commands (R378). -/

/-- A row that is a YCI command has an opcode of the table, and runs the mailbox's front end with a body. -/
def YciRuns (i : Instr) : Prop :=
  ∀ op p b, yciCmd i = some (op, p, b) → (yciRow op).isSome = true ∧ ∃ body, ∀ s, exec i s = .next (yciRun op body p b s)

theorem YciRuns.of_none {i : Instr} (h : yciCmd i = none) : YciRuns i := fun _ _ _ hi => nomatch h.symm.trans hi

theorem YciRuns.of_run {i : Instr} {op : Nat} {p : MbxPort} {b : List Byte} {body : Body} (hi : yciCmd i = some (op, p, b))
    (hrow : (yciRow op).isSome = true) (hrun : ∀ s, exec i s = .next (yciRun op body p b s)) : YciRuns i := fun _ _ _ h => by
  cases hi.symm.trans h
  exact ⟨hrow, body, hrun⟩

theorem yciRuns (i : Instr) : YciRuns i := by
  cases i
  case getCapacityInfo | provisionFolios | deprovisionFolios | zeroFolios | setFolioAttributes | changeFolioClass | getFolioEntry |
      requestCheckpoint | commitScanResult | format | startRebuildScan | getScanReport | getWearAndReserveHealth |
      setTillLossAcceptance | startFullAssay | readDieRegister | getChannelStatus | getDomainInfo | getSealedWindow |
      writeStandingOrder | armStandingOrder | disarmStandingOrder | readStandingOrder | createEscrowSet | closeEscrowSet |
      abandonEscrowSet | getEscrowSet | createQueuePair | deleteQueuePairAbort | deleteQueuePairDrain | setQueueGrants |
      reinitMoverEngine | getQueueInfo | getPairStatus | setPairPolicy | startSettlement | splitPairImmediate | splitPairPlanned |
      readPassbookParameter | writePassbookParameter | getTallyCounter | getSupervisionStatus | getRailCounters |
      setSupervisionParameter | resetDevice | requestPowerCycle | readDaybook | armTrigger | disarmTrigger | freeze | thaw |
      getDaybookSummary | takeAuditSnapshot | readAuditSnapshot | setDaybookRateLimit | getFirmwareInfo | transferFirmware |
      activateFirmwareAtReset | activateFirmwareOnline | getLifecycleState | commitRollbackFloor | getInterfaceVersions |
      declareInterfaceVersion => exact .of_run rfl rfl fun _ => rfl
  all_goals exact .of_none rfl

/-! The refusals, in their order (log entry 22). -/

section

variable {op : Nat} {p : MbxPort} {b : List Byte} {s : State} {body : Body}

theorem yciRun_absent (h : (p = .b ∧ twoHeads s = false) ∨ portPowered (p == .board) s = false) : yciRun op body p b s = s :=
  if_pos (by simpa using h)

/-- The port is there, and it has power. -/
def portHere (p : MbxPort) (s : State) : Prop := (p = .b → twoHeads s = true) ∧ portPowered (p == .board) s = true

theorem portHere.not_absent (h : portHere p s) : ¬ ((p == .b && !twoHeads s) || !portPowered (p == .board) s) = true := by
  obtain ⟨hport, hpow⟩ := h
  simpa [hpow] using hport

/-- R368, R374: a command in progress. -/
theorem yciRun_busy (h : portHere p s) (hbusy : (mbxOf s p).busy.isSome = true) :
    yciRun op body p b s = if p = .board then send (.mctp (toLE 2 op ++ toLE 2 0x6)) s else s := by
  rw [yciRun, if_neg h.not_absent, if_pos hbusy]
  simp only [beq_iff_eq]
  rfl

/-- A command that is refused is answered so, and that is all. -/
theorem yciRun_refused {rc : Nat} {t : State} (h : portHere p s) (hbusy : (mbxOf s p).busy = none) (hrc : rc ≠ rcNone)
    (hans : yciAnswer op body p b (yciNoted op p b s) = errAns rc t) : yciRun op body p b s = mbxAnswer p op rc [] t := by
  rw [yciRun, if_neg h.not_absent, if_neg (by simp [hbusy])]
  refine (show _ = if (yciAnswer op body p b (yciNoted op p b s)).ret == rcNone then (yciAnswer op body p b (yciNoted op p b s)).st
    else mbxAnswer p op (yciAnswer op body p b (yciNoted op p b s)).ret (yciAnswer op body p b (yciNoted op p b s)).out
      (yciAnswer op body p b (yciNoted op p b s)).st from rfl).trans ?_
  rw [hans]
  exact if_neg (by simpa [errAns] using hrc)

theorem firmwareAway_yciNoted : firmwareAway p (yciNoted op p b s) = firmwareAway p s := by
  obtain ⟨k, hk⟩ := yciNoted_setRegs op p b s
  rw [hk]
  rfl

theorem led_yciNoted : (yciNoted op p b s).led = s.led := by
  obtain ⟨k, hk⟩ := yciNoted_setRegs op p b s
  rw [hk]
  rfl

theorem yciAnswer_away (haway : firmwareAway p s = true) : yciAnswer op body p b (yciNoted op p b s) = errAns rcBusy (yciNoted op p b s) :=
  if_pos (firmwareAway_yciNoted.trans haway)

variable {r : YciRow}

/-- R366: the port has the right to the command. -/
def YciRow.right (r : YciRow) (p : MbxPort) : Bool := if p == .board then r.board else r.host

theorem YciRow.right_eq (r : YciRow) (p : MbxPort) : r.right p = if p = .board then r.board else r.host := by cases p <;> rfl

/-- R380: the command is one of class 0xC1 that waits for the ledger. -/
def ledgerGone (op : Nat) (s : State) : Bool := s.led.lost && op / 256 == 0xC1 && !answersLost op

theorem ledgerGone_iff : ledgerGone op s = true ↔
    s.led.lost = true ∧ op / 256 = 0xC1 ∧ op ∉ [0xC100, 0xC106, 0xC108, 0xC109, 0xC10A] := by
  simp [ledgerGone, answersLost, and_assoc]

/-- With firmware, the command of a row is refused by the first of these that holds. -/
theorem yciAnswer_row (haway : firmwareAway p s = false) (hrow : yciRow op = some r) :
    yciAnswer op body p b (yciNoted op p b s) =
      if (mbxOf s p).declared < r.since then errAns rcVersion (yciNoted op p b s)
      else if !r.right p then errAns rcNotPermitted (raise 8 0 0x03 ((det3 op (mbxNo p)).on (headOf p)) (yciNoted op p b s))
      else if ledgerGone op s then errAns rcMedia (yciNoted op p b s)
      else if !r.lenOk b.length then errAns rcInvalid (yciNoted op p b s)
      else if r.bg && (mbxOf s p).bg.isSome then errAns rcBusy (yciNoted op p b s)
      else body p b (yciNoted op p b s) := by
  rw [yciAnswer, if_neg (by rw [firmwareAway_yciNoted, haway]; decide), hrow, mbxOf_yciNoted, led_yciNoted]
  rfl

end

/-! Answers (R367, R372, R374). -/

theorem modMbx_said (p : MbxPort) (f : Mailbox → Mailbox) (s : State) : (modMbx p f s).said = s.said := by cases p <;> rfl

/-- An answer of a host mailbox: RETURN and the output, nothing in progress, and DONE. -/
theorem mbxAnswer_host {p : MbxPort} (hp : p ≠ .board) (op rc : Nat) (out : List Byte) (s : State) :
    (mbxOf (mbxAnswer p op rc out s) p).ret = mapRc (mbxOf s p).declared rc ∧ (mbxOf (mbxAnswer p op rc out s) p).out = out ∧
      (mbxOf (mbxAnswer p op rc out s) p).busy = none ∧
      (rget (mbxAnswer p op rc out s) (regKey (headOf p) 0x2001C)).getLsbD 0 = true ∧ (mbxAnswer p op rc out s).said = s.said := by
  rcases mbxAnswer_cases p op rc out s with ⟨hboard, -⟩ | ⟨-, hnoted⟩
  · exact absurd hboard hp
  · refine ⟨?_, ?_, ?_, ?_, hnoted.said.trans (modMbx_said p _ s)⟩
    · rw [mbxOf_mbxAnswer]
      cases p <;> rfl
    · rw [mbxOf_mbxAnswer]
      cases p
      exacts [rfl, rfl, absurd rfl hp]
    · rw [mbxOf_mbxAnswer]
      cases p <;> rfl
    · rw [hnoted.rget _ (notEvent_mbxStatus (headOf p))]
      exact rbit_getLsbD _ _ (by decide)

/-- R372: the code that a mailbox reports. -/
theorem mapRc_eq (d rc : Nat) :
    mapRc d rc = if 2 ≤ d then rc else if rc = 0x11 then 0x2 else if rc = 0x14 then 0x13 else if rc = 0x15 then 0x10 else rc := by
  unfold mapRc
  by_cases hd : 2 ≤ d
  · rw [if_neg (Nat.not_lt.2 hd), if_pos hd]
  · rw [if_pos (Nat.lt_of_not_le hd), if_neg hd]
    split
    · rfl
    · rfl
    · rfl
    · next hcapacity hrollback hlifecycle => rw [if_neg hcapacity, if_neg hrollback, if_neg hlifecycle]

/-! BG_DONE (R369). -/

theorem exec_bgDone_away {p : MbxPort} {s : State} (haway : firmwareAway p s = true) : exec (.bgDone p false) s = .next s :=
  congrArg Host.Outcome.next (if_pos haway)

theorem exec_bgDone_here {p : MbxPort} {s : State} (haway : firmwareAway p s = false) :
    exec (.bgDone p false) s = .next (bgDoneOp p s) := congrArg Host.Outcome.next (if_neg (ne_true_of_eq_false haway))

theorem bgDoneOp_idle {p : MbxPort} {s : State} (h : (mbxOf s p).bg = none ∨ ∃ b, (mbxOf s p).bg = some b ∧ bgReady s b = none) :
    bgDoneOp p s = s := by
  unfold bgDoneOp
  rcases h with hnone | ⟨b, hbg, hready⟩
  · rw [hnone]
  · rw [hbg]
    dsimp only
    rw [hready]

theorem bgDoneOp_ready {p : MbxPort} {b : BgCmd} {rc : Nat} {s : State} (hbg : (mbxOf s p).bg = some b) (hready : bgReady s b = some rc)
    (hop : b.opcode ≠ 0xC200) : bgDoneOp p s = bgFinish p rc s := by
  unfold bgDoneOp
  rw [hbg]
  dsimp only
  rw [hready]
  dsimp only
  rw [if_neg (by simpa using hop)]

/-- R369: the end of a background command of the board: its result and its reason. -/
theorem bgFinish_board {b : BgCmd} {rc : Nat} {s : State} (hbg : (mbxOf s .board).bg = some b) :
    ∃ d, bgFinish .board rc s = raise 8 0 0x01 d (modMbx .board (Mailbox.ended rc) s) := by
  rw [bgFinish, hbg]
  exact ⟨_, rfl⟩

/-- R369: the end of a background command of a host: its result, its reason, BG_DONE, and its interrupt where it is enabled. -/
theorem bgFinish_host {p : MbxPort} (hp : p ≠ .board) {b : BgCmd} {rc : Nat} {s : State} (hbg : (mbxOf s p).bg = some b) :
    ∃ d t, t = rbit (raise 8 0 0x01 d (modMbx p (Mailbox.ended rc) s)) (regKey (headOf p) 0x2001C) 1 ∧
      (bgFinish p rc s = t ∨ ∃ v, bgFinish p rc s = notifyVec (headOf p) v t) := by
  refine ⟨(det3 b.opcode (mapRc (mbxOf s p).declared rc)).on (headOf p), _, rfl, ?_⟩
  rw [bgFinish, hbg]
  cases p with
  | board => exact absurd rfl hp
  | a =>
    dsimp only
    split
    exacts [.inr ⟨_, rfl⟩, .inl rfl]
  | b =>
    dsimp only
    split
    exacts [.inr ⟨_, rfl⟩, .inl rfl]

theorem bgFinish_host_spec {p : MbxPort} (hp : p ≠ .board) {b : BgCmd} {rc : Nat} {s : State} (hbg : (mbxOf s p).bg = some b) :
    Pends 8 0 0x01 (bgFinish p rc s) ∧ (rget (bgFinish p rc s) (regKey (headOf p) 0x2001C)).getLsbD 1 = true ∧
      Noted (rbit (modMbx p (Mailbox.ended rc) s) (regKey (headOf p) 0x2001C) 1) (bgFinish p rc s) := by
  obtain ⟨d, t, ht, hform⟩ := bgFinish_host (rc := rc) hp hbg
  have hkey := notEvent_mbxStatus (headOf p)
  have hpends : Pends 8 0 0x01 t := ht ▸ (raise_pends_low 8 0 0x01 d _ (by decide) (by decide) (by decide)).rset _ _ hkey
  have hbit : (rget t (regKey (headOf p) 0x2001C)).getLsbD 1 = true := ht ▸ rbit_getLsbD _ _ (by decide)
  have hnoted : Noted (rbit (modMbx p (Mailbox.ended rc) s) (regKey (headOf p) 0x2001C) 1) t := ht ▸ (raise_noted 8 0 0x01 d _).rbit _ 1 hkey
  rcases hform with hform | ⟨v, hform⟩
  · rw [hform]
    exact ⟨hpends, hbit, hnoted⟩
  · rw [hform]
    exact ⟨hpends.of_regs (notifyVec_regs _ _ _), (congrArg (·.getLsbD 1) (rget_of_regs (notifyVec_regs _ _ _) _)).trans hbit,
      hnoted.notify _ _⟩

/-- Settles O27: every row of the table runs one front end, whose refusals come in their order. -/
theorem mailboxProtocol : Obligations.MailboxProtocol := by
  unfold Obligations.MailboxProtocol
  refine ⟨fun i op p b s hi => ?rows, fun op rc out s => ⟨fun p hp => mbxAnswer_host hp op rc out s, rfl, rfl⟩, mapRc_eq,
    fun p s hidle => ?idle, fun p b rc s haway hbg hready hop => ?done⟩
  case rows =>
    obtain ⟨hsome, body, hrun⟩ := yciRuns i op p b hi
    obtain ⟨r, hrow⟩ := Option.isSome_iff_exists.1 hsome
    refine ⟨fun habsent => (hrun s).trans (congrArg Host.Outcome.next (yciRun_absent habsent)),
      fun hport hpow hbusy => (hrun s).trans (congrArg Host.Outcome.next (yciRun_busy ⟨hport, hpow⟩ hbusy)), fun hport hpow hbusy => ?_⟩
    have hrefused {rc : Nat} {t : State} (hrc : rc ≠ rcNone) (hans : yciAnswer op body p b (yciNoted op p b s) = errAns rc t) :
        exec i s = .next (mbxAnswer p op rc [] t) :=
      (hrun s).trans (congrArg Host.Outcome.next (yciRun_refused ⟨hport, hpow⟩ hbusy hrc hans))
    refine ⟨r, hrow, fun haway => hrefused (by decide) (yciAnswer_away haway), fun haway => ?_⟩
    have hans := yciAnswer_row (body := body) (b := b) haway hrow
    refine ⟨fun hold => hrefused (by decide) (hans.trans (if_pos hold)), fun hnew => ?_⟩
    rw [if_neg (Nat.not_lt.2 hnew)] at hans
    rw [← YciRow.right_eq]
    refine ⟨fun hright => ⟨_, hrefused (by decide) (hans.trans (if_pos (by rw [hright]; rfl))),
      raise_pends_low _ _ _ _ _ (by decide) (by decide) (by decide), raise_noted _ _ _ _ _⟩, fun hright => ?_⟩
    rw [if_neg (by rw [hright]; decide)] at hans
    refine ⟨fun hgone => hrefused (by decide) (hans.trans (if_pos (ledgerGone_iff.2 hgone))), fun hthere => ?_⟩
    have hledger : ¬ ledgerGone op s = true := fun hgone => by
      obtain ⟨hlost, hclass, hnot⟩ := ledgerGone_iff.1 hgone
      rcases hthere with h | h | h
      exacts [Bool.false_ne_true (h.symm.trans hlost), h hclass, hnot h]
    rw [if_neg hledger] at hans
    refine ⟨fun hlen => hrefused (by decide) (hans.trans (if_pos (by rw [hlen]; rfl))), fun hlen hback hbg => ?_⟩
    rw [if_neg (by rw [hlen]; decide)] at hans
    exact hrefused (by decide) (hans.trans (if_pos (by rw [hback, hbg]; rfl)))
  case idle =>
    rcases hidle with haway | hidle
    · exact exec_bgDone_away haway
    · cases haway : firmwareAway p s with
      | true => exact exec_bgDone_away haway
      | false => rw [exec_bgDone_here haway, bgDoneOp_idle hidle]
  case done =>
    refine ⟨_, exec_bgDone_here haway, ?_⟩
    rw [bgDoneOp_ready hbg hready hop]
    by_cases hp : p = .board
    · subst hp
      obtain ⟨d, hfinish⟩ := bgFinish_board (rc := rc) hbg
      rw [hfinish]
      exact ⟨raise_pends_low _ _ _ _ _ (by decide) (by decide) (by decide), fun hp => absurd rfl hp, raise_noted _ _ _ _ _⟩
    · obtain ⟨hpends, hbit, hnoted⟩ := bgFinish_host_spec (rc := rc) hp hbg
      refine ⟨hpends, fun _ => hbit, ?_⟩
      dsimp only
      rw [if_neg hp]
      exact hnoted

end Sys2Proof.Machine
end

section
/-! The inbound FIFOs of the management ports, and the MCTP endpoint's control commands (R373, R374, log entry 37). -/

namespace Sys2Proof.Machine

open Sys2Proof

/-! Packets (R373). -/

/-- The FIFO's port runs without firmware, so that its packets wait. -/
def fifoWaits (s : State) : Bool := !s.ctl.cpuUp || s.sup.tripped || s.sup.inReset

theorem fifoOf_fifoPut_part (f : FifoPort) (bytes : List Byte) (ok : Bool) (s : State) :
    fifoOf (fifoPut f bytes false ok s) f = fifoOf s f ++ bytes.take (4096 - (fifoOf s f).length) := by cases f <;> rfl

/-- R373: the packet is whole and every byte of it found room. -/
def fifoKeeps (f : FifoPort) (bytes : List Byte) (ok : Bool) (s : State) : Bool := ok && decide (bytes.length ≤ 4096 - (fifoOf s f).length)

section

variable {f : FifoPort} {bytes : List Byte} {ok : Bool} {s : State} (hpart : tget 0 s.ctl.fifoPart (fifoNo f) = 0)
  (hspill : tget 0 s.ctl.fifoPart (fifoNo f + 2) = 0)
include hpart hspill

/-- A packet that ends, none being in part. -/
theorem fifoPut_last : fifoPut f bytes true ok s =
    (setFifo f (if fifoKeeps f bytes ok s then fifoOf s f ++ bytes else fifoOf s f) s).modCtl fun c =>
      { c with fifoPart := tput 0 (tput 0 c.fifoPart (fifoNo f) 0) (fifoNo f + 2) 0,
               fifoPkts := if fifoKeeps f bytes ok s then tmod 0 c.fifoPkts (fifoNo f) (· + 1) else c.fifoPkts } := by
  have hkeep : (ok && !(decide (4096 - (fifoOf s f).length < bytes.length) || (0 : Nat) == 1)) = fifoKeeps f bytes ok s := by
    rw [fifoKeeps, show ((0 : Nat) == 1) = false from rfl, Bool.or_false, ← decide_not]
    simp only [Nat.not_lt]
  simp only [fifoPut, hpart, hspill, Bool.not_true, Bool.false_eq_true, if_false, hkeep]
  congr 2
  split
  · next hk =>
    rw [fifoKeeps, Bool.and_eq_true, decide_eq_true_eq] at hk
    rw [List.take_of_length_le hk.2]
  · rw [List.length_append, List.length_take, Nat.zero_add, Nat.add_sub_cancel, List.take_left]

theorem fifoOf_fifoPut_last :
    fifoOf (fifoPut f bytes true ok s) f = if fifoKeeps f bytes ok s then fifoOf s f ++ bytes else fifoOf s f := by
  rw [fifoPut_last hpart hspill]
  cases f <;> rfl

theorem fifoPkts_fifoPut_last : tget 0 (fifoPut f bytes true ok s).ctl.fifoPkts (fifoNo f) =
    if fifoKeeps f bytes ok s then tget 0 s.ctl.fifoPkts (fifoNo f) + 1 else tget 0 s.ctl.fifoPkts (fifoNo f) := by
  rw [fifoPut_last hpart hspill, State.modCtl_ctl]
  have hsame : (setFifo f (if fifoKeeps f bytes ok s then fifoOf s f ++ bytes else fifoOf s f) s).ctl.fifoPkts = s.ctl.fifoPkts := by
    cases f <;> rfl
  dsimp only
  rw [hsame]
  split
  · exact tget_tput_same _ _ _ _
  · rfl

theorem fifoPart_fifoPut_last : tget 0 (fifoPut f bytes true ok s).ctl.fifoPart (fifoNo f) = 0 := by
  rw [fifoPut_last hpart hspill, State.modCtl_ctl]
  dsimp only
  rw [tget_tput_ne _ _ _ _ _ _ (show fifoNo f ≠ fifoNo f + 2 by cases f <;> decide), tget_tput_same]

theorem fifoOf_fifoPut_length (hlen : (fifoOf s f).length ≤ 4096) (last : Bool) : (fifoOf (fifoPut f bytes last ok s) f).length ≤ 4096 := by
  have hfits {more : List Byte} (hmore : more.length ≤ 4096 - (fifoOf s f).length) : (fifoOf s f ++ more).length ≤ 4096 := by
    rw [List.length_append]
    exact (Nat.add_le_add_left hmore _).trans_eq (Nat.add_sub_cancel' hlen)
  cases last with
  | false =>
    rw [fifoOf_fifoPut_part]
    exact hfits (List.length_take_le _ _)
  | true =>
    rw [fifoOf_fifoPut_last hpart hspill]
    split
    · next hk =>
      rw [fifoKeeps, Bool.and_eq_true, decide_eq_true_eq] at hk
      exact hfits hk.2
    · exact hlen

end

theorem fifoPut_frame (f : FifoPort) (bytes : List Byte) (last ok : Bool) (s : State) (c : Control) :
    (fifoPut f bytes last ok s).modCtl (fun _ => c) = s.modCtl fun _ => c := by cases f <;> cases last <;> rfl

theorem fifoPut_waits (f : FifoPort) (bytes : List Byte) (last ok : Bool) (s : State) :
    fifoWaits (fifoPut f bytes last ok s) = fifoWaits s := by cases f <;> cases last <;> rfl

theorem fifoTake_waits {s : State} (f : FifoPort) (hwait : fifoWaits s = true) : fifoTake f s = s := if_pos hwait

theorem fifoTake_taken {s : State} (f : FifoPort) (hwait : fifoWaits s = false) : fifoTake f s =
    (setFifo f ((fifoOf s f).drop ((fifoOf s f).length - tget 0 s.ctl.fifoPart (fifoNo f))) s).modCtl fun c =>
      { c with fifoPkts := tput 0 c.fifoPkts (fifoNo f) 0 } := if_neg (ne_true_of_eq_false hwait)

theorem fifoOf_fifoTake {s : State} (f : FifoPort) (hwait : fifoWaits s = false) :
    fifoOf (fifoTake f s) f = (fifoOf s f).drop ((fifoOf s f).length - tget 0 s.ctl.fifoPart (fifoNo f)) := by
  rw [fifoTake_taken f hwait]
  cases f <;> rfl

theorem fifoTake_frame (f : FifoPort) (s : State) (c : Control) : (fifoTake f s).modCtl (fun _ => c) = s.modCtl fun _ => c := by
  cases hwait : fifoWaits s with
  | true => rw [fifoTake_waits f hwait]
  | false =>
    rw [fifoTake_taken f hwait]
    cases f <;> rfl

theorem fifoOf_fifoTake_length (f : FifoPort) (s : State) : (fifoOf (fifoTake f s) f).length ≤ (fifoOf s f).length := by
  cases hwait : fifoWaits s with
  | true => rw [fifoTake_waits f hwait]
  | false =>
    rw [fifoOf_fifoTake f hwait, List.length_drop]
    exact Nat.sub_le _ _

theorem exec_mctpPacket (f : FifoPort) (bytes : List Byte) (last ok : Bool) {s : State} (hpow : portPowered true s = true) :
    exec (.mctpPacket f bytes last ok) s = .next (fifoTake f (fifoPut f bytes last ok s)) := congrArg Host.Outcome.next (if_pos hpow)

/-! Control commands (R374). -/

section

variable {cmd : Nat} {body : List Byte → State → Nat × List Byte × State} {b : List Byte} {s : State}

theorem mctpRun_off (hpow : portPowered true s = false) : mctpRun cmd body b s = s := if_pos (by rw [hpow]; rfl)

theorem mctpRun_away (hpow : portPowered true s = true) (haway : firmwareAway .board s = true) :
    mctpRun cmd body b s = mctpControl cmd 0x04 [] s := (if_neg (by rw [hpow]; decide)).trans (if_pos haway)

theorem mctpRun_answers {cc : Nat} {out : List Byte} {t : State} (hpow : portPowered true s = true) (haway : firmwareAway .board s = false)
    (hbody : body b s = (cc, out, t)) : mctpRun cmd body b s = mctpControl cmd cc out t := by
  refine (if_neg (by rw [hpow]; decide)).trans ((if_neg (ne_true_of_eq_false haway)).trans ?_)
  rw [hbody]

end

section

variable {s : State} (hpow : portPowered true s = true) (haway : firmwareAway .board s = false)
include hpow haway

theorem exec_setEndpointId_length {b : List Byte} (hlen : b.length ≠ 2) :
    exec (.setEndpointId b) s = .next (send (.mctp [0, 1, 3]) s) :=
  congrArg Host.Outcome.next (mctpRun_answers hpow haway (if_pos (by simpa using hlen)))

/-- SET_ENDPOINT_ID of operation set or force takes an endpoint ID that is not reserved. -/
theorem exec_setEndpointId_takes {op e : Byte} (hop : op.toNat < 2) (hzero : e ≠ 0) (hones : e ≠ 0xFF) :
    exec (.setEndpointId [op, e]) s = .next (send (.mctp [0, 1, 0, 0, e, 0]) (s.modCtl fun c => { c with eid := e })) := by
  have hop' : le [op, e] 0 1 = op.toNat := le_byte _ 0
  have he : le [op, e] 1 1 = e.toNat := le_byte _ 1
  have hbad : ¬ (decide (2 ≤ op.toNat) || e.toNat == 0 || e.toNat == 0xFF) = true := by
    have hz : e.toNat ≠ 0 := fun h => hzero (BitVec.eq_of_toNat_eq h)
    have ho : e.toNat ≠ 0xFF := fun h => hones (BitVec.eq_of_toNat_eq h)
    simp [hz, ho, hop]
  refine congrArg Host.Outcome.next (mctpRun_answers (cc := 0) (out := [0, e, 0]) hpow haway ?_)
  dsimp only
  rw [hop', he, if_neg (show ¬ ([op, e].length != 2) = true from Bool.false_ne_true), if_neg hbad, BitVec.ofNat_toNat, BitVec.setWidth_eq]

theorem exec_setEndpointId_reserved {e : Byte} (he : e = 0 ∨ e = 0xFF) :
    exec (.setEndpointId [0, e]) s = .next (send (.mctp [0, 1, 2]) s) := by
  refine congrArg Host.Outcome.next (mctpRun_answers hpow haway ?_)
  rcases he with rfl | rfl <;> rfl

theorem exec_getVendorDefinedMsgSupport_first {b : List Byte} (hset : le b 0 1 = 0) :
    exec (.getVendorDefinedMsgSupport b) s = .next (send (.mctp [0, 6, 0, 0xFF, 0, 0x1D, 0x9E, 0, 0]) s) :=
  congrArg Host.Outcome.next (mctpRun_answers hpow haway (if_pos (beq_iff_eq.2 hset)))

theorem exec_getVendorDefinedMsgSupport_other {b : List Byte} (hset : le b 0 1 ≠ 0) :
    exec (.getVendorDefinedMsgSupport b) s = .next (send (.mctp [0, 6, 2]) s) :=
  congrArg Host.Outcome.next (mctpRun_answers hpow haway (if_neg (mt beq_iff_eq.1 hset)))

end

/-- Settles O51: a packet is put and, with firmware, taken; each control command is one message. -/
theorem mctpEndpoint : Obligations.MctpEndpoint := by
  unfold Obligations.MctpEndpoint
  refine ⟨fun f bytes last ok s => ⟨fun hpow => congrArg Host.Outcome.next (if_neg (ne_true_of_eq_false hpow)), ?packet⟩,
    ?off, ?away, fun b e s hpow haway => ?here⟩
  case packet =>
    intro hpow hpart hspill hlen
    have hwaits := fifoPut_waits f bytes last ok s
    refine ⟨_, exec_mctpPacket f bytes last ok hpow, (fifoTake_frame f _ _).trans (fifoPut_frame f bytes last ok s _),
      (fifoOf_fifoTake_length f _).trans (fifoOf_fifoPut_length hpart hspill hlen last), fun haway => ?_, fun hup htrip hreset hlast => ?_⟩
    · have hwait : fifoWaits s = true := by
        rcases haway with h | h | h <;> simp [fifoWaits, h]
      rw [fifoTake_waits f (hwaits.trans hwait)]
      refine ⟨fun hlast hok hfits => ?_, fun hlast hbroken => ?_, fun hlast => ?_⟩
      · have hkeep : fifoKeeps f bytes ok s = true := by simp [fifoKeeps, hok, hfits]
        rw [hlast, fifoOf_fifoPut_last hpart hspill, fifoPkts_fifoPut_last hpart hspill, if_pos hkeep, if_pos hkeep]
        exact ⟨rfl, rfl⟩
      · have hdrop : ¬ fifoKeeps f bytes ok s = true := by
          rcases hbroken with h | h
          · simp [fifoKeeps, h]
          · simp [fifoKeeps, h]
        rw [hlast, fifoOf_fifoPut_last hpart hspill, fifoPkts_fifoPut_last hpart hspill, if_neg hdrop, if_neg hdrop]
        exact ⟨rfl, rfl⟩
      · rw [hlast, fifoOf_fifoPut_part]
    · have hwait : fifoWaits s = false := by simp [fifoWaits, hup, htrip, hreset]
      rw [fifoOf_fifoTake f (hwaits.trans hwait), hlast, fifoPart_fifoPut_last hpart hspill, Nat.sub_zero, List.drop_length]
  case here =>
    exact ⟨fun hzero hones => ⟨exec_setEndpointId_takes hpow haway (by decide) hzero hones,
        exec_setEndpointId_takes hpow haway (by decide) hzero hones⟩,
      exec_setEndpointId_reserved hpow haway, exec_setEndpointId_length hpow haway,
      congrArg Host.Outcome.next (mctpRun_answers hpow haway rfl), congrArg Host.Outcome.next (mctpRun_answers hpow haway rfl),
      congrArg Host.Outcome.next (mctpRun_answers hpow haway rfl), exec_getVendorDefinedMsgSupport_first hpow haway,
      exec_getVendorDefinedMsgSupport_other hpow haway⟩
  case off =>
    intro b s hpow
    have hoff {cmd : Nat} {body : List Byte → State → Nat × List Byte × State} : (.next (mctpRun cmd body b s) : Res) = .next s :=
      congrArg Host.Outcome.next (mctpRun_off hpow)
    exact ⟨hoff, hoff, hoff, hoff, hoff⟩
  case away =>
    intro b s hpow haway
    have hbusy {cmd : Nat} {body : List Byte → State → Nat × List Byte × State} :
        (.next (mctpRun cmd body b s) : Res) = .next (mctpControl cmd 0x04 [] s) := congrArg Host.Outcome.next (mctpRun_away hpow haway)
    exact ⟨hbusy, hbusy, hbusy, hbusy, hbusy⟩

end Sys2Proof.Machine
end

section
/-! The host ports: decoder commits, IDE streams, and configuration, DOE and SPDM requests (R341-R362). -/

namespace Sys2Proof.Machine

open Sys2Proof

theorem portOf_modPort_other (h : Head) (f : Port → Port) (s : State) :
    portOf (modPort h f s) (otherHead h) = portOf s (otherHead h) := by cases h <;> rfl

theorem modPort_said (h : Head) (f : Port → Port) (s : State) : (modPort h f s).said = s.said := by cases h <;> rfl

theorem modPort_led (h : Head) (f : Port → Port) (s : State) : (modPort h f s).led = s.led := by cases h <;> rfl

theorem modPort_pur (h : Head) (f : Port → Port) (s : State) : (modPort h f s).pur = s.pur := by cases h <;> rfl

theorem Noted.decoders {s t : State} (h : Noted s t) (d : Head) : (portOf t d).decoders = (portOf s d).decoders :=
  show (portOf t d).bare.decoders = (portOf s d).bare.decoders from congrArg Port.decoders (h.portBare d)

theorem Noted.decoderErr {s t : State} (h : Noted s t) (d : Head) : (portOf t d).decoderErr = (portOf s d).decoderErr :=
  show (portOf t d).bare.decoderErr = (portOf s d).bare.decoderErr from congrArg Port.decoderErr (h.portBare d)

theorem Noted.sessions {s t : State} (h : Noted s t) (d : Head) : (portOf t d).sessions = (portOf s d).sessions :=
  show (portOf t d).bare.sessions = (portOf s d).bare.sessions from congrArg Port.sessions (h.portBare d)

/-! DECODER_COMMIT (R345-R347). -/

/-- R347: the decoder that stood there is uncommitted. -/
def uncommitted (h : Head) (n : Nat) (s : State) : State := modPort h (fun p => { p with decoders := tput none p.decoders n none }) s

/-- R347: decoder n stands committed, its error bit clear. -/
def committed (h : Head) (n : Nat) (d : Decoder) (s : State) : State :=
  modPort h (fun p => { p with decoders := tput none p.decoders n (some d), decoderErr := p.decoderErr &&& ~~~((1 : BitVec 4) <<< n) }) s

/-- R347: the commit of decoder n is refused for a cause: its error bit, and GC_HDM_ERR. -/
def commitRefused (h : Head) (n cause : Nat) (s : State) : State :=
  rset (modPort h (fun p => { p with decoderErr := p.decoderErr ||| (1 <<< n) }) s) 0x120
    (BitVec.ofNat 32 (n + 4 * headNo h + 8 + cause * 16))

theorem commitOp_commits {h : Head} {n : Nat} {r : DecoderReq} {s : State}
    (hcause : commitCause (uncommitted h n s) h n (decoderOf (uncommitted h n s) h n r) = 0) : commitOp h n r s =
      raise (headNo h) 1 0x02 ((det3 n 0).on h) (committed h n (decoderOf (uncommitted h n s) h n r) (uncommitted h n s)) :=
  if_pos (beq_iff_eq.2 hcause)

theorem commitOp_refuses {h : Head} {n : Nat} {r : DecoderReq} {s : State}
    (hcause : commitCause (uncommitted h n s) h n (decoderOf (uncommitted h n s) h n r) ≠ 0) : commitOp h n r s =
      raise (headNo h) 1 0x01 ((det3 n (commitCause (uncommitted h n s) h n (decoderOf (uncommitted h n s) h n r))).on h)
        (commitRefused h n (commitCause (uncommitted h n s) h n (decoderOf (uncommitted h n s) h n r)) (uncommitted h n s)) :=
  if_neg (mt beq_iff_eq.1 hcause)

theorem cause_le {c : Prop} [Decidable c] {a b : Nat} (ha : a ≤ 9) (hb : b ≤ 9) : (if c then a else b) ≤ 9 := by
  split
  exacts [ha, hb]

/-- R347: the causes are numbered 1 to 9. -/
theorem commitCause_le (s : State) (h : Head) (n : Nat) (d : Decoder) : commitCause s h n d ≤ 9 := by
  unfold commitCause
  iterate 9 refine cause_le (by decide) ?_
  decide

/-- t is s but for decoder n of head h, error bits, registers and notification: a commit touches no other head, ledger or purse. -/
def CommitFrame (h : Head) (n : Nat) (s t : State) : Prop :=
  (∀ m, m ≠ n → tget none (portOf t h).decoders m = tget none (portOf s h).decoders m) ∧
    (portOf t (otherHead h)).bare = (portOf s (otherHead h)).bare ∧ t.led = s.led ∧ t.pur = s.pur

theorem CommitFrame.trans {h : Head} {n : Nat} {s t u : State} (hst : CommitFrame h n s t) (htu : CommitFrame h n t u) :
    CommitFrame h n s u := by
  obtain ⟨hdec, hother, hled, hpur⟩ := hst
  obtain ⟨hdec', hother', hled', hpur'⟩ := htu
  exact ⟨fun m hm => (hdec' m hm).trans (hdec m hm), hother'.trans hother, hled'.trans hled, hpur'.trans hpur⟩

theorem Noted.commitFrame {s t : State} (hst : Noted s t) (h : Head) (n : Nat) : CommitFrame h n s t :=
  ⟨fun _ _ => by rw [hst.decoders], hst.portBare _, hst.led, hst.pur⟩

theorem uncommitted_frame (h : Head) (n : Nat) (s : State) : CommitFrame h n s (uncommitted h n s) := by
  refine ⟨fun m hm => ?_, congrArg Port.bare (portOf_modPort_other h _ s), modPort_led h _ s, modPort_pur h _ s⟩
  rw [uncommitted, portOf_modPort_same]
  exact tget_tput_ne none none (portOf s h).decoders n m none hm

theorem committed_frame (h : Head) (n : Nat) (d : Decoder) (s : State) : CommitFrame h n s (committed h n d s) := by
  refine ⟨fun m hm => ?_, congrArg Port.bare (portOf_modPort_other h _ s), modPort_led h _ s, modPort_pur h _ s⟩
  rw [committed, portOf_modPort_same]
  exact tget_tput_ne none none (portOf s h).decoders n m (some d) hm

/-- The port of the head after a refused commit. -/
theorem portOf_commitRefused (h : Head) (n cause : Nat) (s : State) :
    portOf (commitRefused h n cause s) h = { portOf s h with decoderErr := (portOf s h).decoderErr ||| (1 <<< n) } := by cases h <;> rfl

theorem commitRefused_frame (h : Head) (n cause : Nat) (s : State) : CommitFrame h n s (commitRefused h n cause s) :=
  ⟨fun m _ => by rw [portOf_commitRefused], by cases h <;> rfl, modPort_led h _ s, modPort_pur h _ s⟩

theorem uncommitted_decoder (h : Head) (n : Nat) (s : State) : tget none (portOf (uncommitted h n s) h).decoders n = none := by
  rw [uncommitted, portOf_modPort_same]
  exact tget_tput_same none (portOf s h).decoders n none

/-- The error bit of decoder n, clear after a commit and set after a refusal. -/
theorem decoderErr_clear (e : BitVec 4) (n : Nat) : (e &&& ~~~((1 : BitVec 4) <<< n)).getLsbD n = false := by
  rw [BitVec.getLsbD_and, BitVec.getLsbD_not, BitVec.getLsbD_shiftLeft, Nat.sub_self]
  by_cases hn : n < 4
  · rw [decide_eq_true hn, decide_eq_false (Nat.lt_irrefl n)]
    exact Bool.and_false _
  · rw [decide_eq_false hn]
    exact Bool.and_false _

theorem decoderErr_set (e : BitVec 4) {n : Nat} (hn : n < 4) : (e ||| (1 <<< n)).getLsbD n = true := by
  rw [BitVec.getLsbD_or, BitVec.natCast_eq_ofNat, BitVec.getLsbD_ofNat, Nat.one_shiftLeft, Nat.testBit_two_pow_self]
  simp [hn]

theorem commitOp_frame (h : Head) (n : Nat) (r : DecoderReq) (s : State) : CommitFrame h n s (commitOp h n r s) := by
  by_cases hcause : commitCause (uncommitted h n s) h n (decoderOf (uncommitted h n s) h n r) = 0
  · rw [commitOp_commits hcause]
    exact ((uncommitted_frame h n s).trans (committed_frame h n _ _)).trans ((raise_noted _ _ _ _ _).commitFrame h n)
  · rw [commitOp_refuses hcause]
    exact ((uncommitted_frame h n s).trans (commitRefused_frame h n _ _)).trans ((raise_noted _ _ _ _ _).commitFrame h n)

theorem headNo_le (h : Head) : headNo h ≤ 1 := by cases h <;> decide

/-- A reason of a head's port is pending once it is raised. -/
theorem raise_head_pends (h : Head) (src n : Nat) (d : Det) (s : State) (hs : src < 32) (hn : n < 128) :
    Pends (headNo h) src n (raise (headNo h) src n d s) :=
  raise_pends_low _ src n d s ((headNo_le h).trans (by decide)) hs hn

theorem commitOp_committed {h : Head} {n : Nat} {r : DecoderReq} {s : State}
    (hcause : commitCause (uncommitted h n s) h n (decoderOf (uncommitted h n s) h n r) = 0) :
    tget none (portOf (commitOp h n r s) h).decoders n = some (decoderOf (uncommitted h n s) h n r) ∧
      (portOf (commitOp h n r s) h).decoderErr.getLsbD n = false ∧ Pends (headNo h) 1 0x02 (commitOp h n r s) := by
  rw [commitOp_commits hcause]
  have hnoted := raise_noted (headNo h) 1 0x02 ((det3 n 0).on h) (committed h n (decoderOf (uncommitted h n s) h n r) (uncommitted h n s))
  rw [hnoted.decoders, hnoted.decoderErr, committed, portOf_modPort_same]
  exact ⟨tget_tput_same none (portOf (uncommitted h n s) h).decoders n (some (decoderOf (uncommitted h n s) h n r)), decoderErr_clear _ _,
    raise_head_pends h 1 0x02 _ _ (by decide) (by decide)⟩

/-- R347: GC_HDM_ERR holds the decoder, a valid bit and the cause. -/
theorem rval_commitRefused (h : Head) {n cause : Nat} (hn : n < 4) (hcause : cause ≤ 9) (s : State) :
    rval (commitRefused h n cause s) 0x120 = n + 4 * headNo h + 8 + 16 * cause := by
  have hsmall : n + 4 * headNo h + 8 + cause * 16 < 2 ^ 32 :=
    Nat.lt_of_lt_of_le (Nat.add_lt_add_of_lt_of_le (Nat.add_lt_add_right (Nat.add_lt_add_of_lt_of_le hn
      (Nat.mul_le_mul_left 4 (headNo_le h))) 8) (Nat.mul_le_mul_right 16 hcause)) (by decide)
  rw [rval, commitRefused, rget_rset_same, BitVec.toNat_ofNat, Nat.mod_eq_of_lt hsmall, Nat.mul_comm cause]

theorem commitOp_refused {h : Head} {n : Nat} {r : DecoderReq} {s : State} (hn : n < 4)
    (hcause : commitCause (uncommitted h n s) h n (decoderOf (uncommitted h n s) h n r) ≠ 0) :
    tget none (portOf (commitOp h n r s) h).decoders n = none ∧ (portOf (commitOp h n r s) h).decoderErr.getLsbD n = true ∧
      rval (commitOp h n r s) 0x120 =
        n + 4 * headNo h + 8 + 16 * commitCause (uncommitted h n s) h n (decoderOf (uncommitted h n s) h n r) ∧
      Pends (headNo h) 1 0x01 (commitOp h n r s) := by
  rw [commitOp_refuses hcause]
  generalize hc : commitCause (uncommitted h n s) h n (decoderOf (uncommitted h n s) h n r) = cause
  have hle : cause ≤ 9 := hc ▸ commitCause_le _ _ _ _
  have hnoted := raise_noted (headNo h) 1 0x01 ((det3 n cause).on h) (commitRefused h n cause (uncommitted h n s))
  rw [hnoted.decoders, hnoted.decoderErr, portOf_commitRefused, rval, hnoted.rget 0x120 (.inl (by decide))]
  exact ⟨uncommitted_decoder h n s, decoderErr_set _ hn, rval_commitRefused h hn hle _, raise_head_pends h 1 0x01 _ _ (by decide) (by decide)⟩

theorem exec_decoderCommit_off {h : Head} {n : Nat} {s : State}
    (hoff : headPresent s h = false ∨ 4 ≤ n ∨ (portOf s h).rate = 0 ∨ s.sup.inReset = true) (r : DecoderReq) :
    exec (.decoderCommit h n r) s = .next s := by
  refine congrArg Host.Outcome.next (if_neg ?_)
  simp only [Bool.and_eq_true, decide_eq_true_eq, bne_iff_ne, Bool.not_eq_true']
  rintro ⟨⟨⟨hpresent, hn⟩, hrate⟩, hreset⟩
  rcases hoff with h | h | h | h
  exacts [Bool.false_ne_true (h.symm.trans hpresent), Nat.not_lt.2 h hn, hrate h, Bool.false_ne_true (hreset.symm.trans h)]

theorem exec_decoderCommit {h : Head} {n : Nat} {s : State} (hpresent : headPresent s h = true) (hn : n < 4)
    (hrate : (portOf s h).rate ≠ 0) (hreset : s.sup.inReset = false) (r : DecoderReq) :
    exec (.decoderCommit h n r) s = .next (commitOp h n r s) :=
  congrArg Host.Outcome.next (if_pos (by simp [hpresent, hn, hrate, hreset]))

/-! IDE streams (R359, R362). -/

/-- R359: a port whose stream x is secure. -/
def Port.secured (x : IdeStream) (p : Port) : Port :=
  { p with ideIo := p.ideIo || decide (x = .io), ideMem := p.ideMem || decide (x = .mem), ideMemOnce := p.ideMemOnce || decide (x = .mem) }

/-- R362: a port whose stream x has ended. -/
def Port.expired (x : IdeStream) (p : Port) : Port := { p with ideIo := p.ideIo && decide (x ≠ .io), ideMem := p.ideMem && decide (x ≠ .mem) }

theorem exec_ideSecure_off {h : Head} {s : State} (hoff : (portOf s h).level ≠ .cxl31 ∨ headPresent s h = false) (x : IdeStream) :
    exec (.ideSecure h x) s = .next s := congrArg Host.Outcome.next (if_pos (by simpa using hoff))

theorem exec_ideSecure {h : Head} {s : State} (hlevel : (portOf s h).level = .cxl31) (hpresent : headPresent s h = true) (x : IdeStream) :
    exec (.ideSecure h x) s =
      .next (raise (headNo h) 2 0x01 ((det3 (b2n (x == .mem)) 0).on h) (modPort h (·.secured x) s)) := by
  refine congrArg Host.Outcome.next ((if_neg (by simp [hlevel, hpresent])).trans ?_)
  dsimp only
  congr 2
  funext p
  cases x <;> simp [Port.secured]

theorem exec_ideKeyExpiry (h : Head) (x : IdeStream) (s : State) : exec (.ideKeyExpiry h x) s = .next (modPort h (·.expired x) s) := by
  refine congrArg Host.Outcome.next (congrArg (modPort h · s) ?_)
  funext p
  cases x <;> simp [Port.expired]

/-! DOE Discovery and CDAT (R349, R350, R360). -/

theorem doeDiscovery_eq (n : Nat) : doeDiscovery n =
    toLE 2 (if n < 3 then 0x0001 else if n = 3 then 0x1E98 else 0xFFFF) ++
      (if n < 3 then [BitVec.ofNat 8 n, BitVec.ofNat 8 (n + 1)] else if n = 3 then [2, 0] else [0, 0]) :=
  match n with
  | 0 | 1 | 2 | 3 => rfl
  | n + 4 => by rw [if_neg (by omega), if_neg (by omega), if_neg (by omega), if_neg (by omega)]; rfl

theorem foldl_add_byte (bs : List Byte) (a : Byte) : bs.foldl (· + ·) a = a + byteSum bs := by
  induction bs generalizing a with
  | nil => exact (BitVec.add_zero a).symm
  | cons b bs ih => rw [List.foldl_cons, ih, show byteSum (b :: bs) = 0 + b + byteSum bs from ih (0 + b),
    show (0 : Byte) + b = b from BitVec.zero_add b, BitVec.add_assoc]

theorem byteSum_append (as bs : List Byte) : byteSum (as ++ bs) = byteSum as + byteSum bs := by
  rw [byteSum, List.foldl_append, foldl_add_byte]
  rfl

/-- R350: the checksum of the header makes the CDAT's bytes sum to zero. -/
theorem byteSum_cdat (s : State) : byteSum (cdatHeader s ++ (cdatEntries s).flatten) = 0 := by
  rw [cdatHeader, byteSum_append, byteSum_append, byteSum_append, byteSum_append (toLE 4 _ ++ [1]), show byteSum (zeros 10) = 0 from rfl]
  generalize byteSum (toLE 4 _ ++ [1]) = a
  generalize byteSum (cdatEntries s).flatten = c
  rw [show byteSum [-(a + c)] = -(a + c) from BitVec.zero_add _]
  ring

/-! SPDM requests (R358). -/

/-- R358: the response to an SPDM request that is taken, as a free value of the message's rest leaves the state. -/
def spdmSent (h : Head) (q : SpdmReq) (s : State) : State :=
  let m : List Byte := if q == .measurements then [BitVec.ofNat 8 s.ctl.fwRunning, BitVec.ofNat 8 (lifeNo s.ctl.life), 0xB1] else []
  send (.doe h ([0x12, BitVec.ofNat 8 (spdmCode q)] ++ m ++ toLE 64 (takeFree 512 s).1.toNat)) (takeFree 512 s).2

/-- R358: the session that a request opens or closes, with its reason. -/
def spdmSession (h : Head) (q : SpdmReq) (s : State) : State :=
  match q with
  | .finish => raise (headNo h) 2 0x03 (det0.on h) (modPort h (fun p => { p with sessions := p.sessions + 1 }) s)
  | .endSession => raise (headNo h) 2 0x03 (det0.on h) (modPort h (fun p => { p with sessions := p.sessions - 1 }) s)
  | _ => s

theorem spdmAnswer_refused {h : Head} {q : SpdmReq} {s : State} (href : spdmRefused (portOf s h) q = true) :
    spdmAnswer h q s = send (.doe h [0x12, 0x7F]) s := if_pos href

theorem spdmAnswer_taken {h : Head} {q : SpdmReq} {s : State} (href : spdmRefused (portOf s h) q = false) :
    spdmAnswer h q s = spdmSession h q (spdmSent h q s) := if_neg (ne_true_of_eq_false href)

theorem spdmRefused_of {p : Port} {q : SpdmReq} (h : (4 ≤ p.sessions ∧ (q = .keyExchange ∨ q = .finish)) ∨
    (p.sessions = 0 ∧ (q = .endSession ∨ q = .heartbeat ∨ q = .keyUpdate))) : spdmRefused p q = true := by
  rcases h with ⟨hfull, rfl | rfl⟩ | ⟨hnone, rfl | rfl | rfl⟩
  exacts [decide_eq_true hfull, decide_eq_true hfull, beq_iff_eq.2 hnone, beq_iff_eq.2 hnone, beq_iff_eq.2 hnone]

/-- What a session's opening or closing leaves alone, and the sessions it leaves. -/
theorem spdmSession_spec (h : Head) (q : SpdmReq) (s : State) :
    (spdmSession h q s).said = s.said ∧
      (portOf (spdmSession h q s) h).sessions = (if q = .finish then (portOf s h).sessions + 1
        else if q = .endSession then (portOf s h).sessions - 1 else (portOf s h).sessions) ∧
      (portOf (spdmSession h q s) (otherHead h)).bare = (portOf s (otherHead h)).bare ∧
      (spdmSession h q s).led = s.led ∧ (spdmSession h q s).pur = s.pur := by
  have hcounted (f : Port → Port) : (raise (headNo h) 2 0x03 (det0.on h) (modPort h f s)).said = s.said ∧
      (portOf (raise (headNo h) 2 0x03 (det0.on h) (modPort h f s)) h).sessions = (f (portOf s h)).sessions ∧
      (portOf (raise (headNo h) 2 0x03 (det0.on h) (modPort h f s)) (otherHead h)).bare = (portOf s (otherHead h)).bare ∧
      (raise (headNo h) 2 0x03 (det0.on h) (modPort h f s)).led = s.led ∧
      (raise (headNo h) 2 0x03 (det0.on h) (modPort h f s)).pur = s.pur := by
    have hnoted := raise_noted (headNo h) 2 0x03 (det0.on h) (modPort h f s)
    refine ⟨hnoted.said.trans (modPort_said h f s), (hnoted.sessions h).trans ?_, (hnoted.portBare _).trans ?_,
      hnoted.led.trans (modPort_led h f s), hnoted.pur.trans (modPort_pur h f s)⟩
    · rw [portOf_modPort_same]
    · rw [portOf_modPort_other]
  cases q
  case finish => exact hcounted _
  case endSession => exact hcounted _
  all_goals exact ⟨rfl, rfl, rfl, rfl, rfl⟩

theorem portOf_spdmSent (h d : Head) (q : SpdmReq) (s : State) : portOf (spdmSent h q s) d = portOf s d := by cases d <;> rfl

/-! Configuration requests (R341, R356). -/

theorem subsystemId_lt (s : State) : subsystemId s < 2 ^ 32 := by
  have hlow {x : Nat} : x % 2 ^ 16 < 2 ^ 16 := Nat.mod_lt _ (by decide)
  exact Nat.lt_of_lt_of_le (Nat.add_lt_add_right hlow _)
    ((Nat.add_comm _ _).trans_le (Nat.succ_mul _ _ ▸ Nat.mul_le_mul_right (2 ^ 16) hlow))

/-- R341: the dwords of the header that the spec fixes, no write changes. -/
theorem cfgWriteOp_header (h : Head) {n : Nat} (hn : n = 0 ∨ n = 2 ∨ n = 8 ∨ n = 9 ∨ n = 11) (v : BitVec 32) (s : State) :
    cfgWriteOp h n v s = s := by
  rcases hn with rfl | rfl | rfl | rfl | rfl <;> exact if_pos rfl

/-- Settles O54: a commit is refused by its first cause, and each request of a head's function is one message. -/
theorem hostPortRequests : Obligations.HostPortRequests := by
  unfold Obligations.HostPortRequests
  refine ⟨fun h n r s => ⟨fun hoff => exec_decoderCommit_off hoff r, fun hpresent hn hrate hreset => ?commit⟩,
    fun h x s => ⟨fun hoff => exec_ideSecure_off hoff x, fun hlevel hpresent => ?ide, exec_ideKeyExpiry h x s⟩,
    fun h s => ⟨?down, ?up⟩⟩
  case commit =>
    obtain ⟨hothers, hother, hled, hpur⟩ := commitOp_frame h n r s
    exact ⟨_, exec_decoderCommit hpresent hn hrate hreset r, hothers, hother, hled, hpur, uncommitted h n s, rfl, _, rfl,
      ⟨rfl, rfl, rfl, rfl, rfl, rfl⟩, commitOp_committed, commitOp_refused hn⟩
  case ide => exact ⟨_, exec_ideSecure hlevel hpresent x, raise_head_pends h 2 0x01 _ _ (by decide) (by decide), raise_noted _ _ _ _ _⟩
  case down =>
    intro hdown
    have hoff : (!functionUp s h) = true := by rw [hdown]; rfl
    exact ⟨fun r => congrArg Host.Outcome.next (if_pos hoff), fun r => congrArg Host.Outcome.next (if_neg (ne_true_of_eq_false hdown)),
      fun r => congrArg Host.Outcome.next (if_pos hoff)⟩
  case up =>
    intro hup
    have hon : ¬ (!functionUp s h) = true := by rw [hup]; decide
    have hspdm (q : SpdmReq) : exec (.spdmRequest h q) s = .next (spdmAnswer h q s) := congrArg Host.Outcome.next (if_pos hup)
    refine ⟨fun n => congrArg Host.Outcome.next (if_neg hon), fun n v => congrArg Host.Outcome.next (if_neg hon), ?_,
      congrArg (fun d : BitVec 32 => d.toNat / 2 ^ 8) (show cfgRead s h 2 = 0x050210B1#32 from rfl), rfl, rfl, ?_,
      fun n hn v => cfgWriteOp_header h hn v s, fun n => congrArg Host.Outcome.next (if_neg hon),
      fun n => congrArg Host.Outcome.next (if_neg hon), doeDiscovery_eq, byteSum_cdat s,
      fun q => (congrArg Host.Outcome.next (if_neg hon)).trans (hspdm q).symm, fun q => ⟨_, hspdm q, fun href => ?_, fun htaken => ?_⟩⟩
    · cases h <;> rfl
    · exact Nat.mod_eq_of_lt (subsystemId_lt s)
    · exact spdmAnswer_refused (spdmRefused_of href)
    · obtain ⟨hsaid, hsessions, hother, hled, hpur⟩ := spdmSession_spec h q (spdmSent h q s)
      rw [spdmAnswer_taken htaken, hsaid, hsessions, hother, hled, hpur, portOf_spdmSent, portOf_spdmSent]
      exact ⟨rfl, ⟨_, rfl, rfl⟩, rfl, rfl, rfl, rfl⟩

end Sys2Proof.Machine
end

section
/-! The pair link's loss (R407): a state in which it retries a host read, which then starts its media read. -/

namespace Sys2Proof.Machine

open Sys2Proof

/-- A host read of line 0 that waits for a way of its snoop-filter set (R69). -/
def filterRead : Txn :=
  { head := .a, tag := 0, write := false, lineNo := 0, sector := 0, key := 0, since := 0, wait := .filterFull, data := 0, enables := 0,
    poison := false, own := false }

/-- A joined pair without a barrier, a forward or locked time, whose link has been silent for 64 us: folio 0 is mapped to media
folio 0, and a read of it waits, the filter now having room. -/
def silentPair : State :=
  let s := State.reset.modSup fun u => { u with state := .on, inReset := false, portbMode := 2 }
  let s := s.modLed fun l => { l with recovered := true, memActive := true, entries := [(0, { entry0 with media := 0, state := .live })] }
  let s := s.modPair fun p => { p with state := .joined, step := .up }
  let s := s.modFe fun f => { f with txns := [filterRead] }
  s.setClock 64000

/-- The statement's hypotheses hold of that state. -/
theorem silentPair_silent :
    pairMode silentPair = true ∧ 64000 + silentPair.pair.lastRx ≤ silentPair.clock ∧ silentPair.pair.state = .joined ∧
      silentPair.pair.barrier = none ∧ silentPair.pair.fwds = [] ∧ silentPair.pair.timeLocked = false := by
  exact ⟨rfl, Nat.le_refl 64000, rfl, rfl, rfl, rfl⟩

set_option maxRecDepth 20000 in
/-- The loss retries the read, which queues a media read. -/
theorem silentPair_lost : (stOf (exec .pairLost silentPair) silentPair).med.nextOp = silentPair.med.nextOp + 1 := by decide

/-- Refutes O47: PAIR_LOST retries the accesses that wait for no single event (R69, R530), and a read that finds room starts its
media read, so that the media block is not s's. It fails for want of the hypothesis that no such access waits. -/
theorem not_pairLink : ¬ Obligations.PairLink := by
  unfold Obligations.PairLink
  rintro ⟨-, -, -, -, -, -, hlost⟩
  obtain ⟨hpair, hsilent, hjoined, hbarrier, hfwds, htime⟩ := silentPair_silent
  obtain ⟨t, hexec, -, -, -, -, -, -, -, -, hmed⟩ := (hlost silentPair hpair hsilent).1 hjoined hbarrier hfwds htime
  have hqueued := silentPair_lost
  rw [show exec .pairLost silentPair = .next t from hexec, show stOf (.next t) silentPair = t from rfl, hmed] at hqueued
  exact Nat.succ_ne_self _ hqueued.symm

end Sys2Proof.Machine
end
